-- ==== Sys2Proof/Word.lean ====
section
/-!
DEFINITION. The machine's word types and their plainest arithmetic (R5, R29, R30).
-/

namespace Sys2Proof

/-- A word is 4 bytes (R5). -/
abbrev Word := BitVec 32
/-- A half is 2 bytes (R5). -/
abbrev Half := BitVec 16
/-- A byte. -/
abbrev Byte := BitVec 8
/-- A dword is 8 bytes (R5). -/
abbrev Dword := BitVec 64
/-- A 57-bit virtual address (R10). -/
abbrev VAddr := BitVec 57
/-- A handle record (R118). -/
abbrev HRec := BitVec 256

/-- A table from numbers to data, sorted by key with no repeated key. -/
abbrev Tbl (α : Type) := List (Nat × α)

/-- Bits `[lo + n - 1 : lo]` of a number. -/
@[reducible] def fld (w lo n : Nat) : Nat := w / 2 ^ lo % 2 ^ n

end Sys2Proof
end

