-- ==== Sys2Proof/Syntax.lean ====
section
/-!
DEFINITION. The syntax: one constructor per row of the specification's table of operations and events. A field of an
instruction word keeps the letter and the width that the table gives it; an event, which has no word, carries the
numbers that say which object of the machine it is about.
-/

namespace Sys2Proof

/-- A signed image: bytes, a version for the rollback counter, and the signature over its digest (R378). -/
structure SignedBlob where
  bytes : List Byte
  version : Nat
  signature : List Byte
  deriving DecidableEq, Repr

/-- One page of a code version: virtual 64 KiB page, physical base (R15). -/
structure CodePage where
  va : Nat
  pa : Nat
  deriving DecidableEq, Repr

/-- An Isolo image as the loader gives it to the device (R139, R148, R157): the context, the memory-model revision,
the handler entry, the exported entries, the pages of its text, the bytes and page descriptors that the loader
stores in device memory, and the bytes that its hash covers. -/
structure Image where
  asid : Nat
  mmr : Nat
  trapEntry : Nat
  exports : List Nat
  pages : List CodePage
  contents : List (Nat × List Byte)
  file : List Byte
  deriving DecidableEq, Repr

/-- An access of an agent outside the module (R333, R370, R373). -/
inductive Access where
  /-- A load of `n` bytes. -/
  | load (pa n : Nat)
  /-- A store of bytes. -/
  | store (pa : Nat) (bytes : List Byte)
  /-- An atomic compare and swap, which R329 has the host use. -/
  | cas (pa : Nat) (expected new : List Byte)
  /-- An atomic add. -/
  | add (pa n value : Nat)
  deriving DecidableEq, Repr

/-- The signed firmware grid that the host starts at level 2 (R254): a launch record's values. -/
structure ManagementGrid where
  entry : Nat
  waves : Nat
  width : Nat
  live : Nat
  budget : Nat
  scratch : Nat
  args : List Nat
  deriving DecidableEq, Repr

/-- The operations and events of the Kaztur 7512. -/
inductive Instr where
  /-- HS: Hint-stall instruction: one issue of class HINT that adds n to the strand's instruction count and changes no state (R65) -/
  | hs (n : BitVec 8)
  /-- ADD: Writes the 32-bit modular sum of two registers (R80) -/
  | add (t : BitVec 1) (d : BitVec 7) (a : BitVec 7) (b : BitVec 7)
  /-- SUB: Writes the 32-bit modular difference of two registers (R80) -/
  | sub (t : BitVec 1) (d : BitVec 7) (a : BitVec 7) (b : BitVec 7)
  /-- AND: Writes the bitwise AND of two registers (R80) -/
  | and (t : BitVec 1) (d : BitVec 7) (a : BitVec 7) (b : BitVec 7)
  /-- OR: Writes the bitwise OR of two registers (R80) -/
  | or (t : BitVec 1) (d : BitVec 7) (a : BitVec 7) (b : BitVec 7)
  /-- XOR: Writes the bitwise XOR of two registers (R80) -/
  | xor (t : BitVec 1) (d : BitVec 7) (a : BitVec 7) (b : BitVec 7)
  /-- ANDN: Writes x AND NOT y (R80) -/
  | andn (t : BitVec 1) (d : BitVec 7) (a : BitVec 7) (b : BitVec 7)
  /-- MIN: Writes the signed minimum of two registers (R80) -/
  | min (t : BitVec 1) (d : BitVec 7) (a : BitVec 7) (b : BitVec 7)
  /-- MAX: Writes the signed maximum of two registers (R80) -/
  | max (t : BitVec 1) (d : BitVec 7) (a : BitVec 7) (b : BitVec 7)
  /-- MINB: Writes the unsigned minimum of two registers (R80) -/
  | minb (t : BitVec 1) (d : BitVec 7) (a : BitVec 7) (b : BitVec 7)
  /-- MAXB: Writes the unsigned maximum of two registers (R80) -/
  | maxb (t : BitVec 1) (d : BitVec 7) (a : BitVec 7) (b : BitVec 7)
  /-- ABS: Writes the absolute value modulo 2^32 (R80) -/
  | abs (t : BitVec 1) (d : BitVec 7) (a : BitVec 7)
  /-- ADDC: Writes the carry out of an unsigned addition (R80) -/
  | addc (t : BitVec 1) (d : BitVec 7) (a : BitVec 7) (b : BitVec 7)
  /-- SUBB: Writes the borrow out of an unsigned subtraction (R80) -/
  | subb (t : BitVec 1) (d : BitVec 7) (a : BitVec 7) (b : BitVec 7)
  /-- ADDS: Writes the signed saturating sum (R80) -/
  | adds (t : BitVec 1) (d : BitVec 7) (a : BitVec 7) (b : BitVec 7)
  /-- SUBS: Writes the signed saturating difference (R80) -/
  | subs (t : BitVec 1) (d : BitVec 7) (a : BitVec 7) (b : BitVec 7)
  /-- NEG: Writes the negation modulo 2^32 (R80) -/
  | neg (t : BitVec 1) (d : BitVec 7) (a : BitVec 7)
  /-- ADD_IMM: Adds an immediate to a register (R81) -/
  | addImm (t : BitVec 1) (d : BitVec 7) (a : BitVec 7) (i : BitVec 7)
  /-- SUB_IMM: Subtracts an immediate from a register (R81) -/
  | subImm (t : BitVec 1) (d : BitVec 7) (a : BitVec 7) (i : BitVec 7)
  /-- AND_IMM: ANDs a register with an immediate (R81) -/
  | andImm (t : BitVec 1) (d : BitVec 7) (a : BitVec 7) (i : BitVec 7)
  /-- OR_IMM: ORs a register with an immediate (R81) -/
  | orImm (t : BitVec 1) (d : BitVec 7) (a : BitVec 7) (i : BitVec 7)
  /-- XOR_IMM: XORs a register with an immediate (R81) -/
  | xorImm (t : BitVec 1) (d : BitVec 7) (a : BitVec 7) (i : BitVec 7)
  /-- ANDN_IMM: ANDs a register with the complement of an immediate (R81) -/
  | andnImm (t : BitVec 1) (d : BitVec 7) (a : BitVec 7) (i : BitVec 7)
  /-- MIN_IMM: Writes the signed minimum of a register and an immediate (R81) -/
  | minImm (t : BitVec 1) (d : BitVec 7) (a : BitVec 7) (i : BitVec 7)
  /-- MAX_IMM: Writes the signed maximum of a register and an immediate (R81) -/
  | maxImm (t : BitVec 1) (d : BitVec 7) (a : BitVec 7) (i : BitVec 7)
  /-- MINB_IMM: Writes the unsigned minimum of a register and an immediate (R81) -/
  | minbImm (t : BitVec 1) (d : BitVec 7) (a : BitVec 7) (i : BitVec 7)
  /-- MAXB_IMM: Writes the unsigned maximum of a register and an immediate (R81) -/
  | maxbImm (t : BitVec 1) (d : BitVec 7) (a : BitVec 7) (i : BitVec 7)
  /-- ADDC_IMM: Writes the carry out of adding an immediate (R81) -/
  | addcImm (t : BitVec 1) (d : BitVec 7) (a : BitVec 7) (i : BitVec 7)
  /-- SUBB_IMM: Writes the borrow out of subtracting an immediate (R81) -/
  | subbImm (t : BitVec 1) (d : BitVec 7) (a : BitVec 7) (i : BitVec 7)
  /-- ADDS_IMM: Writes the signed saturating sum with an immediate (R81) -/
  | addsImm (t : BitVec 1) (d : BitVec 7) (a : BitVec 7) (i : BitVec 7)
  /-- SUBS_IMM: Writes the signed saturating difference with an immediate (R81) -/
  | subsImm (t : BitVec 1) (d : BitVec 7) (a : BitVec 7) (i : BitVec 7)
  /-- SHL: Shifts left by a register count (R82) -/
  | shl (t : BitVec 1) (d : BitVec 7) (a : BitVec 7) (b : BitVec 7)
  /-- SHR: Shifts right logically (R82) -/
  | shr (t : BitVec 1) (d : BitVec 7) (a : BitVec 7) (b : BitVec 7)
  /-- SAR: Shifts right arithmetically (R82) -/
  | sar (t : BitVec 1) (d : BitVec 7) (a : BitVec 7) (b : BitVec 7)
  /-- ROL: Rotates left (R82) -/
  | rol (t : BitVec 1) (d : BitVec 7) (a : BitVec 7) (b : BitVec 7)
  /-- BFX: Extracts a sign-extended bit field (R82) -/
  | bfx (t : BitVec 1) (d : BitVec 7) (a : BitVec 7) (b : BitVec 7)
  /-- BFXB: Extracts a zero-extended bit field (R82) -/
  | bfxb (t : BitVec 1) (d : BitVec 7) (a : BitVec 7) (b : BitVec 7)
  /-- BFI: Inserts a bit field into the old destination (R82) -/
  | bfi (t : BitVec 1) (d : BitVec 7) (a : BitVec 7) (b : BitVec 7)
  /-- CLZ: Counts leading zero bits (R82) -/
  | clz (t : BitVec 1) (d : BitVec 7) (a : BitVec 7)
  /-- POPC: Counts one bits (R82) -/
  | popc (t : BitVec 1) (d : BitVec 7) (a : BitVec 7)
  /-- BREV: Reverses the bit order (R82) -/
  | brev (t : BitVec 1) (d : BitVec 7) (a : BitVec 7)
  /-- PRMT: Permutes bytes under the old destination as selector (R82) -/
  | prmt (t : BitVec 1) (d : BitVec 7) (a : BitVec 7) (b : BitVec 7)
  /-- FSHF: Funnel-shifts a register pair right by the old destination's count (R82) -/
  | fshf (t : BitVec 1) (d : BitVec 7) (a : BitVec 7) (b : BitVec 7)
  /-- MUL: Writes the low 32 bits of a product (R83) -/
  | mul (t : BitVec 1) (d : BitVec 7) (a : BitVec 7) (b : BitVec 7)
  /-- MULHI: Writes the high half of a signed product (R83) -/
  | mulhi (t : BitVec 1) (d : BitVec 7) (a : BitVec 7) (b : BitVec 7)
  /-- MULHIB: Writes the high half of an unsigned product (R83) -/
  | mulhib (t : BitVec 1) (d : BitVec 7) (a : BitVec 7) (b : BitVec 7)
  /-- MAD: Writes the low 32 bits of a product plus the old destination (R83) -/
  | mad (t : BitVec 1) (d : BitVec 7) (a : BitVec 7) (b : BitVec 7)
  /-- MADHI: Writes the high half of a signed multiply-add (R83) -/
  | madhi (t : BitVec 1) (d : BitVec 7) (a : BitVec 7) (b : BitVec 7)
  /-- MADHIB: Writes the high half of an unsigned multiply-add (R83) -/
  | madhib (t : BitVec 1) (d : BitVec 7) (a : BitVec 7) (b : BitVec 7)
  /-- DIV: Starts a signed divide in the divide unit (R84) -/
  | div (d : BitVec 7) (a : BitVec 7) (b : BitVec 7)
  /-- DIVB: Starts an unsigned divide (R84) -/
  | divb (d : BitVec 7) (a : BitVec 7) (b : BitVec 7)
  /-- REM: Starts a signed remainder (R84) -/
  | rem (d : BitVec 7) (a : BitVec 7) (b : BitVec 7)
  /-- REMB: Starts an unsigned remainder (R84) -/
  | remb (d : BitVec 7) (a : BitVec 7) (b : BitVec 7)
  /-- CMP: Compares two registers under a condition and writes a predicate (R85) -/
  | cmp (c : BitVec 4) (p : BitVec 3) (a : BitVec 7) (b : BitVec 7)
  /-- CMPI: Compares a register with an immediate and writes a predicate (R85) -/
  | cmpi (c : BitVec 4) (p : BitVec 3) (a : BitVec 7) (i : BitVec 7)
  /-- MOV: Copies a register with its poison bit (R86) -/
  | mov (t : BitVec 1) (d : BitVec 7) (a : BitVec 7)
  /-- MOVI: Writes a sign-extended immediate (R86) -/
  | movi (t : BitVec 1) (d : BitVec 7) (i : BitVec 14)
  /-- RDSR: Reads a special register into a register (R87) -/
  | rdsr (t : BitVec 1) (d : BitVec 7) (n : BitVec 14)
  /-- RDW: Reads a wave w register (R86) -/
  | rdw (t : BitVec 1) (d : BitVec 7) (n : BitVec 4)
  /-- RDK: Reads a wave mask register into a pair (R86) -/
  | rdk (t : BitVec 1) (d : BitVec 7) (n : BitVec 3)
  /-- MOV_TO_FSTAT: Replaces FSTAT flags after earlier flag producers deliver (R86) -/
  | movToFstat (a : BitVec 7)
  /-- MOV_FROM_FSTAT: Reads FSTAT after earlier flag producers deliver (R86) -/
  | movFromFstat (t : BitVec 1) (d : BitVec 7)
  /-- SEL: Selects one of two registers by a predicate (R86) -/
  | sel (n : BitVec 3) (t : BitVec 1) (d : BitVec 7) (a : BitVec 7) (b : BitVec 7)
  /-- PAND: ANDs two predicates (R88) -/
  | pand (d : BitVec 3) (a : BitVec 3) (b : BitVec 3)
  /-- POR: ORs two predicates (R88) -/
  | por (d : BitVec 3) (a : BitVec 3) (b : BitVec 3)
  /-- PXOR: XORs two predicates (R88) -/
  | pxor (d : BitVec 3) (a : BitVec 3) (b : BitVec 3)
  /-- PNOT: Negates a predicate (R88) -/
  | pnot (d : BitVec 3) (a : BitVec 3)
  /-- PSET: Sets a predicate from a register being nonzero (R88) -/
  | pset (d : BitVec 3) (a : BitVec 7)
  /-- PMOV: Copies a predicate (R88) -/
  | pmov (d : BitVec 3) (a : BitVec 3)
  /-- LEA: Writes the address a handle access would use, without checks (R89) -/
  | lea (t : BitVec 1) (d : BitVec 7) (a : BitVec 7) (h : BitVec 4)
  /-- ADD64: Adds two register pairs modulo 2^64 (R90) -/
  | add64 (t : BitVec 1) (d : BitVec 7) (a : BitVec 7) (b : BitVec 7)
  /-- SUB64: Subtracts two register pairs modulo 2^64 (R90) -/
  | sub64 (t : BitVec 1) (d : BitVec 7) (a : BitVec 7) (b : BitVec 7)
  /-- SHL64: Shifts a pair left (R90) -/
  | shl64 (t : BitVec 1) (d : BitVec 7) (a : BitVec 7) (b : BitVec 7)
  /-- MULW: Writes the 64-bit signed product into a pair (R90) -/
  | mulw (t : BitVec 1) (d : BitVec 7) (a : BitVec 7) (b : BitVec 7)
  /-- CMP64: Compares two pairs and writes a predicate (R90) -/
  | cmp64 (c : BitVec 4) (p : BitVec 3) (a : BitVec 7) (b : BitVec 7)
  /-- FADD: Adds two f32 values with one rounding (R103) -/
  | fadd (t : BitVec 1) (d : BitVec 7) (a : BitVec 7) (b : BitVec 7)
  /-- FSUB: Subtracts two f32 values with one rounding (R103) -/
  | fsub (t : BitVec 1) (d : BitVec 7) (a : BitVec 7) (b : BitVec 7)
  /-- FMIN: Writes minimumNumber of two f32 values (R103) -/
  | fmin (t : BitVec 1) (d : BitVec 7) (a : BitVec 7) (b : BitVec 7)
  /-- FMAX: Writes maximumNumber of two f32 values (R103) -/
  | fmax (t : BitVec 1) (d : BitVec 7) (a : BitVec 7) (b : BitVec 7)
  /-- FMUL: Multiplies two f32 values (R104) -/
  | fmul (t : BitVec 1) (d : BitVec 7) (a : BitVec 7) (b : BitVec 7)
  /-- FSCALE: Scales an f32 value by a power of two (R104) -/
  | fscale (t : BitVec 1) (d : BitVec 7) (a : BitVec 7) (b : BitVec 7)
  /-- FFMA: Fused multiply-add into the destination (R105) -/
  | ffma (t : BitVec 1) (d : BitVec 7) (a : BitVec 7) (b : BitVec 7)
  /-- FFMS: Fused multiply with negated addend (R105) -/
  | ffms (t : BitVec 1) (d : BitVec 7) (a : BitVec 7) (b : BitVec 7)
  /-- FNMA: Fused negated multiply-add (R105) -/
  | fnma (t : BitVec 1) (d : BitVec 7) (a : BitVec 7) (b : BitVec 7)
  /-- FNMS: Fused negated multiply with negated addend (R105) -/
  | fnms (t : BitVec 1) (d : BitVec 7) (a : BitVec 7) (b : BitVec 7)
  /-- FCMP: Compares two f32 values and writes a predicate (R106) -/
  | fcmp (c : BitVec 3) (p : BitVec 3) (a : BitVec 7) (b : BitVec 7)
  /-- FCLASS: Writes a one-hot classification mask of an f32 value (R107) -/
  | fclass (t : BitVec 1) (d : BitVec 7) (a : BitVec 7)
  /-- FRND: Rounds an f32 value to an integral value (R108) -/
  | frnd (t : BitVec 1) (d : BitVec 7) (a : BitVec 7)
  /-- FCPYS: Copies the sign of one f32 onto another (R108) -/
  | fcpys (t : BitVec 1) (d : BitVec 7) (a : BitVec 7) (b : BitVec 7)
  /-- FABS: Clears the sign of an f32 value (R108) -/
  | fabs (t : BitVec 1) (d : BitVec 7) (a : BitVec 7)
  /-- FNEG: Inverts the sign of an f32 value (R108) -/
  | fneg (t : BitVec 1) (d : BitVec 7) (a : BitVec 7)
  /-- FFRAC: Writes the fractional part of an f32 value (R108) -/
  | ffrac (t : BitVec 1) (d : BitVec 7) (a : BitVec 7)
  /-- FRCP: Queues a correctly rounded reciprocal in the SFU (R109) -/
  | frcp (d : BitVec 7) (a : BitVec 7)
  /-- FRSQ: Queues a reciprocal square root (R109) -/
  | frsq (d : BitVec 7) (a : BitVec 7)
  /-- FSQRT: Queues a square root (R109) -/
  | fsqrt (d : BitVec 7) (a : BitVec 7)
  /-- FDIV: Queues a division (R109) -/
  | fdiv (d : BitVec 7) (a : BitVec 7) (b : BitVec 7)
  /-- FEXP2: Queues 2^x (R109) -/
  | fexp2 (d : BitVec 7) (a : BitVec 7)
  /-- FLOG2: Queues log2 x (R109) -/
  | flog2 (d : BitVec 7) (a : BitVec 7)
  /-- FSINP: Queues sin(pi x) (R109) -/
  | fsinp (d : BitVec 7) (a : BitVec 7)
  /-- FCOSP: Queues cos(pi x) (R109) -/
  | fcosp (d : BitVec 7) (a : BitVec 7)
  /-- FTANH: Queues tanh x (R109) -/
  | ftanh (d : BitVec 7) (a : BitVec 7)
  /-- F2F: Queues a float-to-float conversion (R112) -/
  | f2f (d : BitVec 7) (a : BitVec 7) (y : BitVec 3) (x : BitVec 3)
  /-- F2I: Queues a float-to-integer conversion that clamps (R43) -/
  | f2i (d : BitVec 7) (a : BitVec 7) (y : BitVec 3) (x : BitVec 3)
  /-- I2F: Queues an integer-to-float conversion (R112) -/
  | i2f (d : BitVec 7) (a : BitVec 7) (y : BitVec 3) (x : BitVec 3)
  /-- I2I: Queues an integer-to-integer conversion (R41) -/
  | i2i (d : BitVec 7) (a : BitVec 7) (y : BitVec 3) (x : BitVec 3)
  /-- PACK2: Queues conversion of a pair into two packed narrow elements (R113) -/
  | pack2 (d : BitVec 7) (a : BitVec 7) (k : BitVec 1) (y : BitVec 3) (x : BitVec 3)
  /-- UNPACK2: Queues conversion of two packed elements into a pair (R113) -/
  | unpack2 (d : BitVec 7) (a : BitVec 7) (k : BitVec 1) (y : BitVec 3) (x : BitVec 3)
  /-- HADD2: Adds two packed 16-bit float pairs (R114) -/
  | hadd2 (f : BitVec 1) (t : BitVec 1) (d : BitVec 7) (a : BitVec 7) (b : BitVec 7)
  /-- HSUB2: Subtracts packed 16-bit float pairs (R114) -/
  | hsub2 (f : BitVec 1) (t : BitVec 1) (d : BitVec 7) (a : BitVec 7) (b : BitVec 7)
  /-- HMUL2: Multiplies packed 16-bit float pairs (R114) -/
  | hmul2 (f : BitVec 1) (t : BitVec 1) (d : BitVec 7) (a : BitVec 7) (b : BitVec 7)
  /-- HFMA2: Packed 16-bit fused multiply-add into the destination (R114) -/
  | hfma2 (f : BitVec 1) (t : BitVec 1) (d : BitVec 7) (a : BitVec 7) (b : BitVec 7)
  /-- HMIN2: Packed 16-bit minimumNumber (R114) -/
  | hmin2 (f : BitVec 1) (t : BitVec 1) (d : BitVec 7) (a : BitVec 7) (b : BitVec 7)
  /-- HMAX2: Packed 16-bit maximumNumber (R114) -/
  | hmax2 (f : BitVec 1) (t : BitVec 1) (d : BitVec 7) (a : BitVec 7) (b : BitVec 7)
  /-- IDOT4: Four-way 8-bit integer dot product accumulated into the destination (R115) -/
  | idot4 (u : BitVec 1) (t : BitVec 1) (d : BitVec 7) (a : BitVec 7) (b : BitVec 7)
  /-- FDOT2: Two-way 16-bit float dot product into f32 with one rounding (R115) -/
  | fdot2 (u : BitVec 1) (t : BitVec 1) (d : BitVec 7) (a : BitVec 7) (b : BitVec 7)
  /-- F8DOT4: Four-way FP8 dot product into f32 with one rounding (R115) -/
  | f8dot4 (u : BitVec 1) (t : BitVec 1) (d : BitVec 7) (a : BitVec 7) (b : BitVec 7)
  /-- NQDEC: Decodes a lane's two NQ4 elements to f32 (R117) -/
  | nqdec (s : BitVec 2) (t : BitVec 1) (d : BitVec 7) (a : BitVec 7) (b : BitVec 7)
  /-- NQDECF: Decodes a lane's two NQ4 elements to packed f16 (R117) -/
  | nqdecf (s : BitVec 2) (t : BitVec 1) (d : BitVec 7) (a : BitVec 7) (b : BitVec 7)
  /-- NQDOT: Dot product of two decoded NQ4 elements with f16 activations (R117) -/
  | nqdot (s : BitVec 2) (t : BitVec 1) (d : BitVec 7) (a : BitVec 7) (b : BitVec 7)
  /-- LD: Relaxed zero-extending load through a handle (R125) -/
  | ld (d : BitVec 7) (h : BitVec 4) (a : BitVec 7) (s : BitVec 3)
  /-- LDS: Relaxed sign-extending load through a handle (R125) -/
  | lds (d : BitVec 7) (h : BitVec 4) (a : BitVec 7) (s : BitVec 3)
  /-- LDA: Acquire load through a handle (R125) -/
  | lda (d : BitVec 7) (h : BitVec 4) (a : BitVec 7) (s : BitVec 3)
  /-- ST: Relaxed store through a handle (R125) -/
  | st (s : BitVec 7) (h : BitVec 4) (a : BitVec 7) (c : BitVec 3)
  /-- STREL: Release store through a handle (R125) -/
  | strel (s : BitVec 7) (h : BitVec 4) (a : BitVec 7) (c : BitVec 3)
  /-- AADD: Atomic add (R129) -/
  | aadd (r : BitVec 1) (d : BitVec 7) (h : BitVec 4) (a : BitVec 7) (s : BitVec 3)
  /-- AFADD: Atomic f32 add with discarded flags (R129) -/
  | afadd (r : BitVec 1) (d : BitVec 7) (h : BitVec 4) (a : BitVec 7) (s : BitVec 3)
  /-- AMIN: Atomic signed or f32 minimum (R129) -/
  | amin (r : BitVec 1) (d : BitVec 7) (h : BitVec 4) (a : BitVec 7) (s : BitVec 3)
  /-- AMAX: Atomic signed or f32 maximum (R129) -/
  | amax (r : BitVec 1) (d : BitVec 7) (h : BitVec 4) (a : BitVec 7) (s : BitVec 3)
  /-- AMINB: Atomic unsigned minimum (R129) -/
  | aminb (r : BitVec 1) (d : BitVec 7) (h : BitVec 4) (a : BitVec 7) (s : BitVec 3)
  /-- AMAXB: Atomic unsigned maximum (R129) -/
  | amaxb (r : BitVec 1) (d : BitVec 7) (h : BitVec 4) (a : BitVec 7) (s : BitVec 3)
  /-- AAND: Atomic AND (R129) -/
  | aand (r : BitVec 1) (d : BitVec 7) (h : BitVec 4) (a : BitVec 7) (s : BitVec 3)
  /-- AOR: Atomic OR (R129) -/
  | aor (r : BitVec 1) (d : BitVec 7) (h : BitVec 4) (a : BitVec 7) (s : BitVec 3)
  /-- AXOR: Atomic XOR (R129) -/
  | axor (r : BitVec 1) (d : BitVec 7) (h : BitVec 4) (a : BitVec 7) (s : BitVec 3)
  /-- AXCH: Atomic exchange (R129) -/
  | axch (r : BitVec 1) (d : BitVec 7) (h : BitVec 4) (a : BitVec 7) (s : BitVec 3)
  /-- ACAS: Atomic compare-and-swap (R129) -/
  | acas (r : BitVec 1) (d : BitVec 7) (h : BitVec 4) (a : BitVec 7) (s : BitVec 3)
  /-- AINC: Atomic wrapping increment (R129) -/
  | ainc (r : BitVec 1) (d : BitVec 7) (h : BitVec 4) (a : BitVec 7) (s : BitVec 3)
  /-- HLD: Group load of a handle record from the grid's handle table (R131) -/
  | hld (g : BitVec 4) (h : BitVec 4) (a : BitVec 7) (e : BitVec 1) (k : BitVec 3)
  /-- HSET: Group set of a handle from the leader's eight registers (R131) -/
  | hset (g : BitVec 4) (h : BitVec 4) (a : BitVec 7) (e : BitVec 1) (k : BitVec 3)
  /-- HRD: Group read of a handle into eight registers (R131) -/
  | hrd (g : BitVec 4) (d : BitVec 7) (h : BitVec 4) (e : BitVec 1) (k : BitVec 3)
  /-- HCPY: Group copy of one handle register to another (R131) -/
  | hcpy (g : BitVec 4) (d : BitVec 4) (a : BitVec 4) (e : BitVec 1) (k : BitVec 3)
  /-- FENCE_ACQ: Acquire fence of the strand's own accesses (R343) -/
  | fenceAcq (s : BitVec 3)
  /-- FENCE_REL: Release fence of the strand's own accesses (R343) -/
  | fenceRel (s : BitVec 3)
  /-- FENCE_AR: Acquire-release fence (R343) -/
  | fenceAr (s : BitVec 3)
  /-- FENCE_SC: Sequentially consistent fence taking a place in the sc order (R343) -/
  | fenceSc (s : BitVec 3)
  /-- CWB: Writes a line's dirty bytes out to the scope's shared level (R134) -/
  | cwb (h : BitVec 4) (a : BitVec 7) (s : BitVec 3)
  /-- CINV: Writes back and drops a line's copies below the scope's level (R134) -/
  | cinv (h : BitVec 4) (a : BitVec 7) (s : BitVec 3)
  /-- PREF: Requests a line into a cache level without faulting (R134) -/
  | pref (h : BitVec 4) (a : BitVec 7) (s : BitVec 3)
  /-- WAITLINE: Arms a line watch and blocks until the element differs from the expected value (R135) -/
  | waitline (d : BitVec 7) (h : BitVec 4) (a : BitVec 7) (s : BitVec 3)
  /-- NX: Unconditional branch to an offset target (R92) -/
  | nx (o : BitVec 18)
  /-- NXC: Conditional branch on a predicate (R92) -/
  | nxc (n : BitVec 1) (p : BitVec 3) (o : BitVec 18)
  /-- NXI: Indirect branch to a register pair (R92) -/
  | nxi (a : BitVec 7)
  /-- CALL: Call with budget check, implicit grow and link write (R93) -/
  | call (l : BitVec 4) (o : BitVec 18)
  /-- CALLI: Indirect call with budget check, implicit grow and link write (R93) -/
  | calli (l : BitVec 4) (a : BitVec 7)
  /-- RET: Returns to the address in a link pair (R94) -/
  | ret (a : BitVec 7)
  /-- EXIT: Drains the window and makes the strand Exited (R95) -/
  | exit
  /-- YIELD: Continues and ends the wave's greedy run (R96) -/
  | yield
  /-- REFILL: Takes the next fitting item from the item queue, blocks, or exits (R98) -/
  | refill (o : BitVec 18)
  /-- REGION: Drains the window and begins an idempotent region (R97) -/
  | region
  /-- TRAP: Enters the lane's trap handler with code TRAP (R99) -/
  | trap (c : BitVec 8)
  /-- BRK: Enters the lane's trap handler with code BRK and stops the matrix engine (R99) -/
  | brk (c : BitVec 8)
  /-- MEET: Presents a plain meet that only gathers the participants (R189) -/
  | meet (g : BitVec 4) (e : BitVec 1) (k : BitVec 3)
  /-- GVOTE_ANY: Presents an OR vote of predicates (R189) -/
  | gvoteAny (g : BitVec 4) (d : BitVec 3) (a : BitVec 3) (e : BitVec 1) (k : BitVec 3)
  /-- GVOTE_ALL: Presents an AND vote of predicates (R189) -/
  | gvoteAll (g : BitVec 4) (d : BitVec 3) (a : BitVec 3) (e : BitVec 1) (k : BitVec 3)
  /-- GVOTE_BALLOT: Presents a ballot writing a k mask (R189) -/
  | gvoteBallot (g : BitVec 4) (d : BitVec 3) (a : BitVec 3) (e : BitVec 1) (k : BitVec 3)
  /-- GBCAST: Presents a broadcast of the leader's value to a w register (R189) -/
  | gbcast (g : BitVec 4) (d : BitVec 4) (a : BitVec 7) (e : BitVec 1) (k : BitVec 3)
  /-- GELECT: Presents an election of the leader (R189) -/
  | gelect (g : BitVec 4) (d : BitVec 3) (e : BitVec 1) (k : BitVec 3)
  /-- FENCEW: Presents a group fence over the whole participant set (R190) -/
  | fencew (g : BitVec 4) (o : BitVec 3) (s : BitVec 3) (e : BitVec 1) (k : BitVec 3)
  /-- GRED: Presents a wave reduction (R191) -/
  | gred (g : BitVec 4) (d : BitVec 7) (a : BitVec 7) (o : BitVec 4)
  /-- GSCAN: Presents an inclusive wave scan (R191) -/
  | gscan (g : BitVec 4) (d : BitVec 7) (a : BitVec 7) (o : BitVec 4)
  /-- SHFL_IDX: Presents an indexed shuffle (R192) -/
  | shflIdx (g : BitVec 3) (d : BitVec 7) (a : BitVec 7) (b : BitVec 7)
  /-- SHFL_UP: Presents an upward shuffle (R192) -/
  | shflUp (g : BitVec 3) (d : BitVec 7) (a : BitVec 7) (c : BitVec 6)
  /-- SHFL_DN: Presents a downward shuffle (R192) -/
  | shflDn (g : BitVec 3) (d : BitVec 7) (a : BitVec 7) (c : BitVec 6)
  /-- SHFL_XOR: Presents an XOR shuffle (R192) -/
  | shflXor (g : BitVec 3) (d : BitVec 7) (a : BitVec 7) (c : BitVec 6)
  /-- CDET: Presents conflict detection giving each lane its key's lowest lane (R193) -/
  | cdet (g : BitVec 4) (d : BitVec 7) (a : BitVec 7) (e : BitVec 1) (k : BitVec 3)
  /-- GCOMB_F32: Presents key-grouped f32 combining into group leaders (R194) -/
  | gcombF32 (g : BitVec 4) (d : BitVec 7) (a : BitVec 7) (e : BitVec 1) (k : BitVec 3)
  /-- GCOMB_S32: Presents key-grouped s32 combining into group leaders (R194) -/
  | gcombS32 (g : BitVec 4) (d : BitVec 7) (a : BitVec 7) (e : BitVec 1) (k : BitVec 3)
  /-- WACFG: Configures and empties a window accumulator (R242) -/
  | wacfg (w : BitVec 4) (a : BitVec 7)
  /-- WAPUSH: Pushes a contribution into a window accumulator (R242) -/
  | wapush (w : BitVec 4) (a : BitVec 7)
  /-- WARD: Reads a window accumulator's reduction (R242) -/
  | ward (d : BitVec 7) (w : BitVec 4)
  /-- WAPR: Pushes then reads a window accumulator indivisibly (R242) -/
  | wapr (d : BitVec 7) (w : BitVec 4) (a : BitVec 7)
  /-- WACLR: Empties a window accumulator keeping its configuration (R242) -/
  | waclr (w : BitVec 4)
  /-- WASTAT: Reads configuration and status and clears selected flags (R243) -/
  | wastat (d : BitVec 7) (w : BitVec 4) (a : BitVec 7)
  /-- WASAVE: Writes an accumulator image to scratch (R244) -/
  | wasave (h : BitVec 4) (w : BitVec 4) (a : BitVec 7)
  /-- WALOAD: Replaces an accumulator from a scratch image (R244) -/
  | waload (h : BitVec 4) (w : BitVec 4) (a : BitVec 7)
  /-- MXMMA_BF16: Queues a BF16 matrix multiply-accumulate into a tile (R218) -/
  | mxmmaBf16 (r : BitVec 1) (t : BitVec 4) (h : BitVec 4) (j : BitVec 4) (a : BitVec 7)
  /-- MXMMA_F16: Queues an FP16 matrix multiply-accumulate (R218) -/
  | mxmmaF16 (r : BitVec 1) (t : BitVec 4) (h : BitVec 4) (j : BitVec 4) (a : BitVec 7)
  /-- MXMMA_E4M3: Queues an E4M3 matrix multiply-accumulate (R218) -/
  | mxmmaE4m3 (r : BitVec 1) (t : BitVec 4) (h : BitVec 4) (j : BitVec 4) (a : BitVec 7)
  /-- MXMMA_E5M2: Queues an E5M2 matrix multiply-accumulate (R218) -/
  | mxmmaE5m2 (r : BitVec 1) (t : BitVec 4) (h : BitVec 4) (j : BitVec 4) (a : BitVec 7)
  /-- MXMMA_S8: Queues an INT8 matrix multiply-accumulate into s32 (R218) -/
  | mxmmaS8 (r : BitVec 1) (t : BitVec 4) (h : BitVec 4) (j : BitVec 4) (a : BitVec 7)
  /-- MXMMA_NQ4: Queues an NQ4-by-E4M3 matrix multiply-accumulate (R218) -/
  | mxmmaNq4 (r : BitVec 1) (t : BitVec 4) (h : BitVec 4) (j : BitVec 4) (a : BitVec 7)
  /-- MXZ: Queues zeroing of a tile (R223) -/
  | mxz (t : BitVec 4)
  /-- MXST: Queues a store of tile rows to scratch (R223) -/
  | mxst (t : BitVec 4) (h : BitVec 4) (a : BitVec 7)
  /-- MXRD: Queues a read of one tile element (R224) -/
  | mxrd (t : BitVec 4) (d : BitVec 7) (a : BitVec 7)
  /-- MXWR: Queues a write of one tile element (R224) -/
  | mxwr (t : BitVec 4) (a : BitVec 7)
  /-- MXCOMMIT: Closes the strand's open commit group (R221) -/
  | mxcommit
  /-- MXWAIT: Blocks until at most n of the strand's closed groups are outstanding (R222) -/
  | mxwait (n : BitVec 7)
  /-- MXSTAT: Reads the wave's MX flags and counts and clears selected ones (R225) -/
  | mxstat (d : BitVec 7) (a : BitVec 7)
  /-- CPY: Queues a linear copy counting into a tag (R296) -/
  | cpy (g : BitVec 6) (d : BitVec 4) (s : BitVec 4) (a : BitVec 7) (m : BitVec 1)
  /-- TCPY: Queues a tensor copy from a descriptor (R298) -/
  | tcpy (g : BitVec 6) (d : BitVec 4) (s : BitVec 4) (a : BitVec 7) (m : BitVec 1)
  /-- CHAIN: Queues a chained copy applying per-element operations (R300) -/
  | chain (g : BitVec 6) (d : BitVec 4) (s : BitVec 4) (a : BitVec 7) (m : BitVec 1)
  /-- TAGARM: Arms a tag with an expected byte count (R301) -/
  | tagarm (g : BitVec 6) (a : BitVec 7)
  /-- TAGWAIT_ANY: Blocks until some masked tag is ready (R303) -/
  | tagwaitAny (a : BitVec 7)
  /-- TAGWAIT_ALL: Blocks until every masked tag is ready (R303) -/
  | tagwaitAll (a : BitVec 7)
  /-- TAGFF: Returns the lowest ready masked tag without blocking (R303) -/
  | tagff (a : BitVec 7)
  /-- TAGCLR: Disarms the masked tags (R303) -/
  | tagclr (a : BitVec 7)
  /-- TAGRD: Reads a tag's counts and status (R303) -/
  | tagrd (g : BitVec 6) (a : BitVec 7)
  /-- TBAR: Arrives at a team barrier and blocks until the phase completes (R281) -/
  | tbar (n : BitVec 3)
  /-- TBARA: Arrives at a team barrier and returns the phase token (R281) -/
  | tbara (d : BitVec 7) (n : BitVec 3)
  /-- TBARW: Blocks until a barrier's phase differs from a token (R281) -/
  | tbarw (a : BitVec 7) (n : BitVec 3)
  /-- LAUNCH: Reads a launch record and submits a child or top-level grid (R282) -/
  | launch (d : BitVec 7) (a : BitVec 7) (h : BitVec 4)
  /-- GWAIT: Blocks until a child grid retires and returns its status (R285) -/
  | gwait (d : BitVec 7) (a : BitVec 7)
  /-- TASKPUSH: Pushes a task with its argument record into the cluster's task pool (R286) -/
  | taskpush (d : BitVec 7) (a : BitVec 7) (h : BitVec 4)
  /-- RGROW: Requests a larger register allocation for the wave (R289) -/
  | rgrow (d : BitVec 7) (n : BitVec 7)
  /-- RSHRINK: Shrinks the wave's register allocation at once (R289) -/
  | rshrink (n : BitVec 7)
  /-- COMMIT: Commit point that performs the contained team's buffered stores (R290) -/
  | commit
  /-- RDS: Reads a system register (R256) -/
  | rds (d : BitVec 7) (n : BitVec 14)
  /-- WRS: Writes a system register with its value checks (R256) -/
  | wrs (s : BitVec 7) (n : BitVec 14)
  /-- TLBINV: Invalidates matching translations device-wide (R259) -/
  | tlbinv (a : BitVec 7) (b : BitVec 7)
  /-- UNPARK: Unparks a lane named by token, or delivers its code to its handler (R258) -/
  | unpark (d : BitVec 7) (a : BitVec 7)
  /-- SWAPCTX: Requests a bank swap on a core (R261) -/
  | swapctx (d : BitVec 7) (a : BitVec 7)
  /-- CTXSAVE: Evicts a shadow bank to a save area (R263) -/
  | ctxsave (d : BitVec 7) (a : BitVec 7) (b : BitVec 7)
  /-- CTXLOAD: Fills an empty shadow bank from a save area (R264) -/
  | ctxload (d : BitVec 7) (a : BitVec 7) (b : BitVec 7)
  /-- TRAPRET: Leaves the handler and re-executes the faulting bundle (R257) -/
  | trapret
  /-- TRAPRET_SKIP: Leaves the handler and continues after the faulting bundle (R257) -/
  | trapretSkip
  /-- HALT: Stops the issuing core until a host command (R260) -/
  | halt
  /-- SLEEP: Blocks the strand until the next wake event reaches its core (R260) -/
  | sleep
  /-- LMAPW: Writes a physical lane's state and logical lane in the lane map (R271) -/
  | lmapw (d : BitVec 7) (a : BitVec 7) (b : BitVec 7)
  /-- IDIV_RESULT: The quotient or remainder arrives from the divide unit and is written under R18 (R84) -/
  | idivResult (id : Nat)
  /-- SFU_RESULT: An SFU result arrives, is written under R18 and ORs its flags into FSTAT (R111) -/
  | sfuResult (id : Nat)
  /-- CVT_RESULT: A conversion result arrives from the conversion queue and is written with its flags (R112) -/
  | cvtResult (id : Nat)
  /-- LOAD_RETURN: Load data arrive and are written to the destination with poison under R18 (R125) -/
  | loadReturn (id : Nat)
  /-- ATOMIC_PERFORM: An atomic is performed indivisibly at its ordering point and its old value returns (R130) -/
  | atomicPerform (id : Nat)
  /-- WAITLINE_WAKE: A write to a watched line wakes the waiter, which re-reads and completes or blocks again (R135) -/
  | waitlineWake (strand : Nat)
  /-- MEET_COMPLETE: The last participant presents or exits; the group result is computed and written and presenters leave Blocked (R180) -/
  | meetComplete (wave : Nat) (key : List Byte)
  /-- MX_CHUNK: The matrix engine takes a chunk's snapshot and applies one rounded chunk step to every tile element (R218) -/
  | mxChunk (core : Nat)
  /-- MX_COMMAND_COMPLETE: A queued MX command (MXZ, MXST row writes, MXRD, MXWR) is performed at its turn and frees its entry (R220) -/
  | mxCommandComplete (core : Nat)
  /-- MX_GROUP_COMPLETE: A closed commit group completes and wakes its waiting strand (R220) -/
  | mxGroupComplete (strand : Nat) (group : Nat)
  /-- MXWD_FIRE: The matrix watchdog expires and resets the engine, killing affected teams with MXRESET (R230) -/
  | mxwdFire (core : Nat)
  /-- COPY_LAND: Copy bytes are performed at the destination and count the tag down (R302) -/
  | copyLand (id : Nat) (block : Nat)
  /-- COPY_RETRY: A copy stopped at a faulting line retries translation after a TLBINV completes (R307) -/
  | copyRetry (id : Nat)
  /-- DIRECTORY_RECALL: An access to a line owned by a copy waits for the engine to finish the line, then is served (R305) -/
  | directoryRecall (line : Nat)
  /-- BARRIER_PHASE_COMPLETE: Every expected strand has arrived; the phase advances and waiters are released (R277) -/
  | barrierPhaseComplete (team : Nat) (bar : Nat)
  /-- LAUNCH_STATUS: The dispatcher's checks end and the launch status and GRIDID are written (R282) -/
  | launchStatus (id : Nat)
  /-- TASKPUSH_POOL_FREE: A pool entry frees and the oldest Blocked pushing lane takes it (R286) -/
  | taskpushPoolFree (cluster : Nat)
  /-- GROW_GRANT: The allocator grants the oldest pending grow once the pool holds its bytes (R175) -/
  | growGrant (bank : Nat)
  /-- GROW_FAIL: The allocator fails the youngest pending grow when the bank cannot proceed (R176) -/
  | growFail (bank : Nat)
  /-- TLBINV_COMPLETE: Every matching entry is dropped and every overlapping walk has ended; the strand resumes (R259) -/
  | tlbinvComplete (id : Nat)
  /-- CTXSAVE_COMPLETE: The bank's outstanding work ends, the save area is written and the bank is freed (R263) -/
  | ctxsaveComplete (id : Nat)
  /-- SCRIBEENT_WRITE: A write to SCRIBEENT with EN set places the cluster's scribe wave (R361) -/
  | scribeentWrite (cluster : Nat)
  /-- HBMSTAT_CLEAR: A level-2 write of ones clears the UE and MSCCE counts of an HBMSTAT register (R364) -/
  | hbmstatClear (stack : Nat)
  /-- FETCH_FILL: An instruction line fill arrives and the waiting lanes' bundles become available (R170) -/
  | fetchFill (strand : Nat)
  /-- MISS_REGISTER_GRANT: A waiting line obtains a miss register and its request proceeds (R317) -/
  | missRegisterGrant (core : Nat)
  /-- TRANSLATION_WALK: A walk completes with a translation, a serviceable fault or WALKERR (R319) -/
  | translationWalk (id : Nat)
  /-- WALK_LOCK_REREAD: A write to a watched locked descriptor's line makes the walk re-read it (R325) -/
  | walkLockReread (id : Nat)
  /-- FAULT_RECORD_DELIVER: A held fault record is written to the ring and TAIL advanced once space frees (R327) -/
  | faultRecordDeliver (cluster : Nat)
  /-- HANDLER_ENTRY: After the fault and the queued SFU/CVT results, the lane freezes its window and starts at TRAPBASE (R252) -/
  | handlerEntry (strand : Nat)
  /-- PARITY_ROLLBACK: A register read finds a parity error and the strand rolls back to REGIONPC (R25) -/
  | parityRollback (strand : Nat) (reg : Nat)
  /-- TEAM_RELAUNCH: A killed contained, unexposed team is relaunched from its launch record when it can be placed (R291) -/
  | teamRelaunch (team : Nat)
  /-- TEAM_PLACE: The dispatcher places a team's waves with fresh state in an active bank (R275) -/
  | teamPlace (grid : Nat)
  /-- PRIO3_PREEMPT: A priority-3 team that finds no place takes a shadow bank and requests a swap (R362) -/
  | prio3Preempt (grid : Nat) (core : Nat)
  /-- BANK_SWAP: On a swap request the core stops issue, drains the SFU and conversion queues and exchanges bank roles (R261) -/
  | bankSwap (core : Nat)
  /-- TEAM_RETIRE: A team whose waves exited and whose work completed retires and releases its resources (R284) -/
  | teamRetire (team : Nat)
  /-- GRID_RETIRE: A grid retires and writes its completion word (R284) -/
  | gridRetire (grid : Nat)
  /-- CORE_GATE: The core gates its issue clock when no strand is Ready or Waiting (R177) -/
  | coreGate (core : Nat)
  /-- CORE_WAKE: A wake event reaches a gated core, which issues again 40 cc later or gates again (R178) -/
  | coreWake (core : Nat)
  /-- GATHER_TICK: Each fc the gatherer moves tasks to Blocked REFILL strands and forms full waves of 32 tasks (R287) -/
  | gatherTick (cluster : Nat)
  /-- GATHER_WINDOW_EXPIRY: A task group's oldest task has waited GATHERWIN fc and the group becomes a wave (R287) -/
  | gatherWindowExpiry (cluster : Nat)
  /-- LANE_TEST: After a second mismatch and the last team's retirement, named lanes are pattern-tested and failures quarantined (R270) -/
  | laneTest (core : Nat) (failed : List Nat)
  /-- SCRIBE_MOVE: The scribe wave is moved to the next core once its strands all wait (R328) -/
  | scribeMove (cluster : Nat)
  /-- FAIL_LANE_INJECT: The management path starts inverting bit 0 of a physical lane's results from the nth issue (R272) -/
  | failLaneInject (core : Nat) (lane : Nat) (issue : Nat)
  /-- LINE_MIGRATE: After 12 of 16 requests from one cluster, a line moves with its ordering point to a near slice (R315) -/
  | lineMigrate (line : Nat) (cluster : Nat)
  /-- CROSS_DIE_APPLY: A stamped write, update or notice is applied at a die once its vector clock makes it applicable (R354) -/
  | crossDieApply (home : Nat) (die : Nat)
  /-- REPLICA_EVICT: A die evicts a replica and tells the home die (R353) -/
  | replicaEvict (die : Nat) (line : Nat)
  /-- SCRUB_PASS_END: A complete scrub pass ends and the controller updates HBMSTAT (R364) -/
  | scrubPassEnd (stack : Nat) (ecs : Nat) (rowmax : Nat)
  /-- STREAM_LAUNCH: The rubric program performs a LAUNCH command-stream entry (R360) -/
  | streamLaunch (die : Nat) (stream : Nat)
  /-- STREAM_WAITGRID: The rubric program waits for an earlier launched grid to retire (R360) -/
  | streamWaitgrid (die : Nat) (stream : Nat)
  /-- STREAM_WRITE: The rubric program stores a value with STREL.sys (R360) -/
  | streamWrite (die : Nat) (stream : Nat)
  /-- STREAM_DRAIN: The rubric program waits for every grid the stream has launched (R360) -/
  | streamDrain (die : Nat) (stream : Nat)
  /-- STREAM_BAD_OP: An entry with an unknown OP is completed with status 0xFF (R360) -/
  | streamBadOp (die : Nat) (stream : Nat)
  /-- RUBRIC_REPLACE: A verified new rubric program replaces the old one once its strands all wait (R359) -/
  | rubricReplace (die : Nat) (img : Image) (signature : List Byte) (streams : Dword)
  /-- HOST_RESUME_CORE: A host command resumes a halted core (R260) -/
  | hostResumeCore (core : Nat)
  /-- POWER_STATE: A host command changes the arithmetic clock's power state (R367) -/
  | powerState (p : Nat)
  /-- DIE_IDLE: A host command stops an empty die's cores and engines, or is refused (R368) -/
  | dieIdle (die : Nat)
  /-- DIE_RESUME: A host command resumes an idle die for placement (R368) -/
  | dieResume (die : Nat)
  /-- THERMAL_STOP: A junction at 110 °C stops the device protectively with a THERM record (R369) -/
  | thermalStop
  /-- THERMAL_RESUME: A host command resumes the device once every junction is below 95 °C (R369) -/
  | thermalResume (celsius : Nat)
  /-- LINKDOWN: A Lute link down for 1 ms poisons its outstanding reads, loses its writes and records LINKDOWN (R374) -/
  | linkdown (link : Nat)
  /-- LUTE_FLIT_RETRANSMIT: A flit with a CRC error is retransmitted and duplicates are discarded (R374) -/
  | luteFlitRetransmit (link : Nat) (seq : Nat)
  /-- NETERR: A queue-pair transport error sets ERR, records NETERR and kills teams copying through the window (R377) -/
  | neterr (window : Nat)
  /-- INBOUND_RDMA_WRITE: An inbound RDMA WRITE is performed in the inbound region as a system-scope release (R377) -/
  | inboundRdmaWrite (window : Nat) (offset : Nat) (bytes : List Byte)
  /-- BOOT: At power-on the boot ROM verifies and loads firmware, then the rubric program (R378) -/
  | boot (firmware : SignedBlob) (rubric : Image) (signature : List Byte) (streams : Dword)
  /-- FIRMWARE_RECOVERY: In recovery the device accepts a new firmware image over I3C (R378) -/
  | firmwareRecovery (firmware : SignedBlob)
  /-- ATTESTATION_REPORT: Given a nonce, the security block returns a signed attestation report (R379) -/
  | attestationReport (nonce : List Byte)
  /-- TEST_UNLOCK: A signed JTAG unlock enables test access until the next reset (R380) -/
  | testUnlock (signature : List Byte)
  /-- DEVICE_RESET: A reset ends every context and restarts the device (R369) -/
  | deviceReset
  /-- STORE_PERFORM: A global store arrives at its line's ordering point, is performed there and is acknowledged (R315) -/
  | storePerform (id : Nat)
  /-- L1_WRITEBACK: Dirty bytes held in a core's L1 area are written back to the line's current slice within 2,048 cc, or on eviction (R337) -/
  | l1Writeback (core : Nat) (line : Nat)
  /-- CTXLOAD_COMPLETE: The save-area transfer of a CTXLOAD ends, the shadow bank is filled and status 0 is written (R264) -/
  | ctxloadComplete (id : Nat)
  /-- HOST_ACCESS: A host load, store or atomic to device memory arrives over Nib and is performed at system scope (R370) -/
  | hostAccess (acc : Access) (release : Bool)
  /-- PEER_ACCESS: A peer module's request arrives over a Lute link and is performed in sequence order at this module (R374) -/
  | peerAccess (link : Nat) (seq : Nat) (acc : Access)
  /-- IMAGE_LOAD: The loader loads or changes an image in a context, creating the next code version (R15) -/
  | imageLoad (img : Image)
  /-- CORE_RESET: The management path resets a core, which leaves reset with CLOCK restarting (R87) -/
  | coreReset (core : Nat)
  /-- LUTE_LINK_UP: A host command brings a Lute link that went down back into service (R249) -/
  | luteLinkUp (link : Nat)
  /-- MANAGEMENT_GRID_START: The host starts the signed privilege-2 firmware grid over the Nib management channel (R254) -/
  | managementGridStart (mgrid : ManagementGrid)
  /-- OWNER_KEY_ENROL: The host enrols the owner key once, and its hash is fused (R378) -/
  | ownerKeyEnrol (key : List Byte)
  deriving DecidableEq, Repr

end Sys2Proof
end

