-- ==== Sys2Proof/WellFormed.lean ====
section
/-!
DEFINITION. Which instructions are well formed: the checks of R59, R60, R62, R63, R66 to R68, R72, R73 and R101 that
an instruction word and its hint words decide by themselves. A breach of one of them is ILLOP (R74).
-/

namespace Sys2Proof

/-- A register number that names an even pair (R59). -/
def even (r : BitVec 7) : Bool := r.toNat % 2 == 0
/-- A scope code of R62 that is not reserved. -/
def scopeOk (s : BitVec 3) : Bool := s.toNat != 7
/-- A scope code from 1 to 6 (R132, R188). -/
def scopeNamed (s : BitVec 3) : Bool := s.toNat != 0 && s.toNat != 7
/-- The mask field of format FG: k must be 0 when k-enable is 0 (R72). -/
def maskOk (e : BitVec 1) (k : BitVec 3) : Bool := e == 1 || k == 0
/-- Float type codes 0 to 4 and integer type codes 0 to 5 (R63). -/
def floatCode (c : BitVec 3) : Bool := c.toNat ≤ 4
def intCode (c : BitVec 3) : Bool := c.toNat ≤ 5
/-- Type codes of PACK2 and UNPACK2: k selects float or integer codes for both (R63). -/
def packCodes (k : BitVec 1) (y x : BitVec 3) : Bool :=
  if k == 0 then floatCode y && floatCode x else intCode y && intCode x
/-- The code names a type of 32 bits, which PACK2 and UNPACK2 refuse on their narrow side (R113). -/
def wideCode (k : BitVec 1) (c : BitVec 3) : Bool :=
  if k == 0 then c == 0 else c == 2 || c == 5

/-- Special register numbers (R73): LANEID to CODEVER and LMAP0 to LMAP64. -/
def specialNumber (n : Nat) : Bool := n ≤ 11 || (64 ≤ n && n ≤ 128)
/-- CLOCK is the one special register of 64 bits (R73). -/
def specialWide (n : Nat) : Bool := n == 6
/-- System register numbers that RDS and WRS name (R73, R254, R320, R327, R361, R364, R366, R376). -/
def systemNumber (n : Nat) : Bool :=
  n ≤ 9 || n == 0x10 || n == 0x11 || (0x20 ≤ n && n ≤ 0x25) || (0x30 ≤ n && n ≤ 0x37)
/-- System registers of 64 bits. -/
def systemWide (n : Nat) : Bool :=
  n == 6 || n == 7 || n == 8 || (0x20 ≤ n && n ≤ 0x25) || (0x30 ≤ n && n ≤ 0x37)
/-- A register count of RGROW and RSHRINK, n/8 from 2 to 16 (R280). -/
def growCode (n : BitVec 7) : Bool := 2 ≤ n.toNat && n.toNat ≤ 16

/-- The checks that an instruction word alone decides. Every constructor that is not listed has none. -/
def Instr.wf : Instr → Bool
  | .cmp c _ _ _ | .cmpi c _ _ _ => c.toNat ≤ 9
  | .cmp64 c _ a b => c.toNat ≤ 9 && even a && even b
  | .rdk _ d _ => even d
  | .rdsr _ d n => specialNumber n.toNat && (!specialWide n.toNat || even d)
  | .lea _ d _ _ => even d
  | .add64 _ d a b | .sub64 _ d a b => even d && even a && even b
  | .shl64 _ d a _ => even d && even a
  | .mulw _ d _ _ => even d
  | .f2f _ _ y x => floatCode y && floatCode x
  | .f2i _ _ y x => intCode y && floatCode x
  | .i2f _ _ y x => floatCode y && intCode x
  | .i2i _ _ y x => intCode y && intCode x
  | .pack2 _ a k y x => packCodes k y x && !wideCode k y && even a
  | .unpack2 d _ k y x => packCodes k y x && !wideCode k x && even d
  | .nqdec _ _ d a _ => even d && even a
  | .nqdecf _ _ _ a _ => even a
  | .nqdot _ _ _ a b => even a && even b
  | .ld _ _ _ s | .lds _ _ _ s | .lda _ _ _ s => scopeOk s
  | .st _ _ _ c | .strel _ _ _ c => scopeOk c
  | .aadd _ _ _ _ s | .afadd _ _ _ _ s | .amin _ _ _ _ s | .amax _ _ _ _ s | .aminb _ _ _ _ s
  | .amaxb _ _ _ _ s | .aand _ _ _ _ s | .aor _ _ _ _ s | .axor _ _ _ _ s | .axch _ _ _ _ s
  | .ainc _ _ _ _ s => scopeOk s
  | .acas _ d _ _ s => scopeOk s && even d
  | .hld _ _ _ e k => maskOk e k
  | .hset _ _ a e k => maskOk e k && a.toNat % 8 == 0
  | .hrd _ d _ e k => maskOk e k && d.toNat % 8 == 0
  | .hcpy _ _ _ e k => maskOk e k
  | .fenceAcq s | .fenceRel s | .fenceAr s | .fenceSc s => scopeNamed s
  | .cwb _ _ s | .cinv _ _ s => scopeNamed s
  | .pref _ _ s => s == 0 || s == 4 || s == 5
  | .waitline _ _ _ s => scopeOk s
  | .nxi a | .ret a => even a
  | .calli _ a => even a
  | .meet _ e k => maskOk e k
  | .gvoteAny _ _ _ e k | .gvoteAll _ _ _ e k | .gvoteBallot _ _ _ e k => maskOk e k
  | .gbcast _ _ _ e k => maskOk e k
  | .gelect _ _ e k => maskOk e k
  | .fencew _ o s e k => maskOk e k && 1 ≤ o.toNat && o.toNat ≤ 4 && scopeNamed s
  | .gred _ _ _ o | .gscan _ _ _ o => o.toNat ≤ 11
  | .cdet _ _ _ e k | .gcombF32 _ _ _ e k | .gcombS32 _ _ _ e k => maskOk e k
  | .wastat d _ _ => even d
  | .mxwr _ a => even a
  | .mxwait n => n.toNat ≤ 8
  | .tagwaitAny a | .tagwaitAll a | .tagff a | .tagclr a => even a
  | .launch d _ _ => even d
  | .taskpush _ a _ => even a
  | .rgrow _ n => growCode n
  | .rshrink n => growCode n
  | .rds d n => systemNumber n.toNat && (!systemWide n.toNat || even d)
  | .wrs s n => systemNumber n.toNat && (!systemWide n.toNat || even s)
  | .tlbinv a _ => even a
  | .ctxsave _ a _ | .ctxload _ a _ => even a
  | _ => true

/-! ### Hint words (R64 to R70) -/

/-- A modifier hint, HM (R64, R67). -/
inductive Modifier where
  /-- Kind 0: rounding code and saturation. -/
  | arith (rounding : BitVec 2) (sat : Bool)
  /-- Kind 1: an order code of R62. -/
  | order (code : BitVec 3)
  /-- Kind 2: the mask of flags that are withheld. -/
  | quiet (mask : BitVec 5)
  deriving DecidableEq, Repr

/-- The hint words of one bundle: an HX payload, an HM, an HC policy (R69). -/
structure Hints where
  hx : Option (BitVec 25) := none
  hm : Option Modifier := none
  hc : Option (BitVec 3) := none
  deriving DecidableEq, Repr

/-- The instructions that accept HX (R66). -/
def Instr.takesHX : Instr → Bool
  | .addImm .. | .subImm .. | .andImm .. | .orImm .. | .xorImm .. | .andnImm .. | .minImm .. | .maxImm ..
  | .minbImm .. | .maxbImm .. | .addcImm .. | .subbImm .. | .addsImm .. | .subsImm .. => true
  | .cmpi .. | .movi .. | .nx .. | .nxc .. | .call .. | .refill .. => true
  | _ => false

/-- Under HX the upper bits of imm14 and of the FC offset must be 0 (R66). -/
def Instr.highImmediateZero : Instr → Bool
  | .movi _ _ i => i.toNat < 128
  | .nx o | .refill o => o.toNat < 128
  | .nxc _ _ o => o.toNat < 128
  | .call _ o => o.toNat < 128
  | _ => true

/-- The instructions that accept HC: classes LD, ST, ATOM, FENCE and CPE where the family's rule says so (R68, R294). -/
def Instr.takesHC : Instr → Bool
  | .ld .. | .lds .. | .lda .. | .st .. | .strel .. => true
  | .aadd .. | .afadd .. | .amin .. | .amax .. | .aminb .. | .amaxb .. | .aand .. | .aor .. | .axor .. | .axch ..
  | .acas .. | .ainc .. => true
  | .fenceAcq .. | .fenceRel .. | .fenceAr .. | .fenceSc .. | .cwb .. | .cinv .. | .pref .. | .waitline .. => true
  | .cpy .. | .tcpy .. | .chain .. | .tagarm .. | .tagwaitAny .. | .tagwaitAll .. | .tagff .. | .tagclr ..
  | .tagrd .. => true
  | _ => false

/-- The handle of a load, a store or an atomic. -/
def Instr.handle : Instr → Option Nat
  | .ld _ h _ _ | .lds _ h _ _ | .lda _ h _ _ | .st _ h _ _ | .strel _ h _ _ => some h.toNat
  | .aadd _ _ h _ _ | .afadd _ _ h _ _ | .amin _ _ h _ _ | .amax _ _ h _ _ | .aminb _ _ h _ _ | .amaxb _ _ h _ _
  | .aand _ _ h _ _ | .aor _ _ h _ _ | .axor _ _ h _ _ | .axch _ _ h _ _ | .acas _ _ h _ _ | .ainc _ _ h _ _ => some h.toNat
  | _ => none

/-- ATOM accepts HM kind 1 (R67, R129). -/
def Instr.takesOrder : Instr → Bool
  | .aadd .. | .afadd .. | .amin .. | .amax .. | .aminb .. | .amaxb .. | .aand .. | .aor .. | .axor .. | .axch ..
  | .acas .. | .ainc .. => true
  | _ => false

/-- The instructions that accept any rounding and `.sat` (R101). -/
def Instr.takesRounding : Instr → Bool
  | .fadd .. | .fsub .. | .fmul .. | .fscale .. | .ffma .. | .ffms .. | .fnma .. | .fnms .. => true
  | .f2f .. | .i2f .. => true
  | .pack2 _ _ k _ _ | .unpack2 _ _ k _ _ => k == 0
  | .hadd2 .. | .hsub2 .. | .hmul2 .. | .hfma2 .. => true
  | .fdot2 .. | .f8dot4 .. | .nqdec .. | .nqdecf .. | .nqdot .. => true
  | _ => false

/-- The instructions that accept a rounding without `.sat` (R101). -/
def Instr.takesRoundingOnly : Instr → Bool
  | .frnd .. | .f2i .. => true
  | _ => false

/-- The instructions that accept `.sat` without a rounding (R101). -/
def Instr.takesSatOnly : Instr → Bool
  | .i2i .. | .idot4 .. => true
  | .pack2 _ _ k _ _ | .unpack2 _ _ k _ _ => k == 1
  | _ => false

/-- The instructions that accept HM kind 2 (R101, R185). -/
def Instr.takesQuiet : Instr → Bool
  | .fmin .. | .fmax .. | .fcmp .. | .ffrac .. => true
  | .frcp .. | .frsq .. | .fsqrt .. | .fdiv .. | .fexp2 .. | .flog2 .. | .fsinp .. | .fcosp .. | .ftanh .. => true
  | .hmin2 .. | .hmax2 .. => true
  | .gred _ _ _ o | .gscan _ _ _ o => o == 0 || o == 3 || o == 4
  | .gcombF32 .. => true
  | i => i.takesRounding || i.takesRoundingOnly

/-- Whether an instruction accepts a given HM (R67). -/
def Instr.takesHM (i : Instr) : Modifier → Bool
  | .order _ => i.takesOrder
  | .quiet _ => i.takesQuiet
  | .arith r sat =>
    i.takesRounding || (i.takesRoundingOnly && !sat) || (i.takesSatOnly && r == 0)

/-- A payload of HM that uses a reserved kind or code (R64, R74) is refused where the word is read; this is the
check of the order code. -/
def Modifier.wf : Modifier → Bool
  | .order c => c.toNat ≤ 4
  | _ => true

end Sys2Proof
end

