-- ==== Sys2Proof/Decode.lean ====
section
/-!
DEFINITION. The decoder, total on any words and refusing by name; the grammar of bundles (R64 to R70); and the encoder,
written from the same tables (R58, R71).
-/

namespace Sys2Proof

/-- Why a word is no instruction (R74). -/
inductive DecodeError where
  /-- A class from 0x22 to 0x3F. -/
  | unassignedClass
  /-- An unassigned minor, op or mode of an assigned class. -/
  | unassignedMinor
  /-- A nonzero bit in a field that the format reserves. -/
  | reservedBits
  /-- Class 0x00 with sel 3 to 7, or a hint word where an instruction word is asked for. -/
  | hintSelect
  /-- A coded field, a register group or an immediate outside what the instruction admits (R59, R62, R63, R72, R73). -/
  | illFormed
  deriving DecidableEq, Repr

/-- Class 0x00, HINT (R71). -/
def decodeHint (w : Nat) : Except DecodeError Instr :=
  if fld w 22 4 = 0 then (if fld w 8 14 = 0 then .ok (.hs (.ofNat 8 (w / 2 ^ 0))) else .error .reservedBits) else
  .error .hintSelect

/-- Class 0x01, IALU (R71). -/
def decodeIalu (w : Nat) : Except DecodeError Instr :=
  if fld w 22 4 = 0 then .ok (.add (.ofNat 1 (w / 2 ^ 21)) (.ofNat 7 (w / 2 ^ 14)) (.ofNat 7 (w / 2 ^ 7)) (.ofNat 7 (w / 2 ^ 0))) else
  if fld w 22 4 = 1 then .ok (.sub (.ofNat 1 (w / 2 ^ 21)) (.ofNat 7 (w / 2 ^ 14)) (.ofNat 7 (w / 2 ^ 7)) (.ofNat 7 (w / 2 ^ 0))) else
  if fld w 22 4 = 2 then .ok (.and (.ofNat 1 (w / 2 ^ 21)) (.ofNat 7 (w / 2 ^ 14)) (.ofNat 7 (w / 2 ^ 7)) (.ofNat 7 (w / 2 ^ 0))) else
  if fld w 22 4 = 3 then .ok (.or (.ofNat 1 (w / 2 ^ 21)) (.ofNat 7 (w / 2 ^ 14)) (.ofNat 7 (w / 2 ^ 7)) (.ofNat 7 (w / 2 ^ 0))) else
  if fld w 22 4 = 4 then .ok (.xor (.ofNat 1 (w / 2 ^ 21)) (.ofNat 7 (w / 2 ^ 14)) (.ofNat 7 (w / 2 ^ 7)) (.ofNat 7 (w / 2 ^ 0))) else
  if fld w 22 4 = 5 then .ok (.andn (.ofNat 1 (w / 2 ^ 21)) (.ofNat 7 (w / 2 ^ 14)) (.ofNat 7 (w / 2 ^ 7)) (.ofNat 7 (w / 2 ^ 0))) else
  if fld w 22 4 = 6 then .ok (.min (.ofNat 1 (w / 2 ^ 21)) (.ofNat 7 (w / 2 ^ 14)) (.ofNat 7 (w / 2 ^ 7)) (.ofNat 7 (w / 2 ^ 0))) else
  if fld w 22 4 = 7 then .ok (.max (.ofNat 1 (w / 2 ^ 21)) (.ofNat 7 (w / 2 ^ 14)) (.ofNat 7 (w / 2 ^ 7)) (.ofNat 7 (w / 2 ^ 0))) else
  if fld w 22 4 = 8 then .ok (.minb (.ofNat 1 (w / 2 ^ 21)) (.ofNat 7 (w / 2 ^ 14)) (.ofNat 7 (w / 2 ^ 7)) (.ofNat 7 (w / 2 ^ 0))) else
  if fld w 22 4 = 9 then .ok (.maxb (.ofNat 1 (w / 2 ^ 21)) (.ofNat 7 (w / 2 ^ 14)) (.ofNat 7 (w / 2 ^ 7)) (.ofNat 7 (w / 2 ^ 0))) else
  if fld w 22 4 = 10 then (if fld w 0 7 = 0 then .ok (.abs (.ofNat 1 (w / 2 ^ 21)) (.ofNat 7 (w / 2 ^ 14)) (.ofNat 7 (w / 2 ^ 7))) else .error .reservedBits) else
  if fld w 22 4 = 11 then .ok (.addc (.ofNat 1 (w / 2 ^ 21)) (.ofNat 7 (w / 2 ^ 14)) (.ofNat 7 (w / 2 ^ 7)) (.ofNat 7 (w / 2 ^ 0))) else
  if fld w 22 4 = 12 then .ok (.subb (.ofNat 1 (w / 2 ^ 21)) (.ofNat 7 (w / 2 ^ 14)) (.ofNat 7 (w / 2 ^ 7)) (.ofNat 7 (w / 2 ^ 0))) else
  if fld w 22 4 = 13 then .ok (.adds (.ofNat 1 (w / 2 ^ 21)) (.ofNat 7 (w / 2 ^ 14)) (.ofNat 7 (w / 2 ^ 7)) (.ofNat 7 (w / 2 ^ 0))) else
  if fld w 22 4 = 14 then .ok (.subs (.ofNat 1 (w / 2 ^ 21)) (.ofNat 7 (w / 2 ^ 14)) (.ofNat 7 (w / 2 ^ 7)) (.ofNat 7 (w / 2 ^ 0))) else
  if fld w 22 4 = 15 then (if fld w 0 7 = 0 then .ok (.neg (.ofNat 1 (w / 2 ^ 21)) (.ofNat 7 (w / 2 ^ 14)) (.ofNat 7 (w / 2 ^ 7))) else .error .reservedBits) else
  .error .unassignedMinor

/-- Class 0x02, IALUI (R71). -/
def decodeIalui (w : Nat) : Except DecodeError Instr :=
  if fld w 22 4 = 0 then .ok (.addImm (.ofNat 1 (w / 2 ^ 21)) (.ofNat 7 (w / 2 ^ 14)) (.ofNat 7 (w / 2 ^ 7)) (.ofNat 7 (w / 2 ^ 0))) else
  if fld w 22 4 = 1 then .ok (.subImm (.ofNat 1 (w / 2 ^ 21)) (.ofNat 7 (w / 2 ^ 14)) (.ofNat 7 (w / 2 ^ 7)) (.ofNat 7 (w / 2 ^ 0))) else
  if fld w 22 4 = 2 then .ok (.andImm (.ofNat 1 (w / 2 ^ 21)) (.ofNat 7 (w / 2 ^ 14)) (.ofNat 7 (w / 2 ^ 7)) (.ofNat 7 (w / 2 ^ 0))) else
  if fld w 22 4 = 3 then .ok (.orImm (.ofNat 1 (w / 2 ^ 21)) (.ofNat 7 (w / 2 ^ 14)) (.ofNat 7 (w / 2 ^ 7)) (.ofNat 7 (w / 2 ^ 0))) else
  if fld w 22 4 = 4 then .ok (.xorImm (.ofNat 1 (w / 2 ^ 21)) (.ofNat 7 (w / 2 ^ 14)) (.ofNat 7 (w / 2 ^ 7)) (.ofNat 7 (w / 2 ^ 0))) else
  if fld w 22 4 = 5 then .ok (.andnImm (.ofNat 1 (w / 2 ^ 21)) (.ofNat 7 (w / 2 ^ 14)) (.ofNat 7 (w / 2 ^ 7)) (.ofNat 7 (w / 2 ^ 0))) else
  if fld w 22 4 = 6 then .ok (.minImm (.ofNat 1 (w / 2 ^ 21)) (.ofNat 7 (w / 2 ^ 14)) (.ofNat 7 (w / 2 ^ 7)) (.ofNat 7 (w / 2 ^ 0))) else
  if fld w 22 4 = 7 then .ok (.maxImm (.ofNat 1 (w / 2 ^ 21)) (.ofNat 7 (w / 2 ^ 14)) (.ofNat 7 (w / 2 ^ 7)) (.ofNat 7 (w / 2 ^ 0))) else
  if fld w 22 4 = 8 then .ok (.minbImm (.ofNat 1 (w / 2 ^ 21)) (.ofNat 7 (w / 2 ^ 14)) (.ofNat 7 (w / 2 ^ 7)) (.ofNat 7 (w / 2 ^ 0))) else
  if fld w 22 4 = 9 then .ok (.maxbImm (.ofNat 1 (w / 2 ^ 21)) (.ofNat 7 (w / 2 ^ 14)) (.ofNat 7 (w / 2 ^ 7)) (.ofNat 7 (w / 2 ^ 0))) else
  if fld w 22 4 = 11 then .ok (.addcImm (.ofNat 1 (w / 2 ^ 21)) (.ofNat 7 (w / 2 ^ 14)) (.ofNat 7 (w / 2 ^ 7)) (.ofNat 7 (w / 2 ^ 0))) else
  if fld w 22 4 = 12 then .ok (.subbImm (.ofNat 1 (w / 2 ^ 21)) (.ofNat 7 (w / 2 ^ 14)) (.ofNat 7 (w / 2 ^ 7)) (.ofNat 7 (w / 2 ^ 0))) else
  if fld w 22 4 = 13 then .ok (.addsImm (.ofNat 1 (w / 2 ^ 21)) (.ofNat 7 (w / 2 ^ 14)) (.ofNat 7 (w / 2 ^ 7)) (.ofNat 7 (w / 2 ^ 0))) else
  if fld w 22 4 = 14 then .ok (.subsImm (.ofNat 1 (w / 2 ^ 21)) (.ofNat 7 (w / 2 ^ 14)) (.ofNat 7 (w / 2 ^ 7)) (.ofNat 7 (w / 2 ^ 0))) else
  .error .unassignedMinor

/-- Class 0x03, SHIFT (R71). -/
def decodeShift (w : Nat) : Except DecodeError Instr :=
  if fld w 22 4 = 0 then .ok (.shl (.ofNat 1 (w / 2 ^ 21)) (.ofNat 7 (w / 2 ^ 14)) (.ofNat 7 (w / 2 ^ 7)) (.ofNat 7 (w / 2 ^ 0))) else
  if fld w 22 4 = 1 then .ok (.shr (.ofNat 1 (w / 2 ^ 21)) (.ofNat 7 (w / 2 ^ 14)) (.ofNat 7 (w / 2 ^ 7)) (.ofNat 7 (w / 2 ^ 0))) else
  if fld w 22 4 = 2 then .ok (.sar (.ofNat 1 (w / 2 ^ 21)) (.ofNat 7 (w / 2 ^ 14)) (.ofNat 7 (w / 2 ^ 7)) (.ofNat 7 (w / 2 ^ 0))) else
  if fld w 22 4 = 3 then .ok (.rol (.ofNat 1 (w / 2 ^ 21)) (.ofNat 7 (w / 2 ^ 14)) (.ofNat 7 (w / 2 ^ 7)) (.ofNat 7 (w / 2 ^ 0))) else
  if fld w 22 4 = 4 then .ok (.bfx (.ofNat 1 (w / 2 ^ 21)) (.ofNat 7 (w / 2 ^ 14)) (.ofNat 7 (w / 2 ^ 7)) (.ofNat 7 (w / 2 ^ 0))) else
  if fld w 22 4 = 5 then .ok (.bfxb (.ofNat 1 (w / 2 ^ 21)) (.ofNat 7 (w / 2 ^ 14)) (.ofNat 7 (w / 2 ^ 7)) (.ofNat 7 (w / 2 ^ 0))) else
  if fld w 22 4 = 6 then .ok (.bfi (.ofNat 1 (w / 2 ^ 21)) (.ofNat 7 (w / 2 ^ 14)) (.ofNat 7 (w / 2 ^ 7)) (.ofNat 7 (w / 2 ^ 0))) else
  if fld w 22 4 = 7 then (if fld w 0 7 = 0 then .ok (.clz (.ofNat 1 (w / 2 ^ 21)) (.ofNat 7 (w / 2 ^ 14)) (.ofNat 7 (w / 2 ^ 7))) else .error .reservedBits) else
  if fld w 22 4 = 8 then (if fld w 0 7 = 0 then .ok (.popc (.ofNat 1 (w / 2 ^ 21)) (.ofNat 7 (w / 2 ^ 14)) (.ofNat 7 (w / 2 ^ 7))) else .error .reservedBits) else
  if fld w 22 4 = 9 then (if fld w 0 7 = 0 then .ok (.brev (.ofNat 1 (w / 2 ^ 21)) (.ofNat 7 (w / 2 ^ 14)) (.ofNat 7 (w / 2 ^ 7))) else .error .reservedBits) else
  if fld w 22 4 = 10 then .ok (.prmt (.ofNat 1 (w / 2 ^ 21)) (.ofNat 7 (w / 2 ^ 14)) (.ofNat 7 (w / 2 ^ 7)) (.ofNat 7 (w / 2 ^ 0))) else
  if fld w 22 4 = 11 then .ok (.fshf (.ofNat 1 (w / 2 ^ 21)) (.ofNat 7 (w / 2 ^ 14)) (.ofNat 7 (w / 2 ^ 7)) (.ofNat 7 (w / 2 ^ 0))) else
  .error .unassignedMinor

/-- Class 0x04, IMUL (R71). -/
def decodeImul (w : Nat) : Except DecodeError Instr :=
  if fld w 22 4 = 0 then .ok (.mul (.ofNat 1 (w / 2 ^ 21)) (.ofNat 7 (w / 2 ^ 14)) (.ofNat 7 (w / 2 ^ 7)) (.ofNat 7 (w / 2 ^ 0))) else
  if fld w 22 4 = 1 then .ok (.mulhi (.ofNat 1 (w / 2 ^ 21)) (.ofNat 7 (w / 2 ^ 14)) (.ofNat 7 (w / 2 ^ 7)) (.ofNat 7 (w / 2 ^ 0))) else
  if fld w 22 4 = 2 then .ok (.mulhib (.ofNat 1 (w / 2 ^ 21)) (.ofNat 7 (w / 2 ^ 14)) (.ofNat 7 (w / 2 ^ 7)) (.ofNat 7 (w / 2 ^ 0))) else
  if fld w 22 4 = 3 then .ok (.mad (.ofNat 1 (w / 2 ^ 21)) (.ofNat 7 (w / 2 ^ 14)) (.ofNat 7 (w / 2 ^ 7)) (.ofNat 7 (w / 2 ^ 0))) else
  if fld w 22 4 = 4 then .ok (.madhi (.ofNat 1 (w / 2 ^ 21)) (.ofNat 7 (w / 2 ^ 14)) (.ofNat 7 (w / 2 ^ 7)) (.ofNat 7 (w / 2 ^ 0))) else
  if fld w 22 4 = 5 then .ok (.madhib (.ofNat 1 (w / 2 ^ 21)) (.ofNat 7 (w / 2 ^ 14)) (.ofNat 7 (w / 2 ^ 7)) (.ofNat 7 (w / 2 ^ 0))) else
  .error .unassignedMinor

/-- Class 0x05, IDIV (R71). -/
def decodeIdiv (w : Nat) : Except DecodeError Instr :=
  if fld w 22 4 = 0 then (if fld w 21 1 = 0 then .ok (.div (.ofNat 7 (w / 2 ^ 14)) (.ofNat 7 (w / 2 ^ 7)) (.ofNat 7 (w / 2 ^ 0))) else .error .reservedBits) else
  if fld w 22 4 = 1 then (if fld w 21 1 = 0 then .ok (.divb (.ofNat 7 (w / 2 ^ 14)) (.ofNat 7 (w / 2 ^ 7)) (.ofNat 7 (w / 2 ^ 0))) else .error .reservedBits) else
  if fld w 22 4 = 2 then (if fld w 21 1 = 0 then .ok (.rem (.ofNat 7 (w / 2 ^ 14)) (.ofNat 7 (w / 2 ^ 7)) (.ofNat 7 (w / 2 ^ 0))) else .error .reservedBits) else
  if fld w 22 4 = 3 then (if fld w 21 1 = 0 then .ok (.remb (.ofNat 7 (w / 2 ^ 14)) (.ofNat 7 (w / 2 ^ 7)) (.ofNat 7 (w / 2 ^ 0))) else .error .reservedBits) else
  .error .unassignedMinor

/-- Class 0x06, ICMP (R71). -/
def decodeIcmp (w : Nat) : Except DecodeError Instr :=
  if fld w 21 1 = 0 then (if fld w 17 4 = 0 then .ok (.cmp (.ofNat 4 (w / 2 ^ 22)) (.ofNat 3 (w / 2 ^ 14)) (.ofNat 7 (w / 2 ^ 7)) (.ofNat 7 (w / 2 ^ 0))) else .error .reservedBits) else
  if fld w 21 1 = 1 then (if fld w 17 4 = 0 then .ok (.cmpi (.ofNat 4 (w / 2 ^ 22)) (.ofNat 3 (w / 2 ^ 14)) (.ofNat 7 (w / 2 ^ 7)) (.ofNat 7 (w / 2 ^ 0))) else .error .reservedBits) else
  .error .unassignedMinor

/-- Class 0x07, MOVE (R71). -/
def decodeMove (w : Nat) : Except DecodeError Instr :=
  if fld w 22 4 = 0 then (if fld w 0 7 = 0 then .ok (.mov (.ofNat 1 (w / 2 ^ 21)) (.ofNat 7 (w / 2 ^ 14)) (.ofNat 7 (w / 2 ^ 7))) else .error .reservedBits) else
  if fld w 22 4 = 1 then .ok (.movi (.ofNat 1 (w / 2 ^ 21)) (.ofNat 7 (w / 2 ^ 14)) (.ofNat 14 (w / 2 ^ 0))) else
  if fld w 22 4 = 2 then .ok (.rdsr (.ofNat 1 (w / 2 ^ 21)) (.ofNat 7 (w / 2 ^ 14)) (.ofNat 14 (w / 2 ^ 0))) else
  if fld w 22 4 = 3 then (if fld w 0 7 = 0 ∧ fld w 11 3 = 0 then .ok (.rdw (.ofNat 1 (w / 2 ^ 21)) (.ofNat 7 (w / 2 ^ 14)) (.ofNat 4 (w / 2 ^ 7))) else .error .reservedBits) else
  if fld w 22 4 = 4 then (if fld w 0 7 = 0 ∧ fld w 10 4 = 0 then .ok (.rdk (.ofNat 1 (w / 2 ^ 21)) (.ofNat 7 (w / 2 ^ 14)) (.ofNat 3 (w / 2 ^ 7))) else .error .reservedBits) else
  if fld w 22 4 = 5 then (if fld w 0 7 = 0 ∧ fld w 14 8 = 0 then .ok (.movToFstat (.ofNat 7 (w / 2 ^ 7))) else .error .reservedBits) else
  if fld w 22 4 = 6 then (if fld w 0 14 = 0 then .ok (.movFromFstat (.ofNat 1 (w / 2 ^ 21)) (.ofNat 7 (w / 2 ^ 14))) else .error .reservedBits) else
  if fld w 25 1 = 1 then .ok (.sel (.ofNat 3 (w / 2 ^ 22)) (.ofNat 1 (w / 2 ^ 21)) (.ofNat 7 (w / 2 ^ 14)) (.ofNat 7 (w / 2 ^ 7)) (.ofNat 7 (w / 2 ^ 0))) else
  .error .unassignedMinor

/-- Class 0x08, PRED (R71). -/
def decodePred (w : Nat) : Except DecodeError Instr :=
  if fld w 22 4 = 0 then (if fld w 3 4 = 0 ∧ fld w 10 4 = 0 ∧ fld w 17 5 = 0 then .ok (.pand (.ofNat 3 (w / 2 ^ 14)) (.ofNat 3 (w / 2 ^ 7)) (.ofNat 3 (w / 2 ^ 0))) else .error .reservedBits) else
  if fld w 22 4 = 1 then (if fld w 3 4 = 0 ∧ fld w 10 4 = 0 ∧ fld w 17 5 = 0 then .ok (.por (.ofNat 3 (w / 2 ^ 14)) (.ofNat 3 (w / 2 ^ 7)) (.ofNat 3 (w / 2 ^ 0))) else .error .reservedBits) else
  if fld w 22 4 = 2 then (if fld w 3 4 = 0 ∧ fld w 10 4 = 0 ∧ fld w 17 5 = 0 then .ok (.pxor (.ofNat 3 (w / 2 ^ 14)) (.ofNat 3 (w / 2 ^ 7)) (.ofNat 3 (w / 2 ^ 0))) else .error .reservedBits) else
  if fld w 22 4 = 3 then (if fld w 0 7 = 0 ∧ fld w 10 4 = 0 ∧ fld w 17 5 = 0 then .ok (.pnot (.ofNat 3 (w / 2 ^ 14)) (.ofNat 3 (w / 2 ^ 7))) else .error .reservedBits) else
  if fld w 22 4 = 4 then (if fld w 0 7 = 0 ∧ fld w 17 5 = 0 then .ok (.pset (.ofNat 3 (w / 2 ^ 14)) (.ofNat 7 (w / 2 ^ 7))) else .error .reservedBits) else
  if fld w 22 4 = 5 then (if fld w 0 7 = 0 ∧ fld w 10 4 = 0 ∧ fld w 17 5 = 0 then .ok (.pmov (.ofNat 3 (w / 2 ^ 14)) (.ofNat 3 (w / 2 ^ 7))) else .error .reservedBits) else
  .error .unassignedMinor

/-- Class 0x09, ADDR (R71). -/
def decodeAddr (w : Nat) : Except DecodeError Instr :=
  if fld w 22 4 = 0 then (if fld w 4 3 = 0 then .ok (.lea (.ofNat 1 (w / 2 ^ 21)) (.ofNat 7 (w / 2 ^ 14)) (.ofNat 7 (w / 2 ^ 7)) (.ofNat 4 (w / 2 ^ 0))) else .error .reservedBits) else
  if fld w 22 4 = 1 then .ok (.add64 (.ofNat 1 (w / 2 ^ 21)) (.ofNat 7 (w / 2 ^ 14)) (.ofNat 7 (w / 2 ^ 7)) (.ofNat 7 (w / 2 ^ 0))) else
  if fld w 22 4 = 2 then .ok (.sub64 (.ofNat 1 (w / 2 ^ 21)) (.ofNat 7 (w / 2 ^ 14)) (.ofNat 7 (w / 2 ^ 7)) (.ofNat 7 (w / 2 ^ 0))) else
  if fld w 22 4 = 3 then .ok (.shl64 (.ofNat 1 (w / 2 ^ 21)) (.ofNat 7 (w / 2 ^ 14)) (.ofNat 7 (w / 2 ^ 7)) (.ofNat 7 (w / 2 ^ 0))) else
  if fld w 22 4 = 4 then .ok (.mulw (.ofNat 1 (w / 2 ^ 21)) (.ofNat 7 (w / 2 ^ 14)) (.ofNat 7 (w / 2 ^ 7)) (.ofNat 7 (w / 2 ^ 0))) else
  if fld w 22 4 = 5 then (if fld w 21 1 = 0 then .ok (.cmp64 (.ofNat 4 (w / 2 ^ 17)) (.ofNat 3 (w / 2 ^ 14)) (.ofNat 7 (w / 2 ^ 7)) (.ofNat 7 (w / 2 ^ 0))) else .error .reservedBits) else
  .error .unassignedMinor

/-- Class 0x0A, FADD (R71). -/
def decodeFadd (w : Nat) : Except DecodeError Instr :=
  if fld w 22 4 = 0 then .ok (.fadd (.ofNat 1 (w / 2 ^ 21)) (.ofNat 7 (w / 2 ^ 14)) (.ofNat 7 (w / 2 ^ 7)) (.ofNat 7 (w / 2 ^ 0))) else
  if fld w 22 4 = 1 then .ok (.fsub (.ofNat 1 (w / 2 ^ 21)) (.ofNat 7 (w / 2 ^ 14)) (.ofNat 7 (w / 2 ^ 7)) (.ofNat 7 (w / 2 ^ 0))) else
  if fld w 22 4 = 2 then .ok (.fmin (.ofNat 1 (w / 2 ^ 21)) (.ofNat 7 (w / 2 ^ 14)) (.ofNat 7 (w / 2 ^ 7)) (.ofNat 7 (w / 2 ^ 0))) else
  if fld w 22 4 = 3 then .ok (.fmax (.ofNat 1 (w / 2 ^ 21)) (.ofNat 7 (w / 2 ^ 14)) (.ofNat 7 (w / 2 ^ 7)) (.ofNat 7 (w / 2 ^ 0))) else
  .error .unassignedMinor

/-- Class 0x0B, FMUL (R71). -/
def decodeFmul (w : Nat) : Except DecodeError Instr :=
  if fld w 22 4 = 0 then .ok (.fmul (.ofNat 1 (w / 2 ^ 21)) (.ofNat 7 (w / 2 ^ 14)) (.ofNat 7 (w / 2 ^ 7)) (.ofNat 7 (w / 2 ^ 0))) else
  if fld w 22 4 = 1 then .ok (.fscale (.ofNat 1 (w / 2 ^ 21)) (.ofNat 7 (w / 2 ^ 14)) (.ofNat 7 (w / 2 ^ 7)) (.ofNat 7 (w / 2 ^ 0))) else
  .error .unassignedMinor

/-- Class 0x0C, FFMA (R71). -/
def decodeFfma (w : Nat) : Except DecodeError Instr :=
  if fld w 22 4 = 0 then .ok (.ffma (.ofNat 1 (w / 2 ^ 21)) (.ofNat 7 (w / 2 ^ 14)) (.ofNat 7 (w / 2 ^ 7)) (.ofNat 7 (w / 2 ^ 0))) else
  if fld w 22 4 = 1 then .ok (.ffms (.ofNat 1 (w / 2 ^ 21)) (.ofNat 7 (w / 2 ^ 14)) (.ofNat 7 (w / 2 ^ 7)) (.ofNat 7 (w / 2 ^ 0))) else
  if fld w 22 4 = 2 then .ok (.fnma (.ofNat 1 (w / 2 ^ 21)) (.ofNat 7 (w / 2 ^ 14)) (.ofNat 7 (w / 2 ^ 7)) (.ofNat 7 (w / 2 ^ 0))) else
  if fld w 22 4 = 3 then .ok (.fnms (.ofNat 1 (w / 2 ^ 21)) (.ofNat 7 (w / 2 ^ 14)) (.ofNat 7 (w / 2 ^ 7)) (.ofNat 7 (w / 2 ^ 0))) else
  .error .unassignedMinor

/-- Class 0x0D, FCMP (R71). -/
def decodeFcmp (w : Nat) : Except DecodeError Instr :=
  if fld w 25 1 = 0 then (if fld w 17 5 = 0 then .ok (.fcmp (.ofNat 3 (w / 2 ^ 22)) (.ofNat 3 (w / 2 ^ 14)) (.ofNat 7 (w / 2 ^ 7)) (.ofNat 7 (w / 2 ^ 0))) else .error .reservedBits) else
  if fld w 22 4 = 8 then (if fld w 0 7 = 0 then .ok (.fclass (.ofNat 1 (w / 2 ^ 21)) (.ofNat 7 (w / 2 ^ 14)) (.ofNat 7 (w / 2 ^ 7))) else .error .reservedBits) else
  .error .unassignedMinor

/-- Class 0x0E, FMISC (R71). -/
def decodeFmisc (w : Nat) : Except DecodeError Instr :=
  if fld w 22 4 = 0 then (if fld w 0 7 = 0 then .ok (.frnd (.ofNat 1 (w / 2 ^ 21)) (.ofNat 7 (w / 2 ^ 14)) (.ofNat 7 (w / 2 ^ 7))) else .error .reservedBits) else
  if fld w 22 4 = 1 then .ok (.fcpys (.ofNat 1 (w / 2 ^ 21)) (.ofNat 7 (w / 2 ^ 14)) (.ofNat 7 (w / 2 ^ 7)) (.ofNat 7 (w / 2 ^ 0))) else
  if fld w 22 4 = 2 then (if fld w 0 7 = 0 then .ok (.fabs (.ofNat 1 (w / 2 ^ 21)) (.ofNat 7 (w / 2 ^ 14)) (.ofNat 7 (w / 2 ^ 7))) else .error .reservedBits) else
  if fld w 22 4 = 3 then (if fld w 0 7 = 0 then .ok (.fneg (.ofNat 1 (w / 2 ^ 21)) (.ofNat 7 (w / 2 ^ 14)) (.ofNat 7 (w / 2 ^ 7))) else .error .reservedBits) else
  if fld w 22 4 = 4 then (if fld w 0 7 = 0 then .ok (.ffrac (.ofNat 1 (w / 2 ^ 21)) (.ofNat 7 (w / 2 ^ 14)) (.ofNat 7 (w / 2 ^ 7))) else .error .reservedBits) else
  .error .unassignedMinor

/-- Class 0x0F, SFU (R71). -/
def decodeSfu (w : Nat) : Except DecodeError Instr :=
  if fld w 22 4 = 0 then (if fld w 0 7 = 0 ∧ fld w 21 1 = 0 then .ok (.frcp (.ofNat 7 (w / 2 ^ 14)) (.ofNat 7 (w / 2 ^ 7))) else .error .reservedBits) else
  if fld w 22 4 = 1 then (if fld w 0 7 = 0 ∧ fld w 21 1 = 0 then .ok (.frsq (.ofNat 7 (w / 2 ^ 14)) (.ofNat 7 (w / 2 ^ 7))) else .error .reservedBits) else
  if fld w 22 4 = 2 then (if fld w 0 7 = 0 ∧ fld w 21 1 = 0 then .ok (.fsqrt (.ofNat 7 (w / 2 ^ 14)) (.ofNat 7 (w / 2 ^ 7))) else .error .reservedBits) else
  if fld w 22 4 = 3 then (if fld w 21 1 = 0 then .ok (.fdiv (.ofNat 7 (w / 2 ^ 14)) (.ofNat 7 (w / 2 ^ 7)) (.ofNat 7 (w / 2 ^ 0))) else .error .reservedBits) else
  if fld w 22 4 = 4 then (if fld w 0 7 = 0 ∧ fld w 21 1 = 0 then .ok (.fexp2 (.ofNat 7 (w / 2 ^ 14)) (.ofNat 7 (w / 2 ^ 7))) else .error .reservedBits) else
  if fld w 22 4 = 5 then (if fld w 0 7 = 0 ∧ fld w 21 1 = 0 then .ok (.flog2 (.ofNat 7 (w / 2 ^ 14)) (.ofNat 7 (w / 2 ^ 7))) else .error .reservedBits) else
  if fld w 22 4 = 6 then (if fld w 0 7 = 0 ∧ fld w 21 1 = 0 then .ok (.fsinp (.ofNat 7 (w / 2 ^ 14)) (.ofNat 7 (w / 2 ^ 7))) else .error .reservedBits) else
  if fld w 22 4 = 7 then (if fld w 0 7 = 0 ∧ fld w 21 1 = 0 then .ok (.fcosp (.ofNat 7 (w / 2 ^ 14)) (.ofNat 7 (w / 2 ^ 7))) else .error .reservedBits) else
  if fld w 22 4 = 8 then (if fld w 0 7 = 0 ∧ fld w 21 1 = 0 then .ok (.ftanh (.ofNat 7 (w / 2 ^ 14)) (.ofNat 7 (w / 2 ^ 7))) else .error .reservedBits) else
  .error .unassignedMinor

/-- Class 0x10, CVT (R71). -/
def decodeCvt (w : Nat) : Except DecodeError Instr :=
  if fld w 22 4 = 0 then (if fld w 6 1 = 0 ∧ fld w 21 1 = 0 then .ok (.f2f (.ofNat 7 (w / 2 ^ 14)) (.ofNat 7 (w / 2 ^ 7)) (.ofNat 3 (w / 2 ^ 3)) (.ofNat 3 (w / 2 ^ 0))) else .error .reservedBits) else
  if fld w 22 4 = 1 then (if fld w 6 1 = 0 ∧ fld w 21 1 = 0 then .ok (.f2i (.ofNat 7 (w / 2 ^ 14)) (.ofNat 7 (w / 2 ^ 7)) (.ofNat 3 (w / 2 ^ 3)) (.ofNat 3 (w / 2 ^ 0))) else .error .reservedBits) else
  if fld w 22 4 = 2 then (if fld w 6 1 = 0 ∧ fld w 21 1 = 0 then .ok (.i2f (.ofNat 7 (w / 2 ^ 14)) (.ofNat 7 (w / 2 ^ 7)) (.ofNat 3 (w / 2 ^ 3)) (.ofNat 3 (w / 2 ^ 0))) else .error .reservedBits) else
  if fld w 22 4 = 3 then (if fld w 6 1 = 0 ∧ fld w 21 1 = 0 then .ok (.i2i (.ofNat 7 (w / 2 ^ 14)) (.ofNat 7 (w / 2 ^ 7)) (.ofNat 3 (w / 2 ^ 3)) (.ofNat 3 (w / 2 ^ 0))) else .error .reservedBits) else
  if fld w 22 4 = 4 then (if fld w 21 1 = 0 then .ok (.pack2 (.ofNat 7 (w / 2 ^ 14)) (.ofNat 7 (w / 2 ^ 7)) (.ofNat 1 (w / 2 ^ 6)) (.ofNat 3 (w / 2 ^ 3)) (.ofNat 3 (w / 2 ^ 0))) else .error .reservedBits) else
  if fld w 22 4 = 5 then (if fld w 21 1 = 0 then .ok (.unpack2 (.ofNat 7 (w / 2 ^ 14)) (.ofNat 7 (w / 2 ^ 7)) (.ofNat 1 (w / 2 ^ 6)) (.ofNat 3 (w / 2 ^ 3)) (.ofNat 3 (w / 2 ^ 0))) else .error .reservedBits) else
  .error .unassignedMinor

/-- Class 0x11, PK16 (R71). -/
def decodePk16 (w : Nat) : Except DecodeError Instr :=
  if fld w 22 3 = 0 then .ok (.hadd2 (.ofNat 1 (w / 2 ^ 25)) (.ofNat 1 (w / 2 ^ 21)) (.ofNat 7 (w / 2 ^ 14)) (.ofNat 7 (w / 2 ^ 7)) (.ofNat 7 (w / 2 ^ 0))) else
  if fld w 22 3 = 1 then .ok (.hsub2 (.ofNat 1 (w / 2 ^ 25)) (.ofNat 1 (w / 2 ^ 21)) (.ofNat 7 (w / 2 ^ 14)) (.ofNat 7 (w / 2 ^ 7)) (.ofNat 7 (w / 2 ^ 0))) else
  if fld w 22 3 = 2 then .ok (.hmul2 (.ofNat 1 (w / 2 ^ 25)) (.ofNat 1 (w / 2 ^ 21)) (.ofNat 7 (w / 2 ^ 14)) (.ofNat 7 (w / 2 ^ 7)) (.ofNat 7 (w / 2 ^ 0))) else
  if fld w 22 3 = 3 then .ok (.hfma2 (.ofNat 1 (w / 2 ^ 25)) (.ofNat 1 (w / 2 ^ 21)) (.ofNat 7 (w / 2 ^ 14)) (.ofNat 7 (w / 2 ^ 7)) (.ofNat 7 (w / 2 ^ 0))) else
  if fld w 22 3 = 4 then .ok (.hmin2 (.ofNat 1 (w / 2 ^ 25)) (.ofNat 1 (w / 2 ^ 21)) (.ofNat 7 (w / 2 ^ 14)) (.ofNat 7 (w / 2 ^ 7)) (.ofNat 7 (w / 2 ^ 0))) else
  if fld w 22 3 = 5 then .ok (.hmax2 (.ofNat 1 (w / 2 ^ 25)) (.ofNat 1 (w / 2 ^ 21)) (.ofNat 7 (w / 2 ^ 14)) (.ofNat 7 (w / 2 ^ 7)) (.ofNat 7 (w / 2 ^ 0))) else
  .error .unassignedMinor

/-- Class 0x12, DOT (R71). -/
def decodeDot (w : Nat) : Except DecodeError Instr :=
  if fld w 23 3 = 0 then .ok (.idot4 (.ofNat 1 (w / 2 ^ 22)) (.ofNat 1 (w / 2 ^ 21)) (.ofNat 7 (w / 2 ^ 14)) (.ofNat 7 (w / 2 ^ 7)) (.ofNat 7 (w / 2 ^ 0))) else
  if fld w 23 3 = 1 then .ok (.fdot2 (.ofNat 1 (w / 2 ^ 22)) (.ofNat 1 (w / 2 ^ 21)) (.ofNat 7 (w / 2 ^ 14)) (.ofNat 7 (w / 2 ^ 7)) (.ofNat 7 (w / 2 ^ 0))) else
  if fld w 23 3 = 2 then .ok (.f8dot4 (.ofNat 1 (w / 2 ^ 22)) (.ofNat 1 (w / 2 ^ 21)) (.ofNat 7 (w / 2 ^ 14)) (.ofNat 7 (w / 2 ^ 7)) (.ofNat 7 (w / 2 ^ 0))) else
  .error .unassignedMinor

/-- Class 0x13, NQ (R71). -/
def decodeNq (w : Nat) : Except DecodeError Instr :=
  if fld w 22 2 = 0 then .ok (.nqdec (.ofNat 2 (w / 2 ^ 24)) (.ofNat 1 (w / 2 ^ 21)) (.ofNat 7 (w / 2 ^ 14)) (.ofNat 7 (w / 2 ^ 7)) (.ofNat 7 (w / 2 ^ 0))) else
  if fld w 22 2 = 1 then .ok (.nqdecf (.ofNat 2 (w / 2 ^ 24)) (.ofNat 1 (w / 2 ^ 21)) (.ofNat 7 (w / 2 ^ 14)) (.ofNat 7 (w / 2 ^ 7)) (.ofNat 7 (w / 2 ^ 0))) else
  if fld w 22 2 = 2 then .ok (.nqdot (.ofNat 2 (w / 2 ^ 24)) (.ofNat 1 (w / 2 ^ 21)) (.ofNat 7 (w / 2 ^ 14)) (.ofNat 7 (w / 2 ^ 7)) (.ofNat 7 (w / 2 ^ 0))) else
  .error .unassignedMinor

/-- Class 0x14, LD (R71). -/
def decodeLd (w : Nat) : Except DecodeError Instr :=
  if fld w 22 4 = 0 then (if fld w 21 1 = 0 then .ok (.ld (.ofNat 7 (w / 2 ^ 14)) (.ofNat 4 (w / 2 ^ 10)) (.ofNat 7 (w / 2 ^ 3)) (.ofNat 3 (w / 2 ^ 0))) else .error .reservedBits) else
  if fld w 22 4 = 1 then (if fld w 21 1 = 0 then .ok (.lds (.ofNat 7 (w / 2 ^ 14)) (.ofNat 4 (w / 2 ^ 10)) (.ofNat 7 (w / 2 ^ 3)) (.ofNat 3 (w / 2 ^ 0))) else .error .reservedBits) else
  if fld w 22 4 = 2 then (if fld w 21 1 = 0 then .ok (.lda (.ofNat 7 (w / 2 ^ 14)) (.ofNat 4 (w / 2 ^ 10)) (.ofNat 7 (w / 2 ^ 3)) (.ofNat 3 (w / 2 ^ 0))) else .error .reservedBits) else
  .error .unassignedMinor

/-- Class 0x15, ST (R71). -/
def decodeSt (w : Nat) : Except DecodeError Instr :=
  if fld w 22 4 = 0 then (if fld w 21 1 = 0 then .ok (.st (.ofNat 7 (w / 2 ^ 14)) (.ofNat 4 (w / 2 ^ 10)) (.ofNat 7 (w / 2 ^ 3)) (.ofNat 3 (w / 2 ^ 0))) else .error .reservedBits) else
  if fld w 22 4 = 1 then (if fld w 21 1 = 0 then .ok (.strel (.ofNat 7 (w / 2 ^ 14)) (.ofNat 4 (w / 2 ^ 10)) (.ofNat 7 (w / 2 ^ 3)) (.ofNat 3 (w / 2 ^ 0))) else .error .reservedBits) else
  .error .unassignedMinor

/-- Class 0x16, ATOM (R71). -/
def decodeAtom (w : Nat) : Except DecodeError Instr :=
  if fld w 22 4 = 0 then .ok (.aadd (.ofNat 1 (w / 2 ^ 21)) (.ofNat 7 (w / 2 ^ 14)) (.ofNat 4 (w / 2 ^ 10)) (.ofNat 7 (w / 2 ^ 3)) (.ofNat 3 (w / 2 ^ 0))) else
  if fld w 22 4 = 1 then .ok (.afadd (.ofNat 1 (w / 2 ^ 21)) (.ofNat 7 (w / 2 ^ 14)) (.ofNat 4 (w / 2 ^ 10)) (.ofNat 7 (w / 2 ^ 3)) (.ofNat 3 (w / 2 ^ 0))) else
  if fld w 22 4 = 2 then .ok (.amin (.ofNat 1 (w / 2 ^ 21)) (.ofNat 7 (w / 2 ^ 14)) (.ofNat 4 (w / 2 ^ 10)) (.ofNat 7 (w / 2 ^ 3)) (.ofNat 3 (w / 2 ^ 0))) else
  if fld w 22 4 = 3 then .ok (.amax (.ofNat 1 (w / 2 ^ 21)) (.ofNat 7 (w / 2 ^ 14)) (.ofNat 4 (w / 2 ^ 10)) (.ofNat 7 (w / 2 ^ 3)) (.ofNat 3 (w / 2 ^ 0))) else
  if fld w 22 4 = 4 then .ok (.aminb (.ofNat 1 (w / 2 ^ 21)) (.ofNat 7 (w / 2 ^ 14)) (.ofNat 4 (w / 2 ^ 10)) (.ofNat 7 (w / 2 ^ 3)) (.ofNat 3 (w / 2 ^ 0))) else
  if fld w 22 4 = 5 then .ok (.amaxb (.ofNat 1 (w / 2 ^ 21)) (.ofNat 7 (w / 2 ^ 14)) (.ofNat 4 (w / 2 ^ 10)) (.ofNat 7 (w / 2 ^ 3)) (.ofNat 3 (w / 2 ^ 0))) else
  if fld w 22 4 = 6 then .ok (.aand (.ofNat 1 (w / 2 ^ 21)) (.ofNat 7 (w / 2 ^ 14)) (.ofNat 4 (w / 2 ^ 10)) (.ofNat 7 (w / 2 ^ 3)) (.ofNat 3 (w / 2 ^ 0))) else
  if fld w 22 4 = 7 then .ok (.aor (.ofNat 1 (w / 2 ^ 21)) (.ofNat 7 (w / 2 ^ 14)) (.ofNat 4 (w / 2 ^ 10)) (.ofNat 7 (w / 2 ^ 3)) (.ofNat 3 (w / 2 ^ 0))) else
  if fld w 22 4 = 8 then .ok (.axor (.ofNat 1 (w / 2 ^ 21)) (.ofNat 7 (w / 2 ^ 14)) (.ofNat 4 (w / 2 ^ 10)) (.ofNat 7 (w / 2 ^ 3)) (.ofNat 3 (w / 2 ^ 0))) else
  if fld w 22 4 = 9 then .ok (.axch (.ofNat 1 (w / 2 ^ 21)) (.ofNat 7 (w / 2 ^ 14)) (.ofNat 4 (w / 2 ^ 10)) (.ofNat 7 (w / 2 ^ 3)) (.ofNat 3 (w / 2 ^ 0))) else
  if fld w 22 4 = 10 then .ok (.acas (.ofNat 1 (w / 2 ^ 21)) (.ofNat 7 (w / 2 ^ 14)) (.ofNat 4 (w / 2 ^ 10)) (.ofNat 7 (w / 2 ^ 3)) (.ofNat 3 (w / 2 ^ 0))) else
  if fld w 22 4 = 11 then .ok (.ainc (.ofNat 1 (w / 2 ^ 21)) (.ofNat 7 (w / 2 ^ 14)) (.ofNat 4 (w / 2 ^ 10)) (.ofNat 7 (w / 2 ^ 3)) (.ofNat 3 (w / 2 ^ 0))) else
  .error .unassignedMinor

/-- Class 0x17, HND (R71). -/
def decodeHnd (w : Nat) : Except DecodeError Instr :=
  if fld w 22 4 = 0 then (if fld w 15 3 = 0 then .ok (.hld (.ofNat 4 (w / 2 ^ 18)) (.ofNat 4 (w / 2 ^ 11)) (.ofNat 7 (w / 2 ^ 4)) (.ofNat 1 (w / 2 ^ 3)) (.ofNat 3 (w / 2 ^ 0))) else .error .reservedBits) else
  if fld w 22 4 = 1 then (if fld w 15 3 = 0 then .ok (.hset (.ofNat 4 (w / 2 ^ 18)) (.ofNat 4 (w / 2 ^ 11)) (.ofNat 7 (w / 2 ^ 4)) (.ofNat 1 (w / 2 ^ 3)) (.ofNat 3 (w / 2 ^ 0))) else .error .reservedBits) else
  if fld w 22 4 = 2 then (if fld w 8 3 = 0 then .ok (.hrd (.ofNat 4 (w / 2 ^ 18)) (.ofNat 7 (w / 2 ^ 11)) (.ofNat 4 (w / 2 ^ 4)) (.ofNat 1 (w / 2 ^ 3)) (.ofNat 3 (w / 2 ^ 0))) else .error .reservedBits) else
  if fld w 22 4 = 3 then (if fld w 8 3 = 0 ∧ fld w 15 3 = 0 then .ok (.hcpy (.ofNat 4 (w / 2 ^ 18)) (.ofNat 4 (w / 2 ^ 11)) (.ofNat 4 (w / 2 ^ 4)) (.ofNat 1 (w / 2 ^ 3)) (.ofNat 3 (w / 2 ^ 0))) else .error .reservedBits) else
  .error .unassignedMinor

/-- Class 0x18, FENCE (R71). -/
def decodeFence (w : Nat) : Except DecodeError Instr :=
  if fld w 22 4 = 0 then (if fld w 3 19 = 0 then .ok (.fenceAcq (.ofNat 3 (w / 2 ^ 0))) else .error .reservedBits) else
  if fld w 22 4 = 1 then (if fld w 3 19 = 0 then .ok (.fenceRel (.ofNat 3 (w / 2 ^ 0))) else .error .reservedBits) else
  if fld w 22 4 = 2 then (if fld w 3 19 = 0 then .ok (.fenceAr (.ofNat 3 (w / 2 ^ 0))) else .error .reservedBits) else
  if fld w 22 4 = 3 then (if fld w 3 19 = 0 then .ok (.fenceSc (.ofNat 3 (w / 2 ^ 0))) else .error .reservedBits) else
  if fld w 22 4 = 4 then (if fld w 14 8 = 0 then .ok (.cwb (.ofNat 4 (w / 2 ^ 10)) (.ofNat 7 (w / 2 ^ 3)) (.ofNat 3 (w / 2 ^ 0))) else .error .reservedBits) else
  if fld w 22 4 = 5 then (if fld w 14 8 = 0 then .ok (.cinv (.ofNat 4 (w / 2 ^ 10)) (.ofNat 7 (w / 2 ^ 3)) (.ofNat 3 (w / 2 ^ 0))) else .error .reservedBits) else
  if fld w 22 4 = 6 then (if fld w 14 8 = 0 then .ok (.pref (.ofNat 4 (w / 2 ^ 10)) (.ofNat 7 (w / 2 ^ 3)) (.ofNat 3 (w / 2 ^ 0))) else .error .reservedBits) else
  if fld w 22 4 = 7 then (if fld w 21 1 = 0 then .ok (.waitline (.ofNat 7 (w / 2 ^ 14)) (.ofNat 4 (w / 2 ^ 10)) (.ofNat 7 (w / 2 ^ 3)) (.ofNat 3 (w / 2 ^ 0))) else .error .reservedBits) else
  .error .unassignedMinor

/-- Class 0x19, CTRL (R71). -/
def decodeCtrl (w : Nat) : Except DecodeError Instr :=
  if fld w 22 4 = 0 then (if fld w 18 4 = 0 then .ok (.nx (.ofNat 18 (w / 2 ^ 0))) else .error .reservedBits) else
  if fld w 22 4 = 1 then .ok (.nxc (.ofNat 1 (w / 2 ^ 21)) (.ofNat 3 (w / 2 ^ 18)) (.ofNat 18 (w / 2 ^ 0))) else
  if fld w 22 4 = 2 then (if fld w 7 15 = 0 then .ok (.nxi (.ofNat 7 (w / 2 ^ 0))) else .error .reservedBits) else
  if fld w 22 4 = 3 then .ok (.call (.ofNat 4 (w / 2 ^ 18)) (.ofNat 18 (w / 2 ^ 0))) else
  if fld w 22 4 = 4 then (if fld w 7 11 = 0 then .ok (.calli (.ofNat 4 (w / 2 ^ 18)) (.ofNat 7 (w / 2 ^ 0))) else .error .reservedBits) else
  if fld w 22 4 = 5 then (if fld w 7 15 = 0 then .ok (.ret (.ofNat 7 (w / 2 ^ 0))) else .error .reservedBits) else
  if fld w 22 4 = 6 then (if fld w 0 22 = 0 then .ok .exit else .error .reservedBits) else
  if fld w 22 4 = 7 then (if fld w 0 22 = 0 then .ok .yield else .error .reservedBits) else
  if fld w 22 4 = 8 then (if fld w 18 4 = 0 then .ok (.refill (.ofNat 18 (w / 2 ^ 0))) else .error .reservedBits) else
  if fld w 22 4 = 9 then (if fld w 0 22 = 0 then .ok .region else .error .reservedBits) else
  if fld w 22 4 = 10 then (if fld w 8 14 = 0 then .ok (.trap (.ofNat 8 (w / 2 ^ 0))) else .error .reservedBits) else
  if fld w 22 4 = 11 then (if fld w 8 14 = 0 then .ok (.brk (.ofNat 8 (w / 2 ^ 0))) else .error .reservedBits) else
  .error .unassignedMinor

/-- Class 0x1A, GRP (R71). -/
def decodeGrp (w : Nat) : Except DecodeError Instr :=
  if fld w 22 4 = 0 then (if fld w 4 14 = 0 then .ok (.meet (.ofNat 4 (w / 2 ^ 18)) (.ofNat 1 (w / 2 ^ 3)) (.ofNat 3 (w / 2 ^ 0))) else .error .reservedBits) else
  if fld w 22 4 = 1 then (if fld w 7 4 = 0 ∧ fld w 14 4 = 0 then .ok (.gvoteAny (.ofNat 4 (w / 2 ^ 18)) (.ofNat 3 (w / 2 ^ 11)) (.ofNat 3 (w / 2 ^ 4)) (.ofNat 1 (w / 2 ^ 3)) (.ofNat 3 (w / 2 ^ 0))) else .error .reservedBits) else
  if fld w 22 4 = 2 then (if fld w 7 4 = 0 ∧ fld w 14 4 = 0 then .ok (.gvoteAll (.ofNat 4 (w / 2 ^ 18)) (.ofNat 3 (w / 2 ^ 11)) (.ofNat 3 (w / 2 ^ 4)) (.ofNat 1 (w / 2 ^ 3)) (.ofNat 3 (w / 2 ^ 0))) else .error .reservedBits) else
  if fld w 22 4 = 3 then (if fld w 7 4 = 0 ∧ fld w 14 4 = 0 then .ok (.gvoteBallot (.ofNat 4 (w / 2 ^ 18)) (.ofNat 3 (w / 2 ^ 11)) (.ofNat 3 (w / 2 ^ 4)) (.ofNat 1 (w / 2 ^ 3)) (.ofNat 3 (w / 2 ^ 0))) else .error .reservedBits) else
  if fld w 22 4 = 4 then (if fld w 15 3 = 0 then .ok (.gbcast (.ofNat 4 (w / 2 ^ 18)) (.ofNat 4 (w / 2 ^ 11)) (.ofNat 7 (w / 2 ^ 4)) (.ofNat 1 (w / 2 ^ 3)) (.ofNat 3 (w / 2 ^ 0))) else .error .reservedBits) else
  if fld w 22 4 = 5 then (if fld w 4 7 = 0 ∧ fld w 14 4 = 0 then .ok (.gelect (.ofNat 4 (w / 2 ^ 18)) (.ofNat 3 (w / 2 ^ 11)) (.ofNat 1 (w / 2 ^ 3)) (.ofNat 3 (w / 2 ^ 0))) else .error .reservedBits) else
  if fld w 22 4 = 6 then (if fld w 7 4 = 0 ∧ fld w 14 4 = 0 then .ok (.fencew (.ofNat 4 (w / 2 ^ 18)) (.ofNat 3 (w / 2 ^ 11)) (.ofNat 3 (w / 2 ^ 4)) (.ofNat 1 (w / 2 ^ 3)) (.ofNat 3 (w / 2 ^ 0))) else .error .reservedBits) else
  if fld w 22 4 = 7 then .ok (.gred (.ofNat 4 (w / 2 ^ 18)) (.ofNat 7 (w / 2 ^ 11)) (.ofNat 7 (w / 2 ^ 4)) (.ofNat 4 (w / 2 ^ 0))) else
  if fld w 22 4 = 8 then .ok (.gscan (.ofNat 4 (w / 2 ^ 18)) (.ofNat 7 (w / 2 ^ 11)) (.ofNat 7 (w / 2 ^ 4)) (.ofNat 4 (w / 2 ^ 0))) else
  .error .unassignedMinor

/-- Class 0x1B, XLANE (R71). -/
def decodeXlane (w : Nat) : Except DecodeError Instr :=
  if fld w 24 2 = 0 then .ok (.shflIdx (.ofNat 3 (w / 2 ^ 21)) (.ofNat 7 (w / 2 ^ 14)) (.ofNat 7 (w / 2 ^ 7)) (.ofNat 7 (w / 2 ^ 0))) else
  if fld w 24 2 = 1 then (if fld w 6 1 = 0 then .ok (.shflUp (.ofNat 3 (w / 2 ^ 21)) (.ofNat 7 (w / 2 ^ 14)) (.ofNat 7 (w / 2 ^ 7)) (.ofNat 6 (w / 2 ^ 0))) else .error .reservedBits) else
  if fld w 24 2 = 2 then (if fld w 6 1 = 0 then .ok (.shflDn (.ofNat 3 (w / 2 ^ 21)) (.ofNat 7 (w / 2 ^ 14)) (.ofNat 7 (w / 2 ^ 7)) (.ofNat 6 (w / 2 ^ 0))) else .error .reservedBits) else
  if fld w 24 2 = 3 then (if fld w 6 1 = 0 then .ok (.shflXor (.ofNat 3 (w / 2 ^ 21)) (.ofNat 7 (w / 2 ^ 14)) (.ofNat 7 (w / 2 ^ 7)) (.ofNat 6 (w / 2 ^ 0))) else .error .reservedBits) else
  .error .unassignedMinor

/-- Class 0x1C, CDET (R71). -/
def decodeCdet (w : Nat) : Except DecodeError Instr :=
  if fld w 22 4 = 0 then .ok (.cdet (.ofNat 4 (w / 2 ^ 18)) (.ofNat 7 (w / 2 ^ 11)) (.ofNat 7 (w / 2 ^ 4)) (.ofNat 1 (w / 2 ^ 3)) (.ofNat 3 (w / 2 ^ 0))) else
  if fld w 22 4 = 1 then .ok (.gcombF32 (.ofNat 4 (w / 2 ^ 18)) (.ofNat 7 (w / 2 ^ 11)) (.ofNat 7 (w / 2 ^ 4)) (.ofNat 1 (w / 2 ^ 3)) (.ofNat 3 (w / 2 ^ 0))) else
  if fld w 22 4 = 2 then .ok (.gcombS32 (.ofNat 4 (w / 2 ^ 18)) (.ofNat 7 (w / 2 ^ 11)) (.ofNat 7 (w / 2 ^ 4)) (.ofNat 1 (w / 2 ^ 3)) (.ofNat 3 (w / 2 ^ 0))) else
  .error .unassignedMinor

/-- Class 0x1D, WA (R71). -/
def decodeWa (w : Nat) : Except DecodeError Instr :=
  if fld w 22 4 = 0 then (if fld w 0 3 = 0 ∧ fld w 14 8 = 0 then .ok (.wacfg (.ofNat 4 (w / 2 ^ 10)) (.ofNat 7 (w / 2 ^ 3))) else .error .reservedBits) else
  if fld w 22 4 = 1 then (if fld w 0 3 = 0 ∧ fld w 14 8 = 0 then .ok (.wapush (.ofNat 4 (w / 2 ^ 10)) (.ofNat 7 (w / 2 ^ 3))) else .error .reservedBits) else
  if fld w 22 4 = 2 then (if fld w 0 10 = 0 ∧ fld w 21 1 = 0 then .ok (.ward (.ofNat 7 (w / 2 ^ 14)) (.ofNat 4 (w / 2 ^ 10))) else .error .reservedBits) else
  if fld w 22 4 = 3 then (if fld w 0 3 = 0 ∧ fld w 21 1 = 0 then .ok (.wapr (.ofNat 7 (w / 2 ^ 14)) (.ofNat 4 (w / 2 ^ 10)) (.ofNat 7 (w / 2 ^ 3))) else .error .reservedBits) else
  if fld w 22 4 = 4 then (if fld w 0 10 = 0 ∧ fld w 14 8 = 0 then .ok (.waclr (.ofNat 4 (w / 2 ^ 10))) else .error .reservedBits) else
  if fld w 22 4 = 5 then (if fld w 0 3 = 0 ∧ fld w 21 1 = 0 then .ok (.wastat (.ofNat 7 (w / 2 ^ 14)) (.ofNat 4 (w / 2 ^ 10)) (.ofNat 7 (w / 2 ^ 3))) else .error .reservedBits) else
  if fld w 22 4 = 6 then (if fld w 0 3 = 0 ∧ fld w 18 4 = 0 then .ok (.wasave (.ofNat 4 (w / 2 ^ 14)) (.ofNat 4 (w / 2 ^ 10)) (.ofNat 7 (w / 2 ^ 3))) else .error .reservedBits) else
  if fld w 22 4 = 7 then (if fld w 0 3 = 0 ∧ fld w 18 4 = 0 then .ok (.waload (.ofNat 4 (w / 2 ^ 14)) (.ofNat 4 (w / 2 ^ 10)) (.ofNat 7 (w / 2 ^ 3))) else .error .reservedBits) else
  .error .unassignedMinor

/-- Class 0x1E, MX (R71). -/
def decodeMx (w : Nat) : Except DecodeError Instr :=
  if fld w 22 4 = 0 then (if fld w 0 2 = 0 then .ok (.mxmmaBf16 (.ofNat 1 (w / 2 ^ 21)) (.ofNat 4 (w / 2 ^ 17)) (.ofNat 4 (w / 2 ^ 13)) (.ofNat 4 (w / 2 ^ 9)) (.ofNat 7 (w / 2 ^ 2))) else .error .reservedBits) else
  if fld w 22 4 = 1 then (if fld w 0 2 = 0 then .ok (.mxmmaF16 (.ofNat 1 (w / 2 ^ 21)) (.ofNat 4 (w / 2 ^ 17)) (.ofNat 4 (w / 2 ^ 13)) (.ofNat 4 (w / 2 ^ 9)) (.ofNat 7 (w / 2 ^ 2))) else .error .reservedBits) else
  if fld w 22 4 = 2 then (if fld w 0 2 = 0 then .ok (.mxmmaE4m3 (.ofNat 1 (w / 2 ^ 21)) (.ofNat 4 (w / 2 ^ 17)) (.ofNat 4 (w / 2 ^ 13)) (.ofNat 4 (w / 2 ^ 9)) (.ofNat 7 (w / 2 ^ 2))) else .error .reservedBits) else
  if fld w 22 4 = 3 then (if fld w 0 2 = 0 then .ok (.mxmmaE5m2 (.ofNat 1 (w / 2 ^ 21)) (.ofNat 4 (w / 2 ^ 17)) (.ofNat 4 (w / 2 ^ 13)) (.ofNat 4 (w / 2 ^ 9)) (.ofNat 7 (w / 2 ^ 2))) else .error .reservedBits) else
  if fld w 22 4 = 4 then (if fld w 0 2 = 0 then .ok (.mxmmaS8 (.ofNat 1 (w / 2 ^ 21)) (.ofNat 4 (w / 2 ^ 17)) (.ofNat 4 (w / 2 ^ 13)) (.ofNat 4 (w / 2 ^ 9)) (.ofNat 7 (w / 2 ^ 2))) else .error .reservedBits) else
  if fld w 22 4 = 5 then (if fld w 0 2 = 0 then .ok (.mxmmaNq4 (.ofNat 1 (w / 2 ^ 21)) (.ofNat 4 (w / 2 ^ 17)) (.ofNat 4 (w / 2 ^ 13)) (.ofNat 4 (w / 2 ^ 9)) (.ofNat 7 (w / 2 ^ 2))) else .error .reservedBits) else
  if fld w 22 4 = 6 then (if fld w 0 17 = 0 ∧ fld w 21 1 = 0 then .ok (.mxz (.ofNat 4 (w / 2 ^ 17))) else .error .reservedBits) else
  if fld w 22 4 = 7 then (if fld w 0 2 = 0 ∧ fld w 9 4 = 0 ∧ fld w 21 1 = 0 then .ok (.mxst (.ofNat 4 (w / 2 ^ 17)) (.ofNat 4 (w / 2 ^ 13)) (.ofNat 7 (w / 2 ^ 2))) else .error .reservedBits) else
  if fld w 22 4 = 8 then (if fld w 0 2 = 0 ∧ fld w 16 1 = 0 ∧ fld w 21 1 = 0 then .ok (.mxrd (.ofNat 4 (w / 2 ^ 17)) (.ofNat 7 (w / 2 ^ 9)) (.ofNat 7 (w / 2 ^ 2))) else .error .reservedBits) else
  if fld w 22 4 = 9 then (if fld w 0 2 = 0 ∧ fld w 9 8 = 0 ∧ fld w 21 1 = 0 then .ok (.mxwr (.ofNat 4 (w / 2 ^ 17)) (.ofNat 7 (w / 2 ^ 2))) else .error .reservedBits) else
  if fld w 22 4 = 10 then (if fld w 0 22 = 0 then .ok .mxcommit else .error .reservedBits) else
  if fld w 22 4 = 11 then (if fld w 0 2 = 0 ∧ fld w 9 13 = 0 then .ok (.mxwait (.ofNat 7 (w / 2 ^ 2))) else .error .reservedBits) else
  if fld w 22 4 = 12 then (if fld w 0 2 = 0 ∧ fld w 16 6 = 0 then .ok (.mxstat (.ofNat 7 (w / 2 ^ 9)) (.ofNat 7 (w / 2 ^ 2))) else .error .reservedBits) else
  .error .unassignedMinor

/-- Class 0x1F, CPE (R71). -/
def decodeCpe (w : Nat) : Except DecodeError Instr :=
  if fld w 22 4 = 0 then .ok (.cpy (.ofNat 6 (w / 2 ^ 16)) (.ofNat 4 (w / 2 ^ 12)) (.ofNat 4 (w / 2 ^ 8)) (.ofNat 7 (w / 2 ^ 1)) (.ofNat 1 (w / 2 ^ 0))) else
  if fld w 22 4 = 1 then .ok (.tcpy (.ofNat 6 (w / 2 ^ 16)) (.ofNat 4 (w / 2 ^ 12)) (.ofNat 4 (w / 2 ^ 8)) (.ofNat 7 (w / 2 ^ 1)) (.ofNat 1 (w / 2 ^ 0))) else
  if fld w 22 4 = 2 then .ok (.chain (.ofNat 6 (w / 2 ^ 16)) (.ofNat 4 (w / 2 ^ 12)) (.ofNat 4 (w / 2 ^ 8)) (.ofNat 7 (w / 2 ^ 1)) (.ofNat 1 (w / 2 ^ 0))) else
  if fld w 22 4 = 3 then (if fld w 0 1 = 0 ∧ fld w 8 8 = 0 then .ok (.tagarm (.ofNat 6 (w / 2 ^ 16)) (.ofNat 7 (w / 2 ^ 1))) else .error .reservedBits) else
  if fld w 22 4 = 4 then (if fld w 0 1 = 0 ∧ fld w 8 14 = 0 then .ok (.tagwaitAny (.ofNat 7 (w / 2 ^ 1))) else .error .reservedBits) else
  if fld w 22 4 = 5 then (if fld w 0 1 = 0 ∧ fld w 8 14 = 0 then .ok (.tagwaitAll (.ofNat 7 (w / 2 ^ 1))) else .error .reservedBits) else
  if fld w 22 4 = 6 then (if fld w 0 1 = 0 ∧ fld w 8 14 = 0 then .ok (.tagff (.ofNat 7 (w / 2 ^ 1))) else .error .reservedBits) else
  if fld w 22 4 = 7 then (if fld w 0 1 = 0 ∧ fld w 8 14 = 0 then .ok (.tagclr (.ofNat 7 (w / 2 ^ 1))) else .error .reservedBits) else
  if fld w 22 4 = 8 then (if fld w 0 1 = 0 ∧ fld w 8 8 = 0 then .ok (.tagrd (.ofNat 6 (w / 2 ^ 16)) (.ofNat 7 (w / 2 ^ 1))) else .error .reservedBits) else
  .error .unassignedMinor

/-- Class 0x20, TEAM (R71). -/
def decodeTeam (w : Nat) : Except DecodeError Instr :=
  if fld w 22 4 = 0 then (if fld w 3 19 = 0 then .ok (.tbar (.ofNat 3 (w / 2 ^ 0))) else .error .reservedBits) else
  if fld w 22 4 = 1 then (if fld w 3 11 = 0 ∧ fld w 21 1 = 0 then .ok (.tbara (.ofNat 7 (w / 2 ^ 14)) (.ofNat 3 (w / 2 ^ 0))) else .error .reservedBits) else
  if fld w 22 4 = 2 then (if fld w 3 4 = 0 ∧ fld w 14 8 = 0 then .ok (.tbarw (.ofNat 7 (w / 2 ^ 7)) (.ofNat 3 (w / 2 ^ 0))) else .error .reservedBits) else
  if fld w 22 4 = 3 then (if fld w 4 3 = 0 ∧ fld w 21 1 = 0 then .ok (.launch (.ofNat 7 (w / 2 ^ 14)) (.ofNat 7 (w / 2 ^ 7)) (.ofNat 4 (w / 2 ^ 0))) else .error .reservedBits) else
  if fld w 22 4 = 4 then (if fld w 0 7 = 0 ∧ fld w 21 1 = 0 then .ok (.gwait (.ofNat 7 (w / 2 ^ 14)) (.ofNat 7 (w / 2 ^ 7))) else .error .reservedBits) else
  if fld w 22 4 = 5 then (if fld w 4 3 = 0 ∧ fld w 21 1 = 0 then .ok (.taskpush (.ofNat 7 (w / 2 ^ 14)) (.ofNat 7 (w / 2 ^ 7)) (.ofNat 4 (w / 2 ^ 0))) else .error .reservedBits) else
  if fld w 22 4 = 6 then (if fld w 7 7 = 0 ∧ fld w 21 1 = 0 then .ok (.rgrow (.ofNat 7 (w / 2 ^ 14)) (.ofNat 7 (w / 2 ^ 0))) else .error .reservedBits) else
  if fld w 22 4 = 7 then (if fld w 7 15 = 0 then .ok (.rshrink (.ofNat 7 (w / 2 ^ 0))) else .error .reservedBits) else
  if fld w 22 4 = 8 then (if fld w 0 22 = 0 then .ok .commit else .error .reservedBits) else
  .error .unassignedMinor

/-- Class 0x21, SYS (R71). -/
def decodeSys (w : Nat) : Except DecodeError Instr :=
  if fld w 22 4 = 0 then (if fld w 21 1 = 0 then .ok (.rds (.ofNat 7 (w / 2 ^ 14)) (.ofNat 14 (w / 2 ^ 0))) else .error .reservedBits) else
  if fld w 22 4 = 1 then (if fld w 21 1 = 0 then .ok (.wrs (.ofNat 7 (w / 2 ^ 14)) (.ofNat 14 (w / 2 ^ 0))) else .error .reservedBits) else
  if fld w 22 4 = 2 then (if fld w 14 8 = 0 then .ok (.tlbinv (.ofNat 7 (w / 2 ^ 7)) (.ofNat 7 (w / 2 ^ 0))) else .error .reservedBits) else
  if fld w 22 4 = 3 then (if fld w 0 7 = 0 ∧ fld w 21 1 = 0 then .ok (.unpark (.ofNat 7 (w / 2 ^ 14)) (.ofNat 7 (w / 2 ^ 7))) else .error .reservedBits) else
  if fld w 22 4 = 4 then (if fld w 0 7 = 0 ∧ fld w 21 1 = 0 then .ok (.swapctx (.ofNat 7 (w / 2 ^ 14)) (.ofNat 7 (w / 2 ^ 7))) else .error .reservedBits) else
  if fld w 22 4 = 5 then (if fld w 21 1 = 0 then .ok (.ctxsave (.ofNat 7 (w / 2 ^ 14)) (.ofNat 7 (w / 2 ^ 7)) (.ofNat 7 (w / 2 ^ 0))) else .error .reservedBits) else
  if fld w 22 4 = 6 then (if fld w 21 1 = 0 then .ok (.ctxload (.ofNat 7 (w / 2 ^ 14)) (.ofNat 7 (w / 2 ^ 7)) (.ofNat 7 (w / 2 ^ 0))) else .error .reservedBits) else
  if fld w 0 1 = 0 ∧ fld w 22 4 = 7 then (if fld w 1 21 = 0 then .ok .trapret else .error .reservedBits) else
  if fld w 0 1 = 1 ∧ fld w 22 4 = 7 then (if fld w 1 21 = 0 then .ok .trapretSkip else .error .reservedBits) else
  if fld w 22 4 = 8 then (if fld w 0 22 = 0 then .ok .halt else .error .reservedBits) else
  if fld w 22 4 = 9 then (if fld w 0 22 = 0 then .ok .sleep else .error .reservedBits) else
  if fld w 22 4 = 10 then (if fld w 21 1 = 0 then .ok (.lmapw (.ofNat 7 (w / 2 ^ 14)) (.ofNat 7 (w / 2 ^ 7)) (.ofNat 7 (w / 2 ^ 0))) else .error .reservedBits) else
  .error .unassignedMinor

/-- The instruction that a 32-bit word stands for, by its class field (R54, R71). -/
def decodeWord (w : Nat) : Except DecodeError Instr :=
  match fld w 26 6 with
  | 0 => decodeHint w
  | 1 => decodeIalu w
  | 2 => decodeIalui w
  | 3 => decodeShift w
  | 4 => decodeImul w
  | 5 => decodeIdiv w
  | 6 => decodeIcmp w
  | 7 => decodeMove w
  | 8 => decodePred w
  | 9 => decodeAddr w
  | 10 => decodeFadd w
  | 11 => decodeFmul w
  | 12 => decodeFfma w
  | 13 => decodeFcmp w
  | 14 => decodeFmisc w
  | 15 => decodeSfu w
  | 16 => decodeCvt w
  | 17 => decodePk16 w
  | 18 => decodeDot w
  | 19 => decodeNq w
  | 20 => decodeLd w
  | 21 => decodeSt w
  | 22 => decodeAtom w
  | 23 => decodeHnd w
  | 24 => decodeFence w
  | 25 => decodeCtrl w
  | 26 => decodeGrp w
  | 27 => decodeXlane w
  | 28 => decodeCdet w
  | 29 => decodeWa w
  | 30 => decodeMx w
  | 31 => decodeCpe w
  | 32 => decodeTeam w
  | 33 => decodeSys w
  | _ => .error .unassignedClass

/-! ### Bundles -/

/-- What one word of class 0x00 is to a bundle (R64): HX, HM, HC, or an instruction word. -/
inductive HintWord where
  | hx (payload : BitVec 25)
  | hm (m : Option Modifier)
  | hc (policy : Option (BitVec 3))
  | none
  deriving DecidableEq, Repr

/-- The payload of HM: kind in [21:20]; a kind 3, a bit the kind does not name or a reserved order code gives `none`. -/
def hmPayload (w : Nat) : Option Modifier :=
  match fld w 20 2 with
  | 0 => if fld w 3 17 = 0 then some (.arith (.ofNat 2 w) (fld w 2 1 = 1)) else none
  | 1 => if fld w 3 17 = 0 ∧ fld w 0 3 ≤ 4 then some (.order (.ofNat 3 w)) else none
  | 2 => if fld w 5 15 = 0 then some (.quiet (.ofNat 5 w)) else none
  | _ => none

/-- The hint that a word is (R64). -/
def hintWord (w : Nat) : HintWord :=
  if fld w 26 6 ≠ 0 then .none
  else if fld w 25 1 = 1 then .hx (.ofNat 25 w)
  else match fld w 22 3 with
    | 1 => .hc (if fld w 3 19 = 0 ∧ fld w 0 3 ≤ 4 then some (.ofNat 3 w) else Option.none)
    | 2 => .hm (hmPayload (fld w 0 22))
    | _ => .none

/-- A word is a hint prefix when it is HX, HM or HC; any other word is an instruction word (R69). -/
def isPrefix (w : Nat) : Bool := hintWord w ≠ .none

/-- A bundle as read from its words: how many words it has, where its instruction word stands, and either the
instruction with its hints or the index of the word that offends (R69). -/
structure Bundle where
  length : Nat
  result : Except Nat (Instr × Hints)

/-- The first offending hint of a prefix list, and the hints read up to it (R69): at most one HM or HC, then at most
one HX; a reserved payload offends where it stands. -/
def readHints : List Nat → Nat → Hints → Option Nat × Hints
  | [], _, h => (none, h)
  | w :: ws, k, h =>
    match hintWord w with
    | .hx p => if h.hx.isSome then (some k, h) else readHints ws (k + 1) { h with hx := some p }
    | .hm (some m) =>
      if h.hx.isSome || h.hm.isSome || h.hc.isSome then (some k, h) else readHints ws (k + 1) { h with hm := some m }
    | .hc (some c) =>
      if h.hx.isSome || h.hm.isSome || h.hc.isSome then (some k, h) else readHints ws (k + 1) { h with hc := some c }
    | .hm none | .hc none | .none => (some k, h)

/-- Whether an instruction accepts the hints in front of it; the index of the first hint word it rejects (R66 to R69).
HS accepts none. -/
def rejectedHint (i : Instr) (h : Hints) : Option Nat :=
  let front : Nat := if h.hm.isSome || h.hc.isSome then 1 else 0
  let badHM : Bool := match h.hm with | some m => !i.takesHM m | none => false
  if badHM || (h.hc.isSome && !i.takesHC) then some 0
  else if h.hx.isSome ∧ !i.takesHX then some front
  else none

/-- Whether a class of instructions has one that accepts HX, HC or an HM of a kind (R66 to R68). It decides for a word that
is no instruction, whose class alone can be read (log 20). -/
def classTakesHX (w : Nat) : Bool :=
  match fld w 26 6 with
  | 2 => true
  | 6 => fld w 21 1 = 1
  | 7 => fld w 22 4 = 1
  | 25 => [0, 1, 3, 8].contains (fld w 22 4)
  | _ => false

def classTakesHC (w : Nat) : Bool := [20, 21, 22, 24, 31].contains (fld w 26 6)

def classTakesHM (w : Nat) : Modifier → Bool
  | .order _ => fld w 26 6 = 22
  | .quiet _ => [10, 11, 12, 13, 14, 15, 16, 17, 18, 19, 26, 28].contains (fld w 26 6)
  | .arith .. => [10, 11, 12, 14, 16, 17, 18, 19].contains (fld w 26 6)

/-- The first of the hints `h`, which stand at the front of a bundle, that the word behind them rejects: where `w` is an
instruction, by the instruction (R66 to R69), and else by its class (log 20). -/
def rejectedBy (w : Nat) (h : Hints) : Option Nat :=
  match decodeWord w with
  | .ok i => rejectedHint i h
  | .error _ =>
    let badHM : Bool := match h.hm with | some m => !classTakesHM w m | none => false
    if badHM || (h.hc.isSome && !classTakesHC w) then some 0
    else if h.hx.isSome && !classTakesHX w then some (if h.hm.isSome || h.hc.isSome then 1 else 0)
    else none

/-- The bundle that a list of prefix words and its instruction word form. The list is complete: `pre` holds every
prefix word that stands before the instruction word `w`. The first word that offends, in bundle order, is a hint that the
instruction word rejects, the hint that breaks the order, or the instruction word (R69). -/
def bundleOf (pre : List Nat) (w : Nat) : Bundle :=
  let n := pre.length
  let read := readHints pre 0 {}
  match rejectedBy w read.2, read.1 with
  | some k, _ => ⟨n + 1, .error k⟩
  | none, some k => ⟨n + 1, .error k⟩
  | none, none =>
    match decodeWord w with
    | .error _ => ⟨n + 1, .error n⟩
    | .ok i =>
      if i.wf && (read.2.hx.isNone || i.highImmediateZero) then ⟨n + 1, .ok (i, read.2)⟩ else ⟨n + 1, .error n⟩

/-- Reads a bundle from words in memory order: `none` when the words end before an instruction word. -/
def readBundle : List Nat → List Nat → Option Bundle
  | [], _ => none
  | w :: ws, pre => if isPrefix w then readBundle ws (pre ++ [w]) else some (bundleOf pre w)

/-- The instruction that this decoder reads from an instruction of `nbits` bits whose value is `w`. Every instruction
is one 32-bit word (R54), stored with its lowest byte at the lowest address, so the bits are already in place; a hint
word is no instruction. -/
def decodeTableWord (nbits w : Nat) : Option Instr :=
  if nbits = 32 then
    match decodeWord (w % 2 ^ 32) with
    | .ok i => some i
    | .error _ => none
  else none

/-- A word with field `x` placed at bit `lo`. -/
def put (w lo : Nat) {n : Nat} (x : BitVec n) : Nat := w + x.toNat * 2 ^ lo

/-- The word of an instruction, from the encoding tables (R58, R71); an event has none. -/
def encode : Instr → Option Nat
  | .hs n => some (put 0x00000000 0 n)
  | .add t d a b => some (put (put (put (put 0x04000000 21 t) 14 d) 7 a) 0 b)
  | .sub t d a b => some (put (put (put (put 0x04400000 21 t) 14 d) 7 a) 0 b)
  | .and t d a b => some (put (put (put (put 0x04800000 21 t) 14 d) 7 a) 0 b)
  | .or t d a b => some (put (put (put (put 0x04C00000 21 t) 14 d) 7 a) 0 b)
  | .xor t d a b => some (put (put (put (put 0x05000000 21 t) 14 d) 7 a) 0 b)
  | .andn t d a b => some (put (put (put (put 0x05400000 21 t) 14 d) 7 a) 0 b)
  | .min t d a b => some (put (put (put (put 0x05800000 21 t) 14 d) 7 a) 0 b)
  | .max t d a b => some (put (put (put (put 0x05C00000 21 t) 14 d) 7 a) 0 b)
  | .minb t d a b => some (put (put (put (put 0x06000000 21 t) 14 d) 7 a) 0 b)
  | .maxb t d a b => some (put (put (put (put 0x06400000 21 t) 14 d) 7 a) 0 b)
  | .abs t d a => some (put (put (put 0x06800000 21 t) 14 d) 7 a)
  | .addc t d a b => some (put (put (put (put 0x06C00000 21 t) 14 d) 7 a) 0 b)
  | .subb t d a b => some (put (put (put (put 0x07000000 21 t) 14 d) 7 a) 0 b)
  | .adds t d a b => some (put (put (put (put 0x07400000 21 t) 14 d) 7 a) 0 b)
  | .subs t d a b => some (put (put (put (put 0x07800000 21 t) 14 d) 7 a) 0 b)
  | .neg t d a => some (put (put (put 0x07C00000 21 t) 14 d) 7 a)
  | .addImm t d a i => some (put (put (put (put 0x08000000 21 t) 14 d) 7 a) 0 i)
  | .subImm t d a i => some (put (put (put (put 0x08400000 21 t) 14 d) 7 a) 0 i)
  | .andImm t d a i => some (put (put (put (put 0x08800000 21 t) 14 d) 7 a) 0 i)
  | .orImm t d a i => some (put (put (put (put 0x08C00000 21 t) 14 d) 7 a) 0 i)
  | .xorImm t d a i => some (put (put (put (put 0x09000000 21 t) 14 d) 7 a) 0 i)
  | .andnImm t d a i => some (put (put (put (put 0x09400000 21 t) 14 d) 7 a) 0 i)
  | .minImm t d a i => some (put (put (put (put 0x09800000 21 t) 14 d) 7 a) 0 i)
  | .maxImm t d a i => some (put (put (put (put 0x09C00000 21 t) 14 d) 7 a) 0 i)
  | .minbImm t d a i => some (put (put (put (put 0x0A000000 21 t) 14 d) 7 a) 0 i)
  | .maxbImm t d a i => some (put (put (put (put 0x0A400000 21 t) 14 d) 7 a) 0 i)
  | .addcImm t d a i => some (put (put (put (put 0x0AC00000 21 t) 14 d) 7 a) 0 i)
  | .subbImm t d a i => some (put (put (put (put 0x0B000000 21 t) 14 d) 7 a) 0 i)
  | .addsImm t d a i => some (put (put (put (put 0x0B400000 21 t) 14 d) 7 a) 0 i)
  | .subsImm t d a i => some (put (put (put (put 0x0B800000 21 t) 14 d) 7 a) 0 i)
  | .shl t d a b => some (put (put (put (put 0x0C000000 21 t) 14 d) 7 a) 0 b)
  | .shr t d a b => some (put (put (put (put 0x0C400000 21 t) 14 d) 7 a) 0 b)
  | .sar t d a b => some (put (put (put (put 0x0C800000 21 t) 14 d) 7 a) 0 b)
  | .rol t d a b => some (put (put (put (put 0x0CC00000 21 t) 14 d) 7 a) 0 b)
  | .bfx t d a b => some (put (put (put (put 0x0D000000 21 t) 14 d) 7 a) 0 b)
  | .bfxb t d a b => some (put (put (put (put 0x0D400000 21 t) 14 d) 7 a) 0 b)
  | .bfi t d a b => some (put (put (put (put 0x0D800000 21 t) 14 d) 7 a) 0 b)
  | .clz t d a => some (put (put (put 0x0DC00000 21 t) 14 d) 7 a)
  | .popc t d a => some (put (put (put 0x0E000000 21 t) 14 d) 7 a)
  | .brev t d a => some (put (put (put 0x0E400000 21 t) 14 d) 7 a)
  | .prmt t d a b => some (put (put (put (put 0x0E800000 21 t) 14 d) 7 a) 0 b)
  | .fshf t d a b => some (put (put (put (put 0x0EC00000 21 t) 14 d) 7 a) 0 b)
  | .mul t d a b => some (put (put (put (put 0x10000000 21 t) 14 d) 7 a) 0 b)
  | .mulhi t d a b => some (put (put (put (put 0x10400000 21 t) 14 d) 7 a) 0 b)
  | .mulhib t d a b => some (put (put (put (put 0x10800000 21 t) 14 d) 7 a) 0 b)
  | .mad t d a b => some (put (put (put (put 0x10C00000 21 t) 14 d) 7 a) 0 b)
  | .madhi t d a b => some (put (put (put (put 0x11000000 21 t) 14 d) 7 a) 0 b)
  | .madhib t d a b => some (put (put (put (put 0x11400000 21 t) 14 d) 7 a) 0 b)
  | .div d a b => some (put (put (put 0x14000000 14 d) 7 a) 0 b)
  | .divb d a b => some (put (put (put 0x14400000 14 d) 7 a) 0 b)
  | .rem d a b => some (put (put (put 0x14800000 14 d) 7 a) 0 b)
  | .remb d a b => some (put (put (put 0x14C00000 14 d) 7 a) 0 b)
  | .cmp c p a b => some (put (put (put (put 0x18000000 22 c) 14 p) 7 a) 0 b)
  | .cmpi c p a i => some (put (put (put (put 0x18200000 22 c) 14 p) 7 a) 0 i)
  | .mov t d a => some (put (put (put 0x1C000000 21 t) 14 d) 7 a)
  | .movi t d i => some (put (put (put 0x1C400000 21 t) 14 d) 0 i)
  | .rdsr t d n => some (put (put (put 0x1C800000 21 t) 14 d) 0 n)
  | .rdw t d n => some (put (put (put 0x1CC00000 21 t) 14 d) 7 n)
  | .rdk t d n => some (put (put (put 0x1D000000 21 t) 14 d) 7 n)
  | .movToFstat a => some (put 0x1D400000 7 a)
  | .movFromFstat t d => some (put (put 0x1D800000 21 t) 14 d)
  | .sel n t d a b => some (put (put (put (put (put 0x1E000000 22 n) 21 t) 14 d) 7 a) 0 b)
  | .pand d a b => some (put (put (put 0x20000000 14 d) 7 a) 0 b)
  | .por d a b => some (put (put (put 0x20400000 14 d) 7 a) 0 b)
  | .pxor d a b => some (put (put (put 0x20800000 14 d) 7 a) 0 b)
  | .pnot d a => some (put (put 0x20C00000 14 d) 7 a)
  | .pset d a => some (put (put 0x21000000 14 d) 7 a)
  | .pmov d a => some (put (put 0x21400000 14 d) 7 a)
  | .lea t d a h => some (put (put (put (put 0x24000000 21 t) 14 d) 7 a) 0 h)
  | .add64 t d a b => some (put (put (put (put 0x24400000 21 t) 14 d) 7 a) 0 b)
  | .sub64 t d a b => some (put (put (put (put 0x24800000 21 t) 14 d) 7 a) 0 b)
  | .shl64 t d a b => some (put (put (put (put 0x24C00000 21 t) 14 d) 7 a) 0 b)
  | .mulw t d a b => some (put (put (put (put 0x25000000 21 t) 14 d) 7 a) 0 b)
  | .cmp64 c p a b => some (put (put (put (put 0x25400000 17 c) 14 p) 7 a) 0 b)
  | .fadd t d a b => some (put (put (put (put 0x28000000 21 t) 14 d) 7 a) 0 b)
  | .fsub t d a b => some (put (put (put (put 0x28400000 21 t) 14 d) 7 a) 0 b)
  | .fmin t d a b => some (put (put (put (put 0x28800000 21 t) 14 d) 7 a) 0 b)
  | .fmax t d a b => some (put (put (put (put 0x28C00000 21 t) 14 d) 7 a) 0 b)
  | .fmul t d a b => some (put (put (put (put 0x2C000000 21 t) 14 d) 7 a) 0 b)
  | .fscale t d a b => some (put (put (put (put 0x2C400000 21 t) 14 d) 7 a) 0 b)
  | .ffma t d a b => some (put (put (put (put 0x30000000 21 t) 14 d) 7 a) 0 b)
  | .ffms t d a b => some (put (put (put (put 0x30400000 21 t) 14 d) 7 a) 0 b)
  | .fnma t d a b => some (put (put (put (put 0x30800000 21 t) 14 d) 7 a) 0 b)
  | .fnms t d a b => some (put (put (put (put 0x30C00000 21 t) 14 d) 7 a) 0 b)
  | .fcmp c p a b => some (put (put (put (put 0x34000000 22 c) 14 p) 7 a) 0 b)
  | .fclass t d a => some (put (put (put 0x36000000 21 t) 14 d) 7 a)
  | .frnd t d a => some (put (put (put 0x38000000 21 t) 14 d) 7 a)
  | .fcpys t d a b => some (put (put (put (put 0x38400000 21 t) 14 d) 7 a) 0 b)
  | .fabs t d a => some (put (put (put 0x38800000 21 t) 14 d) 7 a)
  | .fneg t d a => some (put (put (put 0x38C00000 21 t) 14 d) 7 a)
  | .ffrac t d a => some (put (put (put 0x39000000 21 t) 14 d) 7 a)
  | .frcp d a => some (put (put 0x3C000000 14 d) 7 a)
  | .frsq d a => some (put (put 0x3C400000 14 d) 7 a)
  | .fsqrt d a => some (put (put 0x3C800000 14 d) 7 a)
  | .fdiv d a b => some (put (put (put 0x3CC00000 14 d) 7 a) 0 b)
  | .fexp2 d a => some (put (put 0x3D000000 14 d) 7 a)
  | .flog2 d a => some (put (put 0x3D400000 14 d) 7 a)
  | .fsinp d a => some (put (put 0x3D800000 14 d) 7 a)
  | .fcosp d a => some (put (put 0x3DC00000 14 d) 7 a)
  | .ftanh d a => some (put (put 0x3E000000 14 d) 7 a)
  | .f2f d a y x => some (put (put (put (put 0x40000000 14 d) 7 a) 3 y) 0 x)
  | .f2i d a y x => some (put (put (put (put 0x40400000 14 d) 7 a) 3 y) 0 x)
  | .i2f d a y x => some (put (put (put (put 0x40800000 14 d) 7 a) 3 y) 0 x)
  | .i2i d a y x => some (put (put (put (put 0x40C00000 14 d) 7 a) 3 y) 0 x)
  | .pack2 d a k y x => some (put (put (put (put (put 0x41000000 14 d) 7 a) 6 k) 3 y) 0 x)
  | .unpack2 d a k y x => some (put (put (put (put (put 0x41400000 14 d) 7 a) 6 k) 3 y) 0 x)
  | .hadd2 f t d a b => some (put (put (put (put (put 0x44000000 25 f) 21 t) 14 d) 7 a) 0 b)
  | .hsub2 f t d a b => some (put (put (put (put (put 0x44400000 25 f) 21 t) 14 d) 7 a) 0 b)
  | .hmul2 f t d a b => some (put (put (put (put (put 0x44800000 25 f) 21 t) 14 d) 7 a) 0 b)
  | .hfma2 f t d a b => some (put (put (put (put (put 0x44C00000 25 f) 21 t) 14 d) 7 a) 0 b)
  | .hmin2 f t d a b => some (put (put (put (put (put 0x45000000 25 f) 21 t) 14 d) 7 a) 0 b)
  | .hmax2 f t d a b => some (put (put (put (put (put 0x45400000 25 f) 21 t) 14 d) 7 a) 0 b)
  | .idot4 u t d a b => some (put (put (put (put (put 0x48000000 22 u) 21 t) 14 d) 7 a) 0 b)
  | .fdot2 u t d a b => some (put (put (put (put (put 0x48800000 22 u) 21 t) 14 d) 7 a) 0 b)
  | .f8dot4 u t d a b => some (put (put (put (put (put 0x49000000 22 u) 21 t) 14 d) 7 a) 0 b)
  | .nqdec s t d a b => some (put (put (put (put (put 0x4C000000 24 s) 21 t) 14 d) 7 a) 0 b)
  | .nqdecf s t d a b => some (put (put (put (put (put 0x4C400000 24 s) 21 t) 14 d) 7 a) 0 b)
  | .nqdot s t d a b => some (put (put (put (put (put 0x4C800000 24 s) 21 t) 14 d) 7 a) 0 b)
  | .ld d h a s => some (put (put (put (put 0x50000000 14 d) 10 h) 3 a) 0 s)
  | .lds d h a s => some (put (put (put (put 0x50400000 14 d) 10 h) 3 a) 0 s)
  | .lda d h a s => some (put (put (put (put 0x50800000 14 d) 10 h) 3 a) 0 s)
  | .st s h a c => some (put (put (put (put 0x54000000 14 s) 10 h) 3 a) 0 c)
  | .strel s h a c => some (put (put (put (put 0x54400000 14 s) 10 h) 3 a) 0 c)
  | .aadd r d h a s => some (put (put (put (put (put 0x58000000 21 r) 14 d) 10 h) 3 a) 0 s)
  | .afadd r d h a s => some (put (put (put (put (put 0x58400000 21 r) 14 d) 10 h) 3 a) 0 s)
  | .amin r d h a s => some (put (put (put (put (put 0x58800000 21 r) 14 d) 10 h) 3 a) 0 s)
  | .amax r d h a s => some (put (put (put (put (put 0x58C00000 21 r) 14 d) 10 h) 3 a) 0 s)
  | .aminb r d h a s => some (put (put (put (put (put 0x59000000 21 r) 14 d) 10 h) 3 a) 0 s)
  | .amaxb r d h a s => some (put (put (put (put (put 0x59400000 21 r) 14 d) 10 h) 3 a) 0 s)
  | .aand r d h a s => some (put (put (put (put (put 0x59800000 21 r) 14 d) 10 h) 3 a) 0 s)
  | .aor r d h a s => some (put (put (put (put (put 0x59C00000 21 r) 14 d) 10 h) 3 a) 0 s)
  | .axor r d h a s => some (put (put (put (put (put 0x5A000000 21 r) 14 d) 10 h) 3 a) 0 s)
  | .axch r d h a s => some (put (put (put (put (put 0x5A400000 21 r) 14 d) 10 h) 3 a) 0 s)
  | .acas r d h a s => some (put (put (put (put (put 0x5A800000 21 r) 14 d) 10 h) 3 a) 0 s)
  | .ainc r d h a s => some (put (put (put (put (put 0x5AC00000 21 r) 14 d) 10 h) 3 a) 0 s)
  | .hld g h a e k => some (put (put (put (put (put 0x5C000000 18 g) 11 h) 4 a) 3 e) 0 k)
  | .hset g h a e k => some (put (put (put (put (put 0x5C400000 18 g) 11 h) 4 a) 3 e) 0 k)
  | .hrd g d h e k => some (put (put (put (put (put 0x5C800000 18 g) 11 d) 4 h) 3 e) 0 k)
  | .hcpy g d a e k => some (put (put (put (put (put 0x5CC00000 18 g) 11 d) 4 a) 3 e) 0 k)
  | .fenceAcq s => some (put 0x60000000 0 s)
  | .fenceRel s => some (put 0x60400000 0 s)
  | .fenceAr s => some (put 0x60800000 0 s)
  | .fenceSc s => some (put 0x60C00000 0 s)
  | .cwb h a s => some (put (put (put 0x61000000 10 h) 3 a) 0 s)
  | .cinv h a s => some (put (put (put 0x61400000 10 h) 3 a) 0 s)
  | .pref h a s => some (put (put (put 0x61800000 10 h) 3 a) 0 s)
  | .waitline d h a s => some (put (put (put (put 0x61C00000 14 d) 10 h) 3 a) 0 s)
  | .nx o => some (put 0x64000000 0 o)
  | .nxc n p o => some (put (put (put 0x64400000 21 n) 18 p) 0 o)
  | .nxi a => some (put 0x64800000 0 a)
  | .call l o => some (put (put 0x64C00000 18 l) 0 o)
  | .calli l a => some (put (put 0x65000000 18 l) 0 a)
  | .ret a => some (put 0x65400000 0 a)
  | .exit => some (0x65800000)
  | .yield => some (0x65C00000)
  | .refill o => some (put 0x66000000 0 o)
  | .region => some (0x66400000)
  | .trap c => some (put 0x66800000 0 c)
  | .brk c => some (put 0x66C00000 0 c)
  | .meet g e k => some (put (put (put 0x68000000 18 g) 3 e) 0 k)
  | .gvoteAny g d a e k => some (put (put (put (put (put 0x68400000 18 g) 11 d) 4 a) 3 e) 0 k)
  | .gvoteAll g d a e k => some (put (put (put (put (put 0x68800000 18 g) 11 d) 4 a) 3 e) 0 k)
  | .gvoteBallot g d a e k => some (put (put (put (put (put 0x68C00000 18 g) 11 d) 4 a) 3 e) 0 k)
  | .gbcast g d a e k => some (put (put (put (put (put 0x69000000 18 g) 11 d) 4 a) 3 e) 0 k)
  | .gelect g d e k => some (put (put (put (put 0x69400000 18 g) 11 d) 3 e) 0 k)
  | .fencew g o s e k => some (put (put (put (put (put 0x69800000 18 g) 11 o) 4 s) 3 e) 0 k)
  | .gred g d a o => some (put (put (put (put 0x69C00000 18 g) 11 d) 4 a) 0 o)
  | .gscan g d a o => some (put (put (put (put 0x6A000000 18 g) 11 d) 4 a) 0 o)
  | .shflIdx g d a b => some (put (put (put (put 0x6C000000 21 g) 14 d) 7 a) 0 b)
  | .shflUp g d a c => some (put (put (put (put 0x6D000000 21 g) 14 d) 7 a) 0 c)
  | .shflDn g d a c => some (put (put (put (put 0x6E000000 21 g) 14 d) 7 a) 0 c)
  | .shflXor g d a c => some (put (put (put (put 0x6F000000 21 g) 14 d) 7 a) 0 c)
  | .cdet g d a e k => some (put (put (put (put (put 0x70000000 18 g) 11 d) 4 a) 3 e) 0 k)
  | .gcombF32 g d a e k => some (put (put (put (put (put 0x70400000 18 g) 11 d) 4 a) 3 e) 0 k)
  | .gcombS32 g d a e k => some (put (put (put (put (put 0x70800000 18 g) 11 d) 4 a) 3 e) 0 k)
  | .wacfg w a => some (put (put 0x74000000 10 w) 3 a)
  | .wapush w a => some (put (put 0x74400000 10 w) 3 a)
  | .ward d w => some (put (put 0x74800000 14 d) 10 w)
  | .wapr d w a => some (put (put (put 0x74C00000 14 d) 10 w) 3 a)
  | .waclr w => some (put 0x75000000 10 w)
  | .wastat d w a => some (put (put (put 0x75400000 14 d) 10 w) 3 a)
  | .wasave h w a => some (put (put (put 0x75800000 14 h) 10 w) 3 a)
  | .waload h w a => some (put (put (put 0x75C00000 14 h) 10 w) 3 a)
  | .mxmmaBf16 r t h j a => some (put (put (put (put (put 0x78000000 21 r) 17 t) 13 h) 9 j) 2 a)
  | .mxmmaF16 r t h j a => some (put (put (put (put (put 0x78400000 21 r) 17 t) 13 h) 9 j) 2 a)
  | .mxmmaE4m3 r t h j a => some (put (put (put (put (put 0x78800000 21 r) 17 t) 13 h) 9 j) 2 a)
  | .mxmmaE5m2 r t h j a => some (put (put (put (put (put 0x78C00000 21 r) 17 t) 13 h) 9 j) 2 a)
  | .mxmmaS8 r t h j a => some (put (put (put (put (put 0x79000000 21 r) 17 t) 13 h) 9 j) 2 a)
  | .mxmmaNq4 r t h j a => some (put (put (put (put (put 0x79400000 21 r) 17 t) 13 h) 9 j) 2 a)
  | .mxz t => some (put 0x79800000 17 t)
  | .mxst t h a => some (put (put (put 0x79C00000 17 t) 13 h) 2 a)
  | .mxrd t d a => some (put (put (put 0x7A000000 17 t) 9 d) 2 a)
  | .mxwr t a => some (put (put 0x7A400000 17 t) 2 a)
  | .mxcommit => some (0x7A800000)
  | .mxwait n => some (put 0x7AC00000 2 n)
  | .mxstat d a => some (put (put 0x7B000000 9 d) 2 a)
  | .cpy g d s a m => some (put (put (put (put (put 0x7C000000 16 g) 12 d) 8 s) 1 a) 0 m)
  | .tcpy g d s a m => some (put (put (put (put (put 0x7C400000 16 g) 12 d) 8 s) 1 a) 0 m)
  | .chain g d s a m => some (put (put (put (put (put 0x7C800000 16 g) 12 d) 8 s) 1 a) 0 m)
  | .tagarm g a => some (put (put 0x7CC00000 16 g) 1 a)
  | .tagwaitAny a => some (put 0x7D000000 1 a)
  | .tagwaitAll a => some (put 0x7D400000 1 a)
  | .tagff a => some (put 0x7D800000 1 a)
  | .tagclr a => some (put 0x7DC00000 1 a)
  | .tagrd g a => some (put (put 0x7E000000 16 g) 1 a)
  | .tbar n => some (put 0x80000000 0 n)
  | .tbara d n => some (put (put 0x80400000 14 d) 0 n)
  | .tbarw a n => some (put (put 0x80800000 7 a) 0 n)
  | .launch d a h => some (put (put (put 0x80C00000 14 d) 7 a) 0 h)
  | .gwait d a => some (put (put 0x81000000 14 d) 7 a)
  | .taskpush d a h => some (put (put (put 0x81400000 14 d) 7 a) 0 h)
  | .rgrow d n => some (put (put 0x81800000 14 d) 0 n)
  | .rshrink n => some (put 0x81C00000 0 n)
  | .commit => some (0x82000000)
  | .rds d n => some (put (put 0x84000000 14 d) 0 n)
  | .wrs s n => some (put (put 0x84400000 14 s) 0 n)
  | .tlbinv a b => some (put (put 0x84800000 7 a) 0 b)
  | .unpark d a => some (put (put 0x84C00000 14 d) 7 a)
  | .swapctx d a => some (put (put 0x85000000 14 d) 7 a)
  | .ctxsave d a b => some (put (put (put 0x85400000 14 d) 7 a) 0 b)
  | .ctxload d a b => some (put (put (put 0x85800000 14 d) 7 a) 0 b)
  | .trapret => some (0x85C00000)
  | .trapretSkip => some (0x85C00001)
  | .halt => some (0x86000000)
  | .sleep => some (0x86400000)
  | .lmapw d a b => some (put (put (put 0x86800000 14 d) 7 a) 0 b)
  | _ => none

end Sys2Proof
end

