-- ==== Sys2Proof/Config.lean ====
section
/-!
DEFINITION. The sizes of the Kaztur 7512 (R2) and the values that the specification leaves open, as constants
without a body: no proof can see what they are.
-/

namespace Sys2Proof.Config

/-- Dies, clusters per die, cores per cluster (R2). -/
def dies : Nat := 4
def clustersPerDie : Nat := 16
def coresPerCluster : Nat := 8
/-- Clusters and cores of the package (R2). -/
def clusters : Nat := 64
def cores : Nat := 512
/-- Wave slots and strands of one bank (R159). -/
def waveSlots : Nat := 32
def strandsPerBank : Nat := 1024
/-- Bytes of one context half (R200). -/
def halfBytes : Nat := 655360
def scribeBytes : Nat := 8192
/-- First byte after device memory (R350). -/
def deviceEnd : Nat := 512000000000
/-- Entries of the engine queues (R212, R292), closed groups per wave (R221), commands of an open group (R218). -/
def mxQueue : Nat := 64
def copyQueue : Nat := 64
def closedGroups : Nat := 8
def openCommands : Nat := 32
/-- Issues a wave may hold in the SFU and conversion queues (R111, R112). -/
def sfuQueue : Nat := 4
def cvtQueue : Nat := 8
/-- Load-value queue entries of a redundant pair (R267). -/
def loadValueQueue : Nat := 256
/-- Sectors of a contained team's store buffer (R290). -/
def storeBufferSectors : Nat := 1024
/-- Entries of a cluster's task pool (R286) and of a core's item queue (R287). -/
def taskPool : Nat := 4096
def itemQueue : Nat := 256
/-- Lines of a core's L1 area (R200), of its instruction cache (R170), and of a die's L2 (R2, R313); bytes of the base
die's memory-side cache (R2), in which no byte differs from memory. -/
def l1Lines : Nat := 1024
def codeLines : Nat := 512
def l2Lines : Nat := 393216
def memorySideCache : Nat := 8589934592
/-- Window accumulators of a bank (R159). -/
def accumulators : Nat := 16
/-- Walks that a die's walker runs at once (R322). -/
def walkSlots : Nat := 64
/-- Miss registers of a core and how many may target one slice (R317). -/
def missRegisters : Nat := 128
def missPerSlice : Nat := 32
/-- Undelivered error records the device holds (R366), fault records a cluster holds (R327). -/
def heldErrors : Nat := 64
def heldFaults : Nat := 256
/-- Forwarding entries of a slice (R315). -/
def forwardEntries : Nat := 2048

/-- DESIGN CHOICE (log 8). An amount of time, in cycles, that the specification does not fix: how far a core's
CLOCK (R87) or the device's fc count (R366) moves between two steps. Applied to `State.freeCount`. -/
opaque freeTime : Nat → BitVec 32

/-- DESIGN CHOICE (log 12). One of two outcomes that the specification allows: the latched or the fresh A panel of
a chunk (R219), the old or the already written source byte of an overlapping copy (R296). -/
opaque freeChoice : Nat → Bool

/-- DESIGN CHOICE (log 10). SHA-256 of a byte string, which the specification names and does not restate (R378, R379), and its 32
bytes. -/
opaque sha256Value : List Byte → BitVec 256
def sha256 (b : List Byte) : List Byte := (List.range 32).map fun k => (sha256Value b).extractLsb' (8 * k) 8

/-- DESIGN CHOICE (log 10). Whether an ECDSA P-256 signature of a digest verifies against a key (R378, R380). -/
opaque ecdsaVerify (key digest signature : List Byte) : Bool

/-- DESIGN CHOICE (log 10). The signature that the identity key of the part gives a byte string (R379), and its 64 bytes. -/
opaque identityValue : List Byte → BitVec 512
def identitySign (b : List Byte) : List Byte := (List.range 64).map fun k => (identityValue b).extractLsb' (8 * k) 8

/-- DESIGN CHOICE (log 10). A value of the outside world that no rule fixes: a byte that a remote side of a network
window returns to an RDMA READ (R377), per window, remote address and read. -/
opaque remoteByte (window address n : Nat) : Byte

/-- DESIGN CHOICE (log 18). How many entries a command stream's ring holds, which the specification does not state
(R360). -/
opaque streamEntries : Nat

/-- DESIGN CHOICE (log 11). A byte of a save area's section whose inner layout the specification does not fix (R265), by
the save's number and the byte's place. -/
opaque savedByte (id place : Nat) : Byte

/-- DESIGN CHOICE (log 43). A byte of the register area of a wave that has exited, whose registers are freed (R28, R202), by
the free-value counter and the byte's offset. -/
opaque freedByte (n off : Nat) : Byte

end Sys2Proof.Config
end

