-- ==== Sys2Proof/Machine/State.lean ====
section
/-!
DEFINITION. The state of the Kaztur 7512 as plain data, the reasons a step can stop, and the state right after reset.
Objects are held in tables by number. A core number is its COREID (R87); a bank number is 2 x core + bank; a wave
number is 33 x bank number + slot; a strand number is 64 x wave number + lane. The scribe slot of core c, which lies
outside both context banks (R328), is slot 32 of bank number 1,024 + c.
-/

namespace Sys2Proof.Machine

/-! ### The strand (R10) -/

/-- A general register: 32 bits, its stored parity bit and its poison bit (R10, R25). The parity bit is 1 when the
number of ones of the value is odd, if no error lies in the word. -/
structure Reg where
  val : Word
  par : Bool
  poison : Bool
  deriving DecidableEq, Repr

/-- What a window entry writes: a v register or a predicate. -/
inductive Dst where
  | v (n : Nat)
  | p (n : Nat)
  deriving DecidableEq, Repr

/-- One entry of the result window (R10, R16 to R20, R265): the register, the value with its poison bit, the
visibility latency, the distance from the producer, the T bit, and the number of the result while it has not arrived. -/
structure Went where
  dst : Dst
  val : Word
  poison : Bool
  lat : Nat
  age : Nat
  transient : Bool
  tag : Option Nat
  deriving DecidableEq, Repr

/-- What the handler keeps of the interrupted strand (R22, R252, R257): the frozen window, the transient writes lost
before it, REGIONPC with the count at which the region began and its parity errors, the eight handler registers, the registers the handler has
written, where TRAPRET and TRAPRET.skip continue, and whether the cause was BRK. -/
structure Frame where
  frozen : List Went
  lost : List Dst
  regionPc : VAddr
  regionCount : Nat
  parityErrors : List Nat
  hregs : Tbl Reg
  wrote : List Dst
  again : VAddr
  skip : VAddr
  brk : Bool
  deriving DecidableEq, Repr

/-- What a Waiting strand waits for (R26), beyond what the readiness test reads off the window. -/
inductive Wait where
  /-- The status or the result of a request (R255, R282), or the performance of an own access. -/
  | reply (id : Nat)
  /-- The walk of its access (R322). -/
  | walk (id : Nat)
  /-- The requests that a fence or a release orders (R133, R348); `applied` when every die must have applied them
  (R343, R358). -/
  | acks (ids : List Nat) (applied : Bool)
  /-- The requests that the FENCE.sc behind an .sc atomic orders, until every die has applied them (R342, R343). -/
  | settle (ids : List Nat)
  /-- The pair's comparison, or a value of the leading wave, in redundant mode (R267, R268). -/
  | pair
  /-- Trap entry with the code, the address that faulted and the skip address, until the queued results have
  arrived (R111, R252). -/
  | handler (code : Nat) (va : Dword) (pc skip : VAddr)
  deriving DecidableEq, Repr

/-- What a Blocked strand is blocked in (R26). -/
inductive Block where
  /-- A meet that it has presented, by class and tag; `self` when its handler formed it (R180, R181). -/
  | meet (cls tag : Nat) (self : Bool)
  /-- TAGWAIT on a mask, with the pair it writes and the request its result has (R303). -/
  | tags (mask : Nat) (all : Bool) (a : Nat) (id : Nat)
  /-- TBAR, or a second arrival, in the phase that is to complete (R277, R281). -/
  | barrier (b : Nat) (phase : Word)
  /-- WAITLINE on the line of a watched element (R135). -/
  | line (id : Nat)
  /-- RGROW, or the implicit grow of CALL and CALLI (R93, R289). -/
  | grow (request : Nat)
  /-- MXWAIT until at most n closed groups are outstanding (R222). -/
  | groups (n : Nat) (id : Nat)
  /-- GWAIT on a grid, whose status goes to v[d] (R285). -/
  | grid (g : Nat) (d : Nat) (id : Nat)
  /-- TASKPUSH on a full pool (R286). -/
  | pool (id : Nat)
  /-- REFILL on an empty item queue, from the core's issue with this number (R98). -/
  | refill (issue : Nat)
  /-- SLEEP (R260). -/
  | sleep
  /-- A lane whose instruction issues again once the wave's pending grow has completed (R289). -/
  | growPending
  deriving DecidableEq, Repr

/-- The life states of R26. In handler is a frame together with one of these. -/
inductive Life where
  | ready
  | waiting (w : Wait)
  | blocked (b : Block)
  | parked
  | exited
  deriving DecidableEq, Repr

/-- A closed commit group of the matrix engine that is outstanding: its number and its commands (R220, R221). -/
structure Group where
  number : Nat
  commands : List Nat
  deriving DecidableEq, Repr

/-- One value that redundant mode carries or compares (R267, R268): the bundle, the issue, the request whose result is still
to come or 0, the words with their poison, or the fault that the leading wave took instead. -/
structure PairItem where
  pc : VAddr
  issue : Nat
  seq : Nat
  fault : Option (Nat × Nat × Dword)
  words : List Word
  poison : List Bool
  deriving DecidableEq, Repr

/-- A strand (R10, R265). -/
structure Strand where
  pc : VAddr
  /-- The strand's instruction count (R16). -/
  count : Nat
  regionPc : VAddr
  /-- The instruction count at which the region began (R25). -/
  regionCount : Nat
  regs : Tbl Reg
  preds : BitVec 8
  fstat : Word
  window : List Went
  /-- A region has begun and its drain waits for results that have not arrived (R21, R24). -/
  draining : Bool
  /-- The handle registers as the instruction read them at its issue, while its access waits (R211). -/
  handles : Option (Tbl HRec)
  /-- Unparked: the strand re-executes its instruction as the single participant of an issue (R128). -/
  solo : Bool
  /-- Registers whose latest write was a transient that has left the window (R19, R20). -/
  lost : List Dst
  /-- Registers found with a parity error in this region and not written since (R25). -/
  parityErrors : List Nat
  life : Life
  handler : Option Frame
  /-- The park count of R258. -/
  seq : BitVec 10
  /-- The census wait count of R164. -/
  wait : Nat
  /-- The current entry of R98. -/
  entry : VAddr
  faultCode : Word
  faultPc : Dword
  faultVa : Dword
  /-- Commands of the open group (R220). -/
  openGroup : List Nat
  /-- Closed groups outstanding (R221). -/
  closed : List Group
  /-- The item that a REFILL whose argument record faulted takes again (R98). -/
  item : Option (Nat × Nat)
  /-- Comparisons and load values of redundant mode, oldest first (R267, R268). -/
  compares : List PairItem
  values : List PairItem
  /-- Redundant mode: the comparison of the next instruction has matched (R268). -/
  permit : Bool
  deriving DecidableEq, Repr

/-! ### The wave -/

/-- What a presenter brought to a meet (R180): its lane, the words it read with their poison, its predicate, its
destination register, a count of SHFL, the flags it withholds, and the word after its instruction. Until the meet
completes the strand stands at its group instruction. -/
structure Presenter where
  lane : Nat
  words : List (Word × Bool)
  pred : Bool
  d : Nat
  arg : Nat
  quiet : BitVec 5
  next : VAddr
  deriving DecidableEq, Repr

/-- A meet (R179, R183). `own` names the lane whose handler formed the meet with itself alone (R181). A meet that every
participant has presented is closed: its key is free again, and it waits for a table read or an ordering (R190, R131). -/
structure Meet where
  id : Nat
  closed : Bool
  cls : Nat
  tag : Nat
  own : Option Nat
  minor : Nat
  op : Nat
  order : Nat
  scope : Nat
  kEnable : Bool
  kValue : Dword
  /-- The wave register the operation writes, and the one it reads (R179). -/
  dst : Nat
  src : Nat
  presenters : List Presenter
  members : List Nat
  /-- FENCEW: the requests whose ordering is awaited once all have presented, and whether every die must have applied
  them (R190). -/
  acks : Option (List Nat × Bool)
  /-- HLD: whether the table read has been requested, and the parts of the record that have come back, with their poison
  (R131). -/
  asked : Bool
  parts : Tbl (List Byte × Bool)
  deriving DecidableEq, Repr

/-- A grow request of a wave (R175, R289): its size, its lanes with the registers they write, and the lanes of CALL
and CALLI that go to a callee. -/
structure GrowLane where
  lane : Nat
  /-- RGROW's destination, or none for an implicit grow. -/
  dst : Option Nat
  /-- The link number, the return address and the target of an implicit grow (R93), and the CALL's bundle. -/
  link : Nat
  ret : VAddr
  target : VAddr
  pc : VAddr
  deriving DecidableEq, Repr

/-- The issue number tells the lanes of one issue, which form one request, from later ones. -/
structure Grow where
  id : Nat
  issue : Nat
  size : Nat
  lanes : List GrowLane
  deriving DecidableEq, Repr

/-- A wave (R160, R265). -/
structure Wave where
  width : Nat
  live : Nat
  waveId : Nat
  team : Nat
  grid : Nat
  alloc : Nat
  w : Tbl Word
  k : Tbl Dword
  h : Tbl HRec
  issues : Word
  censusWait : Word
  bsPass : Word
  gstat : Word
  mxFlags : BitVec 5
  corr : BitVec 8
  meets : List Meet
  grow : Option Grow
  /-- The wave number of the pair's other wave, and whether this is the trailing one (R266). -/
  partner : Option Nat
  trailing : Bool
  deriving DecidableEq, Repr

/-! ### Teams, grids, contexts -/

/-- A window accumulator (R234 to R236): entries are (value, index) pairs, the index 0 for the plain operators; the head of
`front` is the top of F, the head of `back` the newest of B. `bad` lists what has an uncorrectable error (R245): k for the entry
of F with k below it, 4,096 + k for the entry of B with k older ones, and 8,192 for the aggregate. -/
structure Acc where
  cfg : Word
  flags : BitVec 5
  front : List (Word × Word)
  back : List (Word × Word)
  agg : Word × Word
  bad : List Nat
  deriving DecidableEq, Repr

/-- A WA operation of a fused-L1 team on its way to the core that holds the accumulators (R234, R240): its issue, the minor,
the accumulator, the first destination and the operand. `turns` says that it may change the accumulator between values and pairs.
A `late` one takes its turn on arrival, its strand standing at the instruction word at `here`: its operand register, or its handle
with the index and the index's poison. -/
structure WaOp where
  id : Nat
  issue : Nat
  core : Nat
  strand : Nat
  minor : Nat
  acc : Nat
  d : Nat
  x : Word × Word
  turns : Bool
  late : Bool
  here : VAddr
  a : Nat
  h : HRec
  poison : Bool
  deriving DecidableEq, Repr

/-- A team barrier (R277). -/
structure Barrier where
  phase : Word
  arrived : List Nat
  deriving DecidableEq, Repr

/-- A launch record (R278). -/
structure Launch where
  entry : VAddr
  codeVer : Nat
  teams : Nat
  waves : Nat
  width : Nat
  live : Nat
  budget : Nat
  scratch : Nat
  tiles : Nat
  was : Nat
  tags : Nat
  prio : Nat
  contained : Bool
  redundant : Bool
  cooperative : Bool
  fused : Bool
  system : Bool
  top : Bool
  mmr : Nat
  pin : Option Nat
  htab : VAddr
  htabLen : Nat
  asid : Nat
  done : VAddr
  args : List Word
  deriving DecidableEq, Repr

/-- A gathered team's tasks: entry and the records' addresses (R287). -/
structure Tasks where
  entry : VAddr
  budget : Nat
  records : List Nat
  deriving DecidableEq, Repr

/-- The register area of a wave whose slot has been given away (R28, R202): it keeps its place among its team's areas. -/
structure FreedArea where
  waveId : Nat
  trailing : Bool
  alloc : Nat
  width : Nat
  deriving DecidableEq, Repr

/-- A resident or relaunched team (R275, R291). -/
structure Team where
  grid : Nat
  teamId : Nat
  /-- The bank that holds its scratch, tiles, tags, accumulators and barriers (R276). -/
  bank : Nat
  waves : List Nat
  freed : List FreedArea
  scratchSize : Nat
  scratch : Tbl Byte
  /-- Poisoned words of the scratch, by word number (R125). -/
  poisonWords : List Nat
  accs : Tbl Acc
  /-- WA operations on their way, each core's in its issue order (R240). -/
  waOps : List WaOp
  barriers : Tbl Barrier
  tiles : List Nat
  tags : List Nat
  /-- The store buffer of a contained team: bytes by physical address (R290). -/
  buffer : List Host.Cell
  contained : Bool
  redundant : Bool
  exposed : Bool
  relaunches : Nat
  /-- Killed and waiting to be placed again, with the core a MISMATCH relaunch returns to (R269, R291). -/
  waiting : Bool
  sameCore : Option Nat
  avoid : Option Nat
  tasks : Option Tasks
  /-- The code of the last kill (R249). -/
  killed : Nat
  deriving DecidableEq, Repr

/-- A grid (R278, R279, R284). -/
structure Grid where
  launch : Launch
  asid : Nat
  version : Nat
  level : Nat
  depth : Nat
  parent : Option Nat
  parentGrid : Option Nat
  accepted : Nat
  nextTeam : Nat
  retiredTeams : Nat
  /-- TEAMIDs given so far: the launched teams, then the gathered ones (R287). -/
  teamCount : Nat
  status : Nat
  retired : Bool
  /-- Writes of its teams that come before the write of the completion word (R284). -/
  stores : List Nat
  /-- Cores that its teams have used, and whether their dirty bytes have been written back for the completion word. -/
  places : List Nat
  flushed : Bool
  deriving DecidableEq, Repr

/-- A code version of a context (R15) with the exported entries of its image. -/
structure CodeVersion where
  number : Nat
  pages : List CodePage
  exports : List Nat
  deriving DecidableEq, Repr

/-- A context (R3, R15, R252, R357). -/
structure Context where
  revision : Nat
  handlerEntry : VAddr
  versions : List CodeVersion
  deriving DecidableEq, Repr

/-! ### Banks and cores -/

/-- A copy tag (R293, R301, R303): counts, ARMED, READY and the flags IV, DZ, OF, UF, NX. -/
structure CopyTag where
  expected : Word
  remaining : Word
  armed : Bool
  ready : Bool
  flags : BitVec 5
  deriving DecidableEq, Repr

/-- A place of the age order: a wave, or a redundant pair by its leading wave (R162, R266). -/
structure Place where
  wave : Nat
  pair : Option Nat
  deriving DecidableEq, Repr

/-- One lane of an MXRD or MXWR issue (R224): its strand, its physical tile, the element's number in the tile, the
destination of a read, and the word of a write. -/
structure MxLane where
  strand : Nat
  tile : Nat
  element : Nat
  d : Nat
  word : Option Word
  deriving DecidableEq, Repr

/-- What a matrix command does (R218, R223, R224). `type` counts .bf16, .f16, .e4m3, .e5m2, .s8, .nq4 from 0. -/
inductive MxOp where
  | mma (type : Nat) (reuse : Bool) (hA hB : HRec) (koff k : Nat)
  | zero
  | store (h : HRec) (row rows : Nat)
  | access (lanes : List MxLane)
  deriving DecidableEq, Repr

/-- An entry of the matrix queue (R227, R265). `tile` is a physical tile. `residue` counts the coming residue checks of
its next chunk that a fault of the hardware makes fail (R228). -/
structure MxEntry where
  id : Nat
  /-- The issue that made it, while it is in this core: the lanes of one MXRD or MXWR issue share an entry (R224). -/
  issue : Option Nat
  op : MxOp
  tile : Nat
  team : Nat
  wave : Nat
  lane : Nat
  progress : Nat
  residue : Nat
  deriving DecidableEq, Repr

/-- The latch of A (R219): bank, type, handle, KOFF, K and the panels by chunk. -/
structure Latch where
  bank : Nat
  type : Nat
  hA : HRec
  koff : Nat
  k : Nat
  panels : Tbl (List Byte)
  deriving DecidableEq, Repr

/-- What a copy does (R296, R297, R299). -/
inductive CopyOp where
  | linear (src dst n : Nat)
  | tensor (src dst : Nat) (sizes : List Nat) (sstr dstr : List Int)
  | chain (src dst count : Nat) (stype dtype : Nat) (ops : List (Nat × Nat × Word × Word))
  deriving DecidableEq, Repr

/-- A write of a copy that has left the engine for a line of its destination (R302, R354): the block it is of, the bytes, how many
bytes it counts, the flags of its elements, whether it is written poisoned (R307), and its stamp where the line's home is another
die. -/
structure CopyWrite where
  block : Nat
  line : Nat
  cells : List Host.Cell
  count : Nat
  flags : BitVec 5
  bad : Bool
  stamp : Option (List Nat)
  deriving DecidableEq, Repr

/-- A copy command in a bank's queue (R295). -/
structure Copy where
  id : Nat
  op : CopyOp
  hs : HRec
  hd : HRec
  tag : Nat
  team : Nat
  strand : Nat
  /-- The cache policy of its reads (R68, R118). -/
  pol : Nat
  /-- Blocks that have been read and have landed or left for their destination, of how many. -/
  landed : List Nat
  blocks : Nat
  /-- Physical lines of a global destination that the engine owns, each with its bytes still to land, and virtual lines that
  have no translation yet (R305). -/
  owned : List (Nat × Nat)
  unplaced : List Nat
  /-- Its writes that have left the engine and are not yet performed, in the order in which they left. -/
  writes : List CopyWrite
  /-- The virtual line on which the copy has stopped with a fault record, and whether a TLBINV has completed since
  (R307). -/
  stopped : Option Nat
  retry : Bool
  /-- The network windows that the copy names (R377). -/
  windows : List Nat
  /-- Writes of the commit that the copy made, which come before its first access (R290, R346). -/
  after : List Nat
  /-- Coming CRC-32C checks of its next block that a fault of the hardware makes fail (R307). -/
  crc : Nat
  deriving DecidableEq, Repr

/-- A context bank (R159). -/
structure Bank where
  asid : Option Nat
  patience : Word
  greed : Word
  chksb : Word
  mmrMode : Word
  trapBase : Dword
  tags : Tbl CopyTag
  /-- The age order, oldest first, the current place, its run and whether its last issue was YIELD (R162). -/
  order : List Place
  current : Option Nat
  run : Nat
  yielded : Bool
  mxQueue : List MxEntry
  copies : List Copy
  /-- Waves with pending grows in request order (R175). -/
  grows : List Nat
  /-- Context tiles held: none, eight or sixteen (R209). -/
  mapping : Nat
  deriving DecidableEq, Repr

/-- A line of a core's L1 area (R314, R348): its physical line, its bytes by offset, for each dirty offset the strand
that wrote it, and the poisoned sectors. -/
structure L1Line where
  line : Nat
  bytes : Tbl Byte
  dirty : Tbl Nat
  poison : List Nat
  /-- The cache policy of the access that last filled or wrote it (R118). -/
  pol : Nat
  deriving DecidableEq, Repr

/-- A cached translation (R322, R323): tagged by ASID and VMID, over a page of `size` bytes; a page not present is
kept as well. `level` and `level2` are the levels of the stage-1 and the stage-2 leaf. -/
structure TlbEntry where
  asid : Nat
  vmid : Nat
  va : Nat
  size : Nat
  pa : Nat
  ipa : Nat
  /-- The range of the stage-1 descriptor and of the stage-2 descriptor from which the entry was read (R259). -/
  page : Nat × Nat
  page2 : Nat × Nat
  r : Bool
  w : Bool
  x : Bool
  sys : Bool
  /-- The stage and level of the refusing descriptor; the stage that withholds each permission is 1 or 2. -/
  present : Bool
  stage : Nat
  level : Nat
  level2 : Nat
  stageR : Nat
  stageW : Nat
  stageX : Nat
  stageS : Nat
  deriving DecidableEq, Repr

/-- An instruction line of a core's instruction cache (R170): context, version, virtual line, its words, and whether its page
admits system levels alone (R319). -/
structure CodeLine where
  asid : Nat
  version : Nat
  line : Nat
  bytes : List Byte
  sys : Bool
  deriving DecidableEq, Repr

/-- A result on its way from the divide unit, the SFU or the conversion queue (R84, R111, R112). `unit` is 0, 1, 2; `count` is
the strand's instruction count at its issue. -/
structure Result where
  id : Nat
  strand : Nat
  unit : Nat
  issue : Nat
  count : Nat
  dst : List (Nat × Word)
  flags : Word
  deriving DecidableEq, Repr

/-- A task or an item: its grid, entry and argument record (R98, R286). -/
structure Task where
  grid : Nat
  entry : VAddr
  record : Nat
  born : Nat
  deriving DecidableEq, Repr

/-- A logical lane that differed, with the physical lanes that carried it in the leading and in the trailing wave (R270). -/
structure Differed where
  lane : Nat
  leading : Option Nat
  trailing : Option Nat
  deriving DecidableEq, Repr

/-- A MISMATCH record of a core (R270): the team, and the lanes that differed. -/
structure Mismatch where
  team : Nat
  lanes : List Differed
  deriving DecidableEq, Repr

/-- A core (R159, R162, R171, R229). -/
structure Core where
  active : Nat
  lmap : Tbl Word
  clock : Dword
  mxwd : Word
  latch : Option Latch
  /-- Tile memory: element (i, j) of physical tile m at 4,096 m + 64 i + j (R208). -/
  tiles : Tbl Word
  /-- Words of tile memory with an uncorrectable error, by pair of elements (R228). -/
  tileBad : List Nat
  items : List Task
  l1 : List L1Line
  icache : List CodeLine
  tlb : List TlbEntry
  results : List Result
  halted : Bool
  gated : Bool
  /-- No new team is placed after a second mismatch (R270). -/
  held : Bool
  /-- Pending swap requests, with the reply they owe (R261). -/
  swaps : List (Option Nat)
  mismatches : List Mismatch
  /-- Lane fault injection: physical lane and the issue it starts at (R272). -/
  inject : Option (Nat × Nat)
  issueCount : Nat
  /-- The swap in after which priority 3 gives the core back (R362). -/
  prio3 : Bool
  /-- A wake event has reached the gated core (R178). -/
  woken : Bool
  deriving DecidableEq, Repr

/-! ### Clusters, dies, device -/

/-- A fault record (R326): the 64 bytes, and whether it goes to the stage-2 queue. -/
structure FaultRec where
  bytes : List Byte
  stage2 : Bool
  deriving DecidableEq, Repr

/-- A cluster (R286, R287, R327, R328). -/
structure Cluster where
  gatherWin : Word
  fqBase : Dword
  fqBase2 : Dword
  scribeEnt : Dword
  pool : List Task
  /-- TASKPUSH lanes waiting for a pool entry, oldest first (R286). -/
  pushing : List (Nat × Task)
  records : List FaultRec
  /-- The wave of the scribe slot (R328). -/
  scribe : Option Nat
  scribeStart : Bool
  /-- The scribe strands that were Ready at the core's last choice (R328). -/
  scribeReady : List Nat
  tlb : List TlbEntry
  ticks : Nat
  deriving DecidableEq, Repr

/-- A write on its way to its line's ordering point (R315, R337, R354), of bytes of one line: the core that sent it and, for a
store of a strand that is not a write-back, its bank (R176). `exposes` names the contained team that the performance of its
release exposes (R291). -/
structure Flight where
  id : Nat
  core : Nat
  bank : Option Nat
  bytes : List Host.Cell
  exposes : Option Nat
  /-- The stamp of R354 once the write has left its die for another one. -/
  stamp : Option (List Nat)
  /-- A release write at device scope of a revision 1 context (R358). -/
  single : Bool
  deriving DecidableEq, Repr

/-- A store that is not yet performed: it waits for a miss register (R317), or, a STREL, for its release (R348). It is one
line's bytes from the lanes of one issue (R121), `strands` naming each byte's lane: the core that issued, the core whose L1
area it writes, the requests it comes after, and whether it holds a miss register. -/
structure PendStore where
  id : Nat
  issue : Nat
  home : Nat
  core : Nat
  bytes : List Host.Cell
  strands : List Nat
  /-- The address space and the virtual address of its first byte (R259). -/
  asid : Nat
  va : Nat
  release : Bool
  after : List Nat
  applied : Bool
  bypass : Bool
  /-- The cache policy (R118). -/
  pol : Nat
  single : Bool
  granted : Bool
  /-- The contained team that it exposes when it is performed (R291). -/
  exposes : Option Nat
  deriving DecidableEq, Repr

/-- What a read of memory serves: the registers of a load; the read of a watched element (R135); the table read of an HLD, by
the meet's number and the part of the record (R131); a part of a launch record, by the request (R278); PREF into the L1 area or
the die's L2, with its issue (R134). -/
inductive LoadUse where
  | register
  | watch (id : Nat)
  | table (meet part : Nat)
  | launch (id part : Nat)
  | prefetch (level issue : Nat)
  deriving DecidableEq, Repr

/-- A load that has missed (R121, R125, R317). -/
structure Load where
  id : Nat
  strand : Nat
  use : LoadUse
  core : Nat
  /-- The address space and the virtual address (R259). -/
  asid : Nat
  va : Nat
  pa : Nat
  size : Nat
  signed : Bool
  d : Nat
  /-- The scope of an acquire, 0 for a relaxed load. -/
  acquire : Nat
  /-- The cache policy (R68, R118). -/
  pol : Nat
  granted : Bool
  clock : List Nat
  deriving DecidableEq, Repr

/-- An atomic on its way to its ordering point (R129, R130). -/
structure Atomic where
  id : Nat
  strand : Nat
  core : Nat
  op : Nat
  size : Nat
  asid : Nat
  va : Nat
  pa : Nat
  x : Dword
  cmp : Dword
  isFloat : Bool
  ret : Bool
  d : Nat
  order : Nat
  scope : Nat
  after : List Nat
  applied : Bool
  /-- Whether it has a miss register, or needs none (R317), and the contained team that it exposes (R291). -/
  granted : Bool
  exposes : Option Nat
  /-- It acts on the store buffer of its contained team (R347). -/
  inBuffer : Bool
  /-- Its team has died: it is performed and tells nobody (R291, R354). -/
  orphan : Bool
  /-- The stamp once it has left for another die, and the old value with the clock it carries back (R355). -/
  stamp : Option (List Nat)
  done : Option (Dword × Bool × List Nat)
  deriving DecidableEq, Repr

/-- A strand that watches a line in WAITLINE (R135). -/
structure Watch where
  id : Nat
  strand : Nat
  /-- The 256-byte line: physical for global memory, scratch block for local memory. -/
  isLocal : Bool
  team : Nat
  line : Nat
  /-- The issue that armed it, for the pair's value queue (R267). -/
  issue : Nat
  /-- The element, the expected value and the destination. -/
  va : Nat
  offset : Nat
  size : Nat
  expected : Dword
  d : Nat
  scope : Nat
  pol : Nat
  written : Bool
  /-- The word after the WAITLINE, where its strand goes on. -/
  next : VAddr
  deriving DecidableEq, Repr

/-- An update or a notice from a home die to another die (R354). -/
structure Update where
  id : Nat
  home : Nat
  die : Nat
  writer : Nat
  stamp : List Nat
  bytes : List Host.Cell
  withData : Bool
  deriving DecidableEq, Repr

/-- For what the walker walks (R322): the lanes of one line of an issue, a strand's fetch, a copy, a WAITLINE, the table
read of a wave's HLD, the record of a LAUNCH, the line that a PREF of an issue asks for, by its level, or an access that a
cluster's dispatcher makes. -/
inductive Walker where
  | lanes (strand issue : Nat)
  | fetch (strand : Nat)
  | copy (id : Nat)
  | line (strand : Nat)
  | table (wave : Nat)
  | record (id strand : Nat)
  | prefetch (strand issue level pol : Nat)
  | system (core : Nat)
  deriving DecidableEq, Repr

/-- A walk of the die's walker (R322, R325). -/
structure Walk where
  id : Nat
  who : Walker
  core : Nat
  asid : Nat
  va : Nat
  /-- The physical line of a descriptor read with LOCK set, and whether it has been written since (R325). -/
  locked : Option Nat
  written : Bool
  deriving DecidableEq, Repr

/-- A line away from its home slice: its current slice and the order of its forwarding entry (R315). -/
structure Moved where
  line : Nat
  slice : Nat
  deriving DecidableEq, Repr

/-- A line of another die held in a die's L2 (R314, R353): the bytes of its valid sectors and its poisoned sectors. -/
structure Replica where
  line : Nat
  bytes : Tbl Byte
  poison : List Nat
  deriving DecidableEq, Repr

/-- A compute die (R349, R353, R354, R368). -/
structure Die where
  clock : List Nat
  /-- Replicas: lines of other dies held here, newest first (R353). -/
  replicas : List Replica
  idle : Bool
  moved : List Moved
  /-- The clusters of the last 16 requests to each line (R315). -/
  requests : Tbl (List Nat)
  /-- Staging requests that the rubric program has not served: grid, core (R362). -/
  staging : List (Nat × Nat)
  /-- Command streams: ring base, HEAD, the grids launched by entry (R360). -/
  streams : Tbl (List (Nat × Nat))
  rubric : Option Nat
  rubricDigest : List Byte
  /-- What the rubric program has still to write for the entry that it completes: addresses and bytes, in order (R360). -/
  rubricOut : List (Nat × List Byte)
  deriving DecidableEq, Repr

/-- A request that owes its strand a status or a result (R255, R282). -/
inductive Pending where
  /-- A LAUNCH with the elements of its record that have come back, each with its poison, and the requests that its release waits
  for (R282). -/
  | launch (strand d : Nat) (parts : Tbl (List Byte × Bool)) (after : List Nat)
  /-- TLBINV with the accesses and the walks that it waits for (R259). -/
  | tlbinv (strand kind asid vmid : Nat) (va : Nat) (accesses walks : List Nat)
  | swap (strand d core : Nat)
  | ctxsave (strand d bank pa : Nat)
  | ctxload (strand d bank pa : Nat)
  /-- A status that is decided and on its way. -/
  | status (strand d value : Nat)
  deriving DecidableEq, Repr

/-- A saved context as CTXSAVE found it (R263, R265): the request that saved it, its VMID and level, and what its bank held;
element i of context tile c is entry 4,096 c + i, and `offsets` says where a team's areas lay in the bank half. -/
structure Saved where
  pa : Nat
  id : Nat
  old : Nat
  vmid : Nat
  level : Nat
  bank : Bank
  waves : Tbl Wave
  strands : Tbl Strand
  teams : Tbl Team
  tiles : Tbl Word
  tileBad : List Nat
  offsets : Tbl Nat
  watches : List Watch
  deriving DecidableEq, Repr

/-- An error record that has not been delivered to the ring (R366). -/
structure ErrorRec where
  code : Nat
  grid : Nat
  team : Nat
  core : Nat
  lane : Nat
  kind : Nat
  pc : Nat
  va : Nat
  pa : Nat
  time : Dword
  asid : Nat
  relaunches : Nat
  deriving DecidableEq, Repr

/-- A Lute link (R373, R374): up, and how many requests of each direction have been performed in sequence. -/
structure Link where
  up : Bool
  sent : Nat
  received : Nat
  deriving DecidableEq, Repr

/-- The stages of the boot (R378). -/
inductive Boot where
  | off
  | recovery
  | running
  deriving DecidableEq, Repr

/-- Everything that belongs to the package as a whole. -/
structure Device where
  ctxTab : Dword
  errBase : Dword
  nwtBase : Dword
  hbmStat : Tbl Dword
  /-- Level-2 writes of ones to HBMSTAT that have not taken effect (R364). -/
  hbmClear : Tbl Dword
  time : Dword
  power : Nat
  stopped : Bool
  errors : List ErrorRec
  dropped : Nat
  links : Tbl Link
  contexts : Tbl Context
  saved : List Saved
  boot : Boot
  /-- The rubric program that the last BOOT was given, with its signature and the address of its streams' table (R360, R378). -/
  rubricImage : Option (Image × List Byte × Dword)
  firmwareDigest : List Byte
  rollback : Nat
  rootKey : List Byte
  ownerKey : Option (List Byte)
  imageDigests : List (List Byte)
  testAccess : Bool
  report : List Byte
  /-- By outside agent, the writes whose updates may not have reached every die: 0 the host, 1 + p the peer on link p,
  16 + q the remote writer of queue pair q, its port times 2^24 plus its number (R371, R374, R377). -/
  outside : Tbl (List Nat)
  /-- The join of the clocks of the dies whose writes have been performed in host or peer memory (R354, R371, R374). -/
  hostClock : List Nat
  nextGrid : Nat
  /-- The management grid in progress (R254). -/
  management : Option Nat
  deriving DecidableEq, Repr

/-! ### The step's own bookkeeping -/

/-- A fault or a choice of the hardware itself that no row of the table stands for (log 41). -/
inductive Upset where
  /-- A stored register word loses a bit (R25). -/
  | register (strand n : Nat)
  /-- The next residue check of the oldest command of a core's engine fails (R228). -/
  | residue (core : Nat)
  /-- A word of tile memory takes an uncorrectable error (R228). -/
  | tile (core pair : Nat)
  /-- A word of a window accumulator takes an uncorrectable error (R245). -/
  | acc (team n word : Nat)
  /-- The WA operations of a core's oldest issue arrive at the core that holds the accumulators (R240). -/
  | waArrive (team core : Nat)
  /-- A bit of memory fails: one bit is corrected and counted, two poison their sector (R352). -/
  | memory (pa : Nat) (double : Bool)
  /-- The next CRC-32C check of a redundant grid's copy fails (R307). -/
  | crc (copy : Nat)
  /-- A line leaves the slice that holds it (R315). -/
  | sliceEvict (line : Nat)
  /-- A line leaves a core's L1 area, its dirty bytes written back (R348). -/
  | l1Evict (core line : Nat)
  /-- A peer module writes its own device memory (R373). -/
  | peer (pa : Nat) (bytes : List Byte)
  deriving DecidableEq, Repr

/-- An entry of the schedule (log 2): an issue of a core, an event of the table, or an upset. An `inner` event comes between
the accesses of one issue (R204). -/
inductive Turn where
  | issue (core : Nat)
  | event (e : Instr)
  | inner (e : Instr)
  | upset (u : Upset)
  deriving DecidableEq, Repr

/-- A lane access to the bank store or the L1 area (R203). -/
structure LaneAccess where
  lane : Nat
  /-- 0 local space, 1 L1 area. -/
  space : Nat
  size : Nat
  /-- The byte offset or virtual address. -/
  addr : Nat
  atomic : Bool
  deriving DecidableEq, Repr

/-- A result that arrives at the end of its issue: strand, request, first register, words with their poison. -/
structure Late where
  strand : Nat
  id : Nat
  d : Nat
  words : List (Word × Bool)
  deriving DecidableEq, Repr

/-- Where a word of the bank store or of an L1 area lies: a team's scratch, a register of a strand, or a core's line. -/
inductive WordAt where
  | scratch (team word : Nat)
  | register (strand n : Nat)
  | l1 (core word : Nat)
  deriving DecidableEq, Repr

/-- A word as it was: its bytes and its poison. -/
structure OldWord where
  at_ : WordAt
  bytes : List Byte
  poison : Bool
  deriving DecidableEq, Repr

/-- The issue in progress (R8, R164): its core, wave, class and number, the strands still to execute, and the lane
accesses made so far for the pass count (R203). -/
structure Issue where
  core : Nat
  wave : Nat
  cls : Nat
  number : Nat
  remaining : List Nat
  accesses : List LaneAccess
  /-- CLOCK as the issue has sampled it (R87). -/
  clock : Option Dword
  /-- Strands whose comparison in redundant mode differed (R270). -/
  differ : List Nat
  /-- Results of register-area loads, which no lane of the issue reads (R125): they arrive at its end. -/
  late : List Late
  /-- Words of the bank store that events between the issue's accesses have overwritten, as they were (R204). -/
  before : List OldWord
  /-- The translations that the issue uses: what the TLBs held at its start, and what its walks have found since (R322). -/
  tlb : List TlbEntry
  /-- Ready strands that do not execute at this issue (R167). -/
  unserved : Nat
  /-- System-register writes of the issue's lanes, which take effect for later issues (R256): strand, number, value. -/
  writes : List (Nat × Nat × Dword)
  deriving DecidableEq, Repr

/-- The lane that `exec` gives an instruction its meaning for: its strand, the bundle's address and length in words,
`word` the address of the instruction word, and the hints (R69). -/
structure Cursor where
  strand : Nat
  bundle : VAddr
  word : VAddr
  hints : Hints
  deriving DecidableEq, Repr

/-- The state of the machine. -/
structure State where
  mem : List Host.Cell
  /-- Poisoned 64-byte sectors of memory, rising (R365). -/
  poison : List Nat
  strands : Tbl Strand
  waves : Tbl Wave
  teams : Tbl Team
  grids : Tbl Grid
  banks : Tbl Bank
  cores : Tbl Core
  clusters : Tbl Cluster
  dies : Tbl Die
  device : Device
  flights : List Flight
  stores : List PendStore
  loads : List Load
  atomics : List Atomic
  watches : List Watch
  updates : List Update
  walks : List Walk
  /-- The park count of each strand place, which the strands of the place share (R258, R331). -/
  parks : Tbl (BitVec 10)
  pending : Tbl Pending
  turns : List Turn
  issue : Option Issue
  cur : Cursor
  nextId : Nat
  freeCount : Nat
  deriving DecidableEq, Repr

/-! ### Reasons to stop -/

/-- Why a step faults. -/
inductive Fault where
  /-- Raised by every instruction that has a word when the lane it is given to is no live strand of a resident wave.
  The step never asks for that: it takes lanes from the census. Safe: the machine has no such step. -/
  | noExecutingStrand
  deriving DecidableEq, Repr

/-- Why a step is refused. -/
inductive Refusal where
  /-- Raised by an arm of `exec` whose instruction has no meaning yet. Safe: nothing can be proved of it. -/
  | notModelled (mnemonic : String)
  deriving DecidableEq, Repr

/-! ### Reset -/

/-- A register that holds 0 with matching parity and no poison (R10). -/
def Reg.zero : Reg := ⟨0, false, false⟩

/-- The tag of a team at placement: disarmed (R293). -/
def CopyTag.off : CopyTag := ⟨0, 0, false, false, 0⟩

/-- A bank that holds no context. PATIENCE, GREED, CHKSB and TRAPBASE are at the resets of R166, R252, R253; MMRMODE
is 0 while there is no context (log 4). -/
def Bank.reset : Bank :=
  { asid := none, patience := 3, greed := 16, chksb := 0, mmrMode := 0, trapBase := 0, tags := [], order := [],
    current := none, run := 0, yielded := false, mxQueue := [], copies := [], grows := [], mapping := 0 }

/-- A core at reset. MXWD is at its reset value (R229); the lane map is the one of a part without fused lanes, whose
register of lane n is n and whose spare reads good and idle (R171, log 4). LMAPn is listed where it differs from n. -/
def Core.reset : Core :=
  { active := 0, lmap := [(64, 0x40)], clock := 0, mxwd := 0x80000400, latch := none, tiles := [], tileBad := [], items := [],
    l1 := [], icache := [], tlb := [], results := [], halted := false, gated := false, held := false, swaps := [],
    mismatches := [], inject := none, issueCount := 0, prio3 := false, woken := false }

/-- A cluster at reset: GATHERWIN 64 (R288), the other registers 0 (R327, R361). -/
def Cluster.reset : Cluster :=
  { gatherWin := 64, fqBase := 0, fqBase2 := 0, scribeEnt := 0, pool := [], pushing := [], records := [],
    scribe := none, scribeStart := false, scribeReady := [], tlb := [], ticks := 0 }

/-- A die at reset: its vector clock is 0 (R354). -/
def Die.reset : Die :=
  { clock := [0, 0, 0, 0], replicas := [], idle := false, moved := [], requests := [], staging := [], streams := [],
    rubric := none, rubricDigest := [], rubricOut := [] }

/-- The device at reset: its registers are 0 (R320, R364, R366, R376); the power state, the fuses and the links are
the model's choices (log 4). -/
def Device.reset : Device :=
  { ctxTab := 0, errBase := 0, nwtBase := 0, hbmStat := [], hbmClear := [], time := 0, power := 0, stopped := false,
    errors := [], dropped := 0, links := [], contexts := [], saved := [], boot := .off, rubricImage := none, firmwareDigest := [],
    rollback := 0, rootKey := [], ownerKey := none, imageDigests := [], testAccess := false, report := [], outside := [],
    hostClock := [0, 0, 0, 0], nextGrid := 1, management := none }

/-- The machine right after reset: no team is resident, no context exists, memory lists nothing. -/
def State.reset : State :=
  { mem := [], poison := [], strands := [], waves := [], teams := [], grids := [], banks := [], cores := [],
    clusters := [], dies := [], device := Device.reset, flights := [], stores := [], loads := [], atomics := [],
    watches := [], updates := [], walks := [], parks := [], pending := [], turns := [], issue := none,
    cur := { strand := 0, bundle := 0, word := 0, hints := {} }, nextId := 1, freeCount := 0 }

end Sys2Proof.Machine
end

