-- ==== Sys2Proof/Machine/Ops.lean ====
section
/-!
DEFINITION. The named operations over tables, memory, registers and the result window, and taking an exception: parking
(R249), entering and leaving the trap handler (R252, R257), rolling a strand back (R25), killing a team and aborting a
grid (R284, R291, R366).
-/

namespace Sys2Proof

/-! ### Tables -/

/-- The entry of key `k`. -/
def Tbl.find {α : Type} : Tbl α → Nat → Option α
  | [], _ => none
  | (j, x) :: t, k => if j = k then some x else Tbl.find t k

/-- The entry of key `k`, or a default where none is listed. -/
def Tbl.get {α : Type} (t : Tbl α) (k : Nat) (d : α) : α := (Tbl.find t k).getD d

/-- The table with entry `k` set, in key order. -/
def Tbl.set {α : Type} : Tbl α → Nat → α → Tbl α
  | [], k, x => [(k, x)]
  | (j, y) :: t, k, x =>
    if k < j then (k, x) :: (j, y) :: t else if j = k then (k, x) :: t else (j, y) :: Tbl.set t k x

/-- The table without entry `k`. -/
def Tbl.drop {α : Type} : Tbl α → Nat → Tbl α
  | [], _ => []
  | (j, y) :: t, k => if j = k then t else (j, y) :: Tbl.drop t k

/-- Changes the entry of key `k` where it is listed. -/
def Tbl.change {α : Type} (t : Tbl α) (k : Nat) (f : α → α) : Tbl α :=
  match Tbl.find t k with
  | some x => Tbl.set t k (f x)
  | none => t

/-- Whether a key is listed. -/
def Tbl.has {α : Type} (t : Tbl α) (k : Nat) : Bool := (Tbl.find t k).isSome

/-- Changes every entry of a table. -/
def Tbl.mapVal {α : Type} (t : Tbl α) (f : Nat → α → α) : Tbl α := t.map fun p => (p.1, f p.1 p.2)

/-- Inserts a number in a rising list without repeats. -/
def insertNat : List Nat → Nat → List Nat
  | [], k => [k]
  | j :: t, k => if k < j then k :: j :: t else if j = k then j :: t else j :: insertNat t k

/-- The list without its repeats, the first of each kept. -/
def dedup : List Nat → List Nat
  | [] => []
  | x :: l => x :: (dedup l).filter (· ≠ x)

end Sys2Proof

namespace Sys2Proof.Machine

/-! ### Memory: one canonical list of bytes -/

/-- What a byte that nothing has written reads as (log 3). -/
def emptyByte : Byte := 0

/-- The canonical form: addresses strictly rising, no entry equal to what an unlisted address reads as. -/
def Memory.wf : List Host.Cell → Bool
  | [] => true
  | (a, b) :: m => b ≠ emptyByte && (match m with | [] => true | (a', _) :: _ => decide (a < a')) && Memory.wf m

/-- One byte of memory. -/
def Memory.read : List Host.Cell → Nat → Byte
  | [], _ => emptyByte
  | (j, b) :: m, a => if j = a then b else Memory.read m a

/-- The memory without an entry for address `a`. -/
def Memory.erase : List Host.Cell → Nat → List Host.Cell
  | [], _ => []
  | (j, b) :: m, a => if j = a then m else if a < j then (j, b) :: m else (j, b) :: Memory.erase m a

/-- The memory with a listed byte at address `a`. -/
def Memory.insert : List Host.Cell → Nat → Byte → List Host.Cell
  | [], a, x => [(a, x)]
  | (j, b) :: m, a, x =>
    if a < j then (a, x) :: (j, b) :: m else if j = a then (a, x) :: m else (j, b) :: Memory.insert m a x

/-- Writes one byte, keeping the canonical form. -/
def Memory.write (m : List Host.Cell) (a : Nat) (x : Byte) : List Host.Cell :=
  if x = emptyByte then Memory.erase m a else Memory.insert m a x

/-- Writes bytes, the first entry first. -/
def Memory.writeAll : List Host.Cell → List Host.Cell → List Host.Cell
  | m, [] => m
  | m, (a, x) :: l => Memory.writeAll (Memory.write m a x) l

/-- The two aliases of host memory name one byte (R370); every other address names its own. -/
def memKey (pa : Nat) : Nat := if pa < 2 ^ 51 then pa else 2 ^ 51 + pa % 2 ^ 50

/-! ### Little-endian values (R29) -/

/-- The number whose bytes are listed lowest first. -/
def fromBytes : List Byte → Nat
  | [] => 0
  | b :: l => b.toNat + 256 * fromBytes l

/-- The `n` low bytes of a number, lowest first. -/
def toBytes : Nat → Nat → List Byte
  | 0, _ => []
  | n + 1, x => BitVec.ofNat 8 x :: toBytes n (x / 256)

/-- Addresses `a`, `a + 1`, ... paired with bytes. -/
def place (a : Nat) : List Byte → List Host.Cell
  | [] => []
  | b :: l => (a, b) :: place (a + 1) l

/-- `n` addresses from `a`. -/
def span (a n : Nat) : List Nat := (List.range n).map (a + ·)

/-! ### Numbers of objects -/

def bankNo (core bank : Nat) : Nat := core * 2 + bank
def waveNo (bank slot : Nat) : Nat := bank * 33 + slot
def strandNo (wave lane : Nat) : Nat := wave * 64 + lane
def strandWave (k : Nat) : Nat := k / 64
def strandLane (k : Nat) : Nat := k % 64
def waveBank (w : Nat) : Nat := w / 33
def waveSlot (w : Nat) : Nat := w % 33
/-- The core of a bank number; numbers from 1,024 are the scribe slots (R328). -/
def bankCore (b : Nat) : Nat := if b < 1024 then b / 2 else b - 1024
def scribeBank (core : Nat) : Nat := 1024 + core
def bankIndex (b : Nat) : Nat := b % 2
def coreCluster (c : Nat) : Nat := c / 8
def coreDie (c : Nat) : Nat := c / 128
def strandCore (k : Nat) : Nat := bankCore (waveBank (strandWave k))
/-- The die of a cluster's cores. -/
def clusterDie (c : Nat) : Nat := c / 16

/-! ### Access to the tables of the state -/

/-- The strand's own core, bank, cluster and die; what is not listed is as at reset. -/
def State.core (s : State) (c : Nat) : Core := s.cores.get c Core.reset
def State.bank (s : State) (b : Nat) : Bank := s.banks.get b Bank.reset
def State.cluster (s : State) (c : Nat) : Cluster := s.clusters.get c Cluster.reset
def State.die (s : State) (d : Nat) : Die := s.dies.get d Die.reset
def State.setCore (s : State) (c : Nat) (x : Core) : State := { s with cores := s.cores.set c x }
def State.setBank (s : State) (b : Nat) (x : Bank) : State := { s with banks := s.banks.set b x }
def State.setCluster (s : State) (c : Nat) (x : Cluster) : State := { s with clusters := s.clusters.set c x }
def State.setDie (s : State) (d : Nat) (x : Die) : State := { s with dies := s.dies.set d x }
def State.setStrand (s : State) (k : Nat) (x : Strand) : State := { s with strands := s.strands.set k x }
def State.setWave (s : State) (w : Nat) (x : Wave) : State := { s with waves := s.waves.set w x }
def State.setTeam (s : State) (t : Nat) (x : Team) : State := { s with teams := s.teams.set t x }
def State.setGrid (s : State) (g : Nat) (x : Grid) : State := { s with grids := s.grids.set g x }
def State.setDevice (s : State) (d : Device) : State := { s with device := d }
def State.modCore (s : State) (c : Nat) (f : Core → Core) : State := s.setCore c (f (s.core c))
def State.modBank (s : State) (b : Nat) (f : Bank → Bank) : State := s.setBank b (f (s.bank b))
def State.modCluster (s : State) (c : Nat) (f : Cluster → Cluster) : State := s.setCluster c (f (s.cluster c))
def State.modDie (s : State) (d : Nat) (f : Die → Die) : State := s.setDie d (f (s.die d))
def State.modStrand (s : State) (k : Nat) (f : Strand → Strand) : State := { s with strands := s.strands.change k f }
def State.modWave (s : State) (w : Nat) (f : Wave → Wave) : State := { s with waves := s.waves.change w f }
def State.modTeam (s : State) (t : Nat) (f : Team → Team) : State := { s with teams := s.teams.change t f }
def State.modGrid (s : State) (g : Nat) (f : Grid → Grid) : State := { s with grids := s.grids.change g f }

/-- A fresh request number. -/
def State.fresh (s : State) : Nat × State := (s.nextId, { s with nextId := s.nextId + 1 })

/-- The number that the next free value is applied to, and the state that has used it (log 8, log 12). -/
def State.free (s : State) : Nat × State := (s.freeCount, { s with freeCount := s.freeCount + 1 })

/-! ### Registers and the window -/

/-- The parity bit that belongs to a value: 1 when its number of ones is odd (R25). -/
def parity (x : Word) : Bool := (List.range 32).foldl (fun p i => p != x.getLsbD i) false

/-- A register that a clean write leaves (R10, R13, R25). -/
def Reg.of (x : Word) (poison : Bool) : Reg := ⟨x, parity x, poison⟩

/-- The names v0 to v7 of a strand In handler are the handler registers (R252). -/
def Strand.reg (st : Strand) (n : Nat) : Reg :=
  match st.handler with
  | some f => if n < 8 then f.hregs.get n Reg.zero else st.regs.get n Reg.zero
  | none => st.regs.get n Reg.zero

/-- A list of register numbers without one. -/
def without (l : List Nat) (n : Nat) : List Nat := l.filter (· ≠ n)

/-- Writes a register in the bank, or a handler register (R252). The write ends the mark of an earlier parity error in it, in the
handler's region and, for a register that the handler shares, in the interrupted one (R25). -/
def Strand.setReg (st : Strand) (n : Nat) (r : Reg) : Strand :=
  let st := { st with parityErrors := without st.parityErrors n }
  match st.handler with
  | some f => if n < 8 then { st with handler := some { f with hregs := f.hregs.set n r } }
              else { st with regs := st.regs.set n r, handler := some { f with parityErrors := without f.parityErrors n } }
  | none => { st with regs := st.regs.set n r }

/-- Writes a predicate in the bank; p0 is not writable (R10). -/
def Strand.setPred (st : Strand) (n : Nat) (x : Bool) : Strand :=
  if n = 0 then st
  else { st with preds := if x then st.preds ||| (BitVec.ofNat 8 (2 ^ n)) else st.preds &&& ~~~ (BitVec.ofNat 8 (2 ^ n)) }

/-- Writes a window entry's value to the bank. -/
def Strand.commit (st : Strand) (e : Went) : Strand :=
  match e.dst with
  | .v n => st.setReg n (Reg.of e.val e.poison)
  | .p n => st.setPred n (e.val.getLsbD 0)

/-- A visible entry has arrived and stands at least its latency away (R17). -/
def Went.visible (e : Went) : Bool := e.tag.isNone && decide (e.lat ≤ e.age)

/-- The entries to keep, newest first, the entries to commit, newest first, and the destinations of transients that
leave the window with no newer write (R18, R20). `all` makes every arrived entry visible, as a drain does (R21). -/
def settleWindow (all : Bool) : List Went → List Dst → List Dst → List Went × List Went × List Dst
  | [], _, _ => ([], [], [])
  | e :: w, done, newer =>
    if done.contains e.dst then settleWindow all w done newer
    else if e.transient then
      if all || decide (8 < e.age) then
        let (k, c, l) := settleWindow all w done (e.dst :: newer)
        (k, c, if newer.contains e.dst then l else e.dst :: l)
      else
        let (k, c, l) := settleWindow all w done (e.dst :: newer)
        (e :: k, c, l)
    else if e.visible || (all && e.tag.isNone) then
      let (k, c, l) := settleWindow all w (e.dst :: done) (e.dst :: newer)
      (k, e :: c, l)
    else
      let (k, c, l) := settleWindow all w done (e.dst :: newer)
      (e :: k, c, l)

/-- Moves visible results to the bank and drops transients past the window (R17, R18, R20). -/
def Strand.settle (st : Strand) (all : Bool) : Strand :=
  let (keep, commits, lost) := settleWindow all st.window [] []
  { (commits.foldl Strand.commit st) with window := keep, lost := st.lost ++ lost }

/-- The strand after `n` more counts: every entry stands `n` farther away (R16). -/
def Strand.tick (st : Strand) (n : Nat) : Strand :=
  { st with count := st.count + n
            window := st.window.map fun (e : Went) => { e with age := e.age + n } }.settle false

/-- A drain of the results that have arrived (R21). -/
def Strand.drain (st : Strand) : Strand := st.settle true

/-- Every result in the window has arrived, so that a drain leaves none behind (R21). -/
def Strand.drained (st : Strand) : Bool := st.window.all (·.tag.isNone)

/-- Starts an idempotent region at an address (R24). Its drain waits for the results that have not arrived (R21). -/
def Strand.startRegion (st : Strand) (pc : VAddr) : Strand :=
  let st := st.drain
  { st with regionPc := pc, regionCount := st.count, parityErrors := [], draining := !st.drained }

/-- Adds a write to the window as its newest entry; what a handler writes is noted for TRAPRET (R22). DESIGN CHOICE (log 48): a
transient write of a handler is a write, so that the frozen entry of its register is discarded. -/
def Strand.push (st : Strand) (e : Went) : Strand :=
  let st := match st.handler, e.dst with
    | some f, .v n => if n < 8 then st else { st with handler := some { f with wrote := f.wrote ++ [e.dst] } }
    | some f, .p _ => { st with handler := some { f with wrote := f.wrote ++ [e.dst] } }
    | none, _ => st
  { st with window := e :: st.window, lost := st.lost.filter (· ≠ e.dst) }

/-- What a read of a destination finds in the window, newest first (R17, R18, R20). -/
inductive Seen where
  /-- No visible entry: the bank's contents. -/
  | bank
  | value (x : Word) (poison : Bool)
  /-- The value the read would obtain has not arrived (R17). -/
  | pending
  deriving DecidableEq, Repr

def seen : List Went → Dst → Seen
  | [], _ => .bank
  | e :: w, d =>
    if e.dst = d then
      if e.tag.isSome then .pending
      else if e.lat ≤ e.age ∧ (e.transient = false ∨ e.age ≤ 8) then .value e.val e.poison
      else seen w d
    else seen w d

/-- The frame of a handler that shares a destination with the interrupted strand and has not written it (R22, R252). -/
def Strand.frameFor (st : Strand) (d : Dst) : Option Frame :=
  st.handler.bind fun f =>
    if (match d with | .v n => decide (8 ≤ n) | .p _ => true) && !f.wrote.contains d then some f else none

/-- In a handler, a destination whose interrupted write has not arrived interlocks (R17, R22). -/
def Strand.frozenPending (st : Strand) (d : Dst) : Bool :=
  (st.frameFor d).any fun f => f.frozen.any fun e => decide (e.dst = d) && e.tag.isSome

/-- Whether a read of a destination would obtain another value than the latest write in program order (R19). That write may
stand in the frozen window, of which a handler sees nothing (R22). -/
def stale (st : Strand) (d : Dst) : Bool :=
  st.lost.contains d ||
    match st.window.find? (fun e => e.dst = d) with
    | some e => e.tag.isNone && decide (e.age < e.lat)
    | none => (st.frameFor d).any fun f =>
        f.lost.contains d || (f.frozen.find? fun e => decide (e.dst = d)).any (·.tag.isNone)

/-- The result of request `id` arrives at its window entry, in the window or in the frozen one (R18, R22). -/
def arrive (id : Nat) (x : Word) (poison : Bool) (d : Dst) (e : Went) : Went :=
  if e.tag = some id ∧ e.dst = d then { e with val := x, poison := poison, tag := none, lat := 0 } else e

/-- A result that has arrived in the frozen window is visible, as it would be had the trap come later (R17, R22): it goes to the
strand's own register, unless the handler has written that. -/
def Strand.settleFrozen (st : Strand) : Strand :=
  match st.handler with
  | none => st
  | some f =>
    let (keep, commits, lost) := settleWindow false f.frozen [] []
    let own := (commits.filter fun e => !f.wrote.contains e.dst).foldl Strand.commit
      { st with handler := none, parityErrors := f.parityErrors }
    { own with handler := some { f with frozen := keep, lost := f.lost ++ lost, parityErrors := own.parityErrors }
               parityErrors := st.parityErrors }

def Strand.arrive (st : Strand) (id : Nat) (d : Dst) (x : Word) (poison : Bool) : Strand :=
  let st := ({ st with
    window := st.window.map (Machine.arrive id x poison d)
    handler := st.handler.map fun (f : Frame) => { f with frozen := f.frozen.map (Machine.arrive id x poison d) } }.settle
      st.draining).settleFrozen
  { st with draining := st.draining && !st.drained }

/-! ### Faults -/

/-- The fault codes of R249. -/
def FETCH : Nat := 0x01
def ILLOP : Nat := 0x02
def BUDGET : Nat := 0x03
def STALE : Nat := 0x04
def GRPOUT : Nat := 0x05
def GRPMIX : Nat := 0x06
def OOR : Nat := 0x07
def XLATE : Nat := 0x08
def TRAPCODE : Nat := 0x09
def BRKCODE : Nat := 0x0A
def POISON : Nat := 0x10
def MXCHK : Nat := 0x11
def MXRESET : Nat := 0x12
def PARITY : Nat := 0x13
def MISMATCH : Nat := 0x14
def TAGOVER : Nat := 0x15
def DBLFAULT : Nat := 0x18
def NOPLACE : Nat := 0x19
def WALKERR : Nat := 0x20
def THERM : Nat := 0x21
def LINKDOWN : Nat := 0x22
def NETERR : Nat := 0x23

/-- How an instruction of a lane stops short of its effect. -/
inductive Stop where
  /-- A per-lane fault with its code, ARG and FAULTVA (R249, R251). -/
  | fault (code arg : Nat) (va : Dword)
  /-- A translation or fetch fault, which parks the lane: code, FAULTVA, and what the fault record says: kind, reason,
  stage, level of the refusing descriptor, IPA (R326). -/
  | park (code : Nat) (va : Nat) (kind reason stage level ipa vmid : Nat)
  /-- WALKERR (R319). -/
  | walkErr
  /-- Consumption of a poisoned value (R13), with the sector's address where it is known. -/
  | poison
  /-- A parity error in register n (R25). -/
  | parity (n : Nat)
  /-- The lane is not ready: it stays where it is (R26). -/
  | hold
  /-- The lane waits for the walk of an address (R322). -/
  | walk (va : Nat)
  deriving DecidableEq, Repr

/-- The effect of an instruction on a lane, or how it stops. -/
abbrev Act (α : Type) := Except Stop α

def illop {α : Type} : Act α := .error (.fault ILLOP 0 0)
def oor {α : Type} : Act α := .error (.fault OOR 0 0)

/-- The order in which the stops of one lane at one instruction are decided (R250, R128): an interlock keeps the lane from
issuing at all, the faults follow by their codes, and the consumption of poison comes last. -/
def Stop.rank : Stop → Nat
  | .hold => 0
  | .parity _ => 1
  | .fault code _ _ => 2 + code
  | .park code .. => 2 + code
  | .walk _ => 2 + XLATE
  | .walkErr => 2 + XLATE
  | .poison => 100

/-- Two parts of an instruction that are decided together: the stop that comes first in R250 is taken. -/
def both {α β : Type} (x : Act α) (y : Act β) : Act (α × β) :=
  match x, y with
  | .ok a, .ok b => .ok (a, b)
  | .error p, .ok _ => .error p
  | .ok _, .error q => .error q
  | .error p, .error q => .error (if q.rank < p.rank then q else p)

/-- A check whose failure is a stop. -/
def require (c : Bool) (x : Stop) : Act Unit := if c then .ok () else .error x

/-! ### Records of faults and errors -/

/-- Writes bytes at physical addresses. -/
def State.pokeAll (s : State) (l : List Host.Cell) : State :=
  { s with mem := Memory.writeAll s.mem (l.map fun c => (memKey c.1, c.2)) }
def State.poke (s : State) (pa : Nat) (l : List Byte) : State := s.pokeAll (place pa l)
/-- Reads bytes at physical addresses. -/
def State.peek (s : State) (pa n : Nat) : List Byte := (span pa n).map fun a => Memory.read s.mem (memKey a)
def State.peekNum (s : State) (pa n : Nat) : Nat := fromBytes (s.peek pa n)

/-- A strand of a core has become Ready outside the list of R178: a gated core is told. -/
def State.rouse (s : State) (core : Nat) : State :=
  if (s.core core).gated then s.modCore core fun c => { c with woken := true } else s

/-- A wake event of R178 reaches a core: a gated core is told, and SLEEP ends in the strands of its active bank and of
its scribe slot (R260). -/
def State.wake (s : State) (core : Nat) : State :=
  let b := bankNo core (s.core core).active
  let s := { s with strands := s.strands.mapVal fun k (st : Strand) =>
    if st.life = Life.blocked Block.sleep && strandCore k = core
        && (waveBank (strandWave k) = b || decide (1024 ≤ waveBank (strandWave k))) then
      { st with life := .ready, wait := 0 }
    else st }
  s.rouse core

/-- A write reaches watched lines: their watches have seen it, and their cores are woken (R135, R178). -/
def State.wakeWatches (s : State) (p : Watch → Bool) : State :=
  let hit := s.watches.filter p
  let s := { s with watches := s.watches.map fun (w : Watch) => if p w then { w with written := true } else w }
  (dedup (hit.map fun w => strandCore w.strand)).foldl State.wake s

/-! ### Lines, sectors and the writes that every die sees at once -/

def lineOf (pa : Nat) : Nat := pa / 256
def sectorOf (pa : Nat) : Nat := pa / 64

/-- A write to a line of global memory is seen by the watches of WAITLINE and of the walks that wait for a lock
(R135, R325). -/
def State.wakeLine (s : State) (pa : Nat) : State :=
  let l := memKey pa / 256
  let s := s.wakeWatches fun w => !w.isLocal && w.line = l
  { s with walks := s.walks.map fun (w : Walk) => if w.locked = some l then { w with written := true } else w }

/-- Poisons the 64-byte sector of an address, and cleans it (R365). -/
def State.poisonSector (s : State) (pa : Nat) : State := { s with poison := insertNat s.poison (sectorOf (memKey pa)) }
def State.cleanSector (s : State) (pa : Nat) : State :=
  { s with poison := s.poison.filter (· ≠ sectorOf (memKey pa)) }
def State.poisonedAt (s : State) (pa : Nat) : Bool := s.poison.contains (sectorOf (memKey pa))

/-- The sectors that a run of bytes covers wholly. -/
def coveredSectors (pa n : Nat) : List Nat :=
  ((List.range ((n + 63) / 64 + 1)).map fun k => sectorOf pa + k).filter fun k => pa ≤ k * 64 && k * 64 + 64 ≤ pa + n

/-- Cleans the sectors that one write covers wholly (R365). -/
def State.cleanCovered (s : State) (pa n : Nat) : State :=
  (coveredSectors pa n).foldl (fun s k => s.cleanSector (k * 64)) s

/-- A line's bytes with other bytes of the same line over them; a sector that they cover wholly is clean. -/
def Replica.overlay (r : Replica) (cells : List Host.Cell) : Replica :=
  let mine := cells.filter fun c => lineOf c.1 = r.line
  { r with bytes := mine.foldl (fun t c => if t.has (c.1 % 256) then t.set (c.1 % 256) c.2 else t) r.bytes
           poison := r.poison.filter fun k =>
             !((List.range 64).all fun b => mine.any fun c => c.1 % 256 = k * 64 + b) }

/-- A write of the hardware's own, at the address of a ring or of a save area, which every die sees at once: it takes its
place in coherence order behind every write that has been performed (R263, R327, R366, log 42). -/
def State.writeEverywhere (s : State) (pa : Nat) (bytes : List Byte) : State :=
  let cells := place pa bytes
  let s := (s.poke pa bytes).cleanCovered pa bytes.length
  let s := { s with
    dies := s.dies.mapVal fun _ (d : Die) => { d with replicas := d.replicas.map fun r => r.overlay cells }
    updates := s.updates.map fun (u : Update) =>
      { u with bytes := u.bytes.filter fun c => !(decide (pa ≤ c.1) && decide (c.1 < pa + bytes.length)) } }
  (dedup (cells.map fun c => lineOf c.1)).foldl (fun s l => s.wakeLine (l * 256)) s

/-! ### Lines that copies own (R305) -/

def Copy.owns (c : Copy) (line : Nat) : Bool := c.owned.any (·.1 = line)

/-- A copy that owns the line and has not finished it. -/
def State.ownedByCopy (s : State) (line : Nat) : Bool := s.banks.any fun p => p.2.copies.any (·.owns line)

/-- A copy owns some line of a run of bytes. -/
def State.runOwned (s : State) (pa n : Nat) : Bool :=
  (List.range (lineOf (pa + n - 1) + 1 - lineOf pa)).any fun k => s.ownedByCopy (lineOf pa + k)

/-- A ring of R327: base, Q from its register; 0 where the register places none. -/
def ringBase (reg : Dword) : Nat := fld reg.toNat 12 40 * 4096
def ringSize (reg : Dword) : Nat := 2 ^ (fld reg.toNat 0 4 + 6)

/-- Writes a record at TAIL and then advances TAIL, when the ring has space (R327) and no copy owns a line of it (R305): whoever
sees the new TAIL sees the record. -/
def State.ringPut (s : State) (reg : Dword) (record : List Byte) : Option State :=
  let b := ringBase reg
  if b = 0 then none
  else
    let head := s.peekNum b 8
    let tail := s.peekNum (b + 256) 8
    let at' := b + 512 + 64 * (tail % ringSize reg)
    if tail - head < ringSize reg ∧ !s.runOwned b 512 ∧ !s.runOwned at' 64 then
      some ((s.writeEverywhere at' record).writeEverywhere (b + 256) (toBytes 8 (tail + 1)))
    else none

/-- The 64 bytes of an error record (R366), with the count of records dropped since the last. -/
def ErrorRec.bytes (r : ErrorRec) (dropped : Nat) : List Byte :=
  toBytes 4 r.code ++ toBytes 4 r.grid ++ toBytes 4 r.team ++ toBytes 2 r.core ++ toBytes 1 r.lane ++ toBytes 1 r.kind
    ++ toBytes 8 r.pc ++ toBytes 8 r.va ++ toBytes 8 r.pa ++ toBytes 8 r.time.toNat ++ toBytes 2 r.asid
    ++ toBytes 1 r.relaunches ++ toBytes 2 (min dropped 65535) ++ toBytes 11 0

/-- Delivers the held error records in order while the ring has space (R366). -/
def State.flushErrors (s : State) : List ErrorRec → State
  | [] => { s with device := { s.device with errors := [] } }
  | r :: l =>
    match s.ringPut s.device.errBase (r.bytes s.device.dropped) with
    | some s' => { s' with device := { s'.device with dropped := 0 } }.flushErrors l
    | none => { s with device := { s.device with errors := r :: l } }

/-- Delivers what the ring has space for. -/
def State.flushHeld (s : State) : State := s.flushErrors s.device.errors

/-- Writes an error record (R366): to the ring, or held; beyond 64 held records it is counted as dropped. The time is a
free value (log 8). -/
def State.errorRecord (s : State) (r : ErrorRec) : State :=
  let (n, s) := s.free
  let time := s.device.time + (Config.freeTime n).setWidth 64
  let s := { s with device := { s.device with time := time } }
  let s := s.flushHeld
  if s.device.errors.length < Config.heldErrors then
    s.flushErrors (s.device.errors ++ [{ r with time := time }])
  else { s with device := { s.device with dropped := s.device.dropped + 1 } }

/-! ### The death of teams and grids -/

/-- The strands of a list of waves that are listed in the table. -/
def State.strandsOf (s : State) (waves : List Nat) : List Nat :=
  (s.strands.map (·.1)).filter fun k => waves.contains (strandWave k)

/-- The strand for which a walk is made: of a table read the first lane of the wave; a copy has none (R322). -/
def Walker.strand : Walker → Option Nat
  | .lanes k _ | .fetch k | .line k => some k
  | .table w => some (strandNo w 0)
  | .record _ k | .prefetch k _ _ _ => some k
  | .copy _ | .system _ => none

/-- Removes a team's waves, strands, engine commands and outstanding accesses, and frees its places, tiles and tags
(R231, R246, R291, R308). Copies stop at their next block; landed bytes stay (R308). Stores that are on their way are
performed, a release that still waits is not. An atomic or a copy's write that has left for another die has its place in the order of
its die's writes: it is performed there and tells nobody (R354). A matrix command that had begun releases the latched A, which is not that of the
command before it (R219). -/
def State.dropTeam (s : State) (t : Nat) : State :=
  match s.teams.find t with
  | none => s
  | some team =>
    let mine := fun (k : Nat) => team.waves.contains (strandWave k)
    let left := s.banks.flatMap fun p => (p.2.copies.filter (·.team = t)).flatMap fun c =>
      (c.writes.filter fun w => w.stamp.isSome).map fun w => (strandCore c.strand, w)
    let s := { s with
      nextId := s.nextId + left.length
      flights := s.flights ++ left.zipIdx.map fun (p : (Nat × CopyWrite) × Nat) =>
        ({ id := s.nextId + p.2, core := p.1.1, bank := none, bytes := p.1.2.cells, exposes := none, stamp := p.1.2.stamp
           single := false } : Flight)
      strands := s.strands.filter fun p => !mine p.1
      waves := s.waves.filter fun p => !team.waves.contains p.1
      loads := s.loads.filter fun l => !mine l.strand
      atomics := s.atomics.filterMap fun (a : Atomic) =>
        if !mine a.strand then some a
        else if a.stamp.isSome && a.done.isNone then some { a with orphan := true } else none
      stores := s.stores.filter fun r => !(r.release && r.strands.any mine)
      watches := s.watches.filter fun w => !mine w.strand
      walks := s.walks.filter fun w => match w.who with
        | .copy id => !(s.banks.any fun p => p.2.copies.any fun c => c.id = id && c.team = t)
        | who => !(who.strand.any mine)
      pending := s.pending.filter fun p => match p.2 with
        | .launch k _ _ _ | .tlbinv k _ _ _ _ _ _ | .swap k _ _ | .ctxsave k _ _ _ | .ctxload k _ _ _ | .status k _ _ => !mine k
      issue := s.issue.map fun (i : Issue) =>
        { i with remaining := i.remaining.filter fun k => !mine k, differ := i.differ.filter fun k => !mine k,
                 late := i.late.filter fun l => !mine l.strand }
      cores := s.cores.mapVal fun c (x : Core) =>
        let begun := [bankNo c 0, bankNo c 1].any fun b => (s.bank b).mxQueue.head?.any fun (y : MxEntry) => y.team = t && decide (0 < y.progress)
        { x with results := x.results.filter fun r => !mine r.strand, latch := if begun then none else x.latch }
      clusters := s.clusters.mapVal fun _ x => { x with pushing := x.pushing.filter fun p => !mine p.1 } }
    { s with banks := s.banks.mapVal fun b x =>
        { x with
          mxQueue := x.mxQueue.filter (·.team ≠ t)
          copies := x.copies.filter (·.team ≠ t)
          order := x.order.filter fun p => !team.waves.contains p.wave
          current := x.current.filter fun w => !team.waves.contains w
          grows := x.grows.filter fun w => !team.waves.contains w
          tags := if b = team.bank then x.tags.filter (fun p => !team.tags.contains p.1) else x.tags } }

/-- The tile mapping of a bank is released with the last team that holds tiles (R209). -/
def State.releaseMapping (s : State) (b : Nat) : State :=
  if s.teams.any (fun p => p.2.bank = b && !p.2.waiting && !p.2.tiles.isEmpty) then s
  else s.modBank b fun x => { x with mapping := 0 }

/-- A bank that holds no wave holds no context (R159, R284). DESIGN CHOICE (log 4): its PATIENCE and GREED stay as they are for
the next context. -/
def State.releaseBank (s : State) (b : Nat) : State :=
  if s.waves.any (fun p => waveBank p.1 = b && waveSlot p.1 < 32) then s
  else if s.teams.any (fun p => p.2.bank = b && !p.2.waiting) then s
  else s.modBank b fun x => { x with asid := none, trapBase := 0, mmrMode := 0 }

def State.releaseBanks (s : State) (banks : List Nat) : State :=
  banks.foldl (fun s b => (s.releaseMapping b).releaseBank b) s

/-- The banks in which a team has something: the one of its areas and those of its waves (R275, R276). -/
def Team.banks (t : Team) : List Nat := dedup (t.bank :: t.waves.map waveBank)

/-- A blank error record. -/
def ErrorRec.blank : ErrorRec :=
  { code := 0, grid := 0, team := 0, core := 0, lane := 0xFF, kind := 0, pc := 0, va := 0, pa := 0, time := 0, asid := 0,
    relaunches := 0 }

/-- The level of a grid's strands (R254). -/
def State.gridLevel (s : State) (g : Nat) : Nat := ((s.grids.find g).map fun (x : Grid) => x.level).getD 0
/-- A grid's ASID. -/
def State.gridAsid (s : State) (g : Nat) : Nat := ((s.grids.find g).map fun (x : Grid) => x.asid).getD 0

/-- The grids below a grid, itself included, with fuel for the nesting depth of R3. -/
def State.descendants (s : State) : Nat → List Nat → List Nat
  | 0, l => l
  | n + 1, l =>
    let more := (s.grids.filter fun p =>
      (match p.2.parentGrid with | some g => l.contains g | none => false) && !l.contains p.1).map (·.1)
    if more.isEmpty then l else s.descendants n (l ++ more)

/-- Aborts a grid with a code and every descendant grid: their teams die and no task of them remains (R284). The grids
retire with the code as their status, the descendants first, after the stores that are still held back. Each grid that aborts
writes its error record (R366); that of a descendant names no lane. -/
def State.abortGrid (s : State) (g code : Nat) (r : ErrorRec) : State :=
  let all := s.descendants 12 [g]
  let dead := (s.teams.filter fun p => all.contains p.2.grid).map (·.1)
  let banks := dedup (dead.flatMap fun t => ((s.teams.find t).map Team.banks).getD [])
  let fresh := all.reverse.filter fun h => (s.grids.find h).any fun x => decide (x.status = 0) && !x.retired
  let waves := fun (h : Nat) => (s.teams.filter fun p => p.2.grid = h).flatMap fun p => p.2.waves
  let held := fun (h : Nat) =>
    (s.stores.filter fun r => !r.release && r.strands.any fun k => (waves h).contains (strandWave k)).map (·.id)
  let s := dead.foldl (fun s t => s.dropTeam t) s
  let s := { s with teams := s.teams.filter fun p => !dead.contains p.1 }
  let s := { s with
    clusters := s.clusters.mapVal fun _ x => { x with pool := x.pool.filter fun t => !all.contains t.grid }
    cores := s.cores.mapVal fun _ x => { x with items := x.items.filter fun t => !all.contains t.grid }
    grids := s.grids.mapVal fun h x =>
      if all.contains h && x.status = 0 && !x.retired then
        { x with status := code, nextTeam := x.launch.teams, retiredTeams := x.teamCount, stores := x.stores ++ held h }
      else x }
  let s := s.releaseBanks banks
  fresh.foldl (fun s h => s.errorRecord
    { (if h = g then r else ErrorRec.blank) with code := code, grid := h, kind := 1, asid := s.gridAsid h }) s

/-- Kills a team (R249, R291): uncommitted stores are dropped; a contained team that is not exposed and was relaunched
fewer than three times waits to be placed again with its TEAMID, a MISMATCH or PARITY one on its own core (R269); any
other team's grid aborts. -/
def State.killTeam (s : State) (t code : Nat) (r : ErrorRec) : State :=
  match s.teams.find t with
  | none => s
  | some team =>
    let r := { r with code := code, grid := team.grid, team := team.teamId,
                      asid := ((s.grids.find team.grid).map fun (x : Grid) => x.asid).getD 0, relaunches := team.relaunches }
    if team.contained && !team.exposed && decide (team.relaunches < 3) then
      let s := s.dropTeam t
      let s := s.setTeam t { team with
        waves := [], scratch := [], poisonWords := [], accs := [], waOps := [], barriers := [], tiles := [], tags := [], buffer := []
        relaunches := team.relaunches + 1, waiting := true, killed := code
        sameCore := if code = MISMATCH || (code = PARITY && team.redundant) then some (bankCore team.bank) else none
        avoid := some (coreCluster (bankCore team.bank)) }
      (s.releaseBanks team.banks).errorRecord { r with relaunches := team.relaunches + 1 }
    else s.abortGrid team.grid code r

/-! ### Taking an exception and returning from one -/

/-- The FAULTCODE value of R251. -/
def faultWord (lane arg code : Nat) : Word := .ofNat 32 (lane % 64 * 65536 + arg % 256 * 256 + code % 256)

/-- Whether the SFU or the conversion queue still holds a result of a strand (R111, R112). -/
def State.queued (s : State) (k : Nat) : Bool :=
  (s.core (strandCore k)).results.any fun r => r.strand = k && r.unit ≠ 0

/-- The strand as it stands at its handler's first instruction (R22, R24, R252): the window is frozen, the handler
registers are loaded, the pc is TRAPBASE, and a region begins there. -/
def Strand.enterHandler (st : Strand) (trapBase : VAddr) (lane : Nat) (code : Word) (pc va : Dword) (again skip : VAddr)
    (brk : Bool) : Strand :=
  let regs : Tbl Reg :=
    [(0, Reg.of code false), (1, Reg.of (.ofNat 32 lane) false),
     (2, Reg.of (pc.setWidth 32) false), (3, Reg.of ((pc >>> 32).setWidth 32) false),
     (4, Reg.of (va.setWidth 32) false), (5, Reg.of ((va >>> 32).setWidth 32) false),
     (6, Reg.zero), (7, Reg.zero)]
  { st with
    handler := some { frozen := st.window, lost := st.lost, regionPc := st.regionPc,
                      regionCount := st.regionCount, parityErrors := st.parityErrors, hregs := regs, wrote := [], again := again, skip := skip, brk := brk }
    window := [], draining := false, handles := none, solo := false, lost := [], parityErrors := [], regionPc := trapBase
    regionCount := st.count, pc := trapBase
    life := .ready,
    faultCode := code, faultPc := pc, faultVa := va, wait := 0 }

/-- TRAPRET (R22, R257): the handler's window is drained, the frozen window comes back without the entries whose
register the handler wrote, the names v0 to v7 return to the strand, and the strand goes on at `pc` in its region. A
register whose latest write was a transient of the handler stays marked (R19); one with a parity error that the drain writes is
not marked any more (R25). -/
def Strand.leaveHandler (st : Strand) (f : Frame) (pc : VAddr) : Strand :=
  let st := st.drain
  let own := st.lost.filter fun d => match d with | .v n => 8 ≤ n | .p _ => true
  { st with
    handler := none, window := f.frozen.filter fun e => !(f.wrote.contains e.dst)
    lost := f.lost.filter (fun d => !(f.wrote.contains d)) ++ own
    regionPc := f.regionPc, regionCount := f.regionCount
    parityErrors := (st.handler.map fun (g : Frame) => g.parityErrors).getD f.parityErrors, pc := pc, wait := 0 }

/-- A parity rollback (R25): the window is emptied without writing, and the strand goes back to REGIONPC; results of the
region's instructions that are on their way are discarded, their flags with them (R111). What a frozen window awaits stays. -/
def State.rollback (s : State) (k n : Nat) : State :=
  let gone := ((s.strands.find k).map fun (st : Strand) => st.window.filterMap (·.tag)).getD []
  let since := ((s.strands.find k).map fun (st : Strand) => st.regionCount).getD 0
  let s := s.modCore (strandCore k) fun c =>
    { c with results := c.results.filter fun r => !(r.strand = k && decide (since ≤ r.count)) }
  let s := { s with loads := s.loads.filter fun l => !(l.strand = k && gone.contains l.id) }
  s.modStrand k fun st =>
    { st with window := [], pc := st.regionPc, parityErrors := n :: st.parityErrors, life := .ready, permit := false,
              draining := false, handles := none, solo := false, wait := 0 }

/-- The fault record of a parked lane or a stopped copy (R326). -/
def faultBytes (token kind reason stage level priv asid vmid va ipa pc : Nat) : List Byte :=
  toBytes 4 token ++ toBytes 1 kind ++ toBytes 1 reason ++ toBytes 1 (stage + 16 * level) ++ toBytes 1 priv
    ++ toBytes 2 asid ++ toBytes 1 vmid ++ toBytes 5 0 ++ toBytes 8 va ++ toBytes 8 ipa ++ toBytes 8 pc ++ toBytes 24 0

/-- The token of R258 with DLV = 0. -/
def token (seq : BitVec 10) (k : Nat) : Nat :=
  let w := strandWave k
  seq.toNat * 2 ^ 22 + strandCore k % 512 * 2 ^ 12 + bankIndex (waveBank w) * 2 ^ 11 + waveSlot w % 32 * 2 ^ 6
    + strandLane k

/-- Sends a fault record to its fault queue (R326, R327): delivered when the ring has space and no older record of that
queue is held, held otherwise. `none` where the queue's register places no ring. -/
def State.sendFault (s : State) (cl : Nat) (r : FaultRec) : Option State :=
  let c := s.cluster cl
  let reg := if r.stage2 then c.fqBase2 else c.fqBase
  let hold := s.setCluster cl { c with records := c.records ++ [r] }
  if ringBase reg = 0 then none
  else if c.records.any (·.stage2 = r.stage2) then some hold
  else some ((s.ringPut reg r.bytes).getD hold)

/-- The TEAMID of a strand's team. -/
def State.teamIdOf (s : State) (k : Nat) : Nat :=
  (((s.waves.find (strandWave k)).bind fun (w : Wave) => s.teams.find w.team).map fun (t : Team) => t.teamId).getD 0

/-- The error-record fields that a lane gives (R366). -/
def laneError (s : State) (k : Nat) (va : Nat) : ErrorRec :=
  { ErrorRec.blank with core := strandCore k, lane := strandLane k, va := va, team := s.teamIdOf k,
                        grid := ((s.waves.find (strandWave k)).map fun (w : Wave) => w.grid).getD 0,
                        pc := ((s.strands.find k).map fun (st : Strand) => st.pc.toNat).getD 0 }

/-- Parks a lane (R249, R258, R326): the park count of its place rises, the fault registers are written, and one fault record goes
to the fault queue. Without a queue the grid aborts with XLATE (R327). -/
def State.park (s : State) (k grid code va kind reason stage level ipa vmid : Nat) : State :=
  match s.strands.find k with
  | none => s
  | some st =>
    let pc := st.pc.setWidth 64
    let seq := s.parks.get k 0 + 1
    let s := { s with parks := s.parks.set k seq }
    let st := { st with life := .parked, seq := seq, handles := none, solo := false, faultCode := faultWord (strandLane k) 0 code, faultPc := pc,
                        faultVa := .ofNat 64 va }
    let bytes := faultBytes (token seq k) kind reason stage level (s.gridLevel grid) (s.gridAsid grid) vmid va ipa pc.toNat
    match (s.setStrand k st).sendFault (coreCluster (strandCore k)) ⟨bytes, stage = 2⟩ with
    | some s => s
    | none => s.abortGrid grid XLATE (laneError s k va)

/-- Takes a handler-kind fault at a lane (R249, R252): inside a handler it is DBLFAULT; with TRAPBASE 0 it aborts the
grid with its code; otherwise the lane enters its handler, after the strand's queued SFU and conversion results (R111). -/
def State.trap (s : State) (k grid code arg : Nat) (va : Dword) (skip : VAddr) : State :=
  match s.strands.find k with
  | none => s
  | some st =>
    let base := (s.bank (waveBank (strandWave k))).trapBase
    let word := faultWord (strandLane k) arg code
    let pc := st.pc.setWidth 64
    if st.handler.isSome then s.abortGrid grid DBLFAULT (laneError s k va.toNat)
    else if base = 0 then s.abortGrid grid code (laneError s k va.toNat)
    else if s.queued k then
      s.setStrand k { st with life := .waiting (.handler word.toNat va st.pc skip), faultCode := word, faultPc := pc,
                              faultVa := va }
    else
      let again := if code = TRAPCODE ∨ code = BRKCODE then skip else st.pc
      s.setStrand k (st.enterHandler (base.setWidth 57) (strandLane k) word pc va again skip (code = BRKCODE))

/-! ### The lane that executes -/

/-- What an instruction's meaning sees: the state, the executing strand with its pc already at the next word, and the
objects around it. `here` is the address of the instruction word. -/
structure Env where
  s : State
  key : Nat
  st : Strand
  waveKey : Nat
  wave : Wave
  bankKey : Nat
  bank : Bank
  here : VAddr
  hints : Hints
  /-- The handle registers as this instruction read them, when its access had to wait (R211). -/
  hs : Option (Tbl HRec)

def Env.lane (e : Env) : Nat := strandLane e.key
def Env.coreKey (e : Env) : Nat := bankCore e.bankKey
def Env.grid (e : Env) : Option Grid := e.s.grids.find e.wave.grid
def Env.level (e : Env) : Nat := e.s.gridLevel e.wave.grid
def Env.asid (e : Env) : Nat := e.s.gridAsid e.wave.grid
def Env.team (e : Env) : Option Team := e.s.teams.find e.wave.team
/-- The number of the issue in progress, or of the core's next one, to which the census looks ahead. -/
def Env.issueNo (e : Env) : Nat :=
  match e.s.issue with
  | some i => i.number
  | none => (e.s.core e.coreKey).issueCount

/-- The lane that `cur` names, when it is a live strand of a resident wave. -/
def State.env (s : State) : Option Env :=
  match s.strands.find s.cur.strand with
  | none => none
  | some st =>
    match s.waves.find (strandWave s.cur.strand) with
    | none => none
    | some w =>
      if st.life = .exited then none
      else
        let b := waveBank (strandWave s.cur.strand)
        some { s := s, key := s.cur.strand, st := { st with pc := s.cur.word + 4, life := .ready, handles := none, solo := false, wait := 0 },
               waveKey := strandWave s.cur.strand, wave := w, bankKey := b, bank := s.bank b, here := s.cur.word,
               hints := s.cur.hints, hs := st.handles }

/-- The handle registers that a waiting instruction keeps (R211). -/
def Env.keepHandles (e : Env) : Option (Tbl HRec) := some (e.hs.getD e.wave.h)

/-- A parity error found in register n of a strand (R25): a rollback, or the death of the team when the register had one
in this region before, or in redundant mode (R269). -/
def State.parityError (s : State) (k n : Nat) : State :=
  match s.strands.find k, s.waves.find (strandWave k) with
  | some st, some w =>
    if st.parityErrors.contains n || w.partner.isSome then s.killTeam w.team PARITY (laneError s k 0) else s.rollback k n
  | _, _ => s

/-- WALKERR (R319): every grid of the context aborts; the record of the grid that met it names the lane. -/
def State.walkError (s : State) (asid : Nat) (r : ErrorRec) : State :=
  (s.grids.filter (fun p => p.2.asid = asid && !p.2.retired && p.2.status = 0)).foldl
    (fun s p => s.abortGrid p.1 WALKERR (if p.1 = r.grid then r else { ErrorRec.blank with va := r.va })) s

/-- What becomes of a lane whose instruction stops (R25, R128, R249, R250). DEDUCED (log 48): an out-of-range lane and one that takes
ILLOP go to their handler where there is one, as R249 has it; the park of R128 is that of XLATE. A lane that waits for a walk stays the next
lane of its issue (log 19); the lanes of one line of an issue share their walk (R322). FAULTVA of an ILLOP is the address of the
instruction word (R69). -/
def State.stop (s : State) (e : Env) : Stop → State
  | .fault code arg va =>
    s.trap e.key e.wave.grid code arg (if code = ILLOP then e.here.setWidth 64 else va) (e.here + 4)
  | .park code va kind reason stage level ipa vmid =>
    s.park e.key e.wave.grid code va kind reason stage level ipa vmid
  | .walkErr => s.walkError e.asid (laneError s e.key 0)
  | .poison => s.killTeam e.wave.team POISON (laneError s e.key 0)
  | .parity n => s.parityError e.key n
  | .hold => s
  | .walk va =>
    let wait := fun (s : State) (id : Nat) =>
      let s := s.modStrand e.key fun st => { st with life := .waiting (.walk id), handles := e.keepHandles, wait := 0 }
      { s with issue := s.issue.map fun (i : Issue) =>
          if i.wave = e.waveKey then { i with remaining := e.key :: i.remaining } else i }
    let same := s.walks.find? fun w => match w.who with
      | .lanes k n => w.core = e.coreKey && strandWave k = e.waveKey && n = e.issueNo && w.asid = e.asid && w.va / 256 = va / 256
      | _ => false
    match same with
    | some w => wait s w.id
    | none =>
      let (id, s) := s.fresh
      wait { s with walks := s.walks ++ [{ id := id, who := .lanes e.key e.issueNo, core := e.coreKey, asid := e.asid, va := va,
                                           locked := none, written := false }] } id

/-- Runs an instruction on the lane that `cur` names. -/
def runLane (s : State) (f : Env → Act State) : Host.Outcome State Fault Refusal :=
  match s.env with
  | none => .fault .noExecutingStrand
  | some e =>
    match f e with
    | .ok s' => .next s'
    | .error x => .next (s.stop e x)

/-- Puts the executing strand back with one more count (R16). -/
def Env.retire (e : Env) (s : State) (st : Strand) : State := s.setStrand e.key (st.tick 1)

/-- Puts the executing strand back with one more count, at the start of a region (R24). -/
def Env.retireRegion (e : Env) (s : State) (st : Strand) : State :=
  let st := st.tick 1
  s.setStrand e.key (st.startRegion st.pc)

/-- An instruction that changes its own strand alone. -/
def laneStep (s : State) (f : Env → Act Strand) : Host.Outcome State Fault Refusal :=
  runLane s fun e => do
    let st ← f e
    pure (e.retire e.s st)

/-- An event: it changes the state where it is enabled and nothing where it is not. -/
def eventStep (s : State) (f : State → Option State) : Host.Outcome State Fault Refusal :=
  match f s with
  | some s' => .next s'
  | none => .next s

end Sys2Proof.Machine
end

