-- ==== Sys2Proof/Machine/Flags.lean ====
section
/-!
DEFINITION. Status flags: FSTAT with its sticky IEEE flags, E and G (R12, R40), and the quiet mask (R67).
-/

namespace Sys2Proof.Machine

/-- Flag bits in FSTAT order: NX, UF, OF, DZ, IV in bits 0 to 4 (R12). -/
abbrev Flags := BitVec 5

def fNX : Flags := 1
def fUF : Flags := 2
def fOF : Flags := 4
def fDZ : Flags := 8
def fIV : Flags := 16

/-- The E and G bits of FSTAT (R12). -/
def bitE : Word := 0x20
def bitG : Word := 0x40

/-- The flags that HM.quiet lets through (R67). -/
def Env.loud (e : Env) (f : Flags) : Flags :=
  match e.hints.hm with
  | some (.quiet m) => f &&& ~~~m
  | _ => f

/-- ORs flags into FSTAT; nothing is cleared (R12, R40). -/
def Strand.raise (st : Strand) (f : Flags) : Strand := { st with fstat := st.fstat ||| f.setWidth 32 }
def Strand.raiseE (st : Strand) : Strand := { st with fstat := st.fstat ||| bitE }
def Strand.raiseG (st : Strand) : Strand := { st with fstat := st.fstat ||| bitG }

/-- MOV to FSTAT (R86): the seven flags are replaced, the rest reads 0. -/
def Strand.setFstat (st : Strand) (x : Word) : Strand := { st with fstat := x &&& 0x7F }

/-- The rounding and saturation of the instruction: HM kind 0, or .rn without saturation (R67). -/
def Env.mode (e : Env) : Nat × Bool :=
  match e.hints.hm with
  | some (.arith r s) => (r.toNat, s)
  | _ => (0, false)

/-- The memory order of an atomic: HM kind 1, or relaxed (R67). -/
def Env.order (e : Env) : Nat :=
  match e.hints.hm with
  | some (.order c) => c.toNat
  | _ => 0

end Sys2Proof.Machine
end

