-- ==== Sys2Proof/Machine/Float.lean ====
section
/-!
DEFINITION. Number formats and exact arithmetic: the five float formats (R31 to R34), NQ4 (R35), RoundToFormat (R39),
the sum rule (R102), minimum and maximum (R48), conversions (R41, R43), and identities (R50). Values are exact: a sign,
a natural significand and an exponent of two.
-/

namespace Sys2Proof.Machine

/-- The float formats, in the order of the type codes of R63. -/
inductive Fmt where
  | f32 | bf16 | f16 | e4m3 | e5m2
  deriving DecidableEq, Repr

/-- Bits of the stored significand (R31, R33). -/
def Fmt.m : Fmt → Nat | .f32 => 23 | .bf16 => 7 | .f16 => 10 | .e4m3 => 3 | .e5m2 => 2
/-- Bits of the exponent. -/
def Fmt.e : Fmt → Nat | .f32 => 8 | .bf16 => 8 | .f16 => 5 | .e4m3 => 4 | .e5m2 => 5
def Fmt.bias : Fmt → Nat | .f32 => 127 | .bf16 => 127 | .f16 => 15 | .e4m3 => 7 | .e5m2 => 15
/-- Width in bits, and the significant bits p. -/
def Fmt.width (f : Fmt) : Nat := 1 + f.e + f.m
def Fmt.p (f : Fmt) : Nat := f.m + 1
def Fmt.canonicalNaN : Fmt → Nat
  | .f32 => 0x7FC00000 | .bf16 => 0x7FC0 | .f16 => 0x7E00 | .e4m3 => 0x7F | .e5m2 => 0x7E
/-- The largest finite value's bits without the sign. -/
def Fmt.maxFinite : Fmt → Nat
  | .f32 => 0x7F7FFFFF | .bf16 => 0x7F7F | .f16 => 0x7BFF | .e4m3 => 0x7E | .e5m2 => 0x7B
/-- The bits of +infinity; E4M3 has none and reads as its NaN. -/
def Fmt.inf : Fmt → Nat
  | .f32 => 0x7F800000 | .bf16 => 0x7F80 | .f16 => 0x7C00 | .e4m3 => 0x7F | .e5m2 => 0x7C
/-- The exponent of the smallest subnormal, as a power of two. -/
def Fmt.minSub (f : Fmt) : Int := 1 - (f.bias : Int) - f.m
def Fmt.signBit (f : Fmt) (neg : Bool) : Nat := if neg then 2 ^ (f.e + f.m) else 0

/-- The format of a type code (R63); codes 5 to 7 are reserved and refused earlier. -/
def Fmt.ofCode (c : Nat) : Fmt := match c with | 0 => .f32 | 1 => .bf16 | 2 => .f16 | 3 => .e4m3 | _ => .e5m2

/-- A float value: NaN, infinity, or (-1)^neg x m x 2^e. -/
inductive FVal where
  | nan (signalling : Bool)
  | inf (neg : Bool)
  | fin (neg : Bool) (m : Nat) (e : Int)
  deriving DecidableEq, Repr

/-- The value of an encoding (R31 to R34). -/
def Fmt.decode (f : Fmt) (bits : Nat) : FVal :=
  let neg := fld bits (f.e + f.m) 1 = 1
  let ex := fld bits f.m f.e
  let man := fld bits 0 f.m
  let top := ex = 2 ^ f.e - 1
  match f with
  | .e4m3 =>
    if top ∧ man = 7 then .nan false
    else if ex = 0 then .fin neg man f.minSub
    else .fin neg (2 ^ f.m + man) (f.minSub + ex - 1)
  | _ =>
    if top then
      if man = 0 then .inf neg else .nan (decide (f ≠ .e5m2) && decide (man < 2 ^ (f.m - 1)))
    else if ex = 0 then .fin neg man f.minSub
    else .fin neg (2 ^ f.m + man) (f.minSub + ex - 1)

def FVal.isNaN : FVal → Bool | .nan _ => true | _ => false
def FVal.isSNaN : FVal → Bool | .nan s => s | _ => false
def FVal.isInf : FVal → Bool | .inf _ => true | _ => false
def FVal.isZero : FVal → Bool | .fin _ 0 _ => true | _ => false
def FVal.neg : FVal → Bool | .nan _ => false | .inf s => s | .fin s _ _ => s
/-- The value with its sign flipped; a NaN has none (R32). -/
def FVal.flip : FVal → FVal | .nan s => .nan s | .inf s => .inf (!s) | .fin s m e => .fin (!s) m e

/-- Bits of a natural number: 0 for 0. -/
def bitLen (m : Nat) : Nat := if m = 0 then 0 else Nat.log2 m + 1

/-- m / 2^k rounded to a natural number in a mode: 0 .rn, 1 .rz, 2 .rp, 3 .rm (R39, R64); and whether it is exact. -/
def roundShift (mode : Nat) (neg : Bool) (m k : Nat) : Nat × Bool :=
  let q := m / 2 ^ k
  let r := m % 2 ^ k
  let up : Bool := match mode with
    | 0 => decide (2 ^ k < 2 * r) || (decide (2 * r = 2 ^ k) && decide (q % 2 = 1))
    | 1 => false
    | 2 => !neg && decide (r ≠ 0)
    | _ => neg && decide (r ≠ 0)
  (if r ≠ 0 ∧ up then q + 1 else q, r = 0)

/-- m x 2^e as a multiple of 2^e0, for e0 no greater than e. -/
def scaleTo (m : Nat) (e e0 : Int) : Nat := m * 2 ^ (e - e0).toNat

/-- Whether m x 2^e is less than n x 2^f. -/
def dyLt (m : Nat) (e : Int) (n : Nat) (f : Int) : Bool :=
  let e0 := min e f
  decide (scaleTo m e e0 < scaleTo n f e0)

/-- The encoding of a representable magnitude q x 2^e. -/
def Fmt.encodeFin (f : Fmt) (neg : Bool) (q : Nat) (e : Int) : Nat :=
  let sign := f.signBit neg
  if q = 0 then sign
  else
    let len := bitLen q
    let top : Int := e + len - 1
    if top < 1 - (f.bias : Int) then
      sign + (if f.minSub ≤ e then q * 2 ^ (e - f.minSub).toNat else q / 2 ^ (f.minSub - e).toNat)
    else
      let man := if len ≤ f.p then q * 2 ^ (f.p - len) else q / 2 ^ (len - f.p)
      sign + (top + f.bias).toNat * 2 ^ f.m + (man - 2 ^ f.m)

/-- OverflowResult of R39. -/
def Fmt.overflow (f : Fmt) (mode : Nat) (neg : Bool) : Nat :=
  let infinite : Bool := match mode with | 0 => true | 1 => false | 2 => !neg | _ => neg
  if infinite then (if f = .e4m3 then f.canonicalNaN else f.signBit neg + f.inf) else f.signBit neg + f.maxFinite

/-- RoundToFormat (R39): the encoding and the flags it raises. -/
def Fmt.round (f : Fmt) (mode : Nat) (sat : Bool) : FVal → Nat × Flags
  | .nan _ => (f.canonicalNaN, 0)
  | .inf neg =>
    if sat then (f.signBit neg + f.maxFinite, 0)
    else if f = .e4m3 then (f.canonicalNaN, fIV)
    else (f.signBit neg + f.inf, 0)
  | .fin neg m e =>
    if m = 0 then (f.signBit neg, 0)
    else
      let k := bitLen m - f.p
      let (q, exact) := roundShift mode neg m k
      let e' := e + k
      let maxM := 2 ^ f.p - 1 - (if f = .e4m3 then 1 else 0)
      let maxE : Int := (f.decode f.maxFinite |> fun v => match v with | .fin _ _ x => x | _ => 0)
      if dyLt maxM maxE q e' then
        (if sat then f.signBit neg + f.maxFinite else f.overflow mode neg, fOF ||| fNX)
      else if dyLt q e' 1 (1 - (f.bias : Int)) then
        if f.minSub ≤ e then (f.encodeFin neg m e, 0)
        else
          let (y, ex) := roundShift mode neg m (f.minSub - e).toNat
          (f.encodeFin neg y f.minSub, if ex then 0 else fUF ||| fNX)
      else (f.encodeFin neg q e', if exact then 0 else fNX)

/-! ### Exact products and sums (R44, R102) -/

/-- The product of factors: the exact value, and whether it is 0 x infinity. -/
def FVal.mul : FVal → FVal → FVal
  | .fin s m e, .fin t n f => .fin (s != t) (m * n) (e + f)
  | .nan s, .nan t => .nan (s || t)
  | .nan s, _ => .nan s
  | _, .nan t => .nan t
  | .inf s, y => .inf (s != y.neg)
  | x, .inf t => .inf (x.neg != t)

/-- A term of the sum rule: the exact product of its factors with its special cases. -/
structure Term where
  value : FVal
  signalling : Bool
  invalid : Bool
  deriving DecidableEq, Repr

/-- The product of a list of factors. DEDUCED (log 31): where NQDOT has an infinite S with s8 = 0 and a quiet NaN as the
activation, R117's two sentences meet, and the NaN activation decides: no IV. -/
def Term.of (fs : List FVal) : Term :=
  { value := fs.foldl FVal.mul (.fin false 1 0)
    signalling := fs.any FVal.isSNaN
    invalid := fs.any FVal.isInf && fs.any FVal.isZero && !(fs.any FVal.isNaN) }

/-- The signed sum of finite values as a multiple of one power of two. -/
def exactSum (l : List FVal) : Int × Int :=
  let e0 := l.foldl (fun a v => match v with | .fin _ m e => if m = 0 then a else min a e | _ => a) (0 : Int)
  (l.foldl (fun a v => match v with
    | .fin s m e => if m = 0 then a else let x : Int := scaleTo m e e0; if s then a - x else a + x
    | _ => a) 0, e0)

/-- The value of a signed multiple of 2^e. -/
def FVal.ofInt (x e : Int) : FVal := .fin (decide (x < 0)) x.natAbs e

/-- The sum rule (R102), with an absent or present addend. -/
def sumRule (c : Option FVal) (terms : List Term) (f : Fmt) (mode : Nat) (sat : Bool) : Nat × Flags :=
  let all := (match c with | some v => [v] | none => []) ++ terms.map (·.value)
  let infs := all.filter FVal.isInf
  let mixed := infs.any FVal.neg && infs.any (fun v => !v.neg)
  let nan := all.any FVal.isNaN
  let invalid := terms.any (·.invalid)
  if nan || invalid || mixed then
    let sig := (match c with | some v => v.isSNaN | none => false) || terms.any (·.signalling)
    (f.canonicalNaN, if sig || invalid || mixed then fIV else 0)
  else match infs with
    | v :: _ => f.round mode sat v
    | [] =>
      let (s, e) := exactSum all
      if s = 0 then
        match all with
        | v :: l => if l.all (fun w => w.isZero && w.neg == v.neg) && v.isZero then (f.signBit v.neg, 0)
                    else (f.signBit (mode = 3), 0)
        | [] => (f.signBit (mode = 3), 0)
      else f.round mode sat (FVal.ofInt s e)

/-- x + y rounded once (R45's special values, R51). -/
def addF32 (x y : Word) (mode : Nat) (sat : Bool) : Nat × Flags :=
  sumRule (some (Fmt.f32.decode x.toNat)) [Term.of [Fmt.f32.decode y.toNat]] .f32 mode sat

/-! ### Order (R48, R49, R106) -/

/-- Whether one number is less than another, both zeros equal. -/
def FVal.lt : FVal → FVal → Bool
  | .nan _, _ | _, .nan _ => false
  | .inf s, .inf t => s && !t
  | .inf s, .fin .. => s
  | .fin .., .inf t => !t
  | .fin s m e, .fin t n f =>
    if m = 0 ∧ n = 0 then false
    else if m = 0 then !t
    else if n = 0 then s
    else if s != t then s
    else if s then dyLt n f m e else dyLt m e n f

/-- Ordered and equal. -/
def FVal.eqv (x y : FVal) : Bool := !x.isNaN && !y.isNaN && !x.lt y && !y.lt x

/-- The order of R48: -0 below +0. -/
def FVal.below (x y : FVal) : Bool := x.lt y || (x.isZero && y.isZero && x.neg && !y.neg)

/-- minimumNumber and maximumNumber (R48) on encodings of one format. -/
def minMax (f : Fmt) (isMax : Bool) (x y : Nat) : Nat × Flags :=
  let a := f.decode x
  let b := f.decode y
  let fl := if a.isSNaN || b.isSNaN then fIV else 0
  if a.isNaN && b.isNaN then (f.canonicalNaN, fl)
  else if a.isNaN then (y, fl)
  else if b.isNaN then (x, fl)
  else if isMax then (if a.below b then y else x, fl)
  else (if b.below a then y else x, fl)

/-- The conditions of FCMP (R106), by code. -/
def fcond (c : Nat) (x y : FVal) : Bool :=
  let un := x.isNaN || y.isNaN
  match c with
  | 0 => x.eqv y
  | 1 => !x.eqv y
  | 2 => !un && x.lt y
  | 3 => !un && (x.lt y || x.eqv y)
  | 4 => !un && y.lt x
  | 5 => !un && (y.lt x || x.eqv y)
  | 6 => un
  | _ => !un

/-! ### Integers and conversions (R30, R41, R43) -/

/-- Width and signedness of an integer type code (R63). -/
def intWidth (c : Nat) : Nat := match c % 3 with | 0 => 8 | 1 => 16 | _ => 32
def intSigned (c : Nat) : Bool := c < 3
def intMin (c : Nat) : Int := if intSigned c then -(2 ^ (intWidth c - 1) : Int) else 0
def intMax (c : Nat) : Int := if intSigned c then 2 ^ (intWidth c - 1) - 1 else 2 ^ intWidth c - 1
/-- The value of a register's low bits under a type. -/
def intValue (c : Nat) (x : Nat) : Int :=
  let u := x % 2 ^ intWidth c
  if intSigned c ∧ 2 ^ (intWidth c - 1) ≤ u then (u : Int) - 2 ^ intWidth c else u
/-- The register contents of an exact value reduced to a type (R30). -/
def intPlace (c : Nat) (x : Int) : Word :=
  .ofInt 32 (intValue c (x % 2 ^ intWidth c).toNat)

/-- I2I (R41). -/
def convI2I (tt st : Nat) (sat : Bool) (x : Nat) : Word :=
  let v := intValue st x
  if sat then intPlace tt (max (intMin tt) (min (intMax tt) v)) else intPlace tt v

/-- I2F (R41). -/
def convI2F (tt st mode : Nat) (sat : Bool) (x : Nat) : Nat × Flags :=
  (Fmt.ofCode tt).round mode sat (FVal.ofInt (intValue st x) 0)

/-- F2F (R41): a signalling NaN sets IV, and widening an infinity of another format keeps it. -/
def convF2F (tt st : Fmt) (mode : Nat) (sat : Bool) (x : Nat) : Nat × Flags :=
  let v := st.decode x
  let (r, fl) := tt.round mode sat v
  (r, if v.isSNaN then fl ||| fIV else fl)

/-- A finite value rounded to an integer in a mode (R43, R108), and whether it is exact. -/
def roundInt (mode : Nat) (neg : Bool) (m : Nat) (e : Int) : Nat × Bool :=
  if 0 ≤ e then (m * 2 ^ e.toNat, true) else roundShift mode neg m (-e).toNat

/-- F2I (R43). -/
def convF2I (tt : Nat) (st : Fmt) (mode : Nat) (x : Nat) : Word × Flags :=
  match st.decode x with
  | .nan _ => (0, fIV)
  | .inf neg => (intPlace tt (if neg then intMin tt else intMax tt), fIV)
  | .fin neg m e =>
    let (q, exact) := roundInt mode neg m e
    let v : Int := if neg then -(q : Int) else q
    if v < intMin tt then (intPlace tt (intMin tt), fIV)
    else if intMax tt < v then (intPlace tt (intMax tt), fIV)
    else (intPlace tt v, if exact then 0 else fNX)

/-! ### NQ4 (R35 to R37) -/

/-- The magnitude index table of R35, in units of 1/256. -/
def nq4Magnitude (c : Nat) : Nat :=
  match c % 8 with | 0 => 11 | 1 => 33 | 2 => 55 | 3 => 80 | 4 => 107 | 5 => 139 | 6 => 181 | _ => 256

/-- DecodeNQ4(c) x s8 / 256, exact: a zero keeps the code's sign (R37). -/
def nq4Scaled (c s8 : Nat) : FVal := .fin (decide (8 ≤ c % 16)) (nq4Magnitude c * s8) (-16)

/-- The element value of R37 as a term: NQ4 code, block scale, super-block scale. -/
def nq4Term (c s8 : Nat) (S : FVal) : Term := Term.of [nq4Scaled c s8, S]

/-- A term rounded to a format (R37, R117): the canonical NaN with IV for 0 x infinity and for a signalling scale. -/
def Term.round (t : Term) (f : Fmt) (mode : Nat) (sat : Bool) : Nat × Flags := sumRule none [t] f mode sat

/-! ### Identities and combining operators (R50, R237, R72) -/

/-- The operators of GRED, GSCAN (codes 0 to 11 of R72) and of the window accumulator share their binary step. -/
inductive Op where
  | addF | mulF | minF | maxF | add | minS | maxS | minU | maxU | and | or | xor
  deriving DecidableEq, Repr

/-- GRED and GSCAN op codes (R72). -/
def Op.ofGroup (c : Nat) : Op :=
  match c with
  | 0 => .addF | 1 => .add | 2 => .add | 3 => .minF | 4 => .maxF | 5 => .minS | 6 => .maxS | 7 => .minU | 8 => .maxU
  | 9 => .and | 10 => .or | _ => .xor

/-- Identity(op, type) (R50). -/
def Op.identity : Op → Word
  | .addF => 0 | .mulF => 0x3F800000 | .minF => 0x7F800000 | .maxF => 0xFF800000 | .add => 0
  | .minS => 0x7FFFFFFF | .maxS => 0x80000000 | .minU => 0xFFFFFFFF | .maxU => 0 | .and => 0xFFFFFFFF
  | .or => 0 | .xor => 0

/-- a combined with c, the older operand first; a tie keeps a (R237). -/
def Op.apply (o : Op) (a c : Word) : Word × Flags :=
  match o with
  | .addF => let (r, f) := addF32 a c 0 false; (.ofNat 32 r, f)
  | .mulF => let (r, f) := sumRule none [Term.of [Fmt.f32.decode a.toNat, Fmt.f32.decode c.toNat]] .f32 0 false
             (.ofNat 32 r, f)
  | .minF => let (r, f) := minMax .f32 false a.toNat c.toNat; (.ofNat 32 r, f)
  | .maxF => let (r, f) := minMax .f32 true a.toNat c.toNat; (.ofNat 32 r, f)
  | .add => (a + c, 0)
  | .minS => (if c.toInt < a.toInt then c else a, 0)
  | .maxS => (if a.toInt < c.toInt then c else a, 0)
  | .minU => (if c.toNat < a.toNat then c else a, 0)
  | .maxU => (if a.toNat < c.toNat then c else a, 0)
  | .and => (a &&& c, 0)
  | .or => (a ||| c, 0)
  | .xor => (a ^^^ c, 0)

end Sys2Proof.Machine
end

