-- ==== Sys2Proof/Machine/Operands.lean ====
section
/-!
DEFINITION. Operand forms: the lane map (R171 to R173), reads of v registers, pairs, groups and predicates with their
faults (R11, R13, R17 to R19, R25, R59, R77), writes of destinations (R18, R20, R272), immediates and targets
(R57, R61, R66), wave registers, and handles with their addresses (R118, R119, R122, R123).
-/

namespace Sys2Proof.Machine

/-! ### The lane map -/

/-- LMAPn (R171): lane n carries logical lane n where nothing else is listed. -/
def Core.lmapReg (c : Core) (n : Nat) : Word := c.lmap.get n (.ofNat 32 n)
def lmapState (x : Word) : Nat := fld x.toNat 6 2
def lmapLane (x : Word) : Nat := fld x.toNat 0 6

/-- Good physical lanes: in use, or good and idle (R171). -/
def Core.goodLanes (c : Core) : List Nat := (List.range 65).filter fun n => lmapState (c.lmapReg n) ≤ 1
/-- Lanes that carry a logical lane. -/
def Core.usedLanes (c : Core) : List Nat := (List.range 65).filter fun n => lmapState (c.lmapReg n) = 0

/-- CONFIG of R171: 3 while the map does not carry every logical lane exactly once as one of the forms requires
(R271). -/
def Core.config (c : Core) : Nat :=
  let used := c.usedLanes
  let straight := used.filter fun n => n < 64 && lmapLane (c.lmapReg n) = n
  if used.length = 64 ∧ straight.length = 64 then 0
  else if used.length = 64 ∧ straight.length = 63 ∧ used.contains 64 ∧
      !(straight.contains (lmapLane (c.lmapReg 64))) ∧ 2 ≤ lmapState (c.lmapReg (lmapLane (c.lmapReg 64))) then 1
  else
    let good := c.goodLanes
    let first := good.take 32
    if 32 ≤ good.length ∧ good.length ≤ 63 ∧ used = first ∧ first.map (fun n => lmapLane (c.lmapReg n)) = List.range 32
    then 2
    else 3

/-- COREDESC (R172). DESIGN CHOICE (log 47): in Retired, where the table gives no PASS, SHFL and REJOIN, they read 0. -/
def Core.desc (c : Core) : Word :=
  let cfg := c.config
  let good := c.goodLanes.length
  let spare := if lmapState (c.lmapReg 64) = 0 then 1 else 0
  let timing := match cfg with
    | 0 => 0x00156550
    | 1 => 0x00157660
    | 2 => 0x0025C662
    | _ => 0
  .ofNat 32 (cfg * 2 ^ 30 + good * 2 ^ 23 + spare * 2 ^ 22 + timing)

/-- The physical lane of a logical lane (R173); a trailing wave runs on the map rotated by one. -/
def Core.physical (c : Core) (l width : Nat) (trailing : Bool) : Option Nat :=
  let two := c.config = 2 ∧ width = 64
  let l := if trailing then (if two then l / 32 * 32 + (l % 32 + 1) % 32 else (l + 1) % width) else l
  let m := if two then l % 32 else l
  c.usedLanes.find? fun n => lmapLane (c.lmapReg n) = m

/-- Whether the results of a lane of a wave are inverted in bit 0 by the fault injection of R272, at the issue whose
number is given. -/
def Core.injects (c : Core) (w : Wave) (lane issue : Nat) : Bool :=
  match c.inject with
  | none => false
  | some (p, n) => decide (n ≤ issue) && (c.physical lane w.width w.trailing == some p)

def Env.injected (e : Env) : Bool := (e.s.core e.coreKey).injects e.wave e.lane e.issueNo

/-- A register result or a store datum as the physical lane produces it (R272). -/
def Env.produce (e : Env) (x : Word) : Word := if e.injected then x ^^^ 1 else x

/-! ### Reads -/

/-- R11 for a list of register numbers. -/
def Env.exist (e : Env) (l : List Nat) : Act Unit := require (l.all (· < e.wave.alloc)) (.fault ILLOP 0 0)

/-- CHKSB.EN (R253). -/
def Env.checks (e : Env) : Bool := e.bank.chksb.getLsbD 0

/-- A read of register vn with its poison bit (R13, R17 to R20, R25). -/
def Env.read (e : Env) (n : Nat) : Act (Word × Bool) :=
  if e.checks && stale e.st (.v n) then .error (.fault STALE 0 0)
  else match seen e.st.window (.v n) with
    | .value x p => .ok (x, p)
    | .pending => .error .hold
    | .bank =>
      if e.st.frozenPending (.v n) then .error .hold
      else
        let r := e.st.reg n
        if r.par = parity r.val then .ok (r.val, r.poison) else .error (.parity n)

/-- A read that consumes the value (R13). -/
def Env.use (e : Env) (n : Nat) : Act Word := do
  let (x, p) ← e.read n
  if p then .error .poison else .ok x

/-- Two registers that an instruction consumes: an interlock or STALE of either comes before the poison of any (R250). -/
def Env.use2 (e : Env) (a b : Nat) : Act (Word × Word) := both (e.use a) (e.use b)

/-- Pair(n) with its poison (R77). -/
def Env.readPair (e : Env) (n : Nat) : Act (Dword × Bool) := do
  let (lo, hi) ← both (e.read n) (e.read (n + 1))
  pure (hi.1 ++ lo.1, lo.2 || hi.2)

def Env.usePair (e : Env) (n : Nat) : Act Dword := do
  let (x, p) ← e.readPair n
  if p then .error .poison else .ok x

/-- The registers n, n + 1, ... with their poison bits. -/
def Env.readMany (e : Env) (n : Nat) : Nat → Act (List (Word × Bool))
  | 0 => .ok []
  | k + 1 => do
    let (x, l) ← both (e.read n) (e.readMany (n + 1) k)
    pure (x :: l)

/-- The reads without the check of R19: the values that they would obtain, on which the faults that come before STALE are decided
(R250). -/
def Env.loose (e : Env) : Env := { e with bank := { e.bank with chksb := 0 } }

/-- A predicate as it is read (R10, R17, R77). -/
def Env.pred (e : Env) (n : Nat) : Act Bool :=
  if n = 0 then .ok true
  else if e.checks && stale e.st (.p n) then .error (.fault STALE 0 0)
  else match seen e.st.window (.p n) with
    | .value x _ => .ok (x.getLsbD 0)
    | .pending => .error .hold
    | .bank => if e.st.frozenPending (.p n) then .error .hold else .ok (e.st.preds.getLsbD n)

/-! ### Writes -/

/-- Writes vn with a fixed latency (R17), transient when T is set (R20). -/
def Env.write (e : Env) (st : Strand) (n : Nat) (x : Word) (poison : Bool) (lat : Nat) (t : BitVec 1) : Strand :=
  st.push { dst := .v n, val := e.produce x, poison := poison, lat := lat, age := 0, transient := t == 1, tag := none }

/-- Writes a pair with one latency (R90). -/
def Env.writePair (e : Env) (st : Strand) (n : Nat) (x : Dword) (lat : Nat) (t : BitVec 1) : Strand :=
  e.write (e.write st n (x.setWidth 32) false lat t) (n + 1) ((x >>> 32).setWidth 32) false lat t

/-- A result of a variable-latency class that is there at once: visible to every later instruction (R17). -/
def Env.deliver (e : Env) (st : Strand) (n : Nat) (x : Word) (poison : Bool) : Strand := e.write st n x poison 0 0

def Env.deliverPair (e : Env) (st : Strand) (n : Nat) (x : Dword) (poison : Bool) : Strand :=
  e.deliver (e.deliver st n (x.setWidth 32) poison) (n + 1) ((x >>> 32).setWidth 32) poison

/-- Writes a predicate; a write to p0 is discarded (R10). A predicate is a register result too (R179, R272). -/
def Env.writePred (e : Env) (st : Strand) (n : Nat) (x : Bool) (lat : Nat) : Strand :=
  if n = 0 then st
  else st.push { dst := .p n, val := e.produce (if x then 1 else 0), poison := false, lat := lat, age := 0, transient := false,
                 tag := none }

/-- A destination whose result will arrive as request `id` (R17, R18). -/
def Strand.await (st : Strand) (n id : Nat) : Strand :=
  st.push { dst := .v n, val := 0, poison := false, lat := 0, age := 0, transient := false, tag := some id }

def Strand.awaitMany (st : Strand) (id n : Nat) : Nat → Strand
  | 0 => st
  | k + 1 => (st.await n id).awaitMany id (n + 1) k

/-- Whether a word lies within 32 signed bits after exact arithmetic: the value clamped (R30). -/
def clampS (x : Int) : Word := .ofInt 32 (max (-(2 ^ 31)) (min (2 ^ 31 - 1) x))

/-! ### Immediates and targets -/

/-- The 7-bit immediate: sign-extended, or extended by HX (R61, R66, R81). -/
def Env.imm7 (e : Env) (i : BitVec 7) : Word :=
  match e.hints.hx with
  | some p => p ++ i
  | none => i.signExtend 32

/-- The 14-bit immediate of MOVI (R61, R66). -/
def Env.imm14 (e : Env) (i : BitVec 14) : Word :=
  match e.hints.hx with
  | some p => p ++ i.setWidth 7
  | none => i.signExtend 32

/-- The target of an offset form: the control word's address plus 4 x offset, within 57 bits (R61, R66). -/
def Env.target (e : Env) (o : BitVec 18) : VAddr :=
  let off : BitVec 57 := match e.hints.hx with
    | some p => (p ++ o.setWidth 7 : BitVec 32).signExtend 57
    | none => o.signExtend 57
  e.here + (off <<< 2)

/-- The check of a register target (R57): a multiple of 4 within the 57-bit range; otherwise a fetch fault. -/
def checkTarget (x : Dword) : Act VAddr :=
  if x.toNat % 4 = 0 ∧ x.toNat < 2 ^ 57 then .ok (x.setWidth 57)
  else .error (.park FETCH x.toNat 3 0 1 0 0 0)

/-- The target in Pair(n): the fetch fault of R57 comes before STALE, and the consumption of the pair behind both (R250). -/
def Env.pairTarget (e : Env) (n : Nat) : Act VAddr := do
  let (x, _) ← e.loose.readPair n
  checkTarget x

/-! ### Wave registers -/

/-- Whether an open meet of the wave writes w register n (GBCAST), k register n (GVOTE.ballot) or h register n
(HLD, HSET, HCPY): a read of it interlocks (R86, R184, R131). -/
def Wave.wPending (w : Wave) (n : Nat) : Bool := w.meets.any fun m => m.cls = 0x1A && m.minor = 4 && m.dst = n
def Wave.kPending (w : Wave) (n : Nat) : Bool := w.meets.any fun m => m.cls = 0x1A && m.minor = 3 && m.dst = n
def Wave.hPending (w : Wave) (n : Nat) : Bool := w.meets.any fun m => m.cls = 0x17 && m.minor ≠ 2 && m.dst = n

def Env.wReg (e : Env) (n : Nat) : Act Word :=
  if e.wave.wPending n then .error .hold else .ok (e.wave.w.get n 0)
def Env.kReg (e : Env) (n : Nat) : Act Dword :=
  if e.wave.kPending n then .error .hold else .ok (e.wave.k.get n 0)
/-- A handle register as the instruction read it at its issue (R211). -/
def Env.hReg (e : Env) (n : Nat) : Act HRec :=
  match e.hs with
  | some t => .ok (t.get n 0)
  | none => if e.wave.hPending n then .error .hold else .ok (e.wave.h.get n 0)

/-! ### Handles (R118, R119) -/

def hfld (h : HRec) (lo n : Nat) : Nat := fld h.toNat lo n
def hNumT (h : HRec) : Nat := hfld h 2 1
def hKind (h : HRec) : Nat := hfld h 3 2
def hEsizeCode (h : HRec) : Nat := hfld h 5 3
/-- The element size in bytes. -/
def hEsize (h : HRec) : Nat := 2 ^ hEsizeCode h
def hPermR (h : HRec) : Bool := hfld h 8 1 = 1
def hPermW (h : HRec) : Bool := hfld h 9 1 = 1
def hPermA (h : HRec) : Bool := hfld h 10 1 = 1
def hScope (h : HRec) : Nat := hfld h 11 3
def hPol (h : HRec) : Nat := hfld h 14 3
def hBnd (h : HRec) : Bool := hfld h 17 1 = 1
def hSwz (h : HRec) : Nat := hfld h 18 2
/-- STRIDE, signed, in elements. -/
def hStride (h : HRec) : Int := let x := hfld h 20 12; if x < 2048 then x else (x : Int) - 4096
def hExtent (h : HRec) : Nat := hfld h 32 32
def hBase0 (h : HRec) : Nat := hfld h 64 57
def hBase1 (h : HRec) : Nat := hfld h 128 57
def hBase2 (h : HRec) : Nat := hfld h 192 57

/-- The records that HSET and HLD accept (R118). -/
def hValid (h : HRec) : Bool :=
  decide (hfld h 0 2 = 0 ∧ hfld h 121 7 = 0 ∧ hfld h 185 7 = 0 ∧ hfld h 249 7 = 0 ∧
    hPol h ≤ 4 ∧ hScope h ≤ 6 ∧ hEsizeCode h ≤ 4 ∧ (hKind h = 3 ∨ (hBase1 h = 0 ∧ hBase2 h = 0)) ∧
    hBase0 h % hEsize h = 0)

/-- Kinds of handles (R118). -/
def kGlobal : Nat := 0
def kLocal : Nat := 1
def kArea : Nat := 2
def kQuant : Nat := 3

/-- XORs the bits [s+6:7] of a 57-bit number into its bits [s+3:4] (R119). -/
def swizzle (s w : Nat) : Nat := if s = 0 then w else w ^^^ (fld w 7 s * 16)

/-- The exact signed offset of element i (R119). -/
def hOffset (h : HRec) (i : Nat) : Int :=
  let o : Int := i * hStride h * hEsize h
  if hSwz h = 0 then o
  else
    let w := swizzle (hSwz h) (o % 2 ^ 57).toNat
    if w < 2 ^ 56 then w else (w : Int) - 2 ^ 57

/-- Where an access goes (R119). -/
inductive Loc where
  | clamped
  /-- A virtual address. -/
  | glob (va : Nat)
  /-- A byte offset in the team's scratch or register areas. -/
  | scratch (off : Nat)
  | area (off : Nat)
  deriving DecidableEq, Repr

/-- The permission an access needs: 0 load, 1 store, 2 atomic (R119, R124). -/
def hGrants (h : HRec) (need : Nat) : Bool :=
  match need with | 0 => hPermR h | 1 => hPermW h | _ => hPermA h

/-- A wave with a live strand: its slot, strands and registers are held (R28). -/
def State.waveLive (s : State) (w : Nat) : Bool := s.strands.any fun p => strandWave p.1 = w && p.2.life ≠ .exited

/-- One register area of a team: its wave while that has a live strand, its allocation and its width. -/
structure Area where
  waveId : Nat
  wave : Option Nat
  alloc : Nat
  width : Nat
  deriving DecidableEq, Repr

def Area.bytes (a : Area) : Nat := a.alloc * a.width * 4

/-- Inserts an area in WAVEID order. -/
def insertArea (a : Area) : List Area → List Area
  | [] => [a]
  | b :: l => if a.waveId < b.waveId then a :: b :: l else b :: insertArea a l

/-- The register areas that a strand reaches, in WAVEID order; each wave of a redundant pair sees the areas of its own kind
(R202, R266). A wave that has exited keeps its place, so that no offset moves; its registers are freed (R28). -/
def State.areaWaves (s : State) (t : Team) (trailing : Bool) : List Area :=
  let here : List Area := t.waves.filterMap fun w => match s.waves.find w with
    | some x => if x.trailing = trailing then
        some { waveId := x.waveId, wave := if s.waveLive w then some w else none, alloc := x.alloc, width := x.width }
      else none
    | none => none
  let gone : List Area := (t.freed.filter (·.trailing = trailing)).map fun f =>
    { waveId := f.waveId, wave := none, alloc := f.alloc, width := f.width }
  (here ++ gone).foldl (fun l a => insertArea a l) []

/-- Bytes of a team's register areas at the current allocations (R202). -/
def State.areaBytes (s : State) (t : Team) (trailing : Bool) : Nat := ((s.areaWaves t trailing).map Area.bytes).sum

/-- Locate (R119), with Bounds: the extent first, then the permission, then the grant. -/
def locate (h : HRec) (i need scratch areas : Nat) : Act Loc :=
  let bounds : Act Loc := if hBnd h then .ok .clamped else oor
  if hExtent h ≤ i then bounds
  else if !hGrants h need then oor
  else
    let o := hOffset h i
    if hKind h = kGlobal ∨ hKind h = kQuant then .ok (.glob ((hBase0 h + o) % 2 ^ 57).toNat)
    else
      let off : Int := hBase0 h + o
      let g := if hKind h = kLocal then scratch else areas
      if off < 0 ∨ (g : Int) < off + hEsize h then bounds
      else if hKind h = kLocal then .ok (.scratch off.toNat) else .ok (.area off.toNat)

/-- Locate with the grants of the lane's own team. -/
def Env.locate (e : Env) (h : HRec) (i need : Nat) : Act Loc :=
  let t := e.team
  Machine.locate h i need ((t.map fun (x : Team) => x.scratchSize).getD 0) ((t.map fun x => e.s.areaBytes x e.wave.trailing).getD 0)

/-- The scope of an access: the field, else the handle's; on a local or register-area address no wider than team
(R123). -/
def accessScope (field : Nat) (h : HRec) : Nat :=
  let x := if field = 0 then hScope h else field
  if hKind h = kLocal ∨ hKind h = kArea then min x 2 else x

/-- The cache policy of an access: HC's, else the handle's (R68). -/
def Env.policy (e : Env) (h : HRec) : Nat :=
  match e.hints.hc with
  | some c => if c = 0 then hPol h else c.toNat
  | none => hPol h

end Sys2Proof.Machine
end

