-- ==== Sys2Proof/Machine/Space.lean ====
section
/-!
DEFINITION. The physical address space: its ranges (R350, R370, R373, R376), the home die of a line (R351) and its home slice
(R313).
-/

namespace Sys2Proof.Machine

def isDevice (pa : Nat) : Bool := pa < Config.deviceEnd
/-- Peer memory: the first 512 GB of a peer slot (R350, R373). -/
def isPeer (pa : Nat) : Bool := 2 ^ 49 ≤ pa && pa < 2 ^ 49 + 2 ^ 43 && pa % 2 ^ 40 < Config.deviceEnd
def peerOf (pa : Nat) : Nat := (pa - 2 ^ 49) / 2 ^ 40
def isWindow (pa : Nat) : Bool := 2 ^ 50 ≤ pa && pa < 2 ^ 51
def windowOf (pa : Nat) : Nat := (pa - 2 ^ 50) / 2 ^ 40
def isHost (pa : Nat) : Bool := 2 ^ 51 ≤ pa && pa < 2 ^ 52
/-- The alias of host memory on which neither side snoops (R370). -/
def isNonSnooped (pa : Nat) : Bool := 2 ^ 51 + 2 ^ 50 ≤ pa && pa < 2 ^ 52

/-- A page that lies wholly in one range that R350 does not reserve. -/
def pageExists (pa size : Nat) : Bool :=
  let last := pa + size - 1
  (isDevice pa && isDevice last) || (isPeer pa && isPeer last && peerOf pa = peerOf last)
    || (isWindow pa && isWindow last) || (isHost pa && isHost last)

/-- The home die of an address of device memory (R351). -/
def homeDie (pa : Nat) : Option Nat :=
  if isDevice pa then
    let g := pa / 4096
    some ((g % 8 ^^^ (g / 8 % 8)) / 2)
  else none

/-- The home slice within its die (R313). -/
def homeSlice (pa : Nat) : Nat := fld pa 8 5 ^^^ fld pa 13 5 ^^^ fld pa 18 5

end Sys2Proof.Machine
end

