-- ==== Sys2Proof/Machine/MemSys.lean ====
section
/-!
DEFINITION. The memory system: vector clocks and cross-die delivery (R353 to R355, R358), the L1 area (R314, R348),
writes on their way to ordering points (R315, R337), the store buffer of contained teams (R290), what a load is served
(R125, R317, R355), the atomic operations (R129), and the requests that releases and fences wait for (R338, R343, R348).
-/

namespace Sys2Proof.Machine

/-! ### Vector clocks (R354) -/

def clockAt (v : List Nat) (d : Nat) : Nat := v.getD d 0
/-- One clock is at least another in every entry. -/
def clockGe (v u : List Nat) : Bool := (List.range 4).all fun d => clockAt u d ≤ clockAt v d
def clockSet (v : List Nat) (d n : Nat) : List Nat := (List.range 4).map fun k => if k = d then n else clockAt v k

/-- Applicable(d, V, w). -/
def applicable (vc stamp : List Nat) (w : Nat) : Bool :=
  clockAt vc w + 1 = clockAt stamp w && (List.range 4).all fun k => k = w || clockAt stamp k ≤ clockAt vc k

/-- Counts a write of die `w` and gives its stamp. -/
def State.stampWrite (s : State) (w : Nat) : List Nat × State :=
  let v := clockSet (s.die w).clock w (clockAt (s.die w).clock w + 1)
  (v, s.modDie w fun d => { d with clock := v })

/-! ### Lute links (R373, R374) -/

/-- A link of the module; a link that nothing has been said of is up (log 4). -/
def Device.link (d : Device) (p : Nat) : Link := d.links.get p ⟨true, 0, 0⟩
def State.setLink (s : State) (p : Nat) (l : Link) : State :=
  s.setDevice { s.device with links := s.device.links.set p l }

/-- An address of a peer whose link is down. -/
def State.linkLost (s : State) (pa : Nat) : Bool := isPeer pa && !(s.device.link (peerOf pa)).up

/-- A request leaves over the link of a peer address. -/
def State.countSent (s : State) (pa : Nat) : State :=
  if isPeer pa then
    let l := s.device.link (peerOf pa)
    s.setLink (peerOf pa) { l with sent := l.sent + 1 }
  else s

/-! ### Lines and watches -/

/-- A line of which nothing is held. -/
def L1Line.empty (line : Nat) : L1Line := { line := line, bytes := [], dirty := [], poison := [], pol := 0 }

def Core.line (c : Core) (l : Nat) : Option L1Line := c.l1.find? (·.line = l)
def Core.setLine (c : Core) (x : L1Line) : Core := { c with l1 := x :: c.l1.filter (·.line ≠ x.line) }
def Core.dropLine (c : Core) (l : Nat) : Core := { c with l1 := c.l1.filter (·.line ≠ l) }

/-- A write to local space is seen by the watches of its team (R135). -/
def State.wakeLocal (s : State) (team off n : Nat) : State :=
  s.wakeWatches fun w =>
    w.isLocal && w.team = team && decide (off / 256 ≤ w.line) && decide (w.line ≤ (off + n - 1) / 256)

/-- Counts a request of a cluster to a line at its ordering point, in a window of 16 (R315). -/
def State.noteRequest (s : State) (pa cluster : Nat) : State :=
  match homeDie pa with
  | none => s
  | some h =>
    s.modDie h fun d =>
      let l := d.requests.get (lineOf pa) []
      { d with requests := d.requests.set (lineOf pa) ((cluster :: l).take 16) }

/-- The cores whose L1 areas a strand of a grid uses: its own, or the eight of its cluster (R275). -/
def l1Cores (core : Nat) (fused : Bool) : List Nat :=
  if fused then (List.range 8).map (coreCluster core * 8 + ·) else [core]

/-- The strand's grid has fused L1 areas (R275). -/
def State.fusedOf (s : State) (grid : Nat) : Bool :=
  ((s.grids.find grid).map fun (g : Grid) => g.launch.fused).getD false

def State.gridOf (s : State) (strand : Nat) : Nat :=
  ((s.waves.find (strandWave strand)).map fun (w : Wave) => w.grid).getD 0
/-- The context and the level of a strand. -/
def State.asidOf (s : State) (strand : Nat) : Nat := s.gridAsid (s.gridOf strand)
def State.levelOf (s : State) (strand : Nat) : Nat := s.gridLevel (s.gridOf strand)
/-- The cores whose L1 areas a strand uses. -/
def State.l1Of (s : State) (strand : Nat) : List Nat := l1Cores (strandCore strand) (s.fusedOf (s.gridOf strand))

/-! ### Recalls of lines that copies own (R305) -/

/-- A copy issued before number `id` owns the line. -/
def State.ownedBefore (s : State) (line id : Nat) : Bool :=
  s.banks.any fun p => p.2.copies.any fun c => c.id < id && c.owns line

/-- Whether a write of a core that was sent as number `id` waits for the recall of its line (R305). A write that one of
the copy's own cores sent before the copy's issue comes before it. -/
def State.recalled (s : State) (line id core : Nat) : Bool :=
  s.banks.any fun p => p.2.copies.any fun c =>
    c.owns line && !(id < c.id && (s.l1Of c.strand).contains core)

/-! ### Writes on their way (R315, R354) -/

def State.expose (s : State) (t : Nat) : State := s.modTeam t fun x => { x with exposed := true }
def State.exposeOf (s : State) (t : Option Nat) : State := match t with | some t => s.expose t | none => s

/-- Sends a write of bytes of one line from a core's die. A write for another die leaves its die at once and is stamped;
one for the own die is stamped when it is performed. -/
def State.launchFlight (s : State) (core : Nat) (bank : Option Nat) (cells : List Host.Cell) (single : Bool)
    (exposes : Option Nat) : State :=
  match cells with
  | [] => s
  | (pa, _) :: _ =>
    let (id, s) := s.fresh
    let die := coreDie core
    let (stamp, s) := match homeDie pa with
      | some h => if h = die then (none, s) else let (v, s) := s.stampWrite die; (some v, s)
      | none => (none, s)
    { s with flights := s.flights ++
        [{ id := id, core := core, bank := bank, bytes := cells, exposes := exposes, stamp := stamp, single := single }] }

def Flight.line (f : Flight) : Nat := match f.bytes with | (pa, _) :: _ => lineOf pa | [] => 0
def Flight.pa (f : Flight) : Nat := match f.bytes with | (pa, _) :: _ => pa | [] => 0

/-- Removes every replica of a line (R358). -/
def State.dropReplicas (s : State) (line : Nat) : State :=
  { s with dies := s.dies.mapVal fun _ (d : Die) => { d with replicas := d.replicas.filter (·.line ≠ line) } }

def Die.replica (d : Die) (line : Nat) : Option Replica := d.replicas.find? (·.line = line)

/-- The bytes of one masked write in memory; a sector that it covers wholly is clean afterwards (R121, R314, R365). -/
def State.writeMasked (s : State) (cells : List Host.Cell) : State :=
  let s := s.pokeAll cells
  (dedup (cells.map fun c => sectorOf c.1)).foldl (fun s k =>
    if (span (k * 64) 64).all fun a => cells.any (·.1 = a) then s.cleanSector (k * 64) else s) s

/-- Performs a write at its ordering point: the bytes, the clock of the home die, and the updates and notices to the
other dies (R354). `cells` lie in one line. -/
def State.performAt (s : State) (id home writer : Nat) (stamp : List Nat) (cells : List Host.Cell) : State :=
  match cells with
  | [] => s
  | (pa, _) :: _ =>
    let s := (s.writeMasked cells).wakeLine pa
    let s := s.modDie home fun d => { d with clock := clockSet d.clock writer (clockAt stamp writer) }
    let news := (List.range Config.dies).filterMap fun d =>
      if d = home then none
      else
        let held := ((s.die d).replica (lineOf pa)).isSome
        if d = writer ∧ held = false then none
        else some { id := id, home := home, die := d, writer := writer, stamp := stamp, bytes := cells, withData := held
                    : Update }
    { s with updates := s.updates ++ news }

/-- Writes of a die are performed in host or peer memory, whose readers carry its clock (R354, R371). -/
def State.joinHost (s : State) (die : Nat) : State :=
  let old := s.device.hostClock
  let mine := (s.die die).clock
  s.setDevice { s.device with hostClock := (List.range 4).map fun k => Nat.max (clockAt old k) (clockAt mine k) }

/-- A write that arrives at an ordering point from the outside, or from a core of the home die, is stamped and performed
at once (R354, R370). Host and peer memory has its ordering point outside the module (R371). -/
def State.performNow (s : State) (id : Nat) (cells : List Host.Cell) : State :=
  match cells with
  | [] => s
  | (pa, _) :: _ =>
    match homeDie pa with
    | some h => let (v, s) := s.stampWrite h; s.performAt id h h v cells
    | none => (s.writeMasked cells).wakeLine pa

/-- Splits bytes into runs that a function of the address does not tell apart, in order. -/
def splitBy (f : Nat → Nat) : List Host.Cell → List (List Host.Cell)
  | [] => []
  | c :: l =>
    match splitBy f l with
    | (d :: r) :: rest => if f c.1 = f d.1 then (c :: d :: r) :: rest else [c] :: (d :: r) :: rest
    | rest => [c] :: rest

/-- Runs of one line each, and of one sector each: a sector is written on its own (R121). -/
def splitLines : List Host.Cell → List (List Host.Cell) := splitBy lineOf
def splitSectors : List Host.Cell → List (List Host.Cell) := splitBy sectorOf

/-- Whether an older write of the same core or, for a fused L1 area, of the same cluster, to the same line, or an older one
to the same peer link, is still on its way (R126, R374). -/
def State.olderFlight (s : State) (f : Flight) : Bool :=
  (s.flights.takeWhile (·.id ≠ f.id)).any fun g =>
    (coreCluster g.core = coreCluster f.core && g.line = f.line) || (isPeer g.pa && isPeer f.pa && peerOf g.pa = peerOf f.pa)

/-- CROSS_DIE_APPLY: the first update or notice from a home die to a die, once Applicable holds (R354). -/
def State.applyUpdate (s : State) (home die : Nat) : Option State :=
  match s.updates.find? (fun u => u.home = home && u.die = die) with
  | none => none
  | some u =>
    let own := u.writer = die
    if own ∨ applicable (s.die die).clock u.stamp u.writer then
      let line := match u.bytes with | (pa, _) :: _ => lineOf pa | [] => 0
      let s := { s with updates := s.updates.erase u }
      let s := s.modDie die fun d =>
        { d with
          clock := if own then d.clock else clockSet d.clock u.writer (clockAt u.stamp u.writer)
          replicas := if u.withData then d.replicas.map fun r => if r.line = line then r.overlay u.bytes else r
            else d.replicas }
      some (match u.bytes with | (pa, _) :: _ => s.wakeLine pa | [] => s)
    else none

/-! ### The L1 area (R314, R348) -/

/-- The core whose L1 area holds the line of a virtual address. -/
def l1Core (core : Nat) (fused : Bool) (va : Nat) : Nat :=
  if fused then coreCluster core * 8 + fld va 8 3 else core

/-- Writes a line's dirty bytes back: a write of each sector's is on its way (R121); the clean copies are dropped where asked. -/
def State.writeBack (s : State) (core line : Nat) (drop : Bool) : State :=
  match (s.core core).line line with
  | none => s
  | some x =>
    let cells := x.dirty.map fun p => (line * 256 + p.1, x.bytes.get p.1 0)
    let s := s.modCore core fun c =>
      if drop then c.dropLine line else c.setLine { x with dirty := [] }
    (splitSectors cells).foldl (fun s l => s.launchFlight core none l false none) s

def State.writeBackAll (s : State) (cores : List Nat) : State :=
  cores.foldl (fun s c =>
    ((s.core c).l1.filter (fun x => !x.dirty.isEmpty)).foldl (fun s x => s.writeBack c x.line false) s) s

/-- The line that leaves for a new one, of lines of which the newest stands first (R118): one of policy STREAM before the others,
one of policy KEEP behind them, of equals the one used longest ago (log 25). -/
def l1Victim (l : List L1Line) : Option L1Line :=
  let old := (l.drop 1).reverse
  ((old.find? fun x => x.pol = 1).or (old.find? fun x => x.pol ≠ 2)).or old.head?

/-- The L1 area holds 256 KiB (R200). -/
def State.l1Trim (s : State) (core : Nat) : State :=
  if Config.l1Lines < (s.core core).l1.length then
    match l1Victim (s.core core).l1 with
    | some x => s.writeBack core x.line true
    | none => s
  else s

/-- A line without its clean bytes. -/
def L1Line.onlyDirty (y : L1Line) : Option L1Line :=
  if y.dirty.isEmpty then none else some { y with bytes := y.bytes.filter fun b => y.dirty.any (·.1 = b.1) }

/-- An acquire at cluster scope or wider: the clean bytes of the L1 area are stale, but for the lines of the alias on
which nobody snoops (R348, R372). -/
def State.dropClean (s : State) (cores : List Nat) : State :=
  cores.foldl (fun s c =>
    s.modCore c fun x =>
      { x with l1 := x.l1.filterMap fun (y : L1Line) =>
          if isNonSnooped (y.line * 256) then some y else y.onlyDirty }) s

/-- One masked write of bytes of a line into the L1 area (R348), each byte with the strand that wrote it; a sector that it
covers wholly is clean afterwards (R365). -/
def State.l1Write (s : State) (core : Nat) (cells : List Host.Cell) (strands : List Nat) (pol : Nat) : State :=
  match cells with
  | [] => s
  | (pa, _) :: _ =>
    let line := lineOf pa
    let s := s.modCore core fun c =>
      let x := { (c.line line).getD (.empty line) with pol := pol }
      let x := (cells.zip strands).foldl
        (fun x p => { x with bytes := x.bytes.set (p.1.1 % 256) p.1.2, dirty := x.dirty.set (p.1.1 % 256) p.2 }) x
      c.setLine { x with poison := x.poison.filter fun k =>
        !((List.range 64).all fun b => cells.any (·.1 % 256 = k * 64 + b)) }
    (s.l1Trim core).wakeLine pa

/-- An agent takes a line as its own (R305): the dirty bytes in some cores' L1 areas are sent, and no clean copy stays. -/
def State.takeLine (s : State) (cores : List Nat) (line : Nat) : State :=
  let s := (cores.foldl (fun s c => s.writeBack c line true) s).dropReplicas line
  { s with cores := s.cores.mapVal fun _ (c : Core) =>
      { c with l1 := c.l1.filterMap fun y => if y.line = line then y.onlyDirty else some y } }

/-- Sends bytes straight to their ordering points, after the dirty bytes of their lines (R118 BYPASS, R290). -/
def State.sendStore (s : State) (cores : List Nat) (core : Nat) (bank : Option Nat) (cells : List Host.Cell) (single : Bool)
    (exposes : Option Nat) : State :=
  (splitSectors cells).foldl (fun s l =>
    match l with
    | [] => s
    | (pa, _) :: _ =>
      let s := cores.foldl (fun s c => s.writeBack c (lineOf pa) true) s
      (s.launchFlight core bank l single exposes).wakeLine pa) s

/-! ### What orders and what is awaited -/

def Env.fused (e : Env) : Bool := e.s.fusedOf e.wave.grid
def Env.cores (e : Env) : List Nat := l1Cores e.coreKey e.fused

/-- Whether any requests of a list are still outstanding (R348); `applied` asks that their updates have reached every
die too (R343, R358). -/
def State.awaits (s : State) (ids : List Nat) (applied : Bool) : Bool :=
  s.flights.any (fun f => ids.contains f.id) || s.loads.any (fun l => ids.contains l.id)
    || s.atomics.any (fun a => ids.contains a.id) || s.stores.any (fun r => ids.contains r.id)
    || (applied && s.updates.any fun u => ids.contains u.id)

/-- The loads of a strand that are outstanding; PREF is none (R134). -/
def LoadUse.isPrefetch : LoadUse → Bool | .prefetch .. => true | _ => false
def State.loadsOf (s : State) (strand : Nat) : List Load := s.loads.filter fun l => l.strand = strand && !l.use.isPrefetch

/-- The stores of a strand that are not yet performed. -/
def State.storesOf (s : State) (strand : Nat) : List Nat := (s.stores.filter (·.strands.contains strand)).map (·.id)

/-- The writes that a release at a scope waits for, after the dirty bytes of the L1 areas were written back, and whether
they must have reached every die: device scope waits only until a write for another die has left (R348, R356), in
revision 1, and at system scope, whose readers may stand behind another die, until it has been applied everywhere (R358, R371). -/
def State.releaseIds (s : State) (cores : List Nat) (strand scope revision : Nat) (sc : Bool) : List Nat × Bool :=
  let own := (s.atomics.filter (·.strand = strand)).map (·.id) ++ s.storesOf strand
    ++ (s.loadsOf strand).map (·.id)
  if scope ≤ 2 then (own, false)
  else
    let mine := s.flights.filter fun f => cores.contains f.core
    let all := sc || scope = 6 || (revision = 1 && scope = 5)
    let fs := if scope = 5 && !all then mine.filter (·.stamp.isNone) else mine
    (own ++ fs.map (·.id) ++ (if all then s.updates.map (·.id) else []), all)

/-- The reads of a strand that have not returned their value, which a later own write may not overtake (R335); an atomic
without a destination reads too. -/
def State.readsOutstanding (s : State) (strand : Nat) : Bool :=
  !(s.loadsOf strand).isEmpty || s.atomics.any (·.strand = strand)

/-- Whether two runs of bytes share one. -/
def overlaps (p n q m : Nat) : Bool := decide (p < q + m) && decide (q < p + n)

/-- Whether a write of the strand itself, from before a moment, to bytes that a later access of the strand must see is still held
back (R126). -/
def State.ownHeld (s : State) (strand pa n since : Nat) : Bool :=
  s.stores.any (fun r => decide (r.id < since) && (r.bytes.zip r.strands).any fun b => b.2 = strand && overlaps b.1.1 1 pa n)
    || s.atomics.any fun a => decide (a.id < since) && a.strand = strand && overlaps a.pa a.size pa n && a.done.isNone

/-- Whether an older load of the strand from the same bytes has not returned (R126). -/
def State.olderLoad (s : State) (strand pa n id : Nat) : Bool :=
  (s.loadsOf strand).any fun l => decide (l.id < id) && overlaps l.pa l.size pa n

/-! ### Miss registers (R317) -/

/-- The die and the slice that order an address of device memory now (R313, R315). -/
def State.sliceOf (s : State) (pa : Nat) : Nat × Nat :=
  match homeDie pa with
  | none => (4, 0)
  | some d =>
    let moved := (s.die d).moved.find? fun (m : Moved) => m.line = lineOf pa
    (d, match moved with | some m => m.slice | none => homeSlice pa)

/-- The lines for which a core holds a miss register: those of its loads and atomics, and of the stores whose line is not in
the L1 area that they write. -/
def State.missLines (s : State) (core : Nat) : List Nat :=
  dedup ((s.loads.filter fun l => l.granted && strandCore l.strand = core).map (fun l => lineOf l.pa)
    ++ (s.atomics.filter fun a => a.granted && a.done.isNone && strandCore a.strand = core
        && !(a.inBuffer && ((s.core a.core).line (lineOf a.pa)).isSome)).map (fun a => lineOf a.pa)
    ++ (s.stores.filter fun r => r.granted && r.home = core).filterMap fun r => match r.bytes with
      | (pa, _) :: _ => if ((s.core r.core).line (lineOf pa)).isSome then none else some (lineOf pa)
      | [] => none)

/-- A miss register is free for a line: one of 128, at most 32 of them for one slice; a line that has one shares it. -/
def State.missFree (s : State) (core pa : Nat) : Bool :=
  let lines := s.missLines core
  lines.contains (lineOf pa) ||
    (decide (lines.length < Config.missRegisters) &&
      decide ((lines.filter fun l => s.sliceOf (l * 256) = s.sliceOf pa).length < Config.missPerSlice))

/-- Lines of a core that wait for a miss register, oldest first: the numbers of their requests with their addresses. -/
def State.missWaiting (s : State) (core : Nat) : List (Nat × Nat) :=
  let all := (s.loads.filter fun l => !l.granted && strandCore l.strand = core).map (fun l => (l.id, l.pa))
    ++ (s.atomics.filter fun a => !a.granted && strandCore a.strand = core).map (fun a => (a.id, a.pa))
    ++ (s.stores.filter fun r => !r.granted && r.home = core).filterMap fun r => r.bytes.head?.map fun c => (r.id, c.1)
  (all.foldl (fun l p => (l.filter (·.1 < p.1)) ++ [p] ++ l.filter (p.1 < ·.1)) [])

/-- A new request has its register at once when one is free and no older line waits. -/
def State.missGrant (s : State) (core pa : Nat) : Bool := (s.missWaiting core).isEmpty && s.missFree core pa

/-! ### Contained teams (R290, R291) -/

def sectorsOf (l : List Host.Cell) : List Nat := dedup (l.map fun c => sectorOf c.1)

/-- Performs a team's buffered stores: the writes are on their way before anything later of the commit point. A commit
of at least one byte exposes the team (R291). -/
def State.commit (s : State) (t : Nat) : State :=
  match s.teams.find t with
  | none => s
  | some team =>
    if team.buffer.isEmpty then s
    else
      let core := bankCore team.bank
      let s := s.setTeam t { team with buffer := [], exposed := true }
      s.sendStore (l1Cores core (s.fusedOf team.grid)) core (some team.bank) team.buffer false none

/-- The writes of some cores that are on their way: a commit point's own access comes after them (R290, R346). -/
def State.flightsOf (s : State) (cores : List Nat) : List Nat := (s.flights.filter fun f => cores.contains f.core).map (·.id)

/-- A store into the buffer; a store that needs a 1,025th sector commits first (R290). -/
def State.bufferStore (s : State) (t : Nat) (pa : Nat) (bytes : List Byte) : State :=
  match s.teams.find t with
  | none => s
  | some team =>
    let need := sectorsOf (team.buffer ++ place pa bytes)
    let s := if Config.storeBufferSectors < need.length then s.commit t else s
    (s.modTeam t fun x => { x with buffer := (place pa bytes).foldl (fun b c => Tbl.set b c.1 c.2) x.buffer }).wakeLine pa

/-- The buffer has room for the sectors of some more bytes (R290). -/
def State.bufferFits (s : State) (t pa n : Nat) : Bool :=
  (s.teams.find t).all fun team =>
    decide ((sectorsOf (team.buffer ++ place pa (List.replicate n 0))).length ≤ Config.storeBufferSectors)

def State.contained (s : State) (t : Nat) : Bool :=
  ((s.teams.find t).map fun (x : Team) => x.contained).getD false

/-! ### What a load is served -/

/-- The bytes with the writes over them that some cores have sent since a moment and that are not yet performed (R126, R341): a
read comes after them, as it came after the dirty bytes. -/
def State.overFlights (s : State) (cores : List Nat) (since pa : Nat) (bytes : List Byte) : List Byte :=
  let mine := s.flights.filter fun f => cores.contains f.core && decide (since ≤ f.id) && f.line = lineOf pa
  (place pa bytes).map fun p =>
    mine.foldl (fun b f => match f.bytes.find? (·.1 = p.1) with | some c => c.2 | none => b) p.2

/-- Another core has dirtied a line of a shared L1 area, or its write of the line is on its way from there: in revision 1 the line
is read at its ordering point (R357, R358). -/
def State.dirtiedElsewhere (s : State) (core ownCore line : Nat) : Bool :=
  ((s.core core).line line).any (fun x => x.dirty.any fun p => strandCore p.2 ≠ ownCore)
    || (core ≠ ownCore && s.flights.any fun f => f.core = core && f.line = line)

/-- An element found in the L1 area: all its bytes are there, and in revision 1 no other core has dirtied the line (R358).
`fresh` asks for bytes written here, which an acquire may read (R341, R348); of the alias on which nobody snoops every held
byte will do (R372). -/
def State.l1Hit (s : State) (core ownCore pa n revision : Nat) (fresh : Bool) : Option (List Byte × Bool) :=
  match (s.core core).line (lineOf pa) with
  | none => none
  | some x =>
    let offs := span (pa % 256) n
    let dirty := fun (o : Nat) => x.dirty.has o
    if !(revision = 1 && s.dirtiedElsewhere core ownCore (lineOf pa))
        && offs.all (fun o => x.bytes.has o && (!fresh || isNonSnooped pa || dirty o)) then
      let sector := span (sectorOf pa % 4 * 64) 64
      let bad := x.poison.contains (sectorOf pa % 4) || (offs.all dirty && s.poisonedAt pa && !sector.all dirty)
      some (offs.map fun o => x.bytes.get o 0, bad)
    else none

/-- A write of a die's own core to a line of another die that the own replica has not seen yet: on its way, or performed
with its update still to come (R126, R340, R354). -/
def State.ownPending (s : State) (die line : Nat) : Bool :=
  s.updates.any (fun u => u.die = die && u.writer = die && match u.bytes with | (a, _) :: _ => lineOf a = line | [] => false)
    || s.flights.any (fun f => coreDie f.core = die && f.stamp.isSome && f.line = line)
    || s.atomics.any fun a => coreDie a.core = die && a.stamp.isSome && a.done.isNone && lineOf a.pa = line

/-- An element in a die's replica of its line: its bytes and the poison that its sector was filled with (R314, R353). -/
def Die.replicaHit (d : Die) (pa n : Nat) : Option (List Byte × Bool) :=
  match d.replica (lineOf pa) with
  | none => none
  | some r =>
    let offs := span (pa % 256) n
    if offs.all r.bytes.has then some (offs.map fun o => r.bytes.get o 0, r.poison.contains (sectorOf pa % 4)) else none

/-- Fills the sector of an element in a die's replica of its line (R314, R353). An update on its way to the die was performed
before the fill, and leaves there what the fill has brought (R337). -/
def State.fillReplica (s : State) (die pa : Nat) : State :=
  let line := lineOf pa
  let sec := sectorOf pa % 4
  let s := { s with updates := s.updates.map fun (u : Update) =>
    if u.die = die then
      { u with bytes := u.bytes.map fun (c : Host.Cell) => if sectorOf c.1 = sectorOf pa then (c.1, Memory.read s.mem (memKey c.1)) else c }
    else u }
  s.modDie die fun d =>
    let r := (d.replica line).getD { line := line, bytes := [], poison := [] }
    let r := { r with
      bytes := (span (sectorOf pa * 64) 64).foldl (fun t a => t.set (a % 256) (Memory.read s.mem (memKey a))) r.bytes
      poison := if s.poisonedAt pa then insertNat r.poison sec else r.poison.filter (· ≠ sec) }
    { d with replicas := (r :: d.replicas.filter (·.line ≠ line)).take Config.l2Lines }

/-- Whether a read of a die is served at an ordering point outside the die, which R355 may make it wait for: the home die's clock
must have reached the reader's, and the reader's the home die's, or that of the writes performed in host and peer memory
(R371, R374). -/
def State.pointOpen (s : State) (die pa : Nat) (clock : List Nat) : Bool :=
  match homeDie pa with
  | none => clockGe (s.die die).clock s.device.hostClock || s.linkLost pa
  | some h => h = die || (clockGe (s.die h).clock clock && clockGe (s.die die).clock (s.die h).clock)

/-- What the module's caches and memory below the L1 area serve now to a die: the bytes, their poison, and the state
with the sector filled in the die's replica where it came from another die; none while R355 makes the reader wait (R353,
R355). `point` asks for the ordering point (R358). A request that reaches the ordering point is counted there (R315). -/
def State.serveBelow (s : State) (die : Nat) (cluster : Option Nat) (pa n : Nat) (clock : List Nat) (point : Bool) :
    Option (List Byte × Bool × State) :=
  let counted := fun (s : State) => match cluster with | some c => s.noteRequest pa c | none => s
  match homeDie pa with
  | none => if s.pointOpen die pa clock then some (s.peek pa n, s.poisonedAt pa || s.linkLost pa, s) else none
  | some h =>
    if h = die then some (s.peek pa n, s.poisonedAt pa, counted s)
    else
      match (if point || s.ownPending die (lineOf pa) then none else (s.die die).replicaHit pa n) with
      | some (b, p) => some (b, p, s)
      | none =>
        if s.pointOpen die pa clock then some (s.peek pa n, s.poisonedAt pa, counted (s.fillReplica die pa)) else none

/-- The bytes of an element with the dirty bytes of the L1 area over them (R341, R358). -/
def State.overL1 (s : State) (core ownCore pa revision : Nat) (bytes : List Byte) : List Byte :=
  match (s.core core).line (lineOf pa) with
  | none => bytes
  | some x =>
    (place (pa % 256) bytes).map fun p =>
      match x.dirty.find p.1 with
      | some k => if revision = 1 ∧ strandCore k ≠ ownCore then p.2 else x.bytes.get p.1 0
      | none => p.2

/-- The bytes with the team's buffered bytes over them (R290). -/
def overBuffer (buffer : List Host.Cell) (pa : Nat) (bytes : List Byte) : List Byte :=
  (place pa bytes).map fun p => Tbl.get buffer p.1 p.2

/-- A sector that a buffer covers wholly is as clean as the buffer's bytes (R290, R365). -/
def bufferCovers (buffer : List Host.Cell) (pa : Nat) : Bool := (span (sectorOf pa * 64) 64).all (Tbl.has buffer)

/-- Fills the sector of an element in an L1 area of some cores, keeping what is dirty there and the bytes that these cores have on
their way (R121, R126, R314). A line that a write of the die to another die has not come back to stays out, so that nobody who
has acquired that write finds older bytes here (R339, R340). -/
def State.l1Fill (s : State) (core die pa : Nat) (cores : List Nat) (poison : Bool) (pol : Nat) : State :=
  if s.ownPending die (lineOf pa) then s
  else
    let base := sectorOf pa * 64
    let src := fun (a : Nat) =>
      match (if homeDie pa = some die then none else (s.die die).replica (lineOf pa)) with
      | some r => r.bytes.get (a % 256) 0
      | none => Memory.read s.mem (memKey a)
    let data := place base (s.overFlights cores 0 base ((span base 64).map src))
    (s.modCore core fun c =>
      let x := (c.line (lineOf pa)).getD (.empty (lineOf pa))
      let sec := sectorOf pa % 4
      c.setLine { x with
        bytes := data.foldl (fun t p => if x.dirty.has (p.1 % 256) then t else Tbl.set t (p.1 % 256) p.2) x.bytes
        poison := if poison then insertNat x.poison sec else x.poison.filter (· ≠ sec)
        pol := pol }).l1Trim core

def State.revisionOf (s : State) (strand : Nat) : Nat := (s.bank (waveBank (strandWave strand))).mmrMode.toNat
def State.teamOf (s : State) (strand : Nat) : Nat :=
  ((s.waves.find (strandWave strand)).map fun (w : Wave) => w.team).getD 0
def State.bufferOf (s : State) (strand : Nat) : List Host.Cell :=
  ((s.teams.find (s.teamOf strand)).map fun (t : Team) => t.buffer).getD []

/-- A read of global memory for a strand that is served now: bytes, poison and the state; none while it must wait for a
write that cores of its L1 area sent before moment `since`, a copy that owns the line (`owned`), or R355. An acquire at
cluster scope or wider is served past the clean bytes of the L1 area and drops them (R348); in revision 1 one at device scope
is served at the ordering point, once the core's own writes to the line are performed there, and a fused L1 area gives no byte
that another core has written (R358). -/
def State.readFor (s : State) (owned : Bool) (strand core pa n acquire pol : Nat) (clock : List Nat) (since : Nat) :
    Option (List Byte × Bool × State) :=
  let line := lineOf pa
  let own := strandCore strand
  let rev := s.revisionOf strand
  let cores := s.l1Of strand
  let sync := rev = 1 && decide (5 ≤ acquire)
  let strict := sync || (rev = 1 && decide (1 < cores.length))
  if s.olderLoad strand pa n since || s.ownHeld strand pa n since || owned
      || s.flights.any (fun f => cores.contains f.core && f.line = line && (strict || decide (f.id < since)))
      || (sync && ((s.core core).line line).any fun x => x.dirty.any fun p => strandCore p.2 = own)
  then none
  else
    let buffer := s.bufferOf strand
    let finish := fun (b : List Byte) (p : Bool) (s : State) =>
      some (overBuffer buffer pa b, p && !bufferCovers buffer pa, if 3 ≤ acquire then s.dropClean cores else s)
    match (if sync then none else s.l1Hit core own pa n rev (decide (3 ≤ acquire))) with
    | some (b, p) => finish b p s
    | none =>
      let point := sync || (rev = 1 && s.dirtiedElsewhere core own line)
      match s.serveBelow (coreDie own) (some (coreCluster own)) pa n clock point with
      | none => none
      | some (b, p, s) =>
        let b := if sync then b else s.overL1 core own pa rev (s.overFlights cores since pa b)
        finish b p (if pol = 3 ∨ 3 ≤ acquire then s else s.l1Fill core (coreDie own) pa cores p pol)

/-- A read of a strand (R305: it waits for every copy that owns the line). -/
def State.globalRead (s : State) (strand core pa n acquire pol : Nat) (clock : List Nat) (since : Nat) :
    Option (List Byte × Bool × State) :=
  s.readFor (s.ownedByCopy (lineOf pa)) strand core pa n acquire pol clock since

/-! ### Service at a slice, oldest first (R318) -/

/-- A load that stands at its slice: it has its miss register, and neither the L1 area nor a replica serves it. One that
waits for a copy's line, or for the clocks of R355, holds back its own line alone (R305, R354). -/
def State.loadStands (s : State) (l : Load) : Bool :=
  let die := coreDie (strandCore l.strand)
  let rev := s.revisionOf l.strand
  l.granted && (s.l1Hit l.core (strandCore l.strand) l.pa l.size rev (decide (3 ≤ l.acquire))).isNone
    && !(homeDie l.pa ≠ some die && !(rev = 1 && decide (5 ≤ l.acquire)) && !s.ownPending die (lineOf l.pa)
      && ((s.die die).replicaHit l.pa l.size).isSome)

/-- An older request waits at the slice of an address (R318): one that can be served, or, for the same line, any (R354).
The age of a request is its number. Lines that a copy owns are set aside. -/
def State.olderAtSlice (s : State) (pa id : Nat) : Bool :=
  let here := fun (p : Nat) => isDevice p && s.sliceOf p = s.sliceOf pa && !s.ownedByCopy (lineOf p)
  let same := fun (p : Nat) => lineOf p = lineOf pa
  let open' := fun (core p : Nat) (stamp : Option (List Nat)) =>
    same p || match stamp, homeDie p with
      | some v, some h => applicable (s.die h).clock v (coreDie core)
      | _, _ => true
  isDevice pa && (s.loads.any (fun l => l.id < id && here l.pa && s.loadStands l
      && (same l.pa || s.pointOpen (coreDie (strandCore l.strand)) l.pa l.clock))
    || s.flights.any (fun f => f.id < id && here f.pa && !s.olderFlight f && open' f.core f.pa f.stamp)
    || s.atomics.any fun a => a.id < id && here a.pa && a.granted && a.done.isNone && !s.awaits a.after a.applied
        && (a.stamp.isSome || homeDie a.pa = some (coreDie a.core)) && open' a.core a.pa a.stamp)

/-- A request that leaves a core, the walker or the dispatcher now finds nothing in its way at the line's slice: no copy owns the
line (R305), no older request stands there (R318), and the clocks let its value return (R355). `id` is its age. -/
def State.sliceOpen (s : State) (die pa id : Nat) : Bool :=
  !s.ownedByCopy (lineOf pa) && !s.olderAtSlice pa id && s.pointOpen die pa (s.die die).clock

/-- STORE_PERFORM for a write on its way: none while the order of R318 or R354 holds it back. -/
def State.performFlight (s : State) (f : Flight) : Option State :=
  if s.olderFlight f || s.recalled f.line f.id f.core || s.olderAtSlice f.pa f.id then none
  else
    let rest := { s with flights := s.flights.filter (·.id ≠ f.id) }
    let rest := if f.single then rest.dropReplicas f.line else rest
    let rest := (rest.noteRequest f.pa (coreCluster f.core)).exposeOf f.exposes
    match homeDie f.pa with
    | none => some (if s.linkLost f.pa then rest
        else ((rest.countSent f.pa).performNow f.id f.bytes).joinHost (coreDie f.core))
    | some h =>
      let w := coreDie f.core
      match f.stamp with
      | none => some (rest.performNow f.id f.bytes)
      | some v => if applicable (s.die h).clock v w then some (rest.performAt f.id h w v f.bytes) else none

/-! ### Atomics (R129) -/

/-- The new value of an element. -/
def atomicNew (op : Nat) (isFloat : Bool) (size : Nat) (m x cmp : Dword) : Dword :=
  let lo := fun (w : Dword) => w.setWidth 32
  let up := fun (w : Word) => w.setWidth 64
  let bySize := fun (d : Dword) => if size = 4 then up (lo d) else d
  match op with
  | 0 => bySize (m + x)
  | 1 => up (.ofNat 32 (addF32 (lo m) (lo x) 0 false).1)
  | 2 => if isFloat then up (.ofNat 32 (minMax .f32 false (lo m).toNat (lo x).toNat).1)
         else if (lo x).toInt < (lo m).toInt then x else m
  | 3 => if isFloat then up (.ofNat 32 (minMax .f32 true (lo m).toNat (lo x).toNat).1)
         else if (lo m).toInt < (lo x).toInt then x else m
  | 4 => if x.toNat < m.toNat then x else m
  | 5 => if m.toNat < x.toNat then x else m
  | 6 => m &&& x
  | 7 => m ||| x
  | 8 => m ^^^ x
  | 9 => x
  | 10 => if m = cmp then x else m
  | _ => if (lo x).toNat ≤ (lo m).toNat then 0 else up (lo m + 1)

/-- Words as the physical lane of a strand produces them (R272). -/
def State.produced (s : State) (strand : Nat) (words : List Word) : List Word :=
  match s.waves.find (strandWave strand) with
  | none => words
  | some w =>
    let c := s.core (strandCore strand)
    if c.injects w (strandLane strand) (c.issueCount - 1) then words.map (· ^^^ 1) else words

/-- Removes a request of a strand and lets its result arrive: the registers from d, least significant first, each with its
poison. -/
def State.deliver (s : State) (strand id d : Nat) (words : List (Word × Bool)) : State :=
  let made := s.produced strand (words.map (·.1))
  s.modStrand strand fun st =>
    let st := (List.range made.length).foldl
      (fun st k => st.arrive id (.v (d + k)) (made.getD k 0) ((words.map (·.2)).getD k false)) st
    let st := { st with values := st.values.map fun (v : PairItem) =>
      if v.seq = id ∧ v.words = [] then { v with seq := 0, words := words.map Prod.fst, poison := words.map Prod.snd } else v }
    match st.life with
    | .waiting (.reply k) => if k = id then { st with life := .ready, wait := 0 } else st
    | _ => st

/-- The words of an element as a load writes them (R125). -/
def loadWords (size : Nat) (signed : Bool) (bytes : List Byte) : List Word :=
  let x := fromBytes bytes
  match size with
  | 1 => [if signed then (BitVec.ofNat 8 x).signExtend 32 else .ofNat 32 x]
  | 2 => [if signed then (BitVec.ofNat 16 x).signExtend 32 else .ofNat 32 x]
  | n => (List.range (n / 4)).map fun k => .ofNat 32 (x / 2 ^ (32 * k))

end Sys2Proof.Machine
end

