-- ==== Sys2Proof/Machine/Translate.lean ====
section
/-!
DEFINITION. The page walk of one and of two stages (R319 to R321), the TLBs and the walker's queue (R322 to R325), and what a
translated access may do (R319, R326, R377).
-/

namespace Sys2Proof.Machine

/-! ### The walk -/

/-- What a walk of one stage finds. -/
inductive Leaf where
  | page (base size : Nat) (r w x sys : Bool)
  | absent (level : Nat)
  /-- The descriptor at this physical address has LOCK set (R325). -/
  | locked (pa : Nat)
  /-- The read of a descriptor waits at its slice (R305, R318). -/
  | held
  /-- WALKERR. -/
  | bad
  deriving DecidableEq, Repr

/-- What is found, with the physical addresses of the descriptors that were read for it, each an L2 access (R315, R322). -/
abbrev Noted (α : Type) := α × List Nat
def Noted.of {α : Type} (x : α) : Noted α := (x, [])
/-- The same behind earlier reads. -/
def Noted.after {α : Type} (l : List Nat) (x : Noted α) : Noted α := (x.1, l ++ x.2)

/-- The shift, the index width and the alignment in bits of the nodes of a level (R319). -/
def levelShift (l : Nat) : Nat := match l with | 0 => 48 | 1 => 39 | 2 => 30 | 3 => 21 | _ => 16
def levelIndex (l va : Nat) : Nat := if l < 4 then fld va (levelShift l) 9 else fld va 16 5
def nodeAlign (l : Nat) : Nat := if l < 4 then 4096 else 256

/-- One stage from a node of level `l`, with `fuel` levels left (R319). `phys` gives the physical address of a node
address, none where there is none; `rd` reads a descriptor, none while its line cannot be read. -/
def walkStage (rd : Nat → Option Nat) (phys : Nat → Noted Leaf) (va : Nat) : Nat → Nat → Nat → Noted Leaf
  | 0, _, _ => .of .bad
  | fuel + 1, l, node =>
    let at' := phys (node + 8 * levelIndex l va)
    .after at'.2 <| match at'.1 with
    | .locked pa => .of (.locked pa)
    | .held => .of .held
    | .absent _ | .bad => .of .bad
    | .page pa _ _ _ _ _ =>
      match rd pa with
      | none => .of .held
      | some d =>
        let v := fld d 0 1 = 1
        let t := fld d 1 1 = 1
        let addr := fld d 8 44 * 256
        .after [pa] <|
        if !v && !t then .of (.absent l)
        else if !v then .of .bad
        else if fld d 52 12 ≠ 0 ∨ fld d 5 1 ≠ 0 then .of .bad
        else if t then
          if l = 4 ∨ fld d 6 1 ≠ 0 ∨ fld d 2 3 ≠ 0 ∨ addr % nodeAlign (l + 1) ≠ 0 then .of .bad
          else if fld d 7 1 = 1 then .of (.locked pa)
          else walkStage rd phys va fuel (l + 1) addr
        else
          let size := 2 ^ levelShift l
          if l < 2 ∨ fld d 7 1 = 1 ∨ addr % size ≠ 0 then .of .bad
          else .of (.page addr size (fld d 2 1 = 1) (fld d 3 1 = 1) (fld d 4 1 = 1) (fld d 6 1 = 1))

/-- The addresses of the context table's entries of an ASID and of a VMID (R320). -/
def State.asidAt (s : State) (asid : Nat) : Nat := fld s.device.ctxTab.toNat 12 40 * 4096 + 16 * asid
def State.vmidAt (s : State) (vmid : Nat) : Nat := s.asidAt (8192 + vmid)

/-- The context table's entry of an ASID and of a VMID (R320): the root, S2EN and VMID; none is WALKERR. -/
def State.asidEntry (s : State) (asid : Nat) : Option (Nat × Bool × Nat) :=
  let e := s.peekNum (s.asidAt asid) 16
  if fld e 0 1 = 1 ∧ fld e 2 10 = 0 ∧ fld e 52 12 = 0 ∧ fld e 72 56 = 0 then
    some (fld e 12 40 * 4096, fld e 1 1 = 1, fld e 64 8)
  else none

def State.vmidRoot (s : State) (vmid : Nat) : Option Nat :=
  let e := s.peekNum (s.vmidAt vmid) 16
  if fld e 0 1 = 1 ∧ fld e 1 11 = 0 ∧ fld e 52 76 = 0 then some (fld e 12 40 * 4096) else none

/-- The walker of a die reads a descriptor for a walk with a number. -/
def State.readDescriptor (s : State) (die id pa : Nat) : Option Nat :=
  if s.sliceOpen die pa id then some (s.peekNum pa 8) else none

/-- An address taken as physical, where it exists. -/
def physical (pa : Nat) : Leaf := if pageExists pa 1 && !isWindow pa then .page pa 1 true true true false else .bad

/-- A stage-2 walk (R321). -/
def State.stage2 (s : State) (die id root ipa : Nat) : Noted Leaf :=
  match walkStage (s.readDescriptor die id) (fun a => .of (physical a)) ipa 5 0 root with
  | (.page base size r w x sys, l) => (if pageExists base size then .page base size r w x sys else .bad, l)
  | y => y

/-- A stage-2 walk that gives the physical address of one node address (R321, R325). -/
def State.nodeAddress (s : State) (die id root ipa : Nat) : Noted Leaf :=
  match s.stage2 die id root ipa with
  | (.page base size _ _ _ _, l) => (physical (base + ipa % size), l)
  | y => y

/-- What the walker answers (R319 to R321). -/
inductive Walked where
  | entry (e : TlbEntry)
  | locked (pa : Nat)
  | held
  | bad
  deriving DecidableEq, Repr

/-- The range of addresses that one descriptor of a level covers (R319). -/
def levelRange (l va : Nat) : Nat × Nat := (va / 2 ^ levelShift l * 2 ^ levelShift l, 2 ^ levelShift l)

/-- The level of a leaf by the size of its page. -/
def leafLevel (size : Nat) : Nat := if size = 2 ^ 30 then 2 else if size = 2 ^ 21 then 3 else 4

/-- The entry of a page that is not present, for the 64 KiB around the address. `page` and `page2` are the ranges of the
stage-1 and of the stage-2 descriptor that the walk read last. -/
def absentEntry (asid vmid va ipa stage level : Nat) (page page2 : Nat × Nat) : TlbEntry :=
  { asid := asid, vmid := vmid, va := va / 65536 * 65536, size := 65536, pa := 0, ipa := ipa / 65536 * 65536, page := page,
    page2 := page2, r := false, w := false, x := false, sys := false, present := false, stage := stage, level := level,
    level2 := level, stageR := stage, stageW := stage, stageX := stage, stageS := stage }

/-- The entry of a page that stage 1 alone maps. -/
def oneStage (asid va base size : Nat) (r w x sys : Bool) : TlbEntry :=
  { asid := asid, vmid := 0, va := va / size * size, size := size, pa := base, ipa := 0,
    page := levelRange (leafLevel size) va, page2 := (0, 0), r := r, w := w, x := x, sys := sys, present := true,
    stage := 1, level := leafLevel size, level2 := 0, stageR := 1, stageW := 1, stageX := 1, stageS := 1 }

/-- The entry of a page that both stages map: the smaller page, the permissions that both grant. A fault of a permission names the
stage and the level of the leaf that refuses. -/
def twoStages (asid vmid va ipa size base2 size2 : Nat) (r w x sys r2 w2 x2 sys2 : Bool) : TlbEntry :=
  let both := min size size2
  let pick := fun (one : Bool) => if one then 2 else 1
  { asid := asid, vmid := vmid, va := va / both * both, size := both,
    pa := (base2 + ipa % size2) / both * both, ipa := ipa / both * both, page := levelRange (leafLevel size) va,
    page2 := levelRange (leafLevel size2) ipa, r := r && r2, w := w && w2, x := x && x2, sys := sys || sys2,
    present := true, stage := 1, level := leafLevel size, level2 := leafLevel size2, stageR := pick r,
    stageW := pick w, stageX := pick x, stageS := pick (!sys) }

/-- The walk below the ASID's entry, with one consistent result of each stage (R324). -/
def State.walkFrom (s : State) (die id asid va : Nat) : Noted Walked :=
  match s.asidEntry asid with
  | none => .of .bad
  | some (root, false, _) =>
    match walkStage (s.readDescriptor die id) (fun a => .of (physical a)) va 5 0 root with
    | (.locked pa, l) => (.locked pa, l)
    | (.held, l) => (.held, l)
    | (.bad, l) => (.bad, l)
    | (.absent n, l) => (.entry (absentEntry asid 0 va 0 1 n (levelRange n va) (0, 0)), l)
    | (.page base size r w x sys, l) =>
      (if pageExists base size then .entry (oneStage asid va base size r w x sys) else .bad, l)
  | some (root, true, vmid) =>
    if !s.sliceOpen die (s.vmidAt vmid) id then .of .held
    else .after [s.vmidAt vmid] <| match s.vmidRoot vmid with
    | none => .of .bad
    | some root2 =>
      match walkStage (s.readDescriptor die id) (s.nodeAddress die id root2) va 5 0 root with
      | (.locked pa, l) => (.locked pa, l)
      | (.held, l) => (.held, l)
      | (.bad, l) => (.bad, l)
      | (.absent n, l) => (.entry (absentEntry asid vmid va 0 1 n (levelRange n va) (0, 0)), l)
      | (.page base size r w x sys, l) =>
        let ipa := base + va % size
        .after l <| match s.stage2 die id root2 ipa with
        | (.locked pa, l) => (.locked pa, l)
        | (.held, l) => (.held, l)
        | (.bad, l) => (.bad, l)
        | (.absent n, l) =>
          (.entry (absentEntry asid vmid va ipa 2 n (levelRange (leafLevel size) va) (levelRange n ipa)), l)
        | (.page base2 size2 r2 w2 x2 sys2, l) =>
          (.entry (twoStages asid vmid va ipa size base2 size2 r w x sys r2 w2 x2 sys2), l)

/-- A whole walk of a die's walker with translation on (R319 to R321), under the number that gives its age. -/
def State.walk (s : State) (die id asid va : Nat) : Noted Walked :=
  if s.sliceOpen die (s.asidAt asid) id then .after [s.asidAt asid] (s.walkFrom die id asid va) else .of .held

/-! ### TLBs and the use of an entry -/

def TlbEntry.covers (e : TlbEntry) (asid va : Nat) : Bool := e.asid = asid && e.va ≤ va && va < e.va + e.size

/-- The entry that the core's or the cluster's TLB holds (R322). -/
def State.tlbFind (s : State) (core asid va : Nat) : Option TlbEntry :=
  match (s.core core).tlb.find? (·.covers asid va) with
  | some e => some e
  | none => (s.cluster (coreCluster core)).tlb.find? (·.covers asid va)

/-- Keeps a walk's result in both TLBs, of 64 and of 2,048 entries (R322). -/
def State.tlbFill (s : State) (core : Nat) (e : TlbEntry) : State :=
  let add := fun (n : Nat) (l : List TlbEntry) => (e :: l.filter fun x => !x.covers e.asid e.va).take n
  (s.modCore core fun c => { c with tlb := add 64 c.tlb }).modCluster (coreCluster core) fun c =>
    { c with tlb := add 2048 c.tlb }

/-- The fault-record kinds of R326. -/
def kLoad : Nat := 0
def kStore : Nat := 1
def kAtomic : Nat := 2
def kFetch : Nat := 3
def kCopyRead : Nat := 4
def kCopyWrite : Nat := 5
def kTable : Nat := 6

/-- What an entry allows (R319, R326): needs 0 R, 1 W, 2 R and W, 3 X. The physical address, or REASON, stage, level
and the IPA that stage 2 refused. -/
def TlbEntry.use (e : TlbEntry) (level need va : Nat) : Except (Nat × Nat × Nat × Nat) Nat :=
  let no := fun (reason stage : Nat) =>
    Except.error (reason, stage, (if stage = 2 then e.level2 else e.level), if stage = 2 then e.ipa + va % e.size else 0)
  if !e.present then no 0 e.stage
  else if (need = 0 || need = 2) && !e.r then no 1 e.stageR
  else if (need = 1 || need = 2) && !e.w then no 1 e.stageW
  else if need = 3 && !e.x then no 1 e.stageX
  else if e.sys && level = 0 then no 2 e.stageS
  else .ok (e.pa + va % e.size)

/-- Translation off: level 2 uses VA = PA where the address exists (R320, log 14). -/
def State.untranslated (s : State) (level va : Nat) : Option (Option Nat) :=
  if s.device.ctxTab.getLsbD 0 then none
  else if level = 2 ∧ pageExists va 1 then some (some va) else some none

/-- The physical address of an access, or its fault. Only copies reach a network window (R377). -/
def TlbEntry.answer (t : TlbEntry) (level need va kind : Nat) : Act Nat :=
  let code := if kind = kFetch then FETCH else XLATE
  match t.use level need va with
  | .ok pa => if isWindow pa then .error (.park code va kind 1 t.stage t.level 0 t.vmid) else .ok pa
  | .error (reason, stage, level, ipa) => .error (.park code va kind reason stage level ipa t.vmid)

/-- The translation that a core uses for an address: an issue uses what the TLBs held at its start and what its walks have found
since, so that all lanes of a line have one translation (R322). -/
def State.entryFor (s : State) (core asid va : Nat) : Option TlbEntry :=
  match s.issue with
  | some i => if i.core = core then i.tlb.find? (·.covers asid va) else s.tlbFind core asid va
  | none => s.tlbFind core asid va

/-- The physical address of an access for a context at a level, or its fault, or the walk that it waits for (R319, R322, R326,
R377). -/
def State.translateNow (s : State) (core asid level va need kind : Nat) : Act Nat :=
  match s.untranslated level va with
  | some none => .error .walkErr
  | some (some pa) =>
    if isWindow pa then .error (.park (if kind = kFetch then FETCH else XLATE) va kind 1 1 4 0 0) else .ok pa
  | none =>
    match s.entryFor core asid va with
    | none => .error (.walk va)
    | some t => t.answer level need va kind

/-- The same for the executing strand. -/
def Env.translate (e : Env) (va need kind : Nat) : Act Nat := e.s.translateNow e.coreKey e.asid e.level va need kind

/-- The walks of a die in age order; the first of them have the walker's slots (R322). -/
def State.walksOf (s : State) (die : Nat) : List Walk := s.walks.filter fun w => coreDie w.core = die
def State.hasSlot (s : State) (w : Walk) : Bool :=
  (((s.walksOf (coreDie w.core)).take Config.walkSlots).any (·.id = w.id))

/-- A unit whose translation misses asks the walker, once for a page (R322). -/
def State.askWalk (s : State) (who : Walker) (core asid va : Nat) : Option State :=
  if s.walks.any fun w => w.who = who && w.asid = asid && w.va / 65536 = va / 65536 then none
  else
    let (id, s) := s.fresh
    some { s with walks := s.walks ++ [{ id := id, who := who, core := core, asid := asid, va := va, locked := none,
                                         written := false }] }

/-- What a walk of the queue finds now. -/
def State.walkNow (s : State) (w : Walk) : Noted Walked := s.walk (coreDie w.core) w.id w.asid w.va

/-- An entry reaches the TLBs, and the issue of its core. -/
def State.takeEntry (s : State) (core : Nat) (e : TlbEntry) : State :=
  { s.tlbFill core e with issue := s.issue.map fun (i : Issue) => if i.core = core then { i with tlb := i.tlb ++ [e] } else i }

/-- The load of an element of a strand that has missed, under a new request number (R121, R317). -/
def State.request (s : State) (l : Load) : Nat × State :=
  let (id, s) := s.fresh
  let core := strandCore l.strand
  (id, { s with loads := s.loads ++ [{ l with id := id, granted := s.missGrant core l.pa, clock := (s.die (coreDie core)).clock }] })

/-- PREF's line is requested, sector by sector, once for an issue (R121, R134). Level 0 is the L1 area, 4 the die's L2; below them is
the memory-side cache, in which no byte differs from memory. -/
def State.prefetchLine (s : State) (strand issue asid level pol va pa : Nat) : State :=
  let core := strandCore strand
  let mine := s.loads.any fun l => l.use = .prefetch level issue && strandCore l.strand = core && lineOf l.pa = lineOf pa
  if mine ∨ (level ≠ 0 ∧ level ≠ 4) ∨ (level = 0 ∧ pol = 3) then s
  else (List.range 4).foldl (fun s j =>
    let sec := lineOf pa * 256 + 64 * j
    (s.request { id := 0, strand := strand, use := .prefetch level issue, core := l1Core core (s.fusedOf (s.gridOf strand)) va,
                 asid := asid, va := va / 256 * 256 + 64 * j, pa := sec, size := 64, signed := false, d := 0, acquire := 0,
                 pol := pol, granted := false, clock := [] }).2) s

end Sys2Proof.Machine
end

