-- ==== Sys2Proof/Machine/CopyLines.lean ====
section
/-!
DEFINITION. The blocks of copies (R296 to R299, R306), network windows (R376, R377), the lines that a copy owns (R305), and what
becomes of the answer of a walk (R322, R325), by which copies come to own lines.
-/

namespace Sys2Proof.Machine

/-! ### What a copy's blocks are -/

/-- The part of a block that is read and written as one: source and destination as a virtual address or a scratch offset,
their bytes, and the element's number. -/
structure Piece where
  src : Nat
  sn : Nat
  dst : Nat
  dn : Nat
  k : Nat
  deriving DecidableEq, Repr

/-- A byte offset from a handle's BASE0. -/
def copyAddr (h : HRec) (off : Nat) : Nat := if hKind h = kLocal then hBase0 h + off else (hBase0 h + off) % 2 ^ 57

/-- Cuts a run of bytes so that no piece leaves a 64-byte sector on either side. -/
def cutLinear (hs hd : HRec) : Nat → Nat → Nat → Nat → List Piece
  | 0, _, _, _ => []
  | fuel + 1, src, dst, n =>
    if n = 0 then []
    else
      let a := copyAddr hs src
      let b := copyAddr hd dst
      let k := min n (min (64 - a % 64) (64 - b % 64))
      ⟨a, k, b, k, 0⟩ :: cutLinear hs hd fuel (src + k) (dst + k) (n - k)

/-- The index tuple of a flat number, the first index running fastest (R298). -/
def tupleOf : List Nat → Nat → List Nat
  | [], _ => []
  | n :: l, k => k % n :: tupleOf l (k / n)

/-- An element number moved by an index tuple's strides. -/
def strided (start : Nat) (idx : List Nat) (strides : List Int) : Nat :=
  ((start : Int) + ((idx.zip strides).map fun p => (p.1 : Int) * p.2).sum).toNat

/-- The sizes of the element types of CHAIN (R299): f32, bf16, f16, e4m3, e5m2, s8, s32. -/
def chainSize (t : Nat) : Nat := match t with | 0 | 6 => 4 | 1 | 2 => 2 | _ => 1

/-- Elements of a copy, and elements per block of at most 256 bytes. -/
def CopyOp.count : CopyOp → Nat
  | .linear _ _ n => n
  | .tensor _ _ sizes _ _ => sizes.prod
  | .chain _ _ count _ _ _ => count

def CopyOp.perBlock (op : CopyOp) (hd : HRec) : Nat :=
  match op with | .linear .. => 256 | .tensor .. => 256 / hEsize hd | .chain .. => 64

/-- How far into its block the first element of a run lies: blocks end where the destination's words do (R306). -/
def CopyOp.lead (op : CopyOp) (hd : HRec) : Nat :=
  match op with
  | .linear _ dst _ => copyAddr hd dst % 256
  | .tensor .. => 0
  | .chain _ dst _ _ dt _ => copyAddr hd (dst * chainSize dt) / chainSize dt % 64

def CopyOp.blocks (op : CopyOp) (hd : HRec) : Nat := (op.lead hd + op.count + op.perBlock hd - 1) / op.perBlock hd

/-- The landed count (R296, R298, R299). -/
def CopyOp.bytes (op : CopyOp) (hd : HRec) : Nat :=
  match op with | .linear _ _ n => n | _ => op.count * hEsize hd

/-- The element of a tensor with a number. -/
def tensorPiece (hs hd : HRec) (src dst : Nat) (sizes : List Nat) (sstr dstr : List Int) (k : Nat) : Piece :=
  let size := hEsize hd
  let idx := tupleOf sizes k
  ⟨copyAddr hs (strided src idx sstr * size), size, copyAddr hd (strided dst idx dstr * size), size, k⟩

/-- The elements of a tensor that land with one block: those of a scratch word together, with the first of them, so that nobody
finds old and new bytes within the word (R306). -/
def tensorBlock (hd : HRec) (at' : Nat → Piece) (count per block : Nat) : List Nat :=
  let first := fun (k : Nat) =>
    if hKind hd = kLocal ∧ hEsize hd < 4 then
      ((List.range k).find? fun j => (at' j).dst / 4 = (at' k).dst / 4).getD k
    else k
  (List.range count).filter fun k => first k / per = block

/-- The pieces of one block. -/
def CopyOp.pieces (op : CopyOp) (hs hd : HRec) (block : Nat) : List Piece :=
  let first := op.perBlock hd * block - op.lead hd
  let n := min op.count (op.perBlock hd * (block + 1) - op.lead hd) - first
  match op with
  | .linear src dst _ => cutLinear hs hd 257 (src + first) (dst + first) n
  | .tensor src dst sizes sstr dstr =>
    let at' := tensorPiece hs hd src dst sizes sstr dstr
    (tensorBlock hd at' op.count (op.perBlock hd) block).map at'
  | .chain src dst _ st dt _ =>
    (span first n).map fun k =>
      let off := if st = 7 then (src + k) / 2 else (src + k) * chainSize st
      ⟨copyAddr hs off, chainSize st, copyAddr hd ((dst + k) * chainSize dt), chainSize dt, k⟩

def Copy.pieces (c : Copy) (block : Nat) : List Piece := c.op.pieces c.hs c.hd block

/-! ### Network windows (R376, R377) -/

/-- The table entry of a network window: valid and without error, its remote address and its length. -/
def State.windowEntry (s : State) (w : Nat) : Option (Bool × Nat × Nat) :=
  let base := fld s.device.nwtBase.toNat 12 40 * 4096
  if base = 0 ∨ 2 ^ (fld s.device.nwtBase.toNat 0 4 + 4) ≤ w then none
  else
    let f := s.peekNum (base + 64 * w) 4
    some (decide (fld f 0 1 = 1 ∧ fld f 1 1 = 0), s.peekNum (base + 64 * w + 16) 8, s.peekNum (base + 64 * w + 24) 8)

/-- A window byte that a copy may reach: the remote address, or none (R377). The entry's line may belong to an earlier copy (R305). -/
def State.windowByte (s : State) (c : Copy) (pa : Nat) : Act (Option Nat) :=
  let entry := fld s.device.nwtBase.toNat 12 40 * 4096 + 64 * windowOf pa
  if s.ownedBefore (lineOf entry) c.id then .error .hold
  else match s.windowEntry (windowOf pa) with
  | some (true, rva, len) => .ok (if pa % 2 ^ 40 < len then some (rva + pa % 2 ^ 40) else none)
  | _ => .ok none

/-! ### The addresses of a copy and the lines that it owns (R305, R307) -/

/-- The physical address of an access of the engine, with the level and VMID that its fault record names, or the walk that it waits
for. -/
def State.copyAddress (s : State) (c : Copy) (va need kind : Nat) : Act (Nat × Nat × Nat) :=
  let level := s.levelOf c.strand
  match s.untranslated level va with
  | some none => .error .walkErr
  | some (some pa) => .ok (pa, 4, 0)
  | none =>
    match s.entryFor (strandCore c.strand) (s.asidOf c.strand) va with
    | none => .error (.walk va)
    | some t =>
      match t.use level need va with
      | .ok pa => .ok (pa, t.level, t.vmid)
      | .error (reason, stage, lv, ipa) => .error (.park XLATE va kind reason stage lv ipa t.vmid)

/-- Where an address of a copy lies, when a TLB or the page tables say so now. -/
def State.copyPlace (s : State) (c : Copy) (va need : Nat) : Option Nat :=
  match s.copyAddress c va need 0 with
  | .ok (pa, _) => some pa
  | .error (.walk _) =>
    (match (s.walk (coreDie (strandCore c.strand)) s.nextId (s.asidOf c.strand) va).1 with
    | .entry t => (t.use (s.levelOf c.strand) need va).toOption
    | _ => none)
  | .error _ => none

def own : List (Nat × Nat) → Nat → Nat → List (Nat × Nat)
  | [], line, n => [(line, n)]
  | p :: l, line, n => if p.1 = line then (line, p.2 + n) :: l else p :: own l line n

/-- The lines of a copy's global destination as they can be told now: the physical lines with their bytes still to land, the
virtual lines without a translation, and the windows that the copy names. -/
structure CopyLines where
  lines : List (Nat × Nat)
  unplaced : List Nat
  windows : List Nat

def State.copyLines (s : State) (c : Copy) : CopyLines :=
  let all := ((List.range c.blocks).filter fun k => !c.landed.contains k).flatMap fun k => c.pieces k
  let dsts := if hKind c.hd = kLocal then [] else all.map fun p => (p, s.copyPlace c p.dst 1)
  let src := if hKind c.hs = kLocal then [] else all.filterMap fun p => s.copyPlace c p.src 0
  let placed := dsts.filterMap fun x => x.2.map fun pa => (pa, x.1.dn)
  { lines := ((placed.filter fun x => !isWindow x.1).map (fun x => (lineOf x.1, x.2))
      ++ c.writes.map fun w => (w.line, w.count)).foldl (fun l x => own l x.1 x.2) []
    unplaced := dedup ((dsts.filter fun x => x.2.isNone).map fun x => x.1.dst / 256)
    windows := dedup (((placed.map (·.1) ++ src).filter isWindow).map windowOf) }

def State.changeCopy (s : State) (b id : Nat) (f : Copy → Copy) : State :=
  s.modBank b fun x => { x with copies := x.copies.map fun c => if c.id = id then f c else c }

/-- Takes the lines of a copy that have a translation now and that it does not own yet (R305): what its own cores have written
there comes first. -/
def State.ownLines (s : State) (b : Nat) (c : Copy) : State :=
  let l := s.copyLines c
  let new := (l.lines.map (·.1)).filter fun x => !c.owns x
  let cores := s.l1Of c.strand
  let s := new.foldl (fun s x => s.takeLine cores x) s
  let first := (s.flights.filter fun f => cores.contains f.core && new.contains f.line).map (·.id)
  s.changeCopy b c.id fun c =>
    { c with owned := l.lines, unplaced := l.unplaced, windows := dedup (c.windows ++ l.windows), after := dedup (c.after ++ first) }

/-- A walk has found a translation: the copies of its context own from now on the lines that they could not tell at their issue.
DEDUCED (log 49): R305 takes a line at the copy's issue; one that has no translation then is taken with its first. -/
def State.claimLines (s : State) (asid : Nat) : State :=
  (s.banks.flatMap fun p => (p.2.copies.filter fun c => c.unplaced ≠ [] && s.asidOf c.strand = asid).map fun c => (p.1, c)).foldl
    (fun s x => s.ownLines x.1 x.2) s

/-! ### The answer of a walk -/

/-- What a walk finds now (R319 to R325): the TLBs are filled and the lanes that share it go on, or WALKERR, or the walk
waits for a lock, or for a line that it cannot read yet; a PREF is dropped where it would fault (R134). Each descriptor read is a request at its line (R315). -/
def State.walked (s : State) (w : Walk) : State :=
  let (found, reads) := s.walkNow w
  let counted := fun (s : State) => reads.foldl (fun s pa => s.noteRequest pa (coreCluster w.core)) s
  let rest := { s with walks := s.walks.filter (·.id ≠ w.id) }
  match found with
  | .entry e =>
    let s := ((counted rest).takeEntry w.core e).claimLines w.asid
    let s := match w.who with
      | .prefetch k issue level pol =>
        (match e.answer (s.gridLevel (s.gridOf k)) 0 w.va kLoad with
        | .ok pa => s.prefetchLine k issue w.asid level pol w.va pa
        | .error _ => s)
      | _ => s
    { s with strands := s.strands.mapVal fun _ (st : Strand) =>
        if st.life = .waiting (.walk w.id) then { st with life := .ready } else st }
  | .locked pa =>
    counted { s with walks := s.walks.map fun (x : Walk) =>
        if x.id = w.id then { x with locked := some (memKey pa / 256), written := false } else x }
  | .held => s
  | .bad =>
    match w.who with
    | .prefetch .. => counted rest
    | who => (counted rest).walkError w.asid
      (match who.strand with | some k => laneError s k w.va | none => { ErrorRec.blank with va := w.va })

end Sys2Proof.Machine
end

