-- ==== Sys2Proof/Machine/SysReg.lean ====
section
/-!
DEFINITION. The system registers (R73, R254): the levels that read and write them, their values, the checks of their maps,
and the effect of a write (R166, R186, R229, R252, R253, R288, R320, R327, R361, R364, R366, R376).
-/

namespace Sys2Proof.Machine

/-- The level that a read of a register needs (R254). -/
def systemReadLevel (n : Nat) : Nat :=
  match n with
  | 0x04 | 0x05 | 0x20 | 0x21 | 0x23 | 0x24 | 0x25 => 1
  | 0x22 => 2
  | n => if 0x30 ≤ n ∧ n ≤ 0x37 then 1 else 0

/-- The level that a write needs; none for a register that no WRS writes. -/
def systemWriteLevel (n : Nat) : Option Nat :=
  match n with
  | 0x00 | 0x01 | 0x02 | 0x10 => some 0
  | 0x04 | 0x05 | 0x06 | 0x21 | 0x23 => some 1
  | 0x20 | 0x22 | 0x24 | 0x25 => some 2
  | n => if 0x30 ≤ n ∧ n ≤ 0x37 then some 2 else none

/-- The registers of a fault, which only a strand In handler reads (R251, R254). -/
def isFaultReg (n : Nat) : Bool := n = 7 || n = 8 || n = 9

/-- A register's value for a strand. -/
def State.readSystem (s : State) (k : Nat) (n : Nat) : Dword :=
  let b := s.bank (waveBank (strandWave k))
  let core := strandCore k
  let cl := s.cluster (coreCluster core)
  let st := s.strands.find k
  let w := s.waves.find (strandWave k)
  let up := fun (x : Word) => (x.setWidth 64 : Dword)
  match n with
  | 0x00 => up b.patience
  | 0x01 => up b.greed
  | 0x02 => up b.chksb
  | 0x03 => up b.mmrMode
  | 0x04 => up (s.core core).mxwd
  | 0x05 => up cl.gatherWin
  | 0x06 => b.trapBase
  | 0x07 => (st.map fun (x : Strand) => x.faultPc).getD 0
  | 0x08 => (st.map fun (x : Strand) => x.faultVa).getD 0
  | 0x09 => up ((st.map fun (x : Strand) => x.faultCode).getD 0)
  | 0x10 => up ((w.map fun (x : Wave) => x.gstat).getD 0)
  | 0x11 => .ofNat 64 (s.gridLevel ((w.map fun (x : Wave) => x.grid).getD 0))
  | 0x20 => s.device.ctxTab
  | 0x21 => cl.fqBase
  | 0x22 => cl.fqBase2
  | 0x23 => cl.scribeEnt
  | 0x24 => s.device.errBase
  | 0x25 => s.device.nwtBase
  | n => s.device.hbmStat.get (n - 0x30) 0

/-- The map of FQBASE, FQBASE2 and ERRBASE (R327, R366). -/
def ringMap (x : Nat) : Bool := fld x 52 12 = 0 && fld x 4 8 = 0 && fld x 0 4 ≤ 10

/-- The checks of a register's own map. -/
def systemValueOk (n : Nat) (v : Dword) : Bool :=
  let x := v.toNat
  match n with
  | 0x00 => x ≤ 7
  | 0x01 => 1 ≤ x && x ≤ 255
  | 0x02 => x ≤ 1
  | 0x04 => fld x 16 15 = 0 && !(fld x 31 1 = 1 && fld x 0 16 = 0)
  | 0x05 => 1 ≤ x && x ≤ 65535
  | 0x06 => fld x 57 7 = 0 && fld x 0 4 = 0
  | 0x20 => fld x 52 12 = 0 && fld x 1 11 = 0
  | 0x21 | 0x22 | 0x24 => ringMap x
  | 0x23 => fld x 57 7 = 0 && fld x 1 3 = 0
  | 0x25 => fld x 52 12 = 0 && fld x 4 8 = 0 && fld x 0 4 ≤ 6
  | _ => true

/-- The effect of a write by a strand. A write of SCRIBEENT with EN = 1 asks for the scribe wave, one of HBMSTAT for the
clearing of the ones (R361, R364). -/
def State.applySystem (s : State) (k : Nat) (n : Nat) (v : Dword) : State :=
  let bank := waveBank (strandWave k)
  let core := strandCore k
  let lo : Word := v.setWidth 32
  let cluster := fun (f : Cluster → Cluster) => s.modCluster (coreCluster core) f
  match n with
  | 0x00 => s.modBank bank fun b => { b with patience := lo }
  | 0x01 => s.modBank bank fun b => { b with greed := lo }
  | 0x02 => s.modBank bank fun b => { b with chksb := lo }
  | 0x04 => s.modCore core fun c => { c with mxwd := lo }
  | 0x05 => cluster fun c => { c with gatherWin := lo }
  | 0x06 => s.modBank bank fun b => { b with trapBase := v }
  | 0x10 => s.modWave (strandWave k) fun w => { w with gstat := lo &&& 0xFFC7 }
  | 0x20 => s.setDevice { s.device with ctxTab := v }
  | 0x21 => cluster fun c => { c with fqBase := v }
  | 0x22 => cluster fun c => { c with fqBase2 := v }
  | 0x23 => cluster fun c => { c with scribeEnt := v, scribeStart := v.getLsbD 0 }
  | 0x24 => s.setDevice { s.device with errBase := v }
  | 0x25 => s.setDevice { s.device with nwtBase := v }
  | n =>
    if 0x30 ≤ n ∧ n ≤ 0x37 then
      s.setDevice { s.device with hbmClear := s.device.hbmClear.set (n - 0x30) (s.device.hbmClear.get (n - 0x30) 0 ||| v) }
    else s

/-- A write at the strand's turn: it takes effect when the issue ends (R256). -/
def State.writeSystem (s : State) (k : Nat) (n : Nat) (v : Dword) : State :=
  match s.issue with
  | some i => { s with issue := some { i with writes := i.writes ++ [(k, n, v)] } }
  | none => s.applySystem k n v

end Sys2Proof.Machine
end

