-- ==== Sys2Proof/Machine/Issue.lean ====
section
/-!
DEFINITION. Fetch (R15, R56, R170), readiness (R17, R26, R164, R169), the choice of the wave (R162, R163, R266, R328),
the census (R164), the end of an issue with its counters (R167, R203, R205), and what runs when the schedule is empty
(log 2). The meaning of instructions is a parameter `run`, so that a lane is not Ready exactly when its instruction
would hold (log 15).
-/

namespace Sys2Proof.Machine

abbrev Run := Instr → State → Host.Outcome State Fault Refusal
/-- The meaning of one event. -/
abbrev Event := State → Host.Outcome State Fault Refusal

/-! ### Fetch -/

/-- A word of a strand's code in the instruction cache; a line of a page that admits system levels alone serves no strand of
level 0 (R319). -/
def Core.fetchWord (c : Core) (asid version level : Nat) (pc : Nat) : Option Nat :=
  match c.icache.find? (fun l => l.asid = asid && l.version = version && l.line = pc / 256 && !(l.sys && level = 0)) with
  | some l => some (fromBytes ((List.range 4).map fun k => l.bytes.getD (pc % 256 + k) 0))
  | none => none

/-- What a fetch finds: the address of a word whose line is not there, or the bundle, its class and its number of
words. -/
inductive Fetched where
  | missing (va : Nat)
  | bundle (b : Bundle) (cls : Nat)

/-- Reads a bundle's words from `pc`, with fuel for every word of the address space. -/
def Core.fetchFrom (c : Core) (asid version level : Nat) : Nat → Nat → List Nat → Fetched
  | 0, pc, _ => .missing pc
  | n + 1, pc, pre =>
    match c.fetchWord asid version level pc with
    | none => .missing pc
    | some w =>
      if isPrefix w then c.fetchFrom asid version level n ((pc + 4) % 2 ^ 57) (pre ++ [w]) else .bundle (bundleOf pre w) (w / 2 ^ 26)

/-- The code version of a strand (R10). -/
def State.versionOf (s : State) (strand : Nat) : Nat :=
  ((s.grids.find (s.gridOf strand)).map fun (g : Grid) => g.version).getD 0

def State.fetch (s : State) (k : Nat) (st : Strand) : Fetched :=
  (s.core (strandCore k)).fetchFrom (s.asidOf k) (s.versionOf k) (s.levelOf k) (2 ^ 55) st.pc.toNat []

/-- The code version of a context with a number (R15). -/
def State.codeVersion (s : State) (asid version : Nat) : Option CodeVersion := do
  let c ← s.device.contexts.find asid
  c.versions.find? (·.number = version)

/-- The physical address of a word in a code version (R15). -/
def CodeVersion.page (v : CodeVersion) (va : Nat) : Option Nat :=
  (v.pages.find? fun p => p.va = va / 65536 * 65536).map fun p => p.pa + va % 65536

/-- The fetch of a word needs an executable mapping: the leaf must be present, grant X, and admit the strand's level (R14,
R319), and the code version that the strand is bound to must hold the page, from which the word comes (R15). A context
whose code no image has brought, such as that of the rubric program, has its page tables alone. The answer is the physical
address, with whether the page admits system levels alone. -/
def State.fetchAt (s : State) (core asid version level va : Nat) : Act (Nat × Bool) := do
  let pa ← match s.untranslated level va, s.codeVersion asid version with
    | none, some _ => (match s.entryFor core asid va with
      | none => .error (.walk va)
      | some t => match t.use level 3 va with
        | .ok pa => .ok pa
        | .error (reason, stage, lv, ipa) => .error (.park FETCH va kFetch reason stage lv ipa t.vmid))
    | some (some pa), some _ => .ok pa
    | _, _ => s.translateNow core asid level va 3 kFetch
  let t := if s.device.ctxTab.getLsbD 0 then s.entryFor core asid va else none
  let sys := t.any (·.sys)
  match s.codeVersion asid version with
  | none => .ok (pa, sys)
  | some v => match v.page va with
    | some x => .ok (x, sys)
    | none => .error (.park FETCH va kFetch 0 1 4 0 ((t.map fun (x : TlbEntry) => x.vmid).getD 0))

/-- Puts a 256-byte line into the instruction cache, which holds 512 of them (R170). DESIGN CHOICE (log 25): of a full cache
the line that was filled longest ago leaves. -/
def State.fillCode (s : State) (core asid version va pa : Nat) (sys : Bool) : State :=
  let bytes := s.peek (pa / 256 * 256) 256
  (s.noteRequest pa (coreCluster core)).modCore core fun c => { c with
    icache := ({ asid := asid, version := version, line := va / 256, bytes := bytes, sys := sys } ::
      c.icache.filter fun l => !(l.asid = asid && l.version = version && l.line = va / 256)).take Config.codeLines }

/-! ### Readiness -/

/-- Whether the life state lets the strand present its class (R26): Ready, with no drain to wait for (R21), or a wait that
has ended. -/
def State.awake (s : State) (k : Nat) (st : Strand) : Bool :=
  match st.life with
  | .ready => !st.draining
  | .waiting (.acks ids applied) => !s.awaits ids applied
  | .waiting .pair => true
  | .blocked .growPending => match s.waves.find (strandWave k) with | some w => w.grow.isNone | none => false
  | _ => false

/-- The queue of an instruction is full (R111, R112, R212, R292): the numbers of the wave's issues in the SFU and in the
conversion queue, and the entries of the bank's engine queues. -/
def State.unitIssues (s : State) (wave unit : Nat) : List Nat :=
  dedup (((s.core (bankCore (waveBank wave))).results.filter fun r => strandWave r.strand = wave && r.unit = unit).map
    (·.issue))

/-- The bank of the team's engines: the one of wave 0 of a fused-L1 team (R276). -/
def State.engineBank (s : State) (k : Nat) : Nat :=
  ((s.teams.find (s.teamOf k)).map fun (t : Team) => t.bank).getD (waveBank (strandWave k))

/-- The issues that have entries in the load-value queue of a pair (R267). -/
def State.pairEntries (s : State) (wave : Nat) : List Nat :=
  dedup ((s.strands.filter fun p => strandWave p.1 = wave).flatMap fun p => p.2.values.map (·.issue))

def State.queueFull (s : State) (k cls : Nat) : Bool :=
  let w := strandWave k
  if cls = 0x0F then decide (Config.sfuQueue ≤ (s.unitIssues w 1).length)
  else if cls = 0x10 then decide (Config.cvtQueue ≤ (s.unitIssues w 2).length)
  else if cls = 0x1E then decide (Config.mxQueue ≤ (s.bank (s.engineBank k)).mxQueue.length)
  else if cls = 0x1F then decide (Config.copyQueue ≤ (s.bank (s.engineBank k)).copies.length)
  else match s.waves.find w with
    | some x => x.partner.isSome && !x.trailing && decide (Config.loadValueQueue ≤ (s.pairEntries w).length)
    | none => false

/-- The state with room in the queue of a class, to tell a queue limit from other interlocks. -/
def State.withRoom (s : State) (k cls : Nat) : State :=
  let w := strandWave k
  let unit := fun (u : Nat) => s.modCore (strandCore k) fun c =>
    { c with results := c.results.filter fun r => !(strandWave r.strand = w && r.unit = u) }
  if cls = 0x0F then unit 1
  else if cls = 0x10 then unit 2
  else if cls = 0x1E then s.modBank (s.engineBank k) fun b => { b with mxQueue := [] }
  else if cls = 0x1F then s.modBank (s.engineBank k) fun b => { b with copies := [] }
  else { s with strands := s.strands.mapVal fun j (st : Strand) => if strandWave j = w then { st with values := [] } else st }

/-- What a strand is to the census. -/
inductive Presents where
  | cls (c : Nat)
  /-- Only a queue limit holds it (R164). -/
  | limit
  | no
  deriving DecidableEq, Repr

/-- The cursor that gives a lane its bundle. -/
def cursorOf (k : Nat) (st : Strand) (length : Nat) (h : Hints) : Cursor :=
  { strand := k, bundle := st.pc, word := st.pc + BitVec.ofNat 57 (4 * (length - 1)), hints := h }

/-- Whether an instruction would leave the lane where it is, or an event is not enabled. -/
def holds (f : Event) (s : State) : Bool :=
  match f s with
  | .next t => decide (t = s)
  | _ => false

/-- A grid that has teams to place. -/
def Grid.unplaced (g : Grid) : Bool := decide (g.nextTeam < g.launch.teams) && g.status = 0 && !g.retired

/-- A cooperative grid whose teams still wait to start together. -/
def Grid.gathers (g : Grid) : Bool := g.launch.cooperative && g.unplaced

/-- A strand of a cooperative grid that has not been placed whole, which does not start yet (R283, R363). -/
def State.gathering (s : State) (k : Nat) : Bool := (s.grids.find (s.gridOf k)).any Grid.gathers

/-- While the queue of a unit is full, no strand whose next instruction is of its class is Ready, whatever the instruction would
do (R111, R112). -/
def State.unitFull (s : State) (k cls : Nat) : Bool := (cls = 0x0F || cls = 0x10) && s.queueFull k cls

def State.presents (run : Run) (s : State) (k : Nat) : Presents :=
  match s.strands.find k with
  | none => .no
  | some st =>
    if !s.awake k st || s.gathering k then .no
    else match s.fetch k st with
      | .missing _ => .no
      | .bundle b cls =>
        match b.result with
        | .error _ => if s.unitFull k cls then .limit else .cls cls
        | .ok (i, h) =>
          let cur := cursorOf k st b.length h
          if s.unitFull k cls || holds (run i) { s with cur := cur } then
            if s.queueFull k cls && !holds (run i) { s.withRoom k cls with cur := cur } then .limit else .no
          else .cls cls

/-- The strands of a wave that present a class, and those that a queue limit alone holds. -/
def State.census (run : Run) (s : State) (wave : Nat) : List (Nat × Presents) :=
  match s.waves.find wave with
  | none => []
  | some w => (List.range w.width).map fun l => (strandNo wave l, s.presents run (strandNo wave l))

def readyOf (c : List (Nat × Presents)) : List (Nat × Nat) :=
  c.filterMap fun p => match p.2 with | .cls x => some (p.1, x) | _ => none

def State.waveReady (run : Run) (s : State) (wave : Nat) : Bool := !(readyOf (s.census run wave)).isEmpty

/-! ### The choice of the wave -/

/-- The bank that is active. -/
def State.activeBank (s : State) (core : Nat) : Nat := bankNo core (s.core core).active

/-- Whether a core issues at all (R177, R260, R261, R368, R369). -/
def State.issues (s : State) (core : Nat) : Bool :=
  let c := s.core core
  !c.halted && !c.gated && c.swaps.isEmpty && !s.device.stopped && !(s.die (coreDie core)).idle

/-- The wave of a place that may issue (R266). -/
def State.placeWave (run : Run) (s : State) (p : Place) : Option Nat :=
  if s.waveReady run p.wave then some p.wave
  else match p.pair with
    | some q => if s.waveReady run q then some q else none
    | none => none

/-- Moves a wave's place to the back of an age order. -/
def toBack (order : List Place) (wave : Nat) : List Place :=
  order.filter (·.wave ≠ wave) ++ order.filter (·.wave = wave)

/-- A bank as it leaves the active role: its wave was the core's last, and goes behind the others before the bank's next
issue, which begins a run (R162). -/
def Bank.endRun (b : Bank) : Bank :=
  match b.current with
  | some c => { b with order := toBack b.order c, current := none, run := 0, yielded := false }
  | none => b

def firstReady (run : Run) (s : State) : List Place → Option (Place × Nat)
  | [] => none
  | p :: l => match s.placeWave run p with
    | some w => some (p, w)
    | none => firstReady run s l

/-- The scribe wave takes the front of the active bank's age order when a strand of it becomes Ready, and when a bank with
which it has no place becomes active (R163, R328). -/
def State.scribeFront (run : Run) (s : State) (core : Nat) : State :=
  let cl := coreCluster core
  match (s.cluster cl).scribe with
  | none => s
  | some w =>
    if bankCore (waveBank w) ≠ core then s
    else
      let now := (readyOf (s.census run w)).map (·.1)
      let listed := (s.bank (s.activeBank core)).order.any (·.wave = w)
      let fresh := now.any fun k => !listed || !(s.cluster cl).scribeReady.contains k
      let s := s.modCluster cl fun c => { c with scribeReady := now }
      if fresh then
        s.modBank (s.activeBank core) fun b => { b with order := ⟨w, none⟩ :: b.order.filter (·.wave ≠ w) }
      else s

/-- The wave of the next issue and the state with run and age order moved on (R162). -/
def State.chooseWave (run : Run) (s : State) (core : Nat) : Option (Nat × State) :=
  let s := s.scribeFront run core
  let b := s.activeBank core
  let x := s.bank b
  let again := x.current.bind fun c =>
    (x.order.find? fun p => p.wave = c).bind fun p =>
      if x.run < x.greed.toNat ∧ x.yielded = false then (s.placeWave run p).map fun w => (p, w) else none
  match again with
  | some (_, w) => some (w, s.setBank b { x with run := x.run + 1 })
  | none =>
    let order := match x.current with | some c => toBack x.order c | none => x.order
    match firstReady run s order with
    | none => none
    | some (p, w) => some (w, s.setBank b { x with order := order, current := some p.wave, run := 1, yielded := false })

/-! ### The census -/

/-- The class of an issue (R164): presented classes with how many strands present each and the largest wait. -/
def chooseClass (patience : Nat) (l : List (Nat × Nat × Nat)) : Nat :=
  let old := l.any fun p => patience ≤ p.2.2
  let key := fun (p : Nat × Nat × Nat) => if old then p.2.2 else p.2.1
  match l with
  | [] => 0
  | p :: rest => (rest.foldl (fun b q =>
      if key b < key q ∨ (key b = key q ∧ q.1 < b.1) then q else b) p).1

/-- The strands that execute, of those that present the chosen class: an unparked strand re-executes alone (R128, log 44). -/
def State.executing (s : State) (l : List Nat) : List Nat :=
  match l.find? fun k => ((s.strands.find k).map fun (x : Strand) => x.solo).getD false with
  | some k => [k]
  | none => l

/-- The class in which a lane's access is served (R203): local space before the L1 area, smaller elements first; within local
space the register areas come first, which a load issue does not write (R125). -/
def State.serveKey (s : State) (k : Nat) : Nat :=
  match s.strands.find k, s.waves.find (strandWave k) with
  | some st, some w =>
    (match s.fetch k st with
    | .bundle b _ =>
      (match b.result with
      | .ok (i, _) =>
        (match i.handle with
        | some h =>
          let r := (st.handles.getD w.h).get h 0
          hEsizeCode r + (if hKind r = kArea then 0 else if hKind r = kLocal then 5 else 10)
        | none => 0)
      | .error _ => 0)
    | .missing _ => 0)
  | _, _ => 0

/-- Inserts a lane behind the lanes of its class. -/
def insertServed (key : Nat → Nat) (k : Nat) : List Nat → List Nat
  | [] => [k]
  | j :: l => if key k < key j then k :: j :: l else j :: insertServed key k l

/-- The order in which the lanes of an issue execute: ascending, and for a memory class (0x14 LD, 0x15 ST, 0x16 ATOM) class
by class (R4, R203). -/
def State.servedOrder (s : State) (cls : Nat) (l : List Nat) : List Nat :=
  if cls = 0x14 ∨ cls = 0x15 ∨ cls = 0x16 then l.foldl (fun acc k => insertServed s.serveKey k acc) [] else l

/-- Starts an issue of a core: the wave, the class, the executing strands, and the wait counts (R164). A strand's count
becomes 0 when it executes. -/
def State.startIssue (run : Run) (s : State) (core : Nat) : Option State :=
  if !s.issues core then none
  else match s.chooseWave run core with
    | none => none
    | some (wave, s) =>
      let census := s.census run wave
      let ready := readyOf census
      let waitOf := fun (k : Nat) => ((s.strands.find k).map fun (x : Strand) => x.wait).getD 0
      let classes := dedup (ready.map (·.2))
      let table := classes.map fun c =>
        let of := ready.filter (·.2 = c)
        (c, of.length, (of.map fun p => waitOf p.1).foldl Nat.max 0)
      let cls := chooseClass (s.bank (s.activeBank core)).patience.toNat table
      let chosen := s.executing ((ready.filter (·.2 = cls)).map (·.1))
      let strands := census.foldl (fun t p =>
        match p.2 with
        | .cls _ => Tbl.change t p.1 fun (x : Strand) => { x with wait := if chosen.contains p.1 then x.wait else x.wait + 1 }
        | .limit => t
        | .no => Tbl.change t p.1 fun (x : Strand) => { x with wait := 0 }) s.strands
      let n := (s.core core).issueCount
      let s := s.modCore core fun c => { c with issueCount := n + 1 }
      some { s with
        strands := strands
        issue := some { core := core, wave := wave, cls := cls, number := n, remaining := s.servedOrder cls chosen
                        accesses := [], clock := none, differ := [], late := [], before := []
                        tlb := (s.core core).tlb ++ (s.cluster (coreCluster core)).tlb
                        unserved := ready.length - chosen.length, writes := [] } }

/-! ### Passes (R203) -/

/-- Lanes per group for an element size. -/
def passGroup (size : Nat) : Nat := if size ≤ 4 then 32 else if size = 8 then 16 else 8

/-- The words an access covers. -/
def accessWords (a : LaneAccess) : List Nat := (List.range ((a.size + 3) / 4)).map (a.addr / 4 + ·)

/-- Passes of one class: for each group of lanes the busiest bank. -/
def classPasses (l : List LaneAccess) (size : Nat) : Nat :=
  let g := passGroup size
  ((List.range (64 / g)).map fun k =>
    let here := l.filter fun a => a.lane / g = k
    let words := here.flatMap accessWords
    let counted := if here.any (·.atomic) then words else dedup words
    ((List.range 32).map fun b => (counted.filter fun w => w % 32 = b).length).foldl Nat.max 0).sum

def issuePasses (l : List LaneAccess) : Nat :=
  (([0, 1] : List Nat).map fun sp => (([1, 2, 4, 8, 16] : List Nat).map fun e =>
    classPasses (l.filter fun a => a.space = sp && a.size = e) e).sum).sum

/-- A MISMATCH of lanes of one team (R269, R270): the team is killed, and its core records, for each logical lane that
differed, the two physical lanes that carried it. A second record of the core, while one is not cleared, stops placement
there. -/
def State.mismatchAt (s : State) (ks : List Nat) : State :=
  match ks with
  | [] => s
  | k :: _ =>
    match s.waves.find (strandWave k) with
    | none => s
    | some w =>
      let c := s.core (strandCore k)
      let lanes := ks.map fun k =>
        ⟨strandLane k, c.physical (strandLane k) w.width false, c.physical (strandLane k) w.width true⟩
      let s := s.setCore (strandCore k) { c with mismatches := c.mismatches ++ [⟨w.team, lanes⟩],
                                                 held := c.held || !c.mismatches.isEmpty }
      s.killTeam w.team MISMATCH (laneError s k 0)

/-- The scribe strands that are still Ready after an issue: one that is not, takes the front again when it next becomes
Ready (R328). -/
def State.scribeKeep (run : Run) (s : State) (wave : Nat) : State :=
  if waveSlot wave = 32 then
    let now := (readyOf (s.census run wave)).map (·.1)
    s.modCluster (coreCluster (bankCore (waveBank wave))) fun c => { c with scribeReady := c.scribeReady.filter now.contains }
  else s

/-- After an issue of a wave: a strand that is not Ready, but for a queue limit, counts from 0 when it becomes Ready (R164). -/
def State.resetWaits (run : Run) (s : State) (wave : Nat) : State :=
  { s with strands := (s.census run wave).foldl (fun t p =>
      match p.2 with
      | .no => Tbl.change t p.1 fun (x : Strand) => { x with wait := 0 }
      | _ => t) s.strands }

/-- The end of an issue: ISSUES, CENSUSWAIT and BSPASS, the results that wait for it, the system registers that it wrote,
and the kill of a team whose comparison differed in some lanes (R125, R167, R205, R256, R270). -/
def State.endIssue (run : Run) (s : State) (i : Issue) : State :=
  let s := s.modWave i.wave fun w =>
    { w with issues := w.issues + 1, censusWait := w.censusWait + .ofNat 32 i.unserved,
             bsPass := w.bsPass + .ofNat 32 (issuePasses i.accesses) }
  let s := i.late.foldl (fun s l => s.deliver l.strand l.id l.d l.words) { s with issue := none }
  let s := i.writes.foldl (fun s w => s.applySystem w.1 w.2.1 w.2.2) s
  ((s.mismatchAt i.differ).resetWaits run i.wave).scribeKeep run i.wave

/-- A lane of the issue in progress leaves it without having executed (R167). -/
def State.passedOver (s : State) : State :=
  { s with issue := s.issue.map fun (i : Issue) => { i with unserved := i.unserved + 1 } }

/-- One lane of the issue in progress: its bundle executes, or raises ILLOP (R69, R74). DEDUCED (log 15): a lane whose queue
the earlier lanes of the issue have filled holds, keeps its wait count, and leaves the issue (R164). -/
def State.runNext (run : Run) (s : State) (i : Issue) (k : Nat) (rest : List Nat) : Host.Outcome State Fault Refusal :=
  let s := { s with issue := some { i with remaining := rest } }
  match s.strands.find k with
  | none => .next s
  | some st =>
    match s.fetch k st with
    | .missing _ => .next s
    | .bundle b _ =>
      match b.result with
      | .error j =>
        let va : Dword := (st.pc + BitVec.ofNat 57 (4 * j)).setWidth 64
        .next (s.trap k (s.gridOf k) ILLOP 0 va (st.pc + BitVec.ofNat 57 (4 * b.length)))
      | .ok (x, h) =>
        let at' := { s with cur := cursorOf k st b.length h }
        if holds (run x) at' then .next at'.passedOver else run x at'

/-- The walk that a strand waits for. -/
def State.walkOf (s : State) (k : Nat) : Option Walk :=
  match s.strands.find k with
  | some st => (match st.life with | .waiting (.walk id) => s.walks.find? (·.id = id) | _ => none)
  | none => none

/-- The words of a team's scratch that an event has changed, as they were (R204). -/
def Team.overwritten (n : Nat) (t u : Team) : List OldWord :=
  let words := dedup ((t.scratch ++ u.scratch).map (·.1 / 4) ++ t.poisonWords ++ u.poisonWords)
  let at' := fun (x : Team) (w : Nat) => ((span (4 * w) 4).map fun a => x.scratch.get a 0, x.poisonWords.contains w)
  (words.filter fun w => at' t w ≠ at' u w).map fun w => ⟨.scratch n w, (at' t w).1, (at' t w).2⟩

/-- The same of a strand's registers and of a line of an L1 area. -/
def Strand.overwritten (k : Nat) (x y : Strand) : List OldWord :=
  ((dedup ((x.regs ++ y.regs).map (·.1))).filter fun n => x.regs.get n Reg.zero ≠ y.regs.get n Reg.zero).map fun n =>
    let r := x.regs.get n Reg.zero
    ⟨.register k n, toBytes 4 r.val.toNat, r.poison⟩

def L1Line.overwritten (core : Nat) (x y : L1Line) : List OldWord :=
  let at' := fun (l : L1Line) (w : Nat) => (span (4 * w) 4).map fun o => l.bytes.get o 0
  ((List.range 64).filter fun w => (span (4 * w) 4).all x.bytes.has && at' x w ≠ at' y w).map fun w =>
    ⟨.l1 core (x.line * 64 + w), at' x w, x.poison.contains (w / 16)⟩

/-- The words of the bank store and of the L1 areas that differ in a later state, as they were. -/
def State.overwritten (s t : State) : List OldWord :=
  (s.teams.flatMap fun p => ((t.teams.find p.1).map fun u => p.2.overwritten p.1 u).getD [])
    ++ (s.strands.flatMap fun p => ((t.strands.find p.1).map fun u => p.2.overwritten p.1 u).getD [])
    ++ s.cores.flatMap fun p => p.2.l1.flatMap fun x => (((t.core p.1).line x.line).map fun y => x.overwritten p.1 y).getD []

/-- The events that may come between the accesses of one issue (R204): other agents' accesses to the bank store and the L1 areas.
Every other event finds an issue whole: what translates, allocates, snapshots or swaps has one moment for all its lanes (R202,
R226, R322). -/
def innerEvent : Instr → Bool
  | .copyLand .. | .storePerform .. | .loadReturn .. | .mxCommandComplete .. | .idivResult .. | .sfuResult .. | .cvtResult .. => true
  | _ => false

/-- An event between the accesses of one issue (R204): the issue keeps the words that it changes as they were. An event that
finds issues whole comes behind the issue. -/
def State.takeInner (run : Run) (s : State) (i : Issue) (e : Instr) (rest : List Turn) : Host.Outcome State Fault Refusal :=
  if !innerEvent e then .next { s with turns := .event e :: rest }
  else match run e { s with turns := rest } with
  | .next t =>
    let fresh := (s.overwritten t).filter fun o => !(i.before.any (·.at_ = o.at_))
    .next { t with issue := t.issue.map fun (j : Issue) => { j with before := j.before ++ fresh } }
  | r => r

/-- The next lane of the issue in progress, or its end. A lane whose access misses the TLBs walks and executes at the
same issue when the walker has a slot for it; one whose walk waits for a slot, for a line, or meets a locked descriptor leaves the
issue and issues again (R322, R325, log 19). -/
def State.continueIssue (run : Run) (s : State) (i : Issue) : Host.Outcome State Fault Refusal :=
  match i.remaining with
  | [] => .next (s.endIssue run i)
  | k :: rest =>
    match s.walkOf k with
    | some w =>
      .next (if w.locked.isSome || !s.hasSlot w || (s.walkNow w).1 = .held then
        { s with issue := some { i with remaining := rest } }.passedOver else s.walked w)
    | none => s.runNext run i k rest

/-- A step while an issue is in progress: the schedule may put an event in front of its next lane. -/
def State.stepIssue (run : Run) (s : State) (i : Issue) : Host.Outcome State Fault Refusal :=
  match s.turns with
  | .inner e :: rest => s.takeInner run i e rest
  | _ => s.continueIssue run i

/-! ### What runs when the schedule is empty -/

/-- The first event of a list that changes the state. -/
def firstChange (s : State) : List Event → Option (Host.Outcome State Fault Refusal)
  | [] => none
  | e :: l => if holds e s then firstChange s l else some (e s)

/-- The first core of a list that can issue. -/
def firstIssue (run : Run) (s : State) : List Nat → Option State
  | [] => none
  | c :: l => match s.startIssue run c with
    | some t => some t
    | none => firstIssue run s l

/-- The schedule's next entry (log 2): an issue of a core, an event, or an upset. -/
def State.takeTurn (run : Run) (upset : State → Upset → State) (s : State) (t : Turn) (rest : List Turn) :
    Host.Outcome State Fault Refusal :=
  let s := { s with turns := rest }
  match t with
  | .event e | .inner e => run e s
  | .upset u => .next (upset s u)
  | .issue c => match s.startIssue run c with
    | some s' => .next s'
    | none => .next s

/-- With no schedule: a due event, else an issue of the first core that has one, else an event by which time passes. -/
def State.byDefault (run : Run) (due idle : State → List Event) (s : State) : Host.Outcome State Fault Refusal :=
  match firstChange s (due s) with
  | some r => r
  | none =>
    match firstIssue run s (s.cores.map (·.1)) with
    | some s' => .next s'
    | none => (firstChange s (idle s)).getD (.next s)

end Sys2Proof.Machine
end

