-- ==== Sys2Proof/Machine/Redundant.lean ====
section
/-!
DEFINITION. Redundant mode (R266 to R269): values that the trailing wave takes from the leading one, requests that are
compared and performed once, stores that are compared, and the MISMATCH record; and how an instruction gives its result.
-/

namespace Sys2Proof.Machine

def Env.leading (e : Env) : Bool := e.wave.partner.isSome && !e.wave.trailing
def Env.trailing (e : Env) : Bool := e.wave.partner.isSome && e.wave.trailing

/-- The matching strand of the pair's other wave. -/
def Env.partnerKey (e : Env) : Nat := strandNo (e.wave.partner.getD 0) e.lane

/-- The bundle that executes. -/
def Env.bundle (e : Env) : VAddr := e.s.cur.bundle

/-- The pair's lane differs (R268): its team is killed at the end of the issue, which gathers every lane that differed (R270). -/
def State.mismatch (s : State) (e : Env) : State :=
  match s.issue with
  | some i => { s with issue := some { i with differ := i.differ ++ [e.key] } }
  | none => s.mismatchAt [e.key]

/-- The executing strand with a value entered for the trailing wave; seq 0 marks a value that is there. -/
def Env.offer (e : Env) (st : Strand) (seq : Nat) (words : List Word) (poison : List Bool) : Strand :=
  if e.leading then
    { st with values := st.values ++
        [{ pc := e.bundle, issue := e.issueNo, seq := seq, fault := none, words := words, poison := poison }] }
  else st

/-- Whether the pair's value queue takes another entry of this issue (R267). -/
def Env.queueOpen (e : Env) : Bool :=
  let q := e.s.pairEntries e.waveKey
  decide (q.length < Config.loadValueQueue) || q.contains e.issueNo

/-- The value queue is full (R267). -/
def Env.room (e : Env) : Act Unit := require (!e.leading || e.queueOpen) .hold

/-- The registers d, d + 1, ... written with results that are there. -/
def Env.put (e : Env) (st : Strand) (d : Nat) : List (Word × Bool) → Strand
  | [] => st
  | (x, p) :: l => e.put (e.deliver st d x p) (d + 1) l

/-- An instruction that has its result: written at once, and offered to the trailing wave (R267). -/
def Env.give (e : Env) (s : State) (st : Strand) (d : Nat) (words : List (Word × Bool)) : State :=
  e.retire s (e.offer (e.put st d words) 0 (words.map (·.1)) (words.map (·.2)))

/-- An instruction whose result, `n` registers from d, arrives as request `id`. -/
def Env.giveLater (e : Env) (s : State) (st : Strand) (id d n : Nat) : State :=
  e.retire s (e.offer (st.awaitMany id d n) id [] [])

/-- UNPARK with DLV = 1 hands a leading lane's XLATE to its handler: the trailing lane, which takes the outcome of the instruction
from the leading one, takes the same fault (R267). DESIGN CHOICE (log 27): the rules do not say so. -/
def Strand.faultShared (st : Strand) (issue code arg : Nat) (va : Dword) : Strand :=
  { st with
    values := st.values ++
      [{ pc := st.pc, issue := issue, seq := 0, fault := some (code, arg, va), words := [], poison := [] }]
    compares := if st.permit then st.compares.drop 1 else st.compares, permit := false }

/-- A leading lane's fault at an instruction whose outcome the trailing lane takes from it (R267): the trailing lane takes the
same fault. -/
def Env.shared (e : Env) (x : Act State) : Act State :=
  match x with
  | .error (.fault code arg va) =>
    if e.leading then
      .ok ((e.s.modStrand e.key fun st => { st with pc := e.bundle }.faultShared e.issueNo code arg va).stop e
        (.fault code arg va))
    else x
  | _ => x

/-- The trailing lane takes the leading lane's next value: `take` goes on with it and the state without it. A pair that stands
at different bundles differs (R268); a fault that the leading lane took is taken too (R267). -/
def Env.takeValue (e : Env) (take : List (Word × Bool) → State → Act State) : Act State :=
  match e.s.strands.find e.partnerKey with
  | none => .error .hold
  | some lead =>
    match lead.values with
    | [] => .error .hold
    | v :: rest =>
      let s := e.s.setStrand e.partnerKey { lead with values := rest }
      if v.pc ≠ e.bundle then .ok (e.s.mismatch e)
      else if v.seq ≠ 0 then .error .hold
      else match v.fault with
        | some (code, arg, va) => .ok (s.stop e (.fault code arg va))
        | none => take (v.words.zip v.poison) s

/-- The trailing wave's form of an instruction that yields registers from d (R267). -/
def Env.follow (e : Env) (st : Strand) (d : Nat) : Act State :=
  e.takeValue fun ws s => pure (e.retire s (e.put st d ws))

/-- A request that is performed once, after the trailing wave's matching request has compared equal (R268). Its checks of what
can change between the two waves are in `act`, which the leading lane alone runs; `trail` is what the trailing wave does with
the leading wave's results. -/
def Env.once (e : Env) (req : List Word) (act : Env → Act State) (trail : List (Word × Bool) → State → Act State) :
    Act State :=
  match e.wave.partner with
  | none => act e
  | some _ =>
    if e.wave.trailing then
      match e.s.strands.find e.partnerKey with
      | none => .error .hold
      | some lead =>
        match lead.values, lead.compares with
        | _ :: _, _ => e.takeValue trail
        | [], c :: _ =>
          if c.pc ≠ e.bundle ∨ c.words ≠ req then .ok (e.s.mismatch e)
          else if lead.permit then .error .hold
          else .ok ((e.s.setStrand e.partnerKey { lead with permit := true }).modStrand e.key fun st =>
            { st with handles := e.keepHandles })
        | [], [] => .error .hold
    else if e.st.permit then
      e.shared (act { e with st := { e.st with permit := false, compares := e.st.compares.drop 1 } })
    else
      match e.s.strands.find e.key with
      | none => .error .hold
      | some st =>
        if st.life = .waiting .pair then .error .hold
        else if !e.queueOpen then .error .hold
        else .ok (e.s.setStrand e.key
          { st with life := .waiting .pair, handles := e.keepHandles, wait := 0
                    compares := st.compares ++
                      [{ pc := e.bundle, issue := e.issueNo, seq := 0, fault := none, words := req, poison := [] }] })

/-- An instruction of the leading wave that has no result still tells the trailing wave that it has been performed. -/
def Env.told (e : Env) (st : Strand) : Strand := e.offer st 0 [] []

/-- A store is compared, and waits in the buffer meanwhile (R268): the leading wave enters what it stored, the trailing
wave compares; it takes a fault that the leading wave was delivered instead (R267). -/
def Env.compared (e : Env) (req : List Word) (act : Env → Act State) (trail : State → Act State) : Act State :=
  match e.wave.partner with
  | none => act e
  | some _ =>
    if e.wave.trailing then
      match e.s.strands.find e.partnerKey with
      | none => .error .hold
      | some lead =>
        match lead.values.head?.bind (fun v => if v.pc = e.bundle then v.fault else none), lead.compares with
        | some _, _ => e.takeValue fun _ s => .ok s
        | none, [] => .error .hold
        | none, c :: rest =>
          if c.pc ≠ e.bundle ∨ c.words ≠ req then .ok (e.s.mismatch e)
          else trail (e.s.setStrand e.partnerKey { lead with compares := rest })
    else act { e with st := { e.st with compares := e.st.compares ++
      [{ pc := e.bundle, issue := e.issueNo, seq := 0, fault := none, words := req, poison := [] }] } }

/-- The comparisons of a strand that a commit waits for: all but the request that the strand itself waits to perform. -/
def Strand.uncompared (st : Strand) : Nat := st.compares.length - (if st.life = .waiting .pair then 1 else 0)

/-- Every comparison of a team's stores has matched (R268). -/
def State.allCompared (s : State) (t : Nat) : Bool :=
  match s.teams.find t with
  | none => true
  | some team => !team.redundant || (s.strandsOf team.waves).all fun k =>
      match s.strands.find k with | some st => st.uncompared = 0 | none => true

end Sys2Proof.Machine
end

