-- ==== Sys2Proof/Machine/Integer.lean ====
section
/-!
DEFINITION. HINT (R65), IALU and IALUI (R80, R81), SHIFT (R82), IMUL (R83), IDIV (R84) and ICMP (R85).
-/

namespace Sys2Proof.Machine

/-! ### Functions of the operands -/

def minS (x y : Word) : Word := if x.toInt ≤ y.toInt then x else y
def maxS (x y : Word) : Word := if y.toInt ≤ x.toInt then x else y
def minU (x y : Word) : Word := if x.toNat ≤ y.toNat then x else y
def maxU (x y : Word) : Word := if y.toNat ≤ x.toNat then x else y
def carry (x y : Word) : Word := if 2 ^ 32 ≤ x.toNat + y.toNat then 1 else 0
def borrow (x y : Word) : Word := if x.toNat < y.toNat then 1 else 0
/-- |x| modulo 2^32. -/
def absW (x : Word) : Word := .ofInt 32 x.toInt.natAbs

/-- The field position and length of R82. -/
def fieldPos (y : Word) : Nat := fld y.toNat 0 5
def fieldLen (y : Word) : Nat := Nat.min (fld y.toNat 8 6) (32 - fieldPos y)
/-- The field, zero-extended. -/
def field (x y : Word) : Nat := x.toNat / 2 ^ fieldPos y % 2 ^ fieldLen y
/-- SignExtend(f, n), 0 for n = 0. -/
def signExt (f n : Nat) : Word := if n = 0 then 0 else if f < 2 ^ (n - 1) then .ofNat 32 f else .ofInt 32 ((f : Int) - 2 ^ n)
def insertField (x y old : Word) : Word :=
  let p := fieldPos y
  let l := fieldLen y
  .ofNat 32 (old.toNat % 2 ^ p + x.toNat % 2 ^ l * 2 ^ p + old.toNat / 2 ^ (p + l) * 2 ^ (p + l))

def leadingZeros (x : Word) : Word := .ofNat 32 (if x = 0 then 32 else 31 - Nat.log2 x.toNat)
def popCount (x : Word) : Word := .ofNat 32 ((List.range 32).filter fun i => x.getLsbD i).length
def bitReverse (x : Word) : Word := .ofNat 32 ((List.range 32).map fun i => if x.getLsbD i then 2 ^ (31 - i) else 0).sum

/-- PRMT (R82). -/
def permute (x y sel : Word) : Word :=
  let q := x.toNat + y.toNat * 2 ^ 32
  .ofNat 32 ((List.range 4).map fun i =>
    let n := fld sel.toNat (4 * i) 4
    let b := fld q (8 * (n % 8)) 8
    let r := if 8 ≤ n then (if 128 ≤ b then 0xFF else 0) else b
    r * 2 ^ (8 * i)).sum

def shiftL (x y : Word) : Word := .ofNat 32 (x.toNat * 2 ^ fld y.toNat 0 6)
def shiftR (x y : Word) : Word := .ofNat 32 (x.toNat / 2 ^ fld y.toNat 0 6)
def shiftA (x y : Word) : Word := .ofInt 32 (x.toInt / 2 ^ fld y.toNat 0 6)
def rotateL (x y : Word) : Word := .ofNat 32 (x.toNat * 2 ^ fld y.toNat 0 5 + x.toNat / 2 ^ (32 - fld y.toNat 0 5))
def funnel (x y c : Word) : Word := .ofNat 32 ((x.toNat + y.toNat * 2 ^ 32) / 2 ^ fld c.toNat 0 5)

def mulHi (x y z : Word) (signed : Bool) : Word :=
  if signed then .ofInt 32 ((x.toInt * y.toInt + z.toInt) / 2 ^ 32)
  else .ofNat 32 ((x.toNat * y.toNat + z.toNat) / 2 ^ 32)

/-- Quotients and remainders (R84): DIV, DIVB, REM, REMB. -/
def divS (x y : Word) : Word := if y = 0 then 0xFFFFFFFF else .ofInt 32 (x.toInt.tdiv y.toInt)
def divU (x y : Word) : Word := if y = 0 then 0xFFFFFFFF else .ofNat 32 (x.toNat / y.toNat)
def remS (x y : Word) : Word := if y = 0 then x else .ofInt 32 (x.toInt.tmod y.toInt)
def remU (x y : Word) : Word := if y = 0 then x else .ofNat 32 (x.toNat % y.toNat)

/-- The conditions of R62 on two's-complement values of one width. -/
def icond {n : Nat} (c : Nat) (x y : BitVec n) : Bool :=
  match c with
  | 0 => x == y
  | 1 => x != y
  | 2 => decide (x.toInt < y.toInt)
  | 3 => decide (x.toInt ≤ y.toInt)
  | 4 => decide (y.toInt < x.toInt)
  | 5 => decide (y.toInt ≤ x.toInt)
  | 6 => decide (x.toNat < y.toNat)
  | 7 => decide (x.toNat ≤ y.toNat)
  | 8 => decide (y.toNat < x.toNat)
  | _ => decide (y.toNat ≤ x.toNat)

/-! ### Shared forms -/

/-- d from registers a and b. -/
def alu2 (s : State) (t : BitVec 1) (d a b : BitVec 7) (lat : Nat) (f : Word → Word → Word) :
    Host.Outcome State Fault Refusal :=
  laneStep s fun e => do
    e.exist [d.toNat, a.toNat, b.toNat]
    let (x, y) ← e.use2 a.toNat b.toNat
    pure (e.write e.st d.toNat (f x y) false lat t)

/-- d from register a. -/
def alu1 (s : State) (t : BitVec 1) (d a : BitVec 7) (f : Word → Word) : Host.Outcome State Fault Refusal :=
  laneStep s fun e => do
    e.exist [d.toNat, a.toNat]
    let x ← e.use a.toNat
    pure (e.write e.st d.toNat (f x) false 1 t)

/-- d from register a and the immediate (R81). -/
def aluI (s : State) (t : BitVec 1) (d a : BitVec 7) (i : BitVec 7) (f : Word → Word → Word) :
    Host.Outcome State Fault Refusal :=
  laneStep s fun e => do
    e.exist [d.toNat, a.toNat]
    let x ← e.use a.toNat
    pure (e.write e.st d.toNat (f x (e.imm7 i)) false 1 t)

/-- d from registers a, b and the old d. -/
def alu3 (s : State) (t : BitVec 1) (d a b : BitVec 7) (lat : Nat) (f : Word → Word → Word → Word) :
    Host.Outcome State Fault Refusal :=
  laneStep s fun e => do
    e.exist [d.toNat, a.toNat, b.toNat]
    let (x, y, z) ← both (e.use a.toNat) (e.use2 b.toNat d.toNat)
    pure (e.write e.st d.toNat (f x y z) false lat t)

/-- Enters a result in a unit's queue: 0 divide, 1 SFU, 2 conversion; the state and the strand that awaits it. -/
def Env.enqueue (e : Env) (st : Strand) (unit : Nat) (dst : List (Nat × Word)) (flags : Flags) : State × Strand :=
  let (id, s) := e.s.fresh
  let s := s.modCore e.coreKey fun c => { c with
    results := c.results ++ [{ id := id, strand := e.key, unit := unit, issue := e.issueNo, count := e.st.count,
                               dst := dst.map fun p => (p.1, e.produce p.2), flags := flags.setWidth 32 }] }
  (s, dst.foldl (fun st p => st.await p.1 id) st)

/-- A divide enters the divide unit (R84). -/
def divide (s : State) (d a b : BitVec 7) (f : Word → Word → Word) : Host.Outcome State Fault Refusal :=
  runLane s fun e => do
    e.exist [d.toNat, a.toNat, b.toNat]
    let (x, y) ← e.use2 a.toNat b.toNat
    let (s, st) := e.enqueue e.st 0 [(d.toNat, f x y)] 0
    pure (e.retire s st)

/-! ### HINT -/

/-- HS #n adds n to the instruction count (R16, R65). -/
def execHs (n : BitVec 8) (s : State) : Host.Outcome State Fault Refusal :=
  runLane s fun e => pure (e.s.setStrand e.key (e.st.tick n.toNat))

/-! ### IALU and IALUI -/

def execAdd (t : BitVec 1) (d a b : BitVec 7) (s : State) : Host.Outcome State Fault Refusal :=
  alu2 s t d a b 1 fun x y => x + y
def execSub (t : BitVec 1) (d a b : BitVec 7) (s : State) : Host.Outcome State Fault Refusal :=
  alu2 s t d a b 1 fun x y => x - y
def execAnd (t : BitVec 1) (d a b : BitVec 7) (s : State) : Host.Outcome State Fault Refusal :=
  alu2 s t d a b 1 fun x y => x &&& y
def execOr (t : BitVec 1) (d a b : BitVec 7) (s : State) : Host.Outcome State Fault Refusal :=
  alu2 s t d a b 1 fun x y => x ||| y
def execXor (t : BitVec 1) (d a b : BitVec 7) (s : State) : Host.Outcome State Fault Refusal :=
  alu2 s t d a b 1 fun x y => x ^^^ y
def execAndn (t : BitVec 1) (d a b : BitVec 7) (s : State) : Host.Outcome State Fault Refusal :=
  alu2 s t d a b 1 fun x y => x &&& ~~~y
def execMin (t : BitVec 1) (d a b : BitVec 7) (s : State) : Host.Outcome State Fault Refusal :=
  alu2 s t d a b 1 fun x y => minS x y
def execMax (t : BitVec 1) (d a b : BitVec 7) (s : State) : Host.Outcome State Fault Refusal :=
  alu2 s t d a b 1 fun x y => maxS x y
def execMinb (t : BitVec 1) (d a b : BitVec 7) (s : State) : Host.Outcome State Fault Refusal :=
  alu2 s t d a b 1 fun x y => minU x y
def execMaxb (t : BitVec 1) (d a b : BitVec 7) (s : State) : Host.Outcome State Fault Refusal :=
  alu2 s t d a b 1 fun x y => maxU x y
def execAddc (t : BitVec 1) (d a b : BitVec 7) (s : State) : Host.Outcome State Fault Refusal :=
  alu2 s t d a b 1 fun x y => carry x y
def execSubb (t : BitVec 1) (d a b : BitVec 7) (s : State) : Host.Outcome State Fault Refusal :=
  alu2 s t d a b 1 fun x y => borrow x y
def execAdds (t : BitVec 1) (d a b : BitVec 7) (s : State) : Host.Outcome State Fault Refusal :=
  alu2 s t d a b 1 fun x y => clampS (x.toInt + y.toInt)
def execSubs (t : BitVec 1) (d a b : BitVec 7) (s : State) : Host.Outcome State Fault Refusal :=
  alu2 s t d a b 1 fun x y => clampS (x.toInt - y.toInt)
def execAbs (t : BitVec 1) (d a : BitVec 7) (s : State) : Host.Outcome State Fault Refusal := alu1 s t d a absW
def execNeg (t : BitVec 1) (d a : BitVec 7) (s : State) : Host.Outcome State Fault Refusal := alu1 s t d a fun x => -x

def execAddImm (t : BitVec 1) (d a i : BitVec 7) (s : State) : Host.Outcome State Fault Refusal :=
  aluI s t d a i fun x y => x + y
def execSubImm (t : BitVec 1) (d a i : BitVec 7) (s : State) : Host.Outcome State Fault Refusal :=
  aluI s t d a i fun x y => x - y
def execAndImm (t : BitVec 1) (d a i : BitVec 7) (s : State) : Host.Outcome State Fault Refusal :=
  aluI s t d a i fun x y => x &&& y
def execOrImm (t : BitVec 1) (d a i : BitVec 7) (s : State) : Host.Outcome State Fault Refusal :=
  aluI s t d a i fun x y => x ||| y
def execXorImm (t : BitVec 1) (d a i : BitVec 7) (s : State) : Host.Outcome State Fault Refusal :=
  aluI s t d a i fun x y => x ^^^ y
def execAndnImm (t : BitVec 1) (d a i : BitVec 7) (s : State) : Host.Outcome State Fault Refusal :=
  aluI s t d a i fun x y => x &&& ~~~y
def execMinImm (t : BitVec 1) (d a i : BitVec 7) (s : State) : Host.Outcome State Fault Refusal :=
  aluI s t d a i fun x y => minS x y
def execMaxImm (t : BitVec 1) (d a i : BitVec 7) (s : State) : Host.Outcome State Fault Refusal :=
  aluI s t d a i fun x y => maxS x y
def execMinbImm (t : BitVec 1) (d a i : BitVec 7) (s : State) : Host.Outcome State Fault Refusal :=
  aluI s t d a i fun x y => minU x y
def execMaxbImm (t : BitVec 1) (d a i : BitVec 7) (s : State) : Host.Outcome State Fault Refusal :=
  aluI s t d a i fun x y => maxU x y
def execAddcImm (t : BitVec 1) (d a i : BitVec 7) (s : State) : Host.Outcome State Fault Refusal :=
  aluI s t d a i fun x y => carry x y
def execSubbImm (t : BitVec 1) (d a i : BitVec 7) (s : State) : Host.Outcome State Fault Refusal :=
  aluI s t d a i fun x y => borrow x y
def execAddsImm (t : BitVec 1) (d a i : BitVec 7) (s : State) : Host.Outcome State Fault Refusal :=
  aluI s t d a i fun x y => clampS (x.toInt + y.toInt)
def execSubsImm (t : BitVec 1) (d a i : BitVec 7) (s : State) : Host.Outcome State Fault Refusal :=
  aluI s t d a i fun x y => clampS (x.toInt - y.toInt)

/-! ### SHIFT -/

def execShl (t : BitVec 1) (d a b : BitVec 7) (s : State) : Host.Outcome State Fault Refusal :=
  alu2 s t d a b 1 shiftL
def execShr (t : BitVec 1) (d a b : BitVec 7) (s : State) : Host.Outcome State Fault Refusal :=
  alu2 s t d a b 1 shiftR
def execSar (t : BitVec 1) (d a b : BitVec 7) (s : State) : Host.Outcome State Fault Refusal :=
  alu2 s t d a b 1 shiftA
def execRol (t : BitVec 1) (d a b : BitVec 7) (s : State) : Host.Outcome State Fault Refusal :=
  alu2 s t d a b 1 rotateL
def execBfx (t : BitVec 1) (d a b : BitVec 7) (s : State) : Host.Outcome State Fault Refusal :=
  alu2 s t d a b 1 (fun x y => signExt (field x y) (fieldLen y))
def execBfxb (t : BitVec 1) (d a b : BitVec 7) (s : State) : Host.Outcome State Fault Refusal :=
  alu2 s t d a b 1 (fun x y => .ofNat 32 (field x y))
def execClz (t : BitVec 1) (d a : BitVec 7) (s : State) : Host.Outcome State Fault Refusal := alu1 s t d a leadingZeros
def execPopc (t : BitVec 1) (d a : BitVec 7) (s : State) : Host.Outcome State Fault Refusal := alu1 s t d a popCount
def execBrev (t : BitVec 1) (d a : BitVec 7) (s : State) : Host.Outcome State Fault Refusal := alu1 s t d a bitReverse
def execBfi (t : BitVec 1) (d a b : BitVec 7) (s : State) : Host.Outcome State Fault Refusal :=
  alu3 s t d a b 1 insertField
def execPrmt (t : BitVec 1) (d a b : BitVec 7) (s : State) : Host.Outcome State Fault Refusal :=
  alu3 s t d a b 1 permute
def execFshf (t : BitVec 1) (d a b : BitVec 7) (s : State) : Host.Outcome State Fault Refusal :=
  alu3 s t d a b 1 funnel

/-! ### IMUL -/

def execMul (t : BitVec 1) (d a b : BitVec 7) (s : State) : Host.Outcome State Fault Refusal :=
  alu2 s t d a b 3 fun x y => x * y
def execMulhi (t : BitVec 1) (d a b : BitVec 7) (s : State) : Host.Outcome State Fault Refusal :=
  alu2 s t d a b 3 fun x y => mulHi x y 0 true
def execMulhib (t : BitVec 1) (d a b : BitVec 7) (s : State) : Host.Outcome State Fault Refusal :=
  alu2 s t d a b 3 fun x y => mulHi x y 0 false
def execMad (t : BitVec 1) (d a b : BitVec 7) (s : State) : Host.Outcome State Fault Refusal :=
  alu3 s t d a b 3 fun x y z => x * y + z
def execMadhi (t : BitVec 1) (d a b : BitVec 7) (s : State) : Host.Outcome State Fault Refusal :=
  alu3 s t d a b 3 fun x y z => mulHi x y z true
def execMadhib (t : BitVec 1) (d a b : BitVec 7) (s : State) : Host.Outcome State Fault Refusal :=
  alu3 s t d a b 3 fun x y z => mulHi x y z false

/-! ### IDIV -/

def execDiv (d a b : BitVec 7) (s : State) : Host.Outcome State Fault Refusal := divide s d a b divS
def execDivb (d a b : BitVec 7) (s : State) : Host.Outcome State Fault Refusal := divide s d a b divU
def execRem (d a b : BitVec 7) (s : State) : Host.Outcome State Fault Refusal := divide s d a b remS
def execRemb (d a b : BitVec 7) (s : State) : Host.Outcome State Fault Refusal := divide s d a b remU

/-! ### ICMP -/

def execCmp (c : BitVec 4) (p : BitVec 3) (a b : BitVec 7) (s : State) : Host.Outcome State Fault Refusal :=
  laneStep s fun e => do
    e.exist [a.toNat, b.toNat]
    let (x, y) ← e.use2 a.toNat b.toNat
    pure (e.writePred e.st p.toNat (icond c.toNat x y) 1)

def execCmpi (c : BitVec 4) (p : BitVec 3) (a i : BitVec 7) (s : State) : Host.Outcome State Fault Refusal :=
  laneStep s fun e => do
    e.exist [a.toNat]
    let x ← e.use a.toNat
    pure (e.writePred e.st p.toNat (icond c.toNat x (e.imm7 i)) 1)

end Sys2Proof.Machine
end

