-- ==== Sys2Proof/Machine/Sfu.lean ====
section
/-!
DEFINITION. The special functions (R109, R110): the result is the exact mathematical value rounded once to nearest.
Rational and square-root results are computed exactly with a sticky bit. Transcendental results are computed in fixed
point with 400 fraction bits, far beyond what decides the rounding of an f32 argument, and carry a sticky bit because
the exact value is then irrational (log 9).
-/

namespace Sys2Proof.Machine

/-- Fraction bits of the fixed-point functions. -/
def sfuBits : Nat := 400
def sfuOne : Nat := 2 ^ 400

/-- A magnitude known up to less than one unit of 2^e below: the sticky bit stands for the rest. -/
def stickyVal (neg : Bool) (m : Nat) (e : Int) (exact : Bool) : FVal :=
  .fin neg (2 * m + (if exact then 0 else 1)) (e - 1)

/-- num / den x 2^e with at least 60 significant bits and a sticky bit. -/
def quotient (neg : Bool) (num den : Nat) (e : Int) : FVal :=
  let k : Nat := bitLen den + 60 - bitLen num
  let n := num * 2 ^ k
  stickyVal neg (n / den) (e - k) (n % den = 0)

/-- The integer square root, by bits from the highest. -/
def isqrtBits (n : Nat) : Nat → Nat → Nat
  | 0, r => r
  | k + 1, r => let t := r + 2 ^ k; isqrtBits n k (if t * t ≤ n then t else r)

def isqrt (n : Nat) : Nat := isqrtBits n (bitLen n / 2 + 1) 0

/-- The square root of num / den x 2^e for an even e. -/
def rootVal (num den : Nat) (e : Int) : FVal :=
  let k : Nat := 200
  let n := num * 2 ^ (2 * k) / den
  let r := isqrt n
  stickyVal false r (e / 2 - k) (decide (r * r = n) && decide (num * 2 ^ (2 * k) % den = 0))

/-- The sum of y^n / n! from term n on, `t` being the term so far (fixed point). -/
def expSum (y : Nat) : Nat → Nat → Nat → Nat
  | 0, _, _ => 0
  | k + 1, n, t => t + expSum y k (n + 1) (t * y / sfuOne / n)

/-- e^y for a fixed-point y. -/
def expFix (y : Nat) : Nat := expSum y 320 1 sfuOne

/-- The sum of z^(2n+1) / (2n+1): the inverse hyperbolic tangent (sign +) or tangent (alternating), fixed point. -/
def atanSum (alternating : Bool) (zz : Nat) : Nat → Nat → Nat → Int
  | 0, _, _ => 0
  | k + 1, n, t =>
    let rest := atanSum alternating zz k (n + 2) (t * zz / sfuOne)
    (t / n : Nat) + (if alternating then -rest else rest)

/-- The inverse hyperbolic tangent of a / b (fixed point), for a / b at most 1/3. -/
def artanhFix (a b : Nat) : Nat :=
  let z := a * sfuOne / b
  (atanSum false (z * z / sfuOne) 160 1 z).toNat

def ln2Fix : Nat := 2 * artanhFix 1 3

/-- The inverse tangent of 1 / b. -/
def arctanFix (b : Nat) : Nat :=
  let z := sfuOne / b
  (atanSum true (z * z / sfuOne) 100 1 z).toNat

/-- Pi, by Machin's formula. -/
def piFix : Nat := 16 * arctanFix 5 - 4 * arctanFix 239

/-- The alternating sum of y^n / n! over every second n. -/
def trigSum (yy : Nat) : Nat → Nat → Nat → Int
  | 0, _, _ => 0
  | k + 1, n, t => (t : Int) - trigSum yy k (n + 2) (t * yy / sfuOne / (n * (n + 1)))

/-- sin and cos of a fixed-point y at most pi/2. -/
def sinFix (y : Nat) : Nat := (trigSum (y * y / sfuOne) 60 2 y).toNat
def cosFix (y : Nat) : Nat := (trigSum (y * y / sfuOne) 60 1 sfuOne).toNat

/-- m x 2^e in fixed point; bits below 2^-400 are dropped. -/
def toFix (m : Nat) (e : Int) : Nat :=
  let k := e + 400
  if 0 ≤ k then m * 2 ^ k.toNat else m / 2 ^ (-k).toNat

/-- Whether m x 2^e is an integer. -/
def isInteger (m : Nat) (e : Int) : Bool := if 0 ≤ e then true else m % 2 ^ (-e).toNat = 0

/-- m x 2^e modulo 2, in fixed point; the argument has no bit below 2^-149. -/
def modTwo (m : Nat) (e : Int) : Nat := if 1 ≤ e then 0 else toFix m e % (2 * sfuOne)

/-- 2^x for a nonzero finite x (R109). -/
def exp2Val (neg : Bool) (m : Nat) (e : Int) : FVal :=
  if !(dyLt m e 256 0) then .fin false (if neg then 1 else 1) (if neg then -400 else 400)
  else if isInteger m e then
    let n : Int := if 0 ≤ e then m * 2 ^ e.toNat else m / 2 ^ (-e).toNat
    .fin false 1 (if neg then -n else n)
  else
    let x := toFix m e
    let n : Int := (x / sfuOne : Nat)
    let f := x % sfuOne
    if neg then stickyVal false (expFix ((sfuOne - f) * ln2Fix / sfuOne)) (-n - 1 - 400) false
    else stickyVal false (expFix (f * ln2Fix / sfuOne)) (n - 400) false

/-- log2 x for a positive finite x (R109): the exponent plus the logarithm of a significand in [1, 2). -/
def log2Val (m : Nat) (e : Int) : FVal :=
  let len := bitLen m
  let top : Int := e + len - 1
  let one := 2 ^ (len - 1)
  if m = one then FVal.ofInt top 0
  else
    let l := 2 * artanhFix (m - one) (m + one) * sfuOne / ln2Fix
    let v : Int := top * sfuOne + l
    stickyVal (decide (v < 0)) (if v < 0 then v.natAbs - 1 else v.natAbs) (-400) false

/-- |sin(pi r)| or |cos(pi r)| of r in [0, 2), with the sign, for an r that is no multiple of 1/2. -/
def sinPiVal (r : Nat) : FVal :=
  let neg := decide (sfuOne < r)
  let q := r % sfuOne
  let y := if 2 * q ≤ sfuOne then q else sfuOne - q
  stickyVal neg (sinFix (y * piFix / sfuOne)) (-400) false

/-- tanh x for a nonzero finite x of magnitude m x 2^e (R109): 1 - 2/(e^(2x) + 1), and x itself, slightly less, below
2^-60. -/
def tanhVal (neg : Bool) (m : Nat) (e : Int) : FVal :=
  if dyLt m e 1 (-60) then .fin neg (m * 2 ^ 200 - 1) (e - 200)
  else if !(dyLt m e 32 0) then .fin neg (2 ^ 200 - 1) (-200)
  else
    let x := expFix (2 * toFix m e)
    stickyVal neg ((x - sfuOne) * sfuOne / (x + sfuOne)) (-400) false

/-- The SFU operations by minor: 0 FRCP, 1 FRSQ, 2 FSQRT, 3 FDIV, 4 FEXP2, 5 FLOG2, 6 FSINP, 7 FCOSP, 8 FTANH. -/
def sfu (op : Nat) (x y : Word) : Nat × Flags :=
  let f := Fmt.f32
  let a := f.decode x.toNat
  let b := f.decode y.toNat
  let nan : Nat × Flags := (f.canonicalNaN, if a.isSNaN || (op = 3 && b.isSNaN) then fIV else 0)
  let invalid : Nat × Flags := (f.canonicalNaN, fIV)
  let inf := fun (s : Bool) => f.signBit s + f.inf
  let one := fun (s : Bool) => f.signBit s + 0x3F800000
  if a.isNaN || (op = 3 && b.isNaN) then nan
  else match op with
    | 0 => match a with
      | .inf s => (f.signBit s, 0)
      | .fin s 0 _ => (inf s, fDZ)
      | .fin s m e => f.round 0 false (quotient s 1 m (-e))
      | .nan _ => nan
    | 1 => match a with
      | .inf s => if s then invalid else (0, 0)
      | .fin s 0 _ => (inf s, fDZ)
      | .fin s m e =>
        if s then invalid
        else if e % 2 = 0 then f.round 0 false (rootVal 1 m (-e)) else f.round 0 false (rootVal 1 (2 * m) (1 - e))
      | .nan _ => nan
    | 2 => match a with
      | .inf s => if s then invalid else (inf false, 0)
      | .fin s 0 _ => (f.signBit s, 0)
      | .fin s m e =>
        if s then invalid
        else if e % 2 = 0 then f.round 0 false (rootVal m 1 e) else f.round 0 false (rootVal (2 * m) 1 (e - 1))
      | .nan _ => nan
    | 3 =>
      let s := a.neg != b.neg
      match a, b with
      | .inf _, .inf _ => invalid
      | .inf _, _ => (inf s, 0)
      | _, .inf _ => (f.signBit s, 0)
      | .fin _ 0 _, .fin _ 0 _ => invalid
      | .fin _ _ _, .fin _ 0 _ => (inf s, fDZ)
      | .fin _ 0 _, .fin _ _ _ => (f.signBit s, 0)
      | .fin _ m e, .fin _ n g => f.round 0 false (quotient s m n (e - g))
      | _, _ => nan
    | 4 => match a with
      | .inf s => (if s then 0 else inf false, 0)
      | .fin _ 0 _ => (one false, 0)
      | .fin s m e => f.round 0 false (exp2Val s m e)
      | .nan _ => nan
    | 5 => match a with
      | .inf s => if s then invalid else (inf false, 0)
      | .fin _ 0 _ => (inf true, fDZ)
      | .fin s m e => if s then invalid else f.round 0 false (log2Val m e)
      | .nan _ => nan
    | 6 => match a with
      | .inf _ => invalid
      | .fin s 0 _ => (f.signBit s, 0)
      | .fin s m e =>
        if isInteger m e then (f.signBit s, 0)
        else
          let r := modTwo m e
          if 2 * r % sfuOne = 0 then (one (s != decide (sfuOne < r)), 0)
          else f.round 0 false (if s then (sinPiVal r).flip else sinPiVal r)
      | .nan _ => nan
    | 7 => match a with
      | .inf _ => invalid
      | .fin _ 0 _ => (one false, 0)
      | .fin _ m e =>
        let r := modTwo m e
        if isInteger m e then (one (decide (r = sfuOne)), 0)
        else if 2 * r % sfuOne = 0 then (0, 0)
        else f.round 0 false (cosPi r)
      | .nan _ => nan
    | _ => match a with
      | .inf s => (one s, 0)
      | .fin s 0 _ => (f.signBit s, 0)
      | .fin s m e => f.round 0 false (tanhVal s m e)
      | .nan _ => nan
where
  /-- cos(pi r) as the sine of a quarter turn more. -/
  cosPi (r : Nat) : FVal := sinPiVal ((r + sfuOne / 2) % (2 * sfuOne))

end Sys2Proof.Machine
end

