-- ==== Sys2Proof/Machine/FloatOps.lean ====
section
/-!
DEFINITION. FADD, FMUL, FFMA, FCMP, FMISC (R103 to R108), SFU (R109 to R111), CVT (R112, R113), PK16 (R114), DOT (R115)
and NQ (R116, R117).
-/

namespace Sys2Proof.Machine

/-! ### Shared forms -/

/-- An f32 operand. -/
def f32v (x : Word) : FVal := Fmt.f32.decode x.toNat
def term (l : List FVal) : Term := Term.of l

/-- Writes a result with latency 4 and ORs its flags into FSTAT (R100). -/
def Env.floatOut (e : Env) (t : BitVec 1) (d : Nat) (r : Nat × Flags) : Strand :=
  (e.write e.st d (.ofNat 32 r.1) false 4 t).raise (e.loud r.2)

def float2 (s : State) (t : BitVec 1) (d a b : BitVec 7) (f : Nat → Bool → Word → Word → Nat × Flags) :
    Host.Outcome State Fault Refusal :=
  laneStep s fun e => do
    e.exist [d.toNat, a.toNat, b.toNat]
    let (x, y) ← e.use2 a.toNat b.toNat
    pure (e.floatOut t d.toNat (f e.mode.1 e.mode.2 x y))

def float3 (s : State) (t : BitVec 1) (d a b : BitVec 7) (f : Nat → Bool → Word → Word → Word → Nat × Flags) :
    Host.Outcome State Fault Refusal :=
  laneStep s fun e => do
    e.exist [d.toNat, a.toNat, b.toNat]
    let (x, y, z) ← both (e.use a.toNat) (e.use2 b.toNat d.toNat)
    pure (e.floatOut t d.toNat (f e.mode.1 e.mode.2 x y z))

def float1 (s : State) (t : BitVec 1) (d a : BitVec 7) (f : Nat → Word → Nat × Flags) : Host.Outcome State Fault Refusal :=
  laneStep s fun e => do
    e.exist [d.toNat, a.toNat]
    let x ← e.use a.toNat
    pure (e.floatOut t d.toNat (f e.mode.1 x))

/-! ### FADD and FMUL -/

def execFadd (t : BitVec 1) (d a b : BitVec 7) (s : State) : Host.Outcome State Fault Refusal :=
  float2 s t d a b fun m sat x y => sumRule (some (f32v x)) [term [f32v y]] .f32 m sat
def execFsub (t : BitVec 1) (d a b : BitVec 7) (s : State) : Host.Outcome State Fault Refusal :=
  float2 s t d a b fun m sat x y => sumRule (some (f32v x)) [term [(f32v y).flip]] .f32 m sat
def execFmin (t : BitVec 1) (d a b : BitVec 7) (s : State) : Host.Outcome State Fault Refusal :=
  float2 s t d a b fun _ _ x y => minMax .f32 false x.toNat y.toNat
def execFmax (t : BitVec 1) (d a b : BitVec 7) (s : State) : Host.Outcome State Fault Refusal :=
  float2 s t d a b fun _ _ x y => minMax .f32 true x.toNat y.toNat
def execFmul (t : BitVec 1) (d a b : BitVec 7) (s : State) : Host.Outcome State Fault Refusal :=
  float2 s t d a b fun m sat x y => sumRule none [term [f32v x, f32v y]] .f32 m sat

/-- FSCALE (R104). An exponent change beyond 600 leaves every finite result where one of 600 does. -/
def scaleF32 (m : Nat) (sat : Bool) (x n : Word) : Nat × Flags :=
  match f32v x with
  | .nan sig => (Fmt.f32.canonicalNaN, if sig then fIV else 0)
  | .inf neg => Fmt.f32.round m sat (.inf neg)
  | .fin neg q e => Fmt.f32.round m sat (.fin neg q (e + max (-600) (min 600 n.toInt)))

def execFscale (t : BitVec 1) (d a b : BitVec 7) (s : State) : Host.Outcome State Fault Refusal :=
  float2 s t d a b scaleF32

/-! ### FFMA -/

/-- ±c + (±x) y (R105). -/
def fused (negC negX : Bool) (m : Nat) (sat : Bool) (x y c : Word) : Nat × Flags :=
  sumRule (some (if negC then (f32v c).flip else f32v c)) [term [if negX then (f32v x).flip else f32v x, f32v y]] .f32 m sat

def execFfma (t : BitVec 1) (d a b : BitVec 7) (s : State) : Host.Outcome State Fault Refusal :=
  float3 s t d a b (fused false false)
def execFfms (t : BitVec 1) (d a b : BitVec 7) (s : State) : Host.Outcome State Fault Refusal :=
  float3 s t d a b (fused true false)
def execFnma (t : BitVec 1) (d a b : BitVec 7) (s : State) : Host.Outcome State Fault Refusal :=
  float3 s t d a b (fused false true)
def execFnms (t : BitVec 1) (d a b : BitVec 7) (s : State) : Host.Outcome State Fault Refusal :=
  float3 s t d a b (fused true true)

/-! ### FCMP and FMISC -/

def execFcmp (c : BitVec 3) (p : BitVec 3) (a b : BitVec 7) (s : State) : Host.Outcome State Fault Refusal :=
  laneStep s fun e => do
    e.exist [a.toNat, b.toNat]
    let (x, y) ← e.use2 a.toNat b.toNat
    let fl := if (f32v x).isSNaN || (f32v y).isSNaN then fIV else 0
    pure ((e.writePred e.st p.toNat (fcond c.toNat (f32v x) (f32v y)) 4).raise (e.loud fl))

/-- The class mask of R107. -/
def classMask (x : Word) : Nat :=
  let sub := fld x.toNat 23 8 = 0
  match f32v x with
  | .nan sig => if sig then 0x100 else 0x200
  | .inf neg => if neg then 0x001 else 0x080
  | .fin neg m _ =>
    if m = 0 then (if neg then 0x008 else 0x010)
    else if sub then (if neg then 0x004 else 0x020)
    else if neg then 0x002 else 0x040

def execFclass (t : BitVec 1) (d a : BitVec 7) (s : State) : Host.Outcome State Fault Refusal :=
  float1 s t d a fun _ x => (classMask x, 0)

/-- FRND (R108). -/
def roundF32 (m : Nat) (x : Word) : Nat × Flags :=
  match f32v x with
  | .nan sig => (Fmt.f32.canonicalNaN, if sig then fIV else 0)
  | .inf _ => (x.toNat, 0)
  | .fin neg q e => (Fmt.f32.encodeFin neg (roundInt m neg q e).1 0, 0)

/-- FFRAC (R108). -/
def fracF32 (x : Word) : Nat × Flags :=
  match f32v x with
  | .nan sig => (Fmt.f32.canonicalNaN, if sig then fIV else 0)
  | .inf _ => (Fmt.f32.canonicalNaN, fIV)
  | .fin neg q e => (Fmt.f32.encodeFin neg (if 0 ≤ e then 0 else q % 2 ^ (-e).toNat) e, 0)

/-- A result that R32 makes the canonical NaN when x is a NaN. -/
def unlessNaN (x : Word) (r : Nat) : Nat × Flags := (if (f32v x).isNaN then Fmt.f32.canonicalNaN else r, 0)

def execFrnd (t : BitVec 1) (d a : BitVec 7) (s : State) : Host.Outcome State Fault Refusal := float1 s t d a roundF32
def execFfrac (t : BitVec 1) (d a : BitVec 7) (s : State) : Host.Outcome State Fault Refusal :=
  float1 s t d a fun _ x => fracF32 x
def execFcpys (t : BitVec 1) (d a b : BitVec 7) (s : State) : Host.Outcome State Fault Refusal :=
  float2 s t d a b fun _ _ x y =>
    unlessNaN x (x.toNat % 2 ^ 31 + (if !(f32v y).isNaN && y.msb then 2 ^ 31 else 0))
def execFabs (t : BitVec 1) (d a : BitVec 7) (s : State) : Host.Outcome State Fault Refusal :=
  float1 s t d a fun _ x => unlessNaN x (x.toNat % 2 ^ 31)
def execFneg (t : BitVec 1) (d a : BitVec 7) (s : State) : Host.Outcome State Fault Refusal :=
  float1 s t d a fun _ x => unlessNaN x (x.toNat % 2 ^ 31 + (if x.msb then 0 else 2 ^ 31))

/-! ### SFU and CVT -/

/-- An issue finds its wave's queue of the SFU (1) or of the conversions (2) full (R111, R112). -/
def Env.queueRoom (e : Env) (unit limit : Nat) : Act Unit :=
  let l := e.s.unitIssues e.waveKey unit
  require (decide (l.length < limit) || l.contains e.issueNo) .hold

def sfuOp (s : State) (op : Nat) (d a b : BitVec 7) : Host.Outcome State Fault Refusal :=
  runLane s fun e => do
    e.queueRoom 1 Config.sfuQueue
    e.exist (if op = 3 then [d.toNat, a.toNat, b.toNat] else [d.toNat, a.toNat])
    let (x, y) ← if op = 3 then e.use2 a.toNat b.toNat else (e.use a.toNat).map fun x => (x, 0)
    let (r, fl) := sfu op x y
    let (s, st) := e.enqueue e.st 1 [(d.toNat, .ofNat 32 r)] (e.loud fl)
    pure (e.retire s st)

def execFrcp (d a : BitVec 7) (s : State) : Host.Outcome State Fault Refusal := sfuOp s 0 d a 0
def execFrsq (d a : BitVec 7) (s : State) : Host.Outcome State Fault Refusal := sfuOp s 1 d a 0
def execFsqrt (d a : BitVec 7) (s : State) : Host.Outcome State Fault Refusal := sfuOp s 2 d a 0
def execFdiv (d a b : BitVec 7) (s : State) : Host.Outcome State Fault Refusal := sfuOp s 3 d a b
def execFexp2 (d a : BitVec 7) (s : State) : Host.Outcome State Fault Refusal := sfuOp s 4 d a 0
def execFlog2 (d a : BitVec 7) (s : State) : Host.Outcome State Fault Refusal := sfuOp s 5 d a 0
def execFsinp (d a : BitVec 7) (s : State) : Host.Outcome State Fault Refusal := sfuOp s 6 d a 0
def execFcosp (d a : BitVec 7) (s : State) : Host.Outcome State Fault Refusal := sfuOp s 7 d a 0
def execFtanh (d a : BitVec 7) (s : State) : Host.Outcome State Fault Refusal := sfuOp s 8 d a 0

/-- One element converted by the kind of conversion: 0 F2F, 1 F2I, 2 I2F, 3 I2I (R112). -/
def convert (kind y x : Nat) (m : Nat) (sat : Bool) (w : Nat) : Word × Flags :=
  match kind with
  | 0 => let st := Fmt.ofCode x
         let (r, f) := convF2F (Fmt.ofCode y) st m sat (w % 2 ^ st.width)
         (.ofNat 32 r, f)
  | 1 => let st := Fmt.ofCode x; convF2I y st m (w % 2 ^ st.width)
  | 2 => let (r, f) := convI2F y x m sat w
         (.ofNat 32 r, f)
  | _ => (convI2I y x sat w, 0)

def cvtOp (s : State) (kind : Nat) (d a : BitVec 7) (y x : BitVec 3) : Host.Outcome State Fault Refusal :=
  runLane s fun e => do
    e.queueRoom 2 Config.cvtQueue
    e.exist [d.toNat, a.toNat]
    let w ← e.use a.toNat
    let (r, fl) := convert kind y.toNat x.toNat e.mode.1 e.mode.2 w.toNat
    let (s, st) := e.enqueue e.st 2 [(d.toNat, r)] (e.loud fl)
    pure (e.retire s st)

def execF2f (d a : BitVec 7) (y x : BitVec 3) (s : State) : Host.Outcome State Fault Refusal := cvtOp s 0 d a y x
def execF2i (d a : BitVec 7) (y x : BitVec 3) (s : State) : Host.Outcome State Fault Refusal := cvtOp s 1 d a y x
def execI2f (d a : BitVec 7) (y x : BitVec 3) (s : State) : Host.Outcome State Fault Refusal := cvtOp s 2 d a y x
def execI2i (d a : BitVec 7) (y x : BitVec 3) (s : State) : Host.Outcome State Fault Refusal := cvtOp s 3 d a y x

/-- Bits of a type code of PACK2 and UNPACK2 (R63). -/
def codeWidth (k : BitVec 1) (c : Nat) : Nat := if k = 0 then (Fmt.ofCode c).width else intWidth c
def packKind (k : BitVec 1) : Nat := if k = 0 then 0 else 3

def execPack2 (d a : BitVec 7) (k : BitVec 1) (y x : BitVec 3) (s : State) : Host.Outcome State Fault Refusal :=
  runLane s fun e => do
    e.queueRoom 2 Config.cvtQueue
    e.exist [d.toNat, a.toNat, a.toNat + 1]
    let (p, q) ← e.use2 a.toNat (a.toNat + 1)
    let (r0, f0) := convert (packKind k) y.toNat x.toNat e.mode.1 e.mode.2 p.toNat
    let (r1, f1) := convert (packKind k) y.toNat x.toNat e.mode.1 e.mode.2 q.toNat
    let n := codeWidth k y.toNat
    let r : Word := .ofNat 32 (r0.toNat % 2 ^ n + r1.toNat % 2 ^ n * 2 ^ n)
    let (s, st) := e.enqueue e.st 2 [(d.toNat, r)] (e.loud (f0 ||| f1))
    pure (e.retire s st)

def execUnpack2 (d a : BitVec 7) (k : BitVec 1) (y x : BitVec 3) (s : State) : Host.Outcome State Fault Refusal :=
  runLane s fun e => do
    e.queueRoom 2 Config.cvtQueue
    e.exist [d.toNat, d.toNat + 1, a.toNat]
    let w ← e.use a.toNat
    let n := codeWidth k x.toNat
    let (r0, f0) := convert (packKind k) y.toNat x.toNat e.mode.1 e.mode.2 (w.toNat % 2 ^ n)
    let (r1, f1) := convert (packKind k) y.toNat x.toNat e.mode.1 e.mode.2 (w.toNat / 2 ^ n % 2 ^ n)
    let (s, st) := e.enqueue e.st 2 [(d.toNat, r0), (d.toNat + 1, r1)] (e.loud (f0 ||| f1))
    pure (e.retire s st)

/-! ### PK16 -/

def elemFmt (f : BitVec 1) : Fmt := if f = 0 then .f16 else .bf16

/-- A function of two or three 16-bit elements applied to both halves (R114). -/
def packed (g : Nat → Nat → Nat → Nat × Flags) (x y c : Word) : Nat × Flags :=
  let (r0, f0) := g (x.toNat % 65536) (y.toNat % 65536) (c.toNat % 65536)
  let (r1, f1) := g (x.toNat / 65536) (y.toNat / 65536) (c.toNat / 65536)
  (r0 + r1 * 65536, f0 ||| f1)

def execHadd2 (f t : BitVec 1) (d a b : BitVec 7) (s : State) : Host.Outcome State Fault Refusal :=
  let F := elemFmt f
  float2 s t d a b fun m sat x y =>
    packed (fun p q _ => sumRule (some (F.decode p)) [term [F.decode q]] F m sat) x y 0
def execHsub2 (f t : BitVec 1) (d a b : BitVec 7) (s : State) : Host.Outcome State Fault Refusal :=
  let F := elemFmt f
  float2 s t d a b fun m sat x y =>
    packed (fun p q _ => sumRule (some (F.decode p)) [term [(F.decode q).flip]] F m sat) x y 0
def execHmul2 (f t : BitVec 1) (d a b : BitVec 7) (s : State) : Host.Outcome State Fault Refusal :=
  let F := elemFmt f
  float2 s t d a b fun m sat x y =>
    packed (fun p q _ => sumRule none [term [F.decode p, F.decode q]] F m sat) x y 0
def execHfma2 (f t : BitVec 1) (d a b : BitVec 7) (s : State) : Host.Outcome State Fault Refusal :=
  let F := elemFmt f
  float3 s t d a b fun m sat x y c =>
    packed (fun p q r => sumRule (some (F.decode r)) [term [F.decode p, F.decode q]] F m sat) x y c
def execHmin2 (f t : BitVec 1) (d a b : BitVec 7) (s : State) : Host.Outcome State Fault Refusal :=
  float2 s t d a b fun _ _ x y => packed (fun p q _ => minMax (elemFmt f) false p q) x y 0
def execHmax2 (f t : BitVec 1) (d a b : BitVec 7) (s : State) : Host.Outcome State Fault Refusal :=
  float2 s t d a b fun _ _ x y => packed (fun p q _ => minMax (elemFmt f) true p q) x y 0

/-! ### DOT -/

/-- IDOT4 (R115): the exact sum, reduced or clamped. -/
def intDot (unsigned sat : Bool) (x y c : Word) : Word :=
  let el := fun (w : Word) (i : Nat) => intValue (if unsigned then 3 else 0) (w.toNat / 2 ^ (8 * i))
  let base : Int := if unsigned then c.toNat else c.toInt
  let v := base + ((List.range 4).map fun i => el x i * el y i).sum
  if !sat then .ofInt 32 v
  else if unsigned then .ofInt 32 (max 0 (min (2 ^ 32 - 1) v)) else clampS v

def execIdot4 (u t : BitVec 1) (d a b : BitVec 7) (s : State) : Host.Outcome State Fault Refusal :=
  laneStep s fun e => do
    e.exist [d.toNat, a.toNat, b.toNat]
    let (x, y, z) ← both (e.use a.toNat) (e.use2 b.toNat d.toNat)
    pure (e.write e.st d.toNat (intDot (u == 1) e.mode.2 x y z) false 4 t)

/-- A dot product of `n` elements of a format into f32. -/
def floatDot (F : Fmt) (n : Nat) (m : Nat) (sat : Bool) (x y c : Word) : Nat × Flags :=
  let el := fun (w : Word) (i : Nat) => F.decode (w.toNat / 2 ^ (F.width * i) % 2 ^ F.width)
  sumRule (some (f32v c)) ((List.range n).map fun i => term [el x i, el y i]) .f32 m sat

def execFdot2 (u t : BitVec 1) (d a b : BitVec 7) (s : State) : Host.Outcome State Fault Refusal :=
  float3 s t d a b (floatDot (elemFmt u) 2)
def execF8dot4 (u t : BitVec 1) (d a b : BitVec 7) (s : State) : Host.Outcome State Fault Refusal :=
  float3 s t d a b (floatDot (if u = 0 then .e4m3 else .e5m2) 4)

/-! ### NQ -/

/-- The lane's block scale (R116). -/
def Env.blockScale (e : Env) (sel : BitVec 2) (scales : Word) : Nat :=
  fld scales.toNat (8 * ((sel.toNat + e.lane / 32) % 4)) 8

/-- The lane's two elements as terms: the low and the high nibble of the code byte. -/
def nqElements (code s8 : Nat) (S : FVal) : Term × Term := (nq4Term (code % 16) s8 S, nq4Term (code / 16 % 16) s8 S)

def execNqdec (sel : BitVec 2) (t : BitVec 1) (d a b : BitVec 7) (s : State) : Host.Outcome State Fault Refusal :=
  laneStep s fun e => do
    e.exist [d.toNat, d.toNat + 1, a.toNat, a.toNat + 1, b.toNat]
    let ((c, w), y) ← both (e.use2 a.toNat (a.toNat + 1)) (e.use b.toNat)
    let (p, q) := nqElements c.toNat (e.blockScale sel w) (f32v y)
    let (r0, f0) := p.round .f32 e.mode.1 e.mode.2
    let (r1, f1) := q.round .f32 e.mode.1 e.mode.2
    let st := e.write e.st d.toNat (.ofNat 32 r0) false 4 t
    pure ((e.write st (d.toNat + 1) (.ofNat 32 r1) false 4 t).raise (e.loud (f0 ||| f1)))

def execNqdecf (sel : BitVec 2) (t : BitVec 1) (d a b : BitVec 7) (s : State) : Host.Outcome State Fault Refusal :=
  laneStep s fun e => do
    e.exist [d.toNat, a.toNat, a.toNat + 1, b.toNat]
    let ((c, w), y) ← both (e.use2 a.toNat (a.toNat + 1)) (e.use b.toNat)
    let (p, q) := nqElements c.toNat (e.blockScale sel w) (f32v y)
    let (r0, f0) := p.round .f16 e.mode.1 e.mode.2
    let (r1, f1) := q.round .f16 e.mode.1 e.mode.2
    pure (e.floatOut t d.toNat (r0 + r1 * 65536, f0 ||| f1))

/-- NQDOT (R117): one exact sum with both products and c. -/
def nqDot (m : Nat) (sat : Bool) (code s8 : Nat) (S : FVal) (act c : Word) : Nat × Flags :=
  let h := fun (i : Nat) => Fmt.f16.decode (act.toNat / 2 ^ (16 * i) % 65536)
  sumRule (some (f32v c))
    [term [nq4Scaled (code % 16) s8, S, h 0], term [nq4Scaled (code / 16 % 16) s8, S, h 1]] .f32 m sat

def execNqdot (sel : BitVec 2) (t : BitVec 1) (d a b : BitVec 7) (s : State) : Host.Outcome State Fault Refusal :=
  laneStep s fun e => do
    e.exist [d.toNat, a.toNat, a.toNat + 1, b.toNat, b.toNat + 1]
    let ((c, w), (y, x), z) ← both (e.use2 a.toNat (a.toNat + 1)) (both (e.use2 b.toNat (b.toNat + 1)) (e.use d.toNat))
    pure (e.floatOut t d.toNat (nqDot e.mode.1 e.mode.2 c.toNat (e.blockScale sel w) (f32v y) x z))

end Sys2Proof.Machine
end

