-- ==== Sys2Proof/Machine/Local.lean ====
section
/-!
DEFINITION. A team's local space: scratch with its poison bits (R120, R125, R201) and the register areas (R127, R202), and
the record of lane accesses from which passes are counted (R203).
-/

namespace Sys2Proof.Machine

/-- Notes a lane access of the issue in progress (R203). The offset of a register area is moved by a multiple of the
128-byte row, so that its words differ from those of scratch. -/
def State.noteAccess (s : State) (lane space size addr : Nat) (atomic : Bool) : State :=
  { s with issue := s.issue.map fun (i : Issue) =>
      { i with accesses := i.accesses ++ [{ lane := lane, space := space, size := size, addr := addr, atomic := atomic }] } }

/-- Where a byte offset of the register areas lies (R202): the area's own offset of the area, the strand, the register and the
byte. The strand is none in the area of a wave that has exited. -/
structure AreaByte where
  strand : Option Nat
  n : Nat
  byte : Nat
  deriving DecidableEq, Repr

def areaPlace : List Area → Nat → Option AreaByte
  | [], _ => none
  | x :: l, off =>
    if off < x.bytes then
      some { strand := x.wave.map fun w => strandNo w (off / 4 % x.width), n := off / 4 / x.width, byte := off % 4 }
    else areaPlace l (off - x.bytes)

/-- A byte of a register area: its value, its word's poison, and whether its word has a parity error (R25). A byte whose
strand has exited has no register: a free value (R28, log 43). -/
def State.areaByte (s : State) (areas : List Area) (off : Nat) : Byte × Bool × Option (Nat × Nat) :=
  match areaPlace areas off with
  | none => (0, false, none)
  | some p =>
    match p.strand.bind s.strands.find with
    | none => (Config.freedByte s.freeCount off, false, none)
    | some st =>
      let r := st.regs.get p.n Reg.zero
      (.ofNat 8 (r.val.toNat / 2 ^ (8 * p.byte)), r.poison,
        if r.par = parity r.val then none else p.strand.map fun k => (k, p.n))

/-- A store into a register area writes the strand's own register file (R252): in the bank, under the poison rule of R125.
The register's marks are those of a new latest write (R19, R25), and a handler's store counts among its writes where it
is to a register of its own (R22). -/
def State.setAreaByte (s : State) (areas : List Area) (writer off : Nat) (x : Byte) (poison : Bool) : State :=
  match areaPlace areas off with
  | none => s
  | some p =>
    match p.strand with
    | none => s
    | some k =>
      s.modStrand k fun st =>
        let r := st.regs.get p.n Reg.zero
        let old := fld r.val.toNat (8 * p.byte) 8
        let v := r.val.toNat - old * 2 ^ (8 * p.byte) + x.toNat * 2 ^ (8 * p.byte)
        let st := { st with regs := st.regs.set p.n (Reg.of (.ofNat 32 v) poison)
                            parityErrors := st.parityErrors.filter (· ≠ p.n) }
        if k ≠ writer then st
        else match st.handler with
          | none => { st with lost := st.lost.filter (· ≠ .v p.n) }
          | some f =>
            let st := if p.n < 8 then st else { st with lost := st.lost.filter (· ≠ .v p.n) }
            { st with handler := some { f with wrote := f.wrote ++ [.v p.n] } }

/-- The poison bit of a word after a write of some of its bytes (R125). -/
def wordPoison (old data : Bool) (bytes : Nat) : Bool := if bytes = 4 then data else old || data

/-- Bytes with the poison bit of the word that each comes from. -/
abbrev Marked := List (Byte × Bool)
def Marked.bytes (l : Marked) : List Byte := l.map Prod.fst
def Marked.poisoned (l : Marked) : Bool := l.any Prod.snd
def clean (l : List Byte) : Marked := l.map fun b => (b, false)

/-- A team's scratch from an offset, each byte with its word's poison (R125). -/
def Team.scratchRead (t : Team) (off n : Nat) : Marked :=
  (span off n).map fun a => (t.scratch.get a 0, t.poisonWords.contains (a / 4))

/-- Writes a team's scratch; each word touched takes its poison by R125. -/
def Team.scratchWrite (t : Team) (off : Nat) (l : Marked) : Team :=
  let cells := (span off l.length).zip l
  let words := dedup (cells.map fun c => c.1 / 4)
  { t with
    scratch := cells.foldl (fun m c => if c.2.1 = 0 then Tbl.drop m c.1 else Tbl.set m c.1 c.2.1) t.scratch
    poisonWords := words.foldl (fun ps w =>
      let mine := cells.filter fun c => c.1 / 4 = w
      if wordPoison (ps.contains w) (mine.any fun c => c.2.2) mine.length then insertNat ps w else ps.filter (· ≠ w))
      t.poisonWords }

def State.scratchRead (s : State) (team off n : Nat) : Marked :=
  match s.teams.find team with | some t => t.scratchRead off n | none => clean (List.replicate n 0)

/-- A write to a team's scratch by any agent (R125, R135). -/
def State.scratchWrite (s : State) (team off : Nat) (l : Marked) : State :=
  (s.modTeam team fun t => t.scratchWrite off l).wakeLocal team off l.length

/-- The areas that an access of a strand sees. -/
def State.areasFor (s : State) (team : Nat) (trailing : Bool) : List Area :=
  match s.teams.find team with | some t => s.areaWaves t trailing | none => []

/-- Reads an element of local space. -/
def State.localRead (s : State) (team : Nat) (trailing : Bool) (loc : Loc) (n : Nat) : Marked :=
  match loc with
  | .scratch off => s.scratchRead team off n
  | .area off => (span off n).map fun a => let x := s.areaByte (s.areasFor team trailing) a; (x.1, x.2.1)
  | _ => clean (List.replicate n 0)

/-- The first register with a parity error that a read of a register area meets: its strand and number (R25). -/
def State.areaError (s : State) (team : Nat) (trailing : Bool) (loc : Loc) (n : Nat) : Option (Nat × Nat) :=
  match loc with
  | .area off => (span off n).findSome? fun a => (s.areaByte (s.areasFor team trailing) a).2.2
  | _ => none

/-- Writes an element of local space for a strand. -/
def State.localWrite (s : State) (team : Nat) (trailing : Bool) (writer : Nat) (loc : Loc) (l : Marked) : State :=
  match loc with
  | .scratch off => s.scratchWrite team off l
  | .area off =>
    let areas := s.areasFor team trailing
    let cells := (span off l.length).zip l
    cells.foldl (fun s' c =>
      let mine := cells.filter fun d => d.1 / 4 = c.1 / 4
      s'.setAreaByte areas writer c.1 c.2.1
        (wordPoison (s.areaByte areas c.1).2.1 (mine.any fun d => d.2.2) mine.length)) s
  | _ => s

/-- What a load of several words may find in an issue of several passes (R204): of each word that an event between the accesses has
overwritten, the new or the old contents (log 12). `place` says where a word of the run lies. -/
def State.mixed (s : State) (place : Nat → WordAt) (off : Nat) (l : Marked) : Marked × State :=
  let before := (s.issue.map fun (i : Issue) => i.before).getD []
  if l.length ≤ 4 ∨ before = [] then (l, s)
  else
    (((span off l.length).zip l).map fun c =>
      match before.find? fun o => o.at_ = place (c.1 / 4) with
      | some o => if Config.freeChoice (s.freeCount + (c.1 / 4 - off / 4)) then (o.bytes.getD (c.1 % 4) 0, o.poison) else c.2
      | none => c.2, { s with freeCount := s.freeCount + 4 })

/-- Where a word of the register areas lies. -/
def areaWord (areas : List Area) (w : Nat) : WordAt :=
  match areaPlace areas (4 * w) with
  | some ⟨some k, n, _⟩ => .register k n
  | _ => .register 0 128

/-- The offset under which an access is counted in passes. -/
def Loc.counted : Loc → Nat | .scratch o => o | .area o => o + 2 ^ 40 | _ => 0
def Loc.isArea : Loc → Bool | .area _ => true | _ => false

end Sys2Proof.Machine
end

