-- ==== Sys2Proof/Machine/MemAccess.lean ====
section
/-!
DEFINITION. LD, ST (R124 to R128), ATOM (R129, R130) and FENCE with the cache operations and WAITLINE (R132 to R135),
under the ordering of R335 to R348 and the store buffer of R290.
-/

namespace Sys2Proof.Machine

/-! ### Shared checks -/

/-- How many registers an element of a load or a store takes, and whether the first is aligned (R125). -/
def elementRegs (size : Nat) : Nat := if size ≤ 4 then 1 else size / 4
def elementAligned (size d : Nat) : Bool := size ≤ 4 || d % (size / 4) = 0

/-- The revision of the executing strand's bank (R357). -/
def Env.revision (e : Env) : Nat := e.bank.mmrMode.toNat
def Env.isContained (e : Env) : Bool := e.s.contained e.wave.team
/-- The core whose L1 area holds a virtual address for this strand. -/
def Env.homeCore (e : Env) (va : Nat) : Nat := l1Core e.coreKey e.fused va

/-- Requests of a list that are still outstanding. -/
def State.stillOut (s : State) (ids : List Nat) (applied : Bool) : List Nat :=
  ids.filter fun k => s.awaits [k] applied

/-- A commit point (R290): every buffered store is on its way before the access that makes it; a redundant team's stores
have all been compared (R268). Stores of the strand that are still to be performed, and its atomics on the buffer, come first
(R335, R347). -/
def Env.commitPoint (e : Env) (s : State) : Act State :=
  if s.storesOf e.key ≠ [] ∨ s.atomics.any (fun a => a.strand = e.key && a.inBuffer) then .error .hold
  else if e.isContained then
    if s.allCompared e.wave.team then .ok (s.commit e.wave.team) else .error .hold
  else .ok s

/-- The team that a release or an atomic above team scope exposes when it is performed (R291). -/
def Env.exposing (e : Env) : Option Nat := if e.isContained then some e.wave.team else none

/-- The strand as it stands after an instruction whose acquire must return first. -/
def Env.retireWaiting (e : Env) (s : State) (st : Strand) (wait : Option Nat) : State :=
  match wait with
  | none => e.retire s st
  | some id => s.setStrand e.key { st.tick 1 with life := .waiting (.reply id) }

/-! ### Loads -/

/-- What the L1 area serves a load at once, under the bytes of the store buffer (R290, R341), in the order of the strand's accesses
(R126). In revision 1 an acquire at device scope is served at the ordering point (R358). -/
def Env.served (e : Env) (core pa n acquire : Nat) : Option (List Byte × Bool) :=
  let line := lineOf pa
  let buffer := e.s.bufferOf e.key
  if (e.revision = 1 && decide (5 ≤ acquire)) || e.s.flights.any (fun f => e.cores.contains f.core && f.line = line)
      || e.s.ownHeld e.key pa n e.s.nextId || e.s.olderLoad e.key pa n e.s.nextId || e.s.ownedByCopy line then none
  else (e.s.l1Hit core e.coreKey pa n e.revision (decide (3 ≤ acquire))).map fun p =>
    (overBuffer buffer pa p.1, p.2 && !bufferCovers buffer pa)

/-- The words of an element that a load or a WAITLINE writes, each with the poison of its bytes (R125). -/
def markedWords (l : Marked) (words : List Word) : List (Word × Bool) :=
  words.mapIdx fun k w => (w, Marked.poisoned ((l.drop (4 * k)).take 4))

/-- Starts a load that has missed, under a new request number (R121, R317). -/
def Env.startLoad (e : Env) (s : State) (core va pa size d acquire pol : Nat) (signed : Bool) : Nat × State :=
  s.request { id := 0, strand := e.key, use := .register, core := core, asid := e.asid, va := va, pa := pa, size := size,
              signed := signed, d := d, acquire := acquire, pol := pol, granted := false, clock := [] }

/-- The register whose stored parity is wrong, as its reader records it: a number of its own below 128, another strand's by
strand and number (log 41). -/
def Env.errorMark (e : Env) (k n : Nat) : Nat := if k = e.key then n else 128 + 128 * k + n

/-- The strand as an access through a register-area handle finds it: drained, so that its index and its data are those of every
earlier result (R21, R127). DEDUCED (log 47): the drain comes before the operands are read, of a lane that clamps too. -/
def Env.areaDrained (e : Env) (r : HRec) : Act Env :=
  if hKind r = kArea then
    if e.st.drained then .ok { e with st := e.st.drain } else .error .hold
  else .ok e

/-- A load from the register areas: its registers arrive at the end of the issue, so that no load of the issue reads them
(R125). -/
def Env.areaLoad (e : Env) (d n : Nat) (signed : Bool) (off : Nat) : Act State := do
  let s := e.s.setStrand e.key e.st
  match s.areaError e.wave.team e.wave.trailing (.area off) n with
  | some (k, r) => .error (.parity (e.errorMark k r))
  | none =>
    let (l, s) := s.mixed (areaWord (s.areasFor e.wave.team e.wave.trailing)) off
      (s.localRead e.wave.team e.wave.trailing (.area off) n)
    let words := markedWords l (loadWords n signed l.bytes)
    let (_, s) := s.free
    let (id, s) := s.fresh
    let s := { s with issue := s.issue.map fun (i : Issue) =>
      { i with late := i.late ++ [{ strand := e.key, id := id, d := d, words := words }] } }
    pure (e.giveLater s e.st id d (elementRegs n))

/-- A load from global memory at a physical address: what the L1 area serves at once, or a request (R121, R125). -/
def Env.loadGlobal (e : Env) (va pa n d scope pol : Nat) (signed acquire : Bool) : State :=
  let core := e.homeCore va
  match e.served core pa n scope with
  | some (b, p) =>
    let (l, s) := (e.s.noteAccess e.lane 1 n va false).mixed (.l1 core) pa (b.map fun x => (x, p))
    e.give (if 3 ≤ scope then s.dropClean e.cores else s) e.st d (markedWords l (loadWords n signed l.bytes))
  | none =>
    let (id, s) := e.startLoad e.s core va pa n d scope pol signed
    let st := e.offer (e.st.awaitMany id d (elementRegs n)) id [] []
    e.retireWaiting s st (if acquire then some id else none)

/-- LD, LDS and LDA (R125). `acquire` says whether the load is an acquire. -/
def load (s : State) (d : BitVec 7) (h : BitVec 4) (a : BitVec 7) (field : BitVec 3) (signed acquire : Bool) :
    Host.Outcome State Fault Refusal :=
  runLane s fun e => do
    e.room
    e.exist [a.toNat]
    let r ← e.hReg h.toNat
    let n := hEsize r
    require (elementAligned n d.toNat) (.fault ILLOP 0 0)
    e.exist (span d.toNat (elementRegs n))
    let e ← e.areaDrained r
    if e.trailing then e.follow e.st d.toNat
    else e.shared do
      let (i, ip) ← e.read a.toNat
      let loc ← e.locate r i.toNat 0
      let give := fun (s : State) (l : Marked) => e.give s e.st d.toNat (markedWords l (loadWords n signed l.bytes))
      match loc with
      | .clamped =>
        require (!ip) .poison
        pure (give e.s (clean (List.replicate n 0)))
      | .glob va =>
        let pa ← e.translate va 0 kLoad
        require (!ip) .poison
        pure (e.loadGlobal va pa n d.toNat (if acquire then accessScope field.toNat r else 0) (e.policy r) signed acquire)
      | .scratch off =>
        require (!ip) .poison
        let s := e.s.noteAccess e.lane 0 n loc.counted false
        let (l, s) := s.mixed (.scratch e.wave.team) off (s.scratchRead e.wave.team off n)
        pure (give s l)
      | .area off =>
        require (!ip) .poison
        { e with s := e.s.noteAccess e.lane 0 n loc.counted false }.areaLoad d.toNat n signed off

def execLd (d : BitVec 7) (h : BitVec 4) (a : BitVec 7) (y : BitVec 3) (s : State) : Host.Outcome State Fault Refusal :=
  load s d h a y false false
def execLds (d : BitVec 7) (h : BitVec 4) (a : BitVec 7) (y : BitVec 3) (s : State) : Host.Outcome State Fault Refusal :=
  load s d h a y true false
def execLda (d : BitVec 7) (h : BitVec 4) (a : BitVec 7) (y : BitVec 3) (s : State) : Host.Outcome State Fault Refusal :=
  load s d h a y false true

/-! ### Stores -/

/-- The bytes of an element whose words a strand stores, each with the poison bit of its word (R125). -/
def storeBytes (size : Nat) (words : List (Word × Bool)) : Marked :=
  (words.flatMap fun w => (toBytes 4 w.1.toNat).map fun b => (b, w.2)).take size

/-- The words a store, an atomic or a command is compared by in redundant mode (R268). -/
def reqWords (addr : Nat) (l : List Nat) : List Word :=
  .ofNat 32 addr :: .ofNat 32 (addr / 2 ^ 32) :: l.map (.ofNat 32 ·)

/-- Whether the buffer of a contained team has room, or may commit to make it (R268, R290). -/
def Env.bufferRoom (e : Env) (pa n : Nat) : Bool :=
  e.s.bufferFits e.wave.team pa n || e.s.allCompared e.wave.team

/-- The write of an issue that a store joins (R121): the last one of the issue to the same sector, where it is of the same kind. -/
def State.joinTarget (s : State) (n : PendStore) (pa : Nat) : Option PendStore :=
  if s.issue.isNone then none
  else (s.stores.reverse.find? fun r => r.issue = n.issue && r.home = n.home
      && r.bytes.head?.any fun c => sectorOf c.1 = sectorOf pa).filter fun r =>
    r.core = n.core && r.release = n.release && r.bypass = n.bypass && r.single = n.single

/-- A write with a later lane's store of its issue, the later bytes in front (R125). -/
def PendStore.join (r n : PendStore) : PendStore :=
  let old := (r.bytes.zip r.strands).filter fun b => !(n.bytes.any fun c => c.1 = b.1.1)
  { r with bytes := old.map (·.1) ++ n.bytes, strands := old.map (·.2) ++ n.strands
           after := dedup (r.after ++ n.after), applied := r.applied || n.applied
           exposes := match r.exposes with | some t => some t | none => n.exposes }

/-- A store that is to be performed: it joins the write of its issue to the same sector (R121), or waits as a new one, with a miss
register where its line misses in the L1 area and one is free (R317). -/
def State.addStore (s : State) (n : PendStore) : State :=
  match n.bytes with
  | [] => s
  | (pa, _) :: _ =>
    match s.joinTarget n pa with
    | some t => { s with stores := s.stores.map fun (r : PendStore) => if r.id = t.id then r.join n else r }
    | none =>
      let (id, s) := s.fresh
      let hit := ((s.core n.core).line (lineOf pa)).isSome
      { s with stores := s.stores ++ [{ n with id := id, granted := hit || s.missGrant n.home pa }] }

/-- A store to global memory at a physical address (R125, R290, R335, R348): into the buffer of a contained team, or a write
that STORE_PERFORM performs. The strand is retired; a store at system scope begins a region (R24). -/
def Env.storeGlobal (e : Env) (va pa : Nat) (bytes : List Byte) (scope pol : Nat) (release : Bool) : Act State := do
  let core := e.homeCore va
  let fin := fun (s : State) => if scope = 6 then e.retireRegion s e.st else e.retire s e.st
  let s := if pol = 3 then e.s else e.s.noteAccess e.lane 1 bytes.length va false
  if e.isContained && !(release && decide (3 ≤ scope)) then
    require (!e.s.ownHeld e.key pa bytes.length e.s.nextId && !e.s.ownedByCopy (lineOf pa)) .hold
    require (e.bufferRoom pa bytes.length && !(release && e.s.atomics.any (·.strand = e.key))) .hold
    pure (fin (s.bufferStore e.wave.team pa bytes))
  else
    let wide := release && decide (3 ≤ scope)
    let s ← if wide then e.commitPoint s else .ok s
    let s := if wide then s.writeBackAll e.cores else s
    let (ids, applied) := if release then s.releaseIds e.cores e.key scope e.revision false else ([], false)
    let single := release && e.revision = 1 && scope = 5
    pure (fin (s.addStore
      { id := 0, issue := e.issueNo, home := e.coreKey, core := core, bytes := place pa bytes
        strands := List.replicate bytes.length e.key, asid := e.asid, va := va, release := release
        after := s.stillOut ids applied, applied := applied
        bypass := pol = 3 || single, pol := pol, single := single, granted := false
        exposes := if wide then e.exposing else none }))

/-- Accesses of the strand that a release at team scope or below waits for. -/
def State.ownOutstanding (s : State) (strand : Nat) : Bool :=
  s.storesOf strand ≠ [] || s.readsOutstanding strand

/-- A store into local space (R125, R127): through a register area, a region begins after it. -/
def Env.storeLocal (e : Env) (loc : Loc) (data : Marked) : State :=
  let st := e.st.tick 1
  let s := (e.s.noteAccess e.lane 0 data.length loc.counted false).setStrand e.key st
  let s := s.localWrite e.wave.team e.wave.trailing e.key loc data
  if loc.isArea then s.modStrand e.key fun st => st.startRegion st.pc else s

/-- ST and STREL (R125). DESIGN CHOICE (log 47): a store through a register area or at system scope that clamps, and so stores
nothing, begins no region after it (R24). -/
def store (s : State) (x : BitVec 7) (h : BitVec 4) (a : BitVec 7) (field : BitVec 3) (release : Bool) :
    Host.Outcome State Fault Refusal :=
  runLane s fun e => do
    e.exist [a.toNat]
    let r ← e.hReg h.toNat
    let n := hEsize r
    require (elementAligned n x.toNat) (.fault ILLOP 0 0)
    e.exist (span x.toNat (elementRegs n))
    let e ← e.areaDrained r
    let ((i, ip), words) ← both (e.read a.toNat) (e.readMany x.toNat (elementRegs n))
    require (!e.s.readsOutstanding e.key) .hold
    let loc ← e.locate r i.toNat 1
    let data := storeBytes n (words.map fun w => (e.produce w.1, w.2))
    let scope := accessScope field.toNat r
    let req := fun (addr : Nat) =>
      reqWords addr ([n, scope, if release then 1 else 0] ++ data.map fun b => b.1.toNat + if b.2 then 256 else 0)
    match loc with
    | .clamped =>
      require (!ip) .poison
      e.compared (req 0) (fun e => pure (e.retire e.s e.st)) fun s => pure (e.retire s e.st)
    | .glob va =>
      let act := fun (e : Env) => (do
        let pa ← e.translate va 1 kStore
        require (!(ip || data.poisoned)) .poison
        e.storeGlobal va pa data.bytes scope (e.policy r) release : Act State)
      let trail := fun (s : State) => (pure (if scope = 6 then e.retireRegion s e.st else e.retire s e.st) : Act State)
      if release && decide (3 ≤ scope) && e.isContained then
        e.once (req va) (fun e => (act e).map fun s => s.modStrand e.key fun st => e.told st) fun _ s => trail s
      else e.compared (req va) act trail
    | loc =>
      require (!(release && e.s.ownOutstanding e.key)) .hold
      require (!ip) .poison
      e.compared (req loc.counted) (fun e => pure (e.storeLocal loc data))
        fun s => pure (if loc.isArea then { e with s := s }.storeLocal loc data else e.retire s e.st)

def execSt (x : BitVec 7) (h : BitVec 4) (a : BitVec 7) (c : BitVec 3) (s : State) : Host.Outcome State Fault Refusal :=
  store s x h a c false
def execStrel (x : BitVec 7) (h : BitVec 4) (a : BitVec 7) (c : BitVec 3) (s : State) :
    Host.Outcome State Fault Refusal := store s x h a c true

/-! ### Atomics -/

/-- Element sizes that an operation takes (R129). -/
def atomicSize (op size : Nat) : Bool :=
  if op = 1 ∨ op = 2 ∨ op = 3 ∨ op = 11 then size = 4 else size = 4 || size = 8

/-- Registers that an atomic reads, and whether the first is aligned (R129). -/
def atomicRegs (op size : Nat) : Nat := (if op = 10 then 2 else 1) * (size / 4)
def atomicAligned (op size d : Nat) : Bool := d % atomicRegs op size = 0

/-- The dword of one or two registers. -/
def wordsValue (l : List (Word × Bool)) : Dword :=
  .ofNat 64 ((l.map fun w => w.1.toNat).foldr (fun x acc => x + 2 ^ 32 * acc) 0)

/-- The words of an old value. -/
def valueWords (size : Nat) (m : Dword) : List Word :=
  if size = 4 then [m.setWidth 32] else [m.setWidth 32, (m >>> 32).setWidth 32]

/-- An atomic that is performed where it stands, in local space (R130). -/
def Env.atomicNow (e : Env) (s : State) (m : Dword) (op size : Nat) (isFloat ret : Bool) (d : Nat) (x cmp : Dword)
    (write : State → List Byte → State) : State :=
  let n := atomicNew op isFloat size m x cmp
  let s := write s (toBytes size n.toNat)
  let st := if ret then e.put e.st d ((valueWords size m).map fun w => (w, false)) else e.st
  let st := e.offer st 0 (if ret then valueWords size m else []) (if ret then (valueWords size m).map fun _ => false else [])
  e.retireRegion s st

/-- The element's sector is poisoned, and neither a write on its way nor the commit that the atomic would make covers it
(R130, R365). -/
def Env.atomicPoisoned (e : Env) (pa : Nat) : Bool :=
  e.s.poisonedAt pa && !(e.s.flights.any fun f => f.line = lineOf pa)
    && !bufferCovers (e.s.bufferOf e.key) pa

/-- An atomic on an element that is poisoned: the team dies, and nothing is committed (R130, R250). -/
def Env.atomicDies (e : Env) (pa : Nat) : State :=
  e.s.killTeam e.wave.team POISON { laneError e.s e.key 0 with pa := sectorOf pa * 64 }

/-- The operation of an atomic: its number, its element's size and kind, whether it writes the old value, the registers from d, its
operands, its order and its scope. -/
structure AtomicOp where
  op : Nat
  size : Nat
  isFloat : Bool
  ret : Bool
  d : Nat
  x : Dword
  cmp : Dword
  order : Nat
  scope : Nat

/-- Enters an atomic as a request, after the requests of a list; its strand waits for an acquire (R129, R317). -/
def Env.atomicEnter (e : Env) (s : State) (va pa : Nat) (a : AtomicOp) (after : List Nat) (applied inBuffer : Bool) : State :=
  let core := e.homeCore va
  let (id, s) := s.fresh
  let hit := inBuffer && ((s.core core).line (lineOf pa)).isSome
  let s : State := { s with atomics := s.atomics ++
    [{ id := id, strand := e.key, core := core, op := a.op, size := a.size, asid := e.asid, va := va, pa := pa, x := a.x,
       cmp := a.cmp, isFloat := a.isFloat, ret := a.ret, d := a.d, order := a.order, scope := a.scope, after := after,
       applied := applied, granted := hit || s.missGrant e.coreKey pa
       exposes := if 3 ≤ a.scope then e.exposing else none, inBuffer := inBuffer, orphan := false, stamp := none, done := none }] }
  let st := if a.ret then e.st.awaitMany id a.d (a.size / 4) else e.st
  let st := if a.ret then e.offer st id [] [] else e.told st
  let st := st.tick 1
  let st := st.startRegion st.pc
  s.setStrand e.key { st with life := if a.order = 0 ∨ a.order = 2 then .ready else .waiting (.reply id) }

/-- Sends an atomic to its line's ordering point, after the release that its order asks for, and after the writes of the commit
that it makes (R129, R290, R342, R346, R348). -/
def Env.atomicSend (e : Env) (va pa : Nat) (a : AtomicOp) : Act State := do
  let line := lineOf pa
  let wide := decide (3 ≤ a.scope)
  let release := decide (2 ≤ a.order)
  require (!e.s.ownHeld e.key pa a.size e.s.nextId && !e.s.ownedByCopy line) .hold
  require (!(release && wide) || e.s.storesOf e.key = []) .hold
  let s ← if wide && e.isContained then e.commitPoint e.s else .ok e.s
  let s := if release && wide then s.writeBackAll e.cores else s
  let s := e.cores.foldl (fun s c => s.writeBack c line true) s
  let (ids, applied) := if release then s.releaseIds e.cores e.key a.scope e.revision (a.order = 4) else ([], false)
  let same := (s.flights.filter fun f => e.cores.contains f.core && f.line = line).map (·.id)
    ++ (s.atomics.filter fun a => e.cores.contains a.core && a.done.isNone && lineOf a.pa = line).map (·.id)
  let committed := if wide && e.isContained then s.flightsOf e.cores else []
  pure (e.atomicEnter s va pa a (dedup (ids ++ same ++ committed)) applied false)

/-- An atomic at team scope or narrower of a contained team acts on the store buffer (R290, R347), after the strand's own accesses
that its order asks for. -/
def Env.atomicBuffer (e : Env) (va pa : Nat) (a : AtomicOp) : Act State := do
  require (!(decide (2 ≤ a.order) && e.s.ownOutstanding e.key)) .hold
  pure (e.atomicEnter e.s va pa a [] false true)

/-- ATOM (R129, R130). -/
def atom (s : State) (op : Nat) (rbit : BitVec 1) (d : BitVec 7) (h : BitVec 4) (a : BitVec 7) (field : BitVec 3) :
    Host.Outcome State Fault Refusal :=
  runLane s fun e => do
    e.exist [a.toNat]
    let r ← e.hReg h.toNat
    let n := hEsize r
    let ret := rbit == 1
    require (hKind r = kGlobal || hKind r = kLocal) (.fault ILLOP 0 0)
    require (atomicSize op n && atomicAligned op n d.toNat) (.fault ILLOP 0 0)
    e.exist (span d.toNat (atomicRegs op n))
    let ((i, ip), words) ← both (e.read a.toNat) (e.readMany d.toNat (atomicRegs op n))
    require (!e.s.readsOutstanding e.key) .hold
    let loc ← e.locate r i.toNat 2
    let poison := ip || words.any (·.2)
    let x := wordsValue (if op = 10 then words.drop (n / 4) else words)
    let cmp := wordsValue (words.take (n / 4))
    let isFloat := hNumT r = 1
    let scope := accessScope field.toNat r
    let order := e.order
    let req := fun (addr : Nat) => reqWords addr ([op, n, order, scope, if ret then 1 else 0] ++ words.map (·.1.toNat))
    let trail := fun (ws : List (Word × Bool)) (s : State) =>
      (pure (e.retireRegion s (e.put e.st d.toNat ws)) : Act State)
    match loc with
    | .clamped =>
      require (!poison) .poison
      e.once (req 0) (fun e =>
        let z := if ret then (List.replicate (n / 4) ((0 : Word), false)) else []
        pure (e.retireRegion e.s (e.offer (e.put e.st d.toNat z) 0 (z.map (·.1)) (z.map (·.2))))) trail
    | .glob va =>
      e.once (req va) (fun e => do
        let pa ← e.translate va 2 kAtomic
        require (!poison) .poison
        let a : AtomicOp := { op := op, size := n, isFloat := isFloat, ret := ret, d := d.toNat, x := x, cmp := cmp,
                              order := order, scope := scope }
        if e.isContained && decide (scope ≤ 2) then e.atomicBuffer va pa a
        else if e.isContained && e.atomicPoisoned pa then pure (e.atomicDies pa)
        else e.atomicSend va pa a) trail
    | loc =>
      require (!poison) .poison
      require (!(decide (2 ≤ order) && e.s.ownOutstanding e.key)) .hold
      e.once (req loc.counted) (fun e =>
        let l := e.s.localRead e.wave.team false loc n
        if l.poisoned then .error .poison
        else pure (e.atomicNow (e.s.noteAccess e.lane 0 n loc.counted true) (.ofNat 64 (fromBytes l.bytes)) op n isFloat ret
          d.toNat x cmp fun s w => s.localWrite e.wave.team false e.key loc (clean w))) trail

def execAadd (r : BitVec 1) (d : BitVec 7) (h : BitVec 4) (a : BitVec 7) (y : BitVec 3) (s : State) :
    Host.Outcome State Fault Refusal := atom s 0 r d h a y
def execAfadd (r : BitVec 1) (d : BitVec 7) (h : BitVec 4) (a : BitVec 7) (y : BitVec 3) (s : State) :
    Host.Outcome State Fault Refusal := atom s 1 r d h a y
def execAmin (r : BitVec 1) (d : BitVec 7) (h : BitVec 4) (a : BitVec 7) (y : BitVec 3) (s : State) :
    Host.Outcome State Fault Refusal := atom s 2 r d h a y
def execAmax (r : BitVec 1) (d : BitVec 7) (h : BitVec 4) (a : BitVec 7) (y : BitVec 3) (s : State) :
    Host.Outcome State Fault Refusal := atom s 3 r d h a y
def execAminb (r : BitVec 1) (d : BitVec 7) (h : BitVec 4) (a : BitVec 7) (y : BitVec 3) (s : State) :
    Host.Outcome State Fault Refusal := atom s 4 r d h a y
def execAmaxb (r : BitVec 1) (d : BitVec 7) (h : BitVec 4) (a : BitVec 7) (y : BitVec 3) (s : State) :
    Host.Outcome State Fault Refusal := atom s 5 r d h a y
def execAand (r : BitVec 1) (d : BitVec 7) (h : BitVec 4) (a : BitVec 7) (y : BitVec 3) (s : State) :
    Host.Outcome State Fault Refusal := atom s 6 r d h a y
def execAor (r : BitVec 1) (d : BitVec 7) (h : BitVec 4) (a : BitVec 7) (y : BitVec 3) (s : State) :
    Host.Outcome State Fault Refusal := atom s 7 r d h a y
def execAxor (r : BitVec 1) (d : BitVec 7) (h : BitVec 4) (a : BitVec 7) (y : BitVec 3) (s : State) :
    Host.Outcome State Fault Refusal := atom s 8 r d h a y
def execAxch (r : BitVec 1) (d : BitVec 7) (h : BitVec 4) (a : BitVec 7) (y : BitVec 3) (s : State) :
    Host.Outcome State Fault Refusal := atom s 9 r d h a y
def execAcas (r : BitVec 1) (d : BitVec 7) (h : BitVec 4) (a : BitVec 7) (y : BitVec 3) (s : State) :
    Host.Outcome State Fault Refusal := atom s 10 r d h a y
def execAinc (r : BitVec 1) (d : BitVec 7) (h : BitVec 4) (a : BitVec 7) (y : BitVec 3) (s : State) :
    Host.Outcome State Fault Refusal := atom s 11 r d h a y

/-! ### Fences (R133, R343, R348) -/

/-- The end of a FENCE: a release above team scope exposes a contained team (R291), and the acquire half of a wide one leaves no
clean byte behind (R348). -/
def Env.fenceEnd (e : Env) (s : State) (kind scope : Nat) (told : Bool) : State :=
  let s := if told then s.expose e.wave.team else s
  let s := if kind ≠ 1 ∧ 3 ≤ scope then s.dropClean e.cores else s
  e.retire s (if told then e.told e.st else e.st)

/-- A FENCE of kind 0 acq, 1 rel, 2 ar, 3 sc. It waits at its own word until what it orders is performed; the second
time it stands there the wait has ended. -/
def fence (s : State) (kind : Nat) (scope : BitVec 3) : Host.Outcome State Fault Refusal :=
  runLane s fun e => do
    let n := scope.toNat
    let above := kind ≠ 0 && decide (3 ≤ n) && e.isContained
    let wait := match e.s.strands.find e.key with
      | some st => (match st.life with | .waiting (.acks ids ap) => some (ids, ap) | _ => none)
      | none => none
    match wait with
    | some (ids, applied) =>
      require (!e.s.awaits ids applied) .hold
      pure (e.fenceEnd e.s kind n above)
    | none =>
      require (!e.s.readsOutstanding e.key) .hold
      let start : Env → Act State := fun e => do
        if kind = 0 then pure (e.fenceEnd e.s kind n above)
        else
          let s ← if 3 ≤ n then e.commitPoint e.s else .ok e.s
          let s := if 3 ≤ n then s.writeBackAll e.cores else s
          let (ids, applied) := s.releaseIds e.cores e.key n e.revision (kind = 3)
          match s.stillOut ids applied with
          | [] => pure (e.fenceEnd s kind n above)
          | out => pure (s.setStrand e.key { e.st with pc := e.bundle, life := .waiting (.acks out applied) })
      if above then
        e.once [.ofNat 32 kind, .ofNat 32 n] start fun _ s => pure (e.retire s e.st)
      else start e

def execFenceAcq (y : BitVec 3) (s : State) : Host.Outcome State Fault Refusal := fence s 0 y
def execFenceRel (y : BitVec 3) (s : State) : Host.Outcome State Fault Refusal := fence s 1 y
def execFenceAr (y : BitVec 3) (s : State) : Host.Outcome State Fault Refusal := fence s 2 y
def execFenceSc (y : BitVec 3) (s : State) : Host.Outcome State Fault Refusal := fence s 3 y

/-! ### Cache operations (R134, R372) -/

/-- The cores whose L1 areas lie below the level that a scope's agents share. -/
def scopeCores (core scope : Nat) : List Nat :=
  match scope with
  | 0 | 1 | 2 => []
  | 3 => (List.range 8).map (coreCluster core * 8 + ·)
  | 4 => (List.range 128).map (coreDie core * 128 + ·)
  | _ => List.range 512

/-- CWB and CINV: write a line's dirty bytes back below the scope's level, CINV dropping the copies too; through a local handle
they have no effect. The strand's own earlier stores to the line come first (R126). DESIGN CHOICE (log 48): through a local handle
a poisoned index is not consumed (R13), as nothing is addressed by it. -/
def cacheOp (s : State) (h : BitVec 4) (a : BitVec 7) (scope : BitVec 3) (drop : Bool) : Host.Outcome State Fault Refusal :=
  runLane s fun e => do
    e.exist [a.toNat]
    let r ← e.hReg h.toNat
    require (hKind r ≠ kArea) (.fault ILLOP 0 0)
    let (i, ip) ← e.read a.toNat
    if hKind r = kLocal then pure (e.retire e.s e.st)
    else
      let loc ← e.locate r i.toNat 0
      match loc with
      | .glob va =>
        let pa ← e.translate va 0 kLoad
        require (!ip) .poison
        let line := lineOf pa
        require (!e.s.ownHeld e.key (line * 256) 256 e.s.nextId) .hold
        let cores := (scopeCores e.coreKey scope.toNat).filter fun c => ((e.s.core c).line line).isSome
        let s := cores.foldl (fun s c => s.writeBack c line drop) e.s
        pure (e.retire (if drop && decide (5 ≤ scope.toNat) then s.dropReplicas line else s) e.st)
      | _ =>
        require (!ip) .poison
        pure (e.retire e.s e.st)

def execCwb (h : BitVec 4) (a : BitVec 7) (y : BitVec 3) (s : State) : Host.Outcome State Fault Refusal :=
  cacheOp s h a y false
def execCinv (h : BitVec 4) (a : BitVec 7) (y : BitVec 3) (s : State) : Host.Outcome State Fault Refusal :=
  cacheOp s h a y true

/-- The line that PREF asks for: requested now, or behind a walk of its own, as PREF returns at once (R134). -/
def Env.prefetch (e : Env) (r : HRec) (i level : Nat) : State :=
  match e.locate r i 0 with
  | .ok (.glob va) =>
    (match e.translate va 0 kLoad with
    | .ok pa => e.s.prefetchLine e.key e.issueNo e.asid level (e.policy r) va pa
    | .error (.walk va) =>
      (e.s.askWalk (.prefetch e.key e.issueNo level (e.policy r)) e.coreKey e.asid va).getD e.s
    | .error _ => e.s)
  | _ => e.s

/-- PREF requests a line and returns at once; of the faults it raises ILLOP alone, and a lane that would take another is dropped
silently (R134). DESIGN CHOICE (log 48): so is one whose index is poisoned, which is not consumed. -/
def execPref (h : BitVec 4) (a : BitVec 7) (y : BitVec 3) (s : State) : Host.Outcome State Fault Refusal :=
  runLane s fun e => do
    e.exist [a.toNat]
    let r ← e.hReg h.toNat
    require (hKind r ≠ kArea) (.fault ILLOP 0 0)
    match e.read a.toNat with
    | .ok (i, false) => pure (e.retire (e.prefetch r i.toNat y.toNat) e.st)
    | .ok (_, true) => pure (e.retire e.s e.st)
    | .error (.fault ..) => pure (e.retire e.s e.st)
    | .error x => .error x

/-! ### WAITLINE (R135) -/

/-- The words of an element that WAITLINE writes, each with its poison. -/
def waitWords (size : Nat) (l : Marked) : List (Word × Bool) :=
  markedWords l (valueWords size (.ofNat 64 (fromBytes l.bytes)))

/-- WAITLINE arms its watch before it reads. In local space the read is made here; in global memory WAITLINE_WAKE makes
it, the watch counting as written. Until it ends the strand stands at the WAITLINE. -/
def execWaitline (d : BitVec 7) (h : BitVec 4) (a : BitVec 7) (y : BitVec 3) (s : State) :
    Host.Outcome State Fault Refusal :=
  runLane s fun e => do
    e.room
    e.exist [a.toNat]
    let r ← e.hReg h.toNat
    let n := hEsize r
    require (hKind r = kGlobal || hKind r = kLocal) (.fault ILLOP 0 0)
    require (n = 4 || (n = 8 && d.toNat % 2 = 0)) (.fault ILLOP 0 0)
    e.exist (span d.toNat (n / 4))
    if e.trailing then e.follow e.st d.toNat
    else e.shared do
      let ((i, ip), words) ← both (e.read a.toNat) (e.readMany d.toNat (n / 4))
      require ((e.s.loadsOf e.key).isEmpty) .hold
      let loc ← e.locate r i.toNat 2
      let poison := ip || words.any (·.2)
      let x := wordsValue words
      let scope := accessScope y.toNat r
      let watch := fun (id : Nat) (isLocal written : Bool) (va line : Nat) (off : Nat) =>
        ({ id := id, strand := e.key, isLocal := isLocal, team := e.wave.team, line := line, issue := e.issueNo, va := va, offset := off,
           size := n, expected := x, d := d.toNat, scope := scope, pol := e.policy r, written := written,
           next := e.here + 4 } : Watch)
      match loc with
      | .clamped =>
        require (!poison) .poison
        pure (e.give e.s e.st d.toNat (waitWords n (clean (List.replicate n 0))))
      | .glob va =>
        let pa ← e.translate va 2 kAtomic
        require (!poison) .poison
        let (id, s) := e.s.fresh
        let s := { s with watches := s.watches ++ [watch id false true va (memKey pa / 256) 0] }
        pure (s.setStrand e.key { e.st with pc := e.bundle, life := .waiting (.reply id) })
      | loc =>
        require (!poison) .poison
        let l := e.s.localRead e.wave.team false loc n
        if fromBytes l.bytes ≠ x.toNat ∨ l.poisoned then pure (e.give e.s e.st d.toNat (waitWords n l))
        else
          let (id, s) := e.s.fresh
          let s := { s with watches := s.watches ++ [watch id true false 0 (loc.counted / 256) loc.counted] }
          pure (s.setStrand e.key { e.st with pc := e.bundle, life := .blocked (.line id) })

end Sys2Proof.Machine
end

