-- ==== Sys2Proof/Machine/Group.lean ====
section
/-!
DEFINITION. Meets (R179 to R187) and the group instructions: GRP (R188 to R191), XLANE (R192), CDET (R193, R194) and HND
(R131). A meet completes at the moment its last participant presents or exits; a table read or an ordering that is not
there yet leaves it closed, and MEET_COMPLETE finishes it.
-/

namespace Sys2Proof.Machine

/-! ### Reductions and scans (R50 to R53, R191) -/

/-- One level of the pairwise tree (R51). -/
def treeLevel (o : Op) : List (Option Word) → List (Option Word) × Flags
  | x :: y :: l =>
    let (r, f) := treeLevel o l
    match x, y with
    | none, y => (y :: r, f)
    | some x, none => (some x :: r, f)
    | some x, some y => let (z, g) := o.apply x y; (some z :: r, f ||| g)
  | l => (l, 0)

/-- The tree over 2^n logical positions (R51). -/
def treeReduce (o : Op) : Nat → List (Option Word) → Flags → Option Word × Flags
  | 0, l, f => (l.head?.join, f)
  | n + 1, l, f => let (l, g) := treeLevel o l; treeReduce o n l (f ||| g)

/-- The sequential fold of R52 over (lane, value) pairs in ascending order: the value and the flags of each lane. -/
def scanFold (o : Op) : Option (Word × Flags) → List (Nat × Word) → List (Nat × Word × Flags)
  | _, [] => []
  | none, (l, x) :: rest => (l, x, 0) :: scanFold o (some (x, 0)) rest
  | some (a, f), (l, x) :: rest =>
    let (z, g) := o.apply a x
    (l, z, f ||| g) :: scanFold o (some (z, f ||| g)) rest

/-! ### What a completed meet gives -/

/-- The registers, the predicate, the flags and the E flag that one presenter receives. -/
structure Given where
  v : List (Nat × Word × Bool) := []
  p : Option (Nat × Bool) := none
  flags : Flags := 0
  empty : Bool := false

def Presenter.word (p : Presenter) (n : Nat) : Word := (p.words.getD n (0, false)).1
def Presenter.poisoned (p : Presenter) (n : Nat) : Bool := (p.words.getD n (0, false)).2

/-- The handle record of eight words (R131). -/
def wordsRecord (l : List Word) : HRec := .ofNat 256 ((l.map (·.toNat)).foldr (fun x acc => x + 2 ^ 32 * acc) 0)
def recordWords (h : HRec) : List Word := (List.range 8).map fun j => .ofNat 32 (h.toNat / 2 ^ (32 * j))

/-- GRED and GSCAN for one presenter (R187, R191). -/
def groupFold (w : Wave) (m : Meet) (ps : List Presenter) (p : Presenter) : Given :=
  let o := Op.ofGroup m.op
  let value := fun (l : Nat) => (ps.find? (·.lane = l)).map fun (q : Presenter) => q.word 0
  if m.minor = 7 then
    let (r, f) := treeReduce o (Nat.log2 w.width) ((List.range w.width).map value) 0
    { v := [(p.d, r.getD o.identity, false)], flags := f, empty := r.isNone }
  else
    match (scanFold o none (ps.map fun q => (q.lane, q.word 0))).find? (·.1 = p.lane) with
    | some (_, x, f) => { v := [(p.d, x, false)], flags := f }
    | none => { v := [(p.d, o.identity, false)], empty := true }

/-- SHFL for one presenter (R192). -/
def shuffle (w : Wave) (m : Meet) (ps : List Presenter) (p : Presenter) : Given :=
  let own := [(p.d, p.word 0, p.poisoned 0)]
  let source := fun (l : Nat) =>
    match ps.find? (·.lane = l) with
    | some q => [(p.d, q.word 0, q.poisoned 0)]
    | none => [(p.d, 0, false)]
  match m.minor with
  | 0 => { v := source ((p.word 1).toNat % w.width) }
  | 1 => { v := if p.lane < p.arg then own else source (p.lane - p.arg) }
  | 2 => { v := if w.width ≤ p.lane + p.arg then own else source (p.lane + p.arg) }
  | _ => { v := source ((p.lane ^^^ p.arg) % w.width) }

/-- CDET and GCOMB for one presenter (R193, R194). -/
def combine (m : Meet) (ps : List Presenter) (p : Presenter) : Given :=
  let group := ps.filter fun q => q.word 0 = p.word 0
  match group with
  | [] => {}
  | lead :: rest =>
    if m.minor = 0 then { v := [(p.d, .ofNat 32 lead.lane, false)] }
    else if lead.lane = p.lane then
      let o : Op := if m.minor = 1 then .addF else .add
      let (x, f) := rest.foldl (fun (acc : Word × Flags) q =>
        let (z, g) := o.apply acc.1 (q.word 1); (z, acc.2 ||| g)) (p.word 1, 0)
      { v := [(p.d, x, false)], flags := f }
    else {}

/-- What the presenters in ascending order receive (R131, R189 to R194). -/
def meetGives (w : Wave) (m : Meet) (ps : List Presenter) (p : Presenter) : Given :=
  if m.cls = 0x1B then shuffle w m ps p
  else if m.cls = 0x1C then combine m ps p
  else if m.cls = 0x17 then
    if m.minor = 2 then { v := (List.range 8).map fun j => (p.d + j, p.word j, false) } else {}
  else match m.minor with
    | 1 => { p := some (p.d, ps.any (·.pred)) }
    | 2 => { p := some (p.d, ps.all (·.pred)) }
    | 5 => { p := some (p.d, (ps.head?.map (·.lane)) == some p.lane) }
    | 7 | 8 => groupFold w m ps p
    | _ => {}

/-- The mask of GVOTE.ballot (R189). -/
def ballot (ps : List Presenter) : Dword := .ofNat 64 ((ps.map fun p => if p.pred then 2 ^ p.lane else 0).sum)

/-- The wave with the register that the meet writes: GVOTE.ballot, GBCAST, and the handle of HLD, HSET and HCPY. An
operation that returned an identity sets E in GSTAT (R186, R187). -/
def meetWave (w : Wave) (m : Meet) (ps : List Presenter) (lead : Presenter) (record : HRec) : Wave :=
  let w := { w with meets := w.meets.filter (·.id ≠ m.id) }
  let w := if ps.any fun p => (meetGives w m ps p).empty then { w with gstat := w.gstat ||| 1 } else w
  if m.cls = 0x1A ∧ m.minor = 3 then { w with k := w.k.set m.dst (ballot ps) }
  else if m.cls = 0x1A ∧ m.minor = 4 then { w with w := w.w.set m.dst (lead.word 0) }
  else if m.cls = 0x17 ∧ m.minor ≠ 2 then { w with h := w.h.set m.dst record }
  else w

/-- A presenter leaves Blocked with its results; a region begins after the group instruction (R24, R184). `inject` tells
that its lane's results are inverted in bit 0 (R272). -/
def Strand.meetDone (st : Strand) (p : Presenter) (g : Given) (inject : Bool) : Strand :=
  let st := { st with life := .ready, wait := 0, pc := p.next }
  let st := g.v.foldl (fun (st : Strand) x =>
    st.push { dst := .v x.1, val := if inject then x.2.1 ^^^ 1 else x.2.1, poison := x.2.2, lat := 0, age := 0,
              transient := false, tag := none }) st
  let st := match g.p with
    | some (n, b) => if n = 0 then st else
        st.push { dst := .p n, val := if b != inject then 1 else 0, poison := false, lat := 0, age := 0, transient := false, tag := none }
    | none => st
  let st := st.raise (g.flags &&& ~~~p.quiet)
  let st := if g.empty then st.raiseE else st
  let st := st.tick 1
  st.startRegion st.pc

/-- Presenters in ascending lane order. -/
def insertPresenter (p : Presenter) : List Presenter → List Presenter
  | [] => [p]
  | q :: l => if p.lane < q.lane then p :: q :: l else q :: insertPresenter p l

/-- Completion: results, destinations, and the presenters leave Blocked (R180). -/
def State.grantMeet (s : State) (wk : Nat) (w : Wave) (m : Meet) (record : HRec) : State :=
  match m.presenters with
  | [] => s.setWave wk { w with meets := w.meets.filter (·.id ≠ m.id) }
  | lead :: _ =>
    let c := s.core (bankCore (waveBank wk))
    let s := s.setWave wk (meetWave w m m.presenters lead record)
    m.presenters.foldl (fun s p =>
      s.modStrand (strandNo wk p.lane) fun st =>
        st.meetDone p (meetGives w m m.presenters p) (c.injects w p.lane (c.issueCount - 1))) s

/-! ### Faults of a whole operation (R131) -/

/-- Every presenter takes the fault; the meet is gone and re-execution repeats it. -/
def State.meetFault (s : State) (wk : Nat) (w : Wave) (m : Meet) (x : Stop) : State :=
  let s := s.setWave wk { w with meets := w.meets.filter (·.id ≠ m.id) }
  m.presenters.foldl (fun s p =>
    let k := strandNo wk p.lane
    let s := s.modStrand k fun st => { st with life := .ready, wait := 0 }
    match x with
    | .fault code arg va =>
      s.trap k w.grid code arg (if code = ILLOP then (p.next - 4).setWidth 64 else va) p.next
    | .park code va kind reason stage level ipa vmid => s.park k w.grid code va kind reason stage level ipa vmid
    | _ => s) s

/-- What the leading wave's HLD obtained, as the trailing wave takes it (R267): the record's eight words, or the fault. -/
def stopWords : Stop → List Word
  | .fault code _ _ => [.ofNat 32 code]
  | .park code va kind reason stage level ipa vmid =>
    [.ofNat 32 code, .ofNat 32 va, .ofNat 32 (va / 2 ^ 32), .ofNat 32 kind, .ofNat 32 reason, .ofNat 32 stage,
     .ofNat 32 level, .ofNat 32 ipa, .ofNat 32 (ipa / 2 ^ 32), .ofNat 32 vmid]
  | _ => []

def wordsStop (l : List Word) : Stop :=
  let n := fun (i : Nat) => (l.getD i 0).toNat
  if l.length = 1 then .fault (n 0) 0 0
  else .park (n 0) (n 1 + 2 ^ 32 * n 2) (n 3) (n 4) (n 5) (n 6) (n 7 + 2 ^ 32 * n 8) (n 9)

/-- The next value that the leading strand of a lane holds for the trailing one: its words, with the state that has
given it; none while it is not there. -/
def State.leadValue (s : State) (wk : Nat) (w : Wave) (p : Presenter) : Option (Option (List Word) × State) :=
  let k := strandNo wk p.lane
  let lk := strandNo (w.partner.getD 0) p.lane
  match s.strands.find lk, s.strands.find k with
  | some lead, some st =>
    match lead.values with
    | v :: rest =>
      if v.pc ≠ st.pc then some (none, s.mismatchAt [k])
      else if v.seq ≠ 0 then none
      else some (some v.words, s.setStrand lk { lead with values := rest })
    | [] => none
  | _, _ => none

/-- Enters a value of a leading wave's presenter for the trailing wave. -/
def State.offerAt (s : State) (wk : Nat) (w : Wave) (p : Presenter) (words : List Word) : State :=
  if w.partner.isSome && !w.trailing then
    s.modStrand (strandNo wk p.lane) fun st =>
      let n := match s.issue with | some i => i.number | none => (s.core (bankCore (waveBank wk))).issueCount
      { st with values := st.values ++
          [{ pc := st.pc, issue := n, seq := 0, fault := none, words := words, poison := words.map fun _ => false }] }
  else s

/-- The address and the length of a grid's handle table (R131). -/
def State.handleTable (s : State) (g : Nat) : Nat × Nat :=
  match s.grids.find g with
  | some x => (x.launch.htab.toNat, x.launch.htabLen)
  | none => (0, 0)

/-- The parts of a record of 32 bytes, of one sector each. -/
def recordParts (va : Nat) : List (Nat × Nat) :=
  let n := min 32 (64 - va % 64)
  if n = 32 then [(va, 32)] else [(va, n), ((va + n) % 2 ^ 57, 32 - n)]

/-- The physical addresses of some reads that a unit makes for a strand. -/
def State.translateAll (s : State) (k kind : Nat) : List (Nat × Nat) → Act (List (Nat × Nat × Nat))
  | [] => .ok []
  | (va, n) :: l => do
    let pa ← s.translateNow (strandCore k) (s.asidOf k) (s.levelOf k) va 0 kind
    let rest ← s.translateAll k kind l
    pure ((va, pa, n) :: rest)

/-- Requests the parts of a record for a strand as relaxed loads at wave scope (R131, R184, R282, R317). -/
def State.requestParts (s : State) (k : Nat) (use : Nat → LoadUse) (l : List (Nat × Nat × Nat × Nat)) : State :=
  l.foldl (fun s p =>
    let (j, va, pa, n) := p
    (s.request { id := 0, strand := k, use := use j, core := l1Core (strandCore k) (s.fusedOf (s.gridOf k)) va,
                 asid := s.asidOf k, va := va, pa := pa, size := n, signed := false, d := 0, acquire := 0, pol := 0,
                 granted := false, clock := [] }).2) s

/-- HLD at completion (R131): the leader's read of the handle table. The faults of the operation come before the consumption
of poison in the record (R250). -/
def State.hldMeet (s : State) (wk : Nat) (w : Wave) (m : Meet) : Option State :=
  match m.presenters with
  | [] => none
  | lead :: _ =>
    let k := strandNo wk lead.lane
    let dies := fun (s : State) => s.killTeam w.team POISON (laneError s k 0)
    if w.trailing then
      match s.leadValue wk w lead with
      | none => none
      | some (none, s) => some s
      | some (some ws, s) =>
        if ws.length = 8 then some (s.grantMeet wk w m (wordsRecord ws)) else some (s.meetFault wk w m (wordsStop ws))
    else
      let i := (lead.word 0).toNat
      let (table, len) := s.handleTable w.grid
      let va := table + 32 * i
      let fault := fun (s : State) (x : Stop) => some ((s.offerAt wk w lead (stopWords x)).meetFault wk w m x)
      let parts := recordParts (va % 2 ^ 57)
      if len ≤ i then fault s (.fault OOR 0 0)
      else if m.parts.length < parts.length then
        if m.asked then none
        else match s.translateAll k kTable parts with
        | .error (.walk va) => s.askWalk (.table wk) (strandCore k) (s.gridAsid w.grid) va
        | .error .walkErr => some (s.walkError (s.gridAsid w.grid) (laneError s k 0))
        | .error x => fault s x
        | .ok l =>
          let s := s.setWave wk { w with meets := w.meets.map fun (y : Meet) => if y.id = m.id then { m with asked := true } else y }
          some (s.requestParts k (.table m.id) (l.zipIdx.map fun p => (p.2, p.1)))
      else
          let h : HRec := .ofNat 256 (fromBytes (m.parts.flatMap fun p => p.2.1))
          if !hValid h then fault s (.fault ILLOP 0 0)
          else if m.parts.any (·.2.2) || lead.poisoned 0 then some (dies s)
          else some ((s.offerAt wk w lead (recordWords h)).grantMeet wk w m h)

/-! ### FENCEW (R190, R344) -/

/-- The end of a FENCEW: the acquire half of a wide one leaves no clean byte behind (R348); a release above team scope exposes a
contained team (R291); a leading wave tells the
trailing one that its commit is performed (R268). -/
def State.fencewEnd (s : State) (wk : Nat) (w : Wave) (m : Meet) (cores : List Nat) (above : Bool) : State :=
  let s := if m.order ≠ 2 ∧ 3 ≤ m.scope then s.dropClean cores else s
  let s := if above then s.expose w.team else s
  let s := if above then m.presenters.foldl (fun s p => s.offerAt wk w p []) s else s
  s.grantMeet wk w m 0

/-- The trailing wave's FENCEW above team scope takes the leading wave's word for each lane. -/
def State.fencewFollow (s : State) (wk : Nat) (w : Wave) : List Presenter → Option (Bool × State)
  | [] => some (true, s)
  | p :: l =>
    match s.leadValue wk w p with
    | none => none
    | some (none, s) => some (false, s)
    | some (some _, s) => s.fencewFollow wk w l

/-- FENCEW once every participant has presented: it starts the release of every presenter's accesses, and ends when
they are performed. -/
def State.fencewMeet (s : State) (wk : Nat) (w : Wave) (m : Meet) : Option State :=
  let core := bankCore (waveBank wk)
  let cores := l1Cores core (s.fusedOf w.grid)
  let ks := m.presenters.map fun p => strandNo wk p.lane
  let wide := decide (3 ≤ m.scope)
  let above := m.order ≠ 1 && wide && s.contained w.team
  match m.acks with
  | some (ids, applied) => if s.awaits ids applied then none else some (s.fencewEnd wk w m cores above)
  | none =>
    if ks.any s.readsOutstanding || (m.order ≠ 1 && wide && ks.any fun k => s.storesOf k ≠ []) then none
    else if above && w.trailing then
      match s.fencewFollow wk w m.presenters with
      | none => none
      | some (false, s) => some s
      | some (true, s) => some (s.fencewEnd wk w m cores false)
    else
      let met := match w.partner with
        | none => true
        | some q => !above || (s.allCompared w.team && match s.waves.find q with
          | some x => x.meets.any fun y => y.closed && y.cls = m.cls && y.tag = m.tag && y.minor = m.minor
          | none => false)
      if !met then none
      else if m.order = 1 then some (s.fencewEnd wk w m cores above)
      else
        let s := if above then s.commit w.team else s
        let s := if wide then s.writeBackAll cores else s
        let revision := (s.bank (waveBank wk)).mmrMode.toNat
        let asks := ks.map fun k => s.releaseIds cores k m.scope revision (m.order = 4)
        let applied := asks.any (·.2)
        match s.stillOut (dedup (asks.flatMap (·.1))) applied with
        | [] => some (s.fencewEnd wk w m cores above)
        | out => some (s.modWave wk fun x => { x with meets := x.meets.map fun (y : Meet) =>
            if y.id = m.id then { y with acks := some (out, applied) } else y })

/-! ### Completion -/

/-- What a meet does once every participant has presented; none while it must wait. -/
def State.finishMeet (s : State) (wk : Nat) (w : Wave) (m : Meet) : Option State :=
  if m.cls = 0x1A ∧ m.minor = 6 then s.fencewMeet wk w m
  else if m.cls = 0x17 ∧ m.minor = 0 then s.hldMeet wk w m
  else
    match m.presenters with
    | [] => none
    | lead :: _ =>
      let leads := (m.cls = 0x17 && m.minor = 1) || (m.cls = 0x1A && m.minor = 4)
      let record := wordsRecord (lead.words.map (·.1))
      if m.cls = 0x17 ∧ m.minor = 1 ∧ hValid record = false then some (s.meetFault wk w m (.fault ILLOP 0 0))
      else if leads && lead.words.any (·.2) then
        some (s.killTeam w.team POISON (laneError s (strandNo wk lead.lane) 0))
      else some (s.grantMeet wk w m record)

/-- The participants that have not exited (R181). -/
def State.meetLive (s : State) (wk : Nat) (m : Meet) : List Nat :=
  m.members.filter fun l => match s.strands.find (strandNo wk l) with
    | some st => decide (st.life ≠ .exited)
    | none => false

/-- Completes a meet when every remaining participant has presented (R180, R181). -/
def State.tryMeet (s : State) (wk id : Nat) : State :=
  match s.waves.find wk with
  | none => s
  | some w =>
    match w.meets.find? (·.id = id) with
    | none => s
    | some m =>
      if (s.meetLive wk m).all fun l => m.presenters.any (·.lane = l) then
        let m := { m with closed := true }
        let w := { w with meets := w.meets.map fun (y : Meet) => if y.id = id then m else y }
        let s := s.setWave wk w
        (s.finishMeet wk w m).getD s
      else s

/-- Tries every meet of a wave, as after an exit (R181). DESIGN CHOICE (log 47): of several meets that one exit completes, the
one that was opened later completes later, so that it leaves its value in a w or k register that both write (R184). -/
def State.tryMeets (s : State) (wk : Nat) : State :=
  match s.waves.find wk with
  | none => s
  | some w => ((w.meets.map (·.id)).foldl insertNat []).foldl (fun s id => s.tryMeet wk id) s

/-- MEET_COMPLETE: the first meet of a class and tag that can complete does so. -/
def firstMeet (s : State) (wk : Nat) : List Meet → Option State
  | [] => none
  | m :: l =>
    let t := s.tryMeet wk m.id
    if t = s then firstMeet s wk l else some t

def execMeetComplete (wave : Nat) (key : List Byte) (s : State) : Host.Outcome State Fault Refusal :=
  eventStep s fun s =>
    match s.waves.find wave, key with
    | some w, [cls, tag] => (firstMeet s wave (w.meets.filter fun m => m.cls = cls.toNat && m.tag = tag.toNat)).map
        (·.rouse (bankCore (waveBank wave)))
    | _, _ => none

/-! ### Presenting (R179 to R182) -/

/-- What a group instruction asks for: its key, its settings (R179), the registers it names (R11), and what is its own. -/
structure Ask where
  cls : Nat
  tag : Nat
  minor : Nat
  op : Nat := 0
  order : Nat := 0
  scope : Nat := 0
  dst : Nat := 0
  src : Nat := 0
  e : BitVec 1 := 0
  k : BitVec 3 := 0
  regs : List Nat := []
  d : Nat := 0
  arg : Nat := 0
  /-- The leader consumes its words (R131, R189). -/
  leads : Bool := false

/-- The wave without the open meet of a key: a participant does not interlock on the meet that it is to join. -/
def Wave.without (w : Wave) (cls tag : Nat) : Wave :=
  { w with meets := w.meets.filter fun m => !(m.cls = cls && m.tag = tag && m.own.isNone && !m.closed) }

/-- The lanes of a wave that are live (R26). -/
def Env.liveLanes (e : Env) : List Nat :=
  (List.range e.wave.width).filter fun l => match e.s.strands.find (strandNo e.waveKey l) with
    | some st => decide (st.life ≠ .exited)
    | none => false

/-- Whether a lane's settings are those of an open meet (R179). -/
def Meet.agrees (m : Meet) (a : Ask) (kv : Dword) : Bool :=
  m.minor = a.minor && m.op = a.op && m.order = a.order && m.scope = a.scope && m.kEnable == (a.e == 1) && m.kValue == kv
    && m.dst = a.dst && m.src = a.src

/-- GRPOUT or GRPMIX: recorded in GSTAT, then taken by the lane (R182, R186). -/
def Env.groupFault (e : Env) (a : Ask) (code : Nat) : State :=
  let bit : Nat := if code = GRPOUT then 4 else 2
  let s := e.s.modWave e.waveKey fun w =>
    { w with gstat := (w.gstat &&& 0x7) ||| .ofNat 32 (a.tag * 4096 + a.cls * 64 + bit) }
  s.stop e (.fault code 0 0)

/-- A group instruction at a lane. `reads` gives the words and the predicate that it brings, whose STALE comes before GRPOUT and
GRPMIX (R250); `eats` tells whether they are consumption at any lane (R13). What the leader alone consumes is consumed when the
lowest participant presents (R131, R182, R189), or at completion where exits have left another leader. A read of a wave register
that the open meet of the key writes interlocks for every lane but its participants (R184). -/
def present (s : State) (a : Ask) (reads : Env → Act (List (Word × Bool) × Bool)) (eats : List (Word × Bool) → Bool) :
    Host.Outcome State Fault Refusal :=
  runLane s fun e => do
    if (a.cls = 0x17 && a.minor = 0) || (a.cls = 0x1A && a.minor = 6) then e.room
    e.exist a.regs
    let own := e.st.handler.isSome
    let open_ := if own then none else e.wave.meets.find? fun m =>
      m.cls = a.cls && m.tag = a.tag && m.own.isNone && !m.closed
    let here := if open_.any fun m => m.members.contains e.lane then { e with wave := e.wave.without a.cls a.tag } else e
    let kv ← if a.e = 1 then here.kReg a.k.toNat else .ok 0
    let (words, pr) ← reads here
    let mine := if own then [e.lane]
      else e.liveLanes.filter fun l => a.e = 0 || kv.getLsbD l
    let members := match open_ with | some m => m.members | none => mine
    if !members.contains e.lane then pure (e.groupFault a GRPOUT)
    else if (match open_ with | some m => !m.agrees a kv | none => false) then pure (e.groupFault a GRPMIX)
    else do
      let leader := e.liveLanes.find? members.contains == some e.lane
      require (!(eats words || (a.leads && leader && words.any (·.2)))) .poison
      let p : Presenter := { lane := e.lane, words := words, pred := pr, d := a.d, arg := a.arg,
                             quiet := (match e.hints.hm with | some (.quiet q) => q | _ => 0), next := e.here + 4 }
      let (id, s) : Nat × State := match open_ with
        | some m => (m.id, e.s)
        | none => e.s.fresh
      let m : Meet := match open_ with
        | some m => { m with presenters := insertPresenter p m.presenters }
        | none => { id := id, closed := false, cls := a.cls, tag := a.tag, own := if own then some e.lane else none,
                    minor := a.minor, op := a.op, order := a.order, scope := a.scope, kEnable := a.e = 1, kValue := kv,
                    dst := a.dst, src := a.src, presenters := [p], members := members, acks := none, asked := false, parts := [] }
      let s := s.setWave e.waveKey { e.wave with meets := e.wave.meets.filter (·.id ≠ id) ++ [m] }
      let s := s.setStrand e.key { e.st with pc := e.bundle, life := .blocked (.meet a.cls a.tag own) }
      pure (s.tryMeet e.waveKey id)

/-- Operand forms: nothing, one predicate, registers. -/
def noReads (_ : Env) : Act (List (Word × Bool) × Bool) := .ok ([], false)
def predReads (n : BitVec 3) (e : Env) : Act (List (Word × Bool) × Bool) := do
  let p ← e.pred n.toNat
  pure ([], p)
def Env.readAll (e : Env) : List Nat → Act (List (Word × Bool))
  | [] => .ok []
  | n :: l => do
    let (x, r) ← both (e.read n) (e.readAll l)
    pure (x :: r)
def regReads (l : List Nat) (e : Env) : Act (List (Word × Bool) × Bool) := do
  let ws ← e.readAll l
  pure (ws, false)

def anyPoison (l : List (Word × Bool)) : Bool := l.any (·.2)
def noPoison (_ : List (Word × Bool)) : Bool := false

/-! ### GRP -/

def execMeet (g : BitVec 4) (e : BitVec 1) (k : BitVec 3) (s : State) : Host.Outcome State Fault Refusal :=
  present s { cls := 0x1A, tag := g.toNat, minor := 0, e := e, k := k } noReads noPoison

def execGvoteAny (g : BitVec 4) (d a : BitVec 3) (e : BitVec 1) (k : BitVec 3) (s : State) :
    Host.Outcome State Fault Refusal :=
  present s { cls := 0x1A, tag := g.toNat, minor := 1, e := e, k := k, d := d.toNat } (predReads a) noPoison
def execGvoteAll (g : BitVec 4) (d a : BitVec 3) (e : BitVec 1) (k : BitVec 3) (s : State) :
    Host.Outcome State Fault Refusal :=
  present s { cls := 0x1A, tag := g.toNat, minor := 2, e := e, k := k, d := d.toNat } (predReads a) noPoison
def execGvoteBallot (g : BitVec 4) (d a : BitVec 3) (e : BitVec 1) (k : BitVec 3) (s : State) :
    Host.Outcome State Fault Refusal :=
  present s { cls := 0x1A, tag := g.toNat, minor := 3, e := e, k := k, dst := d.toNat } (predReads a) noPoison

def execGbcast (g d : BitVec 4) (a : BitVec 7) (e : BitVec 1) (k : BitVec 3) (s : State) :
    Host.Outcome State Fault Refusal :=
  present s { cls := 0x1A, tag := g.toNat, minor := 4, e := e, k := k, dst := d.toNat, regs := [a.toNat], leads := true }
    (regReads [a.toNat]) noPoison

def execGelect (g : BitVec 4) (d : BitVec 3) (e : BitVec 1) (k : BitVec 3) (s : State) :
    Host.Outcome State Fault Refusal :=
  present s { cls := 0x1A, tag := g.toNat, minor := 5, e := e, k := k, d := d.toNat } noReads noPoison

def execFencew (g : BitVec 4) (o y : BitVec 3) (e : BitVec 1) (k : BitVec 3) (s : State) :
    Host.Outcome State Fault Refusal :=
  present s { cls := 0x1A, tag := g.toNat, minor := 6, e := e, k := k, order := o.toNat, scope := y.toNat } noReads
    noPoison

def execGred (g : BitVec 4) (d a : BitVec 7) (o : BitVec 4) (s : State) : Host.Outcome State Fault Refusal :=
  present s { cls := 0x1A, tag := g.toNat, minor := 7, op := o.toNat, d := d.toNat, regs := [d.toNat, a.toNat] }
    (regReads [a.toNat]) anyPoison
def execGscan (g : BitVec 4) (d a : BitVec 7) (o : BitVec 4) (s : State) : Host.Outcome State Fault Refusal :=
  present s { cls := 0x1A, tag := g.toNat, minor := 8, op := o.toNat, d := d.toNat, regs := [d.toNat, a.toNat] }
    (regReads [a.toNat]) anyPoison

/-! ### XLANE and CDET -/

/-- SHFL moves the value of a with its poison; only the index of mode 0 is consumed (R192). -/
def execShflIdx (g : BitVec 3) (d a b : BitVec 7) (s : State) : Host.Outcome State Fault Refusal :=
  present s { cls := 0x1B, tag := g.toNat, minor := 0, d := d.toNat, regs := [d.toNat, a.toNat, b.toNat] }
    (regReads [a.toNat, b.toNat]) (fun l => (l.drop 1).any (·.2))
def execShflUp (g : BitVec 3) (d a : BitVec 7) (c : BitVec 6) (s : State) : Host.Outcome State Fault Refusal :=
  present s { cls := 0x1B, tag := g.toNat, minor := 1, d := d.toNat, arg := c.toNat, regs := [d.toNat, a.toNat] }
    (regReads [a.toNat]) noPoison
def execShflDn (g : BitVec 3) (d a : BitVec 7) (c : BitVec 6) (s : State) : Host.Outcome State Fault Refusal :=
  present s { cls := 0x1B, tag := g.toNat, minor := 2, d := d.toNat, arg := c.toNat, regs := [d.toNat, a.toNat] }
    (regReads [a.toNat]) noPoison
def execShflXor (g : BitVec 3) (d a : BitVec 7) (c : BitVec 6) (s : State) : Host.Outcome State Fault Refusal :=
  present s { cls := 0x1B, tag := g.toNat, minor := 3, d := d.toNat, arg := c.toNat, regs := [d.toNat, a.toNat] }
    (regReads [a.toNat]) noPoison

def execCdet (g : BitVec 4) (d a : BitVec 7) (e : BitVec 1) (k : BitVec 3) (s : State) :
    Host.Outcome State Fault Refusal :=
  present s { cls := 0x1C, tag := g.toNat, minor := 0, e := e, k := k, d := d.toNat, regs := [d.toNat, a.toNat] }
    (regReads [a.toNat]) anyPoison
def execGcombF32 (g : BitVec 4) (d a : BitVec 7) (e : BitVec 1) (k : BitVec 3) (s : State) :
    Host.Outcome State Fault Refusal :=
  present s { cls := 0x1C, tag := g.toNat, minor := 1, e := e, k := k, d := d.toNat, regs := [d.toNat, a.toNat] }
    (regReads [a.toNat, d.toNat]) anyPoison
def execGcombS32 (g : BitVec 4) (d a : BitVec 7) (e : BitVec 1) (k : BitVec 3) (s : State) :
    Host.Outcome State Fault Refusal :=
  present s { cls := 0x1C, tag := g.toNat, minor := 2, e := e, k := k, d := d.toNat, regs := [d.toNat, a.toNat] }
    (regReads [a.toNat, d.toNat]) anyPoison

/-! ### HND (R131) -/

/-- The eight words of a handle register, as a presenter reads them. -/
def handleReads (h : BitVec 4) (e : Env) : Act (List (Word × Bool) × Bool) := do
  let r ← e.hReg h.toNat
  pure ((recordWords r).map fun w => (w, false), false)

def execHld (g h : BitVec 4) (a : BitVec 7) (e : BitVec 1) (k : BitVec 3) (s : State) :
    Host.Outcome State Fault Refusal :=
  present s { cls := 0x17, tag := g.toNat, minor := 0, e := e, k := k, dst := h.toNat, regs := [a.toNat], leads := true }
    (regReads [a.toNat]) noPoison
def execHset (g h : BitVec 4) (a : BitVec 7) (e : BitVec 1) (k : BitVec 3) (s : State) :
    Host.Outcome State Fault Refusal :=
  present s { cls := 0x17, tag := g.toNat, minor := 1, e := e, k := k, dst := h.toNat, regs := span a.toNat 8, leads := true }
    (regReads (span a.toNat 8)) noPoison
def execHrd (g : BitVec 4) (d : BitVec 7) (h : BitVec 4) (e : BitVec 1) (k : BitVec 3) (s : State) :
    Host.Outcome State Fault Refusal :=
  present s { cls := 0x17, tag := g.toNat, minor := 2, e := e, k := k, src := h.toNat, d := d.toNat,
              regs := span d.toNat 8 } (handleReads h) noPoison
def execHcpy (g d a : BitVec 4) (e : BitVec 1) (k : BitVec 3) (s : State) : Host.Outcome State Fault Refusal :=
  present s { cls := 0x17, tag := g.toNat, minor := 3, e := e, k := k, dst := d.toNat, src := a.toNat } (handleReads a)
    noPoison

end Sys2Proof.Machine
end

