-- ==== Sys2Proof/Machine/Move.lean ====
section
/-!
DEFINITION. MOVE with the special registers (R86, R87), PRED (R88) and ADDR (R89, R90).
-/

namespace Sys2Proof.Machine

/-! ### MOVE -/

/-- MOV copies the poison bit (R13, R86). -/
def execMov (t : BitVec 1) (d a : BitVec 7) (s : State) : Host.Outcome State Fault Refusal :=
  laneStep s fun e => do
    e.exist [d.toNat, a.toNat]
    let (x, p) ← e.read a.toNat
    pure (e.write e.st d.toNat x p 1 t)

def execMovi (t : BitVec 1) (d : BitVec 7) (i : BitVec 14) (s : State) : Host.Outcome State Fault Refusal :=
  laneStep s fun e => do
    e.exist [d.toNat]
    pure (e.write e.st d.toNat (e.imm14 i) false 1 t)

/-- LIFESTATE of a strand that reads its own (R87). -/
def Strand.lifeCode (st : Strand) : Word := if st.handler.isSome then 4 else 0

/-- A special register of one word (R73, R87). CLOCK is read apart. -/
def Env.special (e : Env) (n : Nat) : Word :=
  let c := e.s.core e.coreKey
  if 64 ≤ n then c.lmapReg (n - 64)
  else match n with
    | 0 => .ofNat 32 e.lane
    | 1 => .ofNat 32 e.wave.waveId
    | 2 => .ofNat 32 ((e.team.map fun (t : Team) => t.teamId).getD 0)
    | 3 => .ofNat 32 e.wave.grid
    | 4 => .ofNat 32 e.coreKey
    | 5 => c.desc
    | 7 => e.wave.bsPass
    | 8 => e.wave.issues
    | 9 => e.wave.censusWait
    | 10 => e.st.lifeCode
    | _ => .ofNat 32 ((e.grid.map fun (g : Grid) => g.version).getD 0)

/-- The special registers whose values the trailing wave takes from the leading one (R267). -/
def specialShared (n : Nat) : Bool := (4 ≤ n && n ≤ 9) || 64 ≤ n

/-- CLOCK as the issue in progress samples it (R87): it has moved by a free amount since it was last read and never goes back
(log 8), and every lane of the issue reads one value. -/
def State.clockTick (s : State) (core : Nat) : Dword × State :=
  match s.issue.bind (·.clock) with
  | some x => (x, s)
  | none =>
    let (n, s) := s.free
    let x := (s.core core).clock + (Config.freeTime n).setWidth 64
    (x, { s.modCore core fun c => { c with clock := x } with
            issue := s.issue.map fun (i : Issue) => { i with clock := some x } })

/-- Writes words from d with latency 1 (R86). -/
def Env.writeWords (e : Env) (st : Strand) (t : BitVec 1) (d : Nat) : List Word → Strand
  | [] => st
  | x :: l => e.writeWords (e.write st d x false 1 t) t (d + 1) l

def execRdsr (t : BitVec 1) (d : BitVec 7) (n : BitVec 14) (s : State) : Host.Outcome State Fault Refusal :=
  runLane s fun e => do
    let wide := specialWide n.toNat
    e.exist (if wide then [d.toNat, d.toNat + 1] else [d.toNat])
    if specialShared n.toNat && e.trailing then
      e.takeValue fun ws s => pure (e.retire s (e.writeWords e.st t d.toNat (ws.map (·.1))))
    else
      if specialShared n.toNat then e.room
      let (ws, s) := if wide then
          let (x, s) := e.s.clockTick e.coreKey
          ([x.setWidth 32, (x >>> 32).setWidth 32], s)
        else ([e.special n.toNat], e.s)
      let st := if specialShared n.toNat then e.offer e.st 0 ws (ws.map fun _ => false) else e.st
      pure (e.retire s (e.writeWords st t d.toNat ws))

def execRdw (t : BitVec 1) (d : BitVec 7) (n : BitVec 4) (s : State) : Host.Outcome State Fault Refusal :=
  laneStep s fun e => do
    e.exist [d.toNat]
    let x ← e.wReg n.toNat
    pure (e.write e.st d.toNat x false 1 t)

/-- RDK: mask bits at or above the width read 0 (R86). -/
def execRdk (t : BitVec 1) (d : BitVec 7) (n : BitVec 3) (s : State) : Host.Outcome State Fault Refusal :=
  laneStep s fun e => do
    e.exist [d.toNat, d.toNat + 1]
    let x ← e.kReg n.toNat
    pure (e.writePair e.st d.toNat (.ofNat 64 (x.toNat % 2 ^ e.wave.width)) 1 t)

/-- The FSTAT moves wait for results that are still to deliver their flags (R86): queued ones, and WA operations on their way to
another core (R240). -/
def Env.flagsDelivered (e : Env) : Act Unit :=
  require (!e.s.queued e.key && !(e.team.any fun t => t.waOps.any (·.strand = e.key))) .hold

def execMovToFstat (a : BitVec 7) (s : State) : Host.Outcome State Fault Refusal :=
  laneStep s fun e => do
    e.exist [a.toNat]
    e.flagsDelivered
    let x ← e.use a.toNat
    pure (e.st.setFstat x)

def execMovFromFstat (t : BitVec 1) (d : BitVec 7) (s : State) : Host.Outcome State Fault Refusal :=
  laneStep s fun e => do
    e.exist [d.toNat]
    e.flagsDelivered
    pure (e.write e.st d.toNat e.st.fstat false 1 t)

/-- SEL: the chosen source's poison bit goes with it; the other is read and not consumed (R86). -/
def execSel (n : BitVec 3) (t : BitVec 1) (d a b : BitVec 7) (s : State) : Host.Outcome State Fault Refusal :=
  laneStep s fun e => do
    e.exist [d.toNat, a.toNat, b.toNat]
    let (c, (x, p), (y, q)) ← both (e.pred n.toNat) (both (e.read a.toNat) (e.read b.toNat))
    pure (e.write e.st d.toNat (if c then x else y) (if c then p else q) 1 t)

/-! ### PRED -/

def pred2 (s : State) (d a b : BitVec 3) (f : Bool → Bool → Bool) : Host.Outcome State Fault Refusal :=
  laneStep s fun e => do
    let (x, y) ← both (e.pred a.toNat) (e.pred b.toNat)
    pure (e.writePred e.st d.toNat (f x y) 1)

def execPand (d a b : BitVec 3) (s : State) : Host.Outcome State Fault Refusal := pred2 s d a b fun x y => x && y
def execPor (d a b : BitVec 3) (s : State) : Host.Outcome State Fault Refusal := pred2 s d a b fun x y => x || y
def execPxor (d a b : BitVec 3) (s : State) : Host.Outcome State Fault Refusal := pred2 s d a b fun x y => x != y
def execPnot (d a : BitVec 3) (s : State) : Host.Outcome State Fault Refusal := pred2 s d a a fun x _ => !x
def execPmov (d a : BitVec 3) (s : State) : Host.Outcome State Fault Refusal := pred2 s d a a fun x _ => x

def execPset (d : BitVec 3) (a : BitVec 7) (s : State) : Host.Outcome State Fault Refusal :=
  laneStep s fun e => do
    e.exist [a.toNat]
    let x ← e.use a.toNat
    pure (e.writePred e.st d.toNat (x ≠ 0) 1)

/-! ### ADDR -/

/-- The address LEA writes (R89). -/
def leaAddress (h : HRec) (i : Nat) : Dword :=
  let a : Int := hBase0 h + hOffset h i
  if hKind h = kGlobal ∨ hKind h = kQuant then .ofNat 64 (a % 2 ^ 57).toNat else .ofInt 64 a

def execLea (t : BitVec 1) (d a : BitVec 7) (h : BitVec 4) (s : State) : Host.Outcome State Fault Refusal :=
  laneStep s fun e => do
    e.exist [d.toNat, d.toNat + 1, a.toNat]
    let r ← e.hReg h.toNat
    let x ← e.use a.toNat
    pure (e.writePair e.st d.toNat (leaAddress r x.toNat) 3 t)

def pairAlu (s : State) (t : BitVec 1) (d a b : BitVec 7) (f : Dword → Dword → Dword) : Host.Outcome State Fault Refusal :=
  laneStep s fun e => do
    e.exist [d.toNat, d.toNat + 1, a.toNat, a.toNat + 1, b.toNat, b.toNat + 1]
    let (x, y) ← both (e.usePair a.toNat) (e.usePair b.toNat)
    pure (e.writePair e.st d.toNat (f x y) 3 t)

def execAdd64 (t : BitVec 1) (d a b : BitVec 7) (s : State) : Host.Outcome State Fault Refusal :=
  pairAlu s t d a b fun x y => x + y
def execSub64 (t : BitVec 1) (d a b : BitVec 7) (s : State) : Host.Outcome State Fault Refusal :=
  pairAlu s t d a b fun x y => x - y

def execShl64 (t : BitVec 1) (d a b : BitVec 7) (s : State) : Host.Outcome State Fault Refusal :=
  laneStep s fun e => do
    e.exist [d.toNat, d.toNat + 1, a.toNat, a.toNat + 1, b.toNat]
    let (x, y) ← both (e.usePair a.toNat) (e.use b.toNat)
    pure (e.writePair e.st d.toNat (.ofNat 64 (x.toNat * 2 ^ fld y.toNat 0 7)) 3 t)

def execMulw (t : BitVec 1) (d a b : BitVec 7) (s : State) : Host.Outcome State Fault Refusal :=
  laneStep s fun e => do
    e.exist [d.toNat, d.toNat + 1, a.toNat, b.toNat]
    let (x, y) ← e.use2 a.toNat b.toNat
    pure (e.writePair e.st d.toNat (.ofInt 64 (x.toInt * y.toInt)) 3 t)

def execCmp64 (c : BitVec 4) (p : BitVec 3) (a b : BitVec 7) (s : State) : Host.Outcome State Fault Refusal :=
  laneStep s fun e => do
    e.exist [a.toNat, a.toNat + 1, b.toNat, b.toNat + 1]
    let (x, y) ← both (e.usePair a.toNat) (e.usePair b.toNat)
    pure (e.writePred e.st p.toNat (icond c.toNat x y) 3)

end Sys2Proof.Machine
end

