-- ==== Sys2Proof/Machine/Control.lean ====
section
/-!
DEFINITION. CTRL (R91 to R99), the fetch of a budget word (R93), and register growth requests (R175, R176, R289) with the
register pool (R161, R201).
-/

namespace Sys2Proof.Machine

/-! ### The register pool and grow requests -/

/-- Bytes of a bank's register pool that no wave holds: the half without the scratch and accumulator areas of its teams
and the register areas of its waves (R161, R201). A scribe slot has a store of its own, of 8 KiB (R328). -/
def State.poolFree (s : State) (bank : Nat) : Nat :=
  let areas := (s.teams.filter fun p => p.2.bank = bank && !p.2.waiting).map fun p =>
    p.2.scratchSize + 16384 * p.2.accs.length
  let regs := (s.waves.filter fun p => waveBank p.1 = bank && s.waveLive p.1).map fun p => p.2.alloc * p.2.width * 4
  (if bank < 1024 then Config.halfBytes else Config.scribeBytes) - areas.sum - regs.sum

/-- Bytes that a wave's request needs; a redundant pair asks for both waves (R175, R268). -/
def Wave.growBytes (w : Wave) (n : Nat) : Nat := (n - w.alloc) * w.width * 4 * (if w.partner.isSome then 2 else 1)

/-- Enters a lane in its wave's grow request (R289): the lanes of one issue form one request, at the largest size; a
later lane joins a request that is large enough, and is otherwise Blocked until the request completes. -/
def Env.requestGrow (e : Env) (n : Nat) (lane : GrowLane) : State :=
  let block := fun (s : State) (w : Wave) (id : Nat) =>
    (s.setWave e.waveKey w).setStrand e.key { e.st with pc := e.bundle, life := .blocked (.grow id) }
  match e.wave.grow with
  | some g =>
    if g.issue = e.issueNo then
      block e.s { e.wave with grow := some { g with size := Nat.max g.size n, lanes := g.lanes ++ [lane] } } g.id
    else if n ≤ g.size then block e.s { e.wave with grow := some { g with lanes := g.lanes ++ [lane] } } g.id
    else e.s.setStrand e.key { e.st with pc := e.bundle, life := .blocked .growPending }
  | none =>
    let (id, s) := e.s.fresh
    let s := s.modBank e.bankKey fun b => { b with grows := b.grows ++ [e.waveKey] }
    block s { e.wave with grow := some { id := id, issue := e.issueNo, size := n, lanes := [lane] } } id

/-- One lane of a completed request: RGROW writes 0, or 1 with G set; a CALL writes its link and goes on, or sets G and
traps BUDGET (R93, R289). `issue` is the one that asked. -/
def State.growLane (s : State) (wave : Nat) (w : Wave) (issue : Nat) (ok : Bool) (l : GrowLane) : State :=
  let k := strandNo wave l.lane
  match s.strands.find k with
  | none => s
  | some st =>
    let st := { st with life := .ready, wait := 0 }
    let st := if ok then st else st.raiseG
    let offer := fun (st : Strand) (x : Word) =>
      if w.partner.isSome && !w.trailing then { st with values := st.values ++
          [{ pc := l.pc, issue := issue, seq := 0, fault := none, words := [x], poison := [false] }] } else st
    let give := fun (st : Strand) (n : Nat) (x : Word) =>
      st.push { dst := .v n, val := (s.produced k [x]).headD x, poison := false, lat := 0, age := 0, transient := false, tag := none }
    match l.dst with
    | some d => s.setStrand k (({ offer (give st d (if ok then 0 else 1)) (if ok then 0 else 1) with pc := l.ret }).tick 1)
    | none =>
      if ok then
        let st := give (give st (2 * l.link) (l.ret.setWidth 32)) (2 * l.link + 1) ((l.ret >>> 32).setWidth 32)
        s.setStrand k (({ offer st 0 with pc := l.target }).tick 1)
      else (s.setStrand k (offer st 1)).trap k w.grid BUDGET 0 0 l.ret

/-- A request completes (R175, R176): the allocation of the wave, and of its pair, becomes the size on a grant. -/
def State.finishGrow (s : State) (wave : Nat) (ok : Bool) : State :=
  match s.waves.find wave with
  | none => s
  | some w =>
    match w.grow with
    | none => s
    | some g =>
      let size := if ok then Nat.max w.alloc g.size else w.alloc
      let clear := fun (s : State) (v : Nat) =>
        if ok then
          { s with strands := s.strands.mapVal fun k (st : Strand) =>
            if strandWave k = v then
              { st with regs := st.regs.filter fun r => r.1 < w.alloc ∨ size ≤ r.1
                        window := st.window.filter fun (x : Went) => match x.dst with | .v n => n < w.alloc | .p _ => true }
            else st }
        else s
      let s := clear s wave
      let s := s.setWave wave { w with grow := none, alloc := size }
      let s := match w.partner with
        | some p => (clear s p).modWave p fun (x : Wave) => { x with alloc := size }
        | none => s
      let s := (s.modBank (waveBank wave) fun b => { b with grows := b.grows.filter (· ≠ wave) }).wake (bankCore (waveBank wave))
      g.lanes.foldl (fun s l => s.growLane wave w g.issue ok l) s

/-! ### Budget words and targets -/

/-- A word of the strand's code (R15, R93): read through the code version, with the fetch faults of R56, once its line can be read
(R305, R318, R355). -/
def Env.codeWord (e : Env) (va : Nat) : Act Nat := do
  let (pa, _) ← e.s.fetchAt e.coreKey e.asid (e.s.versionOf e.key) e.level va
  require (e.s.sliceOpen (coreDie e.coreKey) pa e.s.nextId) .hold
  pure (e.s.peekNum pa 4)

/-- A valid budget: 16 to 128 in steps of 8 (R93). -/
def budgetOk (w : Nat) : Bool := w < 256 && 16 ≤ w && w ≤ 128 && w % 8 = 0

/-- The address of the budget word of an entry (R93). -/
def budgetAt (entry : VAddr) : Nat := (entry - 8).toNat

/-! ### Branches -/

def execNx (o : BitVec 18) (s : State) : Host.Outcome State Fault Refusal :=
  laneStep s fun e => pure { e.st with pc := e.target o }

def execNxc (n : BitVec 1) (p : BitVec 3) (o : BitVec 18) (s : State) : Host.Outcome State Fault Refusal :=
  laneStep s fun e => do
    let c ← e.pred p.toNat
    pure (if c != (n == 1) then { e.st with pc := e.target o } else e.st)

def execNxi (a : BitVec 7) (s : State) : Host.Outcome State Fault Refusal :=
  laneStep s fun e => do
    e.exist [a.toNat, a.toNat + 1]
    let t ← e.pairTarget a.toNat
    let _ ← e.usePair a.toNat
    pure { e.st with pc := t }

def execRet (a : BitVec 7) (s : State) : Host.Outcome State Fault Refusal :=
  laneStep s fun e => do
    e.exist [a.toNat, a.toNat + 1]
    let t ← e.pairTarget a.toNat
    let _ ← e.usePair a.toNat
    pure { e.st with pc := t }

/-- The link pair and the target of a call that needs no grow (R93). -/
def Env.linked (e : Env) (l : BitVec 4) (t : VAddr) : Strand :=
  let ret := e.here + 4
  { e.deliver (e.deliver e.st (2 * l.toNat) (ret.setWidth 32) false) (2 * l.toNat + 1) ((ret >>> 32).setWidth 32) false
    with pc := t }

/-- CALL and CALLI (R93) from the target: the fetch fault of the budget word, the link pair's ILLOP, BUDGET, then what reads the
target, with STALE and its consumption (R250). Where the wave must grow, the request is compared and made once for a redundant pair, and
the trailing wave takes whether it succeeded (R267, R268). -/
def Env.call (e : Env) (l : BitVec 4) (t : VAddr) (use : Act Unit) : Act State := do
  e.room
  let need ← e.codeWord (budgetAt t)
  e.exist [2 * l.toNat, 2 * l.toNat + 1]
  require (budgetOk need) (.fault BUDGET 0 0)
  use
  let ready := fun (e : Env) => (pure (e.retire e.s (e.offer (e.linked l t) 0 [0] [false])) : Act State)
  if !e.trailing && !e.st.permit && decide (need ≤ e.wave.alloc) then ready e
  else
    e.once [.ofNat 32 need, t.setWidth 32, (t >>> 32).setWidth 32]
      (fun e =>
        if need ≤ e.wave.alloc then ready e
        else pure (e.requestGrow need
          { lane := e.lane, dst := none, link := l.toNat, ret := e.here + 4, target := t, pc := e.bundle }))
      fun ws s =>
        if ws.map (·.1) = [0] then pure (e.retire s (e.linked l t))
        else pure ((s.setStrand e.key ({ e.st with pc := e.bundle }).raiseG).trap e.key e.wave.grid BUDGET 0 0 (e.here + 4))

def execCall (l : BitVec 4) (o : BitVec 18) (s : State) : Host.Outcome State Fault Refusal :=
  runLane s fun e => e.call l (e.target o) (.ok ())

def execCalli (l : BitVec 4) (a : BitVec 7) (s : State) : Host.Outcome State Fault Refusal :=
  runLane s fun e => do
    e.exist [a.toNat, a.toNat + 1]
    let t ← e.pairTarget a.toNat
    e.call l t ((e.usePair a.toNat).map fun _ => ())

/-! ### EXIT, YIELD, REGION, TRAP, BRK -/

/-- A strand that exits, its window drained (R21, R26, R95). -/
def Strand.leave (st : Strand) : Strand :=
  { st.drain with life := .exited, window := [], handler := none, permit := false, draining := false }

/-- The strand with its open commit group closed (R221); an empty group stays as it is. A group has the number of its
first command. -/
def Strand.closeGroup (st : Strand) : Strand :=
  match st.openGroup with
  | [] => st
  | id :: _ => { st with openGroup := [], closed := st.closed ++ [⟨id, st.openGroup⟩] }

/-- A strand exits: its open commit group closes (R221), and a meet whose remaining participants have all presented
completes (R181). -/
def State.exitStrand (s : State) (k : Nat) (st : Strand) : State :=
  (s.setStrand k st.leave.closeGroup).tryMeets (strandWave k)

def execExit (s : State) : Host.Outcome State Fault Refusal :=
  runLane s fun e => do
    require e.st.drained .hold
    pure (e.s.exitStrand e.key (e.st.tick 1))

/-- YIELD ends the wave's greedy run (R96). -/
def execYield (s : State) : Host.Outcome State Fault Refusal :=
  runLane s fun e =>
    pure (e.retire (e.s.modBank (e.s.activeBank e.coreKey) fun b => { b with yielded := true }) e.st)

def execRegion (s : State) : Host.Outcome State Fault Refusal := runLane s fun e => pure (e.retireRegion e.s e.st)

def execTrap (c : BitVec 8) (s : State) : Host.Outcome State Fault Refusal :=
  runLane s fun _ => .error (.fault TRAPCODE c.toNat 0)

def execBrk (c : BitVec 8) (s : State) : Host.Outcome State Fault Refusal :=
  runLane s fun _ => .error (.fault BRKCODE c.toNat 0)

/-! ### REFILL -/

/-- The oldest item of the strand's grid in a queue that fits its wave's allocation, with its budget word read by `read`
(R98); a walk or a lock is waited for. DESIGN CHOICE (log 17): an item whose budget word cannot be fetched or is no budget does not
fit, and raises nothing. -/
def Env.fitting (e : Env) (read : Nat → Act Nat) : List Task → Act (Option Task)
  | [] => .ok none
  | t :: l =>
    if t.grid ≠ e.wave.grid then e.fitting read l
    else match read (budgetAt t.entry) with
      | .ok n => if budgetOk n && decide (n ≤ e.wave.alloc) then .ok (some t) else e.fitting read l
      | .error (.park ..) => e.fitting read l
      | .error x => .error x

/-- Whether the cluster's pool holds tasks of the strand's grid (R98, R286). -/
def Env.poolHolds (e : Env) : Bool := (e.s.cluster (coreCluster e.coreKey)).pool.any (·.grid = e.wave.grid)

/-- The four 16-byte parts of an argument record: each translated, then loaded as an acquire at cluster scope into four
registers (R98, R287). -/
def Env.argLoads (e : Env) (record : Nat) : Nat → Act (List Nat)
  | 0 => .ok []
  | n + 1 => do
    let l ← e.argLoads record n
    let pa ← e.translate ((record + 16 * n) % 2 ^ 57) 0 kLoad
    pure (l ++ [pa])

def Env.startArgs (e : Env) (s : State) (st : Strand) (record : Nat) (pas : List Nat) : State × Strand :=
  pas.zipIdx.foldl (fun (acc : State × Strand) p =>
    let va := (record + 16 * p.2) % 2 ^ 57
    let (id, s) := acc.1.request
      { id := 0, strand := e.key, use := .register, core := l1Core e.coreKey e.fused va, asid := e.asid, va := va, pa := p.1,
        size := 16, signed := false, d := 4 * p.2, acquire := 3, pol := 0, granted := false, clock := [] }
    (s, e.offer (acc.2.awaitMany id (4 * p.2) 4) id [] [])) (s, st)

/-- The strand as an item leaves it: its window drained, a new region at the loop head, or at another entry (R98). -/
def Env.itemStrand (e : Env) (entry head : VAddr) : Strand :=
  let pc := if entry = e.st.entry then head else entry
  { (e.st.tick 1).startRegion pc with preds := 1, entry := entry, item := none, pc := pc }

/-- The next `n` values of the leading wave together. -/
def Env.takeWords (e : Env) : Nat → (List (Word × Bool) → State → Act State) → Act State
  | 0, f => f [] e.s
  | n + 1, f => e.takeValue fun ws s => ({ e with s := s } : Env).takeWords n fun l s => f (ws ++ l) s

/-- The trailing wave of a pair takes the item and its sixteen words from the leading one, or exits with it. -/
def Env.refillTrailing (e : Env) (head : VAddr) : Act State :=
  e.takeValue fun ws s =>
    match ws with
    | [lo, hi] =>
      ({ e with s := s } : Env).takeWords 4 fun l s =>
        pure (s.setStrand e.key (e.put (e.itemStrand ((hi.1 ++ lo.1).setWidth 57) head) 0 l))
    | _ => pure (s.exitStrand e.key (e.st.tick 1))

/-- A lane takes an item: the argument record is loaded as an acquire, which the lane waits for (R98, R338). Until then the item
stays with the lane, and a fault in loading it is taken at the REFILL. -/
def Env.takeItem (e : Env) (s : State) (entry : VAddr) (record : Nat) (head : VAddr) : Act State :=
  let s := s.modStrand e.key fun st => { st with item := some (entry.toNat, record) }
  let e : Env := { e with s := s, st := { e.st with item := some (entry.toNat, record) } }
  match e.argLoads record 4 with
  | .error x => .ok (s.stop e x)
  | .ok pas =>
    let st := e.offer (e.itemStrand entry head) 0 [entry.setWidth 32, (entry >>> 32).setWidth 32] [false, false]
    let (s, st) := e.startArgs s st record pas
    .ok (s.setStrand e.key { st with draining := true })

def execRefill (o : BitVec 18) (s : State) : Host.Outcome State Fault Refusal :=
  runLane s fun e => do
    e.room
    require e.st.drained .hold
    let head := e.target o
    if e.trailing then e.refillTrailing head
    else match e.st.item with
      | some (entry, record) => e.takeItem e.s (.ofNat 57 entry) record head
      | none =>
        match ← e.fitting e.codeWord (e.s.core e.coreKey).items with
        | some t =>
          e.takeItem (e.s.modCore e.coreKey fun c => { c with items := c.items.erase t }) t.entry t.record head
        | none =>
          if e.poolHolds then pure (e.s.setStrand e.key { e.st with pc := e.bundle, life := .blocked (.refill e.issueNo) })
          else pure (e.s.exitStrand e.key ((e.offer e.st 0 [] []).tick 1))

end Sys2Proof.Machine
end

