-- ==== Sys2Proof/Machine/Mx.lean ====
section
/-!
DEFINITION. The matrix engine (R212 to R232): the MX class, its queue, commit groups, chunk steps (R45 to R47), stops, and
the watchdog.
-/

namespace Sys2Proof.Machine

/-! ### Types, tiles and tile memory (R208, R209, R213, R214) -/

/-- Chunk depth and element size of a type: .bf16, .f16, .e4m3, .e5m2, .s8, .nq4 from 0. -/
def mxDepth (type : Nat) : Nat := match type with | 0 | 1 => 16 | 2 | 3 | 4 => 32 | _ => 64
def mxSize (type : Nat) : Nat := if type < 2 then 2 else 1
def mxFmt (type : Nat) : Fmt := match type with | 0 => .bf16 | 1 => .f16 | 3 => .e5m2 | _ => .e4m3
/-- The largest K whose A panels the engine latches (R219). -/
def mxLatchLimit (type : Nat) : Nat := if type < 2 then 256 else 512

/-- The physical tile of a context tile (R209). -/
def State.physTile (s : State) (bank c : Nat) : Nat := if (s.bank bank).mapping = 16 then c else 8 * bankIndex bank + c

/-- The physical tile that a team tile names (R213). -/
def Env.tile (e : Env) (n : Nat) : Act Nat :=
  match e.team with
  | none => illop
  | some t => match t.tiles[n]? with
    | some c => .ok (e.s.physTile t.bank c)
    | none => illop

/-- The elements of a table from a number on. -/
def tileList : Nat → Nat → Tbl Word → List Word
  | 0, _, _ => []
  | n + 1, k, [] => 0 :: tileList n (k + 1) []
  | n + 1, k, (j, x) :: t => if j = k then x :: tileList n (k + 1) t else 0 :: tileList n (k + 1) ((j, x) :: t)

/-- A physical tile's 4,096 elements. -/
def Core.tile (c : Core) (m : Nat) : List Word := tileList 4096 (4096 * m) (c.tiles.filter fun p => p.1 / 4096 = m)

/-- Elements paired with their numbers, zeros left out. -/
def tileEntries : Nat → List Word → Tbl Word
  | _, [] => []
  | k, x :: l => if x = 0 then tileEntries (k + 1) l else (k, x) :: tileEntries (k + 1) l

def Core.setTile (c : Core) (m : Nat) (l : List Word) : Core :=
  { c with tiles := (c.tiles.filter fun p => p.1 / 4096 < m) ++ tileEntries (4096 * m) l
      ++ c.tiles.filter fun p => m < p.1 / 4096 }

def Core.setElement (c : Core) (m i : Nat) (x : Word) : Core :=
  { c with tiles := if x = 0 then c.tiles.drop (4096 * m + i) else Tbl.set c.tiles (4096 * m + i) x }

/-- Whether an uncorrectable error lies in a tile, or in one row of it (R228). -/
def Core.tileFaulty (c : Core) (m : Nat) : Bool := c.tileBad.any fun p => p / 2048 = m
def Core.rowFaulty (c : Core) (m row : Nat) : Bool := c.tileBad.any fun p => p / 2048 = m && p % 2048 / 32 = row

/-! ### Commands at the issue (R212, R214, R218, R223) -/

/-- The queue of the strand's engine. -/
def Env.engine (e : Env) : Nat := e.s.engineBank e.key
def Env.mxRoom (e : Env) : Act Unit := require (decide ((e.s.bank e.engine).mxQueue.length < Config.mxQueue)) .hold

/-- Closed groups outstanding of a wave, over its strands (R221). -/
def State.waveGroups (s : State) (w : Nat) : Nat :=
  ((s.strands.filter fun p => strandWave p.1 = w).map fun p => p.2.closed.length).sum

/-- A command that joins a group finds its queue full, or its open group full while the wave has as many closed groups as it
may have: the lane is not Ready (R212, R218). -/
def Env.commandRoom (e : Env) : Act Unit := do
  e.mxRoom
  require (!(decide (Config.openCommands ≤ e.st.openGroup.length)
    && decide (Config.closedGroups ≤ e.s.waveGroups e.waveKey))) .hold

/-- Enters a command of the strand's open group (R218). -/
def Env.command (e : Env) (op : MxOp) (tile : Nat) : Act State := do
  e.commandRoom
  let st := if Config.openCommands ≤ e.st.openGroup.length then e.st.closeGroup else e.st
  let (id, s) := e.s.fresh
  let entry : MxEntry := { id := id, issue := some e.issueNo, op := op, tile := tile, team := e.wave.team, wave := e.waveKey,
                           lane := e.lane, progress := 0, residue := 0 }
  let s := s.modBank e.engine fun b => { b with mxQueue := b.mxQueue ++ [entry] }
  pure (e.retireRegion s (e.told { st with openGroup := st.openGroup ++ [id] }))

/-- A command that joins a group: compared, and performed once (R228, R268). -/
def Env.commandOnce (e : Env) (op : MxOp) (tile : Nat) (req : List Word) : Act State :=
  e.once req (fun e => e.command op tile) fun _ s => pure (e.retireRegion s e.st)

/-- Bytes of team scratch. -/
def Env.scratchGrant (e : Env) : Nat := (e.team.map fun (t : Team) => t.scratchSize).getD 0

/-- Elements that the regions of A and B span (R215, R216). -/
def mxSpanA (kt : Nat) : Nat := 64 * kt
def mxSpanB (type kt : Nat) : Nat := if type = 5 then 33 * kt + 4 * ((kt + 255) / 256) else 64 * kt

def mxHandleOk (size : Nat) (h : HRec) : Bool := hKind h = kLocal && hEsize h = size && hBase0 h % 256 = 0

/-- Whether a region of elements lies within EXTENT and the scratch grant. -/
def mxFits (h : HRec) (n size grant : Nat) : Bool := decide (n ≤ hExtent h ∧ hBase0 h + n * size ≤ grant)

def mxmma (s : State) (type : Nat) (r : BitVec 1) (t h j : BitVec 4) (a : BitVec 7) : Host.Outcome State Fault Refusal :=
  runLane s fun e => do
    e.commandRoom
    e.exist [a.toNat]
    let tile ← e.tile t.toNat
    let hA ← e.hReg h.toNat
    let hB ← e.hReg j.toNat
    let size := mxSize type
    require (mxHandleOk size hA && mxHandleOk size hB) (.fault ILLOP 0 0)
    let (v, p) ← e.read a.toNat
    let k := fld v.toNat 0 16
    let koff := fld v.toNat 16 16
    let depth := mxDepth type
    let kt := koff + k
    require (decide (depth ≤ k ∧ k % depth = 0 ∧ koff % depth = 0 ∧ kt ≤ 4096) && hPermR hA && hPermR hB
      && mxFits hA (mxSpanA kt) size e.scratchGrant && mxFits hB (mxSpanB type kt) size e.scratchGrant) (.fault OOR 0 0)
    require (!p) .poison
    e.commandOnce (.mma type (r == 1) hA hB koff k) tile
      (reqWords tile [type, v.toNat, if r = 1 then 1 else 0] ++ recordWords hA ++ recordWords hB)

def execMxmmaBf16 (r : BitVec 1) (t h j : BitVec 4) (a : BitVec 7) (s : State) : Host.Outcome State Fault Refusal :=
  mxmma s 0 r t h j a
def execMxmmaF16 (r : BitVec 1) (t h j : BitVec 4) (a : BitVec 7) (s : State) : Host.Outcome State Fault Refusal :=
  mxmma s 1 r t h j a
def execMxmmaE4m3 (r : BitVec 1) (t h j : BitVec 4) (a : BitVec 7) (s : State) : Host.Outcome State Fault Refusal :=
  mxmma s 2 r t h j a
def execMxmmaE5m2 (r : BitVec 1) (t h j : BitVec 4) (a : BitVec 7) (s : State) : Host.Outcome State Fault Refusal :=
  mxmma s 3 r t h j a
def execMxmmaS8 (r : BitVec 1) (t h j : BitVec 4) (a : BitVec 7) (s : State) : Host.Outcome State Fault Refusal :=
  mxmma s 4 r t h j a
def execMxmmaNq4 (r : BitVec 1) (t h j : BitVec 4) (a : BitVec 7) (s : State) : Host.Outcome State Fault Refusal :=
  mxmma s 5 r t h j a

def execMxz (t : BitVec 4) (s : State) : Host.Outcome State Fault Refusal :=
  runLane s fun e => do
    e.commandRoom
    let tile ← e.tile t.toNat
    e.commandOnce .zero tile (reqWords tile [6])

def execMxst (t h : BitVec 4) (a : BitVec 7) (s : State) : Host.Outcome State Fault Refusal :=
  runLane s fun e => do
    e.commandRoom
    e.exist [a.toNat]
    let tile ← e.tile t.toNat
    let r ← e.hReg h.toNat
    require (mxHandleOk 4 r) (.fault ILLOP 0 0)
    let (v, p) ← e.read a.toNat
    let row := fld v.toNat 0 6
    let rows := fld v.toNat 8 7
    require (decide (1 ≤ rows ∧ row + rows ≤ 64) && hPermW r && mxFits r (64 * rows) 4 e.scratchGrant) (.fault OOR 0 0)
    require (!p) .poison
    e.commandOnce (.store r row rows) tile (reqWords tile [7, row, rows] ++ recordWords r)

/-! ### MXRD and MXWR (R224) -/

/-- The entry of the lane's issue, where an earlier lane has made it. -/
def Env.issueEntry (e : Env) : Option MxEntry :=
  (e.s.bank e.engine).mxQueue.find? fun x => match x.op with
    | .access _ => x.issue = some e.issueNo && x.wave = e.waveKey && e.s.issue.isSome
    | _ => false

/-- An MXRD or MXWR that needs a new entry finds its queue full (R212). -/
def Env.accessRoom (e : Env) : Act Unit := if e.issueEntry.isSome then .ok () else e.mxRoom

/-- Enters a lane in the entry of its issue, or makes that entry. -/
def Env.mxAccess (e : Env) (tile element d : Nat) (word : Option Word) : Act (Nat × State) := do
  let lane : MxLane := { strand := e.key, tile := tile, element := element, d := d, word := word }
  match e.issueEntry with
  | some x =>
    let put := fun (y : MxEntry) => match y.op with
      | .access l => if y.id = x.id then { y with op := .access (l ++ [lane]) } else y
      | _ => y
    pure (x.id, e.s.modBank e.engine fun b => { b with mxQueue := b.mxQueue.map put })
  | none =>
    e.mxRoom
    let (id, s) := e.s.fresh
    let entry : MxEntry := { id := id, issue := some e.issueNo, op := .access [lane], tile := tile, team := e.wave.team,
                             wave := e.waveKey, lane := e.lane, progress := 0, residue := 0 }
    pure (id, s.modBank e.engine fun b => { b with mxQueue := b.mxQueue ++ [entry] })

def execMxrd (t : BitVec 4) (d a : BitVec 7) (s : State) : Host.Outcome State Fault Refusal :=
  runLane s fun e => do
    e.accessRoom
    e.exist [d.toNat, a.toNat]
    let tile ← e.tile t.toNat
    let v ← e.use a.toNat
    e.once (reqWords tile [8, v.toNat])
      (fun e => do
        let (id, s) ← e.mxAccess tile (fld v.toNat 0 12) d.toNat none
        pure (e.retireRegion s (e.offer (e.st.await d.toNat id) id [] [])))
      fun ws s => pure (e.retireRegion s (e.put e.st d.toNat ws))

def execMxwr (t : BitVec 4) (a : BitVec 7) (s : State) : Host.Outcome State Fault Refusal :=
  runLane s fun e => do
    e.accessRoom
    e.exist [a.toNat, a.toNat + 1]
    let tile ← e.tile t.toNat
    let (v, x) ← e.use2 a.toNat (a.toNat + 1)
    e.once (reqWords tile [9, v.toNat, x.toNat])
      (fun e => do
        let (_, s) ← e.mxAccess tile (fld v.toNat 0 12) 0 (some x)
        pure (e.retireRegion s (e.told e.st)))
      fun _ s => pure (e.retireRegion s e.st)

/-! ### Groups, waits and status (R221, R222, R225) -/

def execMxcommit (s : State) : Host.Outcome State Fault Refusal :=
  runLane s fun e => do
    require (decide (e.s.waveGroups e.waveKey < Config.closedGroups)) .hold
    e.once (reqWords 0 [10])
      (fun e => pure (e.retireRegion e.s (e.told e.st.closeGroup)))
      fun _ s => pure (e.retireRegion s e.st)

def execMxwait (n : BitVec 7) (s : State) : Host.Outcome State Fault Refusal :=
  runLane s fun e =>
    e.once (reqWords 0 [11, n.toNat])
      (fun e =>
        if e.st.closed.length ≤ n.toNat then pure (e.retireRegion e.s (e.told e.st))
        else
          let (id, s) := e.s.fresh
          let st := (e.offer e.st id [] []).tick 1
          pure (s.setStrand e.key { st.startRegion st.pc with life := .blocked (.groups n.toNat id) }))
      fun _ s => pure (e.retireRegion s e.st)

def execMxstat (d a : BitVec 7) (s : State) : Host.Outcome State Fault Refusal :=
  runLane s fun e => do
    e.exist [d.toNat, a.toNat]
    let v ← e.use a.toNat
    e.once (reqWords 0 [12, v.toNat])
      (fun e =>
        let x : Word := .ofNat 32 (e.wave.corr.toNat * 2 ^ 16 + min e.st.closed.length 8 * 2 ^ 12
          + e.st.openGroup.length * 2 ^ 6 + e.wave.mxFlags.toNat)
        let w := { e.wave with mxFlags := e.wave.mxFlags &&& ~~~(v.setWidth 5),
                               corr := if v.getLsbD 8 then 0 else e.wave.corr }
        pure (e.retireRegion (e.s.setWave e.waveKey w) (e.offer (e.put e.st d.toNat [(x, false)]) 0 [x] [false])))
      fun ws s => pure (e.retireRegion s (e.put e.st d.toNat ws))

/-! ### Chunk steps (R45 to R47) -/

/-- Splits a list in `k` parts of `n`. -/
def partsOf {α : Type} (n : Nat) : Nat → List α → List (List α)
  | 0, _ => []
  | k + 1, l => l.take n :: partsOf n k (l.drop n)

/-- Pairs of bytes, or bytes, as numbers. -/
def halfNumbers : List Byte → List Nat
  | a :: b :: l => (a.toNat + 256 * b.toNat) :: halfNumbers l
  | _ => []

def elementNumbers (size : Nat) (b : List Byte) : List Nat := if size = 2 then halfNumbers b else b.map (·.toNat)

/-- The columns of a matrix given by its rows of 64. -/
def columnsOf {α : Type} [Inhabited α] (rows : List (List α)) : List (List α) :=
  (List.range 64).map fun j => rows.map fun r => r.getD j default

/-- Applies a step to every element of a tile: rows of A, columns of B, the old elements. -/
def tileStep {α β : Type} (rows : List α) (cols : List β) (acc : List Word) (f : α → β → Word → Word × Flags) :
    List Word × Flags :=
  let l := (List.zip rows (partsOf 64 64 acc)).flatMap fun p => (List.zip cols p.2).map fun q => f p.1 q.1 q.2
  (l.map (·.1), l.foldl (fun a x => a ||| x.2) 0)

/-- R45. -/
def chunkFloat (type : Nat) (a b : List Byte) (acc : List Word) : List Word × Flags :=
  let F := mxFmt type
  let d := mxDepth type
  let dec := fun (l : List Byte) => (elementNumbers (mxSize type) l).map fun x => F.decode x
  let rows := partsOf d 64 (dec a)
  let brows := partsOf 64 d (dec b)
  let cols := (List.range 64).map fun j => brows.map fun r => r.getD j (.fin false 0 0)
  tileStep rows cols acc fun r c x =>
    let (y, f) := sumRule (some (Fmt.f32.decode x.toNat)) ((List.zip r c).map fun p => Term.of [p.1, p.2]) .f32 0 false
    (.ofNat 32 y, f)

/-- R47. -/
def chunkInt (a b : List Byte) (acc : List Word) : List Word × Flags :=
  let rows := partsOf 32 64 (a.map BitVec.toInt)
  let cols := columnsOf (partsOf 64 32 (b.map BitVec.toInt))
  tileStep rows cols acc fun r c x => (.ofInt 32 (x.toInt + ((List.zip r c).map fun p => p.1 * p.2).sum), 0)

/-- The nibbles of a block, low first (R36). -/
def nibbles (l : List Byte) : List Nat := l.flatMap fun b => [b.toNat % 16, b.toNat / 16]

/-- The contribution of R46: activations of a row, codes of a column, its block scale, the super-block scale. DEDUCED (log 31):
where S is a zero and t x s8 is not, which R46 does not list, the sign of the zero contribution is decided by the 64 terms as
for t x s8 = 0. -/
def nq4Contribution (row : List FVal) (codes : List Nat) (s8 : Nat) (S : FVal) : Term :=
  let pairs := List.zip row codes
  let t := exactSum (pairs.map fun p => FVal.mul p.1 (.fin (decide (8 ≤ p.2)) (nq4Magnitude p.2) 0))
  if row.any FVal.isNaN || S.isNaN then { value := .nan false, signalling := S.isSNaN, invalid := false }
  else
    let m := t.1 * s8
    match S with
    | .inf neg =>
      if m = 0 then { value := .nan false, signalling := false, invalid := true }
      else { value := .inf (neg != decide (m < 0)), signalling := false, invalid := false }
    | .fin neg q e =>
      if m = 0 ∨ q = 0 then
        let allNeg := pairs.all fun p => (p.1.neg != decide (8 ≤ p.2)) != neg
        { value := .fin allNeg 0 0, signalling := false, invalid := false }
      else { value := .fin (neg != decide (m < 0)) (q * m.natAbs) (e + t.2 - 24), signalling := false, invalid := false }
    | .nan sig => { value := .nan sig, signalling := sig, invalid := false }

/-- R46. -/
def chunkNq4 (a codes scales : List Byte) (S : FVal) (acc : List Word) : List Word × Flags :=
  let rows := partsOf 64 64 (a.map fun x => Fmt.e4m3.decode x.toNat)
  let cols := List.zip ((partsOf 32 64 codes).map nibbles) (scales.map (·.toNat))
  tileStep rows cols acc fun r c x =>
    let (y, f) := sumRule (some (Fmt.f32.decode x.toNat)) [nq4Contribution r c.1 c.2 S] .f32 0 false
    (.ofNat 32 y, f)

/-! ### The engine's turns -/

/-- What holds the engine at a chunk boundary (R227, R260, R261, R368, R369). -/
def State.engineHeld (s : State) (core : Nat) : Bool :=
  let b := s.activeBank core
  (s.core core).halted || !(s.core core).swaps.isEmpty || s.device.stopped || (s.die (coreDie core)).idle || s.strands.any fun p =>
    waveBank (strandWave p.1) = b && match p.2.handler with | some f => f.brk | none => false

/-- The B operand of a chunk: its bytes, for .nq4 with the block scales and the super-block scale, and its poison. -/
def Team.snapshotB (t : Team) (type : Nat) (h : HRec) (koff k c : Nat) : List Byte × List Byte × List Byte × Bool :=
  let d := mxDepth type
  if type = 5 then
    let nb := koff + k
    let b := 64 * (koff / 64 + c)
    let x := t.scratchRead (hBase0 h + 32 * b) 2048
    let y := t.scratchRead (hBase0 h + 32 * nb + b) 64
    let z := t.scratchRead (hBase0 h + 33 * nb + 4 * (b / 256)) 4
    (x.bytes, y.bytes, z.bytes, x.poisoned || y.poisoned || z.poisoned)
  else
    let x := t.scratchRead (hBase0 h + (koff + c * d) * 64 * mxSize type) (d * 64 * mxSize type)
    (x.bytes, [], [], x.poisoned)

/-- The latch that a command finds at a chunk (R219). -/
def Core.latchFor (c : Core) (bank type koff k chunk : Nat) (reuse : Bool) (hA : HRec) : Latch :=
  let fresh : Latch := { bank := bank, type := type, hA := hA, koff := koff, k := k, panels := [] }
  match c.latch with
  | some l =>
    if l.bank = bank && l.type = type && l.hA == hA && l.koff = koff && l.k = k && (reuse || chunk ≠ 0) then l else fresh
  | none => fresh

/-- One chunk of the MXMMA at the head of the active bank's queue (R218). -/
def State.mxChunk (s : State) (core : Nat) : Option State :=
  let b := s.activeBank core
  match (s.bank b).mxQueue with
  | [] => none
  | x :: rest =>
    match x.op, s.teams.find x.team with
    | .mma type reuse hA hB koff k, some team =>
      if s.engineHeld core then none
      else
        let c := s.core core
        let d := mxDepth type
        let n := x.progress
        let latch := c.latchFor b type koff k n reuse hA
        let can := reuse && decide (k ≤ mxLatchLimit type) && latch.panels.has n
        let (i, s) := if can then s.free else (0, s)
        let old := can && Config.freeChoice i
        let (a, pa) := if old then (latch.panels.get n [], false)
          else
            let x := team.scratchRead (hBase0 hA + (koff / d + n) * 64 * d * mxSize type) (64 * d * mxSize type)
            (x.bytes, x.poisoned)
        let (bb, scales, super, pb) := team.snapshotB type hB koff k n
        let dies := fun (code : Nat) => some ((s.modCore core fun c => { c with latch := none }).killTeam x.team code
          { ErrorRec.blank with core := core, lane := x.lane })
        if pa || pb then dies POISON
        else if 2 ≤ x.residue ∨ c.tileFaulty x.tile then dies MXCHK
        else
          let acc := c.tile x.tile
          let (out, fl) := match type with
            | 4 => chunkInt a bb acc
            | 5 => chunkNq4 a bb scales (Fmt.f32.decode (fromBytes super)) acc
            | _ => chunkFloat type a bb acc
          let s := s.setCore core { c.setTile x.tile out with
            latch := some { latch with panels := latch.panels.set n a } }
          let s := s.modWave x.wave fun w =>
            { w with mxFlags := w.mxFlags ||| (fl &&& 0x17),
                     corr := if x.residue = 1 ∧ w.corr ≠ 255 then w.corr + 1 else w.corr }
          some (s.modBank b fun y =>
            { y with mxQueue := if (n + 1) * d = k then rest else { x with progress := n + 1, residue := 0 } :: rest })
    | _, _ => none

def execMxChunk (core : Nat) (s : State) : Host.Outcome State Fault Refusal := eventStep s fun s => s.mxChunk core

/-- One row of a tile as bytes. -/
def rowBytes (tile : List Word) (r : Nat) : List Byte := ((tile.drop (64 * r)).take 64).flatMap fun w => toBytes 4 w.toNat

/-- The lanes of an MXRD or MXWR entry in order (R224). -/
def State.mxLanes (s : State) (core id : Nat) : List MxLane → State
  | [] => s
  | l :: rest =>
    let c := s.core core
    let s := match l.word with
      | some x => s.setCore core (c.setElement l.tile l.element x)
      | none =>
        let x := c.tiles.get (4096 * l.tile + l.element) 0
        s.deliver l.strand id l.d [(x, false)]
    s.mxLanes core id rest

/-- The lanes of an issue in progress are still entering the command (R224). -/
def State.entering (s : State) (core : Nat) (x : MxEntry) : Bool :=
  s.issue.any fun i => decide (coreCluster i.core = coreCluster core) && i.wave = x.wave && x.issue = some i.number

/-- MXZ, MXST, MXRD and MXWR at their turn (R223, R224): of an MXST the next row, each row being an access of its own. DESIGN CHOICE
(log 32): an MXST stops between two rows as an MXMMA does between two chunks, and keeps its row (R227 speaks of chunks). -/
def State.mxCommand (s : State) (core : Nat) : Option State :=
  let b := s.activeBank core
  match (s.bank b).mxQueue with
  | [] => none
  | x :: rest =>
    if s.engineHeld core || s.entering core x then none
    else
      let c := s.core core
      let dies := fun (_ : Unit) => some ((s.modCore core fun c => { c with latch := none }).killTeam x.team MXCHK
        { ErrorRec.blank with core := core, lane := x.lane })
      let done := fun (s : State) =>
        (s.modCore core fun c => { c with latch := none }).modBank b fun y => { y with mxQueue := rest }
      match x.op with
      | .mma .. => none
      | .zero => some (done (s.setCore core { c.setTile x.tile [] with
          tileBad := c.tileBad.filter fun p => p / 2048 ≠ x.tile }))
      | .store h row rows =>
        if c.rowFaulty x.tile (row + x.progress) then dies ()
        else
          let s := s.scratchWrite x.team (hBase0 h + 256 * x.progress) (clean (rowBytes (c.tile x.tile) (row + x.progress)))
          some (if x.progress + 1 < rows then
              s.modBank b fun y => { y with mxQueue := { x with progress := x.progress + 1 } :: rest }
            else done s)
      | .access lanes =>
        if lanes.any fun l => l.word.isNone && c.tileBad.contains ((4096 * l.tile + l.element) / 2) then
          dies ()
        else some (done (s.mxLanes core x.id lanes))

def execMxCommandComplete (core : Nat) (s : State) : Host.Outcome State Fault Refusal :=
  eventStep s fun s => s.mxCommand core

/-- A closed group all of whose commands have left the queue is outstanding no more; MXWAIT may end (R220, R222). -/
def State.groupDone (s : State) (k group : Nat) : Option State :=
  match s.strands.find k with
  | none => none
  | some st =>
    match st.closed.find? (·.number = group) with
    | none => none
    | some g =>
      if g.commands.any fun id => (s.bank (s.engineBank k)).mxQueue.any (·.id = id) then none
      else
        let st := { st with closed := st.closed.filter (·.number ≠ group) }
        let s := s.wake (strandCore k)
        match st.life with
        | .blocked (.groups n id) =>
          if st.closed.length ≤ n then
            some ((s.setStrand k { st with life := .ready, wait := 0 }).deliver k id 0 [])
          else some (s.setStrand k st)
        | .blocked .sleep => some (s.modStrand k fun (x : Strand) => { x with closed := st.closed })
        | _ => some (s.setStrand k st)

def execMxGroupComplete (strand group : Nat) (s : State) : Host.Outcome State Fault Refusal :=
  eventStep s fun s => s.groupDone strand group

/-- The watchdog resets the engine (R229, R230). -/
def State.mxReset (s : State) (core : Nat) : Option State :=
  let c := s.core core
  if !c.mxwd.getLsbD 31 || (s.bank (s.activeBank core)).mxQueue.isEmpty || s.engineHeld core then none
  else
    let banks := [bankNo core 0, bankNo core 1]
    let queued := banks.flatMap fun b => (s.bank b).mxQueue.map (·.team)
    let dead := (s.teams.filter fun p =>
      banks.contains p.2.bank && !p.2.waiting && (!p.2.tiles.isEmpty || queued.contains p.1)).map (·.1)
    let s := banks.foldl (fun s b => s.modBank b fun y => { y with mxQueue := [] }) s
    let s := s.setCore core { c with latch := none, tiles := [], tileBad := [] }
    some (dead.foldl (fun s t => s.killTeam t MXRESET { ErrorRec.blank with core := core }) s)

def execMxwdFire (core : Nat) (s : State) : Host.Outcome State Fault Refusal := eventStep s fun s => s.mxReset core

end Sys2Proof.Machine
end

