-- ==== Sys2Proof/Machine/Cpe.lean ====
section
/-!
DEFINITION. The copy engine (R292 to R309): CPY, TCPY and CHAIN with their checks and their landing, the tags and their waits, and
copy faults.
-/

namespace Sys2Proof.Machine

/-! ### The elements of CHAIN (R300) -/

/-- The integer code of a CHAIN type that is an integer: s8 or s32. -/
def chainInt (t : Nat) : Nat := if t = 5 then 0 else 2

/-- One operation on the working value: its result and flags; an integer CVT leaves the integer. `code` is the NQ4 code
with its block scale and super-block scale, `factor` the factor of SCALE. -/
def chainStep (op : Nat × Nat × Word × Word) (w : Word) (code s8 : Nat) (scale factor : Word) : Word × Flags :=
  let (opc, ctl, s1, s2) := op
  let mode := ctl % 4
  let sat := decide (ctl / 4 % 2 = 1)
  let tgt := ctl / 16 % 8
  let v := f32v w
  let out := fun (r : Nat × Flags) => ((.ofNat 32 r.1 : Word), r.2)
  match opc with
  | 0 =>
    if 5 ≤ tgt then convF2I (chainInt tgt) .f32 mode w.toNat
    else
      let (r, fl) := convF2F (Fmt.ofCode tgt) .f32 mode sat w.toNat
      let (r2, fl2) := convF2F .f32 (Fmt.ofCode tgt) 0 false r
      (.ofNat 32 r2, fl ||| fl2)
  | 1 => out (sumRule none [term [v, f32v s1]] .f32 mode sat)
  | 2 => out (sumRule (some v) [term [f32v s1]] .f32 mode sat)
  | 3 => out (sumRule (some (f32v s2)) [term [v, f32v s1]] .f32 mode sat)
  | 4 =>
    if v.isNaN then (.ofNat 32 Fmt.f32.canonicalNaN, 0)
    else
      let (a, fa) := minMax .f32 true s1.toNat w.toNat
      let (b, fb) := minMax .f32 false a s2.toNat
      (.ofNat 32 b, fa ||| fb)
  | 5 =>
    if v.isNaN then (.ofNat 32 Fmt.f32.canonicalNaN, 0) else (if w.msb then 0 else w, 0)
  | 6 => out ((nq4Term code s8 (f32v scale)).round .f32 mode sat)
  | _ => out (sumRule none [term [v, f32v factor]] .f32 mode sat)

/-- The working value of a source element (R300). -/
def chainStart (st x : Nat) : Word × Flags :=
  if st = 7 then (0, 0)
  else
    let (r, fl) := if 5 ≤ st then convI2F 0 (chainInt st) 0 false x else convF2F .f32 (Fmt.ofCode st) 0 false x
    (.ofNat 32 r, fl)

/-- The bytes of the result: a last CVT to DTYPE has left the value exact in f32, so that its narrowing is exact. DEDUCED
(log 45): with DTYPE f32 a last CVT to an integer type leaves the integer's word. -/
def chainBytes (dt : Nat) (w : Word) : List Byte :=
  if dt = 0 ∨ dt = 6 then toBytes 4 w.toNat
  else if dt = 5 then toBytes 1 w.toNat
  else toBytes (chainSize dt) (convF2F (Fmt.ofCode dt) .f32 0 false w.toNat).1

/-! ### Reading a block -/

/-- The destination of a piece: none in scratch, else its physical address (R377). -/
def State.copyTo (s : State) (c : Copy) (va : Nat) : Act (Option Nat) :=
  if hKind c.hd = kLocal then .ok none
  else do
    let (pa, level, vmid) ← s.copyAddress c va 1 kCopyWrite
    if isWindow pa then
      match ← s.windowByte c pa with
      | some _ => .ok (some pa)
      | none => .error (.park XLATE va kCopyWrite 1 1 level 0 vmid)
    else .ok (some pa)

/-- A read of the engine for the issuing strand (R304, R307). `toWindow` says that the bytes go to a network window. A request that
leaves the engine now comes behind every one that stands at the line's slice (R318). -/
def State.copyFrom (s : State) (c : Copy) (va n : Nat) (isLocal toWindow : Bool) : Act (Marked × State) :=
  if isLocal then .ok (s.scratchRead c.team va n, s)
  else do
    let (pa, level, vmid) ← s.copyAddress c va 0 kCopyRead
    if isWindow pa then
      match ← s.windowByte c pa with
      | some r =>
        if toWindow then .error (.park XLATE va kCopyRead 1 1 level 0 vmid)
        else
          let (k, s) := s.free
          .ok (clean ((span r n).map fun a => Config.remoteByte (windowOf pa) a k), s)
      | none => .error (.park XLATE va kCopyRead 1 1 level 0 vmid)
    else
      let core := strandCore c.strand
      let held := s.ownedBefore (lineOf pa) c.id || s.olderAtSlice pa s.nextId
      match s.readFor held c.strand (l1Core core (s.fusedOf (s.gridOf c.strand)) va) pa n 0 c.pol (s.die (coreDie core)).clock c.id with
      | some (b, p, s) => .ok (b.map fun x => (x, p), s)
      | none => .error .hold

/-- What a piece brings: its destination bytes with their poison, and the flags of CHAIN. -/
structure Brought where
  bytes : Marked
  flags : Flags

/-- The operations of CHAIN on element k (R300). -/
def State.chainElement (s : State) (c : Copy) (src k st dt : Nat) (ops : List (Nat × Nat × Word × Word)) (input : Marked) :
    Act (Brought × State) := do
  let x := fromBytes input.bytes
  let b := (src + k) / 64
  let (s8, s) ← if st = 7 then s.copyFrom c ((hBase1 c.hs + b) % 2 ^ 57) 1 false false else .ok ([], s)
  let (sc, s) ← if st = 7 then s.copyFrom c ((hBase2 c.hs + 4 * (b / 256)) % 2 ^ 57) 4 false false else .ok ([], s)
  let factor := fun (op : Nat × Nat × Word × Word) =>
    if op.1 = 7 then s.scratchRead c.team (op.2.2.1.toNat + 4 * (k / op.2.2.2.toNat)) 4 else []
  let (w, fl) := ops.foldl (fun r op =>
    let y := chainStep op r.1 (x / 16 ^ ((src + k) % 2) % 16) (fromBytes s8.bytes) (.ofNat 32 (fromBytes sc.bytes))
      (.ofNat 32 (fromBytes (factor op).bytes))
    (y.1, r.2 ||| y.2)) (chainStart st x)
  let poison := input.poisoned || s8.poisoned || sc.poisoned || ops.any fun op => (factor op).poisoned
  pure (⟨(chainBytes dt w).map fun y => (y, poison), fl &&& ~~~fDZ⟩, s)

/-- Reads the pieces of a block, in order. -/
def State.copyRead (s : State) (c : Copy) : List (Piece × Bool) → Act (List Brought × State)
  | [] => .ok ([], s)
  | (p, toWindow) :: l => do
    let (b, s) ← s.copyFrom c p.src p.sn (hKind c.hs = kLocal) toWindow
    let (x, s) ← match c.op with
      | .chain src _ _ st dt ops => s.chainElement c src p.k st dt ops b
      | _ => .ok (⟨b, 0⟩, s)
    let (rest, s) ← s.copyRead c l
    pure (x :: rest, s)

/-- A destination byte of a block: its source address where it is copied unchanged, its address, the byte, its poison. -/
abbrev CopyByte := Nat × Nat × Byte × Bool

/-- In an overlapping linear copy each byte whose source byte the copy has already written is the old or the new one
(R296), as the free values from `n` on have it (log 12). -/
def forwarded : Nat → Tbl (Byte × Bool) → List CopyByte → List CopyByte
  | _, _, [] => []
  | n, done, (a, d, b, p) :: l =>
    let x := match done.find a with
      | some y => if Config.freeChoice n then y else (b, p)
      | none => (b, p)
    (a, d, x.1, x.2) :: forwarded (n + 1) (done.set d x) l

/-- The bytes of a linear block, in the order that a free value gives them. -/
def State.overlapped (s : State) (c : Copy) (l : List CopyByte) : List CopyByte × State :=
  match c.op with
  | .linear .. =>
    if decide ((hKind c.hs = kLocal) ↔ (hKind c.hd = kLocal)) && l.any fun x => l.any fun y => x.1 = y.2.1 then
      let n := s.freeCount
      let t := { s with freeCount := n + l.length + 1 }
      (if Config.freeChoice n then forwarded (n + 1) [] l else (forwarded (n + 1) [] l.reverse).reverse, t)
    else (l, s)
  | _ => (l, s)

/-! ### Writing a block -/

/-- Joins bytes that follow one another within one word. -/
def wordRuns : List (Nat × Byte × Bool) → List (List (Nat × Byte × Bool))
  | [] => []
  | x :: l =>
    match wordRuns l with
    | (y :: r) :: rest => if x.1 + 1 = y.1 ∧ x.1 / 4 = y.1 / 4 then (x :: y :: r) :: rest else [x] :: (y :: r) :: rest
    | rest => [x] :: rest

def State.landLocal (s : State) (team : Nat) (l : List (Nat × Byte × Bool)) : State :=
  (wordRuns l).foldl (fun s r =>
    match r with
    | [] => s
    | (a, _) :: _ => s.scratchWrite team a (r.map (·.2))) s

/-- Bytes of an owned line that are still to land. -/
def disown (l : List (Nat × Nat)) (line n : Nat) : List (Nat × Nat) :=
  (l.map fun p => if p.1 = line then (p.1, p.2 - n) else p).filter fun p => p.2 ≠ 0

/-- A later tuple that names the same element has landed (R298). -/
def Copy.overwritten (c : Copy) (block : Nat) (p : Piece) : Bool :=
  match c.op with
  | .tensor .. => (c.landed.filter (block < ·)).any fun b => (c.pieces b).any fun q => q.dst = p.dst
  | _ => false

/-! ### Tags (R301 to R303) -/

def Bank.tag (b : Bank) (n : Nat) : CopyTag := b.tags.get n CopyTag.off
def State.setTag (s : State) (b n : Nat) (t : CopyTag) : State := s.modBank b fun x => { x with tags := x.tags.set n t }

/-- The READY bits of a team's tags (R303). -/
def State.readyBits (s : State) (t : Team) : Nat :=
  (t.tags.zipIdx.map fun p => if ((s.bank t.bank).tag p.1).ready then 2 ^ p.2 else 0).sum

/-- Whether the ready tags of a mask end a wait. -/
def tagsEnd (mask got : Nat) (all : Bool) : Bool := mask = 0 || (if all then got = mask else got ≠ 0)

/-- The strands of a team whose TAGWAIT has ended go on (R303). -/
def State.wakeTags (s : State) (team : Nat) : State :=
  match s.teams.find team with
  | none => s
  | some t =>
    let bits := s.readyBits t
    (s.strandsOf t.waves).foldl (fun s k =>
      match s.strands.find k with
      | some st =>
        (match st.life with
        | .blocked (.tags mask all a id) =>
          if tagsEnd mask (mask &&& bits) all then
            let x := mask &&& bits
            let s := s.deliver k id a [(.ofNat 32 x, false), (.ofNat 32 (x / 2 ^ 32), false)]
            (s.modStrand k fun st => { st with life := .ready, wait := 0 }).wake (strandCore k)
          else s
        | _ => s)
      | none => s) (s.wake (bankCore t.bank))

/-- Arms a tag with a count (R301). -/
def CopyTag.arm (n : Word) : CopyTag :=
  { expected := n, remaining := n, armed := decide (n ≠ 0), ready := decide (n = 0), flags := 0 }

/-- Landing bytes count a tag down (R302). -/
def State.tagCount (s : State) (b : Nat) (c : Copy) (n : Nat) (flags : Flags) : State :=
  let t := (s.bank b).tag c.tag
  if t.armed = false ∨ t.remaining.toNat < n then
    s.killTeam c.team TAGOVER (laneError s c.strand 0)
  else
    let left := t.remaining - .ofNat 32 n
    let s := s.setTag b c.tag { t with remaining := left, flags := t.flags ||| flags, ready := decide (left = 0),
                                       armed := decide (left ≠ 0) }
    if left = 0 then s.wakeTags c.team else s

/-! ### Landing (R302, R304 to R307) -/

/-- The bank and the copy of a number. -/
def State.findCopy (s : State) (id : Nat) : Option (Nat × Copy) :=
  s.banks.findSome? fun p => (p.2.copies.find? (·.id = id)).map fun c => (p.1, c)

/-- Copies that name one window land in issue order, behind one that has stopped too (R377). -/
def State.postedBefore (s : State) (c : Copy) : Bool :=
  s.banks.any fun p => p.2.copies.any fun d => d.id < c.id && d.windows.any fun w => c.windows.contains w

/-- In a redundant grid a block whose CRC-32C has failed twice is written poisoned; after one failure it has been written again
and is right (R307). -/
def State.crcFailed (s : State) (c : Copy) : Bool :=
  decide (2 ≤ c.crc) && ((s.teams.find c.team).map fun (t : Team) => t.redundant).getD false

/-- The write of a block to one line of memory leaves the engine, stamped where another die is the line's home (R354). -/
def State.leaveFor (s : State) (c : Copy) (block line : Nat) (cells : List Host.Cell) (count : Nat) (flags : Flags) (bad : Bool) :
    CopyWrite × State :=
  let die := coreDie (strandCore c.strand)
  let (stamp, s) : Option (List Nat) × State :=
    match homeDie (line * 256) with
    | some h => if h = die ∨ cells = [] then (none, s) else let (v, s) := s.stampWrite die; (some v, s)
    | none => (none, s)
  ({ block := block, line := line, cells := cells, count := count, flags := flags, bad := bad, stamp := stamp }, s)

/-- What a block that has been read becomes: bytes that have landed in scratch or behind a window, and writes that have left, in the
order of its lines. -/
structure Landing where
  landed : Nat
  flags : Flags
  writes : List CopyWrite

/-- One block of a copy, read, and written into scratch or sent to its lines (R302, R304, R307). -/
def State.landBlock (s : State) (c : Copy) (block : Nat) : Act (State × Landing) := do
  require (!s.postedBefore c && !s.awaits c.after false) .hold
  let pieces := c.pieces block
  let dsts ← pieces.mapM fun p => s.copyTo c p.dst
  let inWindow := fun (d : Option Nat) => match d with | some pa => isWindow pa | none => false
  let (got, s) ← s.copyRead c (pieces.zip (dsts.map inWindow))
  let parts := (pieces.zip (dsts.zip got)).filter fun x => !c.overwritten block x.1
  let bytes : List CopyByte := parts.flatMap fun x =>
    x.2.2.bytes.zipIdx.map fun b => (x.1.src + b.2, x.1.dst + b.2, b.1.1, b.1.2)
  let place := fun (v : Nat) => (parts.findSome? fun x =>
    if x.1.dst ≤ v ∧ v < x.1.dst + x.1.dn then (x.2.1).map fun pa => pa + (v - x.1.dst) else none).getD v
  let (bytes, s) := s.overlapped c bytes
  let flags := got.foldl (fun f (x : Brought) => f ||| x.flags) 0
  let bad := s.crcFailed c
  if hKind c.hd = kLocal then
    pure (s.landLocal c.team (bytes.map fun b => (b.2.1, b.2.2.1, b.2.2.2 || bad)), ⟨(pieces.map (·.dn)).sum, flags, []⟩)
  else
    require (!(bytes.any (·.2.2.2))) .poison
    let counts := ((pieces.zip dsts).filterMap fun x => x.2.map fun pa => (pa, x.1.dn))
    let memory := (counts.filter fun x => !isWindow x.1).foldl (fun l x => own l (lineOf x.1) x.2) []
    let cells : List Host.Cell := (bytes.map fun b => (place b.2.1, b.2.2.1)).filter fun x => !isWindow x.1
    let (writes, s) := memory.foldl (fun (acc : List CopyWrite × State) l =>
      let (w, t) := acc.2.leaveFor c block l.1 (cells.filter fun x => lineOf x.1 = l.1) l.2 (if acc.1 = [] then flags else 0) bad
      (acc.1 ++ [w], t)) ([], s)
    pure (s, ⟨((counts.filter fun x => isWindow x.1).map (·.2)).sum, if writes = [] then flags else 0, writes⟩)

/-- A write of a copy at its line's ordering point (R302, R309, R354, R374): after the earlier copies that own the line, the older
writes of the own cores, and the copy's own earlier ones; and behind what stands at the slice (R318). A write to a peer whose link is
down is lost. -/
def State.performWrite (s : State) (c : Copy) (w : CopyWrite) : Option State :=
  let core := strandCore c.strand
  let pa := w.line * 256
  if s.ownedBefore w.line c.id || (c.writes.takeWhile (· ≠ w)).any (fun x => x.line = w.line) || s.olderAtSlice pa s.nextId
      || s.flights.any (fun f => f.line = w.line && f.id < c.id && (s.l1Of c.strand).contains f.core) then none
  else
    let t := s.noteRequest pa (coreCluster core)
    let done := match homeDie pa with
      | none => some (if s.linkLost pa then t else ((t.countSent pa).performNow c.id w.cells).joinHost (coreDie core))
      | some h =>
        match w.stamp with
        | none => some (t.performNow c.id w.cells)
        | some v => if applicable (t.die h).clock v (coreDie core) then some (t.performAt c.id h (coreDie core) v w.cells) else none
    done.map fun t => if w.bad then w.cells.foldl (fun s x => s.poisonSector x.1) t else t

/-- Lines and windows of a block that have a translation now and that the copy has not: the engine takes them before it lands there
(R305, R377). -/
def State.unowned (s : State) (c : Copy) (block : Nat) : Bool :=
  let missing := fun (pa : Nat) => if isWindow pa then !c.windows.contains (windowOf pa) else false
  (c.pieces block).any fun p =>
    (hKind c.hd ≠ kLocal && match s.copyAddress c p.dst 1 kCopyWrite with
      | .ok (pa, _) => missing pa || (!isWindow pa && !c.owns (lineOf pa))
      | .error _ => false)
    || (hKind c.hs ≠ kLocal && match s.copyAddress c p.src 0 kCopyRead with
      | .ok (pa, _) => missing pa
      | .error _ => false)

/-- A translation fault stops the copy at its line and sends one record (R307, R326). -/
def State.copyFault (s : State) (b : Nat) (c : Copy) (va kind reason stage level ipa vmid : Nat) : State :=
  let line := va / 256 * 256
  let grid := s.gridOf c.strand
  let s := s.changeCopy b c.id fun c => { c with stopped := some line, retry := false }
  let bytes := faultBytes 0 kind reason stage level (s.gridLevel grid) (s.gridAsid grid) vmid line
    (if stage = 2 then ipa / 256 * 256 else 0) 0
  match s.sendFault (coreCluster (strandCore c.strand)) ⟨bytes, stage = 2⟩ with
  | some s => s
  | none => s.abortGrid grid XLATE { laneError s c.strand line with team := c.team }

/-- A copy all of whose blocks and writes have landed leaves its queue. -/
def State.finishCopy (s : State) (b id : Nat) : State :=
  s.modBank b fun x => { x with copies := x.copies.filter fun c => !(c.id = id && c.landed.length = c.blocks && c.writes.isEmpty) }

/-- Bytes of a copy have landed: they leave its lines, and count. -/
def State.landBytes (s : State) (b : Nat) (c : Copy) (line n : Nat) (flags : Flags) : State :=
  let s := (s.changeCopy b c.id fun c => { c with owned := disown c.owned line n }).finishCopy b c.id
  if n = 0 then s else s.tagCount b c n flags

/-- A write of a copy is performed, and its bytes count (R302). -/
def State.landWrite (s : State) (b : Nat) (c : Copy) (w : CopyWrite) : Option State :=
  (s.performWrite c w).map fun t =>
    (t.changeCopy b c.id fun c => { c with writes := c.writes.erase w }).landBytes b c w.line w.count w.flags

/-- Performs the writes of a copy that can be, in order. -/
def State.landWrites (s : State) (b id : Nat) : List CopyWrite → State
  | [] => s
  | w :: l =>
    match (s.bank b).copies.find? (·.id = id) with
    | none => s
    | some c => ((s.landWrite b c w).getD s).landWrites b id l

/-- Whether a core's engines take nothing further (R260, R368, R369). -/
def State.engineStopped (s : State) (core : Nat) : Bool :=
  s.device.stopped || (s.core core).halted || (s.die (coreDie core)).idle

/-- COPY_LAND for one block: it is read and its writes leave, or the next write of it that has left is performed. At most 16 copies
of a core run at once (R292). -/
def State.copyLand (s : State) (b : Nat) (c : Copy) (block : Nat) : Option State :=
  let core := bankCore b
  let running := (s.banks.filter fun p => bankCore p.1 = core).flatMap fun p => p.2.copies.filter fun d => d.landed ≠ []
  if c.landed.contains block then
    (c.writes.filter fun w => w.block = block).findSome? fun w => s.landWrite b c w
  else if s.engineStopped core || c.stopped.isSome || decide (c.blocks ≤ block)
      || (c.landed.isEmpty && decide (16 ≤ running.length)) then none
  else if s.unowned c block then some (s.ownLines b c)
  else match s.landBlock c block with
    | .ok (t, l) =>
      let t := t.changeCopy b c.id fun c => { c with landed := block :: c.landed, crc := 0, writes := c.writes ++ l.writes }
      some ((t.landBytes b c 0 l.landed l.flags).landWrites b c.id l.writes)
    | .error .poison => some (s.killTeam c.team POISON (laneError s c.strand 0))
    | .error .walkErr => some (s.walkError (s.asidOf c.strand) (laneError s c.strand 0))
    | .error (.park _ va kind reason stage level ipa vmid) => some (s.copyFault b c va kind reason stage level ipa vmid)
    | .error (.walk va) => s.askWalk (.copy c.id) core (s.asidOf c.strand) va
    | .error _ => none

/-- COPY_LAND (R302). -/
def execCopyLand (id block : Nat) (s : State) : Host.Outcome State Fault Refusal :=
  eventStep s fun s => do
    let (b, c) ← s.findCopy id
    s.copyLand b c block

/-- COPY_RETRY (R307): after a TLBINV has completed, the translation is tried again, and the lines that translate now are
taken (R305). -/
def execCopyRetry (id : Nat) (s : State) : Host.Outcome State Fault Refusal :=
  eventStep s fun s => do
    let (b, c) ← s.findCopy id
    if c.stopped.isSome && c.retry && !s.engineStopped (bankCore b) then
      some ((s.changeCopy b id fun c => { c with stopped := none, retry := false }).ownLines b c)
    else none

/-- A block that has bytes of a physical line still to land. -/
def State.touches (s : State) (c : Copy) (line block : Nat) : Bool :=
  if c.landed.contains block then c.writes.any fun w => w.block = block && w.line = line
  else (c.pieces block).any fun p => match s.copyTo c p.dst with | .ok (some pa) => lineOf pa = line | _ => false

/-- DIRECTORY_RECALL (R305): the engine finishes a line that an access waits for; the oldest owner lands the next block
that has bytes of it. -/
def execDirectoryRecall (line : Nat) (s : State) : Host.Outcome State Fault Refusal :=
  eventStep s fun s => do
    let owners := s.banks.flatMap fun p => (p.2.copies.filter (·.owns line)).map fun c => (p.1, c)
    let (b, c) ← owners.find? fun x => owners.all fun y => decide (x.2.id ≤ y.2.id)
    let block ← (List.range c.blocks).find? fun k => s.touches c line k
    s.copyLand b c block

/-! ### CPY, TCPY and CHAIN (R294 to R300) -/

/-- The bank tag that a team tag names (R293, R294). -/
def Env.tagNo (e : Env) (n : Nat) : Act Nat :=
  match e.team.bind fun t => t.tags[n]? with
  | some k => .ok k
  | none => illop

def copyHandle (h : HRec) : Bool := hKind h ≠ kArea && hStride h = 1 && hSwz h = 0

/-- Bytes lo to hi - 1 of a handle lie in its extent and in the scratch grant (R295). -/
def copyFits (h : HRec) (lo hi : Int) (grant : Nat) : Bool :=
  decide (0 ≤ lo ∧ hi ≤ hExtent h * hEsize h ∧ (hKind h = kLocal → (hBase0 h : Int) + hi ≤ grant))

/-- A descriptor in scratch (R295). -/
def Env.descriptor (e : Env) (off n : Nat) : Act Marked := do
  require (decide (off % 16 = 0 ∧ off + n ≤ e.scratchGrant)) (.fault OOR 0 0)
  pure (e.s.scratchRead e.wave.team off n)

def bytesAt (b : List Byte) (off n : Nat) : Nat := fromBytes ((b.drop off).take n)
def intAt (b : List Byte) (off : Nat) : Int := (BitVec.ofNat 32 (bytesAt b off 4)).toInt

/-- The extreme corners of a tensor on one side, as element numbers (R298). -/
def corners (start : Nat) (sizes : List Nat) (strides : List Int) : Int × Int :=
  let step := (sizes.zip strides).map fun p => ((p.1 : Int) - 1) * p.2
  (start + (step.map fun x => min 0 x).sum, start + (step.map fun x => max 0 x).sum)

def linearOp (hs hd : HRec) (x y z : Word) (grant : Nat) : Act CopyOp := do
  let src := x.toNat * hEsize hs
  let dst := y.toNat * hEsize hd
  let n := z.toNat
  require (decide (1 ≤ n ∧ n % hEsize hs = 0 ∧ n % hEsize hd = 0) && copyFits hs src (src + n) grant
    && copyFits hd dst (dst + n) grant) (.fault OOR 0 0)
  pure (.linear src dst n)

/-- TCPY's descriptor and its limits (R297, R298). -/
def tensorOp (b : List Byte) (hs hd : HRec) (x y : Word) (grant : Nat) : Act CopyOp := do
  let ndim := bytesAt b 0 1
  let code := bytesAt b 1 1
  let sizes := (List.range 8).map fun k => bytesAt b (8 + 4 * k) 4
  let ss := (List.range 8).map fun k => intAt b (40 + 4 * k)
  let ds := (List.range 8).map fun k => intAt b (72 + 4 * k)
  let size : Int := hEsize hd
  let (lo, hi) := corners x.toNat sizes ss
  let (lo', hi') := corners y.toNat sizes ds
  require (decide (1 ≤ ndim ∧ ndim ≤ 8 ∧ code = hEsizeCode hs ∧ code = hEsizeCode hd ∧ bytesAt b 2 6 = 0 ∧
      bytesAt b 104 24 = 0 ∧ (sizes.all fun n => 1 ≤ n) ∧ ((sizes.drop ndim).all fun n => n = 1))
    && copyFits hs (lo * size) ((hi + 1) * size) grant && copyFits hd (lo' * size) ((hi' + 1) * size) grant)
    (.fault OOR 0 0)
  pure (.tensor x.toNat y.toNat sizes ss ds)

/-- The rules of one CHAIN operation (R299, R300). -/
def chainOpOk (op : Nat × Nat × Word × Word) (idx nops count st dt grant : Nat) : Bool :=
  let (opc, ctl, s1, s2) := op
  let tgt := ctl / 16 % 8
  let last := idx + 1 = nops
  decide (opc ≤ 7 ∧ ctl < 128 ∧ tgt ≤ 6)
    && decide ((opc = 6) ↔ (idx = 0 ∧ st = 7))
    && !(opc = 0 && decide (5 ≤ tgt) && (!last || decide (ctl / 4 % 2 = 1)))
    && !(opc = 4 && !(f32v s1).isNaN && !(f32v s2).isNaN && (f32v s2).lt (f32v s1))
    && !(opc = 7 && (s2 = 0 || decide (grant < s1.toNat + 4 * ((count - 1) / s2.toNat + 1))))
    && (!last || dt = 0 || (opc = 0 && tgt = dt))

/-- CHAIN's descriptor and its limits (R299, R300). -/
def chainOp (b : List Byte) (hs hd : HRec) (x y : Word) (grant : Nat) : Act CopyOp := do
  let count := bytesAt b 0 4
  let nops := bytesAt b 4 1
  let st := bytesAt b 5 1
  let dt := bytesAt b 6 1
  let ops := (List.range (min nops 8)).map fun m =>
    (bytesAt b (32 + 16 * m) 1, bytesAt b (33 + 16 * m) 1, (.ofNat 32 (bytesAt b (36 + 16 * m) 4) : Word),
      (.ofNat 32 (bytesAt b (40 + 16 * m) 4) : Word))
  require (decide (1 ≤ count ∧ count ≤ 2 ^ 24 ∧ 1 ≤ nops ∧ nops ≤ 8 ∧ st ≤ 7 ∧ dt ≤ 6 ∧ bytesAt b 7 25 = 0)
    && ((List.range 8).all fun m =>
      if m < nops then bytesAt b (34 + 16 * m) 2 = 0 && bytesAt b (44 + 16 * m) 4 = 0 else bytesAt b (32 + 16 * m) 16 = 0)
    && (if st = 7 then hEsize hs = 1 && hKind hs = kQuant && x.toNat % 2 = 0 else hEsize hs = chainSize st)
    && hEsize hd = chainSize dt
    && (ops.zipIdx.all fun p => chainOpOk p.1 p.2 nops count st dt grant)) (.fault OOR 0 0)
  let lo := if st = 7 then x.toNat / 2 else x.toNat * chainSize st
  let hi := if st = 7 then (x.toNat + count - 1) / 2 + 1 else (x.toNat + count) * chainSize st
  require (copyFits hs lo hi grant && copyFits hd (y.toNat * chainSize dt) ((y.toNat + count) * chainSize dt) grant)
    (.fault OOR 0 0)
  pure (.chain x.toNat y.toNat count st dt ops)

/-- Enters a copy: the implicit arm, the queue entry, and for a global destination the commit point and the ownership of
its lines (R290, R291, R292, R301, R305). The copy's accesses come after the writes of the commit. -/
def Env.enterCopy (e : Env) (op : CopyOp) (hs hd : HRec) (tag : Nat) (arm : Bool) : Act State := do
  let isLocal := hKind hd = kLocal
  require (e.s.storesOf e.key = [] && (isLocal || !e.s.readsOutstanding e.key)) .hold
  let s ← if isLocal then .ok e.s else e.commitPoint e.s
  let s := if !isLocal && e.isContained then s.expose e.wave.team else s
  let blank : Copy := { id := 0, op := op, hs := hs, hd := hd, tag := tag, team := e.wave.team, strand := e.key, pol := e.policy hs
                        landed := [], blocks := op.blocks hd, owned := [], unplaced := [], writes := [], stopped := none
                        retry := false, windows := []
                        after := if !isLocal && e.isContained then s.flightsOf e.cores else [], crc := 0 }
  let l := s.copyLines blank
  let s := l.lines.foldl (fun s x => s.takeLine e.cores x.1) s
  let (id, s) := s.fresh
  let c := { blank with id := id, owned := l.lines, unplaced := l.unplaced, windows := l.windows }
  let s := s.modBank e.engine fun b => { b with copies := b.copies ++ [c] }
  let s := if arm then (s.setTag e.engine tag (CopyTag.arm (.ofNat 32 (op.bytes hd)))) else s
  pure (e.retireRegion s (e.told e.st))

/-- A copy is checked in the order of R128 and R250: what makes it illegal, then its bounds and its descriptor, and the poison
of the triple and of the descriptor last (R295). -/
def copy (s : State) (kind : Nat) (g : BitVec 6) (d h : BitVec 4) (a : BitVec 7) (m : BitVec 1) :
    Host.Outcome State Fault Refusal :=
  runLane s fun e => do
    require (decide ((e.s.bank e.engine).copies.length < Config.copyQueue)) .hold
    e.exist [a.toNat, a.toNat + 1, a.toNat + 2]
    let tag ← e.tagNo g.toNat
    let hd ← e.hReg d.toNat
    let hs ← e.hReg h.toNat
    require (copyHandle hd && copyHandle hs) (.fault ILLOP 0 0)
    let words ← e.readMany a.toNat 3
    let x := (words.getD 0 (0, false)).1
    let y := (words.getD 1 (0, false)).1
    let z := (words.getD 2 (0, false)).1
    require (hPermR hs && hPermW hd) (.fault OOR 0 0)
    e.once (reqWords tag [kind, m.toNat, x.toNat, y.toNat, z.toNat] ++ recordWords hs ++ recordWords hd)
      (fun e => do
        let desc : Marked ← match kind with
          | 0 => .ok ([] : Marked)
          | 1 => e.descriptor z.toNat 128
          | _ => e.descriptor z.toNat 160
        let op ← match kind with
          | 0 => linearOp hs hd x y z e.scratchGrant
          | 1 => tensorOp desc.bytes hs hd x y e.scratchGrant
          | _ => chainOp desc.bytes hs hd x y e.scratchGrant
        require (!(words.any (·.2) || desc.poisoned)) .poison
        e.enterCopy op hs hd tag (m == 1))
      fun _ s => pure (e.retireRegion s e.st)

def execCpy (g : BitVec 6) (d h : BitVec 4) (a : BitVec 7) (m : BitVec 1) (s : State) : Host.Outcome State Fault Refusal :=
  copy s 0 g d h a m
def execTcpy (g : BitVec 6) (d h : BitVec 4) (a : BitVec 7) (m : BitVec 1) (s : State) : Host.Outcome State Fault Refusal :=
  copy s 1 g d h a m
def execChain (g : BitVec 6) (d h : BitVec 4) (a : BitVec 7) (m : BitVec 1) (s : State) : Host.Outcome State Fault Refusal :=
  copy s 2 g d h a m

/-! ### The tag instructions (R301, R303) -/

/-- Mask bits name tags of the team (R294). -/
def Env.tagMask (e : Env) (a : Nat) : Act Nat := do
  let (x, p) ← e.readPair a
  require (decide (x.toNat < 2 ^ ((e.team.map fun (t : Team) => t.tags.length).getD 0))) (.fault ILLOP 0 0)
  require (!p) .poison
  pure x.toNat

def Env.readyBits (e : Env) : Nat := match e.team with | some t => e.s.readyBits t | none => 0

/-- Results of a CPE instruction, d, d + 1, ... -/
def Env.giveRegion (e : Env) (s : State) (d : Nat) (ws : List Word) : State :=
  let ws := ws.map fun w => (w, false)
  e.retireRegion s (e.offer (e.put e.st d ws) 0 (ws.map (·.1)) (ws.map (·.2)))

def execTagarm (g : BitVec 6) (a : BitVec 7) (s : State) : Host.Outcome State Fault Refusal :=
  runLane s fun e => do
    e.exist [a.toNat]
    let tag ← e.tagNo g.toNat
    let n ← e.use a.toNat
    e.once (reqWords tag [3, n.toNat])
      (fun e =>
        let s := e.retireRegion (e.s.setTag e.engine tag (CopyTag.arm n)) (e.told e.st)
        pure (if n = 0 then s.wakeTags e.wave.team else s))
      fun _ s => pure (e.retireRegion s e.st)

def tagwait (s : State) (a : BitVec 7) (all : Bool) : Host.Outcome State Fault Refusal :=
  runLane s fun e => do
    e.exist [a.toNat, a.toNat + 1]
    let mask ← e.tagMask a.toNat
    e.once (reqWords 0 [if all then 5 else 4, mask, mask / 2 ^ 32])
      (fun e =>
        let got := mask &&& e.readyBits
        if tagsEnd mask got all then pure (e.giveRegion e.s a.toNat [.ofNat 32 got, .ofNat 32 (got / 2 ^ 32)])
        else
          let (id, s) := e.s.fresh
          let st := (e.offer (e.st.awaitMany id a.toNat 2) id [] []).tick 1
          pure (s.setStrand e.key { st.startRegion st.pc with life := .blocked (.tags mask all a.toNat id) }))
      fun ws s => pure (e.retireRegion s (e.put e.st a.toNat ws))

def execTagwaitAny (a : BitVec 7) (s : State) : Host.Outcome State Fault Refusal := tagwait s a false
def execTagwaitAll (a : BitVec 7) (s : State) : Host.Outcome State Fault Refusal := tagwait s a true

/-- The lowest set bit of a number below 2^64, or 64. -/
def lowestBit (x : Nat) : Nat := ((List.range 64).find? fun k => x.testBit k).getD 64

def execTagff (a : BitVec 7) (s : State) : Host.Outcome State Fault Refusal :=
  runLane s fun e => do
    e.exist [a.toNat, a.toNat + 1]
    let mask ← e.tagMask a.toNat
    e.once (reqWords 0 [6, mask, mask / 2 ^ 32])
      (fun e => pure (e.giveRegion e.s a.toNat [.ofNat 32 (lowestBit (mask &&& e.readyBits))]))
      fun ws s => pure (e.retireRegion s (e.put e.st a.toNat ws))

def execTagclr (a : BitVec 7) (s : State) : Host.Outcome State Fault Refusal :=
  runLane s fun e => do
    e.exist [a.toNat, a.toNat + 1]
    let mask ← e.tagMask a.toNat
    e.once (reqWords 0 [7, mask, mask / 2 ^ 32])
      (fun e =>
        let tags := (e.team.map fun (t : Team) => t.tags).getD []
        let s := tags.zipIdx.foldl (fun s p => if mask.testBit p.2 then s.setTag e.engine p.1 CopyTag.off else s) e.s
        pure (e.retireRegion s (e.told e.st)))
      fun _ s => pure (e.retireRegion s e.st)

/-- The status word of R303. -/
def CopyTag.status (t : CopyTag) : Word :=
  .ofNat 32 ((if t.armed then 64 else 0) + (if t.ready then 32 else 0) + t.flags.toNat)

def execTagrd (g : BitVec 6) (a : BitVec 7) (s : State) : Host.Outcome State Fault Refusal :=
  runLane s fun e => do
    e.exist [a.toNat, a.toNat + 1, a.toNat + 2]
    let tag ← e.tagNo g.toNat
    e.once (reqWords tag [8])
      (fun e =>
        let t := (e.s.bank e.engine).tag tag
        pure (e.giveRegion e.s a.toNat [t.remaining, t.expected, t.status]))
      fun ws s => pure (e.retireRegion s (e.put e.st a.toNat ws))

end Sys2Proof.Machine
end

