-- ==== Sys2Proof/Machine/Place.lean ====
section
/-!
DEFINITION. A lane that stands at an instruction which an outside loader has placed: a level-2 strand whose addresses are
physical (R254, R320), its word in memory and in the instruction cache, and the issue that gives it its turn (log 5).
-/

namespace Sys2Proof.Machine

/-- The launch record of the placed grid: one team of one 16-wide wave with one live strand and 128 registers. -/
def placedLaunch : Launch :=
  { entry := 0x400010, codeVer := 1, teams := 1, waves := 1, width := 16, live := 1, budget := 128, scratch := 4096,
    tiles := 16, was := 16, tags := 64, prio := 0, contained := false, redundant := false, cooperative := false,
    fused := false, system := true, top := true, mmr := 2, pin := none, htab := 0, htabLen := 0, asid := 0, done := 0,
    args := [] }

def placedGrid : Grid :=
  { launch := placedLaunch, asid := 0, version := 1, level := 2, depth := 1, parent := none, parentGrid := none,
    accepted := 0, nextTeam := 1, retiredTeams := 0, teamCount := 1, status := 0, retired := false, stores := [],
    places := [], flushed := false }

/-- A strand at an entry with nothing written (R10), with the park count of its place (R258). -/
def Strand.fresh (entry : VAddr) (live : Bool) (seq : BitVec 10) : Strand :=
  { pc := entry, count := 0, regionPc := entry, regionCount := 0, regs := [], preds := 1, fstat := 0, window := [], draining := false,
    handles := none, solo := false, lost := [],
    parityErrors := [], life := if live then .ready else .exited, handler := none, seq := seq, wait := 0, entry := entry,
    faultCode := 0, faultPc := 0, faultVa := 0, openGroup := [], closed := [], item := none, compares := [],
    values := [], permit := false }

/-- A wave with nothing written (R10, R167, R186, R225). -/
def Wave.fresh (width live waveId team grid alloc : Nat) : Wave :=
  { width := width, live := live, waveId := waveId, team := team, grid := grid, alloc := alloc, w := [], k := [], h := [],
    issues := 0, censusWait := 0, bsPass := 0, gstat := 0, mxFlags := 0, corr := 0, meets := [], grow := none,
    partner := none, trailing := false }

/-- A team with nothing written (R201, R277, R293). -/
def Team.fresh (grid teamId bank : Nat) (waves : List Nat) (scratch : Nat) (tiles tags : List Nat) : Team :=
  { grid := grid, teamId := teamId, bank := bank, waves := waves, freed := [], scratchSize := scratch, scratch := [], poisonWords := [],
    accs := [], waOps := [], barriers := [], tiles := tiles, tags := tags, buffer := [], contained := false, redundant := false,
    exposed := false, relaunches := 0, waiting := false, sameCore := none, avoid := none, tasks := none,
    killed := 0 }

/-- The bank number under which a fused-L1 team keeps what a save has taken out of one of its banks, by the number of the save (R263,
R276, R277). -/
def awayBank (id : Nat) : Nat := 4096 + id

/-- A part of a team is saved. -/
def Team.away (t : Team) : Bool := decide (4096 ≤ t.bank) || t.waves.any fun w => decide (4096 ≤ waveBank w)

/-- A wave number moved to another bank in its slot, and a strand number with it. -/
def moveWave (old new w : Nat) : Nat := if waveBank w = old then waveNo new (waveSlot w) else w
def moveStrand (old new k : Nat) : Nat := strandNo (moveWave old new (strandWave k)) (strandLane k)

/-- A team whose part in one bank moves to another. -/
def Team.move (old new : Nat) (t : Team) : Team :=
  { t with
    bank := if t.bank = old then new else t.bank
    waves := t.waves.map (moveWave old new)
    barriers := t.barriers.mapVal fun _ (b : Barrier) => { b with arrived := b.arrived.map (moveStrand old new) } }

/-- The live strands of a team that are saved. -/
def State.awayStrands (s : State) (t : Team) : List Nat :=
  (s.device.saved.flatMap fun (x : Saved) => (x.strands.filter fun p => p.2.life ≠ .exited).map fun p =>
    moveStrand x.old (awayBank x.id) p.1).filter fun k => t.waves.contains (strandWave k)

/-- Places a 32-bit word as the next instruction. The lane is lane 0 of the first wave of bank 0 of core 0. -/
def State.place (s : State) (w : Nat) : State :=
  let pa : Nat := 0x400010
  let s := s.poke pa (toBytes 4 w)
  let s := { s with device := { s.device with ctxTab := 0 } }
  let s := s.setGrid 0 placedGrid
  let s := s.setTeam 0 { Team.fresh 0 0 0 [0] 4096 (List.range 16) (List.range 64) with
    accs := (List.range 16).map fun n =>
      (n, { cfg := 0x10000002, flags := 0, front := [], back := [], agg := (0, 0), bad := [] }) }
  let s := s.setWave 0 (Wave.fresh 16 1 0 0 0 128)
  let s := s.setStrand 0 (Strand.fresh 0x400010 true (s.parks.get 0 0))
  let s := s.modBank 0 fun b => { b with asid := some 0, mmrMode := 2, order := [⟨0, none⟩], mapping := 16 }
  let s := s.fillCode 0 0 1 pa pa false
  { s with issue := some { core := 0, wave := 0, cls := w / 2 ^ 26, number := 0, remaining := [0], accesses := [],
                           clock := none, differ := [], late := [], before := [], tlb := [],
                           unserved := 0, writes := [] } }

end Sys2Proof.Machine
end

