-- ==== Sys2Proof/Machine/Team.lean ====
section
/-!
DEFINITION. Teams, launches and tasks: barriers (R277, R281), LAUNCH and its checks (R278, R279, R282, R283, R363), GWAIT
(R285), TASKPUSH (R286), RGROW and RSHRINK (R289), COMMIT (R290), and the grow allocator (R175, R176).
-/

namespace Sys2Proof.Machine

/-! ### Team barriers (R277, R281) -/

def Team.barrier (t : Team) (b : Nat) : Barrier := t.barriers.get b ⟨0, []⟩

/-- A strand arrives at a barrier. -/
def State.arriveAt (s : State) (team b k : Nat) : State :=
  s.modTeam team fun t =>
    let x := t.barrier b
    { t with barriers := t.barriers.set b { x with arrived := x.arrived ++ [k] } }

/-- A strand may arrive: its prior accesses have been performed at team scope, its WA operations have been applied (R240), and
it has not arrived in this phase (R277). -/
def Env.mayArrive (e : Env) (b : Nat) : Act Barrier := do
  require (!e.s.ownOutstanding e.key) .hold
  match e.team with
  | none => .error .hold
  | some t =>
    require (!(t.barrier b).arrived.contains e.key && !(t.waOps.any (·.strand = e.key))) .hold
    pure (t.barrier b)

def execTbar (n : BitVec 3) (s : State) : Host.Outcome State Fault Refusal :=
  runLane s fun e => do
    let x ← e.mayArrive n.toNat
    let act := fun (e : Env) (s : State) =>
      (s.setStrand e.key { e.st.tick 1 with life := .blocked (.barrier n.toNat x.phase) }).arriveAt e.wave.team n.toNat e.key
    e.compared (reqWords 0 [0, n.toNat]) (fun e => pure (act e e.s)) fun s => pure (act e s)

def execTbara (d : BitVec 7) (n : BitVec 3) (s : State) : Host.Outcome State Fault Refusal :=
  runLane s fun e => do
    e.exist [d.toNat]
    let x ← e.mayArrive n.toNat
    let act := fun (e : Env) (s : State) =>
      (e.retireRegion s (e.put e.st d.toNat [(x.phase, false)])).arriveAt e.wave.team n.toNat e.key
    e.compared (reqWords 0 [1, n.toNat, (e.produce x.phase).toNat]) (fun e => pure (act e e.s)) fun s => pure (act e s)

def execTbarw (a : BitVec 7) (n : BitVec 3) (s : State) : Host.Outcome State Fault Refusal :=
  runLane s fun e => do
    e.exist [a.toNat]
    let x ← e.use a.toNat
    require e.team.isSome .hold
    let phase := (e.team.map fun (t : Team) => (t.barrier n.toNat).phase).getD 0
    let act := fun (e : Env) (s : State) =>
      if phase ≠ x then e.retire s e.st
      else s.setStrand e.key { e.st.tick 1 with life := .blocked (.barrier n.toNat x) }
    e.compared (reqWords 0 [2, n.toNat, x.toNat]) (fun e => pure (act e e.s)) fun s => pure (act e s)

/-- BARRIER_PHASE_COMPLETE (R277): every live strand of the team has arrived, those of a saved bank of a fused-L1 team among them, and
stands outside its handler (R311). -/
def execBarrierPhaseComplete (team bar : Nat) (s : State) : Host.Outcome State Fault Refusal :=
  eventStep s fun s => do
    let t ← s.teams.find team
    let x := t.barrier bar
    let live := (s.strandsOf t.waves).filter fun k =>
      match s.strands.find k with | some st => st.life ≠ .exited | none => false
    let inHandler := fun (k : Nat) => ((s.strands.find k).map fun (st : Strand) => st.handler.isSome).getD false
    if x.arrived.isEmpty || !((live ++ s.awayStrands t).all fun k => x.arrived.contains k && !inHandler k) then none
    else
      let s := s.setTeam team { t with barriers := t.barriers.set bar ⟨x.phase + 1, []⟩ }
      let free := live.filter fun k => match s.strands.find k with
        | some st => st.life = .blocked (.barrier bar x.phase)
        | none => false
      let s := free.foldl (fun s k => s.modStrand k fun st => { st with life := .ready, wait := 0 }) s
      some ((dedup (t.waves.map fun w => bankCore (waveBank w))).foldl State.wake s)

/-! ### Launch records (R278) -/

/-- The fields of a record, and whether the reserved ones are 0. -/
def parseLaunch (b : List Byte) : Launch × Bool :=
  let f := bytesAt b
  let flags := f 28 2
  let pin := f 30 2
  ({ entry := .ofNat 57 (f 0 8), codeVer := f 8 4, teams := f 12 4, waves := f 16 1, width := f 17 1, live := f 18 1,
     budget := f 19 1, scratch := f 20 4, tiles := f 24 1, was := f 25 1, tags := f 26 1, prio := f 27 1,
     contained := flags.testBit 0, redundant := flags.testBit 1, cooperative := flags.testBit 2, fused := flags.testBit 3,
     system := flags.testBit 4, top := flags.testBit 5, mmr := fld flags 6 2,
     pin := if pin.testBit 15 then some (fld pin 0 9) else none, htab := .ofNat 57 (f 32 8), htabLen := f 40 4,
     asid := f 44 2, done := .ofNat 57 (f 48 8), args := (List.range 16).map fun k => .ofNat 32 (f (64 + 4 * k) 4) },
   decide (f 0 8 < 2 ^ 57 ∧ f 32 8 < 2 ^ 57 ∧ f 48 8 < 2 ^ 57 ∧ fld flags 8 8 = 0 ∧ fld pin 9 6 = 0 ∧ f 46 2 = 0 ∧ f 56 8 = 0))

/-- The code version that a launch binds to (R15, R278): the named one, or the newest one that holds ENTRY. -/
def Context.version (c : Context) (l : Launch) : Option CodeVersion :=
  if l.codeVer ≠ 0 then c.versions.find? (·.number = l.codeVer)
  else
    (c.versions.filter fun v => v.pages.any fun p => p.va = l.entry.toNat / 65536 * 65536).foldl
      (fun best v => match best with
        | some b => if b.number < v.number then some v else best
        | none => some v) none

/-- The address of the word at ENTRY - 8 in a version, where the version maps it (R93). -/
def budgetPlace (v : CodeVersion) (entry : VAddr) : Option Nat :=
  let va := (entry - 8).toNat
  (v.pages.find? fun p => p.va = va / 65536 * 65536).map fun p => p.pa + va % 65536

def State.budgetWord (s : State) (v : CodeVersion) (entry : VAddr) : Option Nat :=
  (budgetPlace v entry).map fun pa => s.peekNum pa 4

/-- BUDGET is at least the word at ENTRY - 8 of a version (R93, R278); a version that does not map the word has no such entry. -/
def State.entryBudgetOk (s : State) (v : CodeVersion) (l : Launch) : Bool :=
  (s.budgetWord v l.entry).any fun n => decide (n ≤ l.budget)

/-- Wave slots, strands and register bytes of a number of waves (R160, R266). -/
def Launch.waveCount (l : Launch) (waves : Nat) : Nat := waves * (if l.redundant then 2 else 1)
def Launch.regBytes (l : Launch) (waves : Nat) : Nat := l.waveCount waves * l.width * l.budget * 4

/-- The bank core of a team's wave, from the core of its wave 0 (R275). -/
def Launch.waveCore (l : Launch) (core k : Nat) : Nat := if l.fused then coreCluster core * 8 + k % 8 else core

/-- Waves that a core takes of a fused team, by its number within the cluster. -/
def Launch.wavesOn (l : Launch) (j : Nat) : Nat := ((List.range l.waves).filter fun k => k % 8 = j).length

/-- How many teams fit one empty bank, or one cluster's banks for a fused grid (R283, R363). -/
def Launch.perPlace (l : Launch) : Nat :=
  let areas := l.scratch + 16384 * l.was
  let per := fun (n areas : Nat) =>
    let slots := l.waveCount n
    let bytes := l.regBytes n + areas
    if slots = 0 ∧ bytes = 0 then 1024
    else min (if slots = 0 then 1024 else min (Config.waveSlots / slots) (Config.strandsPerBank / (slots * l.width)))
      (if bytes = 0 then 1024 else Config.halfBytes / bytes)
  let base := if l.fused then (List.range 8).foldl (fun m j => min m (per (l.wavesOn j) (if j = 0 then areas else 0))) 1024
    else per l.waves areas
  min base (min (if l.tiles = 0 then 1024 else if l.tiles ≤ 8 then 8 / l.tiles else 1)
    (min (if l.was = 0 then 1024 else 16 / l.was) (if l.tags = 0 then 1024 else 64 / l.tags)))

/-- Cores reserved for the rubric program (R359), and Retired ones, with fewer than 32 good lanes (R171). -/
def isReserved (core : Nat) : Bool := core % 128 = 127
def State.retiredCore (s : State) (core : Nat) : Bool := decide ((s.core core).goodLanes.length < 32)
def State.usable (s : State) (core : Nat) : Bool := !isReserved core && !s.retiredCore core

/-- A cluster all of whose cores take teams, as a fused grid needs (R275). -/
def State.usableCluster (s : State) (cl : Nat) : Bool := (List.range 8).all fun j => s.usable (8 * cl + j)

/-- Whether a cooperative grid can ever fit the device, or the place that its pin names (R283, R363). -/
def State.everFits (s : State) (l : Launch) : Bool :=
  let places := match l.pin with
    | some p => if (if l.fused then s.usableCluster (coreCluster p) else s.usable p) then 1 else 0
    | none =>
      if l.fused then ((List.range Config.clusters).filter s.usableCluster).length
      else ((List.range Config.cores).filter s.usable).length
  decide (l.teams ≤ l.perPlace * places)

/-! ### The dispatcher's checks (R279, R282) -/

/-- The fields' limits (R278): status 4. -/
def Launch.limits (l : Launch) : Bool :=
  decide (1 ≤ l.teams ∧ l.teams ≤ 2 ^ 24 ∧ 1 ≤ l.waves ∧ l.waves ≤ 32 ∧ (l.width = 16 ∨ l.width = 32 ∨ l.width = 64) ∧
    1 ≤ l.live ∧ l.live ≤ l.width ∧ 16 ≤ l.budget ∧ l.budget ≤ 128 ∧ l.budget % 8 = 0 ∧ l.scratch % 256 = 0 ∧
    l.scratch ≤ 655360 ∧ l.tiles ≤ 16 ∧ l.was ≤ 16 ∧ l.tags ≤ 64 ∧ l.prio ≤ 3 ∧ (l.mmr = 1 ∨ l.mmr = 2) ∧
    (l.redundant → l.contained))

/-- Who launches: its die, ASID, level, priority, depth, team and grid; a host command has depth 0 and no team. -/
structure Launcher where
  die : Nat
  asid : Nat
  level : Nat
  prio : Nat
  depth : Nat
  team : Option Nat
  grid : Option Nat
  deriving DecidableEq, Repr

/-- The status of a launch, and the code version it binds to. -/
def State.launchStatus (s : State) (w : Launcher) (l : Launch) (reserved : Bool) : Nat × Nat :=
  let asid := if l.asid = 0 then w.asid else l.asid
  match s.device.contexts.find asid with
  | none => (4, 0)
  | some c =>
    let v := c.version l
    let depth := if l.top then 1 else w.depth + 1
    if !reserved || !l.limits || !(v.all fun v => s.entryBudgetOk v l) then (4, 0)
    else if w.level = 0 && (l.system || l.top || l.pin.isSome || l.asid ≠ 0 || decide (w.prio < l.prio)) then (5, 0)
    else match v with
      | none => (6, 0)
      | some v =>
        if !v.exports.contains l.entry.toNat then (6, 0)
        else if l.mmr ≠ c.revision then (2, 0)
        else if 10 < depth then (3, 0)
        else if (match l.pin with
          | some p => isReserved p || s.retiredCore p || (s.core p).halted
          | none => false) then (7, 0)
        else if l.cooperative && !s.everFits l then (1, 0)
        else (0, v.number)

/-- The line of the budget word that a launch record names can be read now (R305, R318, R355). -/
def State.budgetOpen (s : State) (w : Launcher) (l : Launch) : Bool :=
  let word := do
    let c ← s.device.contexts.find (if l.asid = 0 then w.asid else l.asid)
    let v ← c.version l
    budgetPlace v l.entry
  word.all fun pa => s.sliceOpen w.die pa s.nextId

/-- LAUNCH at the dispatcher: the status, the GRIDID, and the state with the grid accepted (R279, R282); none while the budget word
cannot be read. -/
def State.launchGrid (s : State) (w : Launcher) (record : List Byte) (top : Bool) : Option (Nat × Nat × State) :=
  let (l, reserved) := parseLaunch record
  let l := if top then { l with top := true } else l
  if !s.budgetOpen w l then none
  else
    let (status, version) := s.launchStatus w l reserved
    if status ≠ 0 then some (status, 0, s)
    else
      let g := s.device.nextGrid
      let (n, s) := s.fresh
      let grid : Grid :=
        { launch := l, asid := if l.asid = 0 then w.asid else l.asid, version := version, level := if l.system then 1 else 0,
          depth := if l.top then 1 else w.depth + 1, parent := if l.top then none else w.team,
          parentGrid := if l.top then none else w.grid, accepted := n, nextTeam := 0, retiredTeams := 0, teamCount := l.teams,
          status := 0, retired := false, stores := [], places := [], flushed := false }
      let s := { s with device := { s.device with nextGrid := g + 1 } }
      some (0, g, s.setGrid g grid)

/-! ### LAUNCH, GWAIT and TASKPUSH -/

/-- An instruction that is a release at a scope above team and is performed once for a redundant pair: after `check` the
buffered stores and the dirty bytes are sent, and the strand waits at its own word until its prior accesses are ordered
(R268, R290, R348). -/
def Env.releaseOnce (e : Env) (req : List Word) (scope : Nat) (check : Env → Act Unit) (act : Env → Act State)
    (trail : List (Word × Bool) → State → Act State) : Act State :=
  let wait := match e.s.strands.find e.key with
    | some st => (match st.life with | .waiting (.acks ids ap) => some (ids, ap) | _ => none)
    | none => none
  match wait with
  | some (ids, applied) => if e.s.awaits ids applied then .error .hold else act e
  | none =>
    e.once req (fun e => do
      check e
      require (!e.s.ownOutstanding e.key) .hold
      let s ← e.commitPoint e.s
      let s := s.writeBackAll e.cores
      let (ids, applied) := s.releaseIds e.cores e.key scope e.revision false
      match s.stillOut ids applied with
      | [] => act { e with s := s }
      | out => pure (s.setStrand e.key
          { e.st with pc := e.bundle, life := .waiting (.acks out applied), handles := e.keepHandles })) trail

/-- The physical addresses of a record of `n` 16-byte elements located through a handle, none for a clamped one (R119). -/
def Env.recordPlaces (e : Env) (r : HRec) (i : Nat) : Nat → Act (List (Option (Nat × Nat)))
  | 0 => .ok []
  | n + 1 => do
    let head ← e.recordPlaces r i n
    match ← e.locate r (i + n) 0 with
    | .glob va =>
      let pa ← e.translate va 0 kLoad
      pure (head ++ [some (va, pa)])
    | _ => pure (head ++ [none])

/-- Element numbers do not exceed 32 bits; an index beyond EXTENT is out of bounds. -/
def recordHandle (r : HRec) : Bool := hKind r = kGlobal && hEsize r = 16

/-- The elements of a record lie in bounds (R119, R286). -/
def Env.locateAll (e : Env) (r : HRec) (i : Nat) : Nat → Act Unit
  | 0 => .ok ()
  | n + 1 => do
    e.locateAll r i n
    let _ ← e.locate r (i + n) 0
    pure ()

/-- LAUNCH (R282): the release, then the record, then the launch, whose status arrives with LAUNCH_STATUS. -/
def execLaunch (d : BitVec 7) (a : BitVec 7) (h : BitVec 4) (s : State) : Host.Outcome State Fault Refusal :=
  runLane s fun e => do
    e.exist [d.toNat, d.toNat + 1, a.toNat]
    require (decide (e.lane = 0 ∧ e.wave.waveId = 0)) (.fault ILLOP 0 0)
    let r ← e.hReg h.toNat
    require (recordHandle r) (.fault ILLOP 0 0)
    let (i, ip) ← e.read a.toNat
    e.locateAll r i.toNat 8
    e.releaseOnce (reqWords 0 [3, i.toNat] ++ recordWords r) 5
      (fun e => do
        let _ ← e.recordPlaces r i.toNat 8
        require (!ip) .poison)
      (fun e => do
        let places ← e.recordPlaces r i.toNat 8
        let (id, s) := e.s.fresh
        let out := s.stillOut (s.releaseIds e.cores e.key 6 e.revision true).1 true
        let clamped : Tbl (List Byte × Bool) := places.zipIdx.filterMap fun (p : Option (Nat × Nat) × Nat) =>
          if p.1.isNone then some (p.2, List.replicate 16 0, false) else none
        let reads := places.zipIdx.filterMap fun (p : Option (Nat × Nat) × Nat) => p.1.map fun x => (p.2, x.1, x.2, 16)
        let s := { s with pending := s.pending.set id (.launch e.key d.toNat clamped out) }
        let s := s.requestParts e.key (.launch id) reads
        let st := (e.offer (e.st.awaitMany id d.toNat 2) id [] []).tick 1
        pure (s.setStrand e.key { st.startRegion st.pc with life := .waiting (.reply id) }))
      fun ws s => pure (e.retireRegion s (e.put e.st d.toNat ws))

/-- Who a strand launches for. -/
def State.launcherOf (s : State) (k : Nat) : Launcher :=
  let g := s.gridOf k
  let grid := s.grids.find g
  { die := coreDie (strandCore k), asid := s.gridAsid g, level := s.gridLevel g, prio := (grid.map fun (x : Grid) => x.launch.prio).getD 0,
    depth := (grid.map fun (x : Grid) => x.depth).getD 0, team := some (s.teamOf k), grid := some g }

/-- LAUNCH_STATUS (R282, R291): the dispatcher's answer, once the record has been read, whose poison is consumed, and the writes
that the release orders are seen everywhere. -/
def execLaunchStatus (id : Nat) (s : State) : Host.Outcome State Fault Refusal :=
  eventStep s fun s => do
    match ← s.pending.find id with
    | .launch k d parts after =>
      if parts.length < 8 ∨ s.awaits after true then none
      else if parts.any (·.2.2) then some (s.killTeam (s.teamOf k) POISON (laneError s k 0))
      else
        let (status, g, s) ← { s with pending := s.pending.drop id }.launchGrid (s.launcherOf k) (parts.flatMap fun (p : Nat × List Byte × Bool) => p.2.1) false
        let s := if status = 0 then s.expose (s.teamOf k) else s
        some (s.deliver k id d [(.ofNat 32 status, false), (.ofNat 32 g, false)])
    | _ => none

def execGwait (d : BitVec 7) (a : BitVec 7) (s : State) : Host.Outcome State Fault Refusal :=
  runLane s fun e => do
    e.exist [d.toNat, a.toNat]
    let g ← e.use a.toNat
    e.once (reqWords 0 [4, g.toNat])
      (fun e =>
        match e.s.grids.find g.toNat with
        | none => pure (e.give e.s e.st d.toNat [(0x100, false)])
        | some x =>
          if x.parent ≠ some e.wave.team then pure (e.give e.s e.st d.toNat [(0x100, false)])
          else if x.retired then
            pure (e.give (e.s.dropClean e.cores) e.st d.toNat [(.ofNat 32 (x.status % 256), false)])
          else
            let (id, s) := e.s.fresh
            let st := (e.offer (e.st.await d.toNat id) id [] []).tick 1
            pure (s.setStrand e.key { st with life := .blocked (.grid g.toNat d.toNat id) }))
      fun ws s => pure (e.retire s (e.put e.st d.toNat ws))

/-- The virtual address of an element, before bounds. -/
def elementVa (r : HRec) (i : Nat) : Nat := ((hBase0 r + hOffset r i) % 2 ^ 57).toNat

/-- A wake event reaches every core of a cluster. -/
def State.wakeCluster (s : State) (cl : Nat) : State := ((List.range 8).map (8 * cl + ·)).foldl State.wake s

/-- TASKPUSH (R286). Its checks stand in the order of R250: the fetch fault of the budget word, what is illegal, BUDGET, STALE of what
it reads, the bounds of the record, and the consumption. -/
def execTaskpush (d : BitVec 7) (a : BitVec 7) (h : BitVec 4) (s : State) : Host.Outcome State Fault Refusal :=
  runLane s fun e => do
    e.exist [a.toNat, a.toNat + 1]
    let r ← e.hReg h.toNat
    let entry ← e.pairTarget a.toNat
    let need ← e.codeWord (budgetAt entry)
    e.exist [d.toNat]
    require (recordHandle r) (.fault ILLOP 0 0)
    require (budgetOk need) (.fault BUDGET 0 0)
    let ((_, xp), (i, ip)) ← both (e.readPair a.toNat) (e.read d.toNat)
    e.locateAll r i.toNat 4
    e.releaseOnce (reqWords entry.toNat [5, i.toNat] ++ recordWords r) 3 (fun _ => require (!(xp || ip)) .poison)
      (fun e =>
        let cl := coreCluster e.coreKey
        let c := e.s.cluster cl
        let task : Task := { grid := e.wave.grid, entry := entry, record := elementVa r i.toNat, born := c.ticks }
        if decide (c.pool.length < Config.taskPool) && c.pushing.isEmpty then
          let s := (e.s.setCluster cl { c with pool := c.pool ++ [task] }).expose e.wave.team
          pure ((e.retireRegion s (e.told e.st)).wakeCluster cl)
        else
          let (id, s) := e.s.fresh
          let s := s.setCluster cl { c with pushing := c.pushing ++ [(e.key, task)] }
          let st := (e.offer e.st id [] []).tick 1
          pure (s.setStrand e.key { st.startRegion st.pc with life := .blocked (.pool id) }))
      fun _ s => pure (e.retireRegion s e.st)

/-- TASKPUSH_POOL_FREE (R286): the oldest waiting lane takes a freed entry. -/
def execTaskpushPoolFree (cluster : Nat) (s : State) : Host.Outcome State Fault Refusal :=
  eventStep s fun s =>
    let c := s.cluster cluster
    match c.pushing with
    | [] => none
    | (k, task) :: rest =>
      if Config.taskPool ≤ c.pool.length then none
      else
        let task := { task with born := c.ticks }
        let s := (s.setCluster cluster { c with pool := c.pool ++ [task], pushing := rest }).expose (s.teamOf k)
        let s := match s.strands.find k with
          | some st => (match st.life with
            | .blocked (.pool id) =>
              (s.setStrand k { st with life := .ready, wait := 0 }).deliver k id 0 []
            | _ => s)
          | none => s
        some (s.wakeCluster cluster)

/-! ### RGROW, RSHRINK and COMMIT (R289, R290) -/

def execRgrow (d : BitVec 7) (n : BitVec 7) (s : State) : Host.Outcome State Fault Refusal :=
  runLane s fun e => do
    e.exist [d.toNat]
    let size := 8 * n.toNat
    e.once (reqWords 0 [6, size])
      (fun e =>
        if size ≤ e.wave.alloc then pure (e.give e.s e.st d.toNat [(0, false)])
        else pure (e.requestGrow size { lane := e.lane, dst := some d.toNat, link := 0, ret := e.here + 4, target := 0,
                                        pc := e.bundle }))
      fun ws s =>
        let st := if ws.any fun w => w.1 ≠ 0 then e.st.raiseG else e.st
        pure (e.retire s (e.put st d.toNat ws))

/-- A strand without its registers from `n` up (R289). -/
def Strand.shrink (st : Strand) (n : Nat) : Strand :=
  let keep := fun (d : Dst) => match d with | .v k => decide (k < n) | .p _ => true
  { st with
    regs := st.regs.filter (·.1 < n), window := st.window.filter (keep ·.dst), lost := st.lost.filter keep,
    parityErrors := st.parityErrors.filter (· < n)
    handler := st.handler.map fun (f : Frame) => { f with
      frozen := f.frozen.filter (keep ·.dst), lost := f.lost.filter keep,
      parityErrors := f.parityErrors.filter (· < n) } }

/-- Sets the allocation of a wave to a smaller one. -/
def State.shrinkWave (s : State) (w n : Nat) : State :=
  let s := { s with strands := s.strands.mapVal fun k (st : Strand) => if strandWave k = w then st.shrink n else st }
  s.modWave w fun x => { x with alloc := n }

def execRshrink (n : BitVec 7) (s : State) : Host.Outcome State Fault Refusal :=
  runLane s fun e => do
    let size := 8 * n.toNat
    e.once (reqWords 0 [7, size])
      (fun e =>
        if e.wave.grow.isSome then
          pure (e.s.setStrand e.key { e.st with pc := e.bundle, life := .blocked .growPending })
        else
          let s := e.retire e.s (e.told e.st)
          if e.wave.alloc ≤ size then pure s
          else
            let s := s.shrinkWave e.waveKey size
            pure (match e.wave.partner with | some p => s.shrinkWave p size | none => s))
      fun _ s => pure (e.retire s e.st)

def execCommit (s : State) : Host.Outcome State Fault Refusal :=
  runLane s fun e =>
    e.once (reqWords 0 [8])
      (fun e =>
        if e.isContained then (e.commitPoint e.s).map fun s => e.retire s (e.told e.st)
        else pure (e.retire e.s (e.told e.st)))
      fun _ s => pure (e.retire s e.st)

/-! ### The allocator's events (R175, R176) -/

/-- GROW_GRANT: the oldest pending request of a bank, once the pool holds its bytes. -/
def execGrowGrant (bank : Nat) (s : State) : Host.Outcome State Fault Refusal :=
  eventStep s fun s => do
    let w ← (s.bank bank).grows.head?
    let wave ← s.waves.find w
    let g ← wave.grow
    if wave.growBytes g.size ≤ s.poolFree bank then some (s.finishGrow w true) else none

/-- A second arrival at a barrier, which is not Ready until the phase completes (R277). -/
def State.secondArrival (s : State) (k : Nat) (st : Strand) : Bool :=
  match s.fetch k st with
  | .bundle b _ =>
    (match b.result with
    | .ok (.tbar n, _) | .ok (.tbara _ n, _) =>
      ((s.teams.find (s.teamOf k)).map fun t => (t.barrier n.toNat).arrived.contains k).getD false
    | _ => false)
  | .missing _ => false

/-- A trailing strand that only waits for its Blocked partner (R267, R268). -/
def State.followsBlocked (s : State) (k : Nat) : Bool :=
  match s.waves.find (strandWave k) with
  | some w =>
    (match w.trailing, w.partner with
    | true, some p =>
      (match s.strands.find (strandNo p (strandLane k)) with
      | some lead =>
        (match lead.life with
        | .blocked _ => lead.compares.isEmpty && (match lead.values with | [] => true | v :: _ => v.seq ≠ 0)
        | _ => false)
      | none => false)
    | _, _ => false)
  | none => false

/-- Ready or Waiting in the sense of R26, which a strand is too whose wave's grow has ended (R289), as the allocator and the clock gate test it (R176, R177). -/
def State.running (s : State) (k : Nat) (st : Strand) : Bool :=
  match st.life with
  | .ready | .waiting _ => !s.secondArrival k st && !s.followsBlocked k
  | .blocked .growPending => s.awake k st
  | _ => false

/-- A strand that R176 counts as able to proceed: Ready, Waiting or Parked, or In handler and not Blocked in one of the
waits that the rule names. -/
def State.able (s : State) (k : Nat) (st : Strand) : Bool :=
  s.running k st || st.life = .parked || (st.handler.isSome && match st.life with
    | .blocked (.tags ..) | .blocked (.barrier ..) | .blocked (.line _) | .blocked (.groups ..) | .blocked (.meet ..)
    | .blocked (.grow _) | .blocked .growPending => false
    | .exited => false
    | _ => !s.secondArrival k st)

/-- The strands of a bank. -/
def State.bankStrands (s : State) (bank : Nat) : Tbl Strand := s.strands.filter fun p => waveBank (strandWave p.1) = bank

/-- Work of a bank that is outstanding (R176, R263). -/
def State.bankBusy (s : State) (bank : Nat) : Bool :=
  let mine := fun (k : Nat) => waveBank (strandWave k) = bank
  s.loads.any (fun l => mine l.strand) || s.atomics.any (fun a => mine a.strand)
    || s.stores.any (fun r => r.strands.any mine) || s.flights.any (fun f => f.bank = some bank)
    || s.walks.any (fun w => w.who.strand.any mine)
    || !(s.bank bank).copies.isEmpty || !(s.bank bank).mxQueue.isEmpty
    || (s.core (bankCore bank)).results.any fun r => mine r.strand

/-- GROW_FAIL: the youngest pending request of an active bank that cannot proceed. DESIGN CHOICE (log 34): the scribe's own store
counts as a bank that is always active. -/
def execGrowFail (bank : Nat) (s : State) : Host.Outcome State Fault Refusal :=
  eventStep s fun s => do
    let w ← (s.bank bank).grows.getLast?
    if (bank < 1024 && s.activeBank (bankCore bank) ≠ bank) || s.bankBusy bank || ((s.bankStrands bank).any fun p => s.able p.1 p.2) then none
    else some (s.finishGrow w false)

end Sys2Proof.Machine
end

