-- ==== Sys2Proof/Machine/Wa.lean ====
section
/-!
DEFINITION. The window accumulator (R234 to R246): the two-stack machine, the WA class, and images in scratch.
-/

namespace Sys2Proof.Machine

/-! ### Configuration and status (R235, R243) -/

def cfgOp (cfg : Word) : Nat := fld cfg.toNat 0 4
def cfgLen (cfg : Word) : Nat := fld cfg.toNat 16 13
/-- ARGMAX and ARGMIN hold pairs. -/
def cfgArg (cfg : Word) : Bool := cfgOp cfg = 13 || cfgOp cfg = 14
def cfgOk (cfg : Word) : Bool :=
  decide (fld cfg.toNat 29 3 = 0 ∧ fld cfg.toNat 4 12 = 0 ∧ cfgOp cfg ≠ 15 ∧ 1 ≤ cfgLen cfg ∧
    cfgLen cfg ≤ (if cfgArg cfg then 2048 else 4096))

def Acc.count (a : Acc) : Nat := a.front.length + a.back.length

/-- The status word: E, IV, OF, UF, NX in bits 30 to 26, NF and COUNT (R243). -/
def Acc.status (a : Acc) : Word := .ofNat 32 (a.flags.toNat * 2 ^ 26 + a.front.length * 2 ^ 13 + a.count)

/-- The five status flags of IEEE flags; division by zero does not occur here. -/
def statusFlags (f : Flags) : BitVec 5 := (f &&& 7) ||| (if f.getLsbD 4 then 8 else 0)

/-- An empty accumulator with a configuration (R234, R242). -/
def Acc.empty (cfg : Word) : Acc := { cfg := cfg, flags := 0, front := [], back := [], agg := (0, 0), bad := [] }

/-! ### The machine (R236, R237) -/

/-- ARGMAX and ARGMIN (R49): a tie goes to the newer pair, a NaN ranks last and is returned canonical. -/
def argStep (isMax : Bool) (a c : Word × Word) : (Word × Word) × Flags :=
  let x := Fmt.f32.decode a.1.toNat
  let y := Fmt.f32.decode c.1.toNat
  let fl : Flags := if x.isSNaN || y.isSNaN then fIV else 0
  let takeA := if y.isNaN then !x.isNaN else if x.isNaN then false else if isMax then y.below x else x.below y
  let r := if takeA then a else c
  (if (Fmt.f32.decode r.1.toNat).isNaN then (.ofNat 32 Fmt.f32.canonicalNaN, r.2) else r, fl)

/-- The operator of a configuration on (older, newer). -/
def accStep (op : Nat) (a c : Word × Word) : (Word × Word) × Flags :=
  if op = 13 ∨ op = 14 then argStep (op = 13) a c
  else
    let (r, f) := (if op = 12 then Op.mulF else Op.ofGroup op).apply a.1 c.1
    ((r, 0), f)

/-- The identity that an empty read returns (R50). -/
def accIdentity (op : Nat) : Word × Word :=
  if op = 13 then (0xFF800000, 0xFFFFFFFF)
  else if op = 14 then (0x7F800000, 0xFFFFFFFF)
  else ((if op = 12 then Op.mulF else Op.ofGroup op).identity, 0)

/-- Flip: suffix aggregates of B, newest first; the result's head is the top of F. -/
def flipStack (op : Nat) : List (Word × Word) → List (Word × Word) → Flags → List (Word × Word) × Flags
  | [], f, fl => (f, fl)
  | x :: b, [], fl => flipStack op b [x] fl
  | x :: b, t :: f, fl => let (y, g) := accStep op x t; flipStack op b (y :: t :: f) (fl ||| g)

/-- The marks of words that hold something (R245). -/
def Acc.marked (a : Acc) : List Nat :=
  a.bad.filter fun m => m < a.front.length || (4096 ≤ m && m < 4096 + a.back.length) || (m = 8192 && !a.back.isEmpty)

/-- Expiry, only at a push that finds the window full (R236, R238). -/
def Acc.expire (a : Acc) : Acc × Flags :=
  if a.count = cfgLen a.cfg then
    match a.front with
    | _ :: f => ({ a with front := f }, 0)
    | [] => let (f, fl) := flipStack (cfgOp a.cfg) a.back [] 0; ({ a with front := f.drop 1, back := [], bad := [] }, fl)
  else (a, 0)

/-- Push (R236). -/
def Acc.push (a : Acc) (x : Word × Word) : Acc × Flags :=
  let (a, fl) := a.expire
  let bad := a.marked.filter (· ≠ 8192)
  match a.back with
  | [] => ({ a with agg := x, back := [x], bad := bad }, fl)
  | b => let (y, g) := accStep (cfgOp a.cfg) a.agg x; ({ a with agg := y, back := x :: b, bad := bad }, fl ||| g)

/-- The words that a push and a read take in (R236, R245): a flip takes every entry of B. -/
def Acc.pushReads (a : Acc) : List Nat :=
  if a.count = cfgLen a.cfg ∧ a.front = [] then span 4096 a.back.length else if a.back = [] then [] else [8192]
def Acc.readReads (a : Acc) : List Nat :=
  (if a.front = [] then [] else [a.front.length - 1]) ++ (if a.back = [] then [] else [8192])

/-- Read (R236): the value, its flags, and whether the accumulator was empty. -/
def Acc.readValue (a : Acc) : (Word × Word) × Flags × Bool :=
  match a.front, a.back with
  | [], [] => (accIdentity (cfgOp a.cfg), 0, true)
  | [], _ => (a.agg, 0, false)
  | t :: _, [] => (t, 0, false)
  | t :: _, _ => let (x, f) := accStep (cfgOp a.cfg) t a.agg; (x, f, false)

/-! ### Images (R244) -/

def entryBytes (arg : Bool) (x : Word × Word) : List Byte :=
  toBytes 4 x.1.toNat ++ (if arg then toBytes 4 x.2.toNat else [])

/-- The image: CFG, status, b, then F from the bottom and B from the oldest. -/
def Acc.image (a : Acc) : List Byte :=
  let arg := cfgArg a.cfg
  let b := if a.back.isEmpty then ((0 : Word), (0 : Word)) else a.agg
  toBytes 4 a.cfg.toNat ++ toBytes 4 a.status.toNat ++ toBytes 4 b.1.toNat
    ++ toBytes 4 (if arg then b.2.toNat else 0) ++ (a.front.reverse ++ a.back.reverse).flatMap (entryBytes arg)

/-- Bytes of an image with a configuration and a count. -/
def imageBytes (cfg : Word) (count : Nat) : Nat := 16 + count * (if cfgArg cfg then 8 else 4)

def wordAt (b : List Byte) (n : Nat) : Word := .ofNat 32 (fromBytes ((b.drop n).take 4))

/-- The header's checks: CFG, status bit 31, COUNT and NF. -/
def headerOk (cfg st : Word) : Bool :=
  cfgOk cfg && !st.getLsbD 31 && decide (fld st.toNat 0 13 ≤ cfgLen cfg) && decide (fld st.toNat 13 13 ≤ fld st.toNat 0 13)

/-- The accumulator that an image holds. -/
def Acc.ofImage (b : List Byte) : Acc :=
  let cfg := wordAt b 0
  let st := wordAt b 4
  let arg := cfgArg cfg
  let count := fld st.toNat 0 13
  let nf := fld st.toNat 13 13
  let entries := (List.range count).map fun i =>
    if arg then (wordAt b (16 + 8 * i), wordAt b (20 + 8 * i)) else (wordAt b (16 + 4 * i), (0 : Word))
  { cfg := cfg, flags := .ofNat 5 (fld st.toNat 26 5), front := (entries.take nf).reverse,
    back := (entries.drop nf).reverse, agg := (wordAt b 8, if arg then wordAt b 12 else 0), bad := [] }

/-! ### The WA class (R241 to R245) -/

/-- The team's accumulator (R245). -/
def Env.acc (e : Env) (n : Nat) : Act Acc :=
  match e.team.bind (fun (t : Team) => t.accs.find n) with
  | some a => .ok a
  | none => .error (.fault ILLOP 0 0)

/-- An uncorrectable error in a word that an operation reads is consumed (R245). -/
def Acc.sound (a : Acc) (words : List Nat) : Act Unit := require (!(words.any a.marked.contains)) .poison

def State.setAcc (s : State) (t n : Nat) (a : Acc) : State := s.modTeam t fun (x : Team) => { x with accs := x.accs.set n a }

/-- The registers of a value or a pair: they exist, and a pair is even (R242, R245). -/
def Env.pairOk (e : Env) (arg : Bool) (r : Nat) : Act Unit := do
  require (!arg || r % 2 = 0) (.fault ILLOP 0 0)
  e.exist (span r (if arg then 2 else 1))

/-- The value that a push takes: v[a], or the pair (R242). -/
def Env.pushed (e : Env) (arg : Bool) (r : Nat) : Act (Word × Word) :=
  both (e.use r) (if arg then e.use (r + 1) else .ok 0)

/-- FSTAT takes the flags of an operation and E (R237). -/
def accFstat (f : Flags) (empty : Bool) : Word := f.setWidth 32 ||| (if empty then bitE else 0)

/-- The accumulator with the flags of an operation. -/
def Acc.raise (a : Acc) (f : Flags) (empty : Bool) : Acc :=
  { a with flags := a.flags ||| statusFlags f ||| (if empty then 16 else 0) }

/-- WACFG, WAPUSH, WARD, WAPR, WACLR and WASTAT, minors 0 to 5, on their accumulator (R242, R243): the new accumulator, the
words for the destination and what FSTAT takes. -/
def Acc.perform (a : Acc) (minor : Nat) (x : Word × Word) : Act (Acc × List Word × Word) :=
  let value := fun (r : Word × Word) => if cfgArg a.cfg then [r.1, r.2] else [r.1]
  match minor with
  | 0 => .ok (Acc.empty x.1, [], 0)
  | 1 => do
    a.sound a.pushReads
    let (b, f) := a.push x
    pure (b.raise f false, [], accFstat f false)
  | 2 => do
    a.sound a.readReads
    let (r, f, empty) := a.readValue
    pure (a.raise f empty, value r, accFstat f empty)
  | 3 => do
    a.sound a.pushReads
    let (b, f) := a.push x
    b.sound b.readReads
    let (r, g, _) := b.readValue
    pure (b.raise (f ||| g) false, value r, accFstat (f ||| g) false)
  | 4 => .ok (Acc.empty a.cfg, [], 0)
  | _ => .ok ({ a with flags := a.flags &&& ~~~(.ofNat 5 (fld x.1.toNat 26 5)) }, [a.cfg, a.status], 0)

/-- The strand with an operation's results from d and its flags; the last word is the FSTAT flags. -/
def Env.accOut (e : Env) (d : Nat) (words : List Word) : Strand :=
  let st := e.put e.st d (words.dropLast.map fun x => (x, false))
  { st with fstat := st.fstat ||| words.getLastD 0 }

/-- Whether the team's accumulators lie in another core (R234). -/
def Env.remoteAccs (e : Env) : Bool := ((e.team.map fun (t : Team) => decide (bankCore t.bank ≠ e.coreKey)).getD false)

/-- Whether an operation on its way to an accumulator may turn it between values and pairs, so that the CFG in force at the turn of a
lane that issues now is not yet known (R242). -/
def Env.unsettled (e : Env) (n : Nat) : Bool :=
  (e.team.map fun (t : Team) => t.waOps.any fun o => o.acc = n && o.turns).getD false

/-- An operation on its way to an accumulator whose lane has taken the CFG to be what it is now. -/
def Env.waQueued (e : Env) (n : Nat) : Bool :=
  (e.team.map fun (t : Team) => t.waOps.any fun o => o.acc = n && !o.late).getD false

/-- How a WA operation ends at its lane's issue: performed, with the new state, the words for d and what FSTAT takes; on its way,
with the strand as it goes on; or on its way with the strand standing at it. -/
inductive WaDone where
  | done (s : State) (words : List Word) (flags : Word)
  | sent (s : State) (st : Strand)
  | late (s : State)

/-- An operation of the executing lane, not yet numbered. -/
def Env.waOp (e : Env) (minor n d : Nat) (x : Word × Word) : WaOp :=
  { id := 0, issue := e.issueNo, core := e.coreKey, strand := e.key, minor := minor, acc := n, d := d, x := x, turns := false
    late := false, here := e.here, a := 0, h := 0, poison := false }

/-- Sends a WA operation to the core that holds the accumulator; its results, `k` registers from d, arrive later (R240). One that is
late has its checks and its results there, and its strand waits. -/
def Env.waSend (e : Env) (op : WaOp) (k : Nat) : WaDone :=
  let (id, s) := e.s.fresh
  let s := s.modTeam e.wave.team fun t => { t with waOps := t.waOps ++ [{ op with id := id }] }
  if op.late then .late (s.setStrand e.key { e.st with pc := e.bundle, life := .waiting (.reply id) })
  else .sent s (e.offer (e.st.awaitMany id op.d k) id [] [])

/-- The operations whose strand goes on in a region of its own: all but WARD and WASAVE (R245). -/
def waRegion (minor : Nat) : Bool := minor ≠ 2 && minor ≠ 6

/-- The strand behind a WA operation. -/
def Env.waRetire (e : Env) (minor : Nat) (s : State) (st : Strand) : State :=
  if waRegion minor then e.retireRegion s st else e.retire s st

/-- A WA operation that is performed where it stands, or behind which its strand goes on. -/
def Env.waEnd (e : Env) (minor d : Nat) : WaDone → State
  | .late s => s
  | .sent s st => e.waRetire minor s st
  | .done s ws fl =>
    let ws := ws ++ [fl]
    e.waRetire minor s (e.offer (e.accOut d ws) 0 ws (ws.map fun _ => false))

/-- A WA operation, performed once in a redundant pair (R246, R268). -/
def Env.accOnce (e : Env) (minor n d : Nat) (req : List Word) (f : Env → Act WaDone) : Act State :=
  e.once (reqWords (minor * 16 + n) [d] ++ req)
    (fun e => (f e).map (e.waEnd minor d))
    (fun vs s => pure (e.waRetire minor s (e.accOut d (vs.map (·.1)))))

/-- Minors 0 to 5 (R239, R240) with their operand. In a fused-L1 team the operation travels from another core. DESIGN CHOICE (log 46):
one that turns its accumulator between values and pairs does not overtake an earlier one that took it to be what it was. -/
def Env.accOp (e : Env) (minor n d k : Nat) (x : Word × Word) (req : List Word) : Act State :=
  e.accOnce minor n d req fun e => do
    let a ← e.acc n
    let turns := minor = 0 && (e.unsettled n || cfgArg x.1 ≠ cfgArg a.cfg)
    if e.remoteAccs then pure (e.waSend { e.waOp minor n d x with turns := turns } k)
    else
      require (!(turns && e.waQueued n)) .hold
      let (a, ws, fl) ← a.perform minor x
      pure (.done (e.s.setAcc e.wave.team n a) ws fl)

/-- Whether the operation takes pairs: by the CFG at the lane's turn (R242). A trailing lane takes it as the leading lane did,
whose request says so in its last word; none where the leading lane has performed it already. -/
def Env.argNow (e : Env) (n : Nat) : Act (Option Bool) := do
  let a ← e.acc n
  if e.trailing then
    match e.s.strands.find e.partnerKey with
    | none => .error .hold
    | some lead =>
      match lead.values, lead.compares with
      | _ :: _, _ => .ok none
      | [], c :: _ => .ok (some (c.words.getLastD 0 = 1))
      | [], [] => .error .hold
  else .ok (some (cfgArg a.cfg))

def argWord (arg : Bool) : Word := if arg then 1 else 0

/-- The operand of a push or of WAPR and the pair checks of R242, at the lane's turn. -/
def Env.accOperand (e : Env) (minor : Nat) (arg : Bool) (a d : Nat) : Act (Word × Word) := do
  if minor ≠ 2 then e.pairOk arg a
  if minor ≠ 1 then e.pairOk arg d
  if minor = 2 then pure (0, 0) else e.pushed arg a

/-- Registers that an operation of a kind of accumulator writes. -/
def accRegs (minor : Nat) (arg : Bool) : Nat := if minor = 1 then 0 else if arg then 2 else 1

/-- Where an image of `n` elements stands in scratch (R244). -/
def Env.imageAt (e : Env) (r : HRec) (i n : Nat) : Act Nat :=
  let grant := (e.team.map fun (t : Team) => t.scratchSize).getD 0
  if i + n ≤ hExtent r ∧ hBase0 r + 16 * (i + n) ≤ grant then .ok (hBase0 r + 16 * i) else oor

/-- The checks of R244 on the handle. -/
def imageHandle (r : HRec) : Bool := hKind r = kLocal && hEsize r = 16 && hStride r = 1 && hSwz r = 0

/-- WASAVE where it is performed (R244). DESIGN CHOICE (log 47): bytes behind the image's last entry in its last element stay as they
are. -/
def Env.saveImage (e : Env) (r : HRec) (i : Nat) (acc : Acc) (poison : Bool) : Act State := do
  let off ← e.imageAt r i ((imageBytes acc.cfg acc.count + 15) / 16)
  require (!poison) .poison
  acc.sound (span 0 acc.front.length ++ span 4096 acc.back.length ++ [8192])
  pure (e.s.scratchWrite e.wave.team off (clean acc.image))

/-- WALOAD where it is performed: the checks of the image in the table's order (R244). -/
def Env.loadImage (e : Env) (r : HRec) (i n : Nat) (poison : Bool) : Act State := do
  let off ← e.imageAt r i 1
  let head := (e.s.scratchRead e.wave.team off 16).bytes
  require (headerOk (wordAt head 0) (wordAt head 4)) (.fault ILLOP 0 0)
  let len := imageBytes (wordAt head 0) (fld (wordAt head 4).toNat 0 13)
  let _ ← e.imageAt r i ((len + 15) / 16)
  require (!poison) .poison
  let image := e.s.scratchRead e.wave.team off len
  require (!image.poisoned) .poison
  pure (e.s.setAcc e.wave.team n (Acc.ofImage image.bytes))

/-- The turn of an operation whose strand stands at it: its checks by the accumulator as it now is, and its effect (R242, R244). -/
def Env.waTurn (e : Env) (op : WaOp) : Act State := do
  let acc ← e.acc op.acc
  let done ← match op.minor with
    | 6 => (e.saveImage op.h op.x.1.toNat acc op.poison).map fun s => WaDone.done s [] 0
    | 7 => (e.loadImage op.h op.x.1.toNat op.acc op.poison).map fun s => WaDone.done s [] 0
    | m => do
      let x ← e.accOperand m (cfgArg acc.cfg) op.a op.d
      let (a, ws, fl) ← acc.perform m x
      pure (WaDone.done (e.s.setAcc e.wave.team op.acc a) ws fl)
  pure (e.waEnd op.minor op.d done)

/-- A WA operation of the executing core's oldest issue that has arrived (R240): applied, its results on their way to the
registers, the flags ORed into FSTAT. A strand that stands at its operation has its turn. -/
def State.waApply (s : State) (team : Nat) (op : WaOp) : State :=
  if op.late then
    let at' := s.modStrand op.strand fun st => { st with life := .ready }
    let at' := { at' with cur := { strand := op.strand, bundle := op.here, word := op.here, hints := {} } }
    match at'.env with
    | none => s
    | some e => match e.shared (e.waTurn op) with
      | .ok t => t
      | .error x => at'.stop e x
  else match (s.teams.find team).bind fun (t : Team) => t.accs.find op.acc with
  | none => s
  | some a =>
    match a.perform op.minor op.x with
    | .error _ => s.killTeam team POISON (laneError s op.strand 0)
    | .ok (a, ws, fl) =>
      let s := (s.setAcc team op.acc a).modStrand op.strand fun st =>
        { st with
          fstat := st.fstat ||| fl
          values := st.values.map fun (v : PairItem) =>
            if v.seq = op.id then { v with seq := 0, words := ws ++ [fl], poison := (ws ++ [fl]).map fun _ => false } else v }
      s.deliver op.strand op.id op.d (ws.map fun w => (w, false))

/-- The oldest issue of a core whose WA operations are on their way arrives as one unit, its lanes in order (R239, R240). DESIGN CHOICE
(log 46): one that turns an accumulator comes behind the earlier ones that took it to be what it was. -/
def State.waArrive (s : State) (team core : Nat) : State :=
  match s.teams.find team with
  | none => s
  | some t =>
    match t.waOps.find? (·.core = core) with
    | none => s
    | some op =>
      let unit := fun (o : WaOp) => o.core = core && o.issue = op.issue
      let early := (t.waOps.takeWhile fun o => !unit o).filter fun o => !o.late
      if s.issue.any (fun i => i.core = core && i.number = op.issue)
          || (t.waOps.filter fun o => unit o && o.turns).any fun o => early.any fun x => x.acc = o.acc then s
      else
        (t.waOps.filter unit).foldl (fun s o => s.waApply team o)
          (s.setTeam team { t with waOps := t.waOps.filter fun o => !unit o })

def execWacfg (w : BitVec 4) (a : BitVec 7) (s : State) : Host.Outcome State Fault Refusal :=
  runLane s fun e => do
    e.exist [a.toNat]
    let _ ← e.acc w.toNat
    let (x, p) ← e.read a.toNat
    require (cfgOk x) (.fault ILLOP 0 0)
    require (!p) .poison
    e.accOp 0 w.toNat 0 0 (x, 0) [x]

/-- Whether reads interlock. -/
def interlocks {α : Type} : Act α → Bool
  | .error .hold => true
  | _ => false

/-- WAPUSH, WARD and WAPR. From another core of a fused-L1 team, a lane to which it is not yet known whether the accumulator holds
pairs at its turn waits there for it, once its registers can be read (R242). -/
def accAccess (s : State) (minor : Nat) (w : BitVec 4) (a d : Nat) : Host.Outcome State Fault Refusal :=
  runLane s fun e => do
    e.room
    let n := w.toNat
    match ← e.argNow n with
    | none => e.accOp minor n d 0 (0, 0) []
    | some arg =>
      if e.remoteAccs && !e.trailing && e.unsettled n then
        require (minor = 2 || !interlocks (both (e.read a) (e.read (a + 1)))) .hold
        e.accOnce minor n d [argWord arg] fun e =>
          pure (e.waSend { e.waOp minor n d (0, 0) with late := true, a := a } 0)
      else e.shared do
        let x ← e.accOperand minor arg a d
        e.accOp minor n d (accRegs minor arg) x ((if minor = 2 then [] else [x.1, x.2]) ++ [argWord arg])

def execWapush (w : BitVec 4) (a : BitVec 7) (s : State) : Host.Outcome State Fault Refusal := accAccess s 1 w a.toNat 0
def execWapr (d : BitVec 7) (w : BitVec 4) (a : BitVec 7) (s : State) : Host.Outcome State Fault Refusal :=
  accAccess s 3 w a.toNat d.toNat
def execWard (d : BitVec 7) (w : BitVec 4) (s : State) : Host.Outcome State Fault Refusal := accAccess s 2 w d.toNat d.toNat

def execWaclr (w : BitVec 4) (s : State) : Host.Outcome State Fault Refusal :=
  runLane s fun e => do
    let _ ← e.acc w.toNat
    e.accOp 4 w.toNat 0 0 (0, 0) []

def execWastat (d : BitVec 7) (w : BitVec 4) (a : BitVec 7) (s : State) : Host.Outcome State Fault Refusal :=
  runLane s fun e => do
    e.exist [a.toNat, d.toNat, d.toNat + 1]
    let _ ← e.acc w.toNat
    let x ← e.use a.toNat
    e.accOp 5 w.toNat d.toNat 2 (x, 0) [x]

/-- WASAVE and WALOAD (R244): the handle's checks, then, where the operation is performed, those of the image in the table's
order, and the consumption of the index last (R245). From another core of a fused-L1 team it is performed on its arrival, and its
strand waits for it (R240). -/
def Env.imageOp (e : Env) (minor : Nat) (h w : BitVec 4) (a : BitVec 7) (perm : HRec → Bool) : Act State := do
  e.exist [a.toNat]
  let _ ← e.acc w.toNat
  let r ← e.hReg h.toNat
  require (imageHandle r) (.fault ILLOP 0 0)
  let (i, p) ← e.read a.toNat
  require (perm r) (.fault OOR 0 0)
  e.accOnce minor w.toNat 0 ([i] ++ recordWords r) fun e => do
    let acc ← e.acc w.toNat
    if e.remoteAccs then
      pure (e.waSend { e.waOp minor w.toNat 0 (i, 0) with turns := minor = 7, late := true, h := r, poison := p } 0)
    else if minor = 6 then (e.saveImage r i.toNat acc p).map fun s => .done s [] 0
    else
      require (!e.waQueued w.toNat) .hold
      (e.loadImage r i.toNat w.toNat p).map fun s => .done s [] 0

def execWasave (h w : BitVec 4) (a : BitVec 7) (s : State) : Host.Outcome State Fault Refusal :=
  runLane s fun e => do
    require (!e.s.readsOutstanding e.key) .hold
    e.imageOp 6 h w a hPermW

def execWaload (h w : BitVec 4) (a : BitVec 7) (s : State) : Host.Outcome State Fault Refusal :=
  runLane s fun e => e.imageOp 7 h w a hPermR

end Sys2Proof.Machine
end

