-- ==== Sys2Proof/Machine/Dispatcher.lean ====
section
/-!
DEFINITION. The package dispatcher and the gatherer: placement (R275, R276, R291, R362), priority 3, relaunch, retirement
(R284), gathering (R287), the scribe wave (R328, R361), the management grid (R254), and the rubric program with its
command streams (R359, R360).
-/

namespace Sys2Proof.Machine

/-! ### What a bank has free (R159 to R161, R209, R293) -/

/-- A wave slot is free: neither a live wave nor the partner of one holds it, and no command, copy or WA operation of an exited
one is left. -/
def State.slotFree (s : State) (w : Nat) : Bool :=
  !s.waveLive w && !(((s.waves.find w).bind fun (x : Wave) => x.partner).any s.waveLive)
    && !(s.banks.any fun p => p.2.mxQueue.any (·.wave = w) || p.2.copies.any fun c => strandWave c.strand = w)
    && !(s.teams.any fun p => p.2.waOps.any fun o => strandWave o.strand = w)

/-- A team is resident in a bank from its placement until it retires or dies: in its own, and in those of its waves (R275). -/
def Team.residesIn (t : Team) (bank : Nat) : Bool :=
  !t.waiting && (t.bank = bank || t.waves.any fun w => waveBank w = bank)

/-- Strands of a bank against its limit. -/
def State.strandsUsed (s : State) (bank : Nat) : Nat :=
  ((s.waves.filter fun p => waveBank p.1 = bank && s.waveLive p.1).map fun p => p.2.width).sum

def State.strandsFree (s : State) (bank : Nat) : Nat := Config.strandsPerBank - s.strandsUsed bank

/-- One free slot for each wave of a list of banks. -/
def State.pickSlots (s : State) : List Nat → List Nat → Option (List Nat)
  | [], _ => some []
  | b :: l, used => do
    let n ← (List.range Config.waveSlots).find? fun n => s.slotFree (waveNo b n) && !used.contains (waveNo b n)
    let rest ← s.pickSlots l (waveNo b n :: used)
    pure (waveNo b n :: rest)

/-- The mapping of context tiles and the tiles of a team that declares `n` of them in a bank (R209). -/
def State.pickTiles (s : State) (bank n : Nat) : Option (Nat × List Nat) :=
  let here := (s.bank bank).mapping
  let other := (s.bank (if bank % 2 = 0 then bank + 1 else bank - 1)).mapping
  if n = 0 then some (here, [])
  else if here = 0 then
    if n ≤ 8 then (if other = 16 then none else some (8, List.range n))
    else if other = 0 then some (16, List.range n) else none
  else
    let held := (s.teams.filter fun p => p.2.bank = bank && !p.2.waiting).flatMap fun p => p.2.tiles
    let free := (List.range here).filter fun t => !held.contains t
    if n ≤ free.length then some (here, free.take n) else none

/-- Accumulators of a bank that its teams hold (R159). -/
def State.accsHeld (s : State) (bank : Nat) : Nat :=
  ((s.teams.filter fun p => p.2.bank = bank && !p.2.waiting).map fun p => p.2.accs.length).sum

def State.pickTags (s : State) (bank n : Nat) : Option (List Nat) :=
  let held := (s.teams.filter fun p => p.2.bank = bank && !p.2.waiting).flatMap fun p => p.2.tags
  let free := (List.range 64).filter fun t => !held.contains t
  if n ≤ free.length then some (free.take n) else none

/-! ### Where a team fits (R275, R362) -/

/-- A core that takes new teams (R171, R260, R270, R271, R359, R368): not one whose lane map is not complete. -/
def State.takesTeams (s : State) (core : Nat) : Bool :=
  s.usable core && (s.core core).config ≠ 3 && !(s.core core).halted && !(s.core core).held && !(s.die (coreDie core)).idle

/-- A bank that may take a team of a context: it holds the context or is empty, the other bank does not hold it, and no
grow is pending there (R175, R275, R362). -/
def State.bankTakes (s : State) (asid core b : Nat) : Bool :=
  let x := s.bank (bankNo core b)
  (x.asid.isNone || x.asid = some asid) && (s.bank (bankNo core (1 - b))).asid ≠ some asid && x.grows.isEmpty

/-- What a team is given: its waves, leading ones first; the bank of its wave 0; tiles, tags and the tile mapping. -/
structure Fit where
  waves : List Nat
  bank : Nat
  tiles : List Nat
  tags : List Nat
  mapping : Nat
  deriving DecidableEq, Repr

/-- A team of `l` in bank index `b`, wave 0 on `core`; `shadow` is the priority-3 path (R362). -/
def State.fit (s : State) (asid : Nat) (l : Launch) (core b : Nat) (shadow : Bool) : Option Fit := do
  let cores := if l.fused then (List.range 8).map (coreCluster core * 8 + ·) else [core]
  let main := bankNo core b
  guard (cores.all fun c => s.takesTeams c && s.bankTakes asid c b && (shadow || (s.core c).active = b))
  let lead := (List.range l.waves).map fun k => bankNo (l.waveCore core k) b
  let banks := if l.redundant then lead ++ lead else lead
  guard (cores.all fun c =>
    let x := bankNo c b
    let n := (banks.filter (· = x)).length
    decide (n * l.width ≤ s.strandsFree x ∧
      (x = main → s.accsHeld x + l.was ≤ 16) ∧
      n * l.width * l.budget * 4 + (if x = main then l.scratch + 16384 * l.was else 0) ≤ s.poolFree x))
  let waves ← s.pickSlots banks []
  let (mapping, tiles) ← s.pickTiles main l.tiles
  let tags ← s.pickTags main l.tags
  pure { waves := waves, bank := main, tiles := tiles, tags := tags, mapping := mapping }

/-- Inserts by falling key; equal keys stay in order. -/
def insertBy (key : Nat → Nat) (x : Nat) : List Nat → List Nat
  | [] => [x]
  | y :: l => if key y < key x then x :: y :: l else y :: insertBy key x l

def sortBy (key : Nat → Nat) (l : List Nat) : List Nat := l.foldl (fun acc x => insertBy key x acc) []

/-- Free strands of a core's active bank for a context; 0 where it takes no team of it. -/
def State.roomOf (s : State) (asid core : Nat) : Nat :=
  let b := (s.core core).active
  if s.takesTeams core && s.bankTakes asid core b then s.strandsFree (bankNo core b) else 0

/-- Cores in the dispatcher's order: die, cluster, core by free strands, ties to the lower number (R362). -/
def State.coreOrder (s : State) (asid : Nat) : List Nat :=
  let room := fun (c : Nat) => s.roomOf asid c
  let cluster := fun (c : Nat) => ((List.range 8).map fun j => room (8 * c + j)).sum
  let die := fun (d : Nat) => ((List.range 16).map fun c => cluster (16 * d + c)).sum
  (sortBy die (List.range Config.dies)).flatMap fun d =>
    (sortBy cluster ((List.range 16).map (16 * d + ·))).flatMap fun c =>
      sortBy room ((List.range 8).map (8 * c + ·))

/-- Clusters for a fused grid, each by the core of its wave 0. -/
def State.clusterOrder (s : State) (asid : Nat) : List Nat :=
  let cluster := fun (c : Nat) => ((List.range 8).map fun j => s.roomOf asid (8 * c + j)).sum
  (sortBy cluster (List.range Config.clusters)).map (8 * ·)

/-- The first place, in the dispatcher's order, where a team fits. A relaunched team goes back to its core after a
MISMATCH, and otherwise first to another cluster (R291); a gathered one stays in its cluster. DESIGN CHOICE (log 34): with
fused L1 a pin names the cluster of its core. -/
def State.spot (s : State) (asid : Nat) (l : Launch) (old : Option Team) (cluster : Option Nat) : Option Fit :=
  let all := if l.fused then s.clusterOrder asid else s.coreOrder asid
  let all := match l.pin with
    | some p => [if l.fused then coreCluster p * 8 else p]
    | none =>
      match old.bind (·.sameCore) with
      | some c => [c]
      | none =>
        match old.bind (·.avoid) with
        | some a => all.filter (coreCluster · ≠ a) ++ all.filter (coreCluster · = a)
        | none => all
  let all := match cluster with | some c => all.filter (coreCluster · = c) | none => all
  all.findSome? fun c => s.fit asid l c (s.core c).active false

/-! ### The dispatcher's turns (R275, R283) -/

/-- The launch values of a gathered wave (R287). -/
def Launch.gathered (l : Launch) (k : Tasks) : Launch :=
  { l with entry := k.entry, waves := 1, width := 32, live := k.records.length, budget := k.budget, scratch := 0,
           tiles := 0, was := 0, tags := 0 }

/-- What a team is placed from. -/
def Grid.shape (g : Grid) (t : Option Team) : Launch :=
  match t.bind (·.tasks) with | some k => g.launch.gathered k | none => g.launch

/-- The teams of a grid that are to be placed, by TEAMID: killed ones that wait, and the next of its launch. -/
def State.toPlace (s : State) (g : Nat) (x : Grid) : List (Nat × Option Team) :=
  ((s.teams.filter fun p => p.2.grid = g && p.2.waiting).map fun p => (p.2.teamId, some p.2))
    ++ (if x.unplaced then [(x.nextTeam, none)] else [])

def State.placeable (s : State) (x : Grid) (t : Option Team) : Bool := (s.spot x.asid (x.shape t) t none).isSome

/-- The dispatcher comes to one grid before another: by priority, at equal priority to a waiting cooperative grid, and then in
the order of acceptance (R275, R283). -/
def Grid.before (a b : Grid) : Bool :=
  decide (b.launch.prio < a.launch.prio) || (a.launch.prio = b.launch.prio &&
    if a.gathers = b.gathers then decide (a.accepted < b.accepted) else a.gathers)

/-- It is the turn of a team of a grid: none that comes first can be placed, and no cooperative grid that comes first waits. -/
def State.turnOf (s : State) (g : Nat) (grid : Grid) (teamId : Nat) : Bool :=
  s.grids.all fun p =>
    if p.1 = g then (s.toPlace g p.2).all fun q => decide (teamId ≤ q.1) || !s.placeable p.2 q.2
    else !p.2.before grid || (!p.2.gathers && (s.toPlace p.1 p.2).all fun q => !s.placeable p.2 q.2)

/-! ### Placing a team (R275, R278) -/

/-- What an event of the dispatcher does, which reads memory in a context from a core: a translation that misses asks the walker
(R322, R325), and an event whose read waits for a line does nothing yet (R305, R318, R355). -/
def State.dispatch (s : State) (core asid : Nat) : Act State → Option State
  | .ok t => some t
  | .error (.walk va) => s.askWalk (.system core) core asid va
  | .error .walkErr => some (s.walkError asid ErrorRec.blank)
  | .error _ => none

/-- Cuts a run of virtual addresses at the ends of sectors. -/
def cutSectors : Nat → Nat → Nat → List (Nat × Nat)
  | 0, _, _ => []
  | fuel + 1, va, n =>
    if n = 0 then []
    else
      let k := min n (64 - va % 64)
      (va, k) :: cutSectors fuel ((va + k) % 2 ^ 57) (n - k)

/-- A read of the dispatcher in a context, as a core's die sees memory: each byte with the poison of its sector. -/
def State.dispatchRead (s : State) (core asid level va n : Nat) : Act (Marked × State) :=
  (cutSectors n va n).foldlM (fun (acc : Marked × State) p => do
    let pa ← s.translateNow core asid level p.1 0 kTable
    require (acc.2.sliceOpen (coreDie core) pa acc.2.nextId) .hold
    match acc.2.serveBelow (coreDie core) (some (coreCluster core)) pa p.2 (s.die (coreDie core)).clock false with
    | none => .error .hold
    | some (b, q, t) => .ok (acc.1 ++ b.map fun x => (x, q), t)) ([], s)

/-- The first 16 records of a grid's handle table; records at or beyond HTABLEN are zero (R278). DESIGN CHOICE (log 34): a record
that HSET and HLD reject is loaded as the zero record, so that no handle register holds an invalid one (R118), and the
poison of a record's sector is not consumed: its bytes are loaded as they stand (R131). -/
def State.tableRecords (s : State) (g : Grid) (core : Nat) : Act (List HRec × State) :=
  (List.range 16).foldlM (fun (acc : List HRec × State) k =>
    if k < g.launch.htabLen ∧ g.launch.htab ≠ 0 then do
      let (b, t) ← acc.2.dispatchRead core g.asid g.level ((g.launch.htab.toNat + 32 * k) % 2 ^ 57) 32
      let h : HRec := .ofNat 256 (fromBytes b.bytes)
      pure (acc.1 ++ [if hValid h then h else 0], t)
    else pure (acc.1 ++ [0], acc.2)) ([], s)

/-- Removes what is left of an exited wave from a slot that is taken again: the place that it or its pair had, its run, and the results
that no register waits for. Its register area keeps its place among those of its team (R202). -/
def State.purgeWave (s : State) (w : Nat) : State :=
  let gone := s.waves.find w
  { s with
    waves := (s.waves.drop w).mapVal fun _ (x : Wave) => if x.partner = some w then { x with partner := none } else x
    strands := s.strands.filter fun p => strandWave p.1 ≠ w
    teams := s.teams.mapVal fun _ (t : Team) =>
      if t.waves.contains w then
        { t with waves := t.waves.filter (· ≠ w)
                 freed := t.freed ++ (gone.toList.map fun x =>
                   { waveId := x.waveId, trailing := x.trailing, alloc := x.alloc, width := x.width }) }
      else t
    cores := s.cores.mapVal fun _ (c : Core) => { c with results := c.results.filter fun r => strandWave r.strand ≠ w }
    banks := s.banks.mapVal fun _ (b : Bank) =>
      let gone := (b.order.filter fun p => p.wave = w || p.pair = some w).map (·.wave)
      { b with order := b.order.filter fun p => !gone.contains p.wave, current := b.current.filter fun c => !gone.contains c } }

/-- A bank takes a context (R252, R357). -/
def State.takeContext (s : State) (bank asid : Nat) : State :=
  let c := s.device.contexts.find asid
  s.modBank bank fun b =>
    if b.asid.isSome then b
    else { b with asid := some asid, trapBase := ((c.map fun (x : Context) => x.handlerEntry).getD 0).setWidth 64,
                  mmrMode := .ofNat 32 ((c.map fun (x : Context) => x.revision).getD 2) }

/-- One wave of a team, with its strands. `regs` gives a lane's registers. -/
def State.putWave (s : State) (w : Nat) (l : Launch) (waveId team grid : Nat) (trailing : Bool) (partner : Option Nat)
    (h : List HRec) (regs : Nat → Tbl Reg) : State :=
  let wave := { Wave.fresh l.width l.live waveId team grid l.budget with
    w := l.args.zipIdx.map fun p => (p.2, p.1), h := h.zipIdx.map fun p => (p.2, p.1)
    trailing := trailing, partner := partner }
  let s := s.setWave w wave
  let s := (List.range l.width).foldl (fun s k =>
    s.setStrand (strandNo w k)
      { Strand.fresh l.entry (decide (k < l.live)) (s.parks.get (strandNo w k) 0) with regs := regs k }) s
  s.modBank (waveBank w) fun b =>
    if trailing then b else { b with order := b.order ++ [⟨w, partner⟩] }

/-- Clears the tiles that a team receives, bad words among them, and disarms its tags (R209, R213, R293). -/
def State.freshAreas (s : State) (f : Fit) : State :=
  let s := s.modBank f.bank fun b => { b with
    mapping := f.mapping, tags := f.tags.foldl (fun t n => t.set n CopyTag.off) b.tags }
  f.tiles.foldl (fun s n => s.modCore (bankCore f.bank) fun c =>
    let m := s.physTile f.bank n
    { c.setTile m [] with tileBad := c.tileBad.filter fun p => p / 2048 ≠ m }) s

/-- Puts a team in its place. Its strands begin with an acquire (R282, R287, R338). -/
def State.putTeam (s : State) (g : Nat) (grid : Grid) (l : Launch) (f : Fit) (no teamId relaunches : Nat)
    (tasks : Option Tasks) (h : List HRec) (regs : Nat → Tbl Reg) : State :=
  let banks := dedup (f.waves.map waveBank)
  let cores := l1Cores (bankCore f.bank) l.fused
  let s := (s.dropClean cores).modGrid g fun x => { x with places := dedup (x.places ++ cores) }
  let s := (f.bank :: banks).foldl (fun s b => s.takeContext b grid.asid) s
  let s := f.waves.foldl State.purgeWave (s.freshAreas f)
  let s := s.setTeam no { Team.fresh g teamId f.bank f.waves l.scratch f.tiles f.tags with
    accs := (List.range l.was).map fun n => (n, Acc.empty 0x10000002)
    contained := l.contained, redundant := l.redundant, relaunches := relaunches, tasks := tasks }
  let n := l.waves
  let s := f.waves.zipIdx.foldl (fun s p =>
    let trailing := decide (n ≤ p.2)
    let partner := if l.redundant then f.waves[if trailing then p.2 - n else p.2 + n]? else none
    s.putWave p.1 l (p.2 % n) no g trailing partner h regs) s
  banks.foldl (fun s b => if s.activeBank (bankCore b) = b then s.wake (bankCore b) else s) s

/-- Places the next launched team of a grid in a given place. -/
def State.placeNext (s : State) (g : Nat) (grid : Grid) (f : Fit) : Act State := do
  let (h, s) ← s.tableRecords grid (bankCore f.bank)
  let (no, s) := s.fresh
  let s := s.putTeam g grid grid.launch f no grid.nextTeam 0 none h fun _ => []
  pure (s.modGrid g fun x => { x with nextTeam := x.nextTeam + 1 })

/-- An object that an event needs. -/
def needed {α : Type} : Option α → Act α
  | some x => .ok x
  | none => .error .hold

/-- Places up to `n` teams of a grid, all of them or none. -/
def State.placeAll (s : State) (g : Nat) : Nat → Act State
  | 0 => .ok s
  | n + 1 => do
    let grid ← needed (s.grids.find g)
    let f ← needed (s.spot grid.asid grid.launch none none)
    let s ← s.placeNext g grid f
    s.placeAll g n

/-- The core in whose TLBs the dispatcher translates for a grid: that of the first place of its next team. -/
def State.dispatchCore (s : State) (x : Grid) (t : Option Team) (cluster : Option Nat) : Nat :=
  ((s.spot x.asid (x.shape t) t cluster).map fun f => bankCore f.bank).getD 0

/-- A grid has lost the core that it is pinned to, while a team of it is to be placed (R158, R362). -/
def State.pinLost (s : State) (g : Nat) (x : Grid) : Bool :=
  x.launch.pin.any (fun p => s.retiredCore p || (s.core p).halted) && !(s.toPlace g x).isEmpty

/-- A core has become Retired or halted: the grids that are pinned to it and have unplaced teams abort (R158, R362). -/
def State.losePin (s : State) : State :=
  (s.grids.filter fun p => s.pinLost p.1 p.2).foldl (fun s p => s.abortGrid p.1 NOPLACE ErrorRec.blank) s

/-- TEAM_PLACE (R275, R283, R362). -/
def execTeamPlace (grid : Nat) (s : State) : Host.Outcome State Fault Refusal :=
  eventStep s fun s => do
    let x ← s.grids.find grid
    guard x.unplaced
    if s.pinLost grid x then some (s.abortGrid grid NOPLACE ErrorRec.blank)
    else
      guard (s.turnOf grid x x.nextTeam)
      s.dispatch (s.dispatchCore x none none) x.asid (s.placeAll grid (if x.launch.cooperative then x.launch.teams - x.nextTeam else 1))

/-- v0 to v15 of a lane from its argument record, each word with the poison of its source sector (R125, R287). -/
def argRegs (words : List Marked) (lane : Nat) : Tbl Reg :=
  match words[lane]? with
  | none => []
  | some l => (List.range 16).map fun n =>
      (n, Reg.of (.ofNat 32 (bytesAt l.bytes (4 * n) 4)) (Marked.poisoned ((l.drop (4 * n)).take 4)))

/-- The argument records of a gathered team. -/
def State.taskWords (s : State) (core : Nat) (g : Grid) (k : Option Tasks) : Act (List Marked × State) :=
  ((k.map (·.records)).getD []).foldlM (fun (acc : List Marked × State) r => do
    let (l, t) ← acc.2.dispatchRead core g.asid g.level r 64
    pure (acc.1 ++ [l], t)) ([], s)

/-- Puts a killed team that waits into a given place. -/
def State.placeAgain (s : State) (grid : Grid) (team : Nat) (t : Team) (f : Fit) : Act State := do
  let (h, s) ← s.tableRecords grid (bankCore f.bank)
  let (words, s) ← s.taskWords (bankCore f.bank) grid t.tasks
  pure (s.putTeam t.grid grid (grid.shape (some t)) f team t.teamId t.relaunches t.tasks h (argRegs words))

/-- TEAM_RELAUNCH (R291). DESIGN CHOICE (log 34): a pinned team that is killed on a core that is already halted or Retired waits; its
grid aborts with NOPLACE when the dispatcher comes to it, unless the host has resumed the core before (R158). -/
def execTeamRelaunch (team : Nat) (s : State) : Host.Outcome State Fault Refusal :=
  eventStep s fun s => do
    let t ← s.teams.find team
    guard t.waiting
    let grid ← s.grids.find t.grid
    if s.pinLost t.grid grid then some (s.abortGrid t.grid NOPLACE ErrorRec.blank)
    else
      guard (s.turnOf t.grid grid t.teamId)
      let f ← s.spot grid.asid (grid.shape (some t)) (some t) none
      s.dispatch (bankCore f.bank) grid.asid (s.placeAgain grid team t f)

/-! ### Priority 3 (R362) -/

/-- A bank has a resident team of priority 3. -/
def State.hasPrio3 (s : State) (bank : Nat) : Bool :=
  s.teams.any fun p => p.2.residesIn bank && ((s.grids.find p.2.grid).map fun (g : Grid) => g.launch.prio).getD 0 = 3

/-- A bank swap is requested of a core; the request is a wake event (R178, R261). -/
def State.requestSwap (s : State) (core : Nat) (reply : Option Nat) : State :=
  (s.modCore core fun c => { c with swaps := c.swaps ++ [reply] }).wake core

/-- The teams of a grid that the priority-3 path may place: the next of its launch, and killed ones that wait. -/
def State.candidates (s : State) (g : Nat) (x : Grid) : List (Option (Nat × Team)) :=
  (if x.unplaced then [none] else []) ++ (s.teams.filter fun p => p.2.grid = g && p.2.waiting).map some

/-- PRIO3_PREEMPT: a team that finds no place takes a core's empty shadow bank, or a staging request is posted. A team that a
MISMATCH or a pin binds to a core takes that one (R158, R269). -/
def execPrio3Preempt (grid core : Nat) (s : State) : Host.Outcome State Fault Refusal :=
  eventStep s fun s => do
    let x ← s.grids.find grid
    let idOf := fun (q : Option (Nat × Team)) => match q with | some p => p.2.teamId | none => x.nextTeam
    let q ← (s.candidates grid x).find? fun q => s.turnOf grid x (idOf q) && !s.placeable x (q.map (·.2))
    let l := x.shape (q.map (·.2))
    guard (l.prio = 3)
    let home := fun (c : Nat) => if l.fused then coreCluster c * 8 else c
    let core := home core
    guard (l.pin.all (home · = core) && (q.bind (·.2.sameCore)).all (· = core))
    let cores := if l.fused then (List.range 8).map (core + ·) else [core]
    let b := 1 - (s.core core).active
    guard (cores.all fun c => s.takesTeams c && (s.core c).active = 1 - b &&
      (match (s.bank (bankNo c (1 - b))).asid with | some a => a ≠ x.asid | none => false) && !s.hasPrio3 (bankNo c (1 - b)))
    if cores.all fun c => (s.bank (bankNo c b)).asid.isNone then
      let f ← s.fit x.asid l core b true
      let placed := match q with | none => s.placeNext grid x f | some (no, t) => s.placeAgain x no t f
      s.dispatch core x.asid (placed.map fun s => cores.foldl (fun s c =>
        let s := s.modDie (coreDie c) fun d => { d with staging := d.staging.filter fun p => p ≠ (grid, c) }
        (s.modCore c fun y => { y with prio3 := true }).requestSwap c none) s)
    else
      let want := cores.filter fun c => (s.bank (bankNo c b)).asid.isSome && !(s.die (coreDie c)).staging.contains (grid, c)
      guard (!want.isEmpty)
      some (want.foldl (fun s c => s.modDie (coreDie c) fun d => { d with staging := d.staging ++ [(grid, c)] }) s)

/-! ### Retirement (R284) -/

/-- The last resident team of priority 3 has left a swapped-in bank: the swap back is requested, once the swap in has been made
(R362). -/
def State.swapBack (s : State) (core : Nat) : State :=
  if (s.core core).prio3 && (s.core core).swaps.isEmpty && !s.hasPrio3 (s.activeBank core) then
    (s.modCore core fun c => { c with prio3 := false }).requestSwap core none
  else s

/-- The conditions under which a team retires: no part of it is saved. -/
def State.teamDone (s : State) (no : Nat) (t : Team) : Bool :=
  let strands := s.strandsOf t.waves
  let mine := fun (k : Nat) => t.waves.contains (strandWave k)
  !t.waiting && !t.away && (strands.all fun k => match s.strands.find k with | some st => st.life = .exited | none => true)
    && !(s.banks.any fun p => p.2.mxQueue.any (·.team = no) || p.2.copies.any (·.team = no))
    && !(s.atomics.any fun a => mine a.strand) && !(s.stores.any fun r => r.strands.any mine) && t.waOps.isEmpty
    && (s.grids.all fun p => p.2.parent ≠ some no || p.2.retired)
    && (!t.contained || s.allCompared no)

/-- TEAM_RETIRE: the buffer commits, and what the team held is released. -/
def execTeamRetire (team : Nat) (s : State) : Host.Outcome State Fault Refusal :=
  eventStep s fun s => do
    let t ← s.teams.find team
    guard (s.teamDone team t)
    let s := if t.contained then s.commit team else s
    let cores := dedup (t.waves.map fun w => bankCore (waveBank w))
    let banks := dedup (t.bank :: t.waves.map waveBank)
    let s := s.dropTeam team
    let s := { s with teams := s.teams.drop team }
    let s := cores.foldl (fun s c => s.modCore c fun x =>
      if x.held then x else { x with mismatches := x.mismatches.filter (·.team ≠ team) }) s
    let s := s.modGrid t.grid fun g => { g with retiredTeams := g.retiredTeams + 1 }
    let s := banks.foldl (fun s b => (s.releaseMapping b).releaseBank b) s
    some (cores.foldl State.swapBack s)

/-- The physical addresses of the completion word in the grid's context; none where the context lets it not be written, or its walk
meets a malformed table (R284, R319). -/
def State.doneCells (s : State) (core : Nat) (g : Grid) (bytes : List Byte) : Act (Option (List Host.Cell)) :=
  (Machine.place g.launch.done.toNat bytes).foldrM (fun c acc =>
    match s.translateNow core g.asid g.level (c.1 % 2 ^ 57) 1 kStore with
    | .ok pa => do
      require (s.sliceOpen (coreDie core) pa s.nextId) .hold
      pure (acc.map fun l => (pa, c.2) :: l)
    | .error (.walk va) =>
      if (s.walk (coreDie core) s.nextId g.asid va).1 = .bad then pure none else .error (.walk va)
    | .error _ => pure none) (some [])

/-- What must hold before a grid retires, but for its stores (R284). -/
def State.gridDone (s : State) (grid : Nat) (g : Grid) : Bool :=
  !g.retired && !g.unplaced && decide (g.teamCount ≤ g.retiredTeams) && !(s.teams.any fun p => p.2.grid = grid)
    && !(s.clusters.any fun p => p.2.pool.any (·.grid = grid) || p.2.pushing.any (·.2.grid = grid))
    && !(s.cores.any fun p => p.2.items.any (·.grid = grid))
    && (s.grids.all fun p => p.2.parentGrid ≠ some grid || p.2.retired)

/-- The strands that wait for a grid go on, with an acquire, when it has retired (R285). -/
def State.endGwaits (s : State) (grid status : Nat) : State :=
  let waiting := s.strands.filterMap fun p => match p.2.life with
    | .blocked (.grid x d id) => if x = grid then some (p.1, d, id) else none
    | _ => none
  waiting.foldl (fun s w =>
    let s := s.dropClean (s.l1Of w.1)
    let s := s.deliver w.1 w.2.2 w.2.1 [(.ofNat 32 (status % 256), false)]
    (s.modStrand w.1 fun st => { st with life := .ready, wait := 0 }).wake (strandCore w.1)) s

/-- Error records of a grid that the ring has not taken yet: they come before its completion word (R366). -/
def State.recordsHeld (s : State) (grid : Nat) : Bool :=
  ringBase s.device.errBase ≠ 0 && s.device.errors.any (·.grid = grid)

/-- The completion word, or the record that it was not written (R284). -/
def State.writeDone (s : State) (core grid : Nat) (g : Grid) : Act State := do
  if g.launch.done = 0 then pure s
  else
    let (id, s) := s.fresh
    match ← s.doneCells core g (toBytes 4 g.status ++ toBytes 4 grid) with
    | some cells => pure ((splitLines cells).foldl (fun s l => s.performNow id l) s)
    | none => pure (s.errorRecord { ErrorRec.blank with code := XLATE, grid := grid, kind := 3, va := g.launch.done.toNat,
                                                        asid := g.asid })

/-- GRID_RETIRE: first every store of the grid goes to its ordering point, from the L1 areas that its teams have used too, and every
die applies it; then the completion word, the retirement, and the strands in GWAIT (R284, R285, R338). Cores that teams of an aborted
grid of priority 3 had taken are given back (R362). -/
def execGridRetire (grid : Nat) (s : State) : Host.Outcome State Fault Refusal :=
  eventStep s fun s => do
    let g ← s.grids.find grid
    guard (s.gridDone grid g && !s.awaits g.stores g.flushed)
    if !g.flushed then
      let s := s.writeBackAll g.places
      some (s.setGrid grid { g with stores := s.flightsOf g.places ++ s.updates.map (·.id), flushed := true })
    else
      let s := s.flushHeld
      guard (!s.recordsHeld grid)
      let core := g.places.headD 0
      s.dispatch core g.asid ((s.writeDone core grid g).map fun s =>
        g.places.foldl State.swapBack ((s.setGrid grid { g with retired := true, stores := [] }).endGwaits grid g.status))

/-! ### The gatherer (R286 to R288) -/

/-- Strands of a core that are Blocked in REFILL, with their grids, in the order of the issues from which they are (R98). -/
def State.refilling (s : State) (core : Nat) : List (Nat × Nat) :=
  let issueOf := fun (k : Nat) => match (s.strands.find k).map fun (st : Strand) => st.life with
    | some (.blocked (.refill n)) => some n
    | _ => none
  let here := (s.strands.map (·.1)).filter fun k => strandCore k = core && (issueOf k).isSome
  (here.foldl (fun l k => insertServed (fun j => (issueOf j).getD 0) k l) []).map fun k => (k, s.gridOf k)

/-- Moves the oldest tasks to the item queue of a core whose queue is empty, one for each Blocked strand. -/
def State.deliverItems (s : State) (core : Nat) : State :=
  let cl := coreCluster core
  if !(s.core core).items.isEmpty then s
  else
    (s.refilling core).foldl (fun s p =>
      let c := s.cluster cl
      match c.pool.find? (·.grid = p.2) with
      | some t =>
        if (s.core core).items.length < Config.itemQueue then
          ((s.setCluster cl { c with pool := c.pool.erase t }).modCore core fun x => { x with items := x.items ++ [t] }).wake core
        else s
      | none => s) s

/-- A strand Blocked in REFILL takes the oldest item there that fits its wave; where none of its grid is left in the pool and none
fits, it goes on to exit (R98). -/
def State.releaseRefill (s : State) (core : Nat) : State :=
  (s.refilling core).foldl (fun s p =>
    let ready := fun (s : State) (item : Option (Nat × Nat)) =>
      (s.modStrand p.1 fun st => { st with life := .ready, wait := 0, item := item }).wake core
    match ({ s with cur := { s.cur with strand := p.1 } } : State).env with
    | none => s
    | some e =>
      match e.fitting e.codeWord (s.core core).items with
      | .ok (some t) =>
        ready (s.modCore core fun c => { c with items := c.items.erase t }) (some (t.entry.toNat, t.record))
      | .ok none => if e.poolHolds then s else ready s none
      | .error (.walk va) => (s.askWalk (.system core) core e.asid va).getD s
      | .error _ => s) s

/-- Forms one wave of tasks, oldest first, in the gatherer's cluster. -/
def State.formWave (s : State) (cl : Nat) (tasks : List Task) : Option State := do
  let t ← tasks.head?
  let g ← s.grids.find t.grid
  let v ← s.codeVersion g.asid g.version
  let word ← budgetPlace v t.entry
  let budget := s.peekNum word 4
  guard (budgetOk budget)
  let k : Tasks := { entry := t.entry, budget := budget, records := tasks.map (·.record) }
  let l := g.launch.gathered k
  guard (s.turnOf t.grid g g.teamCount)
  let f ← s.spot g.asid l none (some cl)
  let core := bankCore f.bank
  guard (s.sliceOpen (coreDie core) word s.nextId)
  s.dispatch core g.asid do
    let (h, s) ← s.tableRecords g core
    let (words, s) ← s.taskWords core g (some k)
    let s := s.modCluster cl fun c => { c with pool := tasks.foldl (fun p t => p.erase t) c.pool }
    let (no, s) := s.fresh
    let s := s.putTeam t.grid g l f no g.teamCount 0 (some k) h (argRegs words)
    pure (s.modGrid t.grid fun x => { x with teamCount := x.teamCount + 1 })

/-- The groups of a pool: the tasks of one grid and entry, oldest first. -/
def groupsOf (pool : List Task) : List (List Task) :=
  (pool.foldl (fun (keys : List (Nat × VAddr)) t =>
    if keys.contains (t.grid, t.entry) then keys else keys ++ [(t.grid, t.entry)]) []).map fun k =>
      pool.filter fun t => t.grid = k.1 && t.entry = k.2

/-- GATHER_TICK: items for Blocked strands, then full waves. -/
def execGatherTick (cluster : Nat) (s : State) : Host.Outcome State Fault Refusal :=
  eventStep s fun s =>
    let cores := (List.range 8).map (8 * cluster + ·)
    let s := cores.foldl State.deliverItems s
    let s := cores.foldl State.releaseRefill s
    let full := (groupsOf (s.cluster cluster).pool).filter fun l => 32 ≤ l.length
    let s := full.foldl (fun s l => (s.formWave cluster (l.take 32)).getD s) s
    some (s.modCluster cluster fun c => { c with ticks := c.ticks + 1 })

/-- GATHER_WINDOW_EXPIRY: a group whose oldest task has waited GATHERWIN becomes a wave. -/
def execGatherWindowExpiry (cluster : Nat) (s : State) : Host.Outcome State Fault Refusal :=
  eventStep s fun s =>
    let c := s.cluster cluster
    (groupsOf c.pool).findSome? fun l =>
      match l.head? with
      | some t => if t.born + (fld c.gatherWin.toNat 0 16) ≤ c.ticks then s.formWave cluster (l.take 32) else none
      | none => none

/-- Whether a tick of the gatherer would do anything. -/
def State.gatherUseful (s : State) (cluster : Nat) : Bool :=
  let pool := (s.cluster cluster).pool
  (List.range 8).any (fun j => (s.refilling (8 * cluster + j)).any fun p =>
    (s.core (8 * cluster + j)).items.isEmpty || decide (s.releaseRefill (8 * cluster + j) ≠ s)
      || !(pool.any (·.grid = p.2)))
    || (groupsOf pool).any fun l => decide (32 ≤ l.length) && (s.formWave cluster (l.take 32)).isSome

/-! ### The scribe wave (R328, R361) -/

/-- The launch values of a scribe wave: width 64, budget 32, privilege 1, ASID 0. -/
def scribeLaunch (entry : VAddr) : Launch :=
  { placedLaunch with entry := entry, codeVer := 0, width := 64, live := 64, budget := 32, scratch := 0, tiles := 0, was := 0,
                      tags := 64 }

/-- The scribe core: the lowest core of the cluster that is not Retired. -/
def State.scribeCore (s : State) (cl : Nat) : Option Nat :=
  ((List.range 8).map (8 * cl + ·)).find? fun c => !s.retiredCore c

/-- Whether a scribe strand of the cluster is live. -/
def State.scribeLive (s : State) (cl : Nat) : Bool :=
  match (s.cluster cl).scribe with | some w => s.waveLive w | none => false

/-- A level-1 or level-2 grid that a management path starts in ASID 0. -/
def State.ownGrid (s : State) (l : Launch) (level : Nat) : Nat × State :=
  let g := s.device.nextGrid
  let (n, s) := s.fresh
  let version := (((s.device.contexts.find 0).bind fun c => c.version l).map fun (v : CodeVersion) => v.number).getD 0
  (g, { s with device := { s.device with nextGrid := g + 1 } }.setGrid g
    { launch := l, asid := 0, version := version, level := level, depth := 1, parent := none, parentGrid := none,
      accepted := n, nextTeam := 0, retiredTeams := 0, teamCount := l.teams, status := 0, retired := false, stores := [],
      places := [], flushed := false })

/-- SCRIBEENT_WRITE: a write with EN = 1 places the scribe wave with its 64 strands at ENTRY. -/
def execScribeentWrite (cluster : Nat) (s : State) : Host.Outcome State Fault Refusal :=
  eventStep s fun s => do
    let c := s.cluster cluster
    guard (c.scribeStart && !s.scribeLive cluster)
    let core ← s.scribeCore cluster
    let bank := scribeBank core
    let w := waveNo bank 32
    let l := scribeLaunch (.ofNat 57 (fld c.scribeEnt.toNat 4 53 * 16))
    let (g, s) := s.ownGrid l 1
    let (no, s) := s.fresh
    let s := s.modGrid g fun x => { x with nextTeam := 1 }
    let s := ((s.purgeWave w).setBank bank Bank.reset).takeContext bank 0
    let s := s.setTeam no (Team.fresh g 0 bank [w] 0 [] (List.range 64))
    let s := s.putWave w l 0 no g false none [] fun _ => []
    some ((s.modCluster cluster fun x => { x with scribe := some w, scribeStart := false, scribeReady := [] }).wake core)

/-- Strands of a wave all Blocked in WAITLINE or SLEEP. -/
def State.allIdle (s : State) (w : Nat) : Bool :=
  s.strands.all fun p => strandWave p.1 ≠ w || match p.2.life with
    | .blocked (.line _) | .blocked .sleep | .exited => true
    | _ => false

/-- SCRIBE_MOVE: the scribe wave goes on in the slot of the next core that is not Retired; its strands re-arm there. -/
def execScribeMove (cluster : Nat) (s : State) : Host.Outcome State Fault Refusal :=
  eventStep s fun s => do
    let w ← (s.cluster cluster).scribe
    let old := bankCore (waveBank w)
    let core ← ((List.range 8).map (8 * cluster + ·)).find? fun c => decide (old < c) && !s.retiredCore c
    guard (s.waveLive w && s.allIdle w && !s.bankBusy (waveBank w))
    let dirty := (s.core old).l1.any fun x => !x.dirty.isEmpty
    if dirty then some (s.writeBackAll [old])
    else
      guard (!(s.flights.any (·.core = old)))
      let w' := waveNo (scribeBank core) 32
      let key := fun (k : Nat) => if strandWave k = w then strandNo w' (strandLane k) else k
      let wave ← s.waves.find w
      let strands : List (Nat × Strand) := s.strands.filter fun p => strandWave p.1 = w
      let s := { s with
        parks := strands.foldl (fun (t : Tbl (BitVec 10)) (p : Nat × Strand) => t.set (key p.1) p.2.seq) s.parks
        strands := strands.foldl (fun (t : Tbl Strand) (p : Nat × Strand) => t.set (key p.1) p.2)
          (s.strands.filter fun p => strandWave p.1 ≠ w)
        waves := (s.waves.drop w).set w' wave
        teams := s.teams.change wave.team fun t => { t with bank := scribeBank core, waves := [w'] }
        watches := s.watches.map fun (x : Watch) =>
          if strandWave x.strand = w then { x with strand := key x.strand, written := true } else x
        banks := ((s.banks.drop (scribeBank old)).set (scribeBank core) (s.bank (scribeBank old))).mapVal
          fun _ (b : Bank) => { b with order := b.order.filter (·.wave ≠ w), current := b.current.filter (· ≠ w) } }
      some (s.modCluster cluster fun x => { x with scribe := some w', scribeReady := [] })

/-! ### The management grid (R254) -/

/-- MANAGEMENT_GRID_START: the signed firmware grid at level 2, one at a time. -/
def execManagementGridStart (m : ManagementGrid) (s : State) : Host.Outcome State Fault Refusal :=
  eventStep s fun s => do
    guard (s.device.management.all fun g => ((s.grids.find g).map fun (x : Grid) => x.retired).getD true)
    guard (s.device.boot = .running)
    let l : Launch := { placedLaunch with
      entry := .ofNat 57 m.entry, codeVer := 0, waves := m.waves, width := m.width, live := m.live, budget := m.budget,
      scratch := m.scratch, tiles := 0, was := 0, tags := 0, args := m.args.map (.ofNat 32 ·) }
    guard l.limits
    let (g, s) := s.ownGrid l 2
    some { s with device := { s.device with management := some g } }

/-! ### The rubric program (R359, R360) -/

/-- The core of a die's rubric program, and the wave it has there. -/
def rubricCore (die : Nat) : Nat := 128 * die + 127

/-- Starts a rubric program of level 1 in ASID 0, in bank 0 of its core. -/
def State.startRubric (s : State) (die : Nat) (entry : VAddr) (digest : List Byte) (args : List Word) : State :=
  let l : Launch := { placedLaunch with entry := entry, codeVer := 0, width := 64, live := 64, budget := 128, scratch := 0,
                                        tiles := 0, was := 0, tags := 64, prio := 3, args := args }
  let (g, s) := s.ownGrid l 1
  let (no, s) := s.fresh
  let s := s.modGrid g fun x => { x with nextTeam := 1 }
  let bank := bankNo (rubricCore die) 0
  let w := waveNo bank 0
  let s := (s.purgeWave w).takeContext bank 0
  let s := s.setTeam no (Team.fresh g 0 bank [w] 0 [] (List.range 64))
  let s := s.putWave w l 0 no g false none [] fun _ => []
  (s.modDie die fun d => { d with rubric := some w, rubricDigest := digest }).wake (rubricCore die)

/-- The strands of the old program exit, and its team and grid are gone (R359). -/
def State.endRubric (s : State) (die : Nat) : State :=
  match (s.die die).rubric with
  | none => s
  | some w =>
    match s.waves.find w with
    | none => s
    | some wave =>
      let s := s.dropTeam wave.team
      let s := { s with teams := s.teams.drop wave.team }
      let s := s.modGrid wave.grid fun g => { g with retiredTeams := g.teamCount }
      (s.releaseBank (waveBank w)).modDie die fun d => { d with rubric := none, rubricOut := [] }

/-- A change of a context's code: the contents are stored, and the next version has the pages of the image; a change that
needs version 2^32 is refused (R15). -/
def State.loadImage (s : State) (img : Image) : Option State :=
  let old := s.device.contexts.find img.asid
  let versions := (old.map fun (c : Context) => c.versions).getD []
  let n := (versions.foldl (fun m (v : CodeVersion) => max m v.number) 0) + 1
  let (id, s) := s.fresh
  let s := img.contents.foldl (fun s p => (splitLines (Machine.place p.1 p.2)).foldl (fun s l => s.performNow id l) s) s
  let revision := (old.map fun (c : Context) => c.revision).getD img.mmr
  let c : Context := { revision := revision, handlerEntry := .ofNat 57 img.trapEntry,
                       versions := versions ++ [{ number := n, pages := img.pages, exports := img.exports }] }
  if n < 2 ^ 32 then some { s with device := { s.device with
      contexts := s.device.contexts.set img.asid c
      imageDigests := s.device.imageDigests ++ [Config.sha256 img.file] } }
  else none

/-- IMAGE_LOAD (R15, R157), which recovery does not take (R378). -/
def execImageLoad (img : Image) (s : State) : Host.Outcome State Fault Refusal :=
  eventStep s fun s => if img.asid < 8192 ∧ s.device.boot ≠ .recovery then s.loadImage img else none

/-- Whether a signature of some bytes verifies against the owner key (R378). -/
def State.ownerSigned (s : State) (bytes signature : List Byte) : Bool :=
  match s.device.ownerKey with
  | some k => Config.ecdsaVerify k (Config.sha256 bytes) signature
  | none => false

/-- The address of the table of ring bases, as a rubric program has it in w0 and w1 (R360). -/
def rubricArgs (streams : Dword) : List Word := [streams.setWidth 32, (streams >>> 32).setWidth 32]

/-- RUBRIC_REPLACE (R359, R378): a program whose signature the owner key verifies starts at its first exported entry when
the old strands all wait; any other leaves the old program running. -/
def execRubricReplace (die : Nat) (img : Image) (signature : List Byte) (streams : Dword) (s : State) :
    Host.Outcome State Fault Refusal :=
  eventStep s fun s => do
    guard (decide (die < Config.dies) && s.device.boot ≠ .recovery && img.asid = 0 && s.ownerSigned img.file signature)
    let entry ← img.exports.head?
    guard ((s.die die).rubric.all s.allIdle)
    let s ← (s.endRubric die).loadImage img
    some (s.startRubric die (.ofNat 57 entry) (Config.sha256 img.file) (rubricArgs streams))

/-- The rubric program has made every write of the entries that it has completed. -/
def State.rubricIdle (s : State) (die : Nat) : Bool :=
  (s.die die).rubricOut.isEmpty && !(s.flights.any (·.core = rubricCore die))

/-- The next write of a rubric program leaves, as a STREL.sys of its core: behind every earlier write, which every die has applied
(R360, R371). -/
def State.rubricWrite (s : State) (die : Nat) : Option State := do
  let (va, bytes) ← (s.die die).rubricOut.head?
  let core := rubricCore die
  let (ids, applied) := s.releaseIds [core] (strandNo ((s.die die).rubric.getD 0) 0) 6 0 false
  guard (!s.engineStopped core && !s.awaits ids applied)
  s.dispatch core 0 do
    let cells ← (Machine.place va bytes).mapM fun c => do
      let pa ← s.translateNow core 0 1 (c.1 % 2 ^ 57) 1 kStore
      pure (pa, c.2)
    let s := s.modDie die fun d => { d with rubricOut := d.rubricOut.drop 1 }
    pure ((splitSectors cells).foldl (fun s l => s.launchFlight core none l false none) s)

/-- The next entry of a command stream: the ring's base, HEAD, and the entry's 256 bytes. -/
def State.streamEntry (s : State) (die stream : Nat) : Act (Nat × Nat × List Byte × State) := do
  let core := rubricCore die
  let w ← needed (s.die die).rubric
  let wave ← needed (s.waves.find w)
  let table := ((wave.w.get 1 0 ++ wave.w.get 0 0 : Dword).toNat + 8 * stream) % 2 ^ 57
  let (base, s) ← s.dispatchRead core 0 1 table 8
  let base := fromBytes base.bytes
  require (base ≠ 0) .hold
  let (head, s) ← s.dispatchRead core 0 1 (base % 2 ^ 57) 8
  let (tail, s) ← s.dispatchRead core 0 1 ((base + 256) % 2 ^ 57) 8
  let head := fromBytes head.bytes
  require (decide (head < fromBytes tail.bytes)) .hold
  let (b, s) ← s.dispatchRead core 0 1 ((base + 512 + 256 * (head % Config.streamEntries)) % 2 ^ 57) 256
  pure (base, head, b.bytes, s)

/-- The rubric program completes an entry: its status, optionally the GRIDID, then HEAD, each written in its turn. -/
def State.streamDone (s : State) (die base head status : Nat) (grid : Option Nat) : State :=
  let at' := base + 512 + 256 * (head % Config.streamEntries)
  let out := [((at' + 4) % 2 ^ 57, toBytes 4 status)] ++ (grid.toList.map fun g => ((at' + 8) % 2 ^ 57, toBytes 8 g))
    ++ [(base % 2 ^ 57, toBytes 8 (head + 1))]
  s.modDie die fun d => { d with rubricOut := d.rubricOut ++ out }

/-- A step of a rubric program at one stream: the next write of an entry that it has carried out; with none left, and unless its
core is stopped (R369), the stream's next entry, of operation `op`, which `f` carries out on `base`, `head` and the entry's
bytes. -/
def State.streamStep (s : State) (die stream : Nat) (op : Nat → Bool)
    (f : State → Nat → Nat → List Byte → Act State) : Option State :=
  if !(s.die die).rubricOut.isEmpty then s.rubricWrite die
  else do
    guard (decide (stream < 64) && s.rubricIdle die && !s.engineStopped (rubricCore die))
    s.dispatch (rubricCore die) 0 do
      let (base, head, b, s) ← s.streamEntry die stream
      require (op (bytesAt b 0 4)) .hold
      f s base head b

/-- STREAM_LAUNCH (R360). -/
def execStreamLaunch (die stream : Nat) (s : State) : Host.Outcome State Fault Refusal :=
  eventStep s fun s => s.streamStep die stream (· = 1) fun s base head b => do
    let who : Launcher := { asid := 0, level := 1, prio := 3, depth := 0, die := die, team := none, grid := none }
    let (status, g, s) ← needed (s.launchGrid who (b.drop 128) true)
    let s := if status = 0 then
        s.modDie die fun d => { d with streams := d.streams.set stream (d.streams.get stream [] ++ [(head, g)]) }
      else s
    pure (s.streamDone die base head status (some g))

/-- The grids that a stream has launched, by entry (R360). -/
def State.streamGrids (s : State) (die stream : Nat) : List (Nat × Nat) := (s.die die).streams.get stream []
def State.gridRetired (s : State) (g : Nat) : Bool := ((s.grids.find g).map fun (x : Grid) => x.retired).getD true

/-- STREAM_WAITGRID (R360). -/
def execStreamWaitgrid (die stream : Nat) (s : State) : Host.Outcome State Fault Refusal :=
  eventStep s fun s => s.streamStep die stream (· = 2) fun s base head b => do
    require ((s.streamGrids die stream).all fun p => p.1 ≠ bytesAt b 8 8 || s.gridRetired p.2) .hold
    pure (s.streamDone die base head 0 none)

/-- STREAM_WRITE (R360): the value is the first of the entry's writes. -/
def execStreamWrite (die stream : Nat) (s : State) : Host.Outcome State Fault Refusal :=
  eventStep s fun s => s.streamStep die stream (· = 3) fun s base head b =>
    let s := s.modDie die fun d => { d with rubricOut := d.rubricOut ++ [(bytesAt b 8 8 % 2 ^ 57, (b.drop 16).take 8)] }
    pure (s.streamDone die base head 0 none)

/-- STREAM_DRAIN (R360). -/
def execStreamDrain (die stream : Nat) (s : State) : Host.Outcome State Fault Refusal :=
  eventStep s fun s => s.streamStep die stream (· = 4) fun s base head _ => do
    require ((s.streamGrids die stream).all fun p => s.gridRetired p.2) .hold
    pure (s.streamDone die base head 0 none)

/-- STREAM_BAD_OP (R360). -/
def execStreamBadOp (die stream : Nat) (s : State) : Host.Outcome State Fault Refusal :=
  eventStep s fun s => s.streamStep die stream (fun op => op = 0 || decide (4 < op)) fun s base head _ =>
    pure (s.streamDone die base head 0xFF none)

end Sys2Proof.Machine
end

