-- ==== Sys2Proof/Machine/SaveArea.lean ====
section
/-!
DEFINITION. The save area of an evicted context (R265): its header and nine sections as a list of fields, the bytes that
CTXSAVE writes, and the context that CTXLOAD reads from an area (R263, R264, log 11).
-/

namespace Sys2Proof.Machine

/-! ### Fields -/

/-- A field of a saved object: its bytes, and the object with the field read from other bytes, none where the field's map rejects
them. -/
structure Slot (α : Type) where
  size : Nat
  get : α → List Byte
  put : List Byte → α → Option α

/-- Some bytes, filled up with zeros. -/
def padded (n : Nat) (l : List Byte) : List Byte := (l ++ List.replicate (n - l.length) 0).take n

/-- A number of `n` bytes, as its map admits it. -/
def Slot.num {α : Type} (n : Nat) (ok : Nat → Bool) (get : α → Nat) (put : Nat → α → α) : Slot α :=
  { size := n, get := fun x => toBytes n (get x)
    put := fun b x =>
      if fromBytes b = get x then some x else if ok (fromBytes b) then some (put (fromBytes b) x) else none }

/-- A 32-bit word that may hold anything. -/
def Slot.word {α : Type} (get : α → Word) (put : Word → α → α) : Slot α :=
  .num 4 (fun _ => true) (fun x => (get x).toNat) fun n => put (.ofNat 32 n)

/-- Bytes that a function reads where they are not those of the object. -/
def Slot.coded {α : Type} (n : Nat) (get : α → List Byte) (put : List Byte → α → Option α) : Slot α :=
  { size := n, get := fun x => padded n (get x), put := fun b x => if b = padded n (get x) then some x else put b x }

/-- Bytes that are the context's own, such as a number of waves: an area with others is of another context. -/
def Slot.fixed {α : Type} (n : Nat) (get : α → List Byte) : Slot α := .coded n get fun _ _ => none
def Slot.shown {α : Type} (n : Nat) (get : α → Nat) : Slot α := .fixed n fun x => toBytes n (get x)

/-- Bytes that may hold anything and say nothing. -/
def Slot.spare {α : Type} (n : Nat) (get : α → List Byte) : Slot α := .coded n get fun _ x => some x

/-- A field of a part of an object. -/
def Slot.within {α β : Type} (look : β → α) (set : α → β → β) (f : Slot α) : Slot β :=
  { size := f.size, get := fun x => f.get (look x), put := fun b x => (f.put b (look x)).map fun y => set y x }

def slotsSize {α : Type} (l : List (Slot α)) : Nat := (l.map Slot.size).sum

/-- The bytes of a list of fields. -/
def slotsBytes {α : Type} (l : List (Slot α)) (x : α) : List Byte := l.flatMap fun f => f.get x

/-- The object with a list of fields read from bytes. -/
def slotsRead {α : Type} : List (Slot α) → List Byte → α → Option α
  | [], _, x => some x
  | f :: l, b, x => (f.put (b.take f.size) x).bind (slotsRead l (b.drop f.size))

/-- A record of `n` bytes: its fields, and free bytes where R265 gives none (log 11). -/
def slotRecord {α : Type} (id start n : Nat) (l : List (Slot α)) : List (Slot α) :=
  let rest := n - slotsSize l
  l ++ [.spare rest fun _ => (List.range rest).map fun k => Config.savedByte id (start + slotsSize l + k)]

/-- Pads a section to a multiple of 256 bytes. -/
def slotSection {α : Type} (l : List (Slot α)) : List (Slot α) :=
  l ++ [.spare ((256 - slotsSize l % 256) % 256) fun _ => []]

/-! ### Bank, waves and lanes -/

/-- A system register of the bank, which takes what its own map admits. -/
def bankSlot (n size : Nat) (get : Bank → Nat) (put : Nat → Bank → Bank) : Slot Bank :=
  .num size (fun x => systemValueOk n (.ofNat 64 x)) get put

def tagSlots (k : Nat) : List (Slot Bank) :=
  let put := fun (f : CopyTag → CopyTag) (b : Bank) => { b with tags := b.tags.set k (f (b.tag k)) }
  [.word (fun b => (b.tag k).expected) fun w => put fun t => { t with expected := w },
   .word (fun b => (b.tag k).remaining) fun w => put fun t => { t with remaining := w },
   .num 4 (fun n => n < 128 && n / 8 % 2 = 0) (fun b => (b.tag k).status.toNat) fun n => put fun t =>
     { t with armed := n.testBit 6, ready := n.testBit 5, flags := .ofNat 5 n },
   .spare 4 fun _ => []]

/-- The bank's registers, TAGS, which is read from the records behind it, and the tag records. -/
def bankSlots : List (Slot Bank) :=
  [bankSlot 0x00 4 (·.patience.toNat) fun n b => { b with patience := .ofNat 32 n },
   bankSlot 0x01 4 (·.greed.toNat) fun n b => { b with greed := .ofNat 32 n },
   bankSlot 0x02 4 (·.chksb.toNat) fun n b => { b with chksb := .ofNat 32 n },
   .num 4 (fun n => n = 1 || n = 2) (·.mmrMode.toNat) fun n b => { b with mmrMode := .ofNat 32 n },
   bankSlot 0x06 8 (·.trapBase.toNat) fun n b => { b with trapBase := .ofNat 64 n },
   .spare 8 fun b => toBytes 8 ((List.range 64).map fun k => if (b.tag k).ready then 2 ^ k else 0).sum]
  ++ (List.range 64).flatMap tagSlots

def handleSlot (k : Nat) : Slot Wave :=
  .num 32 (fun n => hValid (.ofNat 256 n)) (fun w => (w.h.get k 0).toNat) fun n w => { w with h := w.h.set k (.ofNat 256 n) }

/-- The bits of a number. -/
def bitList (n x : Nat) : List Nat := (List.range n).filter x.testBit
def bitSum (l : List Nat) : Nat := (l.map (2 ^ ·)).sum

/-- An open meet in 36 bytes: its key, its settings, P and the presented set (R179, R183). -/
def Meet.bytes (m : Meet) : List Byte :=
  let own := match m.own with | some l => l + 1 | none => 0
  let small := [m.cls, m.tag, m.minor, m.op, m.order, m.scope, m.dst, m.src, own, m.closed.toNat, m.kEnable.toNat, 1]
  let large := [m.kValue.toNat, bitSum m.members, bitSum (m.presenters.map fun p => p.lane)]
  small.flatMap (toBytes 1) ++ large.flatMap (toBytes 8)

/-- A meet with P and the presented set from other bytes; its key and its settings are those of the instruction at which its strands
stand. -/
def Meet.ofBytes (m : Meet) (b : List Byte) : Meet :=
  let n := fun (off : Nat) => fromBytes ((b.drop off).take 8)
  { m with kValue := .ofNat 64 (n 12), members := bitList 64 (n 20), presenters := m.presenters.filter fun p => (n 28).testBit p.lane }

/-- The operand words of a list of meets, read from bytes while there are any. -/
def takeWords : List (Word × Bool) → List Byte → List (Word × Bool) × List Byte
  | [], b => ([], b)
  | w :: l, b =>
    let w' := if 4 ≤ b.length then (.ofNat 32 (fromBytes (b.take 4)), w.2) else w
    let (l, b) := takeWords l (b.drop 4)
    (w' :: l, b)

def takeValues : List Presenter → List Byte → List Presenter × List Byte
  | [], b => ([], b)
  | p :: l, b =>
    let (ws, b) := takeWords p.words b
    let (l, b) := takeValues l b
    ({ p with words := ws } :: l, b)

def takeMeets : List Meet → List Byte → List Meet
  | [], _ => []
  | m :: l, b => let (ps, b) := takeValues m.presenters b; { m with presenters := ps } :: takeMeets l b

/-- The registers of a wave (R265). -/
def waveRegSlots : List (Slot Wave) :=
  ((List.range 16).map fun k => Slot.word (fun (w : Wave) => w.w.get k 0) fun x w => { w with w := w.w.set k x })
  ++ (List.range 8).map (fun k =>
    Slot.num 8 (fun _ => true) (fun (w : Wave) => (w.k.get k 0).toNat) fun n w => { w with k := w.k.set k (.ofNat 64 n) })
  ++ (List.range 16).map handleSlot

/-- Its counters and its shape (R265). -/
def waveShapeSlots (slot : Nat) : List (Slot Wave) :=
  [.word (fun w => w.issues) fun x w => { w with issues := x },
   .word (fun w => w.censusWait) fun x w => { w with censusWait := x },
   .word (fun w => w.bsPass) fun x w => { w with bsPass := x },
   .num 4 (fun n => n % 64 / 8 = 0 && n < 65536) (fun w => w.gstat.toNat) fun n w => { w with gstat := .ofNat 32 n },
   .num 1 (fun n => n < 32 && n / 8 % 2 = 0) (fun w => w.mxFlags.toNat) fun n w => { w with mxFlags := .ofNat 5 n },
   .num 1 (fun _ => true) (fun w => w.corr.toNat) fun n w => { w with corr := .ofNat 8 n },
   .shown 1 fun w => w.width, .shown 1 fun w => w.waveId, .shown 4 fun w => w.team, .shown 2 fun w => w.alloc,
   .spare 2 fun w => toBytes 2 ((w.grow.map Grow.size).getD 0), .shown 2 fun w => (w.partner.map waveSlot).getD 0xFFFF,
   .shown 1 fun _ => slot, .shown 1 fun w => w.trailing.toNat, .shown 4 fun w => w.grid, .shown 1 fun w => w.live]

/-- Its open meets, with the operand values behind them as far as the record has room (log 11). -/
def waveMeetSlots : List (Slot Wave) :=
  let values := fun (w : Wave) => (w.meets.flatMap Meet.presenters).flatMap fun p => p.words.flatMap fun x => toBytes 4 x.1.toNat
  (List.range 32).map (fun k => Slot.coded 36 (fun (w : Wave) => (w.meets[k]?.map Meet.bytes).getD []) fun b w =>
    some { w with meets := w.meets.modify k fun m => m.ofBytes b })
  ++ [.coded 208 values fun b w => some { w with meets := takeMeets w.meets b }]

/-- The wave state of R265, in its order. -/
def waveSlots (slot : Nat) : List (Slot Wave) := waveRegSlots ++ waveShapeSlots slot ++ waveMeetSlots

/-- A life state as its code and up to five numbers. -/
def Life.words : Life → List Nat
  | .ready => [0]
  | .waiting w => 1 :: match w with
    | .reply id => [0, id] | .walk id => [1, id] | .acks _ applied => [2, if applied then 1 else 0] | .settle _ => [3] | .pair => [4]
    | .handler code va pc skip => [5 + 8 * code, va.toNat, pc.toNat, skip.toNat]
  | .blocked b => match b with
    | .meet cls tag self => [2, cls, tag, if self then 1 else 0]
    | .tags mask all a id => [3, mask, if all then 1 else 0, a, id]
    | .barrier b phase => [4, b, phase.toNat]
    | .line id => [5, id]
    | .grow id => [6, id]
    | .groups n id => [7, n, id]
    | .grid g d id => [8, g, d, id]
    | .pool id => [9, id]
    | .refill n => [10, n]
    | .sleep => [11]
    | .growPending => [12]
  | .parked => [13]
  | .exited => [14]

/-- The life state that a code and numbers give. -/
def Life.ofWords (code : Nat) (l : List Nat) : Option Life :=
  let a := fun (k : Nat) => l.getD k 0
  match code with
  | 0 => some .ready
  | 1 => match a 0 % 8 with
    | 0 => some (.waiting (.reply (a 1)))
    | 1 => some (.waiting (.walk (a 1)))
    | 2 => some (.waiting (.acks [] (a 1 = 1)))
    | 3 => some (.waiting (.settle []))
    | 4 => some (.waiting .pair)
    | 5 => some (.waiting (.handler (a 0 / 8) (.ofNat 64 (a 1)) (.ofNat 57 (a 2)) (.ofNat 57 (a 3))))
    | _ => none
  | 2 => some (.blocked (.meet (a 0) (a 1) (a 2 = 1)))
  | 3 => some (.blocked (.tags (a 0) (a 1 = 1) (a 2) (a 3)))
  | 4 => some (.blocked (.barrier (a 0) (.ofNat 32 (a 1))))
  | 5 => some (.blocked (.line (a 0)))
  | 6 => some (.blocked (.grow (a 0)))
  | 7 => some (.blocked (.groups (a 0) (a 1)))
  | 8 => some (.blocked (.grid (a 0) (a 1) (a 2)))
  | 9 => some (.blocked (.pool (a 0)))
  | 10 => some (.blocked (.refill (a 0)))
  | 11 => some (.blocked .sleep)
  | 12 => some (.blocked .growPending)
  | 13 => some .parked
  | 14 => some .exited
  | _ => none

def Life.code (l : Life) : Nat := l.words.headD 0
/-- Five numbers of eight bytes. -/
def Life.rest (l : Life) : List Byte := (l.words.drop 1).flatMap (toBytes 8)
def dwords (n : Nat) (b : List Byte) : List Nat := (List.range n).map fun k => fromBytes ((b.drop (8 * k)).take 8)

def Dst.code : Dst → Nat | .v n => n | .p n => 128 + n
def Dst.ofCode (n : Nat) : Dst := if n < 128 then .v n else .p (n - 128)

/-- A window entry of 16 bytes: register, value, distance, T and pending, with its latency, its poison and the request that it
waits for. -/
def wentBytes (e : Went) : List Byte :=
  toBytes 1 e.dst.code ++ toBytes 1 e.lat ++ toBytes 1 e.age
    ++ toBytes 1 ((if e.transient then 1 else 0) + (if e.tag.isSome then 2 else 0) + (if e.poison then 4 else 0) + 8)
    ++ toBytes 4 e.val.toNat ++ toBytes 8 (e.tag.getD 0)

def Went.ofBytes (b : List Byte) : Option Went :=
  let n := fun (off len : Nat) => fromBytes ((b.drop off).take len)
  if (n 3 1).testBit 3 then
    some { dst := .ofCode (n 0 1), lat := n 1 1, age := n 2 1, transient := (n 3 1).testBit 0, poison := (n 3 1).testBit 2,
           val := .ofNat 32 (n 4 4), tag := if (n 3 1).testBit 1 then some (n 8 8) else none }
  else none

def windowBytes (l : List Went) : List Byte := l.flatMap wentBytes
def windowOfBytes (b : List Byte) : List Went := (List.range 8).filterMap fun k => Went.ofBytes ((b.drop (16 * k)).take 16)

/-- What a strand's handler has before it runs, for an area that says that the strand is In handler. -/
def Frame.blank : Frame :=
  { frozen := [], lost := [], regionPc := 0, regionCount := 0, parityErrors := [], hregs := [], wrote := [], again := 0, skip := 0,
    brk := false }

def Strand.frame (st : Strand) : Frame := st.handler.getD .blank
def Strand.inFrame (f : Frame → Frame) (st : Strand) : Strand := { st with handler := st.handler.map f }

/-- The life state with In handler (R26), and what holds a strand beyond it. -/
def Strand.lifeBits (st : Strand) : Nat :=
  st.life.code + (if st.handler.isSome then 16 else 0) + (if st.draining then 32 else 0) + (if st.solo then 64 else 0)
    + (if st.permit then 128 else 0)

def Strand.setLife (n : Nat) (st : Strand) : Option Strand :=
  let life := if n % 16 = st.life.code then some st.life else Life.ofWords (n % 16) []
  life.map fun l => { st with
    life := l, draining := n.testBit 5, solo := n.testBit 6, permit := n.testBit 7
    handler := if n.testBit 4 then some st.frame else none }

/-- An address of code. -/
def pcOk (n : Nat) : Bool := n % 4 = 0 && n < 2 ^ 57
def pcSlot (get : Strand → VAddr) (put : VAddr → Strand → Strand) : Slot Strand :=
  .num 8 pcOk (fun st => (get st).toNat) fun n => put (.ofNat 57 n)

/-- The lane record of R265, with the poison bits of the lane's registers (R263). -/
def laneSlots : List (Slot Strand) :=
  [pcSlot (·.pc) fun x st => { st with pc := x },
   pcSlot (·.regionPc) fun x st => { st with regionPc := x },
   .num 4 (fun n => n < 128) (·.fstat.toNat) fun n st => { st with fstat := .ofNat 32 n },
   .num 1 (fun n => n % 2 = 1) (·.preds.toNat) fun n st => { st with preds := .ofNat 8 n },
   .coded 1 (fun st => toBytes 1 st.lifeBits) fun b st => st.setLife (fromBytes b),
   .num 2 (fun n => n < 1024) (·.seq.toNat) fun n st => { st with seq := .ofNat 10 n },
   .num 4 (fun _ => true) (·.wait) fun n st => { st with wait := n },
   .coded 128 (fun st => windowBytes st.window) fun b st => some { st with window := windowOfBytes b },
   .coded 128 (fun st => windowBytes st.frame.frozen) fun b st => some (st.inFrame fun f => { f with frozen := windowOfBytes b })]
  ++ ((List.range 8).map fun k =>
    .word (fun st => (st.frame.hregs.get k Reg.zero).val) fun x =>
      .inFrame fun f => { f with hregs := f.hregs.set k (Reg.of x (f.hregs.get k Reg.zero).poison) })
  ++ [.num 8 pcOk (fun st => if st.handler.isSome then st.pc.toNat else 0) fun n st =>
        if st.handler.isSome then { st with pc := .ofNat 57 n } else st,
      .num 16 (fun _ => true) (fun st => bitSum ((st.regs.filter fun p => p.2.poison).map (·.1))) fun n st =>
        { st with regs := (List.range 128).foldl (fun (t : Tbl Reg) k =>
            let r := t.get k Reg.zero
            if r.poison = n.testBit k then t else t.set k { r with poison := n.testBit k }) st.regs },
      .coded 40 (fun st => st.life.rest) fun b st =>
        (Life.ofWords st.life.code (dwords 5 b)).map fun l => { st with life := l },
      .num 8 (fun _ => true) (·.count) fun n st => { st with count := n },
      .num 8 (fun _ => true) (·.regionCount) fun n st => { st with regionCount := n },
      pcSlot (·.entry) fun x st => { st with entry := x },
      .word (·.faultCode) fun x st => { st with faultCode := x },
      .num 8 (fun _ => true) (·.faultPc.toNat) fun n st => { st with faultPc := .ofNat 64 n },
      .num 8 (fun _ => true) (·.faultVa.toNat) fun n st => { st with faultVa := .ofNat 64 n },
      .num 17 (fun _ => true) (fun st => bitSum (st.lost.map Dst.code)) fun n st =>
        { st with lost := (bitList 136 n).map Dst.ofCode },
      .num 16 (fun _ => true) (fun st => bitSum st.parityErrors) fun n st => { st with parityErrors := bitList 128 n },
      pcSlot (·.frame.again) fun x => .inFrame fun f => { f with again := x },
      pcSlot (·.frame.skip) fun x => .inFrame fun f => { f with skip := x },
      pcSlot (·.frame.regionPc) fun x => .inFrame fun f => { f with regionPc := x }]

/-! ### The context -/

/-- Waves in age order, a pair's leading wave first; those with no place come last. -/
def Saved.waveOrder (x : Saved) : List Nat :=
  dedup ((x.bank.order.flatMap fun p => p.wave :: p.pair.toList).filter x.waves.has ++ x.waves.map (·.1))

def Saved.wave (x : Saved) (w : Nat) : Wave := x.waves.get w (Wave.fresh 16 0 0 0 0 0)
def Saved.strand (x : Saved) (k : Nat) : Strand := x.strands.get k (Strand.fresh 0 false 0)
def Saved.team (x : Saved) (t : Nat) : Team := x.teams.get t (Team.fresh 0 0 0 [] 0 [] [])
def Saved.liftBank (f : Slot Bank) : Slot Saved := f.within Saved.bank fun b (x : Saved) => { x with bank := b }
def Saved.liftWave (w : Nat) (f : Slot Wave) : Slot Saved :=
  f.within (·.wave w) fun y x => { x with waves := x.waves.change w fun _ => y }
def Saved.liftStrand (k : Nat) (f : Slot Strand) : Slot Saved :=
  f.within (·.strand k) fun y x => { x with strands := x.strands.change k fun _ => y }
def Saved.liftTeam (t : Nat) (f : Slot Team) : Slot Saved :=
  f.within (·.team t) fun y x => { x with teams := x.teams.change t fun _ => y }

/-- A word of a team's scratch or of a lane's registers, an element of a tile. -/
def regSlot (k n : Nat) : Slot Saved :=
  Saved.liftStrand k (.word (fun st => (st.regs.get n Reg.zero).val) fun x st =>
    { st with regs := st.regs.set n (Reg.of x (st.regs.get n Reg.zero).poison) })
def byteSlot (t a : Nat) : Slot Saved :=
  Saved.liftTeam t (.num 1 (fun _ => true) (fun x => (x.scratch.get a 0).toNat) fun n x =>
    { x with scratch := if n = 0 then x.scratch.drop a else x.scratch.set a (.ofNat 8 n) })
def tileSlot (c i : Nat) : Slot Saved :=
  .word (fun x => x.tiles.get (4096 * c + i) 0) fun w x =>
    { x with tiles := if w = 0 then x.tiles.drop (4096 * c + i) else x.tiles.set (4096 * c + i) w }

/-- An accumulator's image (R244), taken where the checks of WALOAD admit its header. -/
def accSlot (t n : Nat) : Slot Saved :=
  Saved.liftTeam t (.coded 16640 (fun x => ((x.accs.find n).map Acc.image).getD []) fun b x =>
    if headerOk (wordAt b 0) (wordAt b 4) then
      some { x with accs := x.accs.change n fun a => { Acc.ofImage b with bad := a.bad } }
    else none)

/-- The data of a sector of a store buffer, from other bytes. -/
def Team.setSector (x : Team) (sec : Nat) (b : List Byte) : Team :=
  { x with buffer := x.buffer.map fun c => if sectorOf c.1 = sec then (c.1, b.getD (c.1 % 64) 0) else c }

/-- A sector of a store buffer: 64 bytes of data, and its entry of the index: the flag of an uncommitted sector and 31 bits of its
number. DESIGN CHOICE (log 11): 4 KiB have no room for 1,024 whole addresses with byte masks, which stay with the device. -/
def bufferSlot (t k : Nat) : Slot Saved :=
  Saved.liftTeam t (.coded 64
    (fun x => match (sectorsOf x.buffer)[k]? with
      | some sec => (span (64 * sec) 64).map fun a => Tbl.get x.buffer a 0
      | none => [])
    fun b x => match (sectorsOf x.buffer)[k]? with
      | some sec => some (x.setSector sec b)
      | none => some x)
def indexSlot (t k : Nat) : Slot Saved :=
  Saved.liftTeam t (.shown 4 fun x => match (sectorsOf x.buffer)[k]? with
    | some sec => 2 ^ 31 + sec % 2 ^ 31
    | none => 0)

/-- A team whose areas lie in the bank; of another that has waves there, a fused-L1 one, the register areas of those waves alone
(R276). -/
def Saved.owns (x : Saved) (t : Nat) : Bool := (x.team t).bank = x.old

/-- The sizes of a team's areas in the bank half: its register areas, its scratch and its accumulators. -/
def Saved.areaSizes (x : Saved) (t : Nat) : List Nat :=
  let y := x.team t
  [((y.waves.map fun w => (x.wave w).alloc * (x.wave w).width * 4).sum)]
    ++ if x.owns t then [y.scratchSize, 16384 * y.accs.length] else [0, 0]

/-- Where an area of a team lies in the bank half. -/
def Saved.areaOffset (x : Saved) (t j : Nat) : Nat := x.offsets.get (4 * t + j) 0

def teamSlots (x : Saved) (t : Nat) : List (Slot Saved) :=
  let shown := fun (n : Nat) (f : Team → Nat) => Saved.liftTeam t (.shown n f)
  [shown 4 (·.teamId), shown 4 (·.grid)]
  ++ ((List.range 8).map fun b => Saved.liftTeam t (.word (fun x => (x.barriers.get b ⟨0, []⟩).phase) fun w x =>
    { x with barriers := x.barriers.set b { x.barriers.get b ⟨0, []⟩ with phase := w } }))
  ++ ((List.range 8).map fun b => Saved.liftTeam t (.spare 2 fun x => toBytes 2 (x.barriers.get b ⟨0, []⟩).arrived.length))
  ++ [Saved.liftTeam t (.num 1 (fun n => n < 8)
        (fun x => (if x.contained then 1 else 0) + (if x.exposed then 2 else 0) + (if x.redundant then 4 else 0))
        fun n x => { x with contained := n.testBit 0, exposed := n.testBit 1, redundant := n.testBit 2 })]
  ++ ((List.range 3).map fun j =>
    .num 4 (fun _ => true) (·.areaOffset t j) fun n y => { y with offsets := y.offsets.set (4 * t + j) n })
  ++ (x.areaSizes t).map (fun n => .shown 4 fun _ => n)
  ++ [.shown 1 fun y => if y.owns t then (y.team t).accs.length else 0, .shown 4 fun _ => t,
      .shown 2 fun y => if y.owns t then bitSum (y.team t).tiles else 0, shown 8 fun y => bitSum y.tags,
      .shown 1 fun y => if y.owns t then 1 else 0]

/-- An entry of the matrix queue (R227), in 96 bytes; of an MXRD or MXWR issue the number of its lanes (log 11). -/
def MxEntry.bytes (x : MxEntry) (group : Nat) : List Byte :=
  let (code, rest) : Nat × List Byte := match x.op with
    | .mma type reuse hA hB koff k =>
      (type, toBytes 32 hA.toNat ++ toBytes 32 hB.toNat ++ toBytes 4 koff ++ toBytes 4 k ++ toBytes 1 (if reuse then 1 else 0))
    | .zero => (8, [])
    | .store h row rows => (9, toBytes 32 h.toNat ++ toBytes 1 row ++ toBytes 1 rows)
    | .access l => (10, toBytes 1 l.length)
  toBytes 1 code ++ toBytes 1 x.tile ++ toBytes 1 (waveSlot x.wave) ++ toBytes 1 x.lane ++ toBytes 2 x.progress ++ toBytes 4 group
    ++ toBytes 1 1 ++ rest

/-- The entry that other bytes give. -/
def MxEntry.ofBytes (e : MxEntry) (b : List Byte) : Option MxEntry :=
  let n := fun (off len : Nat) => fromBytes ((b.drop off).take len)
  let e := { e with tile := n 1 1, wave := waveNo (waveBank e.wave) (n 2 1), lane := n 3 1, progress := n 4 2 }
  let handle := fun (off : Nat) => (.ofNat 256 (n off 32) : HRec)
  match n 0 1 with
  | 8 => some { e with op := .zero }
  | 9 => if hValid (handle 11) then some { e with op := .store (handle 11) (n 43 1) (n 44 1) } else none
  | 10 => some (match e.op with | .access _ => e | _ => { e with op := .access [] })
  | t =>
    if t < 6 && hValid (handle 11) && hValid (handle 43) then
      some { e with op := .mma t (n 83 1 = 1) (handle 11) (handle 43) (n 75 4) (n 79 4) }
    else none

/-- The commit group of an entry's command (R220): its number, 0 for the open group. -/
def Saved.groupOf (x : Saved) (e : MxEntry) : Nat :=
  (((x.strand (strandNo e.wave e.lane)).closed.find? fun (g : Group) => g.commands.contains e.id).map fun (g : Group) => g.number).getD 0

def entrySlot (k : Nat) : Slot Saved :=
  .coded 96 (fun x => (x.bank.mxQueue[k]?.map fun e => e.bytes (x.groupOf e)).getD []) fun b x =>
    match x.bank.mxQueue[k]? with
    | some e => (e.ofBytes b).map fun y => { x with bank := { x.bank with mxQueue := x.bank.mxQueue.set k y } }
    | none => none

/-- The team tiles of the context. -/
def Saved.tilesHeld (x : Saved) : List Nat := (x.teams.filter fun p => x.owns p.1).flatMap fun p => p.2.tiles

/-- The nine sections of R265. Record sizes and orders are its own; the places of the fields within a record are the model's, and so
is the number of the save behind the bank's tag records, by which CTXLOAD finds what no field names (log 11). -/
def Saved.sections (x : Saved) : List (List (Slot Saved)) :=
  let teams := x.teams.map (·.1)
  let own := teams.filter x.owns
  let queues := 2304 + 34816 * x.waves.length + 256 * x.teams.length
  [slotRecord x.id 256 2048 (bankSlots.map Saved.liftBank ++ [.shown 8 fun _ => x.id]),
   (x.waveOrder.zipIdx.flatMap fun p =>
     let base := 2304 + 34816 * p.2
     slotRecord x.id base 2048 ((waveSlots (waveSlot p.1)).map (Saved.liftWave p.1))
       ++ (List.range 64).flatMap fun l =>
         slotRecord x.id (base + 2048 + 512 * l) 512 (laneSlots.map (Saved.liftStrand (strandNo p.1 l)))),
   (teams.zipIdx.flatMap fun p => slotRecord x.id (queues - 256 * (x.teams.length - p.2)) 256 (teamSlots x p.1)),
   slotSection (teams.flatMap fun t => (x.team t).waves.flatMap fun w =>
     (List.range (x.wave w).alloc).flatMap fun n => (List.range (x.wave w).width).map fun l => regSlot (strandNo w l) n),
   slotSection (own.flatMap fun t => (span 0 (x.team t).scratchSize).map (byteSlot t)),
   slotSection (own.flatMap fun t => (x.team t).accs.map fun a => accSlot t a.1),
   ((own.filter fun t => (x.team t).contained).flatMap fun t =>
     (List.range 1024).map (bufferSlot t) ++ (List.range 1024).map (indexSlot t)),
   ((List.range 64).flatMap fun k => slotRecord x.id (queues + 256 * k) 256 [entrySlot k]),
   (x.tilesHeld.flatMap fun c => (List.range 4096).map (tileSlot c))]

/-- Where each section starts, from byte `n` on. -/
def sectionOffsets : Nat → List Nat → List Nat
  | _, [] => []
  | n, x :: l => n :: sectionOffsets (n + x) l

def Saved.slots (x : Saved) : List (Slot Saved) :=
  let sections := x.sections
  let sizes := sections.map slotsSize
  let show' := fun (n v : Nat) => (Slot.shown n fun _ => v : Slot Saved)
  [show' 4 0x53564143, show' 2 1, show' 1 x.waves.length, show' 1 x.teams.length, show' 2 (x.bank.asid.getD 0), show' 1 x.vmid,
   Slot.spare 1 fun y => toBytes 1 y.bank.mmrMode.toNat, show' 1 x.level, show' 1 x.tilesHeld.length, show' 2 0,
   show' 8 (256 + sizes.sum)] ++ (sectionOffsets 256 sizes).map (show' 8) ++ [.fixed 160 fun _ => []] ++ sections.flatten

/-- The bytes of the save area. -/
def Saved.area (x : Saved) : List Byte := slotsBytes x.slots x

/-- The context as an area's bytes have it, none where a field's map rejects its bytes (R264). -/
def Saved.readArea (x : Saved) (b : List Byte) : Option Saved := slotsRead x.slots b x

/-! ### An area whose context the device does not know -/

/-- A wave of an area, and its slot. -/
def areaWave (rd : Nat → Nat → Nat) : Nat × Wave :=
  let slot := rd 670 1
  let partner := rd 668 2
  (waveNo 0 slot,
    { Wave.fresh (rd 658 1) (rd 676 1) (rd 659 1) (rd 660 4) (rd 672 4) (rd 664 2) with
      partner := if partner = 0xFFFF then none else some (waveNo 0 partner), trailing := rd 671 1 = 1 })

/-- A team of an area with its number; its waves are those that name it, leading ones first, by WAVEID. -/
def areaTeam (rd : Nat → Nat → Nat) (waves : List (Nat × Wave)) : Nat × Team :=
  let t := rd 82 4
  let mine := fun (trailing : Bool) => (List.range 64).flatMap fun k =>
    (waves.filter fun p => p.2.team = t && p.2.waveId = k && p.2.trailing = trailing).map (·.1)
  (t, { Team.fresh (rd 4 4) (rd 0 4) (if rd 96 1 = 1 then 0 else 1) (mine false ++ mine true) (rd 73 4) (bitList 16 (rd 86 2)) (bitList 64 (rd 88 8)) with
        contained := (rd 56 1).testBit 0, exposed := (rd 56 1).testBit 1, redundant := (rd 56 1).testBit 2
        accs := (List.range (rd 81 1)).map fun n => (n, Acc.empty 0x10000002) })

/-- The context that an area describes by itself: its waves, teams, buffered sectors and matrix commands. What no field of R265 names
is as at placement; a meet is presented again, and a pending grow requested again, by the strands that stand at its instruction
(R175, R183). -/
def State.describedAt (s : State) (pa : Nat) : Option Saved :=
  let rd := fun (off n : Nat) => s.peekNum (pa + off) n
  let nw := rd 6 1
  let waves := (List.range nw).map fun i => areaWave fun off n => rd (2304 + 34816 * i + off) n
  let teams := (List.range (rd 7 1)).map fun i => areaTeam (fun off n => rd (2304 + 34816 * nw + 256 * i + off) n) waves
  let index := fun (i k : Nat) => rd (rd 72 8 + 69632 * i + 65536 + 4 * k) 4
  let contained := (teams.filter fun p => p.2.contained).map (·.1)
  let buffered := fun (t : Nat) => (List.range 1024).flatMap fun k =>
    let e := index (contained.idxOf t) k
    if 2 ^ 31 ≤ e then (span (64 * (e - 2 ^ 31)) 64).map fun a => (a, (0 : Byte)) else []
  let entries := (List.range 64).filterMap fun k =>
    let b := s.peek (pa + rd 80 8 + 256 * k) 96
    let wave := waveNo 0 (fromBytes ((b.drop 2).take 1))
    if b.getD 10 0 = 0 then none
    else ({ id := s.nextId + k, issue := none, op := .zero, tile := 0, wave := wave, lane := 0, progress := 0, residue := 0,
            team := ((waves.find? (·.1 = wave)).map fun p => p.2.team).getD 0 } : MxEntry).ofBytes b
  let tiles := teams.flatMap fun p => p.2.tiles
  let ok := (waves.all fun p => decide (waveSlot p.1 < 32 ∧ p.2.alloc ≤ 128 ∧ (p.2.width = 16 ∨ p.2.width = 32 ∨ p.2.width = 64)))
    && (waves.map (·.1)).Nodup && (teams.map (·.1)).Nodup && decide (waves.length ≤ 32)
    && teams.all fun p => decide (p.2.scratchSize ≤ Config.halfBytes ∧ p.2.accs.length ≤ 16)
  if !ok then none
  else some
    { pa := pa, id := rd 1312 8, old := 0, vmid := rd 10 1, level := rd 12 1
      bank := { Bank.reset with
        asid := some (rd 8 2), mxQueue := entries, mapping := if tiles.isEmpty then 0 else if tiles.any (8 ≤ ·) then 16 else 8
        order := (waves.filter fun p => !p.2.trailing).map fun p => ⟨p.1, p.2.partner⟩ }
      waves := waves.foldl (fun t p => t.set p.1 p.2) []
      strands := (waves.flatMap fun p => (List.range p.2.width).map (strandNo p.1)).foldl
        (fun (t : Tbl Strand) k => t.set k (Strand.fresh 0 true 0)) []
      teams := teams.foldl (fun t p => t.set p.1
        (if p.2.contained then { p.2 with buffer := (buffered p.1).foldl (fun b c => Tbl.set b c.1 c.2) [] } else p.2)) []
      tiles := [], tileBad := [], offsets := [], watches := [] }

/-- The strands of a context that the device does not know go on from the instruction at which they stand. -/
def Saved.again (x : Saved) : Saved :=
  { x with strands := x.strands.mapVal fun _ (st : Strand) =>
      match st.life with
      | .blocked (.meet ..) | .blocked (.grow _) | .blocked .growPending | .blocked (.line _) | .waiting (.acks ..) =>
        { st with life := .ready }
      | _ => st }

/-- The context that a save area in memory holds: that of the save whose number it has, wherever software has moved it, or the one that
it describes by itself; none where a field's map rejects its bytes. -/
def State.savedAt (s : State) (pa : Nat) : Option Saved :=
  let read := fun (x : Saved) => x.readArea (s.peek pa (slotsSize x.slots))
  ((s.device.saved.find? fun x => x.id = s.peekNum (pa + 1312) 8).bind read).or (((s.describedAt pa).bind read).map Saved.again)

/-- The bank half takes every area at its saved offset (R264). -/
def Saved.areasFit (x : Saved) : Bool :=
  let areas := x.teams.flatMap fun p => (x.areaSizes p.1).mapIdx fun j n => (x.areaOffset p.1 j, n)
  areas.all (fun a => a.2 = 0 || decide (a.1 % 256 = 0 ∧ a.1 + a.2 ≤ Config.halfBytes))
    && (areas.zipIdx.all fun a => areas.zipIdx.all fun b =>
      a.2 = b.2 || a.1.2 = 0 || b.1.2 = 0 || decide (a.1.1 + a.1.2 ≤ b.1.1 ∨ b.1.1 + b.1.2 ≤ a.1.1))

/-- The areas of a bank's teams one after another. -/
def Saved.placeAreas (x : Saved) : Saved :=
  let sizes := x.teams.flatMap fun p => (x.areaSizes p.1).mapIdx fun j n => (4 * p.1 + j, n)
  { x with offsets := (sizes.foldl (fun (acc : Nat × Tbl Nat) p => (acc.1 + p.2, acc.2.set p.1 acc.1)) (0, [])).2 }

end Sys2Proof.Machine
end

