-- ==== Sys2Proof/Machine/Sys.lean ====
section
/-!
DEFINITION. The SYS class (R255 to R260, R271): RDS, WRS, TLBINV, UNPARK, SWAPCTX, TRAPRET, HALT, SLEEP and LMAPW, and
pre-emption (R261 to R265): the bank swap, CTXSAVE and CTXLOAD with the save area.
-/

namespace Sys2Proof.Machine

/-! ### RDS and WRS (R254, R256) -/

/-- A level check of the SYS class (R254, R255). -/
def Env.needLevel (e : Env) (n : Nat) : Act Unit := require (decide (n ≤ e.level)) (.fault ILLOP 0 0)

/-- The registers that a system register takes: one, or a pair. -/
def systemRegs (n d : Nat) : List Nat := if systemWide n then [d, d + 1] else [d]

def execRds (d : BitVec 7) (n : BitVec 14) (s : State) : Host.Outcome State Fault Refusal :=
  runLane s fun e => do
    e.exist (systemRegs n.toNat d.toNat)
    e.needLevel (systemReadLevel n.toNat)
    require (!isFaultReg n.toNat || e.st.handler.isSome) (.fault ILLOP 0 0)
    if e.trailing then e.follow e.st d.toNat
    else
      e.room
      let v := e.s.readSystem e.key n.toNat
      let ws : List Word := if systemWide n.toNat then [v.setWidth 32, (v >>> 32).setWidth 32] else [v.setWidth 32]
      pure (e.give e.s e.st d.toNat (ws.map fun w => (w, false)))

/-- The value that WRS reads, with its poison. -/
def Env.systemOperand (e : Env) (n r : Nat) : Act (Dword × Bool) :=
  if systemWide n then e.readPair r else do
    let (x, p) ← e.read r
    pure (x.setWidth 64, p)

/-- SCRIBEENT refuses a write while a scribe strand is live, and an entry whose budget word exceeds 32 (R361). -/
def Env.scribeWriteOk (e : Env) (v : Dword) : Bool :=
  let entry : VAddr := .ofNat 57 (fld v.toNat 4 53 * 16)
  let word := ((e.s.device.contexts.find 0).bind fun c => c.version (scribeLaunch entry)).bind fun x => e.s.budgetWord x entry
  !e.s.scribeLive (coreCluster e.coreKey) && !(v.getLsbD 0 && decide (32 < word.getD 0))

def execWrs (x : BitVec 7) (n : BitVec 14) (s : State) : Host.Outcome State Fault Refusal :=
  runLane s fun e => do
    e.exist (systemRegs n.toNat x.toNat)
    match systemWriteLevel n.toNat with
    | none => illop
    | some level =>
      e.needLevel level
      let (v, _) ← e.loose.systemOperand n.toNat x.toNat
      require (systemValueOk n.toNat v && (n.toNat ≠ 0x23 || e.scribeWriteOk v)) (.fault ILLOP 0 0)
      let (v, p) ← e.systemOperand n.toNat x.toNat
      require (!p) .poison
      if e.trailing && n.toNat ≠ 0x10 then pure (e.retire e.s e.st)
      else pure (e.retire (e.s.writeSystem e.key n.toNat v) e.st)

/-! ### Status instructions -/

/-- A status that is there at once, given to the leading and the trailing wave (R255, R267). -/
def Env.status (e : Env) (s : State) (d : Nat) (x : Nat) : State := e.give s e.st d [(.ofNat 32 x, false)]

/-- A status that arrives later: the strand is Waiting for it (R255). -/
def Env.statusLater (e : Env) (s : State) (d id : Nat) (p : Pending) : State :=
  let st := (e.offer (e.st.await d id) id [] []).tick 1
  { s with pending := s.pending.set id p }.setStrand e.key { st with life := .waiting (.reply id) }

/-- The lane that a token may name (R258). DESIGN CHOICE (log 48): a lane of the scribe slot, which lies in neither bank (R328), has the
token of slot 0; the token is that of the lane which is Parked with its SEQ. -/
def tokenStrands (x : Nat) : List Nat :=
  let core := fld x 12 9
  strandNo (waveNo (bankNo core (fld x 11 1)) (fld x 6 5)) (fld x 0 6) ::
    if fld x 6 5 = 0 then [strandNo (waveNo (scribeBank core) 32) (fld x 0 6)] else []

/-- A Parked lane with the SEQ of a token. -/
def State.parkedFor (s : State) (x k : Nat) : Bool :=
  (s.strands.find k).any fun st => st.life = .parked && st.seq.toNat = fld x 22 10

/-- The instruction at which a lane is Parked takes a fault of its own in each wave of a pair: a fetch, and what neither yields a value
nor is compared (R267, R268). -/
def State.faultsAlone (s : State) (k : Nat) (st : Strand) : Bool :=
  match s.fetch k st with
  | .bundle b _ => (match b.result with | .ok (.cwb .., _) | .ok (.cinv .., _) | .error _ => true | _ => false)
  | .missing _ => true

/-- UNPARK on a token: the status and the state (R252, R258). The lane re-executes its instruction alone (R128), or takes its fault to
its handler; of a leading lane the trailing one takes the same fault (log 27). -/
def State.unpark (s : State) (x : Nat) : Nat × State :=
  match (tokenStrands x).find? (s.parkedFor x) with
  | none => (2, s)
  | some k =>
    match s.strands.find k with
    | none => (2, s)
    | some st =>
      let again := decide (fld x 21 1 = 0)
      let s := s.setStrand k { st with life := .ready, wait := 0, solo := again }
      if again then (0, s.wake (strandCore k))
      else
        let code := fld st.faultCode.toNat 0 8
        let arg := fld st.faultCode.toNat 8 8
        let skip := match s.fetch k st with
          | .bundle b _ => st.pc + BitVec.ofNat 57 (4 * b.length)
          | .missing _ => st.pc + 4
        let leading := (s.waves.find (strandWave k)).any fun w => w.partner.isSome && !w.trailing
        let s := if leading && !s.faultsAlone k st then
            s.modStrand k fun y => y.faultShared (s.core (strandCore k)).issueCount code arg st.faultVa
          else s
        (0, (s.trap k (s.gridOf k) code arg st.faultVa skip).wake (strandCore k))

def execUnpark (d a : BitVec 7) (s : State) : Host.Outcome State Fault Refusal :=
  runLane s fun e => do
    e.exist [d.toNat, a.toNat]
    e.needLevel 1
    let x ← e.use a.toNat
    if e.trailing then e.follow e.st d.toNat
    else
      e.room
      let (code, s) := e.s.unpark x.toNat
      pure (e.status s d.toNat code)

def execSwapctx (d a : BitVec 7) (s : State) : Host.Outcome State Fault Refusal :=
  runLane s fun e => do
    e.exist [d.toNat, a.toNat]
    e.needLevel 1
    let x ← e.use a.toNat
    if e.trailing then e.follow e.st d.toNat
    else
      e.room
      if 512 ≤ x.toNat then pure (e.status e.s d.toNat 3)
      else if (e.s.core x.toNat).halted || e.s.retiredCore x.toNat then pure (e.status e.s d.toNat 2)
      else
        let (id, s) := e.s.fresh
        let s := e.statusLater s d.toNat id (.swap e.key d.toNat x.toNat)
        pure (s.requestSwap x.toNat (some id))

/-- A core holds a resident wave in either bank (R172). -/
def State.coreResident (s : State) (core : Nat) : Bool :=
  s.waves.any fun p => waveBank p.1 < 1024 && bankCore (waveBank p.1) = core && s.waveLive p.1

/-- LMAPW's status and state (R271). -/
def State.writeLaneMap (s : State) (x y : Nat) : Nat × State :=
  let lane := fld x 0 7
  let core := fld y 0 9
  let state := fld x 8 2
  let old := lmapState ((s.core core).lmapReg lane)
  if fld x 7 1 ≠ 0 ∨ fld x 16 16 ≠ 0 ∨ fld y 9 23 ≠ 0 ∨ 64 < lane ∨ state = 2 ∨ old = 2 ∨ old = 3 then (3, s)
  else if s.coreResident core then (2, s)
  else
    let v : Word := .ofNat 32 (state * 64 + (if state = 0 then fld x 10 6 else 0))
    (0, (s.modCore core fun c => { c with lmap := c.lmap.set lane v }).losePin)

/-- The core is a scribe core whose wave has to move before its lane map changes (R328). -/
def State.scribeToMove (s : State) (core : Nat) : Bool :=
  (match (s.cluster (coreCluster core)).scribe with
  | some w => bankCore (waveBank w) = core && s.waveLive w
  | none => false) &&
  (List.range 8).any fun j => decide (core < 8 * coreCluster core + j) && !s.retiredCore (8 * coreCluster core + j)

def execLmapw (d a b : BitVec 7) (s : State) : Host.Outcome State Fault Refusal :=
  runLane s fun e => do
    e.exist [d.toNat, a.toNat, b.toNat]
    e.needLevel 2
    let ((x, xp), (y, yp)) ← both (e.read a.toNat) (e.read b.toNat)
    require (!(xp || yp)) .poison
    require (!e.s.scribeToMove (fld y.toNat 0 9)) .hold
    if e.trailing then e.follow e.st d.toNat
    else
      e.room
      let (code, s) := e.s.writeLaneMap x.toNat y.toNat
      pure (e.status s d.toNat code)

/-! ### TLBINV (R259, R323) -/

/-- The least level of a TLBINV operand. -/
def tlbinvLevel (x : Nat) : Nat := if fld x 21 2 = 1 ∨ fld x 21 2 = 3 then 2 else 1

/-- A range of addresses holds an address. -/
def inRange (r : Nat × Nat) (a : Nat) : Bool := decide (r.1 ≤ a) && decide (a < r.1 + r.2)

/-- An entry that a TLBINV drops: with a page, whatever was read from its descriptor (R259, R323). -/
def TlbEntry.matches (t : TlbEntry) (kind asid vmid va : Nat) : Bool :=
  match kind with
  | 0 => t.asid = asid && inRange t.page (va % 2 ^ 57)
  | 1 => t.vmid = vmid && inRange t.page2 va
  | 2 => t.asid = asid
  | _ => t.vmid = vmid

/-- The matching entries are dropped, and copies that have stopped may try again (R307, R323). DEDUCED (log 49): they may from the
moment at which the invalidation begins, since an access that the TLBINV awaits may wait for a line of such a copy. -/
def State.dropEntries (s : State) (kind asid vmid va : Nat) : State :=
  let keep := fun (t : TlbEntry) => !t.matches kind asid vmid va
  { s with
    cores := s.cores.mapVal fun _ (c : Core) => { c with tlb := c.tlb.filter keep }
    clusters := s.clusters.mapVal fun _ (c : Cluster) => { c with tlb := c.tlb.filter keep }
    banks := s.banks.mapVal fun _ (b : Bank) =>
      { b with copies := b.copies.map fun (c : Copy) => { c with retry := c.retry || c.stopped.isSome } } }

/-- The outstanding accesses that may have been translated by a matching entry (R324): of the ASID, and with a page, of the largest
page around its address; of the VMID those of every ASID behind it. -/
def State.accessIds (s : State) (kind asid vmid va : Nat) : List Nat :=
  let mine := fun (a v : Nat) => match kind with
    | 0 => a = asid && v / 2 ^ 30 = va % 2 ^ 57 / 2 ^ 30
    | 2 => a = asid
    | _ => (match s.asidEntry a with | some (_, true, v) => v = vmid | _ => false)
  (s.loads.filter fun l => mine l.asid l.va).map (·.id) ++ (s.atomics.filter fun a => mine a.asid a.va).map (·.id)
    ++ (s.stores.filter fun r => mine r.asid r.va).map (·.id)

/-- A walk that waits at a locked descriptor, of the ASID or the VMID that a TLBINV names (R325). -/
def State.walkOverlaps (s : State) (w : Walk) (kind asid vmid : Nat) : Bool :=
  w.locked.isSome && (if kind % 2 = 0 then w.asid = asid
    else match s.asidEntry w.asid with | some (_, true, v) => v = vmid | _ => false)

/-- TLBINV, which is a release at device scope before its invalidation begins. -/
def execTlbinv (a b : BitVec 7) (s : State) : Host.Outcome State Fault Refusal :=
  runLane s fun e => do
    e.exist [a.toNat, a.toNat + 1, b.toNat]
    e.needLevel 1
    let (x, _) ← e.loose.read b.toNat
    e.needLevel (tlbinvLevel x.toNat)
    require (fld x.toNat 23 9 = 0) (.fault ILLOP 0 0)
    let ((va, vp), (x, xp)) ← both (e.readPair a.toNat) (e.read b.toNat)
    e.releaseOnce (reqWords va.toNat [x.toNat]) 5 (fun _ => require (!(vp || xp)) .poison)
      (fun e =>
        let (id, s) := e.s.fresh
        let (kind, asid, vmid) := (fld x.toNat 21 2, fld x.toNat 0 13, fld x.toNat 13 8)
        let s := (s.dropEntries kind asid vmid va.toNat).exposeOf e.exposing
        let p := Pending.tlbinv e.key kind asid vmid va.toNat (s.accessIds kind asid vmid va.toNat) (s.walks.map (·.id))
        let st := (e.offer e.st id [] []).tick 1
        pure ({ s with pending := s.pending.set id p }.setStrand e.key { st with life := .waiting (.reply id) }))
      fun _ s => pure (e.retire s e.st)

/-- TLBINV_COMPLETE (R259, R324, R325): when every walk that could have loaded a matching entry has ended, what it has loaded is
dropped, and the accesses that have used it are awaited too; when the accesses have ended, the strand goes on. -/
def execTlbinvComplete (id : Nat) (s : State) : Host.Outcome State Fault Refusal :=
  eventStep s fun s => do
    match ← s.pending.find id with
    | .tlbinv k kind asid vmid va accesses walks =>
      guard (!(s.walks.any fun w => walks.contains w.id || s.walkOverlaps w kind asid vmid))
      let s := s.dropEntries kind asid vmid va
      if !walks.isEmpty then
        let p := Pending.tlbinv k kind asid vmid va (accesses ++ s.accessIds kind asid vmid va) []
        some { s with pending := s.pending.set id p }
      else
        guard (!s.awaits accesses false)
        some ({ s with pending := s.pending.drop id }.deliver k id 0 [])
    | _ => none

/-! ### TRAPRET, HALT and SLEEP (R257, R260) -/

/-- TRAPRET and TRAPRET.skip: the drain of the handler's window comes first (R21, R257). -/
def trapret (s : State) (next : Frame → VAddr) : Host.Outcome State Fault Refusal :=
  runLane s fun e =>
    match e.st.handler with
    | none => illop
    | some f => do
      require e.st.drained .hold
      pure (e.s.setStrand e.key ((e.st.tick 1).leaveHandler f (next f)))

def execTrapret (s : State) : Host.Outcome State Fault Refusal := trapret s Frame.again
def execTrapretSkip (s : State) : Host.Outcome State Fault Refusal := trapret s Frame.skip

def execHalt (s : State) : Host.Outcome State Fault Refusal :=
  runLane s fun e => do
    e.needLevel 1
    pure (((e.retire e.s e.st).modCore e.coreKey fun c => { c with halted := true }).losePin)

def execSleep (s : State) : Host.Outcome State Fault Refusal :=
  runLane s fun e => pure (e.s.setStrand e.key { e.st.tick 1 with life := .blocked .sleep })

/-! ### The bank swap (R261) -/

/-- Answers the head of a core's swap requests. -/
def State.answerSwap (s : State) (reply : Option Nat) (code : Nat) : State :=
  match reply with
  | none => s
  | some id =>
    match s.pending.find id with
    | some (.swap k d _) => { s with pending := s.pending.drop id }.deliver k id d [(.ofNat 32 code, false)]
    | _ => s

/-- The strands of a bank that waits in WAITLINE look again when it becomes active (R135, R262). -/
def State.rearm (s : State) (bank : Nat) : State :=
  { s with watches := s.watches.map fun (w : Watch) =>
    if waveBank (strandWave w.strand) = bank then { w with written := true } else w }

/-- BANK_SWAP (R255, R261, R362): after the drain the banks change roles, the run of the wave that issued last ends, and the latched A is released
(R162, R219, R227); an empty shadow bank refuses, and so does a halted core. Where
priority 3 has left the bank that comes in before it came, the swap back is asked for. -/
def execBankSwap (core : Nat) (s : State) : Host.Outcome State Fault Refusal :=
  eventStep s fun s => do
    let c := s.core core
    let reply ← c.swaps.head?
    let bank := s.activeBank core
    guard (s.issue.all fun i => i.core ≠ core)
    guard (!(c.results.any fun r => waveBank (strandWave r.strand) = bank && r.unit ≠ 0))
    let s := s.setCore core { c with swaps := c.swaps.drop 1 }
    let other := bankNo core (1 - c.active)
    if (s.bank other).asid.isNone || c.halted then some (s.answerSwap reply 2)
    else
      let s := (s.modBank bank Bank.endRun).modCore core fun c => { c with active := 1 - c.active, latch := none }
      let s := s.rearm other
      some (((s.answerSwap reply 0).wake core).swapBack core)

/-! ### CTXSAVE and CTXLOAD (R263 to R265) -/

/-- The operands of CTXSAVE and CTXLOAD: v[b] and the save area's address (R263). -/
def saveOperands (pa x : Nat) : Bool := fld x 10 22 = 0 && pa % 65536 = 0 && decide (pa < 2 ^ 52)

/-- The bank that v[b] names. -/
def saveBank (x : Nat) : Nat := bankNo (fld x 0 9) (fld x 9 1)

def execCtxsave (d a b : BitVec 7) (s : State) : Host.Outcome State Fault Refusal :=
  runLane s fun e => do
    e.exist [d.toNat, a.toNat, a.toNat + 1, b.toNat]
    e.needLevel 1
    let ((pa, pp), (x, xp)) ← both (e.readPair a.toNat) (e.read b.toNat)
    require (!(pp || xp)) .poison
    if e.trailing then e.follow e.st d.toNat
    else
      e.room
      let bank := saveBank x.toNat
      if !saveOperands pa.toNat x.toNat then pure (e.status e.s d.toNat 3)
      else if e.s.activeBank (bankCore bank) = bank then pure (e.status e.s d.toNat 1)
      else if (e.s.bank bank).asid.isNone then pure (e.status e.s d.toNat 2)
      else
        let (id, s) := e.s.fresh
        pure (e.statusLater s d.toNat id (.ctxsave e.key d.toNat bank pa.toNat))

def execCtxload (d a b : BitVec 7) (s : State) : Host.Outcome State Fault Refusal :=
  runLane s fun e => do
    e.exist [d.toNat, a.toNat, a.toNat + 1, b.toNat]
    e.needLevel 1
    let ((pa, pp), (x, xp)) ← both (e.readPair a.toNat) (e.read b.toNat)
    require (!(pp || xp)) .poison
    if e.trailing then e.follow e.st d.toNat
    else
      e.room
      let bank := saveBank x.toNat
      let core := bankCore bank
      if !saveOperands pa.toNat x.toNat then pure (e.status e.s d.toNat 3)
      else if e.s.activeBank core = bank then pure (e.status e.s d.toNat 1)
      else if (e.s.bank bank).asid.isSome || e.s.retiredCore core || (e.s.core core).halted then
        pure (e.status e.s d.toNat 2)
      else
        let (id, s) := e.s.fresh
        pure (e.statusLater s d.toNat id (.ctxload e.key d.toNat bank pa.toNat))

/-- What must have ended before a bank is saved (R263). -/
def State.saveBusy (s : State) (bank : Nat) : Bool :=
  let mine := fun (k : Nat) => waveBank (strandWave k) = bank
  let core := bankCore bank
  s.loads.any (fun l => mine l.strand) || s.atomics.any (fun a => mine a.strand)
    || s.stores.any (fun r => r.strands.any mine || r.home = core) || s.walks.any (fun w => w.who.strand.any mine)
    || !(s.bank bank).copies.isEmpty || ((s.core core).results.any fun r => mine r.strand)
    || (s.flights.any fun f => f.core = core) || (s.updates.any fun u => u.writer = coreDie core)
    || s.teams.any (fun p => p.2.waOps.any fun o => p.2.bank = bank || mine o.strand)
    || (s.clusters.any fun p => p.2.pushing.any fun q => mine q.1)
    || s.pending.any fun p => match p.2 with
      | .launch k _ _ _ | .tlbinv k _ _ _ _ _ _ | .swap k _ _ | .ctxsave k _ _ _ | .ctxload k _ _ _ | .status k _ _ => mine k

/-- The context of a bank as CTXSAVE saves it: of a fused-L1 team the part in this bank (R276). -/
def State.saveImage (s : State) (id bank pa : Nat) : Saved :=
  let core := s.core (bankCore bank)
  let b := s.bank bank
  let waves : Tbl Wave := s.waves.filter fun p => waveBank p.1 = bank
  let teams : Tbl Team := s.teams.filter fun p => p.2.residesIn bank
  let held := (teams.filter fun (p : Nat × Team) => p.2.bank = bank).flatMap fun (p : Nat × Team) => p.2.tiles
  let level := (waves.map fun p => s.gridLevel p.2.grid).foldl max 0
  Saved.placeAreas
  { pa := pa, id := id, old := bank, level := level
    vmid := match s.asidEntry (b.asid.getD 0) with | some (_, true, v) => v | _ => 0
    bank := { b with order := b.order.filter fun p => waves.any (·.1 = p.wave) }
    waves := waves, strands := s.bankStrands bank, teams := teams
    tiles := held.foldl (fun (t : Tbl Word) c =>
      ((core.tile (s.physTile bank c)).zipIdx).foldl (fun t p => if p.1 = 0 then t else t.set (4096 * c + p.2) p.1) t) []
    tileBad := held.flatMap fun c =>
      (core.tileBad.filter fun p => p / 2048 = s.physTile bank c).map fun p => 2048 * c + p % 2048
    offsets := []
    watches := s.watches.filter fun w => waveBank (strandWave w.strand) = bank }

/-- A bank without its context: its waves, teams, tiles and latched A are gone (R209, R219, R263). A fused-L1 team that has waves
elsewhere goes on (R277). -/
def State.freeBank (s : State) (bank : Nat) (x : Saved) : State :=
  let held := x.tilesHeld.map (s.physTile bank)
  let whole := fun (t : Team) => t.bank = bank && !t.waiting && t.waves.all fun w => waveBank w = bank
  let s := { s with
    waves := s.waves.filter fun p => waveBank p.1 ≠ bank
    strands := s.strands.filter fun p => waveBank (strandWave p.1) ≠ bank
    teams := Tbl.mapVal (s.teams.filter fun (p : Nat × Team) => !whole p.2) fun _ (t : Team) => t.move bank (awayBank x.id)
    watches := s.watches.filter fun w => waveBank (strandWave w.strand) ≠ bank }
  (s.modCore (bankCore bank) fun c =>
    { c with tiles := c.tiles.filter fun p => !held.contains (p.1 / 4096)
             tileBad := c.tileBad.filter fun p => !held.contains (p / 2048)
             latch := if c.latch.any (fun (l : Latch) => l.bank = bank) then none else c.latch }).setBank bank Bank.reset

/-- A team of a bank that holds a tile with an uncorrectable word, which the save would read (R228). -/
def State.faultyTiles (s : State) (bank : Nat) : Option Nat :=
  (s.teams.find? fun p => p.2.bank = bank && !p.2.waiting &&
    p.2.tiles.any fun n => (s.core (bankCore bank)).tileFaulty (s.physTile bank n)).map (·.1)

/-- CTXSAVE_COMPLETE: the save area is written by physical address, where every die sees it, and the bank is freed. -/
def execCtxsaveComplete (id : Nat) (s : State) : Host.Outcome State Fault Refusal :=
  eventStep s fun s => do
    match ← s.pending.find id with
    | .ctxsave k d bank pa =>
      let core := bankCore bank
      let s' := { s with pending := s.pending.drop id }
      if s.activeBank core = bank then some (s'.deliver k id d [(1, false)])
      else if (s.bank bank).asid.isNone then some (s'.deliver k id d [(2, false)])
      else if (s.core core).l1.any fun x => !x.dirty.isEmpty then some (s.writeBackAll [core])
      else
        guard (!s.saveBusy bank)
        match s.faultyTiles bank with
        | some t => some (s.killTeam t MXCHK { ErrorRec.blank with core := core })
        | none =>
          let x := s.saveImage id bank pa
          guard (!s.runOwned pa (slotsSize x.slots))
          let s := s'.writeEverywhere pa x.area
          let s := { s with device := { s.device with saved := x :: s.device.saved.filter (·.pa ≠ pa) } }
          some ((s.freeBank bank x).deliver k id d [(0, false)])
    | _ => none

/-- What becomes of a saved team at a load: it goes on as the fused-L1 team whose other part is resident, or it comes back whole; it is
gone where its grid has aborted or it has died meanwhile (R284, R291). -/
inductive Return where
  | joins
  | comes
  | gone
  deriving DecidableEq, Repr

def State.returns (s : State) (x : Saved) (n : Nat) (t : Team) : Return :=
  let away := awayBank x.id
  let live := (s.grids.find t.grid).any fun (g : Grid) => g.status = 0 && !g.retired
  match s.teams.find n with
  | some u =>
    if u.bank = away || u.waves.any (fun w => waveBank w = away) then .joins
    else if live && x.owns n && (u.grid ≠ t.grid || u.teamId ≠ t.teamId || (!u.waiting && u.relaunches = t.relaunches)) then .comes
    else .gone
  | none => if live && x.owns n && t.waves.all (fun w => waveBank w = x.old) then .comes else .gone

/-- The saved context without the teams that are gone, and their waves. -/
def Saved.without (x : Saved) (gone : List Nat) : Saved :=
  let waves : Tbl Wave := x.waves.filter fun p => !gone.contains p.2.team
  { x with
    waves := waves, teams := x.teams.filter fun p => !gone.contains p.1
    strands := x.strands.filter fun p => waves.has (strandWave p.1)
    watches := x.watches.filter fun w => waves.has (strandWave w.strand)
    bank := { x.bank with
      order := x.bank.order.filter fun p => waves.has p.wave, current := x.bank.current.filter waves.has
      grows := x.bank.grows.filter waves.has, mxQueue := x.bank.mxQueue.filter fun e => !gone.contains e.team } }

/-- The tiles of a context in a bank (R209). -/
def Saved.restoreTiles (x : Saved) (s : State) (bank : Nat) : State :=
  let tile := fun (c : Nat) => if x.bank.mapping = 16 then c else 8 * bankIndex bank + c
  s.modCore (bankCore bank) fun c =>
    let c := x.tilesHeld.foldl (fun c n => c.setTile (tile n) ((List.range 4096).map fun i => x.tiles.get (4096 * n + i) 0)) c
    { c with tileBad := c.tileBad.filter (fun p => !(x.tilesHeld.map tile).contains (p / 2048))
                          ++ x.tileBad.map fun p => 2048 * tile (p / 2048) + p % 2048 }

/-- The bank's own state, its wave, team and tile numbers moved. -/
def Saved.restoreBank (x : Saved) (bank : Nat) (tn : Nat → Nat) : Bank :=
  let mv := moveWave x.old bank
  let tile := fun (m : Nat) => if x.bank.mapping = 16 then m else 8 * bankIndex bank + m % 8
  { x.bank with
    order := x.bank.order.map fun (p : Place) => ⟨mv p.wave, p.pair.map mv⟩, current := x.bank.current.map mv
    grows := x.bank.grows.map mv
    mxQueue := x.bank.mxQueue.map fun (e : MxEntry) => { e with
      issue := none, wave := mv e.wave, team := tn e.team, tile := tile e.tile
      op := match e.op with
        | .access l => .access (l.map fun (y : MxLane) => { y with strand := moveStrand x.old bank y.strand, tile := tile y.tile })
        | op => op } }

/-- What has happened to a restored strand meanwhile: a barrier's phase has completed, or the grid of its GWAIT has retired, whose
status comes with an acquire (R277, R285, R338). -/
def State.resumeStrand (s : State) (k : Nat) (st : Strand) : State :=
  match st.life with
  | .blocked (.barrier b phase) =>
    if (s.teams.find (s.teamOf k)).any fun t => (t.barrier b).phase ≠ phase then
      s.modStrand k fun st => { st with life := .ready, wait := 0 }
    else s
  | .blocked (.grid g d id) =>
    (match s.grids.find g with
    | some y =>
      if y.retired then
        ((s.dropClean (s.l1Of k)).deliver k id d [(.ofNat 32 (y.status % 256), false)]).modStrand k fun st =>
          { st with life := .ready, wait := 0 }
      else s
    | none => s)
  | _ => s

/-- Puts a saved context into an empty bank: in its slots, with its own tiles, in the physical tiles that R209 gives them. A team
number that is in use is replaced by a new one. -/
def State.restore (s : State) (x : Saved) (bank : Nat) : State :=
  let fate := fun (p : Nat × Team) => s.returns x p.1 p.2
  let x := x.without ((x.teams.filter fun p => fate p = .gone).map (·.1))
  let mv := moveWave x.old bank
  let ms := moveStrand x.old bank
  let coming := x.teams.filter fun p => fate p = .comes
  let taken := (coming.filter fun p => s.teams.has p.1).map (·.1)
  let tn := fun (t : Nat) => match taken.findIdx? (· = t) with | some i => s.nextId + i | none => t
  let s := { s with
    nextId := s.nextId + taken.length
    waves := x.waves.foldl (fun (t : Tbl Wave) (p : Nat × Wave) =>
      t.set (mv p.1) { p.2 with partner := p.2.partner.map mv, team := tn p.2.team }) s.waves
    strands := x.strands.foldl (fun (t : Tbl Strand) (p : Nat × Strand) => t.set (ms p.1) p.2) s.strands
    parks := x.strands.foldl (fun (t : Tbl (BitVec 10)) (p : Nat × Strand) => t.set (ms p.1) p.2.seq) s.parks
    teams := coming.foldl (fun (t : Tbl Team) (p : Nat × Team) => t.set (tn p.1) (p.2.move x.old bank))
      (s.teams.mapVal fun _ (t : Team) => t.move (awayBank x.id) bank)
    grids := s.grids.mapVal fun g (y : Grid) =>
      if x.teams.any (·.2.grid = g) then { y with places := dedup (y.places ++ [bankCore bank]) } else y
    watches := s.watches ++ x.watches.map fun (w : Watch) => { w with strand := ms w.strand, team := tn w.team, written := true } }
  let s := x.restoreTiles (s.setBank bank (x.restoreBank bank tn)) bank
  let s := (s.releaseMapping bank).releaseBank bank
  (s.bankStrands bank).foldl (fun s p => s.resumeStrand p.1 p.2) s

/-- CTXLOAD_COMPLETE: the checks of the header, of the saved fields, of the areas and of the tiles, then the bank is filled
(R264). -/
def execCtxloadComplete (id : Nat) (s : State) : Host.Outcome State Fault Refusal :=
  eventStep s fun s => do
    match ← s.pending.find id with
    | .ctxload k d bank pa =>
      let s := { s with pending := s.pending.drop id }
      let answer := fun (s : State) (code : Nat) => some (s.deliver k id d [(.ofNat 32 code, false)])
      let other := (s.bank (if bank % 2 = 0 then bank + 1 else bank - 1)).mapping
      if s.activeBank (bankCore bank) = bank then answer s 1
      else if (s.bank bank).asid.isSome then answer s 2
      else if s.peekNum pa 4 ≠ 0x53564143 ∨ s.peekNum (pa + 4) 2 ≠ 1 then answer s 4
      else
        match s.savedAt pa with
        | none => answer s 4
        | some x =>
          if !x.areasFit || (x.bank.mapping = 16 && other ≠ 0) || (x.bank.mapping ≠ 0 && other = 16) then answer s 5
          else answer (s.restore x bank) 0
    | _ => none

end Sys2Proof.Machine
end

