-- ==== Sys2Proof/Machine/Arrivals.lean ====
section
/-!
DEFINITION. The events by which results, accesses, fills, walks and records reach their place: the divide unit, the SFU
and the conversions (R84, R111, R112), loads (R125, R317), atomics (R129, R130), stores (R315, R337), WAITLINE (R135),
instruction lines (R170), walks (R319 to R325), cross-die delivery (R353, R354), fault records (R327), handler entry
(R252), parity (R25) and the clock gate (R177, R178).
-/

namespace Sys2Proof.Machine

/-! ### Results of the units -/

/-- A result of unit 0 divide, 1 SFU or 2 conversion arrives: the registers, and the flags into FSTAT (R18, R111). -/
def State.unitResult (s : State) (unit id : Nat) : Option State := do
  let (core, c) ← s.cores.find? fun p => p.2.results.any fun r => r.id = id && r.unit = unit
  let r ← c.results.find? fun r => r.id = id && r.unit = unit
  let s := s.setCore core { c with results := c.results.filter (·.id ≠ id) }
  pure (s.modStrand r.strand fun st =>
    let st := r.dst.foldl (fun st p => st.arrive id (.v p.1) p.2 false) st
    { st with fstat := st.fstat ||| r.flags })

def execIdivResult (id : Nat) (s : State) : Host.Outcome State Fault Refusal := eventStep s fun s => s.unitResult 0 id
def execSfuResult (id : Nat) (s : State) : Host.Outcome State Fault Refusal := eventStep s fun s => s.unitResult 1 id
def execCvtResult (id : Nat) (s : State) : Host.Outcome State Fault Refusal := eventStep s fun s => s.unitResult 2 id

/-- HANDLER_ENTRY (R252): the queued SFU and conversion results have arrived. -/
def execHandlerEntry (strand : Nat) (s : State) : Host.Outcome State Fault Refusal :=
  eventStep s fun s => do
    let st ← s.strands.find strand
    match st.life with
    | .waiting (.handler code va pc skip) =>
      guard (!s.queued strand)
      let base := (s.bank (waveBank (strandWave strand))).trapBase
      let cause := code % 256
      let again := if cause = TRAPCODE ∨ cause = BRKCODE then skip else pc
      some (s.setStrand strand (st.enterHandler (base.setWidth 57) (strandLane strand) (.ofNat 32 code) (pc.setWidth 64) va
        again skip (cause = BRKCODE)))
    | _ => none

/-- PARITY_ROLLBACK (R25): a read of an awake strand finds a parity error in the read path of a register. -/
def execParityRollback (strand reg : Nat) (s : State) : Host.Outcome State Fault Refusal :=
  eventStep s fun s => do
    let st ← s.strands.find strand
    let w ← s.waves.find (strandWave strand)
    guard (s.awake strand st && decide (reg < w.alloc))
    some (s.parityError strand reg)

/-! ### Loads and atomics -/

/-- What a read of the watched element finds: WAITLINE ends where it differs or is poisoned, else the strand is Blocked (R135). -/
def State.waitlineRead (s : State) (w : Watch) (st : Strand) (l : Marked) : State :=
  if l.poisoned || decide (fromBytes l.bytes ≠ w.expected.toNat % 2 ^ (8 * w.size)) then
    let raw := waitWords w.size l
    let words := (s.produced w.strand (raw.map (·.1))).zip (raw.map (·.2))
    let lead := match s.waves.find (strandWave w.strand) with
      | some x => x.partner.isSome && !x.trailing
      | none => false
    let item : PairItem :=
      { pc := st.pc, issue := w.issue, seq := 0, fault := none, words := raw.map (·.1), poison := raw.map (·.2) }
    let done := words.zipIdx.foldl (fun (st : Strand) p =>
      st.push { dst := .v (w.d + p.2), val := p.1.1, poison := p.1.2, lat := 0, age := 0, transient := false, tag := none })
      { st with pc := w.next, life := .ready, wait := 0, values := if lead then st.values ++ [item] else st.values }
    ({ s with watches := s.watches.filter (·.id ≠ w.id) }.setStrand w.strand (done.tick 1)).rouse (strandCore w.strand)
  else s.setStrand w.strand { st with life := .blocked (.line w.id), wait := 0 }

/-- The value of a read reaches whoever has asked for it (R125, R131, R134, R135, R282). -/
def State.returnLoad (s : State) (l : Load) (b : List Byte) (p : Bool) : State :=
  match l.use with
  | .register => s.deliver l.strand l.id l.d ((loadWords l.size l.signed b).map fun w => (w, p))
  | .watch id =>
    (match s.watches.find? (·.id = id), s.strands.find l.strand with
    | some w, some st => s.waitlineRead w st (b.map fun x => (x, p))
    | _, _ => s)
  | .table meet part =>
    let wave := strandWave l.strand
    ((s.modWave wave fun w => { w with meets := w.meets.map fun (m : Meet) =>
      if m.id = meet then { m with parts := m.parts.set part (b, p) } else m }).tryMeet wave meet).rouse (strandCore l.strand)
  | .launch id part =>
    { s with pending := s.pending.change id fun x => match x with
      | .launch k d parts after => .launch k d (parts.set part (b, p)) after
      | x => x }
  | .prefetch .. => s

/-- What a read is served, and the state with what it has filled; none while it must wait. A PREF into the die's L2 fills the replica
alone, and one whose sector is poisoned fills nothing (R134). -/
def State.readLoad (s : State) (l : Load) : Option (List Byte × Bool × State) :=
  let own := strandCore l.strand
  match l.use with
  | .prefetch level _ => do
    let (b, p, t) ←
      if level = 0 then s.globalRead l.strand l.core l.pa l.size 0 l.pol l.clock l.id
      else if s.ownedByCopy (lineOf l.pa) then none
      else s.serveBelow (coreDie own) (some (coreCluster own)) l.pa l.size l.clock false
    pure (b, p, if p then s else t)
  | _ => s.globalRead l.strand l.core l.pa l.size l.acquire l.pol l.clock l.id

/-- LOAD_RETURN (R125, R317, R318, R355). -/
def execLoadReturn (id : Nat) (s : State) : Host.Outcome State Fault Refusal :=
  eventStep s fun s => do
    let l ← s.loads.find? (·.id = id)
    guard (l.granted && !(s.loadStands l && s.olderAtSlice l.pa l.id))
    let (b, p, s) ← s.readLoad l
    some ({ s with loads := s.loads.filter (·.id ≠ id) }.returnLoad l b p)

/-- A request that waits for a miss register gets one, or needs none any more (R317). -/
def State.grantMiss (s : State) (id : Nat) : State :=
  { s with
    loads := s.loads.map fun (x : Load) => if x.id = id then { x with granted := true } else x
    atomics := s.atomics.map fun (x : Atomic) => if x.id = id then { x with granted := true } else x
    stores := s.stores.map fun (x : PendStore) => if x.id = id then { x with granted := true } else x }

/-- A request that waits for a miss register while its line has come into the L1 area that serves it. -/
def State.requestHits (s : State) (id : Nat) : Bool :=
  s.stores.any (fun r => r.id = id && r.bytes.head?.any fun c => ((s.core r.core).line (lineOf c.1)).isSome)
    || s.loads.any (fun l => l.id = id
      && (s.l1Hit l.core (strandCore l.strand) l.pa l.size (s.revisionOf l.strand) (decide (3 ≤ l.acquire))).isSome)
    || s.atomics.any fun a => a.id = id && a.inBuffer && ((s.core a.core).line (lineOf a.pa)).isSome

/-- MISS_REGISTER_GRANT (R317): the oldest waiting line that a register may serve. -/
def execMissRegisterGrant (core : Nat) (s : State) : Host.Outcome State Fault Refusal :=
  eventStep s fun s => do
    let p ← (s.missWaiting core).find? fun p => s.missFree core p.2 || s.requestHits p.1
    some (s.grantMiss p.1)

/-- An atomic whose old value has come back leaves, with its value and its acquire (R129, R348). Behind one of order .sc comes a
FENCE.sc, which waits until every die has applied what has been performed (R342, R343). -/
def State.finishAtomic (s : State) (a : Atomic) (old : Dword) (poison : Bool) : State :=
  let s := { s with atomics := s.atomics.filter (·.id ≠ a.id) }
  let acquire := a.order = 1 || 3 ≤ a.order
  let s := if acquire && decide (3 ≤ a.scope) then s.dropClean (s.l1Of a.strand) else s
  let s := s.deliver a.strand a.id a.d (if a.ret then (valueWords a.size old).map fun w => (w, poison) else [])
  let ids : List Nat := s.updates.map (·.id)
  if a.order = 4 && decide (3 ≤ a.scope) && s.awaits ids true then
    s.modStrand a.strand fun st => { st with life := .waiting (.settle ids) }
  else s

/-- The FENCE.sc behind an .sc atomic ends, an acquire in its turn (R342, R348). -/
def State.settled (s : State) : State :=
  s.strands.foldl (fun s p =>
    match p.2.life with
    | .waiting (.settle ids) =>
      if s.awaits ids true then s
      else (s.dropClean (s.l1Of p.1)).modStrand p.1 fun st => { st with life := .ready, wait := 0 }
    | _ => s) s

/-- The clean bytes of a line leave the L1 areas of some cores. -/
def State.takeClean (s : State) (cores : List Nat) (line : Nat) : State :=
  cores.foldl (fun s c => s.modCore c fun x =>
    { x with l1 := x.l1.filterMap fun y => if y.line = line then y.onlyDirty else some y }) s

/-- The performance of an atomic at its line's ordering point: the old value, its poison, the clock that it carries back, and the
state (R129, R130, R354, R355, R374). A poisoned element is left as it is. -/
def State.performAtomic (s : State) (a : Atomic) : Option (Dword × Bool × List Nat × State) := do
  let line := lineOf a.pa
  let old : Dword := .ofNat 64 (s.peekNum a.pa a.size)
  let bad := s.poisonedAt a.pa
  let new := if bad then old else atomicNew a.op a.isFloat a.size old a.x a.cmp
  let cells := Machine.place a.pa (toBytes a.size new.toNat)
  let single := s.revisionOf a.strand = 1 && 2 ≤ a.order && a.scope = 5
  let s' := (if single then s.dropReplicas line else s).noteRequest a.pa (coreCluster a.core)
  let w := coreDie a.core
  match homeDie a.pa with
  | none =>
    if s.linkLost a.pa then some (old, true, [], s)
    else some (old, bad, s.device.hostClock, ((s'.countSent a.pa).performNow a.id cells).joinHost w)
  | some h =>
    let done := fun (t : State) => (old, bad, (t.die h).clock, t)
    match a.stamp with
    | none => some (done (s'.performNow a.id cells))
    | some v => if applicable (s.die h).clock v w then some (done (s'.performAt a.id h w v cells)) else none

def State.changeAtomic (s : State) (a : Atomic) : State :=
  { s with atomics := s.atomics.map fun (x : Atomic) => if x.id = a.id then a else x }

/-- The team of an atomic dies of the poison that it has met (R130, R250). -/
def State.atomicDies (s : State) (a : Atomic) : State :=
  { s with atomics := s.atomics.filter (·.id ≠ a.id) }.killTeam (s.teamOf a.strand) POISON
    { laneError s a.strand 0 with pa := sectorOf a.pa * 64 }

/-- An atomic at its ordering point. One of a dead team is performed and tells nobody; a poisoned element kills the team; else the
old value goes back, once the clock of the strand's die allows (R355). -/
def State.atomicAtPoint (s : State) (a : Atomic) : Option State := do
  let die := coreDie a.core
  let (old, bad, clock, t) ← s.performAtomic a
  if a.orphan then some { t with atomics := t.atomics.filter (·.id ≠ a.id) }
  else
    let t := (t.takeClean (t.l1Of a.strand) (lineOf a.pa)).exposeOf (if bad then none else a.exposes)
    if bad && !s.linkLost a.pa then some (t.atomicDies a)
    else if clockGe (t.die die).clock clock then some (t.finishAtomic a old bad)
    else some (t.changeAtomic { a with done := some (old, bad, clock) })

/-- An atomic on the store buffer of its contained team (R290, R347): it reads the element as the team's loads do, and its new value
goes into the buffer, which commits where it is full. -/
def State.atomicInBuffer (s : State) (a : Atomic) : Option State := do
  let hit := (s.l1Hit a.core (strandCore a.strand) a.pa a.size (s.revisionOf a.strand) false).isSome
  guard (hit || !s.olderAtSlice a.pa a.id)
  let team := s.teamOf a.strand
  let (b, bad, t) ← s.globalRead a.strand a.core a.pa a.size 0 0 (s.die (coreDie a.core)).clock a.id
  if bad then some (t.atomicDies a)
  else
    let old : Dword := .ofNat 64 (fromBytes b)
    let new := atomicNew a.op a.isFloat a.size old a.x a.cmp
    let bytes := toBytes a.size new.toNat
    guard (t.bufferFits team a.pa a.size || t.allCompared team)
    some ((t.bufferStore team a.pa bytes).finishAtomic a old false)

/-- ATOMIC_PERFORM: an atomic for another die leaves with its stamp, is then performed at the ordering point, and its old
value reaches the strand once its die's clock allows (R354, R355). -/
def execAtomicPerform (id : Nat) (s : State) : Host.Outcome State Fault Refusal :=
  eventStep s fun s => do
    let a ← s.atomics.find? (·.id = id)
    let die := coreDie a.core
    match a.done with
    | some (old, poison, clock) =>
      guard (clockGe (s.die die).clock clock)
      some (s.finishAtomic a old poison)
    | none =>
      guard (a.granted && !s.awaits a.after a.applied)
      if a.inBuffer then s.atomicInBuffer a
      else
        guard (!s.recalled (lineOf a.pa) id a.core)
        if (homeDie a.pa).any (· ≠ die) && a.stamp.isNone then
          let (v, s) := s.stampWrite die
          some (s.changeAtomic { a with stamp := some v })
        else
          guard (!s.olderAtSlice a.pa id)
          s.atomicAtPoint a

/-! ### Stores -/

/-- A store of a strand that may be performed now: it has its miss register (R317), what it comes after is performed (R348), its issue
is over, so that one write has every lane's bytes of a sector, and no older store to its line from its cluster waits (R126, R121). -/
def State.storeMay (s : State) (r : PendStore) (pa : Nat) : Bool :=
  r.granted && !s.awaits r.after r.applied && !s.recalled (lineOf pa) r.id r.home
    && !(s.issue.any fun i => i.core = r.home && i.number = r.issue)
    && !(s.stores.takeWhile (·.id ≠ r.id)).any fun x =>
      coreCluster x.home = coreCluster r.home && x.bytes.head?.any fun c => lineOf c.1 = lineOf pa

/-- STORE_PERFORM: a write on its way is performed at its ordering point (R315, R337, R354); a store of a strand writes into the
L1 area, or leaves for its ordering point, the release that it makes exposing its team (R121, R291, R348). -/
def execStorePerform (id : Nat) (s : State) : Host.Outcome State Fault Refusal :=
  eventStep s fun s =>
    match s.flights.find? (·.id = id) with
    | some f => s.performFlight f
    | none => do
      let r ← s.stores.find? (·.id = id)
      let (pa, _) ← r.bytes.head?
      let strand ← r.strands.head?
      guard (s.storeMay r pa)
      let s := { s with stores := s.stores.filter (·.id ≠ id) }
      if r.bypass then
        some (s.sendStore (s.l1Of strand) r.home (some (waveBank (strandWave strand))) r.bytes r.single r.exposes)
      else some ((s.l1Write r.core r.bytes r.strands r.pol).exposeOf r.exposes)

/-- L1_WRITEBACK: a line leaves an L1 area, its dirty bytes on their way to the ordering point (R314, R337). -/
def execL1Writeback (core line : Nat) (s : State) : Host.Outcome State Fault Refusal :=
  eventStep s fun s => do
    let _ ← (s.core core).line line
    some (s.writeBack core line true)

/-- CROSS_DIE_APPLY (R354). -/
def execCrossDieApply (home die : Nat) (s : State) : Host.Outcome State Fault Refusal :=
  eventStep s fun s => (s.applyUpdate home die).map State.settled

/-- REPLICA_EVICT (R353): later updates find no replica, which is a notice. -/
def execReplicaEvict (die line : Nat) (s : State) : Host.Outcome State Fault Refusal :=
  eventStep s fun s => do
    let _ ← (s.die die).replica line
    some (s.modDie die fun d => { d with replicas := d.replicas.filter (·.line ≠ line) })

/-- The slice that orders a line of a die's home now (R315). -/
def Die.currentSlice (d : Die) (line : Nat) : Nat :=
  match d.moved.find? (·.line = line) with | some m => m.slice | none => homeSlice (line * 256)

/-- LINE_MIGRATE (R315): the line and its ordering point move to near slice 2c + (home index mod 2) of a cluster that made
12 of the last 16 requests. A full table of forwarding entries calls its oldest line home. -/
def execLineMigrate (line cluster : Nat) (s : State) : Host.Outcome State Fault Refusal :=
  eventStep s fun s => do
    let h ← homeDie (line * 256)
    guard (clusterDie cluster = h)
    let d := s.die h
    let c := cluster % 16
    let home := homeSlice (line * 256)
    guard (d.currentSlice line / 2 ≠ c)
    guard (decide (12 ≤ ((d.requests.get line []).filter (· = cluster)).length))
    let slice := 2 * c + home % 2
    let rest := d.moved.filter (·.line ≠ line)
    let same := rest.filter fun m => homeSlice (m.line * 256) = home
    let rest := if same.length < Config.forwardEntries then rest
      else match same.head? with | some m => rest.filter (·.line ≠ m.line) | none => rest
    some (s.setDie h { d with moved := if slice = home then rest else rest ++ [⟨line, slice⟩] })

/-! ### WAITLINE (R135) -/

/-- WAITLINE_WAKE: the watched line was written, or the watch was armed or re-armed. The element is translated and read again, the
watch armed on the line that holds it now; the read is a request like that of a load (R317, R318). -/
def execWaitlineWake (strand : Nat) (s : State) : Host.Outcome State Fault Refusal :=
  eventStep s fun s => do
    let w ← s.watches.find? (·.strand = strand)
    let st ← s.strands.find strand
    let bank := waveBank (strandWave strand)
    guard (w.written && (decide (1024 ≤ bank) || s.activeBank (bankCore bank) = bank))
    guard (!(s.loads.any (·.use = .watch w.id)))
    let rearmed := fun (line : Nat) =>
      { s with watches := s.watches.map fun (x : Watch) => if x.id = w.id then { x with line := line, written := false } else x }
    if w.isLocal then
      let s := rearmed w.line
      some (s.waitlineRead w st (s.scratchRead w.team w.offset w.size))
    else
      let core := strandCore strand
      let grid := s.gridOf strand
      let asid := s.asidOf strand
      match s.translateNow core asid (s.levelOf strand) w.va 2 kAtomic with
      | .ok pa =>
        let home := l1Core core (s.fusedOf grid) w.va
        let l : Load :=
          { id := 0, strand := strand, use := .watch w.id, core := home, asid := asid, va := w.va, pa := pa, size := w.size,
            signed := false, d := 0, acquire := w.scope, pol := w.pol, granted := false, clock := [] }
        some ((rearmed (memKey pa / 256)).request l).2
      | .error (.park code va kind reason stage level ipa vmid) =>
        some ({ s with watches := s.watches.filter (·.id ≠ w.id) }.park strand grid code va kind reason stage level ipa vmid)
      | .error .walkErr => some (s.walkError asid (laneError s strand w.va))
      | .error (.walk va) => s.askWalk (.line strand) core asid va
      | .error _ => none

/-! ### Fetch and translation -/

/-- A lane that has its bundle no longer waits for a line: its wait count begins at 0 (R164). -/
def State.fetchedFrom (s t : State) (core : Nat) : State :=
  { t with strands := t.strands.mapVal fun k (st : Strand) =>
      if strandCore k = core then
        (match s.fetch k st with | .missing _ => { st with wait := 0 } | .bundle .. => st)
      else st }

/-- FETCH_FILL (R15, R170, R319): the line of a word that an awake strand waits for, once nothing is in its way at its slice (R305, R318). -/
def execFetchFill (strand : Nat) (s : State) : Host.Outcome State Fault Refusal :=
  eventStep s fun s => do
    let st ← s.strands.find strand
    guard (s.awake strand st)
    match s.fetch strand st with
    | .bundle _ _ => none
    | .missing va =>
      let core := strandCore strand
      let asid := s.asidOf strand
      let version := s.versionOf strand
      match s.fetchAt core asid version (s.levelOf strand) va with
      | .ok (pa, sys) =>
        guard (s.sliceOpen (coreDie core) pa s.nextId)
        some (s.fetchedFrom (s.fillCode core asid version va pa sys) core)
      | .error (.park code va kind reason stage level ipa vmid) =>
        some (s.park strand (s.gridOf strand) code va kind reason stage level ipa vmid)
      | .error (.walk va) => s.askWalk (.fetch strand) core asid va
      | .error .walkErr => some (s.walkError asid (laneError s strand va))
      | .error _ => none

/-- TRANSLATION_WALK: the walker runs 64 walks of a die at once, the oldest first (R322). -/
def execTranslationWalk (id : Nat) (s : State) : Host.Outcome State Fault Refusal :=
  eventStep s fun s => do
    let w ← s.walks.find? (·.id = id)
    guard (w.locked.isNone && s.hasSlot w)
    some (s.walked w)

/-- WALK_LOCK_REREAD: the line of the locked descriptor was written (R325). -/
def execWalkLockReread (id : Nat) (s : State) : Host.Outcome State Fault Refusal :=
  eventStep s fun s => do
    let w ← s.walks.find? (·.id = id)
    guard (w.locked.isSome && w.written)
    some (s.walked w)

/-- FAULT_RECORD_DELIVER: the oldest held record whose queue's ring has space (R327); error records that are held go to theirs
(R366). -/
def execFaultRecordDeliver (cluster : Nat) (s : State) : Host.Outcome State Fault Refusal :=
  eventStep s fun s =>
    let c := s.cluster cluster
    let put := c.records.findSome? fun r =>
      (s.ringPut (if r.stage2 then c.fqBase2 else c.fqBase) r.bytes).map fun t => (r, t)
    match put with
    | some (r, s) => some (s.modCluster cluster fun c => { c with records := c.records.erase r })
    | none => some s.flushHeld

/-! ### The clock gate (R177, R178) -/

/-- CORE_GATE: no strand of the active bank, and no scribe strand, is Ready or Waiting. -/
def execCoreGate (core : Nat) (s : State) : Host.Outcome State Fault Refusal :=
  eventStep s fun s => do
    guard (!(s.core core).gated && s.issue.all fun i => i.core ≠ core)
    let bank := s.activeBank core
    guard (!(s.strands.any fun p =>
      let b := waveBank (strandWave p.1)
      (b = bank || b = scribeBank core) && s.running p.1 p.2))
    some (s.modCore core fun c => { c with gated := true, woken := false })

/-- CORE_WAKE. -/
def execCoreWake (core : Nat) (s : State) : Host.Outcome State Fault Refusal :=
  eventStep s fun s => do
    guard ((s.core core).gated && (s.core core).woken)
    some (s.modCore core fun c => { c with gated := false, woken := false })

end Sys2Proof.Machine
end

