-- ==== Sys2Proof/Machine/Platform.lean ====
section
/-!
DEFINITION. The management path, the host, the peers, the network, the security block and power: HBMSTAT (R364), lane
failure (R270, R272), core reset (R87, R171), the host's commands (R260, R367 to R369), the Lute links (R373, R374), the
network windows (R376, R377), accesses from outside (R370, R371), boot, attestation and test access (R378 to R380).
-/

namespace Sys2Proof.Machine

/-! ### HBMSTAT (R364) -/

/-- HBMSTAT_CLEAR: the ones of a level-2 write clear bits of UE and MSCCE. -/
def execHbmstatClear (stack : Nat) (s : State) : Host.Outcome State Fault Refusal :=
  eventStep s fun s => do
    let ones ← s.device.hbmClear.find stack
    let mask : Dword := ones &&& 0xFFFFFFFF00000000
    some (s.setDevice { s.device with
      hbmStat := s.device.hbmStat.set stack (s.device.hbmStat.get stack 0 &&& ~~~mask)
      hbmClear := s.device.hbmClear.drop stack })

/-- SCRUB_PASS_END: the counts of the pass, each up to its maximum. -/
def execScrubPassEnd (stack ecs rowmax : Nat) (s : State) : Host.Outcome State Fault Refusal :=
  eventStep s fun s => do
    guard (decide (stack < 8))
    let old := s.device.hbmStat.get stack 0
    let new : Dword := (old &&& 0xFFFFFFFF00000000) ||| .ofNat 64 (min ecs 65535 * 65536 + min rowmax 65535)
    some (s.setDevice { s.device with hbmStat := s.device.hbmStat.set stack new })

/-! ### Lane failure (R270 to R272) -/

/-- A team is resident on a core, in either of its banks. -/
def State.coreHolds (s : State) (core : Nat) : Bool :=
  s.teams.any fun p => p.2.residesIn (bankNo core 0) || p.2.residesIn (bankNo core 1)

/-- Takes a physical lane out of use with STATE 2 or 3 (R171): its logical lane moves to an idle spare; else the first 32
good lanes carry the logical lanes 0 to 31, and with fewer the core is Retired. -/
def Core.lose (c : Core) (n state : Nat) : Core :=
  let old := c.lmapReg n
  if 2 ≤ lmapState old then c
  else
    let out : Core := { c with lmap := c.lmap.set n (.ofNat 32 (state * 64)) }
    if lmapState old = 1 then out
    else if c.config ≠ 2 ∧ n ≠ 64 ∧ lmapState (c.lmapReg 64) = 1 then
      { out with lmap := out.lmap.set 64 (.ofNat 32 (lmapLane old)) }
    else
      let good := out.goodLanes
      { out with lmap := good.zipIdx.foldl (fun t p =>
          t.set p.1 (if 32 ≤ good.length ∧ p.2 < 32 then .ofNat 32 p.2 else 0x40)) out.lmap }

/-- The physical lanes that a MISMATCH record names (R270). -/
def Mismatch.physical (m : Mismatch) : List Nat := dedup (m.lanes.flatMap fun d => d.leading.toList ++ d.trailing.toList)

/-- LANE_TEST (R270, R380), under test access: after a second mismatch, once no team is resident on the core. A lane fails where the
test finds it so, or where an injected fault acts on the logical lane that it carries (R272); if none fails, each lane that two records
name is quarantined. Placement resumes; a record stays until the team that was relaunched from it retires. -/
def execLaneTest (core : Nat) (failed : List Nat) (s : State) : Host.Outcome State Fault Refusal :=
  eventStep s fun s => do
    let c := s.core core
    guard (s.device.testAccess && c.held && !s.coreHolds core && !s.scribeToMove core)
    let named := dedup (c.mismatches.flatMap Mismatch.physical)
    let acts := fun (n : Nat) => match c.inject with
      | some (p, start) => p = n && decide (start < c.issueCount) && lmapState (c.lmapReg n) = 0
      | none => false
    let bad := named.filter fun n => failed.contains n || acts n
    let both := named.filter fun n => 2 ≤ (c.mismatches.filter fun m => m.physical.contains n).length
    let c := (if bad.isEmpty then both else bad).foldl (fun c n => c.lose n 3) c
    some (s.setCore core { c with held := false }).losePin

/-- FAIL_LANE_INJECT (R272, R380), under test access: from the core's issue number `issue` on, counted from 1 at the invocation. -/
def execFailLaneInject (core lane issue : Nat) (s : State) : Host.Outcome State Fault Refusal :=
  eventStep s fun s => do
    guard (s.device.testAccess && decide (core < Config.cores) && decide (lane ≤ 64))
    some (s.modCore core fun c => { c with inject := some (lane, c.issueCount + issue - 1) })

/-- The lane map with which a core leaves reset: from its fuses, the quarantined lanes staying lost, so that it does not return
to a configuration that it has left (R171, log 4). -/
def Core.fuseMap (c : Core) : Tbl Word :=
  (((List.range 65).filter fun n => 2 ≤ lmapState (c.lmapReg n)).foldl
    (fun d n => d.lose n (lmapState (c.lmapReg n))) Core.reset).lmap

/-- PATIENCE, GREED and CHKSB of a bank at their resets (R166). -/
def Bank.atReset (b : Bank) : Bank := { b with patience := 3, greed := 16, chksb := 0 }

/-- CORE_RESET (R87, R166, R171): a core without a resident team leaves reset with CLOCK at 0, its lane map from the fuses and the
registers of its banks at their resets. Dirty bytes of its L1 area are on their way first; what the management path keeps of
the core stays. -/
def execCoreReset (core : Nat) (s : State) : Host.Outcome State Fault Refusal :=
  eventStep s fun s => do
    guard (decide (core < Config.cores) && !s.coreHolds core && !s.scribeToMove core && (s.core core).swaps.isEmpty
      && s.issue.all fun i => i.core ≠ core)
    let s := s.writeBackAll [core]
    let c := s.core core
    let s := s.setCore core { Core.reset with
      active := c.active, lmap := c.fuseMap, items := c.items, halted := c.halted, held := c.held,
      mismatches := c.mismatches, inject := c.inject, issueCount := c.issueCount }
    some (((s.modBank (bankNo core 0) Bank.atReset).modBank (bankNo core 1) Bank.atReset).losePin)

/-! ### Commands of the host (R260, R367 to R369) -/

/-- The device takes commands and accesses from outside: in recovery it takes a new firmware image alone (R378). -/
def State.accepts (s : State) : Bool := s.device.boot ≠ .recovery

def execHostResumeCore (core : Nat) (s : State) : Host.Outcome State Fault Refusal :=
  eventStep s fun s =>
    if s.accepts && (s.core core).halted then some (s.modCore core fun c => { c with halted := false }) else none

def execPowerState (p : Nat) (s : State) : Host.Outcome State Fault Refusal :=
  eventStep s fun s => if s.accepts && decide (p < 8) then some (s.setDevice { s.device with power := p }) else none

/-- DIE_IDLE: accepted while no team is resident on the die and no grid pins a core there. -/
def execDieIdle (die : Nat) (s : State) : Host.Outcome State Fault Refusal :=
  eventStep s fun s => do
    guard (s.accepts && decide (die < Config.dies))
    guard ((List.range 128).all fun c => !s.coreHolds (128 * die + c))
    guard (s.grids.all fun p => p.2.retired || match p.2.launch.pin with | some c => coreDie c ≠ die | none => true)
    some (s.modDie die fun d => { d with idle := true })

def execDieResume (die : Nat) (s : State) : Host.Outcome State Fault Refusal :=
  eventStep s fun s => if s.accepts && (s.die die).idle then some (s.modDie die fun d => { d with idle := false }) else none

/-- THERMAL_STOP: the cores and the engines stop at their boundaries, with an error record (R369). -/
def execThermalStop (s : State) : Host.Outcome State Fault Refusal :=
  eventStep s fun s =>
    if s.device.stopped then none
    else some ((s.setDevice { s.device with stopped := true }).errorRecord { ErrorRec.blank with code := THERM, kind := 2 })

/-- THERMAL_RESUME: accepted below 95 °C (R369); the device goes on as if each core had swapped back in. -/
def execThermalResume (celsius : Nat) (s : State) : Host.Outcome State Fault Refusal :=
  eventStep s fun s =>
    if s.accepts && s.device.stopped && decide (celsius < 95) then
      let s := s.setDevice { s.device with stopped := false }
      some (s.cores.foldl (fun s p =>
        ((s.modBank (s.activeBank p.1) Bank.endRun).modCore p.1 fun c => { c with latch := none }).rearm (s.activeBank p.1)) s)
    else none

/-- DEVICE_RESET (R369): every context ends. Memory, the fuses, the schedule and the free values go on. -/
def execDeviceReset (s : State) : Host.Outcome State Fault Refusal :=
  .next { State.reset with
    mem := s.mem, poison := s.poison, turns := s.turns, nextId := s.nextId, freeCount := s.freeCount
    cores := s.cores.mapVal fun _ (c : Core) => { Core.reset with lmap := c.fuseMap }
    device := { Device.reset with rollback := s.device.rollback, rootKey := s.device.rootKey, ownerKey := s.device.ownerKey } }

/-! ### Accesses from outside (R370, R371, R374, R377) -/

/-- The lines that some bytes lie in. -/
def linesOf (pa n : Nat) : List Nat := dedup ((span pa n).map lineOf)

/-- Whether an outside agent's next write may be performed: the device takes it (R378), no copy owns a line of it (R305), and after a release or in
sequence every earlier write of the agent has reached every die (R340, R354, R371). -/
def State.outsideMay (s : State) (agent pa n : Nat) (ordered : Bool) : Bool :=
  s.accepts && (linesOf pa n).all (fun l => !s.ownedByCopy l)
    && !(ordered && s.updates.any fun u => (s.device.outside.get agent []).contains u.id)

/-- Performs an outside agent's write, line by line. -/
def State.outsideWrite (s : State) (agent pa : Nat) (bytes : List Byte) : State :=
  let (id, s) := s.fresh
  let s := (splitLines (Machine.place pa bytes)).foldl (fun s l => s.performNow id l) (s.cleanCovered pa bytes.length)
  let live := (s.device.outside.get agent []).filter fun k => s.updates.any (·.id = k)
  s.setDevice { s.device with outside := s.device.outside.set agent (live ++ [id]) }

/-- An access of an outside agent: a load changes nothing; an atomic on a poisoned element leaves it as it is. -/
def State.outsideAccess (s : State) (agent : Nat) (ordered : Bool) : Access → Option State
  | .load _ _ => if s.accepts then some s else none
  | .store pa bytes => if s.outsideMay agent pa bytes.length ordered then some (s.outsideWrite agent pa bytes) else none
  | .cas pa expected new =>
    if s.outsideMay agent pa new.length ordered then
      if expected.length = new.length ∧ s.peek pa expected.length = expected ∧ s.poisonedAt pa = false then
        some (s.outsideWrite agent pa new)
      else some s
    else none
  | .add pa n value =>
    if s.outsideMay agent pa n ordered then
      if s.poisonedAt pa then some s else some (s.outsideWrite agent pa (toBytes n (s.peekNum pa n + value)))
    else none

/-- The first address and the length of an access. -/
def accessRange : Access → Nat × Nat
  | .load pa n => (pa, n)
  | .store pa b => (pa, b.length)
  | .cas pa _ b => (pa, b.length)
  | .add pa n _ => (pa, n)

/-- HOST_ACCESS (R370): the host's access to device memory or to its own memory; a release comes after the host's earlier
writes. -/
def execHostAccess (acc : Access) (release : Bool) (s : State) : Host.Outcome State Fault Refusal :=
  eventStep s fun s => do
    let (pa, n) := accessRange acc
    guard ((isDevice pa && isDevice (pa + n - 1)) || (isHost pa && isHost (pa + n - 1)))
    s.outsideAccess 0 release acc

/-- PEER_ACCESS (R373, R374): the next request of a link's sequence; a duplicate is discarded. -/
def execPeerAccess (link seq : Nat) (acc : Access) (s : State) : Host.Outcome State Fault Refusal :=
  eventStep s fun s => do
    let l := s.device.link link
    let (pa, n) := accessRange acc
    guard (decide (link < 8) && l.up && decide (seq = l.received) && isDevice pa && isDevice (pa + n - 1))
    let s ← s.outsideAccess (1 + link) true acc
    some (s.setLink link { s.device.link link with received := seq + 1 })

/-- LUTE_FLIT_RETRANSMIT (R374): the flit is sent again, and the receiver discards what it has had; nothing changes. -/
def execLuteFlitRetransmit (_link _seq : Nat) (s : State) : Host.Outcome State Fault Refusal := .next s

/-- Whether accesses over a link are outstanding. -/
def State.linkBusy (s : State) (p : Nat) : Bool :=
  let here := fun (pa : Nat) => isPeer pa && peerOf pa = p
  s.loads.any (fun l => here l.pa) || s.atomics.any (fun a => here a.pa && a.done.isNone)
    || s.flights.any (fun f => here f.pa)
    || s.banks.any fun b => b.2.copies.any fun c => c.writes.any fun w => w.cells.head?.any fun x => here x.1

/-- LINKDOWN (R374): an error record; from now on the link's reads complete with poison and its writes are lost. -/
def execLinkdown (link : Nat) (s : State) : Host.Outcome State Fault Refusal :=
  eventStep s fun s => do
    let l := s.device.link link
    guard (decide (link < 8) && l.up)
    some ((s.setLink link { l with up := false }).errorRecord { ErrorRec.blank with code := LINKDOWN, kind := 2 })

/-- LUTE_LINK_UP (R249), once what was outstanding has completed. -/
def execLuteLinkUp (link : Nat) (s : State) : Host.Outcome State Fault Refusal :=
  eventStep s fun s => do
    let l := s.device.link link
    guard (decide (link < 8) && !l.up && !s.linkBusy link)
    some (s.setLink link { l with up := true })

/-! ### The network windows (R376, R377) -/

/-- NETERR: ERR is set in the table, and every team with a copy in progress through the window dies. -/
def execNeterr (window : Nat) (s : State) : Host.Outcome State Fault Refusal :=
  eventStep s fun s => do
    let (ok, _, _) ← s.windowEntry window
    guard ok
    let at' := fld s.device.nwtBase.toNat 12 40 * 4096 + 64 * window
    let first := fromBytes (s.peek at' 1)
    guard (!s.ownedByCopy (lineOf at'))
    let (id, s) := s.fresh
    let s := s.performNow id (Machine.place at' (toBytes 1 (first ||| 2)))
    let s := s.errorRecord { ErrorRec.blank with code := NETERR, kind := 2 }
    let copies := s.banks.flatMap fun p => p.2.copies.filter fun c => c.windows.contains window
    some ((dedup (copies.map (·.team))).foldl (fun s t => s.killTeam t NETERR ErrorRec.blank) s)

/-- The queue pair of a window's entry: its port and QPN (R376). -/
def State.queuePair (s : State) (window : Nat) : Nat :=
  let entry := fld s.device.nwtBase.toNat 12 40 * 4096 + 64 * window
  fld (s.peekNum entry 4) 2 3 * 2 ^ 24 + fld (s.peekNum (entry + 4) 4) 0 24

/-- INBOUND_RDMA_WRITE: bytes of the window's inbound region, each a release of the earlier ones of its queue pair. -/
def execInboundRdmaWrite (window offset : Nat) (bytes : List Byte) (s : State) : Host.Outcome State Fault Refusal :=
  eventStep s fun s => do
    let (ok, _, _) ← s.windowEntry window
    let entry := fld s.device.nwtBase.toNat 12 40 * 4096 + 64 * window
    let base := s.peekNum (entry + 32) 8
    let len := s.peekNum (entry + 40) 8
    guard (ok && decide (offset + bytes.length ≤ len) && isDevice (base + offset) && isDevice (base + len - 1))
    let agent := 16 + s.queuePair window
    guard (s.outsideMay agent (base + offset) bytes.length true)
    some (s.outsideWrite agent (base + offset) bytes)

/-! ### Boot, identity and test access (R378 to R380) -/

/-- The firmware passes the boot ROM's checks. -/
def State.firmwareOk (s : State) (f : SignedBlob) : Bool :=
  Config.ecdsaVerify s.device.rootKey (Config.sha256 f.bytes) f.signature && decide (s.device.rollback ≤ f.version)

/-- The firmware runs, and starts on every die the rubric program that the device has been given, where the owner key verifies it
(R359, R378). -/
def State.firmwareRuns (s : State) (f : SignedBlob) : State :=
  let s := s.setDevice { s.device with boot := .running, firmwareDigest := Config.sha256 f.bytes }
  match s.device.rubricImage with
  | none => s
  | some (rubric, signature, streams) =>
    match rubric.exports.head? with
    | none => s
    | some entry =>
      if rubric.asid = 0 ∧ s.ownerSigned rubric.file signature then
        match s.loadImage rubric with
        | some t => (List.range Config.dies).foldl (fun s d =>
            s.startRubric d (.ofNat 57 entry) (Config.sha256 rubric.file) (rubricArgs streams)) t
        | none => s
      else s

/-- BOOT: firmware that fails its checks leaves recovery. -/
def execBoot (firmware : SignedBlob) (rubric : Image) (signature : List Byte) (streams : Dword) (s : State) :
    Host.Outcome State Fault Refusal :=
  eventStep s fun s => do
    guard (s.device.boot = .off)
    let s := s.setDevice { s.device with rubricImage := some (rubric, signature, streams) }
    if s.firmwareOk firmware then some (s.firmwareRuns firmware)
    else some (s.setDevice { s.device with boot := .recovery })

/-- FIRMWARE_RECOVERY: in recovery a new firmware image that passes the checks runs. -/
def execFirmwareRecovery (firmware : SignedBlob) (s : State) : Host.Outcome State Fault Refusal :=
  eventStep s fun s =>
    if s.device.boot = .recovery ∧ s.firmwareOk firmware then some (s.firmwareRuns firmware) else none

/-- A digest in the 32 bytes of its field; one of what has not run is 0 (log 10). -/
def digestField (l : List Byte) : List Byte := (l ++ List.replicate 32 0).take 32

/-- The report of R379 before its signature. -/
def State.reportBody (s : State) (nonce : List Byte) : List Byte :=
  toBytes 4 0x54415453 ++ toBytes 2 1 ++ toBytes 2 s.device.imageDigests.length ++ nonce ++ digestField s.device.firmwareDigest
    ++ digestField (s.die 0).rubricDigest ++ toBytes 4 (if s.device.testAccess then 1 else 0) ++ toBytes 4 0
    ++ s.device.imageDigests.flatMap digestField

/-- ATTESTATION_REPORT. -/
def execAttestationReport (nonce : List Byte) (s : State) : Host.Outcome State Fault Refusal :=
  eventStep s fun s =>
    if s.accepts && nonce.length = 32 then
      let b := s.reportBody nonce
      some (s.setDevice { s.device with report := b ++ Config.identitySign b })
    else none

/-- TEST_UNLOCK: an unlock signed with the owner key; what the signature covers beyond that is not stated (log 10). -/
def execTestUnlock (signature : List Byte) (s : State) : Host.Outcome State Fault Refusal :=
  eventStep s fun s => if s.accepts && s.ownerSigned [] signature then some (s.setDevice { s.device with testAccess := true }) else none

/-- OWNER_KEY_ENROL: once. -/
def execOwnerKeyEnrol (key : List Byte) (s : State) : Host.Outcome State Fault Refusal :=
  eventStep s fun s =>
    if s.accepts && s.device.ownerKey.isNone then some (s.setDevice { s.device with ownerKey := some key }) else none

end Sys2Proof.Machine
end

