-- ==== Sys2Proof/Machine/Dispatch.lean ====
section
/-!
DEFINITION. The one dispatch of the machine: each instruction and each event is given its meaning.
-/

namespace Sys2Proof.Machine

def exec (i : Instr) (s : State) : Host.Outcome State Fault Refusal :=
  match i with
  | .hs n => Sys2Proof.Machine.execHs n s
  | .add t d a b => Sys2Proof.Machine.execAdd t d a b s
  | .sub t d a b => Sys2Proof.Machine.execSub t d a b s
  | .and t d a b => Sys2Proof.Machine.execAnd t d a b s
  | .or t d a b => Sys2Proof.Machine.execOr t d a b s
  | .xor t d a b => Sys2Proof.Machine.execXor t d a b s
  | .andn t d a b => Sys2Proof.Machine.execAndn t d a b s
  | .min t d a b => Sys2Proof.Machine.execMin t d a b s
  | .max t d a b => Sys2Proof.Machine.execMax t d a b s
  | .minb t d a b => Sys2Proof.Machine.execMinb t d a b s
  | .maxb t d a b => Sys2Proof.Machine.execMaxb t d a b s
  | .abs t d a => Sys2Proof.Machine.execAbs t d a s
  | .addc t d a b => Sys2Proof.Machine.execAddc t d a b s
  | .subb t d a b => Sys2Proof.Machine.execSubb t d a b s
  | .adds t d a b => Sys2Proof.Machine.execAdds t d a b s
  | .subs t d a b => Sys2Proof.Machine.execSubs t d a b s
  | .neg t d a => Sys2Proof.Machine.execNeg t d a s
  | .addImm t d a imm => Sys2Proof.Machine.execAddImm t d a imm s
  | .subImm t d a imm => Sys2Proof.Machine.execSubImm t d a imm s
  | .andImm t d a imm => Sys2Proof.Machine.execAndImm t d a imm s
  | .orImm t d a imm => Sys2Proof.Machine.execOrImm t d a imm s
  | .xorImm t d a imm => Sys2Proof.Machine.execXorImm t d a imm s
  | .andnImm t d a imm => Sys2Proof.Machine.execAndnImm t d a imm s
  | .minImm t d a imm => Sys2Proof.Machine.execMinImm t d a imm s
  | .maxImm t d a imm => Sys2Proof.Machine.execMaxImm t d a imm s
  | .minbImm t d a imm => Sys2Proof.Machine.execMinbImm t d a imm s
  | .maxbImm t d a imm => Sys2Proof.Machine.execMaxbImm t d a imm s
  | .addcImm t d a imm => Sys2Proof.Machine.execAddcImm t d a imm s
  | .subbImm t d a imm => Sys2Proof.Machine.execSubbImm t d a imm s
  | .addsImm t d a imm => Sys2Proof.Machine.execAddsImm t d a imm s
  | .subsImm t d a imm => Sys2Proof.Machine.execSubsImm t d a imm s
  | .shl t d a b => Sys2Proof.Machine.execShl t d a b s
  | .shr t d a b => Sys2Proof.Machine.execShr t d a b s
  | .sar t d a b => Sys2Proof.Machine.execSar t d a b s
  | .rol t d a b => Sys2Proof.Machine.execRol t d a b s
  | .bfx t d a b => Sys2Proof.Machine.execBfx t d a b s
  | .bfxb t d a b => Sys2Proof.Machine.execBfxb t d a b s
  | .bfi t d a b => Sys2Proof.Machine.execBfi t d a b s
  | .clz t d a => Sys2Proof.Machine.execClz t d a s
  | .popc t d a => Sys2Proof.Machine.execPopc t d a s
  | .brev t d a => Sys2Proof.Machine.execBrev t d a s
  | .prmt t d a b => Sys2Proof.Machine.execPrmt t d a b s
  | .fshf t d a b => Sys2Proof.Machine.execFshf t d a b s
  | .mul t d a b => Sys2Proof.Machine.execMul t d a b s
  | .mulhi t d a b => Sys2Proof.Machine.execMulhi t d a b s
  | .mulhib t d a b => Sys2Proof.Machine.execMulhib t d a b s
  | .mad t d a b => Sys2Proof.Machine.execMad t d a b s
  | .madhi t d a b => Sys2Proof.Machine.execMadhi t d a b s
  | .madhib t d a b => Sys2Proof.Machine.execMadhib t d a b s
  | .div d a b => Sys2Proof.Machine.execDiv d a b s
  | .divb d a b => Sys2Proof.Machine.execDivb d a b s
  | .rem d a b => Sys2Proof.Machine.execRem d a b s
  | .remb d a b => Sys2Proof.Machine.execRemb d a b s
  | .cmp c p a b => Sys2Proof.Machine.execCmp c p a b s
  | .cmpi c p a imm => Sys2Proof.Machine.execCmpi c p a imm s
  | .mov t d a => Sys2Proof.Machine.execMov t d a s
  | .movi t d imm => Sys2Proof.Machine.execMovi t d imm s
  | .rdsr t d n => Sys2Proof.Machine.execRdsr t d n s
  | .rdw t d n => Sys2Proof.Machine.execRdw t d n s
  | .rdk t d n => Sys2Proof.Machine.execRdk t d n s
  | .movToFstat a => Sys2Proof.Machine.execMovToFstat a s
  | .movFromFstat t d => Sys2Proof.Machine.execMovFromFstat t d s
  | .sel n t d a b => Sys2Proof.Machine.execSel n t d a b s
  | .pand d a b => Sys2Proof.Machine.execPand d a b s
  | .por d a b => Sys2Proof.Machine.execPor d a b s
  | .pxor d a b => Sys2Proof.Machine.execPxor d a b s
  | .pnot d a => Sys2Proof.Machine.execPnot d a s
  | .pset d a => Sys2Proof.Machine.execPset d a s
  | .pmov d a => Sys2Proof.Machine.execPmov d a s
  | .lea t d a h => Sys2Proof.Machine.execLea t d a h s
  | .add64 t d a b => Sys2Proof.Machine.execAdd64 t d a b s
  | .sub64 t d a b => Sys2Proof.Machine.execSub64 t d a b s
  | .shl64 t d a b => Sys2Proof.Machine.execShl64 t d a b s
  | .mulw t d a b => Sys2Proof.Machine.execMulw t d a b s
  | .cmp64 c p a b => Sys2Proof.Machine.execCmp64 c p a b s
  | .fadd t d a b => Sys2Proof.Machine.execFadd t d a b s
  | .fsub t d a b => Sys2Proof.Machine.execFsub t d a b s
  | .fmin t d a b => Sys2Proof.Machine.execFmin t d a b s
  | .fmax t d a b => Sys2Proof.Machine.execFmax t d a b s
  | .fmul t d a b => Sys2Proof.Machine.execFmul t d a b s
  | .fscale t d a b => Sys2Proof.Machine.execFscale t d a b s
  | .ffma t d a b => Sys2Proof.Machine.execFfma t d a b s
  | .ffms t d a b => Sys2Proof.Machine.execFfms t d a b s
  | .fnma t d a b => Sys2Proof.Machine.execFnma t d a b s
  | .fnms t d a b => Sys2Proof.Machine.execFnms t d a b s
  | .fcmp c p a b => Sys2Proof.Machine.execFcmp c p a b s
  | .fclass t d a => Sys2Proof.Machine.execFclass t d a s
  | .frnd t d a => Sys2Proof.Machine.execFrnd t d a s
  | .fcpys t d a b => Sys2Proof.Machine.execFcpys t d a b s
  | .fabs t d a => Sys2Proof.Machine.execFabs t d a s
  | .fneg t d a => Sys2Proof.Machine.execFneg t d a s
  | .ffrac t d a => Sys2Proof.Machine.execFfrac t d a s
  | .frcp d a => Sys2Proof.Machine.execFrcp d a s
  | .frsq d a => Sys2Proof.Machine.execFrsq d a s
  | .fsqrt d a => Sys2Proof.Machine.execFsqrt d a s
  | .fdiv d a b => Sys2Proof.Machine.execFdiv d a b s
  | .fexp2 d a => Sys2Proof.Machine.execFexp2 d a s
  | .flog2 d a => Sys2Proof.Machine.execFlog2 d a s
  | .fsinp d a => Sys2Proof.Machine.execFsinp d a s
  | .fcosp d a => Sys2Proof.Machine.execFcosp d a s
  | .ftanh d a => Sys2Proof.Machine.execFtanh d a s
  | .f2f d a y x => Sys2Proof.Machine.execF2f d a y x s
  | .f2i d a y x => Sys2Proof.Machine.execF2i d a y x s
  | .i2f d a y x => Sys2Proof.Machine.execI2f d a y x s
  | .i2i d a y x => Sys2Proof.Machine.execI2i d a y x s
  | .pack2 d a k y x => Sys2Proof.Machine.execPack2 d a k y x s
  | .unpack2 d a k y x => Sys2Proof.Machine.execUnpack2 d a k y x s
  | .hadd2 f t d a b => Sys2Proof.Machine.execHadd2 f t d a b s
  | .hsub2 f t d a b => Sys2Proof.Machine.execHsub2 f t d a b s
  | .hmul2 f t d a b => Sys2Proof.Machine.execHmul2 f t d a b s
  | .hfma2 f t d a b => Sys2Proof.Machine.execHfma2 f t d a b s
  | .hmin2 f t d a b => Sys2Proof.Machine.execHmin2 f t d a b s
  | .hmax2 f t d a b => Sys2Proof.Machine.execHmax2 f t d a b s
  | .idot4 u t d a b => Sys2Proof.Machine.execIdot4 u t d a b s
  | .fdot2 u t d a b => Sys2Proof.Machine.execFdot2 u t d a b s
  | .f8dot4 u t d a b => Sys2Proof.Machine.execF8dot4 u t d a b s
  | .nqdec y t d a b => Sys2Proof.Machine.execNqdec y t d a b s
  | .nqdecf y t d a b => Sys2Proof.Machine.execNqdecf y t d a b s
  | .nqdot y t d a b => Sys2Proof.Machine.execNqdot y t d a b s
  | .ld d h a y => Sys2Proof.Machine.execLd d h a y s
  | .lds d h a y => Sys2Proof.Machine.execLds d h a y s
  | .lda d h a y => Sys2Proof.Machine.execLda d h a y s
  | .st y h a c => Sys2Proof.Machine.execSt y h a c s
  | .strel y h a c => Sys2Proof.Machine.execStrel y h a c s
  | .aadd r d h a y => Sys2Proof.Machine.execAadd r d h a y s
  | .afadd r d h a y => Sys2Proof.Machine.execAfadd r d h a y s
  | .amin r d h a y => Sys2Proof.Machine.execAmin r d h a y s
  | .amax r d h a y => Sys2Proof.Machine.execAmax r d h a y s
  | .aminb r d h a y => Sys2Proof.Machine.execAminb r d h a y s
  | .amaxb r d h a y => Sys2Proof.Machine.execAmaxb r d h a y s
  | .aand r d h a y => Sys2Proof.Machine.execAand r d h a y s
  | .aor r d h a y => Sys2Proof.Machine.execAor r d h a y s
  | .axor r d h a y => Sys2Proof.Machine.execAxor r d h a y s
  | .axch r d h a y => Sys2Proof.Machine.execAxch r d h a y s
  | .acas r d h a y => Sys2Proof.Machine.execAcas r d h a y s
  | .ainc r d h a y => Sys2Proof.Machine.execAinc r d h a y s
  | .hld g h a e k => Sys2Proof.Machine.execHld g h a e k s
  | .hset g h a e k => Sys2Proof.Machine.execHset g h a e k s
  | .hrd g d h e k => Sys2Proof.Machine.execHrd g d h e k s
  | .hcpy g d a e k => Sys2Proof.Machine.execHcpy g d a e k s
  | .fenceAcq y => Sys2Proof.Machine.execFenceAcq y s
  | .fenceRel y => Sys2Proof.Machine.execFenceRel y s
  | .fenceAr y => Sys2Proof.Machine.execFenceAr y s
  | .fenceSc y => Sys2Proof.Machine.execFenceSc y s
  | .cwb h a y => Sys2Proof.Machine.execCwb h a y s
  | .cinv h a y => Sys2Proof.Machine.execCinv h a y s
  | .pref h a y => Sys2Proof.Machine.execPref h a y s
  | .waitline d h a y => Sys2Proof.Machine.execWaitline d h a y s
  | .nx o => Sys2Proof.Machine.execNx o s
  | .nxc n p o => Sys2Proof.Machine.execNxc n p o s
  | .nxi a => Sys2Proof.Machine.execNxi a s
  | .call l o => Sys2Proof.Machine.execCall l o s
  | .calli l a => Sys2Proof.Machine.execCalli l a s
  | .ret a => Sys2Proof.Machine.execRet a s
  | .exit => Sys2Proof.Machine.execExit s
  | .yield => Sys2Proof.Machine.execYield s
  | .refill o => Sys2Proof.Machine.execRefill o s
  | .region => Sys2Proof.Machine.execRegion s
  | .trap c => Sys2Proof.Machine.execTrap c s
  | .brk c => Sys2Proof.Machine.execBrk c s
  | .meet g e k => Sys2Proof.Machine.execMeet g e k s
  | .gvoteAny g d a e k => Sys2Proof.Machine.execGvoteAny g d a e k s
  | .gvoteAll g d a e k => Sys2Proof.Machine.execGvoteAll g d a e k s
  | .gvoteBallot g d a e k => Sys2Proof.Machine.execGvoteBallot g d a e k s
  | .gbcast g d a e k => Sys2Proof.Machine.execGbcast g d a e k s
  | .gelect g d e k => Sys2Proof.Machine.execGelect g d e k s
  | .fencew g o y e k => Sys2Proof.Machine.execFencew g o y e k s
  | .gred g d a o => Sys2Proof.Machine.execGred g d a o s
  | .gscan g d a o => Sys2Proof.Machine.execGscan g d a o s
  | .shflIdx g d a b => Sys2Proof.Machine.execShflIdx g d a b s
  | .shflUp g d a c => Sys2Proof.Machine.execShflUp g d a c s
  | .shflDn g d a c => Sys2Proof.Machine.execShflDn g d a c s
  | .shflXor g d a c => Sys2Proof.Machine.execShflXor g d a c s
  | .cdet g d a e k => Sys2Proof.Machine.execCdet g d a e k s
  | .gcombF32 g d a e k => Sys2Proof.Machine.execGcombF32 g d a e k s
  | .gcombS32 g d a e k => Sys2Proof.Machine.execGcombS32 g d a e k s
  | .wacfg w a => Sys2Proof.Machine.execWacfg w a s
  | .wapush w a => Sys2Proof.Machine.execWapush w a s
  | .ward d w => Sys2Proof.Machine.execWard d w s
  | .wapr d w a => Sys2Proof.Machine.execWapr d w a s
  | .waclr w => Sys2Proof.Machine.execWaclr w s
  | .wastat d w a => Sys2Proof.Machine.execWastat d w a s
  | .wasave h w a => Sys2Proof.Machine.execWasave h w a s
  | .waload h w a => Sys2Proof.Machine.execWaload h w a s
  | .mxmmaBf16 r t h j a => Sys2Proof.Machine.execMxmmaBf16 r t h j a s
  | .mxmmaF16 r t h j a => Sys2Proof.Machine.execMxmmaF16 r t h j a s
  | .mxmmaE4m3 r t h j a => Sys2Proof.Machine.execMxmmaE4m3 r t h j a s
  | .mxmmaE5m2 r t h j a => Sys2Proof.Machine.execMxmmaE5m2 r t h j a s
  | .mxmmaS8 r t h j a => Sys2Proof.Machine.execMxmmaS8 r t h j a s
  | .mxmmaNq4 r t h j a => Sys2Proof.Machine.execMxmmaNq4 r t h j a s
  | .mxz t => Sys2Proof.Machine.execMxz t s
  | .mxst t h a => Sys2Proof.Machine.execMxst t h a s
  | .mxrd t d a => Sys2Proof.Machine.execMxrd t d a s
  | .mxwr t a => Sys2Proof.Machine.execMxwr t a s
  | .mxcommit => Sys2Proof.Machine.execMxcommit s
  | .mxwait n => Sys2Proof.Machine.execMxwait n s
  | .mxstat d a => Sys2Proof.Machine.execMxstat d a s
  | .cpy g d y a m => Sys2Proof.Machine.execCpy g d y a m s
  | .tcpy g d y a m => Sys2Proof.Machine.execTcpy g d y a m s
  | .chain g d y a m => Sys2Proof.Machine.execChain g d y a m s
  | .tagarm g a => Sys2Proof.Machine.execTagarm g a s
  | .tagwaitAny a => Sys2Proof.Machine.execTagwaitAny a s
  | .tagwaitAll a => Sys2Proof.Machine.execTagwaitAll a s
  | .tagff a => Sys2Proof.Machine.execTagff a s
  | .tagclr a => Sys2Proof.Machine.execTagclr a s
  | .tagrd g a => Sys2Proof.Machine.execTagrd g a s
  | .tbar n => Sys2Proof.Machine.execTbar n s
  | .tbara d n => Sys2Proof.Machine.execTbara d n s
  | .tbarw a n => Sys2Proof.Machine.execTbarw a n s
  | .launch d a h => Sys2Proof.Machine.execLaunch d a h s
  | .gwait d a => Sys2Proof.Machine.execGwait d a s
  | .taskpush d a h => Sys2Proof.Machine.execTaskpush d a h s
  | .rgrow d n => Sys2Proof.Machine.execRgrow d n s
  | .rshrink n => Sys2Proof.Machine.execRshrink n s
  | .commit => Sys2Proof.Machine.execCommit s
  | .rds d n => Sys2Proof.Machine.execRds d n s
  | .wrs y n => Sys2Proof.Machine.execWrs y n s
  | .tlbinv a b => Sys2Proof.Machine.execTlbinv a b s
  | .unpark d a => Sys2Proof.Machine.execUnpark d a s
  | .swapctx d a => Sys2Proof.Machine.execSwapctx d a s
  | .ctxsave d a b => Sys2Proof.Machine.execCtxsave d a b s
  | .ctxload d a b => Sys2Proof.Machine.execCtxload d a b s
  | .trapret => Sys2Proof.Machine.execTrapret s
  | .trapretSkip => Sys2Proof.Machine.execTrapretSkip s
  | .halt => Sys2Proof.Machine.execHalt s
  | .sleep => Sys2Proof.Machine.execSleep s
  | .lmapw d a b => Sys2Proof.Machine.execLmapw d a b s
  | .idivResult id => Sys2Proof.Machine.execIdivResult id s
  | .sfuResult id => Sys2Proof.Machine.execSfuResult id s
  | .cvtResult id => Sys2Proof.Machine.execCvtResult id s
  | .loadReturn id => Sys2Proof.Machine.execLoadReturn id s
  | .atomicPerform id => Sys2Proof.Machine.execAtomicPerform id s
  | .waitlineWake strand => Sys2Proof.Machine.execWaitlineWake strand s
  | .meetComplete wave key => Sys2Proof.Machine.execMeetComplete wave key s
  | .mxChunk core => Sys2Proof.Machine.execMxChunk core s
  | .mxCommandComplete core => Sys2Proof.Machine.execMxCommandComplete core s
  | .mxGroupComplete strand group => Sys2Proof.Machine.execMxGroupComplete strand group s
  | .mxwdFire core => Sys2Proof.Machine.execMxwdFire core s
  | .copyLand id block => Sys2Proof.Machine.execCopyLand id block s
  | .copyRetry id => Sys2Proof.Machine.execCopyRetry id s
  | .directoryRecall line => Sys2Proof.Machine.execDirectoryRecall line s
  | .barrierPhaseComplete team bar => Sys2Proof.Machine.execBarrierPhaseComplete team bar s
  | .launchStatus id => Sys2Proof.Machine.execLaunchStatus id s
  | .taskpushPoolFree cluster => Sys2Proof.Machine.execTaskpushPoolFree cluster s
  | .growGrant bank => Sys2Proof.Machine.execGrowGrant bank s
  | .growFail bank => Sys2Proof.Machine.execGrowFail bank s
  | .tlbinvComplete id => Sys2Proof.Machine.execTlbinvComplete id s
  | .ctxsaveComplete id => Sys2Proof.Machine.execCtxsaveComplete id s
  | .scribeentWrite cluster => Sys2Proof.Machine.execScribeentWrite cluster s
  | .hbmstatClear stack => Sys2Proof.Machine.execHbmstatClear stack s
  | .fetchFill strand => Sys2Proof.Machine.execFetchFill strand s
  | .missRegisterGrant core => Sys2Proof.Machine.execMissRegisterGrant core s
  | .translationWalk id => Sys2Proof.Machine.execTranslationWalk id s
  | .walkLockReread id => Sys2Proof.Machine.execWalkLockReread id s
  | .faultRecordDeliver cluster => Sys2Proof.Machine.execFaultRecordDeliver cluster s
  | .handlerEntry strand => Sys2Proof.Machine.execHandlerEntry strand s
  | .parityRollback strand reg => Sys2Proof.Machine.execParityRollback strand reg s
  | .teamRelaunch team => Sys2Proof.Machine.execTeamRelaunch team s
  | .teamPlace grid => Sys2Proof.Machine.execTeamPlace grid s
  | .prio3Preempt grid core => Sys2Proof.Machine.execPrio3Preempt grid core s
  | .bankSwap core => Sys2Proof.Machine.execBankSwap core s
  | .teamRetire team => Sys2Proof.Machine.execTeamRetire team s
  | .gridRetire grid => Sys2Proof.Machine.execGridRetire grid s
  | .coreGate core => Sys2Proof.Machine.execCoreGate core s
  | .coreWake core => Sys2Proof.Machine.execCoreWake core s
  | .gatherTick cluster => Sys2Proof.Machine.execGatherTick cluster s
  | .gatherWindowExpiry cluster => Sys2Proof.Machine.execGatherWindowExpiry cluster s
  | .laneTest core failed => Sys2Proof.Machine.execLaneTest core failed s
  | .scribeMove cluster => Sys2Proof.Machine.execScribeMove cluster s
  | .failLaneInject core lane issue => Sys2Proof.Machine.execFailLaneInject core lane issue s
  | .lineMigrate line cluster => Sys2Proof.Machine.execLineMigrate line cluster s
  | .crossDieApply home die => Sys2Proof.Machine.execCrossDieApply home die s
  | .replicaEvict die line => Sys2Proof.Machine.execReplicaEvict die line s
  | .scrubPassEnd stack ecs rowmax => Sys2Proof.Machine.execScrubPassEnd stack ecs rowmax s
  | .streamLaunch die stream => Sys2Proof.Machine.execStreamLaunch die stream s
  | .streamWaitgrid die stream => Sys2Proof.Machine.execStreamWaitgrid die stream s
  | .streamWrite die stream => Sys2Proof.Machine.execStreamWrite die stream s
  | .streamDrain die stream => Sys2Proof.Machine.execStreamDrain die stream s
  | .streamBadOp die stream => Sys2Proof.Machine.execStreamBadOp die stream s
  | .rubricReplace die img signature streams => Sys2Proof.Machine.execRubricReplace die img signature streams s
  | .hostResumeCore core => Sys2Proof.Machine.execHostResumeCore core s
  | .powerState p => Sys2Proof.Machine.execPowerState p s
  | .dieIdle die => Sys2Proof.Machine.execDieIdle die s
  | .dieResume die => Sys2Proof.Machine.execDieResume die s
  | .thermalStop => Sys2Proof.Machine.execThermalStop s
  | .thermalResume celsius => Sys2Proof.Machine.execThermalResume celsius s
  | .linkdown link => Sys2Proof.Machine.execLinkdown link s
  | .luteFlitRetransmit link seq => Sys2Proof.Machine.execLuteFlitRetransmit link seq s
  | .neterr window => Sys2Proof.Machine.execNeterr window s
  | .inboundRdmaWrite window offset bytes => Sys2Proof.Machine.execInboundRdmaWrite window offset bytes s
  | .boot firmware rubric signature streams => Sys2Proof.Machine.execBoot firmware rubric signature streams s
  | .firmwareRecovery firmware => Sys2Proof.Machine.execFirmwareRecovery firmware s
  | .attestationReport nonce => Sys2Proof.Machine.execAttestationReport nonce s
  | .testUnlock signature => Sys2Proof.Machine.execTestUnlock signature s
  | .deviceReset => Sys2Proof.Machine.execDeviceReset s
  | .storePerform id => Sys2Proof.Machine.execStorePerform id s
  | .l1Writeback core line => Sys2Proof.Machine.execL1Writeback core line s
  | .ctxloadComplete id => Sys2Proof.Machine.execCtxloadComplete id s
  | .hostAccess acc release => Sys2Proof.Machine.execHostAccess acc release s
  | .peerAccess link seq acc => Sys2Proof.Machine.execPeerAccess link seq acc s
  | .imageLoad img => Sys2Proof.Machine.execImageLoad img s
  | .coreReset core => Sys2Proof.Machine.execCoreReset core s
  | .luteLinkUp link => Sys2Proof.Machine.execLuteLinkUp link s
  | .managementGridStart mgrid => Sys2Proof.Machine.execManagementGridStart mgrid s
  | .ownerKeyEnrol key => Sys2Proof.Machine.execOwnerKeyEnrol key s

end Sys2Proof.Machine
end

