-- ==== Sys2Proof/Machine/Due.lean ====
section
/-!
DEFINITION. The events that the machine may have outstanding, in the order in which an empty schedule tries them
(log 2). An event that is listed and not enabled changes nothing. Events of the outside world, of the management path and
of the hardware's own faults come from the schedule alone.
-/

namespace Sys2Proof.Machine

/-- Numbers of the objects that a table lists. -/
def Tbl.keys {α : Type} (t : Tbl α) : List Nat := t.map (·.1)

/-- What the units, the memory system and the walker owe (R84, R111, R112, R317, R322, R337, R354). -/
def memoryEvents (s : State) : List Event :=
  (s.cores.flatMap fun p => p.2.results.map fun r =>
      match r.unit with | 0 => execIdivResult r.id | 1 => execSfuResult r.id | _ => execCvtResult r.id)
    ++ (s.strands.filterMap fun p => match p.2.life with
      | .waiting (.handler ..) => some (execHandlerEntry p.1) | _ => none)
    ++ s.updates.map (fun u => execCrossDieApply u.home u.die)
    ++ s.flights.map (fun f => execStorePerform f.id)
    ++ s.stores.map (fun r => execStorePerform r.id)
    ++ s.atomics.map (fun a => execAtomicPerform a.id)
    ++ s.loads.map (fun l => execLoadReturn l.id)
    ++ s.cores.map (fun p => execMissRegisterGrant p.1)
    ++ (s.teams.flatMap fun p => (dedup (p.2.waOps.map (·.core))).map fun c => (fun s => .next (s.waArrive p.1 c) : Event))
    ++ s.walks.map (fun w => if w.locked.isNone then execTranslationWalk w.id else execWalkLockReread w.id)
    ++ (s.watches.filter (·.written)).map (fun w => execWaitlineWake w.strand)
    ++ (s.strands.filterMap fun p =>
      if s.awake p.1 p.2 then (match s.fetch p.1 p.2 with | .missing _ => some (execFetchFill p.1) | .bundle .. => none)
      else none)

/-- What meets, barriers, copies and the matrix engine owe (R183, R221, R227, R277, R302, R305, R307). -/
def engineEvents (s : State) : List Event :=
  (s.waves.flatMap fun p => p.2.meets.map fun m => execMeetComplete p.1 [.ofNat 8 m.cls, .ofNat 8 m.tag])
    ++ (s.teams.flatMap fun p => (Tbl.keys p.2.barriers).map fun b => execBarrierPhaseComplete p.1 b)
    ++ (s.banks.flatMap fun p => p.2.copies.flatMap fun c =>
      execCopyRetry c.id
        :: (dedup (c.writes.map (·.block) ++ (List.range c.blocks).filter (!c.landed.contains ·))).map (execCopyLand c.id))
    ++ (Tbl.keys s.cores).flatMap (fun c => [execMxCommandComplete c, execMxChunk c])
    ++ (s.strands.flatMap fun p => p.2.closed.map fun g => execMxGroupComplete p.1 g.number)

/-- What the system requests, the allocator and the queues owe (R164, R175, R176, R259 to R264, R286, R327, R361, R364). -/
def requestEvents (s : State) : List Event :=
  (Tbl.keys s.cores).flatMap (fun c => [execBankSwap c, execCoreWake c, execLaneTest c []])
    ++ (s.pending.map fun p => match p.2 with
      | .launch .. => execLaunchStatus p.1
      | .tlbinv .. => execTlbinvComplete p.1
      | .ctxload .. => execCtxloadComplete p.1
      | _ => execCtxsaveComplete p.1)
    ++ (Tbl.keys s.clusters).flatMap (fun c => [execScribeentWrite c, execFaultRecordDeliver c, execTaskpushPoolFree c])
    ++ (Tbl.keys s.device.hbmClear).map execHbmstatClear
    ++ (Tbl.keys s.banks).map execGrowGrant

/-- What the dispatcher, the gatherers and the rubric programs owe (R275, R284, R287, R291, R360, R362). -/
def dispatchEvents (s : State) : List Event :=
  (Tbl.keys s.teams).flatMap (fun t => [execTeamRetire t, execTeamRelaunch t])
    ++ (Tbl.keys s.grids).flatMap (fun g => [execGridRetire g, execTeamPlace g])
    ++ ((s.grids.filter fun p => p.2.launch.prio = 3 && !(s.toPlace p.1 p.2).isEmpty).flatMap fun p =>
      (dedup ((Tbl.keys s.banks).map bankCore)).map (execPrio3Preempt p.1))
    ++ ((Tbl.keys s.clusters).filter s.gatherUseful).map execGatherTick
    ++ (Tbl.keys s.clusters).map execGatherWindowExpiry
    ++ ((List.range Config.dies).filter fun d => (s.die d).rubric.isSome).flatMap fun d =>
      (List.range 64).flatMap fun k =>
        [execStreamLaunch d k, execStreamWaitgrid d k, execStreamWrite d k, execStreamDrain d k, execStreamBadOp d k]

/-- Every event that may be due. Dirty lines go back, and a grow fails, when nothing else is due. -/
def dueEvents (s : State) : List Event :=
  memoryEvents s ++ engineEvents s ++ requestEvents s ++ dispatchEvents s
    ++ (s.cores.flatMap fun p => (p.2.l1.filter fun l => !l.dirty.isEmpty).map fun l => execL1Writeback p.1 l.line)
    ++ (Tbl.keys s.banks).map execGrowFail

/-- Events by which time passes where nothing else can happen: the gatherers' ticks, and idle cores that gate. -/
def idleEvents (s : State) : List Event :=
  ((s.clusters.filter fun p => !p.2.pool.isEmpty).map fun p => execGatherTick p.1)
    ++ (Tbl.keys s.cores).map execCoreGate

end Sys2Proof.Machine
end

