-- ==== Sys2Proof/Machine/Upset.lean ====
section
/-!
DEFINITION. What the hardware's own faults and choices do to the state, for those that no row of the table stands for
(log 41): a register's parity (R25), residue and tile errors (R228), accumulator errors (R245), the arrival of WA operations at
another core (R240), memory errors (R352, R364, R365), the CRC-32C of a copy (R307), a line that leaves its slice (R315) or
an L1 area (R348), and a peer's own write (R373).
-/

namespace Sys2Proof.Machine

/-- The HBM4 stack of an address of device memory (R351). -/
def stackOf (pa : Nat) : Nat := pa / 4096 % 8 ^^^ (pa / 4096 / 8 % 8)

/-- Counts one more error in the 16-bit field of HBMSTAT at bit `lo`, which stops at its maximum (R364). -/
def countError (x : Dword) (lo : Nat) : Dword :=
  if fld x.toNat lo 16 = 65535 then x else x + .ofNat 64 (2 ^ lo)

/-- A stored word of a register loses a bit: its parity no longer fits (R25). -/
def Strand.loseBit (st : Strand) (n : Nat) : Strand :=
  let r := st.regs.get n Reg.zero
  { st with regs := st.regs.set n { r with par := !r.par } }

/-- Changes the first entry of a list that satisfies a condition. -/
def changeFirst {α : Type} (p : α → Bool) (f : α → α) : List α → List α
  | [] => []
  | x :: l => if p x then f x :: l else x :: changeFirst p f l

def State.upset (s : State) : Upset → State
  | .register k n => s.modStrand k (·.loseBit n)
  | .residue core =>
    s.modBank (bankNo core (s.core core).active) fun b =>
      { b with mxQueue := changeFirst (fun _ => true) (fun x => { x with residue := x.residue + 1 }) b.mxQueue }
  | .tile core pair => s.modCore core fun c => { c with tileBad := insertNat c.tileBad pair }
  | .acc team n word => s.modTeam team fun t => { t with accs := t.accs.change n fun a => { a with bad := insertNat a.bad word } }
  | .waArrive team core => s.waArrive team core
  | .memory pa double =>
    if !isDevice pa then s
    else
      let k := stackOf pa
      let s := s.setDevice { s.device with
        hbmStat := s.device.hbmStat.set k (countError (s.device.hbmStat.get k 0) (if double then 48 else 32)) }
      if double then s.poisonSector pa else s
  | .crc id =>
    { s with banks := s.banks.mapVal fun _ (b : Bank) =>
        { b with copies := b.copies.map fun (c : Copy) => if c.id = id then { c with crc := c.crc + 1 } else c } }
  | .l1Evict core line => s.writeBack core line true
  | .sliceEvict line =>
    { s with dies := s.dies.mapVal fun _ (d : Die) =>
        { d with moved := d.moved.filter (·.line ≠ line), requests := d.requests.drop line } }
  | .peer pa bytes =>
    if (span pa bytes.length).all isPeer then
      (splitLines (Machine.place pa bytes)).foldl (fun s l => s.performNow 0 l) s
    else s

end Sys2Proof.Machine
end

