-- ==== Sys2Proof/Machine/Step.lean ====
section
/-!
DEFINITION. One step: the next lane of the issue in progress, else the schedule's next entry, else what is due (log 1,
log 2).
-/

namespace Sys2Proof.Machine

def step (s : State) : Host.Outcome State Fault Refusal :=
  match s.issue with
  | some i => s.stepIssue exec i
  | none =>
    match s.turns with
    | t :: rest => s.takeTurn exec State.upset t rest
    | [] => s.byDefault exec dueEvents idleEvents

/-- The state with an instruction word stored where the next step fetches it (log 5). -/
def State.withFetchWord (s : State) (_nbits w : Nat) : State := s.place (w % 2 ^ 32)

end Sys2Proof.Machine
end

