-- ==== Sys2Proof/Safety.lean ====
section
/-!
DEFINITION. The terms in which claims are stated: what a lane reads, how an instruction completes, what a step leaves
unchanged, and the invariant of memory.
-/

namespace Sys2Proof.Safety

open Sys2Proof.Machine

/-- The outcomes of this machine. -/
abbrev Out := Host.Outcome State Fault Refusal

/-- The machine goes on in a state. -/
abbrev next (s : State) : Out := .next s

/-- Memory is in its canonical form. -/
def MemoryOk (s : State) : Prop := Memory.wf s.mem = true

/-! ### What a lane reads -/

/-- Register `n` exists for the strand (R11). -/
def Has (e : Env) (n : Nat) : Prop := n < e.wave.alloc

/-- Register `n` exists, and its read gives `x` with a clear poison bit (R11, R13, R17). -/
def Reads (e : Env) (n : Nat) (x : Word) : Prop := Has e n ∧ e.read n = .ok (x, false)

/-- Both registers of Pair(n), as one value (R77). -/
def ReadsPair (e : Env) (n : Nat) (x : Dword) : Prop :=
  Reads e n (x.setWidth 32) ∧ Reads e (n + 1) ((x >>> 32).setWidth 32)

/-- The wave is no half of a redundant pair (R266). -/
def Alone (e : Env) : Prop := e.wave.partner = none

/-- The atomic of an operation number of R129. -/
def atomicInstr (op : Nat) (r : BitVec 1) (d : BitVec 7) (h : BitVec 4) (a : BitVec 7) (y : BitVec 3) : Instr :=
  match op with
  | 0 => .aadd r d h a y | 1 => .afadd r d h a y | 2 => .amin r d h a y | 3 => .amax r d h a y
  | 4 => .aminb r d h a y | 5 => .amaxb r d h a y | 6 => .aand r d h a y | 7 => .aor r d h a y
  | 8 => .axor r d h a y | 9 => .axch r d h a y | 10 => .acas r d h a y | _ => .ainc r d h a y

/-- The fence of a kind: 0 acq, 1 rel, 2 ar, 3 sc (R133). -/
def fenceInstr (kind : Nat) (y : BitVec 3) : Instr :=
  match kind with | 0 => .fenceAcq y | 1 => .fenceRel y | 2 => .fenceAr y | _ => .fenceSc y

/-- The MXMMA of a type number of R214. -/
def mxmmaInstr (type : Nat) (r : BitVec 1) (t h j : BitVec 4) (a : BitVec 7) : Instr :=
  match type with
  | 0 => .mxmmaBf16 r t h j a | 1 => .mxmmaF16 r t h j a | 2 => .mxmmaE4m3 r t h j a | 3 => .mxmmaE5m2 r t h j a
  | 4 => .mxmmaS8 r t h j a | _ => .mxmmaNq4 r t h j a

/-- A load or a store of an element: its handle record, its index, its registers in range and aligned (R124, R125). -/
def Element (e : Env) (h : BitVec 4) (a d : BitVec 7) (r : HRec) (i : Word) : Prop :=
  e.hReg h.toNat = .ok r ∧ Reads e a.toNat i ∧ elementAligned (hEsize r) d.toNat = true ∧
  ∀ k < elementRegs (hEsize r), Has e (d.toNat + k)

/-- The same for an atomic, with the words it reads, none of them poisoned (R129, R130). -/
def AtomicElement (e : Env) (op : Nat) (h : BitVec 4) (a d : BitVec 7) (r : HRec) (i : Word)
    (words : List (Word × Bool)) : Prop :=
  op < 12 ∧ e.hReg h.toNat = .ok r ∧ Reads e a.toNat i ∧ atomicSize op (hEsize r) = true ∧
  atomicAligned op (hEsize r) d.toNat = true ∧ (∀ k < atomicRegs op (hEsize r), Has e (d.toNat + k)) ∧
  e.readMany d.toNat (atomicRegs op (hEsize r)) = .ok words ∧ words.any (·.2) = false ∧
  e.s.readsOutstanding e.key = false

/-- The operand of an atomic, and what ACAS compares with (R129). -/
def atomicX (op : Nat) (r : HRec) (words : List (Word × Bool)) : Dword :=
  wordsValue (if op = 10 then words.drop (hEsize r / 4) else words)
def atomicCmp (r : HRec) (words : List (Word × Bool)) : Dword := wordsValue (words.take (hEsize r / 4))

/-! ### Group instructions -/

/-- What a group instruction asks for and what its lane reads (R179, R131, R189 to R194). -/
structure Asked where
  ask : Ask
  reads : Env → Act (List (Word × Bool) × Bool)

/-- The group instructions. -/
def asked : Instr → Option Asked
  | .meet g e k => some ⟨{ cls := 0x1A, tag := g.toNat, minor := 0, e := e, k := k }, noReads⟩
  | .gvoteAny g d a e k =>
    some ⟨{ cls := 0x1A, tag := g.toNat, minor := 1, e := e, k := k, d := d.toNat }, predReads a⟩
  | .gvoteAll g d a e k =>
    some ⟨{ cls := 0x1A, tag := g.toNat, minor := 2, e := e, k := k, d := d.toNat }, predReads a⟩
  | .gvoteBallot g d a e k =>
    some ⟨{ cls := 0x1A, tag := g.toNat, minor := 3, e := e, k := k, dst := d.toNat }, predReads a⟩
  | .gbcast g d a e k => some ⟨{ cls := 0x1A, tag := g.toNat, minor := 4, e := e, k := k, dst := d.toNat,
                                 regs := [a.toNat], leads := true }, regReads [a.toNat]⟩
  | .gelect g d e k => some ⟨{ cls := 0x1A, tag := g.toNat, minor := 5, e := e, k := k, d := d.toNat }, noReads⟩
  | .fencew g o y e k => some ⟨{ cls := 0x1A, tag := g.toNat, minor := 6, e := e, k := k, order := o.toNat,
                                 scope := y.toNat }, noReads⟩
  | .gred g d a o => some ⟨{ cls := 0x1A, tag := g.toNat, minor := 7, op := o.toNat, d := d.toNat,
                             regs := [d.toNat, a.toNat] }, regReads [a.toNat]⟩
  | .gscan g d a o => some ⟨{ cls := 0x1A, tag := g.toNat, minor := 8, op := o.toNat, d := d.toNat,
                              regs := [d.toNat, a.toNat] }, regReads [a.toNat]⟩
  | .shflIdx g d a b => some ⟨{ cls := 0x1B, tag := g.toNat, minor := 0, d := d.toNat,
                                regs := [d.toNat, a.toNat, b.toNat] }, regReads [a.toNat, b.toNat]⟩
  | .shflUp g d a c => some ⟨{ cls := 0x1B, tag := g.toNat, minor := 1, d := d.toNat, arg := c.toNat,
                               regs := [d.toNat, a.toNat] }, regReads [a.toNat]⟩
  | .shflDn g d a c => some ⟨{ cls := 0x1B, tag := g.toNat, minor := 2, d := d.toNat, arg := c.toNat,
                               regs := [d.toNat, a.toNat] }, regReads [a.toNat]⟩
  | .shflXor g d a c => some ⟨{ cls := 0x1B, tag := g.toNat, minor := 3, d := d.toNat, arg := c.toNat,
                                regs := [d.toNat, a.toNat] }, regReads [a.toNat]⟩
  | .cdet g d a e k => some ⟨{ cls := 0x1C, tag := g.toNat, minor := 0, e := e, k := k, d := d.toNat,
                               regs := [d.toNat, a.toNat] }, regReads [a.toNat]⟩
  | .gcombF32 g d a e k => some ⟨{ cls := 0x1C, tag := g.toNat, minor := 1, e := e, k := k, d := d.toNat,
                                   regs := [d.toNat, a.toNat] }, regReads [a.toNat, d.toNat]⟩
  | .gcombS32 g d a e k => some ⟨{ cls := 0x1C, tag := g.toNat, minor := 2, e := e, k := k, d := d.toNat,
                                   regs := [d.toNat, a.toNat] }, regReads [a.toNat, d.toNat]⟩
  | .hld g h a e k => some ⟨{ cls := 0x17, tag := g.toNat, minor := 0, e := e, k := k, dst := h.toNat,
                              regs := [a.toNat], leads := true }, regReads [a.toNat]⟩
  | .hset g h a e k => some ⟨{ cls := 0x17, tag := g.toNat, minor := 1, e := e, k := k, dst := h.toNat,
                               regs := span a.toNat 8, leads := true }, regReads (span a.toNat 8)⟩
  | .hrd g d h e k => some ⟨{ cls := 0x17, tag := g.toNat, minor := 2, e := e, k := k, src := h.toNat, d := d.toNat,
                              regs := span d.toNat 8 }, handleReads h⟩
  | .hcpy g d a e k => some ⟨{ cls := 0x17, tag := g.toNat, minor := 3, e := e, k := k, dst := d.toNat,
                               src := a.toNat }, handleReads a⟩
  | _ => none

/-- The open meet of the key of a group instruction (R179). -/
def openMeet (e : Env) (a : Ask) : Option Meet :=
  e.wave.meets.find? fun m => m.cls = a.cls && m.tag = a.tag && m.own.isNone && !m.closed

/-- What the lane brings to its meet (R180). -/
def brought (e : Env) (a : Ask) (words : List (Word × Bool)) (p : Bool) : Presenter :=
  { lane := e.lane, words := words, pred := p, d := a.d, arg := a.arg,
    quiet := (match e.hints.hm with | some (.quiet q) => q | _ => 0), next := e.here + 4 }

/-- The meet once the lane has joined it: the open one, or a new one whose participants are the live lanes of the mask
(R179, R180). -/
def joined (e : Env) (a : Ask) (kv : Dword) (words : List (Word × Bool)) (p : Bool) : Meet :=
  match openMeet e a with
  | some m => { m with presenters := insertPresenter (brought e a words p) m.presenters }
  | none => { id := e.s.nextId, closed := false, cls := a.cls, tag := a.tag, own := none, minor := a.minor, op := a.op,
              order := a.order, scope := a.scope, kEnable := a.e = 1, kValue := kv, dst := a.dst, src := a.src,
              presenters := [brought e a words p],
              members := e.liveLanes.filter fun l => a.e = 0 || kv.getLsbD l, acks := none, asked := false, parts := [] }

/-! ### How an instruction completes -/

/-- The words that a redundant pair compares for an instruction that it performs once (R268), where the lane's operands are there:
of the TEAM class, of copies and tags, of the matrix engine and of the accumulators; none for every other instruction. -/
def onceRequest (e : Env) : Instr → Option (List Word)
  | .commit => some (reqWords 0 [8])
  | .rgrow d n => if d.toNat < e.wave.alloc then some (reqWords 0 [6, 8 * n.toNat]) else none
  | .rshrink n => some (reqWords 0 [7, 8 * n.toNat])
  | .gwait d a =>
    if d.toNat < e.wave.alloc ∧ a.toNat < e.wave.alloc then (e.use a.toNat).toOption.map fun g => reqWords 0 [4, g.toNat]
    else none
  | .mxz t => do
    let _ ← e.commandRoom.toOption
    let tile ← (e.tile t.toNat).toOption
    some (reqWords tile [6])
  | .tagarm g a =>
    if a.toNat < e.wave.alloc then do
      let tag ← (e.tagNo g.toNat).toOption
      let n ← (e.use a.toNat).toOption
      some (reqWords tag [3, n.toNat])
    else none
  | .waclr w => (e.acc w.toNat).toOption.map fun _ => reqWords (4 * 16 + w.toNat) [0]
  | .cpy g d h a m =>
    if a.toNat + 2 < e.wave.alloc ∧ (e.s.bank e.engine).copies.length < Config.copyQueue then do
      let tag ← (e.tagNo g.toNat).toOption
      let hd ← (e.hReg d.toNat).toOption
      let hs ← (e.hReg h.toNat).toOption
      let words ← (e.readMany a.toNat 3).toOption
      if copyHandle hd && copyHandle hs && hPermR hs && hPermW hd then
        some (reqWords tag ([0, m.toNat] ++ words.map (·.1.toNat)) ++ recordWords hs ++ recordWords hd)
      else none
    else none
  | _ => none

/-- The strand as `st`, one count later (R16), and nothing else. -/
def done (e : Env) (st : Strand) : Out := .next (e.s.setStrand e.key (st.tick 1))

/-- The lane's register `d` gets `x` with latency `lat` (R17), as a transient when `t` is 1 (R20). -/
def wrote (e : Env) (t : BitVec 1) (d lat : Nat) (x : Word) : Out := done e (e.write e.st d x false lat t)

/-- Pair(d) gets `x` with one latency (R90). -/
def wrotePair (e : Env) (t : BitVec 1) (d lat : Nat) (x : Dword) : Out := done e (e.writePair e.st d x lat t)

/-- Predicate `p` gets `x` with latency `lat`; p0 stays as it is (R10). -/
def wrotePred (e : Env) (p lat : Nat) (x : Bool) : Out := done e (e.writePred e.st p x lat)

/-- Register `d` gets an f32 or packed result with latency 4, and FSTAT the flags that the quiet mask lets through
(R100, R67). -/
def floated (e : Env) (t : BitVec 1) (d : Nat) (r : Nat × Flags) : Out :=
  done e ((e.write e.st d (.ofNat 32 r.1) false 4 t).raise (e.loud r.2))

/-- A unit takes the instruction: its results wait under the next request number, and the destination registers wait for
them (R84, R111, R112). -/
def queued (e : Env) (unit : Nat) (dst : List (Nat × Word)) (flags : Flags) : Out :=
  .next (e.retire (e.enqueue e.st unit dst flags).1 (e.enqueue e.st unit dst flags).2)

/-- The lane takes a handler-kind fault with a code and ARG (R249, R252). -/
def faulted (e : Env) (code arg : Nat) : Out := .next (e.s.stop e (.fault code arg 0))

/-- What a strand `st` is after its handler has returned to `pc` (R22, R257): the frozen window is back without the entries whose
register the handler wrote. A register of the strand that had a parity error still counts but where the handler's drained window
writes it (R25). -/
def LeftHandler (st : Strand) (f : Frame) (pc : VAddr) (t : Strand) : Prop :=
  t.handler = none ∧ t.pc = pc ∧ t.regionPc = f.regionPc ∧ t.window = (f.frozen.filter fun w => !(f.wrote.contains w.dst)) ∧
  (∀ n ∈ t.parityErrors, n ∈ f.parityErrors) ∧
  (∀ n ∈ f.parityErrors, (∀ w ∈ st.window, w.dst ≠ .v n) → n ∈ t.parityErrors) ∧
  ∀ w ∈ st.window, ∀ n, 8 ≤ n → w.dst = .v n → w.transient = false → n ∉ t.parityErrors

/-- A step that answers a next state. -/
def Completes (s : State) : Prop := ∃ t, step s = .next t

/-! ### What is left unchanged -/

/-- The newest write of a destination in program order: its value, none while it has not arrived or when it is a
transient (R17, R18, R20). A predicate's value is 0 or 1. -/
def newest (st : Strand) (d : Dst) : Option Word :=
  match st.window.find? (fun e => e.dst = d), d with
  | some e, .v _ => if e.transient || e.tag.isSome then none else some e.val
  | some e, .p _ => if e.transient || e.tag.isSome then none else some (if e.val.getLsbD 0 then 1 else 0)
  | none, .v n => some (st.reg n).val
  | none, .p n => some (if st.preds.getLsbD n then 1 else 0)

/-- A register, or one of the predicates that can be written (R10). -/
def writable : Dst → Bool
  | .v _ => true
  | .p n => decide (0 < n ∧ n < 8)

/-- What an instruction of the arithmetic, move, predicate and float classes writes (R80 to R90, R100 to R117); none for
every other instruction. -/
def computes : Instr → Option (List Dst)
  | .add _ d _ _ | .sub _ d _ _ | .and _ d _ _ | .or _ d _ _ | .xor _ d _ _ | .andn _ d _ _ | .min _ d _ _ |
    .max _ d _ _ | .minb _ d _ _ | .maxb _ d _ _ | .abs _ d _ | .addc _ d _ _ | .subb _ d _ _ | .adds _ d _ _ |
    .subs _ d _ _ | .neg _ d _ | .addImm _ d _ _ | .subImm _ d _ _ | .andImm _ d _ _ | .orImm _ d _ _ |
    .xorImm _ d _ _ | .andnImm _ d _ _ | .minImm _ d _ _ | .maxImm _ d _ _ | .minbImm _ d _ _ |
    .maxbImm _ d _ _ | .addcImm _ d _ _ | .subbImm _ d _ _ | .addsImm _ d _ _ | .subsImm _ d _ _ |
    .shl _ d _ _ | .shr _ d _ _ | .sar _ d _ _ | .rol _ d _ _ | .bfx _ d _ _ | .bfxb _ d _ _ | .bfi _ d _ _ |
    .clz _ d _ | .popc _ d _ | .brev _ d _ | .prmt _ d _ _ | .fshf _ d _ _ | .mul _ d _ _ | .mulhi _ d _ _ |
    .mulhib _ d _ _ | .mad _ d _ _ | .madhi _ d _ _ | .madhib _ d _ _ | .div d _ _ | .divb d _ _ | .rem d _ _ |
    .remb d _ _ | .mov _ d _ | .movi _ d _ | .rdw _ d _ | .movFromFstat _ d | .sel _ _ d _ _ | .fadd _ d _ _ |
    .fsub _ d _ _ | .fmin _ d _ _ | .fmax _ d _ _ | .fmul _ d _ _ | .fscale _ d _ _ | .ffma _ d _ _ |
    .ffms _ d _ _ | .fnma _ d _ _ | .fnms _ d _ _ | .fclass _ d _ | .frnd _ d _ | .fcpys _ d _ _ | .fabs _ d _ |
    .fneg _ d _ | .ffrac _ d _ | .frcp d _ | .frsq d _ | .fsqrt d _ | .fdiv d _ _ | .fexp2 d _ | .flog2 d _ |
    .fsinp d _ | .fcosp d _ | .ftanh d _ | .f2f d _ _ _ | .f2i d _ _ _ | .i2f d _ _ _ | .i2i d _ _ _ |
    .pack2 d _ _ _ _ | .hadd2 _ _ d _ _ | .hsub2 _ _ d _ _ | .hmul2 _ _ d _ _ | .hfma2 _ _ d _ _ |
    .hmin2 _ _ d _ _ | .hmax2 _ _ d _ _ | .idot4 _ _ d _ _ | .fdot2 _ _ d _ _ | .f8dot4 _ _ d _ _ |
    .nqdecf _ _ d _ _ | .nqdot _ _ d _ _ => some [.v d.toNat]
  | .rdk _ d _ | .lea _ d _ _ | .add64 _ d _ _ | .sub64 _ d _ _ | .shl64 _ d _ _ | .mulw _ d _ _ |
    .unpack2 d _ _ _ _ | .nqdec _ _ d _ _ => some [.v d.toNat, .v (d.toNat + 1)]
  | .rdsr _ d n => some (if specialWide n.toNat then [.v d.toNat, .v (d.toNat + 1)] else [.v d.toNat])
  | .cmp _ p _ _ | .cmpi _ p _ _ | .cmp64 _ p _ _ | .fcmp _ p _ _ => some [.p p.toNat]
  | .pand d _ _ | .por d _ _ | .pxor d _ _ | .pnot d _ | .pset d _ | .pmov d _ => some [.p d.toNat]
  | .movToFstat _ => some []
  | _ => none

/-- The registers that an instruction of the integer, compare, move, address and float classes names, and those of them
whose values it consumes (R11, R13, R80 to R90, R100 to R117); none for every other instruction. MOV and SEL consume
nothing: they move poison. -/
def operands : Instr → Option (List Nat × List Nat)
  | .abs _ d a | .neg _ d a | .clz _ d a | .popc _ d a | .brev _ d a | .fabs _ d a | .fneg _ d a | .fclass _ d a |
    .frnd _ d a | .ffrac _ d a | .frcp d a | .frsq d a | .fsqrt d a | .fexp2 d a | .flog2 d a | .fsinp d a |
    .fcosp d a | .ftanh d a | .f2f d a _ _ | .f2i d a _ _ | .i2f d a _ _ | .i2i d a _ _ | .addImm _ d a _ |
    .subImm _ d a _ | .andImm _ d a _ | .orImm _ d a _ | .xorImm _ d a _ | .andnImm _ d a _ | .minImm _ d a _ |
    .maxImm _ d a _ | .minbImm _ d a _ | .maxbImm _ d a _ | .addcImm _ d a _ | .subbImm _ d a _ | .addsImm _ d a _ |
    .subsImm _ d a _ => some ([d.toNat, a.toNat], [a.toNat])
  | .add _ d a b | .sub _ d a b | .and _ d a b | .or _ d a b | .xor _ d a b | .andn _ d a b | .min _ d a b |
    .max _ d a b | .minb _ d a b | .maxb _ d a b | .addc _ d a b | .subb _ d a b | .adds _ d a b | .subs _ d a b |
    .shl _ d a b | .shr _ d a b | .sar _ d a b | .rol _ d a b | .bfx _ d a b | .bfxb _ d a b | .mul _ d a b |
    .mulhi _ d a b | .mulhib _ d a b | .div d a b | .divb d a b | .rem d a b | .remb d a b | .fadd _ d a b |
    .fsub _ d a b | .fmin _ d a b | .fmax _ d a b | .fmul _ d a b | .fscale _ d a b | .fcpys _ d a b | .fdiv d a b |
    .hadd2 _ _ d a b | .hsub2 _ _ d a b | .hmul2 _ _ d a b | .hmin2 _ _ d a b | .hmax2 _ _ d a b =>
    some ([d.toNat, a.toNat, b.toNat], [a.toNat, b.toNat])
  | .bfi _ d a b | .prmt _ d a b | .fshf _ d a b | .mad _ d a b | .madhi _ d a b | .madhib _ d a b | .ffma _ d a b |
    .ffms _ d a b | .fnma _ d a b | .fnms _ d a b | .hfma2 _ _ d a b | .idot4 _ _ d a b | .fdot2 _ _ d a b |
    .f8dot4 _ _ d a b => some ([d.toNat, a.toNat, b.toNat], [d.toNat, a.toNat, b.toNat])
  | .mov _ d a => some ([d.toNat, a.toNat], [])
  | .sel _ _ d a b => some ([d.toNat, a.toNat, b.toNat], [])
  | .movi _ d _ | .rdw _ d _ | .movFromFstat _ d => some ([d.toNat], [])
  | .rdk _ d _ => some ([d.toNat, d.toNat + 1], [])
  | .rdsr _ d n => some (if specialWide n.toNat then [d.toNat, d.toNat + 1] else [d.toNat], [])
  | .cmp _ _ a b | .fcmp _ _ a b => some ([a.toNat, b.toNat], [a.toNat, b.toNat])
  | .cmpi _ _ a _ | .pset _ a | .movToFstat a => some ([a.toNat], [a.toNat])
  | .cmp64 _ _ a b =>
    let l := [a.toNat, a.toNat + 1, b.toNat, b.toNat + 1]
    some (l, l)
  | .add64 _ d a b | .sub64 _ d a b =>
    let l := [a.toNat, a.toNat + 1, b.toNat, b.toNat + 1]
    some (d.toNat :: (d.toNat + 1) :: l, l)
  | .shl64 _ d a b =>
    let l := [a.toNat, a.toNat + 1, b.toNat]
    some (d.toNat :: (d.toNat + 1) :: l, l)
  | .mulw _ d a b => some ([d.toNat, d.toNat + 1, a.toNat, b.toNat], [a.toNat, b.toNat])
  | .lea _ d a _ => some ([d.toNat, d.toNat + 1, a.toNat], [a.toNat])
  | .pack2 d a _ _ _ => some ([d.toNat, a.toNat, a.toNat + 1], [a.toNat, a.toNat + 1])
  | .unpack2 d a _ _ _ => some ([d.toNat, d.toNat + 1, a.toNat], [a.toNat])
  | .nqdec _ _ d a b =>
    let l := [a.toNat, a.toNat + 1, b.toNat]
    some (d.toNat :: (d.toNat + 1) :: l, l)
  | .nqdecf _ _ d a b =>
    let l := [a.toNat, a.toNat + 1, b.toNat]
    some (d.toNat :: l, l)
  | .nqdot _ _ d a b =>
    let l := [d.toNat, a.toNat, a.toNat + 1, b.toNat, b.toNat + 1]
    some (l, l)
  | _ => none

/-- No flags of the strand are still to come, from a unit or from the core that holds its team's accumulators (R86, R240). -/
def FlagsIn (s : State) (e : Env) : Prop :=
  s.queued e.key = false ∧ ∀ t, e.team = some t → ∀ o ∈ t.waOps, o.strand ≠ e.key

/-- What an instruction waits for beside its operands: room in its wave's queue, the flags that are still to come, its
handle register (R111, R112, R86, R89). -/
def Unhindered (s : State) (e : Env) : Instr → Prop
  | .frcp _ _ | .frsq _ _ | .fsqrt _ _ | .fdiv _ _ _ | .fexp2 _ _ | .flog2 _ _ | .fsinp _ _ | .fcosp _ _ | .ftanh _ _ =>
    (s.unitIssues e.waveKey 1).length < 4
  | .f2f _ _ _ _ | .f2i _ _ _ _ | .i2f _ _ _ _ | .i2i _ _ _ _ | .pack2 _ _ _ _ _ | .unpack2 _ _ _ _ _ =>
    (s.unitIssues e.waveKey 2).length < 8
  | .movToFstat _ => FlagsIn s e
  | .lea _ _ _ h => ∃ r, e.hReg h.toNat = .ok r
  | _ => True

/-- The instructions that may change FSTAT when they execute (R86, R100 to R109, R114 to R117). -/
def flagging : Instr → Bool
  | .movToFstat _ | .fadd _ _ _ _ | .fsub _ _ _ _ | .fmin _ _ _ _ | .fmax _ _ _ _ | .fmul _ _ _ _ |
    .fscale _ _ _ _ | .ffma _ _ _ _ | .ffms _ _ _ _ | .fnma _ _ _ _ | .fnms _ _ _ _ | .fcmp _ _ _ _ |
    .fclass _ _ _ | .frnd _ _ _ | .fcpys _ _ _ _ | .fabs _ _ _ | .fneg _ _ _ | .ffrac _ _ _ | .hadd2 _ _ _ _ _ |
    .hsub2 _ _ _ _ _ | .hmul2 _ _ _ _ _ | .hfma2 _ _ _ _ _ | .hmin2 _ _ _ _ _ | .hmax2 _ _ _ _ _ |
    .fdot2 _ _ _ _ _ | .f8dot4 _ _ _ _ _ | .nqdec _ _ _ _ _ | .nqdecf _ _ _ _ _ | .nqdot _ _ _ _ _ => true
  | _ => false

/-- The instructions that reach memory, caches, engines or the store buffer and write no register of their strand
(R125, R129, R133, R134, R290, R292): stores, fences, cache operations, copies and COMMIT. -/
def accesses : Instr → Bool
  | .st _ _ _ _ | .strel _ _ _ _ | .fenceAcq _ | .fenceRel _ | .fenceAr _ | .fenceSc _ | .cwb _ _ _ |
    .cinv _ _ _ | .pref _ _ _ | .cpy _ _ _ _ _ | .tcpy _ _ _ _ _ | .chain _ _ _ _ _ | .commit => true
  | _ => false

end Sys2Proof.Safety
end

