-- ==== Sys2Proof/Certificates/Slice0/Obligations.lean ====
section
/-!
DEFINITION. The statements for the provers. Each docstring names the rules of spec/ that its statement is about.
-/

section

open Sys2Proof
open Sys2Proof.Machine
open Sys2Proof.Safety

/-! ### Arithmetic -/

/-- R80, R81, R17, R66: every IALU operation writes its result of two registers with latency 1, and every IALUI
operation its result of a register and its immediate, sign-extended from seven bits or with the high part of an HX in
front of it. Nothing else of the state changes but the strand's count and window. -/
def Obligations.IntegerResults : Prop :=
  (∀ (s : State) (e : Env) (t : BitVec 1) (d a b : BitVec 7) (x y : Word),
     s.env = some e → Has e d.toNat → Reads e a.toNat x → Reads e b.toNat y →
     let r := wrote e t d.toNat 1
     exec (.add t d a b) s = r (x + y) ∧
     exec (.sub t d a b) s = r (x - y) ∧
     exec (.and t d a b) s = r (x &&& y) ∧
     exec (.or t d a b) s = r (x ||| y) ∧
     exec (.xor t d a b) s = r (x ^^^ y) ∧
     exec (.andn t d a b) s = r (x &&& ~~~y) ∧
     exec (.min t d a b) s = r (if x.slt y then x else y) ∧
     exec (.max t d a b) s = r (if x.slt y then y else x) ∧
     exec (.minb t d a b) s = r (if x.ult y then x else y) ∧
     exec (.maxb t d a b) s = r (if x.ult y then y else x) ∧
     exec (.addc t d a b) s = r (if x.toNat + y.toNat < 2 ^ 32 then 0 else 1) ∧
     exec (.subb t d a b) s = r (if x.ult y then 1 else 0) ∧
     exec (.adds t d a b) s = r (.ofInt 32 (max (-2147483648) (min 2147483647 (x.toInt + y.toInt)))) ∧
     exec (.subs t d a b) s = r (.ofInt 32 (max (-2147483648) (min 2147483647 (x.toInt - y.toInt))))) ∧
  (∀ (s : State) (e : Env) (t : BitVec 1) (d a i : BitVec 7) (x : Word),
     s.env = some e → Has e d.toNat → Reads e a.toNat x →
     let r := wrote e t d.toNat 1
     let y : Word := match e.hints.hx with | some high => high ++ i | none => i.signExtend 32
     exec (.addImm t d a i) s = r (x + y) ∧
     exec (.subImm t d a i) s = r (x - y) ∧
     exec (.andImm t d a i) s = r (x &&& y) ∧
     exec (.orImm t d a i) s = r (x ||| y) ∧
     exec (.xorImm t d a i) s = r (x ^^^ y) ∧
     exec (.andnImm t d a i) s = r (x &&& ~~~y) ∧
     exec (.minImm t d a i) s = r (if x.slt y then x else y) ∧
     exec (.maxImm t d a i) s = r (if x.slt y then y else x) ∧
     exec (.minbImm t d a i) s = r (if x.ult y then x else y) ∧
     exec (.maxbImm t d a i) s = r (if x.ult y then y else x) ∧
     exec (.addcImm t d a i) s = r (if x.toNat + y.toNat < 2 ^ 32 then 0 else 1) ∧
     exec (.subbImm t d a i) s = r (if x.ult y then 1 else 0) ∧
     exec (.addsImm t d a i) s = r (.ofInt 32 (max (-2147483648) (min 2147483647 (x.toInt + y.toInt)))) ∧
     exec (.subsImm t d a i) s = r (.ofInt 32 (max (-2147483648) (min 2147483647 (x.toInt - y.toInt)))))

/-- R82, R83, R80, R86, R115, R17: shifts by y[5:0], the rotate by y[4:0], the fields at position y[4:0], the products
and their high halves, ABS and NEG, CLZ, POPC and BREV, the insertion, permutation, funnel shift, multiply-add and
integer dot product that read the old destination, and MOVI write their results. Shifts and moves have latency 1,
products 3, dot products 4. -/
def Obligations.ShiftAndProductResults : Prop :=
  (∀ (s : State) (e : Env) (t : BitVec 1) (d a b : BitVec 7) (i : BitVec 14) (x y : Word),
     s.env = some e → Has e d.toNat → Reads e a.toNat x → Reads e b.toNat y →
     let r := wrote e t d.toNat 1
     let m := wrote e t d.toNat 3
     let p := y.toNat % 32
     let l := min (y.toNat / 256 % 64) (32 - p)
     exec (.shl t d a b) s = r (x <<< (y.toNat % 64)) ∧
     exec (.shr t d a b) s = r (x >>> (y.toNat % 64)) ∧
     exec (.sar t d a b) s = r (x.sshiftRight (y.toNat % 64)) ∧
     exec (.rol t d a b) s = r (x.rotateLeft (y.toNat % 32)) ∧
     exec (.bfxb t d a b) s = r (.ofNat 32 (x.toNat / 2 ^ p % 2 ^ l)) ∧
     exec (.bfx t d a b) s = r ((BitVec.ofNat l (x.toNat / 2 ^ p)).signExtend 32) ∧
     exec (.clz t d a) s = r (.ofNat 32 (if x = 0 then 32 else 31 - Nat.log2 x.toNat)) ∧
     exec (.popc t d a) s = r (.ofNat 32 ((List.range 32).filter fun k => x.getLsbD k).length) ∧
     exec (.brev t d a) s = r (bitReverse x) ∧
     exec (.abs t d a) s = r (if x.slt 0 then -x else x) ∧
     exec (.neg t d a) s = r (0 - x) ∧
     exec (.mul t d a b) s = m (x * y) ∧
     exec (.mulhi t d a b) s = m (((x.signExtend 64 * y.signExtend 64) >>> 32).setWidth 32) ∧
     exec (.mulhib t d a b) s = m (((x.setWidth 64 * y.setWidth 64) >>> 32).setWidth 32) ∧
     exec (.movi t d i) s = r (match e.hints.hx with | some high => high ++ i.setWidth 7 | none => i.signExtend 32)) ∧
  (∀ (s : State) (e : Env) (u t : BitVec 1) (d a b : BitVec 7) (x y c : Word),
     s.env = some e → Reads e d.toNat c → Reads e a.toNat x → Reads e b.toNat y →
     let p := y.toNat % 32
     let l := min (y.toNat / 256 % 64) (32 - p)
     exec (.bfi t d a b) s = wrote e t d.toNat 1
       (.ofNat 32 (c.toNat % 2 ^ p + x.toNat % 2 ^ l * 2 ^ p + c.toNat / 2 ^ (p + l) * 2 ^ (p + l))) ∧
     exec (.prmt t d a b) s = wrote e t d.toNat 1 (permute x y c) ∧
     exec (.fshf t d a b) s = wrote e t d.toNat 1 (((y ++ x : Dword) >>> (c.toNat % 32)).setWidth 32) ∧
     exec (.mad t d a b) s = wrote e t d.toNat 3 (x * y + c) ∧
     exec (.madhi t d a b) s = wrote e t d.toNat 3 (.ofInt 32 ((x.toInt * y.toInt + c.toInt) / 2 ^ 32)) ∧
     exec (.madhib t d a b) s = wrote e t d.toNat 3 (.ofNat 32 ((x.toNat * y.toNat + c.toNat) / 2 ^ 32)) ∧
     exec (.idot4 u t d a b) s = wrote e t d.toNat 4 (intDot (u == 1) e.mode.2 x y c))

/-- R84, R111, R112: a divide enters the divide unit with its quotient or remainder; division by zero gives all ones
or the dividend. A result of the divide unit, the SFU or the conversion queue leaves the core with its event: its
registers arrive and its flags are ORed into FSTAT. -/
def Obligations.UnitResults : Prop :=
  ((∀ (s : State) (e : Env) (d a b : BitVec 7) (x y : Word),
     s.env = some e → Has e d.toNat → Reads e a.toNat x → Reads e b.toNat y →
     let r := fun (q : Word) => queued e 0 [(d.toNat, q)] 0
     exec (.div d a b) s = r (if y = 0 then 0xFFFFFFFF else .ofInt 32 (x.toInt.tdiv y.toInt)) ∧
     exec (.divb d a b) s = r (if y = 0 then 0xFFFFFFFF else x.udiv y) ∧
     exec (.rem d a b) s = r (if y = 0 then x else .ofInt 32 (x.toInt.tmod y.toInt)) ∧
     exec (.remb d a b) s = r (if y = 0 then x else x.umod y))) ∧
  (∀ (s : State) (core : Nat) (c : Core) (r : Result) (before after : Tbl Core) (st : Strand),
     s.cores = before ++ (core, c) :: after →
     (∀ p ∈ before, ∀ x ∈ p.2.results, x.id ≠ r.id) → (∀ x ∈ c.results, x.id = r.id → x = r) → r ∈ c.results →
     s.strands.find r.strand = some st →
     let arrived : Strand := r.dst.foldl (fun (st : Strand) p => st.arrive r.id (.v p.1) p.2 false) st
     let t : State := (s.setCore core { c with results := c.results.filter (·.id ≠ r.id) }).setStrand r.strand
       { arrived with fstat := arrived.fstat ||| r.flags }
     (r.unit = 0 → exec (.idivResult r.id) s = .next t) ∧
     (r.unit = 1 → exec (.sfuResult r.id) s = .next t) ∧
     (r.unit = 2 → exec (.cvtResult r.id) s = .next t))

/-- R88: each minor of PRED writes p[d] with latency 1, and a write to p0 is discarded. PSET of a poisoned register is
consumption. The words of the class decode by their minor with predicate numbers in the low bits of d, a and b; a word
with a reserved bit or with an unassigned minor is refused, and 0x20004103 is PAND p1, p2, p3. -/
def Obligations.PredicateResults : Prop :=
  (∀ (s : State) (e : Env) (d a b : BitVec 3) (x y : Bool),
    s.env = some e → e.pred a.toNat = .ok x → e.pred b.toNat = .ok y →
    exec (.pand d a b) s = wrotePred e d.toNat 1 (x && y) ∧
    exec (.por d a b) s = wrotePred e d.toNat 1 (x || y) ∧
    exec (.pxor d a b) s = wrotePred e d.toNat 1 (x ^^ y) ∧
    exec (.pnot d a) s = wrotePred e d.toNat 1 (!x) ∧
    exec (.pmov d a) s = wrotePred e d.toNat 1 x) ∧
  (∀ (s : State) (e : Env) (d : BitVec 3) (a : BitVec 7) (x : Word), s.env = some e →
    (Reads e a.toNat x → exec (.pset d a) s = wrotePred e d.toNat 1 (decide (x ≠ 0))) ∧
    (Has e a.toNat → e.read a.toNat = .ok (x, true) → exec (.pset d a) s = .next (s.stop e .poison))) ∧
  (∀ (e : Env) (x : Bool), wrotePred e 0 1 x = done e e.st) ∧
  (∀ minor f : Nat, minor < 16 → f < 2 ^ 22 →
    decodeWord (0x20000000 + minor * 2 ^ 22 + f) =
      (let d : BitVec 3 := .ofNat 3 (f / 2 ^ 14)
       let a : BitVec 3 := .ofNat 3 (f / 2 ^ 7)
       let b : BitVec 3 := .ofNat 3 f
       if 6 ≤ minor then .error .unassignedMinor
       else if 2 ^ 17 ≤ f ∨ (minor ≠ 4 ∧ f / 2 ^ 10 % 16 ≠ 0) ∨ (minor < 3 ∧ f / 2 ^ 3 % 16 ≠ 0) ∨
          (3 ≤ minor ∧ f % 128 ≠ 0) then .error .reservedBits
       else .ok (match minor with
         | 0 => .pand d a b
         | 1 => .por d a b
         | 2 => .pxor d a b
         | 3 => .pnot d a
         | 4 => .pset d (.ofNat 7 (f / 2 ^ 7))
         | _ => .pmov d a))) ∧
  decodeWord 0x20004103 = .ok (.pand 1 2 3)

/-- R85, R86, R89, R90, R62: compares write their predicate by one of the ten conditions, which are those of signed
and unsigned order; SEL chooses by a predicate and takes the chosen register's poison bit; the 64-bit sums and
differences, the shift by y[6:0], the signed product of two words, the address of an element and the mask register are
written as pairs. -/
def Obligations.CompareAndPairResults : Prop :=
  ((∀ (s : State) (e : Env) (c : BitVec 4) (p : BitVec 3) (a b i : BitVec 7) (x y : Word),
     s.env = some e → Reads e a.toNat x → Reads e b.toNat y →
     exec (.cmp c p a b) s = wrotePred e p.toNat 1 (icond c.toNat x y) ∧
     exec (.cmpi c p a i) s = wrotePred e p.toNat 1 (icond c.toNat x (e.imm7 i))) ∧
   (∀ (s : State) (e : Env) (c : BitVec 4) (p : BitVec 3) (a b : BitVec 7) (x y : Dword),
     s.env = some e → ReadsPair e a.toNat x → ReadsPair e b.toNat y →
     exec (.cmp64 c p a b) s = wrotePred e p.toNat 3 (icond c.toNat x y)) ∧
   (∀ (s : State) (e : Env) (n : BitVec 3) (t : BitVec 1) (d a b : BitVec 7) (c p q : Bool) (x y : Word),
     s.env = some e → e.pred n.toNat = .ok c → Has e d.toNat → Has e a.toNat → Has e b.toNat →
     e.read a.toNat = .ok (x, p) → e.read b.toNat = .ok (y, q) →
     exec (.sel n t d a b) s =
       done e (if c then e.write e.st d.toNat x p 1 t else e.write e.st d.toNat y q 1 t))) ∧
  (∀ (x y : Word),
     icond 0 x y = (x == y) ∧ icond 1 x y = (x != y) ∧ icond 2 x y = x.slt y ∧ icond 3 x y = x.sle y ∧
     icond 4 x y = y.slt x ∧ icond 5 x y = y.sle x ∧ icond 6 x y = x.ult y ∧ icond 7 x y = x.ule y ∧
     icond 8 x y = y.ult x ∧ icond 9 x y = y.ule x) ∧
  ((∀ (s : State) (e : Env) (t : BitVec 1) (d a b : BitVec 7) (x y : Dword),
     s.env = some e → Has e d.toNat → Has e (d.toNat + 1) → ReadsPair e a.toNat x → ReadsPair e b.toNat y →
     exec (.add64 t d a b) s = wrotePair e t d.toNat 3 (x + y) ∧
     exec (.sub64 t d a b) s = wrotePair e t d.toNat 3 (x - y)) ∧
   (∀ (s : State) (e : Env) (t : BitVec 1) (d a b : BitVec 7) (x : Dword) (y : Word),
     s.env = some e → Has e d.toNat → Has e (d.toNat + 1) → ReadsPair e a.toNat x → Reads e b.toNat y →
     exec (.shl64 t d a b) s = wrotePair e t d.toNat 3 (x <<< (y.toNat % 128))) ∧
   (∀ (s : State) (e : Env) (t : BitVec 1) (d a b : BitVec 7) (x y : Word),
     s.env = some e → Has e d.toNat → Has e (d.toNat + 1) → Reads e a.toNat x → Reads e b.toNat y →
     exec (.mulw t d a b) s = wrotePair e t d.toNat 3 (x.signExtend 64 * y.signExtend 64)) ∧
   (∀ (s : State) (e : Env) (t : BitVec 1) (d a : BitVec 7) (h : BitVec 4) (r : HRec) (x : Word),
     s.env = some e → Has e d.toNat → Has e (d.toNat + 1) → e.hReg h.toNat = .ok r → Reads e a.toNat x →
     exec (.lea t d a h) s = wrotePair e t d.toNat 3 (leaAddress r x.toNat)) ∧
   (∀ (s : State) (e : Env) (t : BitVec 1) (d : BitVec 7) (n : BitVec 3) (k : Dword),
     s.env = some e → Has e d.toNat → Has e (d.toNat + 1) → e.kReg n.toNat = .ok k →
     exec (.rdk t d n) s = wrotePair e t d.toNat 1 (.ofNat 64 (k.toNat % 2 ^ e.wave.width))))

/-- R86, R87, R16: MOV copies a register with its poison bit; RDW, the FSTAT moves and RDSR write what they read,
CLOCK as a pair that its issue samples once and whose advance is a free value of the model (log 8); MOV to FSTAT
replaces its seven flags; HS adds n to the instruction count. -/
def Obligations.MoveResults : Prop :=
  (∀ (s : State) (e : Env) (t : BitVec 1) (d a : BitVec 7) (x : Word) (p : Bool),
    s.env = some e → Has e d.toNat → Has e a.toNat → e.read a.toNat = .ok (x, p) →
    exec (.mov t d a) s = done e (e.write e.st d.toNat x p 1 t)) ∧
  (∀ (s : State) (e : Env) (t : BitVec 1) (d : BitVec 7) (n : BitVec 4) (x : Word),
    s.env = some e → Has e d.toNat → e.wReg n.toNat = .ok x → exec (.rdw t d n) s = wrote e t d.toNat 1 x) ∧
  (∀ (s : State) (e : Env) (t : BitVec 1) (d a : BitVec 7) (x : Word),
    s.env = some e → FlagsIn s e → Has e d.toNat → Reads e a.toNat x →
    exec (.movToFstat a) s = done e { e.st with fstat := x &&& 0x7F } ∧
    exec (.movFromFstat t d) s = wrote e t d.toNat 1 e.st.fstat) ∧
  (∀ (s : State) (e : Env) (t : BitVec 1) (d : BitVec 7) (n : BitVec 14), s.env = some e → Alone e → Has e d.toNat →
    (specialWide n.toNat = false → exec (.rdsr t d n) s = wrote e t d.toNat 1 (e.special n.toNat)) ∧
    (n = 6 → Has e (d.toNat + 1) →
      (∀ x, s.issue.bind (·.clock) = some x → exec (.rdsr t d n) s = .next (e.retire s (e.writePair e.st d.toNat x 1 t))) ∧
      (s.issue.bind (·.clock) = none →
        let clock := (s.core e.coreKey).clock + (Config.freeTime s.freeCount).setWidth 64
        let ticked := ({ s with freeCount := s.freeCount + 1 } : State).modCore e.coreKey fun c => { c with clock := clock }
        exec (.rdsr t d n) s = .next (e.retire
          { ticked with issue := s.issue.map fun i => { i with clock := some clock } }
          (e.writePair e.st d.toNat clock 1 t))))) ∧
  (∀ (s : State) (e : Env) (n : BitVec 8), s.env = some e →
    exec (.hs n) s = .next (s.setStrand e.key (e.st.tick n.toNat)))

/-! ### Floating point -/

/-- R100, R101, R102, R103, R104, R107, R108, R114, R48, R49: every two- and one-operand instruction of the FADD,
FMUL, FMISC and PK16 classes writes one result with latency 4 and ORs the flags of that result into FSTAT. -/
def Obligations.FloatResults : Prop :=
  ∀ (s : State) (e : Env) (f t : BitVec 1) (d a b : BitVec 7) (x y : Word),
    s.env = some e → Has e d.toNat → Reads e a.toNat x → Reads e b.toNat y →
    let m := e.mode.1
    let sat := e.mode.2
    let F := elemFmt f
    let r := floated e t d.toNat
    let halves := fun (g : Nat → Nat → Nat × Flags) => packed (fun p q _ => g p q) x y 0
    exec (.fadd t d a b) s = r (sumRule (some (f32v x)) [term [f32v y]] .f32 m sat) ∧
    exec (.fsub t d a b) s = r (sumRule (some (f32v x)) [term [(f32v y).flip]] .f32 m sat) ∧
    exec (.fmul t d a b) s = r (sumRule none [term [f32v x, f32v y]] .f32 m sat) ∧
    exec (.fmin t d a b) s = r (minMax .f32 false x.toNat y.toNat) ∧
    exec (.fmax t d a b) s = r (minMax .f32 true x.toNat y.toNat) ∧
    exec (.fscale t d a b) s = r (scaleF32 m sat x y) ∧
    exec (.fcpys t d a b) s =
      r (unlessNaN x (x.toNat % 2 ^ 31 + (if (f32v y).isNaN then 0 else if y.msb then 2 ^ 31 else 0))) ∧
    exec (.fabs t d a) s = r (unlessNaN x (x.toNat % 2 ^ 31)) ∧
    exec (.fneg t d a) s = r (unlessNaN x (x ^^^ 0x80000000).toNat) ∧
    exec (.fclass t d a) s = r (classMask x, 0) ∧
    exec (.frnd t d a) s = r (roundF32 m x) ∧
    exec (.ffrac t d a) s = r (fracF32 x) ∧
    exec (.hadd2 f t d a b) s = r (halves fun p q => sumRule (some (F.decode p)) [term [F.decode q]] F m sat) ∧
    exec (.hsub2 f t d a b) s = r (halves fun p q => sumRule (some (F.decode p)) [term [(F.decode q).flip]] F m sat) ∧
    exec (.hmul2 f t d a b) s = r (halves fun p q => sumRule none [term [F.decode p, F.decode q]] F m sat) ∧
    exec (.hmin2 f t d a b) s = r (halves fun p q => minMax F false p q) ∧
    exec (.hmax2 f t d a b) s = r (halves fun p q => minMax F true p q)

/-- R105, R106, R114, R115, R116, R117: the fused multiply-adds, the dot products and the NQ instructions round one
exact sum once; FCMP writes its predicate with latency 4 and IV for a signalling operand. -/
def Obligations.FusedResults : Prop :=
  (∀ (s : State) (e : Env) (f t : BitVec 1) (d a b : BitVec 7) (x y c : Word),
    s.env = some e → Reads e d.toNat c → Reads e a.toNat x → Reads e b.toNat y →
    let m := e.mode.1
    let sat := e.mode.2
    let F := elemFmt f
    let r := floated e t d.toNat
    exec (.ffma t d a b) s = r (sumRule (some (f32v c)) [term [f32v x, f32v y]] .f32 m sat) ∧
    exec (.ffms t d a b) s = r (sumRule (some (f32v c).flip) [term [f32v x, f32v y]] .f32 m sat) ∧
    exec (.fnma t d a b) s = r (sumRule (some (f32v c)) [term [(f32v x).flip, f32v y]] .f32 m sat) ∧
    exec (.fnms t d a b) s = r (sumRule (some (f32v c).flip) [term [(f32v x).flip, f32v y]] .f32 m sat) ∧
    exec (.hfma2 f t d a b) s =
      r (packed (fun p q z => sumRule (some (F.decode z)) [term [F.decode p, F.decode q]] F m sat) x y c) ∧
    exec (.fdot2 f t d a b) s = r (floatDot F 2 m sat x y c) ∧
    exec (.f8dot4 f t d a b) s = r (floatDot (if f = 0 then .e4m3 else .e5m2) 4 m sat x y c)) ∧
  (∀ (s : State) (e : Env) (c p : BitVec 3) (a b : BitVec 7) (x y : Word),
    s.env = some e → Reads e a.toNat x → Reads e b.toNat y →
    exec (.fcmp c p a b) s = done e ((e.writePred e.st p.toNat (fcond c.toNat (f32v x) (f32v y)) 4).raise
      (e.loud (if (f32v x).isSNaN || (f32v y).isSNaN then fIV else 0)))) ∧
  (∀ (s : State) (e : Env) (sel : BitVec 2) (t : BitVec 1) (d a b : BitVec 7) (code scales sup act c : Word),
    s.env = some e → Reads e a.toNat code → Reads e (a.toNat + 1) scales → Reads e b.toNat sup →
    let lo := nq4Term (code.toNat % 16) (e.blockScale sel scales) (f32v sup)
    let hi := nq4Term (code.toNat / 16 % 16) (e.blockScale sel scales) (f32v sup)
    let m := e.mode.1
    let sat := e.mode.2
    (Has e d.toNat → Has e (d.toNat + 1) →
      exec (.nqdec sel t d a b) s =
        done e ((e.write (e.write e.st d.toNat (.ofNat 32 (lo.round .f32 m sat).1) false 4 t) (d.toNat + 1)
          (.ofNat 32 (hi.round .f32 m sat).1) false 4 t).raise
            (e.loud ((lo.round .f32 m sat).2 ||| (hi.round .f32 m sat).2)))) ∧
    (Has e d.toNat →
      exec (.nqdecf sel t d a b) s = floated e t d.toNat
        ((lo.round .f16 m sat).1 + (hi.round .f16 m sat).1 * 65536, (lo.round .f16 m sat).2 ||| (hi.round .f16 m sat).2)) ∧
    (Reads e d.toNat c → Reads e (b.toNat + 1) act →
      exec (.nqdot sel t d a b) s =
        floated e t d.toNat (nqDot m sat code.toNat (e.blockScale sel scales) (f32v sup) act c)))

/-- R102, R32, R39: an f32 sum, difference, product or fused multiply-add with a NaN among its operands gives the
canonical NaN, whatever the other operands and the rounding; in every rounding mode, with or without saturation, a sum
of two f32 values has the same result and flags in either order. -/
def Obligations.SumRules : Prop :=
  (∀ (x y c : FVal) (m : Nat) (sat : Bool), (x.isNaN || y.isNaN || c.isNaN) = true →
     (sumRule (some c) [term [x, y]] .f32 m sat).1 = 0x7FC00000 ∧
     ((x.isNaN || y.isNaN) = true → (sumRule none [term [x, y]] .f32 m sat).1 = 0x7FC00000) ∧
     ((x.isNaN || c.isNaN) = true → (sumRule (some c) [term [x]] .f32 m sat).1 = 0x7FC00000)) ∧
  (∀ (x y : Word) (m : Nat) (sat : Bool),
     sumRule (some (f32v x)) [term [f32v y]] .f32 m sat = sumRule (some (f32v y)) [term [f32v x]] .f32 m sat)

/-- R110, R111, R112, R113, R41, R42, R43: an SFU instruction that finds room in its wave's queue enters the queue
with its result and its flags. The special operands give the results and flags of R110's table. A conversion that
finds room in its wave's queue enters it with the converted value; PACK2 joins two results in one register, UNPACK2
gives two. An SFU instruction or a conversion whose wave's queue is full of other issues waits and changes nothing. -/
def Obligations.QueuedFloatResults : Prop :=
  (∀ (s : State) (e : Env) (d a b : BitVec 7) (x y : Word),
     s.env = some e → Has e d.toNat → Reads e a.toNat x → Reads e b.toNat y →
     (s.unitIssues e.waveKey 1).length < 4 →
     let r := fun (n : Nat) (w : Word) => queued e 1 [(d.toNat, .ofNat 32 (sfu n x w).1)] (e.loud (sfu n x w).2)
     exec (.frcp d a) s = r 0 0 ∧ exec (.frsq d a) s = r 1 0 ∧ exec (.fsqrt d a) s = r 2 0 ∧
     exec (.fdiv d a b) s = r 3 y ∧ exec (.fexp2 d a) s = r 4 0 ∧ exec (.flog2 d a) s = r 5 0 ∧
     exec (.fsinp d a) s = r 6 0 ∧ exec (.fcosp d a) s = r 7 0 ∧ exec (.ftanh d a) s = r 8 0) ∧
  ((∀ (op : Nat) (x : Word), op ≠ 3 → op ≤ 8 → (f32v x).isNaN = true →
     sfu op x 0 = (0x7FC00000, if (f32v x).isSNaN then fIV else 0)) ∧
   sfu 0 0x00000000 0 = (0x7F800000, fDZ) ∧ sfu 0 0x80000000 0 = (0xFF800000, fDZ) ∧
   sfu 0 0x7F800000 0 = (0x00000000, 0) ∧ sfu 0 0xFF800000 0 = (0x80000000, 0) ∧
   sfu 1 0x00000000 0 = (0x7F800000, fDZ) ∧ sfu 1 0x80000000 0 = (0xFF800000, fDZ) ∧
   sfu 1 0x7F800000 0 = (0x00000000, 0) ∧ sfu 1 0xFF800000 0 = (0x7FC00000, fIV) ∧
   sfu 2 0x00000000 0 = (0x00000000, 0) ∧ sfu 2 0x80000000 0 = (0x80000000, 0) ∧
   sfu 2 0xFF800000 0 = (0x7FC00000, fIV) ∧
   sfu 3 0x00000000 0x80000000 = (0x7FC00000, fIV) ∧ sfu 3 0x7F800000 0xFF800000 = (0x7FC00000, fIV) ∧
   sfu 3 0x3F800000 0x80000000 = (0xFF800000, fDZ) ∧ sfu 3 0xFF800000 0x3F800000 = (0xFF800000, 0)) ∧
  (∀ (s : State) (e : Env) (d a : BitVec 7) (k : BitVec 1) (y x : BitVec 3) (v w : Word),
     s.env = some e → Has e d.toNat → Reads e a.toNat v →
     (s.unitIssues e.waveKey 2).length < 8 →
     let c := fun (kind n : Nat) => convert kind y.toNat x.toNat e.mode.1 e.mode.2 n
     let one := fun (kind : Nat) => queued e 2 [(d.toNat, (c kind v.toNat).1)] (e.loud (c kind v.toNat).2)
     let n := codeWidth k y.toNat
     let ns := codeWidth k x.toNat
     let pk := packKind k
     exec (.f2f d a y x) s = one 0 ∧ exec (.f2i d a y x) s = one 1 ∧ exec (.i2f d a y x) s = one 2 ∧
     exec (.i2i d a y x) s = one 3 ∧
     (Reads e (a.toNat + 1) w →
       exec (.pack2 d a k y x) s = queued e 2
         [(d.toNat, .ofNat 32 ((c pk v.toNat).1.toNat % 2 ^ n + (c pk w.toNat).1.toNat % 2 ^ n * 2 ^ n))]
         (e.loud ((c pk v.toNat).2 ||| (c pk w.toNat).2))) ∧
     (Has e (d.toNat + 1) →
       exec (.unpack2 d a k y x) s = queued e 2
         [(d.toNat, (c pk (v.toNat % 2 ^ ns)).1), (d.toNat + 1, (c pk (v.toNat / 2 ^ ns % 2 ^ ns)).1)]
         (e.loud ((c pk (v.toNat % 2 ^ ns)).2 ||| (c pk (v.toNat / 2 ^ ns % 2 ^ ns)).2)))) ∧
  (∀ (s : State) (e : Env) (d a b : BitVec 7) (k : BitVec 1) (y x : BitVec 3),
     s.env = some e →
     (4 ≤ (s.unitIssues e.waveKey 1).length → e.issueNo ∉ s.unitIssues e.waveKey 1 →
       ∀ i ∈ [Instr.frcp d a, .frsq d a, .fsqrt d a, .fdiv d a b, .fexp2 d a, .flog2 d a, .fsinp d a, .fcosp d a,
         .ftanh d a], exec i s = .next s) ∧
     (8 ≤ (s.unitIssues e.waveKey 2).length → e.issueNo ∉ s.unitIssues e.waveKey 2 →
       ∀ i ∈ [Instr.f2f d a y x, .f2i d a y x, .i2f d a y x, .i2i d a y x, .pack2 d a k y x, .unpack2 d a k y x],
         exec i s = .next s))

/-! ### Local memory -/

/-- R119, R124: an index at or beyond the extent, and a local element outside the team's grant, are clamped under
Bounds 1 and raise OOR under Bounds 0; a missing permission raises OOR; a local element inside the grant lies at BASE0
+ offset. -/
def Obligations.LocateRules : Prop :=
  ∀ (h : HRec) (i need scratch areas : Nat),
    let out : Act Loc := if hBnd h then .ok .clamped else .error (.fault 7 0 0)
    (hExtent h ≤ i → locate h i need scratch areas = out) ∧
    (i < hExtent h → hGrants h need = false → locate h i need scratch areas = .error (.fault 7 0 0)) ∧
    (i < hExtent h → hGrants h need = true → hKind h = 1 →
      let off : Int := hBase0 h + hOffset h i
      (off < 0 ∨ (scratch : Int) < off + hEsize h → locate h i need scratch areas = out) ∧
      (0 ≤ off → off + hEsize h ≤ (scratch : Int) → locate h i need scratch areas = .ok (.scratch off.toNat)))

/-- R125, R127, R120, R21, R24, R202, R204, R17, R29: a load of an element of local space delivers its bytes, zero- or
sign-extended, each word with its own poison, and changes neither memory nor scratch; where no other access has come
between the lanes of its issue, the bytes are those of the element. A clamped load delivers zeros. An access through a
register area waits for the strand's results and finds it drained, a clamped one too (log 47: the model's choice); the
bytes of a load there arrive with the end of its issue, and a wrong parity in them is its reader's error. A store to
an element of local space writes the low bytes of its registers, the first register lowest, each word with its own
poison; a clamped store writes nothing. STREL comes after the strand's own outstanding accesses. Through a register
area the store finds the strand drained, writes the registers, and begins a region; each byte goes to its own place of
its register, whose other bytes stay. scratch is little-endian bytes. A read of what a write covered gives the bytes
written, a read elsewhere gives what was there; a word covered whole takes the poison of its data, one covered in part
keeps its own beside it. -/
def Obligations.LocalAccesses : Prop :=
  ((∀ (s : State) (e f : Env) (d : BitVec 7) (h : BitVec 4) (a : BitVec 7) (y : BitVec 3) (r : HRec) (i : Word),
     s.env = some e → Alone e → e.areaDrained r = .ok f → Element f h a d r i →
     let n := hEsize r
     (∀ (off : Nat) (team : Team), e.locate r i.toNat 0 = .ok (.scratch off) → s.teams.find e.wave.team = some team →
       let got := team.scratchRead off n
       let noted := s.noteAccess e.lane 0 n off false
       let m := noted.mixed (.scratch e.wave.team) off got
       let t := fun (signed : Bool) => Safety.next (m.2.setStrand e.key
         ((f.put f.st d.toNat (markedWords m.1 (loadWords n signed m.1.bytes))).tick 1))
       exec (.ld d h a y) s = t false ∧ exec (.lds d h a y) s = t true ∧ exec (.lda d h a y) s = t false ∧
       ((∀ x, s.issue = some x → x.before = []) → m = (got, noted))) ∧
     (∀ (off : Nat), e.locate r i.toNat 0 = .ok (.area off) →
       let team := e.wave.team
       let back := e.wave.trailing
       let g := (s.noteAccess e.lane 0 n (off + 2 ^ 40) false).setStrand e.key f.st
       (g.areaError team back (.area off) n = none →
         let m := g.mixed (areaWord (g.areasFor team back)) off (g.localRead team back (.area off) n)
         let t := fun (signed : Bool) =>
           let u := m.2.free.2.fresh.2
           Safety.next (({ u with issue := u.issue.map fun (j : Issue) =>
             { j with late := j.late ++ [{ strand := e.key, id := s.nextId, d := d.toNat
                                           words := markedWords m.1 (loadWords n signed m.1.bytes) }] } } : State).setStrand e.key
             ((f.st.awaitMany s.nextId d.toNat (elementRegs n)).tick 1))
         exec (.ld d h a y) s = t false ∧ exec (.lds d h a y) s = t true ∧ exec (.lda d h a y) s = t false) ∧
       (∀ k x, g.areaError team back (.area off) n = some (k, x) →
         let t := Safety.next (s.stop e (.parity (e.errorMark k x)))
         exec (.ld d h a y) s = t ∧ exec (.lds d h a y) s = t ∧ exec (.lda d h a y) s = t)) ∧
     (e.locate r i.toNat 0 = .ok .clamped →
       let t := done e (f.put f.st d.toNat (List.replicate (elementRegs n) (0, false)))
       exec (.ld d h a y) s = t ∧ exec (.lds d h a y) s = t ∧ exec (.lda d h a y) s = t)) ∧
   (∀ (s : State) (e : Env) (d : BitVec 7) (h : BitVec 4) (a : BitVec 7) (y : BitVec 3) (r : HRec),
     s.env = some e → Alone e → e.hReg h.toNat = .ok r → hKind r = 2 → Has e a.toNat → elementAligned (hEsize r) d.toNat = true →
     (∀ k < elementRegs (hEsize r), Has e (d.toNat + k)) → e.st.drained = false →
     exec (.ld d h a y) s = .next s ∧ exec (.lds d h a y) s = .next s ∧ exec (.lda d h a y) s = .next s ∧
     exec (.st d h a y) s = .next s ∧ exec (.strel d h a y) s = .next s) ∧
   (∀ (run : Run) (s : State) (i : Issue) (l : Late), i.late = [l] → i.writes = [] → i.differ = [] →
     ((s.endIssue run i).strands.find l.strand).map (fun (st : Strand) => (st.regs, st.window)) =
       ((s.deliver l.strand l.id l.d l.words).strands.find l.strand).map fun (st : Strand) => (st.regs, st.window))) ∧
  ((∀ (s : State) (e f : Env) (x : BitVec 7) (h : BitVec 4) (a : BitVec 7) (y : BitVec 3) (r : HRec) (i : Word)
     (words : List (Word × Bool)),
     s.env = some e → Alone e → e.areaDrained r = .ok f → Element f h a x r i →
     f.readMany x.toNat (elementRegs (hEsize r)) = .ok words → s.readsOutstanding e.key = false →
     let data := storeBytes (hEsize r) (words.map fun w => (e.produce w.1, w.2))
     let both := fun (t : Out) => exec (.st x h a y) s = t ∧ (s.ownOutstanding e.key = false → exec (.strel x h a y) s = t)
     data.length = hEsize r ∧
     (∀ (off : Nat), e.locate r i.toNat 1 = .ok (.scratch off) →
       both (.next (((s.noteAccess e.lane 0 data.length off false).setStrand e.key (f.st.tick 1)).scratchWrite
         e.wave.team off data))) ∧
     (∀ (off : Nat), e.locate r i.toNat 1 = .ok (.area off) →
       both (.next ((((s.noteAccess e.lane 0 data.length (off + 2 ^ 40) false).setStrand e.key (f.st.tick 1)).localWrite
         e.wave.team e.wave.trailing e.key (.area off) data).modStrand e.key fun st => st.startRegion st.pc))) ∧
     (e.locate r i.toNat 1 = .ok .clamped → exec (.st x h a y) s = done e f.st ∧ exec (.strel x h a y) s = done e f.st)) ∧
   (∀ (s : State) (areas : List Area) (writer off : Nat) (x : Byte) (poison : Bool) (k n b : Nat) (st : Strand),
     areaPlace areas off = some { strand := some k, n := n, byte := b } → b < 4 → s.strands.find k = some st →
     ∃ u : Strand, (s.setAreaByte areas writer off x poison).strands.find k = some u ∧
       (u.regs.get n Reg.zero).poison = poison ∧
       (∀ j < 4, fld (u.regs.get n Reg.zero).val.toNat (8 * j) 8 =
         if j = b then x.toNat else fld (st.regs.get n Reg.zero).val.toNat (8 * j) 8) ∧
       ∀ m, m ≠ n → u.regs.get m Reg.zero = st.regs.get m Reg.zero)) ∧
  (∀ (t : Team) (off : Nat) (l : Marked), t.scratch.Pairwise (fun a b => a.1 < b.1) →
     let u := t.scratchWrite off l
     let mine := fun (w : Nat) => ((span off l.length).zip l).filter fun c => c.1 / 4 = w
     (u.scratchRead off l.length).bytes = l.bytes ∧
     (∀ a, (a < off ∨ off + l.length ≤ a) → u.scratch.get a 0 = t.scratch.get a 0) ∧
     (∀ w, (mine w).length = 4 → u.poisonWords.contains w = (mine w).any fun c => c.2.2) ∧
     (∀ w, (mine w).length ≠ 0 → (mine w).length ≠ 4 →
       u.poisonWords.contains w = (t.poisonWords.contains w || (mine w).any fun c => c.2.2)) ∧
     (∀ w, (mine w).length = 0 → u.poisonWords.contains w = t.poisonWords.contains w))

/-- R129, R130, R24: the new value of an element of four or eight bytes, by operation; an atomic on an element of
scratch writes the new value, delivers the old one where r is 1, and begins a region; a clamped one writes nothing and
delivers zeros. -/
def Obligations.AtomicResults : Prop :=
  ((∀ (m x c : Word), let z := fun (w : Word) => w.setWidth 64
     let f := fun (op : Nat) (isF : Bool) => (atomicNew op isF 4 (z m) (z x) (z c)).setWidth 32
     (∀ b, f 0 b = m + x) ∧
     (∀ b, f 1 b = .ofNat 32 (sumRule (some (f32v m)) [term [f32v x]] .f32 0 false).1) ∧
     f 2 false = (if x.slt m then x else m) ∧ f 3 false = (if m.slt x then x else m) ∧
     f 2 true = .ofNat 32 (minMax .f32 false m.toNat x.toNat).1 ∧
     f 3 true = .ofNat 32 (minMax .f32 true m.toNat x.toNat).1 ∧
     (∀ b, f 4 b = if x.ult m then x else m) ∧ (∀ b, f 5 b = if m.ult x then x else m) ∧
     (∀ b, f 6 b = m &&& x) ∧ (∀ b, f 7 b = m ||| x) ∧ (∀ b, f 8 b = m ^^^ x) ∧ (∀ b, f 9 b = x) ∧
     (∀ b, f 10 b = if m = c then x else m) ∧ (∀ b, f 11 b = if x.ule m then 0 else m + 1)) ∧
   (∀ (m x c : Dword) (b : Bool),
     atomicNew 0 b 8 m x c = m + x ∧ atomicNew 4 b 8 m x c = (if x.ult m then x else m) ∧
     atomicNew 5 b 8 m x c = (if m.ult x then x else m) ∧ atomicNew 6 b 8 m x c = m &&& x ∧
     atomicNew 7 b 8 m x c = m ||| x ∧ atomicNew 8 b 8 m x c = m ^^^ x ∧ atomicNew 9 b 8 m x c = x ∧
     atomicNew 10 b 8 m x c = if m = c then x else m)) ∧
  (∀ (s : State) (e : Env) (op : Nat) (q : BitVec 1) (d : BitVec 7) (h : BitVec 4) (a : BitVec 7) (y : BitVec 3)
     (r : HRec) (i : Word) (words : List (Word × Bool)),
     s.env = some e → Alone e → AtomicElement e op h a d r i words → (hKind r = 0 ∨ hKind r = 1) →
     let n := hEsize r
     let gives := fun (l : List (Word × Bool)) => if q = 1 then e.put e.st d.toNat l else e.st
     (∀ (off : Nat) (team : Team), e.locate r i.toNat 2 = .ok (.scratch off) →
       (e.order < 2 ∨ s.ownOutstanding e.key = false) → s.teams.find e.wave.team = some team →
       (team.scratchRead off n).poisoned = false →
       let old : Dword := .ofNat 64 (fromBytes (team.scratchRead off n).bytes)
       let new := atomicNew op (hNumT r = 1) n old (atomicX op r words) (atomicCmp r words)
       exec (atomicInstr op q d h a y) s = .next (e.retireRegion
         ((s.noteAccess e.lane 0 n off true).scratchWrite e.wave.team off (clean (toBytes n new.toNat)))
         (gives ((valueWords n old).map fun w => (w, false))))) ∧
     (e.locate r i.toNat 2 = .ok .clamped →
       exec (atomicInstr op q d h a y) s = .next (e.retireRegion s (gives (List.replicate (n / 4) (0, false))))))

/-! ### Control flow and exceptions -/

/-- R92: NX continues at its target, the control word's address plus four times its offset (with the high part of an
HX in front of the offset's low bits where there is one). NXC continues at its target when its predicate XOR neg is
true and otherwise at the control word's address + 4. NXI, and RET with it, continue at the address in their pair
where R57 admits it. -/
def Obligations.BranchResults : Prop :=
  (∀ (s : State) (e : Env) (o : BitVec 18), s.env = some e →
    let offset : VAddr := match e.hints.hx with
      | some high => (high ++ o.setWidth 7 : BitVec 32).signExtend 57
      | none => o.signExtend 57
    let go : Strand := { e.st with pc := e.here + (offset <<< 2) }
    exec (.nx o) s = done e go ∧
    (∀ (neg : BitVec 1) (p : BitVec 3) (c : Bool), e.pred p.toNat = .ok c →
      exec (.nxc neg p o) s = done e (if c ^^ (neg == 1) then go else { e.st with pc := e.here + 4 }))) ∧
  (∀ (s : State) (e : Env) (a : BitVec 7) (x : Dword), s.env = some e → ReadsPair e a.toNat x → x.toNat % 4 = 0 →
    x.toNat < 2 ^ 57 →
    exec (.nxi a) s = done e { e.st with pc := x.setWidth 57 } ∧
    exec (.ret a) s = done e { e.st with pc := x.setWidth 57 })

/-- R57: NXI, RET and CALLI with a target in a register that is no multiple of 4 or lies at or beyond 2^57 take a
fetch fault at the control instruction: the lane is parked at its bundle, FAULTPC is that bundle, FAULTVA the target,
and no register, link or count changes. The REASON, stage and level of its park record are the model's choice (log
26). Where the cluster has no fault queue the same stop aborts the grid. -/
def Obligations.RegisterTargets : Prop :=
  ∀ (s : State) (e : Env) (st : Strand) (l : BitVec 4) (a : BitVec 7) (x : Dword), s.env = some e →
    s.strands.find e.key = some st → st.pc = s.cur.bundle → ReadsPair e a.toNat x → Has e (2 * l.toNat) →
    Has e (2 * l.toNat + 1) → (x.toNat % 4 ≠ 0 ∨ 2 ^ 57 ≤ x.toNat) →
    let faults := fun (i : Instr) => exec i s = .next (s.stop e (.park 1 x.toNat 3 0 1 0 0 0)) ∧
      (ringBase (s.cluster (coreCluster e.coreKey)).fqBase ≠ 0 →
        ∃ u t, exec i s = .next u ∧ u.strands.find e.key = some t ∧ t.life = .parked ∧
          t.faultCode = .ofNat 32 (e.lane * 65536 + 1) ∧ t.faultPc = s.cur.bundle.setWidth 64 ∧ t.faultVa = x ∧
          t.pc = s.cur.bundle ∧ t.regs = st.regs ∧ t.window = st.window ∧ t.count = st.count)
    faults (.nxi a) ∧ faults (.ret a) ∧ faults (.calli l a)

/-- R93: a call to an entry whose budget the wave already holds writes the return address to its link pair and goes
there; one that needs more registers is Blocked in a grow request of the wave; an entry whose budget word is not valid
is a BUDGET fault. -/
def Obligations.CallResults : Prop :=
  ∀ (s : State) (e : Env) (l : BitVec 4) (t : VAddr) (need : Nat),
    s.env = some e → Alone e → Has e (2 * l.toNat) → Has e (2 * l.toNat + 1) → e.codeWord (budgetAt t) = .ok need →
    let both := fun (r : Out) => (∀ o : BitVec 18, e.target o = t → exec (.call l o) s = r) ∧
      (∀ (a : BitVec 7) (x : Dword), ReadsPair e a.toNat x → checkTarget x = .ok t → exec (.calli l a) s = r)
    (budgetOk need = false → both (faulted e 3 0)) ∧
    (budgetOk need = true → need ≤ e.wave.alloc →
      both (done e { (e.put e.st (2 * l.toNat)
        [((e.here + 4).setWidth 32, false), (((e.here + 4) >>> 32).setWidth 32, false)]) with pc := t })) ∧
    (budgetOk need = true → e.wave.alloc < need → e.wave.grow = none →
      let lane : GrowLane := { lane := e.lane, dst := none, link := l.toNat, ret := e.here + 4, target := t, pc := e.bundle }
      let u : State := ({ s with nextId := s.nextId + 1 } : State).modBank e.bankKey fun b =>
        { b with grows := b.grows ++ [e.waveKey] }
      let grow : Grow := { id := s.nextId, issue := e.issueNo, size := need, lanes := [lane] }
      both (Safety.next ((u.setWave e.waveKey { e.wave with grow := some grow }).setStrand e.key
        { e.st with pc := e.bundle, life := .blocked (.grow s.nextId) })))

/-- R97: REGION drains the window: only results that have not arrived are left in it, for which the strand then waits,
and every other newest value is kept. The region's first word, REGIONPC and the pc are the control word's address + 4.
-/
def Obligations.RegionResults : Prop :=
  ∀ (s : State) (e : Env), s.env = some e →
    ∃ t, exec .region s = .next (s.setStrand e.key t) ∧ t.pc = e.here + 4 ∧ t.regionPc = e.here + 4 ∧
      t.parityErrors = [] ∧ (∀ w ∈ t.window, w.tag ≠ none ∧ w.transient = false) ∧ t.draining = !t.window.isEmpty ∧
      (∀ d x, writable d = true → newest e.st d = some x → newest t d = some x) ∧ t.fstat = e.st.fstat ∧
      t.count = e.st.count + 1

/-- R95, R96, R98, R21, R260, R286: EXIT ends a strand whose results have all arrived, its window drained, and until
then the strand waits; YIELD ends the greedy run of its wave; SLEEP blocks. REFILL takes the oldest item of its grid
that fits: the strand goes to the loop head, or to the item's entry, with p0 alone true, and its sixteen argument
words are on their way to v0 to v15, for which the strand waits. With no item and no task of its grid in the pool the
strand exits. That an item is the oldest of the strand's own grid that fits is log 17: the model's choice. -/
def Obligations.StrandEnds : Prop :=
  (∀ (s : State) (e : Env), s.env = some e →
     (let t := s.setStrand e.key (e.st.tick 1).leave.closeGroup;
       (e.st.drained = true → exec .exit s = .next (t.tryMeets e.waveKey)) ∧
       (e.st.drained = false → exec .exit s = .next s) ∧ (e.wave.meets = [] → t.tryMeets e.waveKey = t) ∧
       (e.st.tick 1).leave.closeGroup.life = .exited ∧ (e.st.tick 1).leave.closeGroup.window = []) ∧
     exec .yield s = .next ((s.modBank (s.activeBank e.coreKey) fun b => { b with yielded := true }).setStrand e.key
       (e.st.tick 1)) ∧
     exec .sleep s = .next (s.setStrand e.key { e.st.tick 1 with life := .blocked .sleep })) ∧
  (∀ (s : State) (e : Env) (o : BitVec 18), s.env = some e → Alone e → e.st.item = none → e.st.drained = true →
     (∀ (t : Task) (pas : List Nat), e.fitting e.codeWord (s.core e.coreKey).items = .ok (some t) →
       ({ e with st := { e.st with item := some (t.entry.toNat, t.record) },
                 s := ((s.modCore e.coreKey fun c => { c with items := c.items.erase t }).modStrand e.key fun st =>
                   { st with item := some (t.entry.toNat, t.record) }) } : Env).argLoads t.record 4 = .ok pas →
       ∃ u st, exec (.refill o) s = .next u ∧ u.strands.find e.key = some st ∧
         st.pc = (if t.entry = e.st.entry then e.target o else t.entry) ∧ st.regionPc = st.pc ∧ st.entry = t.entry ∧
         st.preds = 1 ∧ st.item = none ∧ st.draining = true ∧ (u.core e.coreKey).items = (s.core e.coreKey).items.erase t ∧
         (u.loads.drop s.loads.length).map (fun l => (l.strand, l.pa, l.size, l.d, l.acquire)) =
           (List.range 4).map fun j => (e.key, pas.getD j 0, 16, 4 * j, 3)) ∧
     (e.fitting e.codeWord (s.core e.coreKey).items = .ok none → e.poolHolds = false →
       exec (.refill o) s = .next ((s.setStrand e.key (e.st.tick 1).leave.closeGroup).tryMeets e.waveKey)))

/-- R249, R251, R252, R22, R24, R25, R99, R257: a handler-kind fault of a lane outside a handler, in a bank with a
handler: the fault registers get the code word, the pc of the bundle and FAULTVA, the window is frozen, v0 to v5 of
the handler hold the code, the lane, the pc and the address, and the strand stands at TRAPBASE. TRAP and BRK take
their fault with ARG = c; in a handler, or in a bank without one, a handler-kind fault aborts the grid, with DBLFAULT
or with its own code. TRAPRET and TRAPRET.skip end the handler: the frozen window comes back without the entries whose
register the handler wrote, REGIONPC is the interrupted one, a register that had a parity error there counts until the
handler has written it, and the strand goes on at the faulting bundle or after it. While results of the handler have
not arrived both wait. Outside a handler both are ILLOP. -/
def Obligations.TrapEntry : Prop :=
  (∀ (s : State) (k grid code arg : Nat) (va : Dword) (skip : VAddr) (st : Strand),
     s.strands.find k = some st → st.handler = none → s.queued k = false →
     let base := (s.bank (waveBank (strandWave k))).trapBase
     base ≠ 0 →
     ∃ t f, s.trap k grid code arg va skip = s.setStrand k t ∧ t.handler = some f ∧
       t.pc = base.setWidth 57 ∧ t.regionPc = t.pc ∧ t.life = .ready ∧ t.window = [] ∧
       t.faultCode = .ofNat 32 (strandLane k * 65536 + arg % 256 * 256 + code % 256) ∧
       t.faultPc = st.pc.setWidth 64 ∧ t.faultVa = va ∧
       f.frozen = st.window ∧ f.lost = st.lost ∧ f.regionPc = st.regionPc ∧ f.parityErrors = st.parityErrors ∧
       f.skip = skip ∧ f.again = (if code = 9 ∨ code = 10 then skip else st.pc) ∧
       (List.range 8).map (fun n => (t.reg n).val) =
         [t.faultCode, .ofNat 32 (strandLane k), t.faultPc.setWidth 32, (t.faultPc >>> 32).setWidth 32,
          va.setWidth 32, (va >>> 32).setWidth 32, 0, 0] ∧
       t.regs = st.regs ∧ t.preds = st.preds ∧ t.fstat = st.fstat ∧ t.count = st.count) ∧
  ((∀ (s : State) (e : Env) (c : BitVec 8), s.env = some e →
     exec (.trap c) s = .next (s.trap e.key e.wave.grid 9 c.toNat 0 (e.here + 4)) ∧
     exec (.brk c) s = .next (s.trap e.key e.wave.grid 10 c.toNat 0 (e.here + 4))) ∧
   (∀ (s : State) (k grid code arg : Nat) (va : Dword) (skip : VAddr) (st : Strand), s.strands.find k = some st →
     (st.handler ≠ none → s.trap k grid code arg va skip = s.abortGrid grid 0x18 (laneError s k va.toNat)) ∧
     (st.handler = none → (s.bank (waveBank (strandWave k))).trapBase = 0 →
       s.trap k grid code arg va skip = s.abortGrid grid code (laneError s k va.toNat)))) ∧
  (∀ (s : State) (e : Env), s.env = some e →
     ((∃ f, e.st.handler = some f) → e.st.drained = false →
       exec .trapret s = .next s ∧ exec .trapretSkip s = .next s) ∧
     (∀ f, e.st.handler = some f → e.st.drained = true →
       (∃ t, exec .trapret s = .next (s.setStrand e.key t) ∧ LeftHandler e.st f f.again t) ∧
       (∃ t, exec .trapretSkip s = .next (s.setStrand e.key t) ∧ LeftHandler e.st f f.skip t)) ∧
     (e.st.handler = none → exec .trapret s = faulted e 2 0 ∧ exec .trapretSkip s = faulted e 2 0))

/-! ### Global memory -/

/-- R125, R121, R317, R318, R18: a load of global memory that the L1 area serves, with the store buffer over it,
delivers the bytes at once, those of the L1 area as they are where no other access has come between the lanes of its
issue; one that misses leaves its registers waiting for a load of those bytes, LDA waiting in place. Neither writes
memory. A load with a miss register that no older request of its slice and nothing of its own comes before, of a line
of its own die that no cache holds, returns the bytes of memory to its registers. The oldest waiting line that a free
register may serve is granted one. -/
def Obligations.GlobalLoads : Prop :=
  (∀ (s : State) (e : Env) (d : BitVec 7) (h : BitVec 4) (a : BitVec 7) (y : BitVec 3) (r : HRec) (i : Word) (va pa : Nat),
     s.env = some e → Alone e → Element e h a d r i → e.locate r i.toNat 0 = .ok (.glob va) →
     e.translate va 0 kLoad = .ok pa →
     let n := hEsize r
     let core := e.homeCore va
     let hit := fun (i : Instr) (signed : Bool) (b : List Byte) (p : Bool) =>
       let l : Marked := b.map fun x => (x, p)
       let m := (s.noteAccess e.lane 1 n va false).mixed (.l1 core) pa l
       ((∀ x, s.issue = some x → x.before = []) → m.1 = l) ∧
       ∃ u, exec i s = .next u ∧ u.mem = s.mem ∧ u.loads = s.loads ∧
         u.strands = s.strands.set e.key
           ((e.put e.st d.toNat (markedWords m.1 (loadWords n signed m.1.bytes))).tick 1)
     let miss := fun (i : Instr) (signed : Bool) (acquire : Nat) (life : Strand → Life) => ∃ u l, exec i s = .next u ∧
       u.mem = s.mem ∧ u.loads = s.loads ++ [l] ∧ l.id = s.nextId ∧ l.strand = e.key ∧ l.use = .register ∧ l.va = va ∧ l.pa = pa ∧
       l.size = n ∧ l.signed = signed ∧ l.d = d.toNat ∧ l.acquire = acquire ∧ l.pol = e.policy r ∧
       l.granted = s.missGrant e.coreKey pa ∧
       (let st := (e.st.awaitMany s.nextId d.toNat (elementRegs n)).tick 1
        u.strands = s.strands.set e.key { st with life := life st })
     (∀ b p, e.served core pa n 0 = some (b, p) → hit (.ld d h a y) false b p ∧ hit (.lds d h a y) true b p) ∧
     (∀ b p, e.served core pa n (accessScope y.toNat r) = some (b, p) → hit (.lda d h a y) false b p) ∧
     (e.served core pa n 0 = none →
       miss (.ld d h a y) false 0 (·.life) ∧ miss (.lds d h a y) true 0 (·.life)) ∧
     (e.served core pa n (accessScope y.toNat r) = none →
       miss (.lda d h a y) false (accessScope y.toNat r) fun _ => .waiting (.reply s.nextId))) ∧
  ((∀ (s : State) (l : Load), s.loads.find? (·.id = l.id) = some l → l.granted = true → l.use = .register →
     (s.loadStands l && s.olderAtSlice l.pa l.id) = false → s.olderLoad l.strand l.pa l.size l.id = false →
     homeDie l.pa = some (coreDie (strandCore l.strand)) → ((s.core l.core).line (lineOf l.pa)) = none →
     s.bufferOf l.strand = [] → (∀ f ∈ s.flights, f.line = lineOf l.pa → f.core ∉ s.l1Of l.strand) →
     s.ownHeld l.strand l.pa l.size l.id = false → s.ownedByCopy (lineOf l.pa) = false →
     ∃ u, exec (.loadReturn l.id) s = .next u ∧ u.mem = s.mem ∧ u.loads = s.loads.filter (·.id ≠ l.id) ∧
       u.strands = (s.deliver l.strand l.id l.d ((loadWords l.size l.signed (s.peek l.pa l.size)).map fun w =>
         (w, s.poisonedAt l.pa))).strands) ∧
   (∀ (s : State) (core id pa : Nat),
     (s.missWaiting core).find? (fun p => s.missFree core p.2 || s.requestHits p.1) = some (id, pa) →
     exec (.missRegisterGrant core) s = .next
       { s with loads := s.loads.map fun x => if x.id = id then { x with granted := true } else x
                atomics := s.atomics.map fun x => if x.id = id then { x with granted := true } else x
                stores := s.stores.map fun x => if x.id = id then { x with granted := true } else x }))

/-- R125, R121, R290, R317, R335, R348, R29: a store to global memory becomes one of the stores that are to be
performed, or joins the one of its issue to the same sector; of a contained team it goes into the team's store buffer,
and a STREL at cluster scope or wider commits that first. Memory is not written yet. Such a STREL sends the dirty
bytes of its L1 area, and its store waits for what its release orders. A store whose issue has none to its sector yet,
or whose last one there is of another kind, is a new one, with a miss register where its line is in the L1 area or a
register is free; one that joins puts its bytes in the place of those of lower lanes. A store into the buffer of a
contained team is found there, the other bytes as they were while there is room. -/
def Obligations.GlobalStores : Prop :=
  (∀ (s : State) (e : Env) (x : BitVec 7) (h : BitVec 4) (a : BitVec 7) (y : BitVec 3) (r : HRec) (i : Word)
     (words : List (Word × Bool)) (va pa : Nat),
     s.env = some e → Alone e → Element e h a x r i → e.readMany x.toNat (elementRegs (hEsize r)) = .ok words →
     words.any (·.2) = false → e.locate r i.toNat 1 = .ok (.glob va) → e.translate va 1 kStore = .ok pa →
     s.readsOutstanding e.key = false →
     let scope := accessScope y.toNat r
     let wide := decide (3 ≤ scope)
     let bytes := (storeBytes (hEsize r) (words.map fun w => (e.produce w.1, w.2))).bytes
     let bypass := decide (e.policy r = 3)
     let fin := fun (t : State) => if scope = 6 then e.retireRegion t e.st else e.retire t e.st
     let noted := if e.policy r = 3 then s else s.noteAccess e.lane 1 bytes.length va false
     let plain : PendStore :=
       { id := 0, issue := e.issueNo, home := e.coreKey, core := e.homeCore va, bytes := place pa bytes
         strands := List.replicate bytes.length e.key, asid := e.asid, va := va, release := false, after := [], applied := false
         bypass := bypass, pol := e.policy r, single := false, granted := false, exposes := none }
     let single := decide (e.revision = 1) && decide (scope = 5)
     let releases := fun (t : State) (exposes : Option Nat) =>
       let asks := t.releaseIds e.cores e.key scope e.revision false
       fin (t.addStore { plain with release := true, after := t.stillOut asks.1 asks.2, applied := asks.2
                                    bypass := bypass || single, single := single, exposes := exposes })
     (e.isContained = false →
       exec (.st x h a y) s = .next (fin (noted.addStore plain)) ∧
       (wide = false → exec (.strel x h a y) s = .next (releases noted none))) ∧
     (e.isContained = true → s.ownHeld e.key pa bytes.length s.nextId = false → s.ownedByCopy (lineOf pa) = false →
       e.bufferRoom pa bytes.length = true →
       exec (.st x h a y) s = .next (fin (noted.bufferStore e.wave.team pa bytes)) ∧
       (wide = false → exec (.strel x h a y) s = .next (fin (noted.bufferStore e.wave.team pa bytes)))) ∧
     (wide = true → s.storesOf e.key = [] → (e.isContained = true → s.allCompared e.wave.team = true) →
       let t := if e.isContained then noted.commit e.wave.team else noted
       exec (.strel x h a y) s = .next (releases (t.writeBackAll e.cores) e.exposing))) ∧
  ((∀ (s : State) (n : PendStore) (c : Host.Cell) (l : List Host.Cell), n.bytes = c :: l →
     let near := fun (r : PendStore) => r.issue = n.issue ∧ r.home = n.home ∧ ∃ d m, r.bytes = d :: m ∧ sectorOf d.1 = sectorOf c.1
     let kind := fun (r : PendStore) => r.core = n.core ∧ r.release = n.release ∧ r.bypass = n.bypass ∧ r.single = n.single
     let alone := s.addStore n = { s with nextId := s.nextId + 1, stores := s.stores ++ [{ n with
       id := s.nextId, granted := ((s.core n.core).line (lineOf c.1)).isSome || s.missGrant n.home c.1 }] }
     ((s.issue = none ∨ ∀ r ∈ s.stores, ¬near r) → alone) ∧
     (∀ (before after : List PendStore) (r : PendStore), s.issue ≠ none → s.stores = before ++ r :: after →
       (∀ x ∈ after, ¬near x) → near r →
       (¬kind r → alone) ∧
       (kind r → (∀ x ∈ before ++ after, x.id ≠ r.id) → r.strands.length = r.bytes.length →
         ∃ w : PendStore, s.addStore n = { s with stores := before ++ w :: after } ∧ w.id = r.id ∧ w.granted = r.granted ∧
           w.after = dedup (r.after ++ n.after) ∧
           ∀ b, b ∈ w.bytes ↔ b ∈ n.bytes ∨ (b ∈ r.bytes ∧ ∀ z ∈ n.bytes, z.1 ≠ b.1)))) ∧
   (∀ (s : State) (t pa : Nat) (bytes : List Byte) (team : Team), s.teams.find t = some team →
     ∃ x : Team, (s.bufferStore t pa bytes).teams.find t = some x ∧ (s.bufferStore t pa bytes).mem = s.mem ∧
       (∀ k < bytes.length, Tbl.find x.buffer (pa + k) = bytes[k]?) ∧
       ((sectorsOf (team.buffer ++ place pa bytes)).length ≤ 1024 →
         ∀ a, (a < pa ∨ pa + bytes.length ≤ a) → Tbl.find x.buffer a = Tbl.find team.buffer a)))

/-- R121, R315, R318, R337, R354, R314, R29, R348: STORE_PERFORM of a store of a strand that may be performed writes
its bytes into its line in the L1 area, or with BYPASS sends them to their ordering points, and memory stays as it is.
Of a write on its way, which no older write of its cluster, no older request of its slice and no copy holds back, it
stores exactly its bytes, once the clocks let one of another die be performed: they read back, and every other byte of
memory is unchanged. One that is held back stays. A line that leaves an L1 area is no longer there, its dirty bytes
are on their way from that core, a write for each sector's, and memory is unchanged. -/
def Obligations.StoresArrive : Prop :=
  ((∀ (s : State) (r : PendStore) (c : Host.Cell) (l : List Host.Cell) (k : Nat) (ks : List Nat),
     (∀ f ∈ s.flights, f.id ≠ r.id) → s.stores.find? (·.id = r.id) = some r → r.bytes = c :: l → r.strands = k :: ks →
     s.storeMay r c.1 = true →
     let t : State := { s with stores := s.stores.filter (·.id ≠ r.id) }
     (r.bypass = true → exec (.storePerform r.id) s = .next
       (t.sendStore (t.l1Of k) r.home (some (waveBank (strandWave k))) r.bytes r.single r.exposes)) ∧
     (r.bypass = false →
       let u := (t.l1Write r.core r.bytes r.strands r.pol).exposeOf r.exposes
       exec (.storePerform r.id) s = .next u ∧ u.mem = s.mem ∧ u.stores = t.stores ∧
       (r.strands.length = r.bytes.length → (r.bytes.map (·.1 % 256)).Nodup →
         ∃ x, (u.core r.core).line (lineOf c.1) = some x ∧
           ∀ b ∈ r.bytes, x.bytes.get (b.1 % 256) 0 = b.2 ∧ x.dirty.has (b.1 % 256) = true))) ∧
   (∀ (s : State) (f : Flight) (home : Nat), s.flights.find? (·.id = f.id) = some f → f.bytes ≠ [] → homeDie f.pa = some home →
     let held := s.olderFlight f || s.recalled f.line f.id f.core || s.olderAtSlice f.pa f.id
     (held = true → exec (.storePerform f.id) s = .next s) ∧
     (held = false → MemoryOk s → (∀ v, f.stamp = some v → applicable (s.die home).clock v (coreDie f.core) = true) →
       ∃ u, exec (.storePerform f.id) s = .next u ∧ u.flights = s.flights.filter (·.id ≠ f.id) ∧
         ((f.bytes.map (memKey ·.1)).Nodup → ∀ c ∈ f.bytes, Memory.read u.mem (memKey c.1) = c.2) ∧
         (∀ n, n ∉ f.bytes.map (memKey ·.1) → Memory.read u.mem n = Memory.read s.mem n)))) ∧
  ((∀ (s : State) (core line : Nat) (x : L1Line), (s.core core).line line = some x →
     ∃ u fs, exec (.l1Writeback core line) s = .next u ∧ (u.core core).line line = none ∧ u.mem = s.mem ∧
       u.flights = s.flights ++ fs ∧
       fs.map (·.bytes) = splitSectors (x.dirty.map fun p => (line * 256 + p.1, x.bytes.get p.1 0)) ∧
       ∀ f ∈ fs, f.core = core ∧ f.single = false ∧ f.exposes = none) ∧
   (∀ l : List Host.Cell, (splitSectors l).flatten = l ∧
     ∀ p ∈ splitSectors l, p ≠ [] ∧ ∀ b ∈ p, ∀ c ∈ p, sectorOf b.1 = sectorOf c.1))

/-- R129, R130, R290, R347, R348, R337, R342, R343, R24: an atomic to global memory is on its way to its line's
ordering point, after the release of its order and after earlier accesses of its cores to the line; one of a contained
team at cluster scope or wider commits the store buffer first, and at team scope or narrower acts on that. A region
begins, and the strand waits where the order has an acquire. A contained team that would meet a poisoned element at
the ordering point dies, and nothing is committed. An atomic of a line of its own die, with nothing left to wait for
and an element that is not poisoned, replaces the element by the new value, leaves every other byte of memory
unchanged, and gives its strand the old value; the strand of an .sc atomic at cluster scope or wider then waits until
every die has applied what has been performed (log 24: the model's choice). One on the store buffer of a contained
team reads the element as the team's loads do and puts its new value into the buffer. -/
def Obligations.GlobalAtomics : Prop :=
  (∀ (s : State) (e : Env) (op : Nat) (q : BitVec 1) (d : BitVec 7) (h : BitVec 4) (a : BitVec 7) (y : BitVec 3)
     (r : HRec) (i : Word) (words : List (Word × Bool)) (va pa : Nat),
     s.env = some e → Alone e → AtomicElement e op h a d r i words → hKind r = 0 →
     e.locate r i.toNat 2 = .ok (.glob va) → e.translate va 2 kAtomic = .ok pa →
     let scope := accessScope y.toNat r
     let enters := fun (inBuffer : Bool) => ∃ u x, exec (atomicInstr op q d h a y) s = .next u ∧ u.mem = s.mem ∧
       u.atomics = s.atomics ++ [x] ∧ x.strand = e.key ∧ x.op = op ∧ x.size = hEsize r ∧ x.pa = pa ∧ x.x = atomicX op r words ∧
       x.cmp = atomicCmp r words ∧ x.ret = (q == 1) ∧ x.d = d.toNat ∧ x.order = e.order ∧ x.scope = scope ∧
       x.inBuffer = inBuffer ∧ x.orphan = false ∧ x.stamp = none ∧ x.done = none ∧
       x.exposes = (if 3 ≤ scope then e.exposing else none) ∧ (inBuffer = true → x.after = []) ∧
       (let st := (if q = 1 then e.st.awaitMany x.id d.toNat (hEsize r / 4) else e.st).tick 1
        u.strands.find e.key = some { st.startRegion st.pc with
          life := if e.order = 0 ∨ e.order = 2 then .ready else .waiting (.reply x.id) })
     ((2 ≤ e.order → 3 ≤ scope → s.storesOf e.key = []) → s.ownHeld e.key pa (hEsize r) s.nextId = false →
       s.ownedByCopy (lineOf pa) = false →
       (e.isContained = true → 3 ≤ scope ∧ e.atomicPoisoned pa = false ∧ s.storesOf e.key = [] ∧
         s.allCompared e.wave.team = true) → enters false) ∧
     (e.isContained = true → scope ≤ 2 → (2 ≤ e.order → s.ownOutstanding e.key = false) → enters true) ∧
     (e.isContained = true → 3 ≤ scope → e.atomicPoisoned pa = true →
       exec (atomicInstr op q d h a y) s = .next (e.atomicDies pa))) ∧
  ((∀ (s : State) (x : Atomic), MemoryOk s → s.atomics.find? (·.id = x.id) = some x → x.done = none → x.stamp = none →
     x.inBuffer = false → x.orphan = false →
     homeDie x.pa = some (coreDie x.core) → s.awaits x.after x.applied = false →
     x.granted = true → s.recalled (lineOf x.pa) x.id x.core = false → s.olderAtSlice x.pa x.id = false →
     s.poisonedAt x.pa = false →
     ((span x.pa x.size).map memKey).Nodup →
     let old : Dword := .ofNat 64 (s.peekNum x.pa x.size)
     ∃ u, exec (.atomicPerform x.id) s = .next u ∧ u.atomics = s.atomics.filter (·.id ≠ x.id) ∧
       u.peek x.pa x.size = toBytes x.size (atomicNew x.op x.isFloat x.size old x.x x.cmp).toNat ∧
       (∀ n, n ∉ (span x.pa x.size).map memKey → Memory.read u.mem n = Memory.read s.mem n) ∧
       (∀ st, s.strands.find x.strand = some st → st.life ≠ .blocked .sleep →
         let got := (s.deliver x.strand x.id x.d
           (if x.ret then (valueWords x.size old).map fun w => (w, false) else [])).strands.find x.strand
         u.strands.find x.strand = if x.order = 4 ∧ 3 ≤ x.scope ∧ u.updates ≠ [] then
           got.map fun st => { st with life := .waiting (.settle (u.updates.map (·.id))) } else got)) ∧
   (∀ (s t : State) (x : Atomic) (b : List Byte), s.atomics.find? (·.id = x.id) = some x → x.done = none → x.inBuffer = true →
     x.granted = true → s.awaits x.after x.applied = false → s.olderAtSlice x.pa x.id = false →
     s.globalRead x.strand x.core x.pa x.size 0 0 (s.die (coreDie x.core)).clock x.id = some (b, false, t) →
     t.bufferFits (s.teamOf x.strand) x.pa x.size = true →
     let old : Dword := .ofNat 64 (fromBytes b)
     exec (.atomicPerform x.id) s = .next ((t.bufferStore (s.teamOf x.strand) x.pa
       (toBytes x.size (atomicNew x.op x.isFloat x.size old x.x x.cmp).toNat)).finishAtomic x old false)))

/-- R133, R134, R290, R291, R343, R348: FENCE.acq ends once the strand's reads have returned; the other fences order
what the strand and, at cluster scope or wider, its L1 area have sent, a contained team committing its store buffer
first: with nothing left to order they end at once, otherwise the strand waits at the fence and ends it when the list
is empty. The acquire half of a wide fence drops the clean bytes, and a release above team scope exposes a contained
team. That FENCE.sc waits for the updates of every die is the model's choice (log 24). CWB leaves no dirty byte of the
line in the L1 areas below its scope's level, CINV leaves no copy of the line there, nor, at device scope or wider, in
another die's L2; neither writes memory itself. Through a local handle and on a clamped address they do nothing. PREF
goes on at once: it requests the four sectors of its line, once for an issue, into the L1 area or the die's L2; a
sector that returns clean is left there, and one with poison is not (what these caches are filled with is log 25: the
model's choice). -/
def Obligations.FenceAndCache : Prop :=
  (∀ (s : State) (e : Env) (kind : Nat) (y : BitVec 3) (st : Strand), s.env = some e → Alone e → kind < 4 →
     s.strands.find e.key = some st →
     let n := y.toNat
     let above := kind ≠ 0 ∧ 3 ≤ n ∧ e.isContained = true
     let ends := fun (t : State) =>
       let t := if above then t.expose e.wave.team else t
       Safety.next (e.retire (if kind ≠ 1 ∧ 3 ≤ n then t.dropClean e.cores else t) e.st)
     ((∀ ids ap, st.life ≠ .waiting (.acks ids ap)) → s.readsOutstanding e.key = false →
       (kind = 0 → exec (fenceInstr kind y) s = ends s) ∧
       (kind ≠ 0 → (3 ≤ n → s.storesOf e.key = []) → (above → s.allCompared e.wave.team = true) →
         let c := if above then s.commit e.wave.team else s
         let t := if 3 ≤ n then c.writeBackAll e.cores else c
         let asks := t.releaseIds e.cores e.key n e.revision (kind = 3)
         (t.stillOut asks.1 asks.2 = [] → exec (fenceInstr kind y) s = ends t) ∧
         (t.stillOut asks.1 asks.2 ≠ [] → exec (fenceInstr kind y) s = .next (t.setStrand e.key
           { e.st with pc := e.bundle, life := .waiting (.acks (t.stillOut asks.1 asks.2) asks.2) })))) ∧
     (∀ ids ap, st.life = .waiting (.acks ids ap) → s.awaits ids ap = false → exec (fenceInstr kind y) s = ends s)) ∧
  ((∀ (s : State) (e : Env) (h : BitVec 4) (a : BitVec 7) (y : BitVec 3) (r : HRec) (i : Word),
     s.env = some e → e.hReg h.toNat = .ok r → Reads e a.toNat i → hKind r ≠ 2 →
     (∃ u, exec (.pref h a y) s = .next u ∧ u.mem = s.mem ∧ u.strands = s.strands.set e.key (e.st.tick 1)) ∧
     (∀ va pa, e.locate r i.toNat 0 = .ok (.glob va) → e.translate va 0 kLoad = .ok pa →
       (y = 4 ∨ (y = 0 ∧ e.policy r ≠ 3)) →
       (∀ l ∈ s.loads, ¬(l.use = .prefetch y.toNat e.issueNo ∧ strandCore l.strand = e.coreKey ∧ lineOf l.pa = lineOf pa)) →
       ∃ u ls, exec (.pref h a y) s = .next u ∧ u.loads = s.loads ++ ls ∧
         ls.map (fun l => (l.strand, l.use, l.pa, l.size)) = (List.range 4).map fun j =>
           (e.key, .prefetch y.toNat e.issueNo, lineOf pa * 256 + 64 * j, 64)) ∧
     (∀ va pa, hKind r ≠ 1 → e.locate r i.toNat 0 = .ok (.glob va) → e.translate va 0 kLoad = .ok pa →
       s.ownHeld e.key (lineOf pa * 256) 256 s.nextId = false →
       (∃ u, exec (.cwb h a y) s = .next u ∧ u.mem = s.mem ∧ u.strands = s.strands.set e.key (e.st.tick 1) ∧
         ∀ c ∈ scopeCores e.coreKey y.toNat, ∀ x, (u.core c).line (lineOf pa) = some x → x.dirty = []) ∧
       (∃ u, exec (.cinv h a y) s = .next u ∧ u.mem = s.mem ∧ u.strands = s.strands.set e.key (e.st.tick 1) ∧
         (∀ c ∈ scopeCores e.coreKey y.toNat, (u.core c).line (lineOf pa) = none) ∧
         (5 ≤ y.toNat → ∀ d, (u.die d).replica (lineOf pa) = none))) ∧
     ((hKind r = 1 ∨ e.locate r i.toNat 0 = .ok .clamped) →
       exec (.cwb h a y) s = done e e.st ∧ exec (.cinv h a y) s = done e e.st)) ∧
   (∀ (s u : State) (l : Load) (issue : Nat) (b : List Byte) (bad : Bool), s.loads.find? (·.id = l.id) = some l → l.granted = true →
     (s.loadStands l && s.olderAtSlice l.pa l.id) = false → l.use = .prefetch 0 issue →
     s.globalRead l.strand l.core l.pa l.size 0 l.pol l.clock l.id = some (b, bad, u) →
     let t := if bad then s else u
     exec (.loadReturn l.id) s = .next { t with loads := t.loads.filter (·.id ≠ l.id) }))

/-- R135: WAITLINE on an element of scratch that differs from its expected value gives the element; on one that is
equal the strand is blocked at the WAITLINE with a watch on its line. On a global element the watch is armed and the
strand waits for the first read. WAITLINE_WAKE reads again once the line was written, the watch armed on the line that
holds the element now; a read of global memory is a request, and returns like a load: an element that differs, or is
poisoned, is given; on one that is equal the strand is blocked again. A translation fault parks the strand and disarms
the watch. -/
def Obligations.WaitlineResults : Prop :=
  (∀ (s : State) (e : Env) (d : BitVec 7) (h : BitVec 4) (a : BitVec 7) (y : BitVec 3) (r : HRec) (i : Word)
    (words : List (Word × Bool)),
    s.env = some e → Alone e → e.hReg h.toNat = .ok r → Reads e a.toNat i → (hKind r = 0 ∨ hKind r = 1) →
    (hEsize r = 4 ∨ (hEsize r = 8 ∧ d.toNat % 2 = 0)) → (∀ k < hEsize r / 4, Has e (d.toNat + k)) →
    e.readMany d.toNat (hEsize r / 4) = .ok words → words.any (·.2) = false → (∀ l ∈ s.loads, l.strand ≠ e.key) →
    (∀ off team, e.locate r i.toNat 2 = .ok (.scratch off) → s.teams.find e.wave.team = some team →
      let got := team.scratchRead off (hEsize r)
      let same := fromBytes got.bytes = (wordsValue words).toNat ∧ got.poisoned = false
      (¬same → exec (.waitline d h a y) s = done e (e.put e.st d.toNat (waitWords (hEsize r) got))) ∧
      (same → ∃ u w, exec (.waitline d h a y) s = .next u ∧ u.watches = s.watches ++ [w] ∧ w.strand = e.key ∧
        w.isLocal = true ∧ w.team = e.wave.team ∧ w.line = off / 256 ∧ w.offset = off ∧ w.size = hEsize r ∧
        w.expected = wordsValue words ∧ w.d = d.toNat ∧ w.written = false ∧ w.next = e.here + 4 ∧
        u.strands = s.strands.set e.key { e.st with pc := e.bundle, life := .blocked (.line w.id) })) ∧
    (e.locate r i.toNat 2 = .ok .clamped →
      exec (.waitline d h a y) s = done e (e.put e.st d.toNat (List.replicate (hEsize r / 4) (0, false)))) ∧
    (∀ va pa, e.locate r i.toNat 2 = .ok (.glob va) → e.translate va 2 kAtomic = .ok pa →
      ∃ u w, exec (.waitline d h a y) s = .next u ∧ u.watches = s.watches ++ [w] ∧ w.strand = e.key ∧
        w.isLocal = false ∧ w.va = va ∧ w.line = memKey pa / 256 ∧ w.written = true ∧ w.expected = wordsValue words ∧
        u.strands = s.strands.set e.key { e.st with pc := e.bundle, life := .waiting (.reply w.id) })) ∧
  (∀ (s : State) (w : Watch) (st : Strand) (v : Wave) (l : Marked), s.waves.find (strandWave w.strand) = some v →
    v.partner = none →
    let value : Dword := .ofNat 64 (fromBytes l.bytes)
    let same := l.poisoned = false ∧ fromBytes l.bytes = w.expected.toNat % 2 ^ (8 * w.size)
    (¬same → ∃ t : Strand, (s.waitlineRead w st l).strands = s.strands.set w.strand (t.tick 1) ∧
      (s.waitlineRead w st l).watches = s.watches.filter (·.id ≠ w.id) ∧ t.pc = w.next ∧ t.life = .ready ∧
      ∀ k < (s.produced w.strand (valueWords w.size value)).length,
        newest t (.v (w.d + k)) = some ((s.produced w.strand (valueWords w.size value)).getD k 0)) ∧
    (same → s.waitlineRead w st l = s.setStrand w.strand { st with life := .blocked (.line w.id), wait := 0 })) ∧
  (∀ (s : State) (w : Watch) (st : Strand), s.watches.find? (·.strand = w.strand) = some w →
    s.strands.find w.strand = some st → w.written = true →
    s.activeBank (strandCore w.strand) = waveBank (strandWave w.strand) → waveBank (strandWave w.strand) < 1024 →
    (∀ l ∈ s.loads, l.use ≠ .watch w.id) →
    let core := strandCore w.strand
    let armed := fun (line : Nat) => ({ s with watches := s.watches.map fun x =>
      if x.id = w.id then { x with line := line, written := false } else x } : State)
    (∀ team, w.isLocal = true → s.teams.find w.team = some team →
      exec (.waitlineWake w.strand) s = .next ((armed w.line).waitlineRead w st (team.scratchRead w.offset w.size))) ∧
    (∀ pa, w.isLocal = false → s.translateNow core (s.asidOf w.strand) (s.levelOf w.strand) w.va 2 kAtomic = .ok pa →
      ∃ u l, exec (.waitlineWake w.strand) s = .next u ∧ u.watches = (armed (memKey pa / 256)).watches ∧
        u.strands = s.strands ∧ u.loads = s.loads ++ [l] ∧ l.id = s.nextId ∧ l.strand = w.strand ∧ l.use = .watch w.id ∧
        l.pa = pa ∧ l.size = w.size ∧ l.acquire = w.scope ∧ l.granted = s.missGrant core pa) ∧
    (∀ code va kind reason stage level ipa vmid, w.isLocal = false →
      s.translateNow core (s.asidOf w.strand) (s.levelOf w.strand) w.va 2 kAtomic =
        .error (.park code va kind reason stage level ipa vmid) →
      exec (.waitlineWake w.strand) s = .next (({ s with watches := s.watches.filter (·.id ≠ w.id) }).park w.strand
        (s.gridOf w.strand) code va kind reason stage level ipa vmid))) ∧
  (∀ (s u : State) (w : Watch) (st : Strand) (l : Load) (b : List Byte) (p : Bool), s.loads.find? (·.id = l.id) = some l →
    l.granted = true → (s.loadStands l && s.olderAtSlice l.pa l.id) = false → l.use = .watch w.id →
    s.globalRead l.strand l.core l.pa l.size l.acquire l.pol l.clock l.id = some (b, p, u) →
    u.watches.find? (·.id = w.id) = some w → u.strands.find l.strand = some st →
    exec (.loadReturn l.id) s = .next
      (({ u with loads := u.loads.filter (·.id ≠ l.id) } : State).waitlineRead w st (b.map fun x => (x, p))))

/-! ### Group instructions -/

/-- R179, R180, R184: a lane that presents a group instruction to a meet that other live participants have not reached
is Blocked there with what it read; the last participant completes the meet, and the results of the operation are
given to every presenter. -/
def Obligations.GroupPresents : Prop :=
  ∀ (s : State) (e : Env) (i : Instr) (q : Asked) (kv : Dword) (words : List (Word × Bool)) (p : Bool),
    s.env = some e → Alone e → asked i = some q → e.st.handler = none → (∀ n ∈ q.ask.regs, Has e n) →
    (if q.ask.e = 1 then ({ e with wave := e.wave.without q.ask.cls q.ask.tag } : Env).kReg q.ask.k.toNat else .ok 0) = .ok kv →
    q.reads { e with wave := e.wave.without q.ask.cls q.ask.tag } = .ok (words, p) → words.any (·.2) = false →
    (∀ m, openMeet e q.ask = some m → e.lane ∈ m.members ∧ m.agrees q.ask kv = true) →
    (openMeet e q.ask = none → q.ask.e = 1 → kv.getLsbD e.lane = true) → e.lane < e.wave.width →
    let m := joined e q.ask kv words p
    let w := { e.wave with meets := e.wave.meets.filter (·.id ≠ m.id) ++ [m] }
    let base : State := { s with nextId := if openMeet e q.ask = none then s.nextId + 1 else s.nextId }
    let t := (base.setWave e.waveKey w).setStrand e.key
      { e.st with pc := e.bundle, life := .blocked (.meet q.ask.cls q.ask.tag false) }
    ((∃ l ∈ t.meetLive e.waveKey m, ∀ x ∈ m.presenters, x.lane ≠ l) → exec i s = .next t) ∧
    ((∀ l ∈ t.meetLive e.waveKey m, ∃ x ∈ m.presenters, x.lane = l) →
      let c := { m with closed := true }
      let w' := { w with meets := w.meets.map fun y => if y.id = m.id then c else y }
      let t' := t.setWave e.waveKey w'
      exec i s = .next ((t'.finishMeet e.waveKey w' c).getD t'))

/-- R131, R180, R184, R189, R190, R24: a meet whose participants have all presented gives its results, but for an HSET
of a record that R118 rejects; a FENCEW gives them once the accesses it orders are performed, a contained team's store
buffer committed before and the team exposed; an HLD requests its leader's record of the handle table, and gives its
results once that is there: an index beyond the table is OOR, a record that R118 rejects ILLOP, and poison kills the
team. A granted meet leaves its wave, with the register that the operation writes, and every presenter has its
results, one more count and a new region at the word after its instruction. -/
def Obligations.MeetsComplete : Prop :=
  ((∀ (s : State) (wk : Nat) (w : Wave) (m : Meet) (lead : Presenter) (rest : List Presenter),
     m.presenters = lead :: rest → lead.words.any (·.2) = false →
     ¬(m.cls = 0x1A ∧ m.minor = 6) → ¬(m.cls = 0x17 ∧ m.minor = 0) →
     (m.cls = 0x17 → m.minor = 1 → hValid (wordsRecord (lead.words.map (·.1))) = true) →
     s.finishMeet wk w m = some (s.grantMeet wk w m (wordsRecord (lead.words.map (·.1))))) ∧
   (∀ (s : State) (wk : Nat) (w : Wave) (m : Meet), m.cls = 0x1A → m.minor = 6 → w.partner = none →
     let cores := l1Cores (bankCore (waveBank wk)) (s.fusedOf w.grid)
     let above := m.order ≠ 1 ∧ 3 ≤ m.scope ∧ s.contained w.team = true
     let c := if above then s.commit w.team else s
     let t := if m.order ≠ 1 ∧ 3 ≤ m.scope then c.writeBackAll cores else c
     let asks := m.presenters.map fun p => t.releaseIds cores (strandNo wk p.lane) m.scope
       (t.bank (waveBank wk)).mmrMode.toNat (m.order = 4)
     let out := t.stillOut (dedup (asks.flatMap (·.1))) (asks.any (·.2))
     let ends := fun (t : State) =>
       let u := if m.order ≠ 2 ∧ 3 ≤ m.scope then t.dropClean cores else t
       (if above then u.expose w.team else u).grantMeet wk w m 0
     (m.acks = none → (∀ p ∈ m.presenters, s.readsOutstanding (strandNo wk p.lane) = false ∧
         (m.order ≠ 1 → 3 ≤ m.scope → s.storesOf (strandNo wk p.lane) = [])) →
       ((m.order = 1 ∨ out = []) → s.finishMeet wk w m = some (ends t)) ∧
       (m.order ≠ 1 → out ≠ [] → s.finishMeet wk w m = some (t.modWave wk fun x =>
         { x with meets := x.meets.map fun y => if y.id = m.id then { y with acks := some (out, asks.any (·.2)) } else y }))) ∧
     (∀ ids ap, m.acks = some (ids, ap) → s.awaits ids ap = false → s.finishMeet wk w m = some (ends s))) ∧
   (∀ (s : State) (wk : Nat) (w : Wave) (m : Meet) (lead : Presenter) (rest : List Presenter),
     m.cls = 0x17 → m.minor = 0 → m.presenters = lead :: rest → w.partner = none → w.trailing = false →
     let i := (lead.word 0).toNat
     let k := strandNo wk lead.lane
     let parts := recordParts (((s.handleTable w.grid).1 + 32 * i) % 2 ^ 57)
     let record : HRec := .ofNat 256 (fromBytes (m.parts.flatMap fun p => p.2.1))
     ((s.handleTable w.grid).2 ≤ i → s.finishMeet wk w m = some (s.meetFault wk w m (.fault 7 0 0))) ∧
     (i < (s.handleTable w.grid).2 → m.parts.length < parts.length →
       (m.asked = true → s.finishMeet wk w m = none) ∧
       (∀ l, m.asked = false → s.translateAll k kTable parts = .ok l →
         s.finishMeet wk w m = some ((s.setWave wk { w with meets := w.meets.map fun y =>
           if y.id = m.id then { m with asked := true } else y }).requestParts k (.table m.id)
           (l.zipIdx.map fun p => (p.2, p.1))))) ∧
     (i < (s.handleTable w.grid).2 → parts.length ≤ m.parts.length →
       s.finishMeet wk w m = some (
         if hValid record = false then s.meetFault wk w m (.fault 2 0 0)
         else if m.parts.any (·.2.2) || lead.poisoned 0 then s.killTeam w.team 0x10 (laneError s k 0)
         else s.grantMeet wk w m record))) ∧
   (∀ (s u : State) (l : Load) (id part : Nat) (b : List Byte) (bad : Bool), s.loads.find? (·.id = l.id) = some l →
     l.granted = true → (s.loadStands l && s.olderAtSlice l.pa l.id) = false → l.use = .table id part →
     s.globalRead l.strand l.core l.pa l.size l.acquire l.pol l.clock l.id = some (b, bad, u) →
     let wave := strandWave l.strand
     let t := ({ u with loads := u.loads.filter (·.id ≠ l.id) } : State).modWave wave fun w =>
       { w with meets := w.meets.map fun m => if m.id = id then { m with parts := m.parts.set part (b, bad) } else m }
     exec (.loadReturn l.id) s = .next ((t.tryMeet wave id).rouse (strandCore l.strand))) ∧
   (∀ (s : State) (wave : Nat) (w : Wave) (m : Meet) (cls tag : Byte), s.waves.find wave = some w →
     w.meets.filter (fun y => y.cls = cls.toNat && y.tag = tag.toNat) = [m] →
     let t := s.tryMeet wave m.id
     exec (.meetComplete wave [cls, tag]) s = .next (if t = s then s else t.rouse (bankCore (waveBank wave))))) ∧
  (∀ (s : State) (wk : Nat) (w : Wave) (m : Meet) (record : HRec) (lead : Presenter) (rest : List Presenter),
     m.presenters = lead :: rest → (m.presenters.map (·.lane)).Nodup → (∀ p ∈ m.presenters, p.lane < 64) →
     (s.grantMeet wk w m record).waves.find wk = some (meetWave w m m.presenters lead record) ∧
     (∀ p ∈ m.presenters, ∀ st, s.strands.find (strandNo wk p.lane) = some st →
       (s.core (bankCore (waveBank wk))).inject = none →
       ∃ t, (s.grantMeet wk w m record).strands.find (strandNo wk p.lane) = some t ∧
         t = st.meetDone p (meetGives w m m.presenters p) false ∧ t.life = .ready ∧ t.pc = p.next ∧ t.regionPc = p.next) ∧
     (∀ k, (∀ p ∈ m.presenters, k ≠ strandNo wk p.lane) → (s.grantMeet wk w m record).strands.find k = s.strands.find k) ∧
     (s.grantMeet wk w m record).mem = s.mem)

/-- R189, R191, R192, R193, R194, R131, R50, R51, R52, R53: what a completed meet gives: votes over the presenters'
predicates, the ballot mask, the broadcast word, the elected lane, the shuffled values, the leader and the combination
of each group of equal keys, the words of a handle, and the handle register that HLD, HSET and HCPY write. A reduction
by an integer operator gives every presenter the operator applied over all presenters' values, a scan gives the
presenters up to and with its own lane in lane order, for every operator. -/
def Obligations.GroupResults : Prop :=
  (∀ (w : Wave) (m : Meet) (lead : Presenter) (rest : List Presenter) (record : HRec),
     let ps := lead :: rest
     ps.Pairwise (fun a b => a.lane < b.lane) → (∀ p ∈ ps, p.lane < w.width) → w.width ≤ 64 →
     let at' := fun (p : Presenter) (l : Nat) => match ps.find? (·.lane = l) with
       | some q => [(p.d, q.word 0, q.poisoned 0)]
       | none => [(p.d, 0, false)]
     (∀ p ∈ ps,
       (m.cls = 0x1A →
         (m.minor = 1 → (meetGives w m ps p).p = some (p.d, ps.any (·.pred))) ∧
         (m.minor = 2 → (meetGives w m ps p).p = some (p.d, ps.all (·.pred))) ∧
         (m.minor = 5 → (meetGives w m ps p).p = some (p.d, decide (p.lane = lead.lane)))) ∧
       (m.cls = 0x1B →
         (m.minor = 0 → (meetGives w m ps p).v = at' p ((p.word 1).toNat % w.width)) ∧
         (m.minor = 1 → (meetGives w m ps p).v = at' p (if p.lane < p.arg then p.lane else p.lane - p.arg)) ∧
         (m.minor = 2 → (meetGives w m ps p).v = at' p (if w.width ≤ p.lane + p.arg then p.lane else p.lane + p.arg)) ∧
         (m.minor = 3 → (meetGives w m ps p).v = at' p ((p.lane ^^^ p.arg) % w.width))) ∧
       (m.cls = 0x1C → ∀ g gs, ps.filter (fun q => q.word 0 = p.word 0) = g :: gs →
         (m.minor = 0 → (meetGives w m ps p).v = [(p.d, .ofNat 32 g.lane, false)]) ∧
         (m.minor = 2 → (meetGives w m ps p).v =
           if g.lane = p.lane then [(p.d, gs.foldl (fun x q => x + q.word 1) (g.word 1), false)] else []) ∧
         (m.minor = 1 → (meetGives w m ps p).v =
           if g.lane = p.lane then [(p.d, gs.foldl (fun x q => (Op.addF.apply x (q.word 1)).1) (g.word 1), false)]
           else [])) ∧
       (m.cls = 0x17 → m.minor = 2 →
         (meetGives w m ps p).v = (List.range 8).map fun j => (p.d + j, p.word j, false))) ∧
     (m.cls = 0x1A → m.minor = 3 → ∀ l < 64, ((meetWave w m ps lead record).k.get m.dst 0).getLsbD l =
       ps.any fun p => p.lane = l && p.pred) ∧
     (m.cls = 0x1A → m.minor = 4 → (meetWave w m ps lead record).w.get m.dst 0 = lead.word 0) ∧
     (m.cls = 0x17 → m.minor ≠ 2 → (meetWave w m ps lead record).h.get m.dst 0 = record)) ∧
  (∀ (w : Wave) (m : Meet) (ps : List Presenter) (p : Presenter), m.cls = 0x1A → m.op < 12 → p ∈ ps →
     ps.Pairwise (fun a b => a.lane < b.lane) → (∀ q ∈ ps, q.lane < w.width) →
     (w.width = 16 ∨ w.width = 32 ∨ w.width = 64) →
     let o := Op.ofGroup m.op
     let fold := fun (l : List Presenter) => match l with
       | [] => o.identity
       | q :: l => l.foldl (fun x q => (o.apply x (q.word 0)).1) (q.word 0)
     (m.minor = 7 → o ∉ [.addF, .mulF, .minF, .maxF] → (meetGives w m ps p).v = [(p.d, fold ps, false)]) ∧
     (m.minor = 8 → (meetGives w m ps p).v = [(p.d, fold (ps.filter (·.lane ≤ p.lane)), false)]))

/-! ### Window accumulators and the matrix engine -/

/-- R241, R242, R243, R244, R245, R237, R239, R240: the WA class. WACFG empties and configures, WAPUSH pushes, WARD
reads, WAPR pushes and reads, WACLR empties, WASTAT gives CFG and status and clears flags, WASAVE and WALOAD move an
image between scratch and the accumulator; all but WARD and WASAVE begin a region. Where the accumulator lies in
another core of a fused team, the operation is on its way there and its registers wait; WASAVE, WALOAD, and an access
of which it is not yet known whether it is to values or to pairs, have their turn there, and the strand waits for it
(log 46: the model's choice). The operations of one issue of another core of a fused team arrive as a unit when the
schedule brings them, the core's oldest issue first and not before that issue has ended: the accumulator takes the
operation as it stands then, the strand gets the flags and goes on where it is, and its registers wait no more. An
operation that reads a faulty entry kills the team. A strand that waits at its operation has its turn there. That the
arrival is a choice of the hardware is log 41, and that one which turns an accumulator between values and pairs comes
behind the others is log 46. -/
def Obligations.WindowInstructions : Prop :=
  (∀ (s : State) (e : Env) (w : BitVec 4) (a d : BitVec 7) (x y : Word) (acc : Acc),
     s.env = some e → Alone e → e.acc w.toNat = .ok acc → acc.bad = [] → Reads e a.toNat x →
     let put := fun (acc : Acc) => s.setAcc e.wave.team w.toNat acc
     let arg := cfgArg acc.cfg
     let flagged := fun (st : Strand) (f : Flags) (empty : Bool) => ({ st with fstat := st.fstat ||| accFstat f empty } : Strand)
     let words := fun (r : Word × Word) => (if arg then [r.1, r.2] else [r.1]).map fun z => (z, false)
     let noted := fun (acc : Acc) (f : Flags) (empty : Bool) =>
       ({ acc with flags := acc.flags ||| statusFlags f ||| (if empty then 16 else 0) } : Acc)
     let fin := fun (minor : Nat) (t : State) (st : Strand) => Safety.next (if minor = 2 then e.retire t st else e.retireRegion t st)
     let n := w.toNat
     let entered := fun (op : WaOp) => ({ s with nextId := s.nextId + 1 } : State).modTeam e.wave.team
       fun t => { t with waOps := t.waOps ++ [{ op with id := s.nextId }] }
     let sent := fun (minor d k : Nat) (v : Word × Word) (turns : Bool) =>
       fin minor (entered { e.waOp minor n d v with turns := turns }) (e.st.awaitMany s.nextId d k)
     let later := fun (op : WaOp) => Safety.next ((entered { op with late := true }).setStrand e.key
       { e.st with pc := e.bundle, life := .waiting (.reply s.nextId) })
     let ends := fun (minor d k : Nat) (v : Word × Word) (acc : Acc) (st : Strand) =>
       if e.remoteAccs then sent minor d k v false else fin minor (put acc) st
     let settled := e.remoteAccs = true → e.unsettled n = false
     let k := if arg then 2 else 1
     (cfgOk x = true →
       let turns := e.unsettled n || decide (cfgArg x ≠ arg)
       (e.remoteAccs = true → exec (.wacfg w a) s = sent 0 0 0 (x, 0) turns) ∧
       (e.remoteAccs = false → (turns = true → e.waQueued n = false) →
         exec (.wacfg w a) s = fin 0 (put (Acc.empty x)) e.st)) ∧
     (e.remoteAccs = true → e.unsettled n = true →
       exec (.ward d w) s = later { e.waOp 2 n d.toNat (0, 0) with a := d.toNat } ∧
       (e.read (a.toNat + 1) ≠ .error .hold →
         exec (.wapush w a) s = later { e.waOp 1 n 0 (0, 0) with a := a.toNat } ∧
         exec (.wapr d w a) s = later { e.waOp 3 n d.toNat (0, 0) with a := a.toNat })) ∧
     (∀ v : Word × Word, settled → v.1 = x → (if arg = true then a.toNat % 2 = 0 ∧ Reads e (a.toNat + 1) y ∧ v.2 = y else v.2 = 0) →
       let p := acc.push v
       exec (.wapush w a) s = ends 1 0 0 v (noted p.1 p.2 false) (flagged e.st p.2 false) ∧
       (Has e d.toNat → (arg = true → d.toNat % 2 = 0 ∧ Has e (d.toNat + 1)) →
         let r := p.1.readValue
         exec (.wapr d w a) s = ends 3 d.toNat k v (noted p.1 (p.2 ||| r.2.1) r.2.2)
           (flagged (e.put e.st d.toNat (words r.1)) (p.2 ||| r.2.1) r.2.2))) ∧
     (settled → Has e d.toNat → (arg = true → d.toNat % 2 = 0 ∧ Has e (d.toNat + 1)) →
       let r := acc.readValue
       exec (.ward d w) s = ends 2 d.toNat k (0, 0) (noted acc r.2.1 r.2.2)
         (flagged (e.put e.st d.toNat (words r.1)) r.2.1 r.2.2)) ∧
     exec (.waclr w) s = ends 4 0 0 (0, 0) (Acc.empty acc.cfg) e.st ∧
     (Has e d.toNat → Has e (d.toNat + 1) →
       exec (.wastat d w a) s = ends 5 d.toNat 2 (x, 0)
         { acc with flags := acc.flags &&& ~~~(BitVec.ofNat 5 (x.toNat / 2 ^ 26 % 32)) }
         (e.put e.st d.toNat [(acc.cfg, false), (acc.status, false)])) ∧
     (∀ (h : BitVec 4) (r : HRec), e.hReg h.toNat = .ok r → imageHandle r = true →
       let image := fun (minor : Nat) => later { e.waOp minor n 0 (x, 0) with turns := decide (minor = 7), h := r }
       (hPermW r = true → s.readsOutstanding e.key = false →
         (e.remoteAccs = true → exec (.wasave h w a) s = image 6) ∧
         (∀ off, e.remoteAccs = false → e.imageAt r x.toNat ((imageBytes acc.cfg acc.count + 15) / 16) = .ok off →
           exec (.wasave h w a) s = .next (e.retire (s.scratchWrite e.wave.team off (clean acc.image)) e.st))) ∧
       (hPermR r = true →
         (e.remoteAccs = true → exec (.waload h w a) s = image 7) ∧
         (∀ off, e.remoteAccs = false → e.waQueued n = false → e.imageAt r x.toNat 1 = .ok off →
           let head := (s.scratchRead e.wave.team off 16).bytes
           let len := imageBytes (wordAt head 0) (fld (wordAt head 4).toNat 0 13)
           headerOk (wordAt head 0) (wordAt head 4) = true → e.imageAt r x.toNat ((len + 15) / 16) = .ok off →
           (s.scratchRead e.wave.team off len).poisoned = false →
           exec (.waload h w a) s = .next
             (e.retireRegion (put (Acc.ofImage (s.scratchRead e.wave.team off len).bytes)) e.st))))) ∧
  (∀ (s : State) (team : Nat) (t : Team) (op : WaOp) (a : Acc) (rest : List Turn), s.issue = none →
     s.turns = .upset (.waArrive team op.core) :: rest → s.teams.find team = some t →
     t.waOps.find? (·.core = op.core) = some op → (t.waOps.filter fun o => o.core = op.core && o.issue = op.issue) = [op] →
     (op.turns = true → ∀ o ∈ t.waOps, o.acc = op.acc → o.late = true ∨ o = op) → t.accs.find op.acc = some a →
     let kept := t.waOps.filter fun o => !(o.core = op.core && o.issue = op.issue)
     let mid := ({ s with turns := rest } : State).setTeam team { t with waOps := kept }
     (op.late = true →
       let at' : State := { mid.modStrand op.strand fun st => { st with life := .ready } with
         cur := { strand := op.strand, bundle := op.here, word := op.here, hints := {} } }
       ∀ e, at'.env = some e → Alone e →
         (∀ u, e.waTurn op = .ok u → step s = .next u) ∧ (∀ x, e.waTurn op = .error x → step s = .next (at'.stop e x))) ∧
     (∀ p, op.late = false → a.perform op.minor op.x = .error p → step s = .next
       (mid.killTeam team 0x10 (laneError mid op.strand 0))) ∧
     (∀ b ws fl st, op.late = false → a.perform op.minor op.x = .ok (b, ws, fl) → s.strands.find op.strand = some st →
       ∃ u v, step s = .next u ∧ u.mem = s.mem ∧ u.turns = rest ∧
         u.teams.find team = some { t with waOps := kept, accs := t.accs.set op.acc b } ∧
         u.strands.find op.strand = some v ∧ v.fstat = st.fstat ||| fl ∧ v.pc = st.pc ∧
         ∀ x ∈ v.window, ∀ k < ws.length, x.dst = .v (op.d + k) → x.tag ≠ some op.id))

/-- R234, R236, R238, R244: after any pushes into an emptied accumulator of an integer operator, a read gives the
operator over the newest W values, the count is their number, and the window never holds more than W. An image holds
the whole accumulator: what WALOAD makes of it is the accumulator that WASAVE wrote. -/
def Obligations.WindowAggregates : Prop :=
  (∀ (cfg : Word) (xs : List Word), cfgOk cfg = true →
     (cfgOp cfg = 1 ∨ cfgOp cfg = 2 ∨ (5 ≤ cfgOp cfg ∧ cfgOp cfg ≤ 11)) →
     let a := xs.foldl (fun a x => (Acc.push a (x, 0)).1) (Acc.empty cfg)
     let o := Op.ofGroup (cfgOp cfg)
     a.readValue.1.1 = (xs.drop (xs.length - cfgLen cfg)).foldl (fun y x => (o.apply y x).1) o.identity ∧
     a.count = min xs.length (cfgLen cfg) ∧ a.readValue.2.2 = xs.isEmpty) ∧
  (∀ (a : Acc), cfgOk a.cfg = true → a.count ≤ cfgLen a.cfg → a.bad = [] →
     (cfgArg a.cfg = false → (∀ x ∈ a.front ++ a.back, x.2 = 0) ∧ a.agg.2 = 0) → (a.back = [] → a.agg = (0, 0)) →
     Acc.ofImage a.image = a ∧ a.image.length = imageBytes a.cfg a.count)

/-- R212, R213, R214, R215, R216, R217, R218, R223, R224: a matrix command that its checks let through enters its
engine's queue as the newest entry, and begins a region; commands that join a group are counted in the strand's open
group, which is closed first when it is full; an MXRD or MXWR of an issue that has its entry already joins it, and
MXRD's register waits. -/
def Obligations.MatrixCommands : Prop :=
  ∀ (s : State) (e : Env) (t : BitVec 4) (tile : Nat), s.env = some e → Alone e → e.tile t.toNat = .ok tile →
    (s.bank e.engine).mxQueue.length < 64 →
    let entry : MxOp → MxEntry := fun op =>
      { id := s.nextId, issue := some e.issueNo, op := op, tile := tile, team := e.wave.team, wave := e.waveKey,
        lane := e.lane, progress := 0, residue := 0 }
    let queue := fun (op : MxOp) => ({ s with nextId := s.nextId + 1 } : State).modBank e.engine fun b =>
      { b with mxQueue := b.mxQueue ++ [entry op] }
    let full := decide (32 ≤ e.st.openGroup.length)
    let st := if full then e.st.closeGroup else e.st
    let joins := fun (op : MxOp) =>
      Safety.next (e.retireRegion (queue op) { st with openGroup := st.openGroup ++ [s.nextId] })
    let may := full = true → s.waveGroups e.waveKey < 8
    (may → exec (.mxz t) s = joins .zero) ∧
    (∀ (type : Nat) (q : BitVec 1) (h j : BitVec 4) (a : BitVec 7) (hA hB : HRec) (v : Word),
      may → type < 6 → e.hReg h.toNat = .ok hA → e.hReg j.toNat = .ok hB → Reads e a.toNat v →
      mxHandleOk (mxSize type) hA = true → mxHandleOk (mxSize type) hB = true →
      let k := v.toNat % 65536
      let koff := v.toNat / 65536
      mxDepth type ≤ k → k % mxDepth type = 0 → koff % mxDepth type = 0 → koff + k ≤ 4096 → hPermR hA = true →
      hPermR hB = true → mxFits hA (64 * (koff + k)) (mxSize type) e.scratchGrant = true →
      mxFits hB (mxSpanB type (koff + k)) (mxSize type) e.scratchGrant = true →
      exec (mxmmaInstr type q t h j a) s = joins (.mma type (q == 1) hA hB koff k)) ∧
    (∀ (h : BitVec 4) (a : BitVec 7) (r : HRec) (v : Word), may → e.hReg h.toNat = .ok r →
      Reads e a.toNat v → mxHandleOk 4 r = true → hPermW r = true →
      let row := v.toNat % 64
      let rows := v.toNat / 256 % 128
      1 ≤ rows → row + rows ≤ 64 → mxFits r (64 * rows) 4 e.scratchGrant = true →
      exec (.mxst t h a) s = joins (.store r row rows)) ∧
    (∀ (a d : BitVec 7) (v x : Word), Reads e a.toNat v →
      let lane := fun (d : Nat) (word : Option Word) =>
        ({ strand := e.key, tile := tile, element := v.toNat % 4096, d := d, word := word } : MxLane)
      (e.issueEntry = none →
        (Has e d.toNat → exec (.mxrd t d a) s = .next (e.retireRegion (queue (.access [lane d.toNat none]))
          (e.st.await d.toNat s.nextId))) ∧
        (Reads e (a.toNat + 1) x →
          exec (.mxwr t a) s = .next (e.retireRegion (queue (.access [lane 0 (some x)])) e.st))) ∧
      (∀ y l, e.issueEntry = some y → y.op = .access l →
        (∀ z ∈ (s.bank e.engine).mxQueue, z.id = y.id → z = y) →
        let joined := fun (z : MxLane) => s.modBank e.engine fun b =>
          { b with mxQueue := b.mxQueue.map fun u => if u.id = y.id then { u with op := .access (l ++ [z]) } else u }
        (Has e d.toNat → exec (.mxrd t d a) s =
          .next (e.retireRegion (joined (lane d.toNat none)) (e.st.await d.toNat y.id))) ∧
        (Reads e (a.toNat + 1) x → exec (.mxwr t a) s = .next (e.retireRegion (joined (lane 0 (some x))) e.st))))

/-- R218, R220, R221, R222, R223, R224, R225, R45, R46, R47: the engine of the active bank performs the command at the
head of its queue: a chunk of an MXMMA adds its products to the tile, MXZ clears a tile, MXST writes its next row to
scratch, MXRD and MXWR read and write elements. MXCOMMIT closes the open group, MXWAIT goes on while at most n closed
groups are outstanding and blocks otherwise, MXSTAT gives and clears the status, and a group whose commands have left
the queue is outstanding no more. -/
def Obligations.MatrixEngine : Prop :=
  (∀ (s : State) (core : Nat) (x : MxEntry) (rest : List MxEntry), let b := s.activeBank core
     (s.bank b).mxQueue = x :: rest → s.engineHeld core = false → (s.core core).tileBad = [] →
     (∀ type hA hB koff k team, x.op = .mma type false hA hB koff k → s.teams.find x.team = some team → x.residue = 0 →
       let d := mxDepth type
       let pa := team.scratchRead (hBase0 hA + (koff / d + x.progress) * 64 * d * mxSize type) (64 * d * mxSize type)
       let pb := team.snapshotB type hB koff k x.progress
       pa.poisoned = false → pb.2.2.2 = false →
       let old := (s.core core).tile x.tile
       let out := if type = 4 then chunkInt pa.bytes pb.1 old
         else if type = 5 then chunkNq4 pa.bytes pb.1 pb.2.1 (Fmt.f32.decode (fromBytes pb.2.2.1)) old
         else chunkFloat type pa.bytes pb.1 old
       ∃ u, exec (.mxChunk core) s = .next u ∧ (u.core core).tiles = ((s.core core).setTile x.tile out.1).tiles ∧
         (u.bank b).mxQueue = (if (x.progress + 1) * d = k then rest else { x with progress := x.progress + 1 } :: rest) ∧
         u.mem = s.mem ∧ u.teams = s.teams) ∧
     (x.op = .zero → s.entering core x = false → ∃ u, exec (.mxCommandComplete core) s = .next u ∧ (u.bank b).mxQueue = rest ∧
       ∀ i < 4096, (u.core core).tiles.get (4096 * x.tile + i) 0 = 0) ∧
     (∀ h row rows, x.op = .store h row rows → s.entering core x = false → ∃ u, exec (.mxCommandComplete core) s = .next u ∧
       (u.bank b).mxQueue = (if x.progress + 1 < rows then { x with progress := x.progress + 1 } :: rest else rest) ∧
       u.teams = (s.scratchWrite x.team (hBase0 h + 256 * x.progress)
         (clean (rowBytes ((s.core core).tile x.tile) (row + x.progress)))).teams) ∧
     (∀ lanes, x.op = .access lanes → s.entering core x = false → ∃ u, exec (.mxCommandComplete core) s = .next u ∧ (u.bank b).mxQueue = rest ∧
       u.strands = (s.mxLanes core x.id lanes).strands ∧
       (u.core core).tiles = ((s.mxLanes core x.id lanes).core core).tiles)) ∧
  ((∀ (s : State) (e : Env) (n d a : BitVec 7) (v : Word), s.env = some e → Alone e →
     (s.waveGroups e.waveKey < 8 → exec .mxcommit s = .next (e.retireRegion s e.st.closeGroup)) ∧
     (e.st.closed.length ≤ n.toNat → exec (.mxwait n) s = .next (e.retireRegion s e.st)) ∧
     (n.toNat < e.st.closed.length → ∃ u, exec (.mxwait n) s = .next u ∧ ∃ t, u.strands = s.strands.set e.key t ∧
       t.life = .blocked (.groups n.toNat s.nextId) ∧ t.pc = e.st.pc) ∧
     (Has e d.toNat → Reads e a.toNat v →
       let x : Word := .ofNat 32 (e.wave.corr.toNat * 2 ^ 16 + min e.st.closed.length 8 * 2 ^ 12
         + e.st.openGroup.length * 2 ^ 6 + e.wave.mxFlags.toNat)
       exec (.mxstat d a) s = .next (e.retireRegion (s.setWave e.waveKey
         { e.wave with mxFlags := e.wave.mxFlags &&& ~~~(v.setWidth 5), corr := if v.getLsbD 8 then 0 else e.wave.corr })
         (e.put e.st d.toNat [(x, false)])))) ∧
   (∀ (s : State) (k : Nat) (st : Strand) (g : Group), s.strands.find k = some st →
     st.closed.find? (·.number = g.number) = some g → st.life ≠ .blocked .sleep →
     (∀ id ∈ g.commands, ∀ x ∈ (s.bank (s.engineBank k)).mxQueue, x.id ≠ id) →
     ∃ u t, exec (.mxGroupComplete k g.number) s = .next u ∧ u.strands.find k = some t ∧
       t.closed = st.closed.filter (·.number ≠ g.number) ∧
       (∀ n id, st.life = .blocked (.groups n id) →
         (t.closed.length ≤ n → t.life = .ready) ∧ (n < t.closed.length → t.life = st.life))))

/-! ### The copy engine -/

/-- R292, R293, R294, R296, R297, R299, R301, R303, R305: a copy command that its checks let through enters its
engine's queue as the newest entry with its handles, tag and blocks, arms its tag with the bytes it will land when m
is 1, and begins a region; it writes no memory. One of a contained team into global memory commits the store buffer
and exposes the team. TAGARM arms a tag with a count, a count of 0 making it ready at once; TAGWAIT gives the ready
bits under its mask once one of them, or all, are ready, and blocks until then; TAGFF gives the lowest ready tag of
its mask, or 64; TAGCLR disarms the tags of its mask; TAGRD gives remaining, expected and status. Each begins a
region. -/
def Obligations.CopyAndTags : Prop :=
  (∀ (s : State) (e : Env) (g : BitVec 6) (d h : BitVec 4) (a : BitVec 7) (m : BitVec 1) (tag : Nat) (hd hs : HRec)
     (x y z : Word),
     s.env = some e → Alone e → e.tagNo g.toNat = .ok tag → e.hReg d.toNat = .ok hd → e.hReg h.toNat = .ok hs →
     Reads e a.toNat x → Reads e (a.toNat + 1) y → Reads e (a.toNat + 2) z → copyHandle hd = true → copyHandle hs = true →
     hPermR hs = true → hPermW hd = true → (s.bank e.engine).copies.length < 64 →
     s.storesOf e.key = [] → (hKind hd = 1 ∨ (s.readsOutstanding e.key = false ∧
       (e.isContained = true → s.allCompared e.wave.team = true))) →
     let enters := fun (i : Instr) (op : CopyOp) => ∃ u c, exec i s = .next u ∧
       (u.bank e.engine).copies = (s.bank e.engine).copies ++ [c] ∧ c.op = op ∧ c.hs = hs ∧ c.hd = hd ∧ c.tag = tag ∧
       c.team = e.wave.team ∧ c.strand = e.key ∧ c.pol = e.policy hs ∧ c.landed = [] ∧ c.writes = [] ∧ c.blocks = op.blocks hd ∧
       c.stopped = none ∧
       (hKind hd = 1 → c.owned = []) ∧
       (u.bank e.engine).tag tag =
         (if m = 1 then CopyTag.arm (.ofNat 32 (op.bytes hd)) else (s.bank e.engine).tag tag) ∧
       u.mem = s.mem ∧ u.strands.find e.key = some ((e.st.tick 1).startRegion e.st.pc) ∧
       ((hKind hd = 1 ∨ e.isContained = false) →
         u.teams = s.teams ∧ u.strands = s.strands.set e.key ((e.st.tick 1).startRegion e.st.pc)) ∧
       (hKind hd ≠ 1 → e.isContained = true → ∀ t, s.teams.find e.wave.team = some t →
         u.teams.find e.wave.team = some { t with buffer := [], exposed := true })
     (let src := x.toNat * hEsize hs
      let dst := y.toNat * hEsize hd
      let n := z.toNat
      1 ≤ n → n % hEsize hs = 0 → n % hEsize hd = 0 → copyFits hs src (src + n) e.scratchGrant = true →
       copyFits hd dst (dst + n) e.scratchGrant = true → enters (.cpy g d h a m) (.linear src dst n)) ∧
     (∀ b op, e.descriptor z.toNat 128 = .ok b → b.poisoned = false → tensorOp b.bytes hs hd x y e.scratchGrant = .ok op →
       enters (.tcpy g d h a m) op) ∧
     (∀ b op, e.descriptor z.toNat 160 = .ok b → b.poisoned = false → chainOp b.bytes hs hd x y e.scratchGrant = .ok op →
       enters (.chain g d h a m) op)) ∧
  (∀ (s : State) (e : Env), s.env = some e → Alone e →
     let region := fun (t : State) (st : Strand) => Safety.next (e.retireRegion t st)
     (∀ (g : BitVec 6) (a : BitVec 7) (tag : Nat), e.tagNo g.toNat = .ok tag →
       (∀ n : Word, n ≠ 0 → Reads e a.toNat n →
         exec (.tagarm g a) s = region (s.setTag e.engine tag ⟨n, n, true, false, 0⟩) e.st) ∧
       (Reads e a.toNat 0 → exec (.tagarm g a) s = .next
         ((e.retireRegion (s.setTag e.engine tag ⟨0, 0, false, true, 0⟩) e.st).wakeTags e.wave.team)) ∧
       (Has e a.toNat → Has e (a.toNat + 1) → Has e (a.toNat + 2) →
         let t := (s.bank e.engine).tag tag
         let status : Word := .ofNat 32 ((if t.armed then 64 else 0) + (if t.ready then 32 else 0) + t.flags.toNat)
         exec (.tagrd g a) s = region s (e.put e.st a.toNat
           [(t.remaining, false), (t.expected, false), (status, false)]))) ∧
     (∀ (a : BitVec 7) (x : Dword) (t : Team), ReadsPair e a.toNat x → e.team = some t → x.toNat < 2 ^ t.tags.length →
       let got := x.toNat &&& e.readyBits
       let gives := region s (e.put e.st a.toNat
         [(.ofNat 32 got, false), (.ofNat 32 (got / 2 ^ 32), false)])
       let blocks := fun (i : Instr) => ∃ u st, exec i s = .next u ∧ u.mem = s.mem ∧ u.strands = s.strands.set e.key st ∧
         (∃ all id, st.life = .blocked (.tags x.toNat all a.toNat id)) ∧ st.pc = e.st.pc
       (x = 0 ∨ got ≠ 0 → exec (.tagwaitAny a) s = gives) ∧
       (x = 0 ∨ got = x.toNat → exec (.tagwaitAll a) s = gives) ∧
       (x ≠ 0 → got = 0 → blocks (.tagwaitAny a)) ∧
       (got ≠ x.toNat → blocks (.tagwaitAll a)) ∧
       (∀ k < 64, got.testBit k = true → (∀ j < k, got.testBit j = false) →
         exec (.tagff a) s = region s (e.put e.st a.toNat [(.ofNat 32 k, false)])) ∧
       (got = 0 → exec (.tagff a) s = region s (e.put e.st a.toNat [(64, false)])) ∧
       (∃ u, exec (.tagclr a) s = .next u ∧ u.strands = s.strands.set e.key ((e.st.tick 1).startRegion e.st.pc) ∧
         (∀ k n, t.tags[k]? = some n → x.toNat.testBit k = true → (u.bank e.engine).tag n = CopyTag.off) ∧
         (∀ n, (∀ k, t.tags[k]? = some n → x.toNat.testBit k = false) →
           (u.bank e.engine).tag n = (s.bank e.engine).tag n))) ∧
     (∀ t, e.team = some t → ∀ k, e.readyBits.testBit k =
       match t.tags[k]? with | some n => ((s.bank t.bank).tag n).ready | none => false))

/-- R296, R301, R302, R305, R307: a block of a linear copy from scratch, which ends where a 256-byte word of its
destination does, lands its source bytes, without poison, in scratch or at their physical addresses of its core's own
die, changes nothing else there, and counts its tag down. A write of a copy that has left before is performed when
nothing of its line comes before it and the clocks let one of another die be performed. A recalled line lands the
oldest owner's next block that has bytes of it; a copy that a fault stopped goes on after a TLBINV, taking the lines
that translate now. -/
def Obligations.CopyLanding : Prop :=
  (∀ (s : State) (b : Nat) (c : Copy) (t : Team) (src dst n k : Nat), s.banks.Pairwise (fun p q => p.1 < q.1) →
    (∀ p ∈ s.banks, ∀ d ∈ p.2.copies, d.id = c.id → (p.1, d) = (b, c)) → s.findCopy c.id = some (b, c) →
    c.op = .linear src dst n → 1 ≤ n → c.blocks = c.op.blocks c.hd → c.windows = [] → c.stopped = none →
    s.awaits c.after false = false → s.crcFailed c = false → s.engineStopped (bankCore b) = false →
    ((s.banks.filter fun p => bankCore p.1 = bankCore b).flatMap fun p =>
      p.2.copies.filter fun d => d.landed ≠ []).length < 16 →
    k < c.blocks → k ∉ c.landed → s.unowned c k = false → hKind c.hs = 1 → s.teams.find c.team = some t → t.poisonWords = [] →
    t.scratch.Pairwise (fun a b => a.1 < b.1) →
    let lead := copyAddr c.hd dst % 256
    let first := 256 * k - lead
    let len := min n (256 * (k + 1) - lead) - first
    let tag := (s.bank b).tag c.tag
    tag.armed = true → len ≤ tag.remaining.toNat →
    let a := hBase0 c.hs + (src + first)
    let counted := fun (u : State) =>
      let left := tag.remaining - .ofNat 32 len
      (u.bank b).tag c.tag = { tag with remaining := left, ready := decide (left = 0), armed := decide (left ≠ 0) }
    (hKind c.hd = 1 → c.owned = [] → let z := hBase0 c.hd + (dst + first)
      (a + len ≤ z ∨ z + len ≤ a) →
      ∃ u t', exec (.copyLand c.id k) s = .next u ∧ counted u ∧ u.mem = s.mem ∧ u.teams.find c.team = some t' ∧
        (∀ j < len, t'.scratch.get (z + j) 0 = t.scratch.get (a + j) 0) ∧
        (∀ i, i < z ∨ z + len ≤ i → t'.scratch.get i 0 = t.scratch.get i 0)) ∧
    (hKind c.hd ≠ 1 → ∀ pa, lineOf pa = lineOf (pa + len - 1) → homeDie pa = some (coreDie (strandCore c.strand)) →
      (∀ j < len, s.copyTo c ((hBase0 c.hd + (dst + first) + j) % 2 ^ 57) = .ok (some (pa + j))) →
      c.owns (lineOf pa) = true → (∀ p ∈ c.owned, p.2 ≠ 0) → (∀ w ∈ c.writes, w.line ≠ lineOf pa) →
      s.ownedBefore (lineOf pa) c.id = false → s.olderAtSlice (lineOf pa * 256) s.nextId = false →
      (∀ f ∈ s.flights, f.line ≠ lineOf pa) → MemoryOk s →
      (∃ u, exec (.copyLand c.id k) s = .next u ∧ counted u ∧
        (∀ j < len, Memory.read u.mem (memKey (pa + j)) = t.scratch.get (a + j) 0) ∧
        (∀ i, (∀ j < len, i ≠ memKey (pa + j)) → Memory.read u.mem i = Memory.read s.mem i)) ∧
      ((∀ p ∈ s.banks, ∀ d ∈ p.2.copies, d.owns (lineOf pa) = true → c.id < d.id ∨ (p.1, d) = (b, c)) →
        (∀ j < k, s.touches c (lineOf pa) j = false) →
        exec (.directoryRecall (lineOf pa)) s = exec (.copyLand c.id k) s))) ∧
  (∀ (s : State) (b : Nat) (c : Copy) (w : CopyWrite) (k home : Nat), s.findCopy c.id = some (b, c) → k ∈ c.landed →
    (c.writes.filter fun x => x.block = k) = [w] → w.cells ≠ [] → w.bad = false → homeDie (w.line * 256) = some home →
    (∀ v, w.stamp = some v → applicable (s.die home).clock v (coreDie (strandCore c.strand)) = true) →
    s.ownedBefore w.line c.id = false → (∀ x ∈ c.writes.takeWhile (· ≠ w), x.line ≠ w.line) →
    s.olderAtSlice (w.line * 256) s.nextId = false → (∀ f ∈ s.flights, f.line ≠ w.line) → MemoryOk s →
    ((s.bank b).tag c.tag).armed = true → w.count ≤ ((s.bank b).tag c.tag).remaining.toNat →
    ∃ u, exec (.copyLand c.id k) s = .next u ∧
      ((w.cells.map (memKey ·.1)).Nodup → ∀ x ∈ w.cells, Memory.read u.mem (memKey x.1) = x.2) ∧
      (∀ n, n ∉ w.cells.map (memKey ·.1) → Memory.read u.mem n = Memory.read s.mem n)) ∧
  (∀ (s : State) (b : Nat) (c : Copy), s.findCopy c.id = some (b, c) → c.stopped ≠ none → c.retry = true →
    s.engineStopped (bankCore b) = false →
    exec (.copyRetry c.id) s = .next
      ((s.changeCopy b c.id fun c => { c with stopped := none, retry := false }).ownLines b c))

/-! ### Teams, launches, tasks -/

/-- R277, R281, R240, R311: TBAR arrives and blocks in the phase, TBARA arrives and gives the phase, TBARW goes on
when the phase is another one and blocks when it is the same; once every live strand of the team has arrived, those of
a saved part of it among them, and none is in its handler, the phase advances by one, nobody has arrived in the next
one, and the strands that wait in the phase are Ready; until then nothing happens. -/
def Obligations.BarrierResults : Prop :=
  (∀ (s : State) (e : Env) (n : BitVec 3) (a : BitVec 7) (t : Team) (y : Word), s.env = some e → Alone e →
    e.team = some t →
    let x := t.barrier n.toNat
    let joined : Barrier := { x with arrived := x.arrived ++ [e.key] }
    let arrives := fun (u : State) =>
      Safety.next { u with teams := s.teams.set e.wave.team { t with barriers := t.barriers.set n.toNat joined } }
    let blocked := s.setStrand e.key { e.st.tick 1 with life := .blocked (.barrier n.toNat x.phase) }
    (s.ownOutstanding e.key = false → e.key ∉ x.arrived → (∀ o ∈ t.waOps, o.strand ≠ e.key) →
      exec (.tbar n) s = arrives blocked ∧
      (Has e a.toNat → exec (.tbara a n) s =
        arrives (e.retireRegion s (e.put e.st a.toNat [(x.phase, false)])))) ∧
    (Reads e a.toNat y → exec (.tbarw a n) s = if x.phase = y then .next blocked else done e e.st)) ∧
  (∀ (s : State) (team bar : Nat) (t : Team), s.teams.find team = some t →
    let x := t.barrier bar
    let live := fun (k : Nat) (st : Strand) =>
      t.waves.contains (strandWave k) = true ∧ s.strands.find k = some st ∧ st.life ≠ .exited
    (x.arrived ≠ [] → (∀ k st, live k st → k ∈ x.arrived ∧ st.handler = none) →
      (∀ k ∈ s.awayStrands t, k ∈ x.arrived ∧ s.strands.find k = none) →
      ∃ u, exec (.barrierPhaseComplete team bar) s = .next u ∧
        u.teams = s.teams.set team { t with barriers := t.barriers.set bar ⟨x.phase + 1, []⟩ } ∧ u.mem = s.mem ∧
        ∀ k st, live k st → st.life ≠ .blocked .sleep → u.strands.find k = some
          (if st.life = .blocked (.barrier bar x.phase) then { st with life := .ready, wait := 0 } else st)) ∧
    (∀ k st, live k st → (k ∉ x.arrived ∨ st.handler ≠ none) → exec (.barrierPhaseComplete team bar) s = .next s) ∧
    (∀ k ∈ s.awayStrands t, k ∉ x.arrived → exec (.barrierPhaseComplete team bar) s = .next s))

/-- R279, R282, R284, R285, R290, R291, R318: LAUNCH of wave 0, lane 0 releases at device scope, a contained team
committing its store buffer first, and waits while there is something to order; then it requests the record, element
by element, and waits for the dispatcher. A part that is served is kept with the launch, a clamped one is zero.
LAUNCH_STATUS, once the whole record is there and every die has seen what the release orders, gives the dispatcher's
status with the new GRIDID, or 0; an accepted launch exposes its team, and poison in the record kills it. GWAIT gives
the status of a retired grid of its team, blocks on one that goes on, and gives 0x100 for any other number. -/
def Obligations.LaunchResults : Prop :=
  (∀ (s : State) (e : Env) (d a : BitVec 7) (h : BitVec 4) (r : HRec) (i : Word) (st : Strand)
    (places : List (Option (Nat × Nat))),
    s.env = some e → Alone e → Has e d.toNat → Has e (d.toNat + 1) → Reads e a.toNat i → e.hReg h.toNat = .ok r →
    hKind r = 0 → hEsize r = 16 → s.strands.find e.key = some st →
    (e.lane = 0 → e.wave.waveId = 0 → e.locateAll r i.toNat 8 = .ok () → e.recordPlaces r i.toNat 8 = .ok places →
      let requests := fun (t : State) =>
        let numbered : State := { t with nextId := t.nextId + 1 }
        let order := numbered.stillOut (numbered.releaseIds e.cores e.key 6 e.revision true).1 true
        ∃ u ls, exec (.launch d a h) s = .next u ∧ u.mem = s.mem ∧ u.loads = s.loads ++ ls ∧
          ls.map (fun l => (l.strand, l.use, l.va, l.pa, l.size)) = places.zipIdx.filterMap (fun p =>
            p.1.map fun x => (e.key, .launch t.nextId p.2, x.1, x.2, 16)) ∧
          u.pending = s.pending.set t.nextId (.launch e.key d.toNat (places.zipIdx.filterMap fun p =>
            if p.1.isNone then some (p.2, List.replicate 16 0, false) else none) order) ∧
          u.strands = s.strands.set e.key { ((e.st.awaitMany t.nextId d.toNat 2).tick 1).startRegion e.st.pc with
            life := .waiting (.reply t.nextId) }
      ((∀ ids ap, st.life ≠ .waiting (.acks ids ap)) → s.ownOutstanding e.key = false →
        (e.isContained = true → s.allCompared e.wave.team = true) →
        let c := if e.isContained then s.commit e.wave.team else s
        let t := c.writeBackAll e.cores
        let asks := t.releaseIds e.cores e.key 5 e.revision false
        (t.stillOut asks.1 asks.2 = [] → ({ e with s := t } : Env).recordPlaces r i.toNat 8 = .ok places → requests t) ∧
        (t.stillOut asks.1 asks.2 ≠ [] → exec (.launch d a h) s = .next (t.setStrand e.key
          { e.st with pc := e.bundle, life := .waiting (.acks (t.stillOut asks.1 asks.2) asks.2), handles := e.keepHandles }))) ∧
      (∀ ids ap, st.life = .waiting (.acks ids ap) → s.awaits ids ap = false → requests s)) ∧
    (e.lane ≠ 0 ∨ e.wave.waveId ≠ 0 → exec (.launch d a h) s = faulted e 2 0)) ∧
  (∀ (s : State) (l : Load) (id part k d : Nat) (parts : Tbl (List Byte × Bool)) (after : List Nat) (u : State) (b : List Byte)
    (bad : Bool), s.loads.find? (·.id = l.id) = some l → l.granted = true → (s.loadStands l && s.olderAtSlice l.pa l.id) = false →
    l.use = .launch id part → s.readLoad l = some (b, bad, u) → u.pending.find id = some (.launch k d parts after) →
    ∃ v, exec (.loadReturn l.id) s = .next v ∧ v.mem = u.mem ∧ v.strands = u.strands ∧
      v.loads = u.loads.filter (·.id ≠ l.id) ∧ v.pending.find id = some (.launch k d (parts.set part (b, bad)) after)) ∧
  (∀ (s : State) (id k d : Nat) (parts : Tbl (List Byte × Bool)) (after : List Nat),
    s.pending.find id = some (.launch k d parts after) → 8 ≤ parts.length → s.awaits after true = false →
    let t : State := { s with pending := s.pending.drop id }
    let p := parseLaunch (parts.flatMap fun x => x.2.1)
    let status := (t.launchStatus (s.launcherOf k) p.1 p.2).1
    ((∃ x ∈ parts, x.2.2 = true) →
      exec (.launchStatus id) s = .next (s.killTeam (s.teamOf k) 0x10 (laneError s k 0))) ∧
    ((∀ x ∈ parts, x.2.2 = false) → t.budgetOpen (s.launcherOf k) p.1 = true →
      (status ≠ 0 → exec (.launchStatus id) s = .next (t.deliver k id d [(.ofNat 32 status, false), (0, false)])) ∧
      (status = 0 → ∃ u g, exec (.launchStatus id) s = .next u ∧ u.mem = s.mem ∧ u.pending = t.pending ∧
        u.grids = s.grids.set s.device.nextGrid g ∧ u.device.nextGrid = s.device.nextGrid + 1 ∧ g.launch = p.1 ∧
        g.nextTeam = 0 ∧ g.retired = false ∧ g.level = (if p.1.system then 1 else 0) ∧
        g.depth = (if p.1.top then 1 else (s.launcherOf k).depth + 1) ∧
        u.teams = s.teams.change (s.teamOf k) (fun (x : Team) => { x with exposed := true }) ∧
        u.strands = (t.deliver k id d [(0, false), (.ofNat 32 s.device.nextGrid, false)]).strands))) ∧
  (∀ (s : State) (e : Env) (d a : BitVec 7) (g : Word), s.env = some e → Alone e → Has e d.toNat → Reads e a.toNat g →
    let gives := fun (t : State) (x : Nat) => Safety.next (e.retire t (e.put e.st d.toNat [(.ofNat 32 x, false)]))
    (s.grids.find g.toNat = none → exec (.gwait d a) s = gives s 0x100) ∧
    (∀ x, s.grids.find g.toNat = some x →
      (x.parent ≠ some e.wave.team → exec (.gwait d a) s = gives s 0x100) ∧
      (x.parent = some e.wave.team → x.retired = true →
        exec (.gwait d a) s = gives (s.dropClean e.cores) (x.status % 256)) ∧
      (x.parent = some e.wave.team → x.retired = false → exec (.gwait d a) s = .next
        (({ s with nextId := s.nextId + 1 } : State).setStrand e.key
          { (e.st.await d.toNat s.nextId).tick 1 with life := .blocked (.grid g.toNat d.toNat s.nextId) }))))

/-- R286, R287, R290, R291, R98, R362: TASKPUSH releases at cluster scope, a contained team committing its store
buffer first, adds a task of its grid to its cluster's pool, or waits for a free entry, and exposes its team; a freed
entry takes the oldest waiting task. A tick of the gatherer fills the empty item queue of a core whose strands are
Blocked in REFILL with the oldest tasks of their grids, one for each such strand (log 34: the model's choice); the
strand takes an item that fits it, stays Blocked while none fits and the pool holds a task of its grid, and goes on
without one when none is left (log 17: the model's choice). A team of priority 3 that finds no place takes a core's
empty shadow bank and asks for the swap, and where the shadow bank holds a context it posts a staging request; a group
of tasks that has waited GATHERWIN becomes a wave of its grid, with the next TEAMID and its tasks' records. -/
def Obligations.TaskResults : Prop :=
  ((∀ (s : State) (e : Env) (d a : BitVec 7) (h : BitVec 4) (r : HRec) (x : Dword) (i : Word) (entry : VAddr) (n : Nat)
     (st : Strand),
     s.env = some e → Alone e → e.hReg h.toNat = .ok r → hKind r = 0 → hEsize r = 16 → ReadsPair e a.toNat x →
     Reads e d.toNat i → checkTarget x = .ok entry → e.codeWord (budgetAt entry) = .ok n → budgetOk n = true → e.locateAll r i.toNat 4 = .ok () →
     s.strands.find e.key = some st → (∀ ids ap, st.life ≠ .waiting (.acks ids ap)) → s.ownOutstanding e.key = false →
     (e.isContained = true → s.allCompared e.wave.team = true) →
     let c := if e.isContained then s.commit e.wave.team else s
     let t := c.writeBackAll e.cores
     let asks := t.releaseIds e.cores e.key 3 e.revision false
     t.stillOut asks.1 asks.2 = [] →
     let cl := coreCluster e.coreKey
     let old := s.cluster cl
     let task : Task := { grid := e.wave.grid, entry := entry, record := elementVa r i.toNat, born := old.ticks }
     (old.pool.length < 4096 → old.pushing = [] → ∃ u, exec (.taskpush d a h) s = .next u ∧ u.mem = s.mem ∧
       (u.cluster cl).pool = old.pool ++ [task] ∧
       (∀ x, u.teams.find e.wave.team = some x → x.exposed = true) ∧ u.strands.find e.key = some ((e.st.tick 1).startRegion e.st.pc)) ∧
     (4096 ≤ old.pool.length → ∃ u, exec (.taskpush d a h) s = .next u ∧ u.mem = s.mem ∧ (u.cluster cl).pool = old.pool ∧
       (u.cluster cl).pushing = old.pushing ++ [(e.key, task)] ∧ u.strands.find e.key = some
         { (e.st.tick 1).startRegion e.st.pc with life := .blocked (.pool t.nextId) })) ∧
   (∀ (s : State) (cl k : Nat) (task : Task) (rest : List (Nat × Task)) (st : Strand) (id : Nat),
     (s.cluster cl).pushing = (k, task) :: rest → (s.cluster cl).pool.length < 4096 → s.strands.find k = some st →
     st.life = .blocked (.pool id) →
     ∃ u t, exec (.taskpushPoolFree cl) s = .next u ∧ u.mem = s.mem ∧ (u.cluster cl).pushing = rest ∧
       (u.cluster cl).pool = (s.cluster cl).pool ++ [{ task with born := (s.cluster cl).ticks }] ∧
       (∀ x, u.teams.find (s.teamOf k) = some x → x.exposed = true) ∧
       u.strands.find k = some t ∧ t.life = .ready ∧ t.pc = st.pc) ∧
   (∀ (s : State) (cl : Nat), (groupsOf (s.cluster cl).pool).all (fun l => decide (l.length < 32)) = true →
     (∀ p ∈ s.strands, ∀ n, p.2.life = .blocked (.refill n) → coreCluster (strandCore p.1) ≠ cl) →
     exec (.gatherTick cl) s = .next (s.modCluster cl fun c => { c with ticks := c.ticks + 1 })) ∧
   (∀ (s : State) (core k : Nat) (st : Strand) (task : Task) (e : Env) (n : Nat), let cl := coreCluster core
     core < 512 → (s.core core).items = [] → st.life = .blocked (.refill n) →
     strandCore k = core → (s.strands.filter fun p => match p.2.life with | .blocked (.refill _) => true | _ => false) = [(k, st)] →
     s.strands.find k = some st → (s.cluster cl).pool.find? (·.grid = s.gridOf k) = some task →
     (groupsOf ((s.cluster cl).pool.erase task)).all (fun l => decide (l.length < 32)) = true →
     let pool := (s.cluster cl).pool.erase task
     let there := ((s.modCluster cl fun c => { c with pool := pool }).modCore core fun c => { c with items := [task] }).wake core
     ({ there with cur := { there.cur with strand := k } } : State).env = some e →
     (e.fitting e.codeWord [task] = .ok (some task) →
       ∃ u, exec (.gatherTick cl) s = .next u ∧ (u.core core).items = [] ∧ (u.cluster cl).pool = pool ∧
         u.strands.find k = some { st with life := .ready, wait := 0, item := some (task.entry.toNat, task.record) }) ∧
     (e.fitting e.codeWord [task] = .ok none → (∃ t ∈ pool, t.grid = e.wave.grid) →
       ∃ u, exec (.gatherTick cl) s = .next u ∧ (u.core core).items = [task] ∧ (u.cluster cl).pool = pool ∧
         u.strands.find k = some st) ∧
     (e.fitting e.codeWord [task] = .ok none → (∀ t ∈ pool, t.grid ≠ e.wave.grid) →
       ∃ u, exec (.gatherTick cl) s = .next u ∧ (u.core core).items = [task] ∧ (u.cluster cl).pool = pool ∧
         u.strands.find k = some { st with life := .ready, wait := 0, item := none }))) ∧
  ((∀ (s v : State) (g core a : Nat) (x : Grid), s.grids.find g = some x → x.unplaced = true → x.launch.prio = 3 →
     x.launch.fused = false → x.launch.pin = none → s.turnOf g x x.nextTeam = true → s.spot x.asid x.launch none none = none →
     let b := 1 - (s.core core).active
     (s.core core).active < 2 → s.takesTeams core = true → (s.bank (bankNo core (1 - b))).asid = some a → a ≠ x.asid →
     s.hasPrio3 (bankNo core (1 - b)) = false →
     (∀ f h, (s.bank (bankNo core b)).asid = none → s.fit x.asid x.launch core b true = some f →
       s.tableRecords x (bankCore f.bank) = .ok (h, v) →
       ∃ u t, exec (.prio3Preempt g core) s = .next u ∧ u.mem = s.mem ∧ (u.core core).prio3 = true ∧
         (u.core core).swaps = (s.core core).swaps ++ [none] ∧ u.teams.find v.nextId = some t ∧ t.grid = g ∧
         t.bank = bankNo core b) ∧
     ((s.bank (bankNo core b)).asid ≠ none → (g, core) ∉ (s.die (coreDie core)).staging →
       exec (.prio3Preempt g core) s =
         .next (s.modDie (coreDie core) fun d => { d with staging := d.staging ++ [(g, core)] }))) ∧
   (∀ (s v w : State) (cl : Nat) (l : List Task) (t : Task) (g : Grid) (c : CodeVersion) (word : Nat) (f : Fit) (h : List HRec)
     (args : List Marked), groupsOf (s.cluster cl).pool = [l] → l.head? = some t →
     t.born + (s.cluster cl).gatherWin.toNat % 2 ^ 16 ≤ (s.cluster cl).ticks → s.grids.find t.grid = some g →
     s.codeVersion g.asid g.version = some c → budgetPlace c t.entry = some word →
     let core := bankCore f.bank
     let k : Tasks := { entry := t.entry, budget := s.peekNum word 4, records := (l.take 32).map (·.record) }
     budgetOk k.budget = true → s.turnOf t.grid g g.teamCount = true → s.spot g.asid (g.launch.gathered k) none (some cl) = some f →
     s.sliceOpen (coreDie core) word s.nextId = true → s.tableRecords g core = .ok (h, v) →
     v.taskWords core g (some k) = .ok (args, w) →
     ∃ u m, exec (.gatherWindowExpiry cl) s = .next u ∧ u.mem = s.mem ∧
       (u.cluster cl).pool = (l.take 32).foldl (fun p t => p.erase t) (s.cluster cl).pool ∧
       (∃ places, u.grids.find t.grid = some { g with teamCount := g.teamCount + 1, places := places }) ∧
       u.teams.find w.nextId = some m ∧ m.teamId = g.teamCount ∧ m.tasks = some k))

/-- R289, R290, R175, R176: RGROW of no more than the wave holds gives 0, a larger one enters a request for its wave
and blocks; RSHRINK takes the registers above its size from every strand of the wave at once; COMMIT sends the
buffered stores of a contained team, once the strand has none to perform. The oldest request is granted when the pool
holds its bytes, the youngest fails when nothing of the bank can proceed; a granted wave holds the size, its lanes get
0, or 1 and G on failure. -/
def Obligations.GrowResults : Prop :=
  (∀ (s : State) (e : Env) (d n : BitVec 7), s.env = some e → Alone e →
    let size := 8 * n.toNat
    (Has e d.toNat → size ≤ e.wave.alloc →
      exec (.rgrow d n) s = .next (e.retire s (e.put e.st d.toNat [(0, false)]))) ∧
    (Has e d.toNat → e.wave.alloc < size → e.wave.grow = none →
      let lane : GrowLane := { lane := e.lane, dst := some d.toNat, link := 0, ret := e.here + 4, target := 0, pc := e.bundle }
      let u : State := ({ s with nextId := s.nextId + 1 } : State).modBank e.bankKey fun b =>
        { b with grows := b.grows ++ [e.waveKey] }
      let grow : Grow := { id := s.nextId, issue := e.issueNo, size := size, lanes := [lane] }
      exec (.rgrow d n) s = .next ((u.setWave e.waveKey { e.wave with grow := some grow }).setStrand e.key
        { e.st with pc := e.bundle, life := .blocked (.grow s.nextId) })) ∧
    (e.wave.grow = none → e.wave.alloc ≤ size → exec (.rshrink n) s = done e e.st) ∧
    (e.wave.grow = none → size < e.wave.alloc → ∃ u, exec (.rshrink n) s = .next u ∧ u.mem = s.mem ∧
      u.waves.find e.waveKey = some { e.wave with alloc := size } ∧
      ∀ k st, strandWave k = e.waveKey → u.strands.find k = some st →
        (∀ m, size ≤ m → st.regs.find m = none) ∧ (∀ w ∈ st.window, ∀ m, w.dst = .v m → m < size)) ∧
    (e.isContained = false → exec .commit s = done e e.st) ∧
    (e.isContained = true → s.storesOf e.key = [] →
      (∀ a ∈ s.atomics, a.strand = e.key → a.inBuffer = false) → s.allCompared e.wave.team = true → ∃ u, exec .commit s = .next u ∧ u.mem = s.mem ∧
      (∀ t, u.teams.find e.wave.team = some t → t.buffer = []) ∧ u.strands.find e.key = some (e.st.tick 1))) ∧
  (∀ (s : State) (bank w : Nat) (rest : List Nat) (wave : Wave) (g : Grow), (s.bank bank).grows = w :: rest →
    s.waves.find w = some wave → wave.grow = some g → wave.growBytes g.size ≤ s.poolFree bank →
    exec (.growGrant bank) s = .next (s.finishGrow w true)) ∧
  (∀ (s : State) (bank w : Nat) (front : List Nat), (s.bank bank).grows = front ++ [w] →
    (bank < 1024 → s.activeBank (bankCore bank) = bank) → s.bankBusy bank = false →
    (∀ p ∈ s.bankStrands bank, s.able p.1 p.2 = false) →
    exec (.growFail bank) s = .next (s.finishGrow w false)) ∧
  (∀ (s : State) (w : Nat) (wave : Wave) (g : Grow) (l : GrowLane) (st : Strand) (d : Nat) (ok : Bool),
    s.waves.find w = some wave → wave.grow = some g → g.lanes = [l] → l.dst = some d → wave.partner = none →
    l.lane < 64 → s.strands.find (strandNo w l.lane) = some st → st.life ≠ .blocked .sleep → st.window = [] →
    wave.alloc ≤ g.size →
    ∃ t, (s.finishGrow w ok).strands.find (strandNo w l.lane) = some t ∧ t.life = .ready ∧ t.pc = l.ret ∧
      (s.finishGrow w ok).waves.find w = some { wave with grow := none, alloc := if ok then g.size else wave.alloc } ∧
      s.produced (strandNo w l.lane) [if ok then 0 else 1] = [(t.reg d).val] ∧ (ok = false → t.fstat = st.fstat ||| 0x40))

/-! ### The system class -/

/-- R254, R256, R167, R125, R270: RDS at a level that reads the register gives its value, in a pair for a wide one;
WRS at a level that writes it, with a value its map allows, is noted in the issue and takes effect when the issue
ends, behind the results that wait for that and before the team of a lane that differed is killed (R125, R167, R270);
a register then reads what was written. -/
def Obligations.SystemRegisters : Prop :=
  (∀ (s : State) (e : Env) (d : BitVec 7) (n : BitVec 14), s.env = some e → Alone e → Has e d.toNat →
    systemReadLevel n.toNat ≤ e.level → (isFaultReg n.toNat = true → e.st.handler ≠ none) →
    let v := s.readSystem e.key n.toNat
    (systemWide n.toNat = false →
      exec (.rds d n) s = .next (e.retire s (e.put e.st d.toNat [(v.setWidth 32, false)]))) ∧
    (systemWide n.toNat = true → Has e (d.toNat + 1) →
      exec (.rds d n) s = .next (e.retire s (e.put e.st d.toNat
        [(v.setWidth 32, false), ((v >>> 32).setWidth 32, false)])))) ∧
  (∀ (s : State) (e : Env) (x : BitVec 7) (n : BitVec 14) (i : Issue) (v : Dword) (level : Nat), s.env = some e → Alone e →
    systemWriteLevel n.toNat = some level → level ≤ e.level → s.issue = some i →
    (if systemWide n.toNat then ReadsPair e x.toNat v else ∃ w, Reads e x.toNat w ∧ v = w.setWidth 64) →
    systemValueOk n.toNat v = true → (n = 0x23 → e.scribeWriteOk v = true) →
    exec (.wrs x n) s = .next (e.retire { s with issue := some { i with writes := i.writes ++ [(e.key, n.toNat, v)] } } e.st)) ∧
  (∀ (s : State) (i : Issue) (w : Wave), s.issue = some i → i.remaining = [] → (∀ x rest, s.turns ≠ .inner x :: rest) →
    s.waves.find i.wave = some w →
    let counted : Wave := { w with issues := w.issues + 1, censusWait := w.censusWait + .ofNat 32 i.unserved,
                                   bsPass := w.bsPass + .ofNat 32 (issuePasses i.accesses) }
    let arrived := i.late.foldl (fun (s : State) l => s.deliver l.strand l.id l.d l.words)
      { s with issue := none, waves := s.waves.set i.wave counted }
    step s = .next ((((i.writes.foldl (fun (s : State) x => s.applySystem x.1 x.2.1 x.2.2) arrived).mismatchAt
      i.differ).resetWaits exec i.wave).scribeKeep exec i.wave)) ∧
  (∀ (s : State) (k : Nat) (v : Dword),
    (∀ n ∈ [0x00, 0x01, 0x02, 0x04, 0x05], (s.applySystem k n v).readSystem k n = (v.setWidth 32).setWidth 64) ∧
    (∀ n ∈ [0x06, 0x20, 0x21, 0x22, 0x23, 0x24, 0x25], (s.applySystem k n v).readSystem k n = v) ∧
    (∀ w, s.waves.find (strandWave k) = some w →
      (s.applySystem k 0x10 v).readSystem k 0x10 = ((v.setWidth 32 : Word) &&& 0xFFC7).setWidth 64))

/-- R254, R255, R271: below the level that an instruction or a register needs, and outside a handler for the registers
of a fault, an instruction of the SYS class is ILLOP. -/
def Obligations.PrivilegeRules : Prop :=
  ∀ (s : State) (e : Env) (d a b : BitVec 7) (n : BitVec 14), s.env = some e → Has e d.toNat → Has e a.toNat →
    Has e (a.toNat + 1) → Has e b.toNat →
    (e.level = 0 →
      exec .halt s = faulted e 2 0 ∧ exec (.unpark d a) s = faulted e 2 0 ∧ exec (.swapctx d a) s = faulted e 2 0 ∧
      exec (.tlbinv a b) s = faulted e 2 0 ∧ exec (.ctxsave d a b) s = faulted e 2 0 ∧
      exec (.ctxload d a b) s = faulted e 2 0) ∧
    (e.level < 2 → exec (.lmapw d a b) s = faulted e 2 0 ∧
      (∀ x y, ReadsPair e a.toNat x → Reads e b.toNat y → (y.toNat / 2 ^ 21 % 4 = 1 ∨ y.toNat / 2 ^ 21 % 4 = 3) →
        exec (.tlbinv a b) s = faulted e 2 0)) ∧
    ((systemWide n.toNat = true → Has e (d.toNat + 1)) →
      (e.level < systemReadLevel n.toNat → exec (.rds d n) s = faulted e 2 0) ∧
      ((n = 7 ∨ n = 8 ∨ n = 9) → e.st.handler = none → exec (.rds d n) s = faulted e 2 0) ∧
      (systemWriteLevel n.toNat = none → exec (.wrs d n) s = faulted e 2 0) ∧
      (∀ level, systemWriteLevel n.toNat = some level → e.level < level → exec (.wrs d n) s = faulted e 2 0))

/-- R255, R258, R267, R128, R158, R259, R261, R263, R264, R271, R323: HALT stops its core; UNPARK gives 2 for a token
that names no parked strand with that count (the token of a scribe lane is log 48: the model's choice), and otherwise
readies the strand, which issues alone (R128; that its bundle issues once for it is log 44: the model's choice), or
with DLV delivers its fault to its handler, and of a leading lane to the trailing one too (log 27: the model's
choice); SWAPCTX, CTXSAVE and CTXLOAD leave a request under the next number and wait for it, or give the status that
refuses; TLBINV releases, a contained team committing its buffer first, drops the matching entries, and waits for the
accesses and walks under way; LMAPW writes one register of an idle core's lane map (status 3 before 2, and LLANE 0 for
a lane that is not Mapped, are log 35: the model's choice). A grid that is pinned to a core that halts, or that its
lane map retires, aborts with NOPLACE (R158: `losePin`). -/
def Obligations.SystemCommands : Prop :=
  ∀ (s : State) (e : Env) (d a b : BitVec 7), s.env = some e → Alone e → 1 ≤ e.level → Has e d.toNat →
    let gives := fun (t : State) (x : Nat) => Safety.next (e.retire t (e.put e.st d.toNat [(.ofNat 32 x, false)]))
    let asks := fun (i : Instr) (p : Pending) => ∃ u, exec i s = .next u ∧ u.mem = s.mem ∧
      u.pending = s.pending.set s.nextId p ∧
      u.strands.find e.key = some { (e.st.await d.toNat s.nextId).tick 1 with life := .waiting (.reply s.nextId) }
    exec .halt s = .next ((e.retire s e.st).modCore e.coreKey fun c => { c with halted := true }).losePin ∧
    (∀ x : Word, Reads e a.toNat x →
      ((tokenStrands x.toNat).find? (s.parkedFor x.toNat) = none → exec (.unpark d a) s = gives s 2) ∧
      (∀ k st, (tokenStrands x.toNat).find? (s.parkedFor x.toNat) = some k → s.strands.find k = some st →
        let t := s.setStrand k { st with life := .ready, wait := 0, solo := !x.getLsbD 21 }
        let code := st.faultCode.toNat % 256
        let arg := st.faultCode.toNat / 256 % 256
        let traps := fun (u : State) (c : Bundle) =>
          gives ((u.trap k (u.gridOf k) code arg st.faultVa (st.pc + .ofNat 57 (4 * c.length))).wake (strandCore k)) 0
        (x.getLsbD 21 = false → exec (.unpark d a) s = gives (t.wake (strandCore k)) 0) ∧
        (∀ c cls, x.getLsbD 21 = true → t.fetch k st = .bundle c cls →
          ((∀ w, s.waves.find (strandWave k) = some w → w.partner = none ∨ w.trailing = true) →
            exec (.unpark d a) s = traps t c) ∧
          (∀ w, s.waves.find (strandWave k) = some w → w.partner ≠ none → w.trailing = false → t.faultsAlone k st = false →
            exec (.unpark d a) s =
              traps (t.modStrand k fun y => y.faultShared (t.core (strandCore k)).issueCount code arg st.faultVa) c))) ∧
      (512 ≤ x.toNat → exec (.swapctx d a) s = gives s 3) ∧
      (x.toNat < 512 → ((s.core x.toNat).halted = true ∨ s.retiredCore x.toNat = true) → exec (.swapctx d a) s = gives s 2) ∧
      (x.toNat < 512 → (s.core x.toNat).halted = false → s.retiredCore x.toNat = false →
        asks (.swapctx d a) (.swap e.key d.toNat x.toNat) ∧
        ∀ u, exec (.swapctx d a) s = .next u → (u.core x.toNat).swaps = (s.core x.toNat).swaps ++ [some s.nextId])) ∧
    (∀ (pa : Dword) (x : Word), ReadsPair e a.toNat pa → Reads e b.toNat x →
      let bank := saveBank x.toNat
      let good := x.toNat < 2 ^ 10 ∧ pa.toNat % 65536 = 0 ∧ pa.toNat < 2 ^ 52
      (¬good → exec (.ctxsave d a b) s = gives s 3 ∧ exec (.ctxload d a b) s = gives s 3) ∧
      (good → s.activeBank (bankCore bank) = bank →
        exec (.ctxsave d a b) s = gives s 1 ∧ exec (.ctxload d a b) s = gives s 1) ∧
      (good → s.activeBank (bankCore bank) ≠ bank →
        ((s.bank bank).asid = none → exec (.ctxsave d a b) s = gives s 2) ∧
        ((s.bank bank).asid ≠ none → asks (.ctxsave d a b) (.ctxsave e.key d.toNat bank pa.toNat) ∧
          exec (.ctxload d a b) s = gives s 2) ∧
        ((s.retiredCore (bankCore bank) = true ∨ (s.core (bankCore bank)).halted = true) →
          exec (.ctxload d a b) s = gives s 2) ∧
        ((s.bank bank).asid = none → s.retiredCore (bankCore bank) = false → (s.core (bankCore bank)).halted = false →
          asks (.ctxload d a b) (.ctxload e.key d.toNat bank pa.toNat)))) ∧
    (∀ (va : Dword) (x : Word) (st : Strand), ReadsPair e a.toNat va → Reads e b.toNat x → x.toNat < 2 ^ 23 →
      tlbinvLevel x.toNat ≤ e.level → s.strands.find e.key = some st → (∀ ids ap, st.life ≠ .waiting (.acks ids ap)) →
      s.ownOutstanding e.key = false → (e.isContained = true → s.allCompared e.wave.team = true) →
      let c := if e.isContained then s.commit e.wave.team else s
      let t := c.writeBackAll e.cores
      let out := t.releaseIds e.cores e.key 5 e.revision false
      let kind := x.toNat / 2 ^ 21
      let asid := x.toNat % 2 ^ 13
      let vmid := x.toNat / 2 ^ 13 % 2 ^ 8
      t.stillOut out.1 out.2 = [] → ∃ u, exec (.tlbinv a b) s = .next u ∧ u.mem = s.mem ∧
        u.pending = s.pending.set t.nextId (.tlbinv e.key kind asid vmid va.toNat (t.accessIds kind asid vmid va.toNat)
          (t.walks.map (·.id))) ∧
        (∀ c, (u.core c).tlb = (t.core c).tlb.filter fun y => !y.matches kind asid vmid va.toNat) ∧
        (∀ c, (u.cluster c).tlb = (t.cluster c).tlb.filter fun y => !y.matches kind asid vmid va.toNat) ∧
        (e.isContained = true → ∀ y, u.teams.find e.wave.team = some y → y.exposed = true) ∧
        u.strands.find e.key = some { e.st.tick 1 with life := .waiting (.reply t.nextId) }) ∧
    (∀ x y : Word, 2 ≤ e.level → Reads e a.toNat x → Reads e b.toNat y →
      let lane := x.toNat % 2 ^ 7
      let core := y.toNat % 2 ^ 9
      let old := lmapState ((s.core core).lmapReg lane)
      let state := x.toNat / 2 ^ 8 % 4
      s.scribeToMove core = false →
      let good := x.toNat < 2 ^ 16 ∧ x.toNat / 2 ^ 7 % 2 = 0 ∧ y.toNat < 2 ^ 9 ∧ lane ≤ 64 ∧ state ≠ 2 ∧ old < 2
      (¬good → exec (.lmapw d a b) s = gives s 3) ∧
      (good → s.coreResident core = true → exec (.lmapw d a b) s = gives s 2) ∧
      (good → s.coreResident core = false → exec (.lmapw d a b) s = gives (s.modCore core fun c =>
        { c with lmap := c.lmap.set lane (.ofNat 32 (state * 64 + if state = 0 then x.toNat / 2 ^ 10 % 64 else 0)) }).losePin 0))

/-- R228, R259, R261, R262, R263, R264, R265, R219, R307, R324, R325, R362: what ends a request. A TLBINV, once no
walk that was under way is left, drops the matching entries again and awaits the accesses that have used them; once
these have ended, no TLB holds a matching entry and the strand goes on. A bank swap makes the other bank active and
releases the latched A, or refuses an empty one and a halted core; a swap back that priority 3 no longer needs is
asked for. CTXSAVE kills a team whose tiles have an uncorrectable word; else it writes the save area, so that every
die sees it, and frees the bank; CTXLOAD puts the context that the area's bytes hold into the bank, as often as it is
asked. The places of the fields within a record, and what becomes of a team that died meanwhile, are log 11, what a
save and a swap wait for log 36, and when a stopped copy may try again log 49: the model's choices. -/
def Obligations.SystemCompletions : Prop :=
  (∀ (s : State) (id k kind asid vmid va : Nat) (accesses walks : List Nat),
    s.pending.find id = some (.tlbinv k kind asid vmid va accesses walks) →
    let left := s.dropEntries kind asid vmid va
    let clear := ∀ w ∈ s.walks, w.id ∉ walks ∧ s.walkOverlaps w kind asid vmid = false
    (¬clear → exec (.tlbinvComplete id) s = .next s) ∧
    (clear → walks ≠ [] → exec (.tlbinvComplete id) s = .next { left with
      pending := s.pending.set id (.tlbinv k kind asid vmid va (accesses ++ left.accessIds kind asid vmid va) []) }) ∧
    (clear → walks = [] → s.awaits accesses false = false →
      ∃ u, exec (.tlbinvComplete id) s = .next u ∧ u.mem = s.mem ∧ u.pending = s.pending.drop id ∧
        (∀ c, (u.core c).tlb = (s.core c).tlb.filter fun t => !t.matches kind asid vmid va) ∧
        (∀ c, (u.cluster c).tlb = (s.cluster c).tlb.filter fun t => !t.matches kind asid vmid va) ∧
        (∀ b, ∀ c ∈ (u.bank b).copies, c.stopped ≠ none → c.retry = true) ∧
        ∀ st, s.strands.find k = some st → st.life = .waiting (.reply id) →
          ∃ t, u.strands.find k = some t ∧ t.life = .ready ∧ t.pc = st.pc)) ∧
  (∀ (s : State) (core : Nat) (reply : Option Nat) (rest : List (Option Nat)), (s.core core).swaps = reply :: rest →
    (∀ i, s.issue = some i → i.core ≠ core) → (s.core core).active < 2 →
    (∀ r ∈ (s.core core).results, waveBank (strandWave r.strand) = s.activeBank core → r.unit = 0) →
    let other := bankNo core (1 - (s.core core).active)
    let refuses := (s.bank other).asid = none ∨ (s.core core).halted = true
    ∃ u, exec (.bankSwap core) s = .next u ∧ u.mem = s.mem ∧
      (refuses → (u.core core).active = (s.core core).active ∧ (u.core core).swaps = rest) ∧
      (¬refuses → (u.core core).active = 1 - (s.core core).active ∧ (u.core core).latch = none ∧
        (u.core core).swaps = (if (s.core core).prio3 = true ∧ rest = [] ∧ s.hasPrio3 other = false then [none] else rest) ∧
        u.bank (s.activeBank core) = (s.bank (s.activeBank core)).endRun ∧
        ∀ w ∈ s.watches, waveBank (strandWave w.strand) = other → { w with written := true } ∈ u.watches)) ∧
  (∀ (s : State) (id k d bank pa : Nat), s.pending.find id = some (.ctxsave k d bank pa) →
    s.activeBank (bankCore bank) ≠ bank → (s.bank bank).asid ≠ none →
    (∀ x ∈ (s.core (bankCore bank)).l1, x.dirty = []) → s.saveBusy bank = false →
    (∀ t, s.faultyTiles bank = some t → exec (.ctxsaveComplete id) s =
      .next (s.killTeam t 0x11 { ErrorRec.blank with core := bankCore bank })) ∧
    (s.faultyTiles bank = none →
    let image := s.saveImage id bank pa
    s.runOwned pa (slotsSize image.slots) = false →
    ∃ u, exec (.ctxsaveComplete id) s = .next u ∧ u.device.saved = image :: s.device.saved.filter (·.pa ≠ pa) ∧
      (MemoryOk s → image.area.length < 2 ^ 50 → u.peek pa image.area.length = image.area) ∧
      image.waves = (s.waves.filter fun p => waveBank p.1 = bank) ∧ image.strands = s.bankStrands bank ∧
      image.teams = (s.teams.filter fun p => p.2.residesIn bank) ∧
      u.bank bank = Bank.reset ∧ (∀ p ∈ u.waves, waveBank p.1 ≠ bank) ∧
      ∀ p ∈ u.strands, waveBank (strandWave p.1) ≠ bank)) ∧
  (∀ (s : State) (id k d bank pa : Nat), s.pending.find id = some (.ctxload k d bank pa) →
    let t : State := { s with pending := s.pending.drop id }
    let gives := fun (t : State) (code : Word) => Safety.next (t.deliver k id d [(code, false)])
    let other := (s.bank (if bank % 2 = 0 then bank + 1 else bank - 1)).mapping
    (s.activeBank (bankCore bank) = bank → exec (.ctxloadComplete id) s = gives t 1) ∧
    (s.activeBank (bankCore bank) ≠ bank →
      ((s.bank bank).asid ≠ none → exec (.ctxloadComplete id) s = gives t 2) ∧
      ((s.bank bank).asid = none →
        (s.peekNum pa 4 ≠ 0x53564143 ∨ s.peekNum (pa + 4) 2 ≠ 1 ∨ t.savedAt pa = none →
          exec (.ctxloadComplete id) s = gives t 4) ∧
        (∀ x, s.peekNum pa 4 = 0x53564143 → s.peekNum (pa + 4) 2 = 1 → t.savedAt pa = some x →
          let full := x.areasFit = false ∨ (x.bank.mapping = 16 ∧ other ≠ 0) ∨ (x.bank.mapping ≠ 0 ∧ other = 16)
          (full → exec (.ctxloadComplete id) s = gives t 5) ∧
          (¬full → exec (.ctxloadComplete id) s = gives (t.restore x bank) 0)))))

/-! ### Fetch, faults, dies -/

/-- R15, R170, R319, R322, R325, R25, R305, R249, R252, R258, R326, R327: FETCH_FILL puts the line of the word that a
strand waits for into the instruction cache once nothing is in its way at its slice, with the SYS of its page, and the
strand's wait count begins at 0 (R164); it parks the strand with a fault of the translation, and asks the walker where
that misses. TRANSLATION_WALK, for one of the walks that have a slot, and WALK_LOCK_REREAD, once the locked line was
written, give the lanes that share a walk what it finds, the entry kept in both TLBs, or keep the walk at the locked
descriptor; a read that is held back leaves the walk as it is. HANDLER_ENTRY starts the handler once the queued
results have arrived; PARITY_ROLLBACK takes the strand back to REGIONPC with its window empty, the requests of that
window and the queued results of the region gone, the second time in one region it kills the team. A parked strand
stands at its bundle with the park count of its place one higher and the code in its fault registers; its record is
held behind older ones of its queue, or written at TAIL of the queue's ring, TAIL advancing by one and no other byte
of memory changing; without a ring the grid aborts with XLATE. FAULT_RECORD_DELIVER writes the oldest held record
whose queue has space. -/
def Obligations.FetchAndParking : Prop :=
  ((∀ (s : State) (k va : Nat) (st : Strand), s.strands.find k = some st → s.awake k st = true →
     s.fetch k st = .missing va →
     let core := strandCore k
     let found := s.fetchAt core (s.asidOf k) (s.versionOf k) (s.levelOf k) va
     (∀ pa sys, found = .ok (pa, sys) → s.sliceOpen (coreDie core) pa s.nextId = true →
       ∃ u, exec (.fetchFill k) s = .next u ∧ u.mem = s.mem ∧ u.strands.find k = some { st with wait := 0 } ∧
         ∃ l ∈ (u.core core).icache, l.asid = s.asidOf k ∧ l.version = s.versionOf k ∧ l.line = va / 256 ∧ l.sys = sys ∧
           l.bytes = s.peek (pa / 256 * 256) 256) ∧
     (∀ pa sys, found = .ok (pa, sys) → s.sliceOpen (coreDie core) pa s.nextId = false → exec (.fetchFill k) s = .next s) ∧
     (∀ v, found = .error (.walk v) →
       exec (.fetchFill k) s = .next ((s.askWalk (.fetch k) core (s.asidOf k) v).getD s)) ∧
     (∀ code v kind reason stage level ipa vmid, found = .error (.park code v kind reason stage level ipa vmid) →
       exec (.fetchFill k) s = .next (s.park k (s.gridOf k) code v kind reason stage level ipa vmid))) ∧
   (∀ (s : State) (w : Walk) (reads : List Nat), s.walks.find? (·.id = w.id) = some w →
     ((w.locked = none ∧ s.hasSlot w = true → exec (.translationWalk w.id) s = .next (s.walked w)) ∧
      (w.locked = none ∧ s.hasSlot w = false → exec (.translationWalk w.id) s = .next s) ∧
      (w.locked ≠ none → w.written = true → exec (.walkLockReread w.id) s = .next (s.walked w)) ∧
      (w.locked ≠ none → w.written = false → exec (.walkLockReread w.id) s = .next s)) ∧
     (∀ t, s.walkNow w = (.entry t, reads) →
       (∀ k st, s.strands.find k = some st → (s.walked w).strands.find k =
         some (if st.life = .waiting (.walk w.id) then { st with life := .ready } else st)) ∧
       (s.walked w).walks = s.walks.filter (·.id ≠ w.id) ∧ t ∈ ((s.walked w).core w.core).tlb ∧
       t ∈ ((s.walked w).cluster (coreCluster w.core)).tlb) ∧
     (∀ pa, s.walkNow w = (.locked pa, reads) → (s.walked w).strands = s.strands ∧
       { w with locked := some (memKey pa / 256), written := false } ∈ (s.walked w).walks) ∧
     (s.walkNow w = (.held, reads) → s.walked w = s)) ∧
   (∀ (s : State) (k code : Nat) (va : Dword) (pc skip : VAddr) (st : Strand), s.strands.find k = some st →
     st.life = .waiting (.handler code va pc skip) → s.queued k = false →
     let base := (s.bank (waveBank (strandWave k))).trapBase
     let again := if code % 256 = 9 ∨ code % 256 = 10 then skip else pc
     exec (.handlerEntry k) s = .next (s.setStrand k (st.enterHandler (base.setWidth 57) (strandLane k) (.ofNat 32 code)
       (pc.setWidth 64) va again skip (decide (code % 256 = 10))))) ∧
   (∀ (s : State) (k n : Nat) (st : Strand) (w : Wave), s.strands.find k = some st →
     s.waves.find (strandWave k) = some w → s.awake k st = true → n < w.alloc →
     (n ∉ st.parityErrors → w.partner = none → ∃ u t, exec (.parityRollback k n) s = .next u ∧ u.mem = s.mem ∧
       u.strands.find k = some t ∧ t.pc = st.regionPc ∧ t.window = [] ∧ t.regs = st.regs ∧ t.parityErrors = n :: st.parityErrors ∧
       t.life = .ready ∧ t.handler = st.handler ∧
       (∀ r ∈ (u.core (strandCore k)).results, r.strand = k → r.count < st.regionCount) ∧
       ∀ x ∈ st.window, ∀ id, x.tag = some id → ∀ l ∈ u.loads, l.strand = k → l.id ≠ id) ∧
     (n ∈ st.parityErrors ∨ w.partner ≠ none →
       exec (.parityRollback k n) s = .next (s.killTeam w.team 0x13 (laneError s k 0))))) ∧
  ((∀ (s : State) (k grid code va kind reason stage level ipa vmid : Nat) (st : Strand), s.strands.find k = some st →
     let cl := coreCluster (strandCore k)
     let reg := if stage = 2 then (s.cluster cl).fqBase2 else (s.cluster cl).fqBase
     let u := s.park k grid code va kind reason stage level ipa vmid
     let seq := s.parks.get k 0 + 1
     let parked : Strand := { st with
       life := .parked, seq := seq, faultCode := .ofNat 32 (strandLane k * 65536 + code % 256),
       faultPc := st.pc.setWidth 64, faultVa := .ofNat 64 va, handles := none, solo := false }
     let counted : State := { s with parks := s.parks.set k seq, strands := s.strands.set k parked }
     let bytes := faultBytes (token seq k) kind reason stage level (s.gridLevel grid) (s.gridAsid grid) vmid va ipa
       st.pc.toNat
     let held := (s.cluster cl).records.any fun r => r.stage2 = decide (stage = 2)
     (ringBase reg ≠ 0 → held = true → u.strands.find k = some parked ∧ u.parks.find k = some seq ∧ u.mem = s.mem ∧
       (u.cluster cl).records = (s.cluster cl).records ++ [⟨bytes, decide (stage = 2)⟩]) ∧
     (∀ v, held = false → counted.ringPut reg bytes = some v → u = v) ∧
     (ringBase reg ≠ 0 → held = false → counted.ringPut reg bytes = none → u.strands.find k = some parked ∧ u.mem = s.mem ∧
       (u.cluster cl).records = (s.cluster cl).records ++ [⟨bytes, decide (stage = 2)⟩]) ∧
     (ringBase reg = 0 → u = State.abortGrid { s with parks := s.parks.set k seq } grid 8 (laneError s k va))) ∧
   (∀ (s : State) (reg : Dword) (record : List Byte), MemoryOk s → record.length = 64 → ringBase reg ≠ 0 →
     let b := ringBase reg
     let tail := s.peekNum (b + 256) 8
     let slot := b + 512 + 64 * (tail % ringSize reg)
     (ringSize reg ≤ tail - s.peekNum b 8 → s.ringPut reg record = none) ∧
     (tail - s.peekNum b 8 < ringSize reg → ∃ u, s.ringPut reg record = some u ∧ u.peek slot 64 = record ∧
       u.peekNum (b + 256) 8 = (tail + 1) % 2 ^ 64 ∧
       ∀ n, n ∉ (span slot 64 ++ span (b + 256) 8).map memKey → Memory.read u.mem n = Memory.read s.mem n)) ∧
   (∀ (s v : State) (cl : Nat) (r : FaultRec) (rest : List FaultRec), (s.cluster cl).records = r :: rest →
     s.ringPut (if r.stage2 then (s.cluster cl).fqBase2 else (s.cluster cl).fqBase) r.bytes = some v →
     ∃ u, exec (.faultRecordDeliver cl) s = .next u ∧ u.mem = v.mem ∧ (u.cluster cl).records = rest) ∧
   (∀ (s v : State) (cl : Nat) (r x : FaultRec), (s.cluster cl).records = [r, x] → r ≠ x →
     s.ringPut (if r.stage2 then (s.cluster cl).fqBase2 else (s.cluster cl).fqBase) r.bytes = none →
     s.ringPut (if x.stage2 then (s.cluster cl).fqBase2 else (s.cluster cl).fqBase) x.bytes = some v →
     ∃ u, exec (.faultRecordDeliver cl) s = .next u ∧ u.mem = v.mem ∧ (u.cluster cl).records = [r]))

/-- R315, R353, R354: a die applies the first update of a home once its clock allows, the clock then counts the
writer's write, and its replica of the line gets the bytes; a write that is not applicable waits. An evicted replica
is gone. A line moves to the near slice of a cluster that made 12 of its last 16 requests. None of them changes
memory. -/
def Obligations.DieEvents : Prop :=
  (∀ (s : State) (home die : Nat) (u : Update), s.updates.find? (fun u => u.home = home && u.die = die) = some u →
    let d := s.die die
    let line := match u.bytes with | (pa, _) :: _ => lineOf pa | [] => 0
    ((u.writer = die ∨ applicable d.clock u.stamp u.writer = true) →
      ∃ t, exec (.crossDieApply home die) s = .next t ∧ t.mem = s.mem ∧ t.updates = s.updates.erase u ∧
        (t.die die).clock =
          (if u.writer = die then d.clock else clockSet d.clock u.writer (clockAt u.stamp u.writer)) ∧
        (t.die die).replicas = (if u.withData then d.replicas.map fun r => if r.line = line then r.overlay u.bytes else r
          else d.replicas)) ∧
    (u.writer ≠ die → applicable d.clock u.stamp u.writer = false → exec (.crossDieApply home die) s = .next s)) ∧
  (∀ (s : State) (die line : Nat), (s.die die).replica line ≠ none →
    ∃ t, exec (.replicaEvict die line) s = .next t ∧ t.mem = s.mem ∧ (t.die die).replica line = none) ∧
  (∀ (s : State) (line cluster h : Nat), homeDie (line * 256) = some h → clusterDie cluster = h →
    (s.die h).currentSlice line / 2 ≠ cluster % 16 →
    12 ≤ (((s.die h).requests.get line []).filter (· = cluster)).length →
    ∃ t, exec (.lineMigrate line cluster) s = .next t ∧ t.mem = s.mem ∧
      (t.die h).currentSlice line = 2 * (cluster % 16) + homeSlice (line * 256) % 2)

/-! ### Teams, cores, the package -/

/-- R275, R276, R283, R284, R285, R291, R10, R366: a grid's next team whose turn it is and that has a place gets it:
the next TEAMID, empty scratch, its waves with their argument words and every live strand Ready at ENTRY with nothing
written but the park count of its place. A team that waits for its relaunch is placed again with its TEAMID, in the
same turns. A grid pinned to a lost core aborts with NOPLACE; that it does so for a team killed on a core that is lost
already is log 34: the model's choice. A team whose strands have exited and that has nothing outstanding retires: it
and its waves are gone and its grid counts it. A grid whose teams have all retired first sends the dirty bytes of the
cores that its teams used, and awaits every write on its way and every die's update; then, behind the error records
that are held for it, it writes its completion word, retires, and readies the strands that wait for it. A completion
word whose address cannot be written is left out: nothing of it reaches memory, and an error record with XLATE is
made; one whose line waits, or whose translation has to be walked, is waited for. -/
def Obligations.TeamLife : Prop :=
  ((∀ (s v : State) (g : Nat) (x : Grid) (f : Fit) (h : List HRec), s.grids.find g = some x → x.unplaced = true →
     x.launch.pin = none → s.turnOf g x x.nextTeam = true → x.launch.cooperative = false → x.launch.redundant = false →
     s.spot x.asid x.launch none none = some f → s.tableRecords x (bankCore f.bank) = .ok (h, v) → f.waves.Nodup →
     x.launch.width ≤ 64 →
     ∃ u t, exec (.teamPlace g) s = .next u ∧ u.mem = s.mem ∧
       u.grids.find g = some { x with nextTeam := x.nextTeam + 1
                                      places := dedup (x.places ++ l1Cores (bankCore f.bank) x.launch.fused) } ∧
       u.teams.find v.nextId = some t ∧ t.grid = g ∧ t.teamId = x.nextTeam ∧ t.waves = f.waves ∧ t.bank = f.bank ∧
       t.tiles = f.tiles ∧ t.tags = f.tags ∧ t.scratchSize = x.launch.scratch ∧ t.scratch = [] ∧ t.barriers = [] ∧
       t.contained = x.launch.contained ∧
       ∀ j w, f.waves[j]? = some w → j < x.launch.waves →
         (∃ v, u.waves.find w = some v ∧ v.waveId = j ∧ v.width = x.launch.width ∧ v.alloc = x.launch.budget ∧
           v.w = x.launch.args.zipIdx.map fun p => (p.2, p.1)) ∧
         ∀ l < x.launch.width, u.strands.find (strandNo w l) =
           some (Strand.fresh x.launch.entry (decide (l < x.launch.live)) (s.parks.get (strandNo w l) 0))) ∧
   (∀ (s v : State) (team : Nat) (t : Team) (x : Grid) (f : Fit) (h : List HRec), s.teams.find team = some t →
     t.waiting = true → s.grids.find t.grid = some x → t.tasks = none → s.turnOf t.grid x t.teamId = true →
     (∀ p, x.launch.pin = some p → s.retiredCore p = false ∧ (s.core p).halted = false) →
     s.spot x.asid x.launch (some t) none = some f → s.tableRecords x (bankCore f.bank) = .ok (h, v) →
     ∃ u t', exec (.teamRelaunch team) s = .next u ∧ u.mem = s.mem ∧ u.teams.find team = some t' ∧
       t'.teamId = t.teamId ∧ t'.relaunches = t.relaunches ∧ t'.waiting = false ∧ t'.waves = f.waves ∧ t'.scratch = []) ∧
   (∀ (s : State) (g core : Nat) (x : Grid), s.grids.find g = some x → x.launch.pin = some core →
     (s.retiredCore core = true ∨ (s.core core).halted = true) →
     (x.unplaced = true → exec (.teamPlace g) s = .next (s.abortGrid g 0x19 ErrorRec.blank)) ∧
     ∀ team t, s.teams.find team = some t → t.grid = g → t.waiting = true →
       exec (.teamRelaunch team) s = .next (s.abortGrid g 0x19 ErrorRec.blank))) ∧
  ((∀ (s : State) (team : Nat) (t : Team) (g : Grid), s.teams.find team = some t → s.teamDone team t = true →
     s.grids.find t.grid = some g → (s.teams.map (·.1)).Pairwise (· < ·) →
     ∃ u, exec (.teamRetire team) s = .next u ∧ u.mem = s.mem ∧ u.teams.find team = none ∧
       u.grids.find t.grid = some { g with retiredTeams := g.retiredTeams + 1 } ∧
       (∀ p ∈ u.waves, t.waves.contains p.1 = false) ∧ ∀ p ∈ u.strands, t.waves.contains (strandWave p.1) = false) ∧
   (∀ (s : State) (grid : Nat) (g : Grid), MemoryOk s → s.grids.find grid = some g → g.retired = false →
     g.unplaced = false → g.teamCount ≤ g.retiredTeams → (∀ p ∈ s.teams, p.2.grid ≠ grid) →
     (∀ p ∈ s.clusters, (∀ t ∈ p.2.pool, t.grid ≠ grid) ∧ ∀ q ∈ p.2.pushing, q.2.grid ≠ grid) →
     (∀ p ∈ s.cores, ∀ t ∈ p.2.items, t.grid ≠ grid) → (∀ p ∈ s.grids, p.2.parentGrid = some grid → p.2.retired = true) →
     s.awaits g.stores g.flushed = false →
     let word := toBytes 4 g.status ++ toBytes 4 grid
     (g.flushed = false → let t := s.writeBackAll g.places
       exec (.gridRetire grid) s = .next (t.setGrid grid
         { g with stores := t.flightsOf g.places ++ t.updates.map (·.id), flushed := true })) ∧
     let v := s.flushHeld
     let core := g.places.headD 0
     let w : State := { v with nextId := v.nextId + 1 }
     let found := w.doneCells core g word
     let retires := fun (u : State) => exec (.gridRetire grid) s = .next u ∧
       u.grids.find grid = some { g with retired := true, stores := [] } ∧
       ∀ k st d id, s.strands.find k = some st → st.life = .blocked (.grid grid d id) →
         ∃ t, u.strands.find k = some t ∧ t.life = .ready ∧ t.pc = st.pc
     (g.flushed = true → v.recordsHeld grid = true → exec (.gridRetire grid) s = .next s) ∧
     (g.flushed = true → v.recordsHeld grid = false →
       (g.launch.done = 0 → ∃ u, retires u ∧ u.mem = v.mem) ∧
       (∀ cells, g.launch.done ≠ 0 → found = .ok (some cells) → (cells.map (memKey ·.1)).Nodup →
         ∃ u, retires u ∧ ∀ c ∈ cells, Memory.read u.mem (memKey c.1) = c.2) ∧
       (g.launch.done ≠ 0 → found = .ok none → ∃ u, retires u ∧
         let t := w.errorRecord { ErrorRec.blank with code := 8, grid := grid, kind := 3, va := g.launch.done.toNat, asid := g.asid }
         u.mem = t.mem ∧ u.device = t.device) ∧
       (∀ va, g.launch.done ≠ 0 → found = .error (.walk va) →
         exec (.gridRetire grid) s = .next ((v.askWalk (.system core) core g.asid va).getD s)) ∧
       (g.launch.done ≠ 0 → found = .error .hold → exec (.gridRetire grid) s = .next s))))

/-- R177, R178, R87, R158, R166, R171, R260, R270, R272, R229, R230, R231: an idle core gates its clock and a wake
event starts it; a reset core has CLOCK 0, empty caches, its registers at their resets and the lane map of its fuses
without the lanes it has lost; a lane test, under test access, takes the lanes that failed, or else those that two
records name, out of use for good and resumes placement, the records staying, a grid that is pinned to a core that
this retires aborting; an injected failure counts the core's issues from its invocation; the host's resume ends HALT;
a matrix watchdog kills the teams with commands in progress. The lane map that a core reset leaves is log 4, and what
else it keeps log 39: the model's choices. -/
def Obligations.CoreEvents : Prop :=
  (∀ (s : State) (core : Nat), (∀ i, s.issue = some i → i.core ≠ core) → (s.core core).gated = false →
    (∀ p ∈ s.strands, (waveBank (strandWave p.1) = s.activeBank core ∨ waveBank (strandWave p.1) = 1024 + core) →
      s.running p.1 p.2 = false) →
    exec (.coreGate core) s = .next (s.modCore core fun c => { c with gated := true, woken := false })) ∧
  (∀ (s : State) (core : Nat), (s.core core).gated = true → (s.core core).woken = true →
    exec (.coreWake core) s = .next (s.modCore core fun c => { c with gated := false, woken := false })) ∧
  (∀ (s : State) (core : Nat), core < 512 → s.coreHolds core = false → s.scribeToMove core = false →
    (s.core core).swaps = [] → (∀ i, s.issue = some i → i.core ≠ core) →
    ∃ u : State, exec (.coreReset core) s = .next u.losePin ∧ u.mem = s.mem ∧ (u.core core).clock = 0 ∧
      (u.core core).lmap = (s.core core).fuseMap ∧ (u.core core).tlb = [] ∧ (u.core core).icache = [] ∧
      (u.core core).l1 = [] ∧ (u.core core).tiles = [] ∧ (u.core core).mxwd = 0x80000400 ∧
      ∀ b < 2, (u.bank (bankNo core b)).patience = 3 ∧ (u.bank (bankNo core b)).greed = 16 ∧
        (u.bank (bankNo core b)).chksb = 0) ∧
  (∀ (s : State) (core : Nat) (failed : List Nat), s.device.testAccess = true → (s.core core).held = true → s.coreHolds core = false →
    s.scribeToMove core = false →
    let c := s.core core
    let named := c.mismatches.flatMap Mismatch.physical
    ∃ u : State, exec (.laneTest core failed) s = .next u.losePin ∧ u.mem = s.mem ∧ (u.core core).held = false ∧
      (u.core core).mismatches = c.mismatches ∧
      (∀ n ≤ 64, n ∈ named → n ∈ failed → lmapState (c.lmapReg n) ≤ 1 → lmapState ((u.core core).lmapReg n) = 3) ∧
      (c.inject = none → (∀ n ∈ named, n ∉ failed) → ∀ n ≤ 64,
        2 ≤ (c.mismatches.filter fun m => m.physical.contains n).length → lmapState (c.lmapReg n) ≤ 1 →
        lmapState ((u.core core).lmapReg n) = 3)) ∧
  (∀ (s : State) (core lane issue : Nat), s.device.testAccess = true → core < 512 → lane ≤ 64 →
    exec (.failLaneInject core lane issue) s =
      .next (s.modCore core fun c => { c with inject := some (lane, c.issueCount + issue - 1) })) ∧
  (∀ (s : State) (core : Nat), (s.core core).halted = true → s.device.boot ≠ .recovery →
    exec (.hostResumeCore core) s = .next (s.modCore core fun c => { c with halted := false })) ∧
  (∀ (s : State) (core : Nat) (x : MxEntry) (rest : List MxEntry), (s.bank (s.activeBank core)).mxQueue = x :: rest →
    s.engineHeld core = false → (s.core core).mxwd.msb = true →
    ∃ u, exec (.mxwdFire core) s = .next u ∧ (u.core core).latch = none ∧ (u.core core).tiles = [] ∧
      ∀ k t, s.teams.find k = some t → (t.bank = bankNo core 0 ∨ t.bank = bankNo core 1) → t.waiting = false → t.tiles ≠ [] →
        ∀ t', u.teams.find k = some t' → t'.waiting = true ∧ t'.killed = 0x12)

/-- R364, R367, R368, R369: a level-2 write of ones clears those bits of a stack's UE and MSCCE, a scrub pass replaces
its counts; power states 0 to 7 are set; a die without resident teams and pins idles and issues nothing until it
resumes; a thermal stop stops every core until the device is below 95 degrees; DEVICE_RESET ends every context and
keeps memory and the fuses. Which teams keep a die from idling, how a thermal stop ends and what DEVICE_RESET keeps is
log 39: the model's choice. -/
def Obligations.PowerEvents : Prop :=
  (∀ (s : State) (stack : Nat) (ones : Dword), s.device.hbmClear.find stack = some ones →
    ∃ u, exec (.hbmstatClear stack) s = .next u ∧ u.mem = s.mem ∧ ∀ j < 64, (u.device.hbmStat.get stack 0).getLsbD j =
      ((s.device.hbmStat.get stack 0).getLsbD j && !(decide (32 ≤ j) && ones.getLsbD j))) ∧
  (∀ (s : State) (stack ecs rowmax : Nat), stack < 8 → ∃ u, exec (.scrubPassEnd stack ecs rowmax) s = .next u ∧
    let x := u.device.hbmStat.get stack 0
    x.toNat % 2 ^ 16 = min rowmax 65535 ∧ x.toNat / 2 ^ 16 % 2 ^ 16 = min ecs 65535 ∧
      x >>> 32 = (s.device.hbmStat.get stack 0) >>> 32) ∧
  (∀ (s : State) (p : Nat), p < 8 → s.device.boot ≠ .recovery →
    exec (.powerState p) s = .next { s with device := { s.device with power := p } }) ∧
  (∀ (s : State) (die : Nat), die < 4 → s.device.boot ≠ .recovery →
    (∀ c < 128, s.coreHolds (128 * die + c) = false) →
    (∀ p ∈ s.grids, p.2.retired = true ∨ ∀ c, p.2.launch.pin = some c → coreDie c ≠ die) →
    ∃ u, exec (.dieIdle die) s = .next u ∧ u.mem = s.mem ∧ u.strands = s.strands ∧
      ∀ core, coreDie core = die → u.issues core = false) ∧
  (∀ (s : State) (die : Nat), (s.die die).idle = true → s.device.boot ≠ .recovery →
    exec (.dieResume die) s = .next (s.modDie die fun d => { d with idle := false })) ∧
  (∀ (s : State), s.device.stopped = false → ∃ u, exec .thermalStop s = .next u ∧ ∀ core, u.issues core = false) ∧
  (∀ (s : State) (c : Nat), s.device.stopped = true → c < 95 → s.device.boot ≠ .recovery →
    ∃ u, exec (.thermalResume c) s = .next u ∧ u.mem = s.mem ∧
    u.strands = s.strands ∧ u.device = { s.device with stopped := false }) ∧
  (∀ (s : State), ∃ u, exec .deviceReset s = .next u ∧ u.mem = s.mem ∧ u.poison = s.poison ∧ u.strands = [] ∧ u.waves = [] ∧
    u.teams = [] ∧ u.grids = [] ∧ u.device.contexts = [] ∧ u.device.boot = .off ∧ u.device.ownerKey = s.device.ownerKey ∧
    u.device.rollback = s.device.rollback ∧ ∀ c, (u.core c).lmap = (s.core c).fuseMap)

/-- R15, R254, R328, R359, R360, R361, R369, R371, R378: an image adds a code version with its pages and exports to
its context, until the version numbers are used up; the management path starts its level-2 grid; a write of SCRIBEENT
with EN starts the 64 strands of the scribe wave on the cluster's lowest core; a scribe wave moves to the next core; a
signed rubric program replaces the old one. The shapes of the scribe wave and of the rubric program are log 29: the
model's choice. The rubric program takes the next entry of a command stream once it has made the writes of the entries
before and its core is not stopped. The entry does what its OP says and is then done: a launch at level 1 with its
status and GRIDID, a wait until the grids of its entry have retired, a write of eight bytes, a wait for every grid of
the stream; any other OP is answered with FFH. The value, the status, the GRIDID and HEAD are the program's next
writes, in that order. Each leaves at its turn, as a STREL.sys: once what its release orders has been seen by every
die. The number of entries of a ring is an open constant (log 18). -/
def Obligations.ManagementEvents : Prop :=
  ((∀ (s : State) (img : Image), MemoryOk s → img.asid < 8192 → s.device.boot ≠ .recovery →
     (∀ o, s.device.contexts.find img.asid = some o → ∀ w ∈ o.versions, w.number < 2 ^ 32 - 1) →
     ∃ u c v, exec (.imageLoad img) s = .next u ∧ u.device.contexts.find img.asid = some c ∧
       (∀ n, (∀ p ∈ img.contents, n ∉ (span p.1 p.2.length).map memKey) → Memory.read u.mem n = Memory.read s.mem n) ∧
       (∀ pa bytes, img.contents = [(pa, bytes)] → ((span pa bytes.length).map memKey).Nodup →
         u.peek pa bytes.length = bytes) ∧
       c.handlerEntry = .ofNat 57 img.trapEntry ∧ v ∈ c.versions ∧ v.pages = img.pages ∧ v.exports = img.exports ∧
       (∀ o, s.device.contexts.find img.asid = some o → c.revision = o.revision ∧ c.versions = o.versions ++ [v] ∧
         ∀ w ∈ o.versions, w.number < v.number) ∧
       (s.device.contexts.find img.asid = none → c.revision = img.mmr ∧ c.versions = [v])) ∧
   (∀ (s : State) (img : Image) (o : Context) (w : CodeVersion), s.device.contexts.find img.asid = some o → w ∈ o.versions →
     w.number = 2 ^ 32 - 1 → exec (.imageLoad img) s = .next s) ∧
   (∀ (s : State) (m : ManagementGrid), s.device.boot = .running → s.device.management = none → m.waves ≤ 32 → 1 ≤ m.waves →
     (m.width = 16 ∨ m.width = 32 ∨ m.width = 64) → 1 ≤ m.live → m.live ≤ m.width → 16 ≤ m.budget → m.budget ≤ 128 →
     m.budget % 8 = 0 → m.scratch % 256 = 0 → m.scratch ≤ 655360 →
     ∃ u g, exec (.managementGridStart m) s = .next u ∧ u.mem = s.mem ∧
       u.device.management = some s.device.nextGrid ∧ u.grids.find s.device.nextGrid = some g ∧ g.level = 2 ∧ g.asid = 0 ∧
       g.launch.entry = .ofNat 57 m.entry ∧ g.nextTeam = 0) ∧
   (∀ (s : State) (cl : Nat), (s.cluster cl).scribeStart = true → s.scribeLive cl = false → ∀ core, s.scribeCore cl = some core →
     ∃ u w, exec (.scribeentWrite cl) s = .next u ∧ u.mem = s.mem ∧ (u.cluster cl).scribe = some w ∧ waveBank w = 1024 + core ∧
       (u.cluster cl).scribeStart = false ∧ ∀ l < 64, u.strands.find (strandNo w l) =
         some (Strand.fresh (.ofNat 57 ((s.cluster cl).scribeEnt.toNat / 16 % 2 ^ 53 * 16)) true (s.parks.get (strandNo w l) 0))) ∧
   (∀ (s : State) (cl w core : Nat) (v : Wave), (s.cluster cl).scribe = some w → s.waves.find w = some v →
     s.waveLive w = true → s.allIdle w = true → s.bankBusy (waveBank w) = false →
     (((List.range 8).map (8 * cl + ·)).find? fun c => decide (bankCore (waveBank w) < c) && !s.retiredCore c) = some core →
     (∀ x ∈ (s.core (bankCore (waveBank w))).l1, x.dirty = []) → (∀ f ∈ s.flights, f.core ≠ bankCore (waveBank w)) →
     (s.waves.map (·.1)).Pairwise (· < ·) → (s.strands.map (·.1)).Pairwise (· < ·) → waveNo (scribeBank core) 32 ≠ w →
     ∃ u, exec (.scribeMove cl) s = .next u ∧ u.mem = s.mem ∧ (u.cluster cl).scribe = some (waveNo (scribeBank core) 32) ∧
       u.waves.find (waveNo (scribeBank core) 32) = some v ∧ u.waves.find w = none ∧
       ∀ l < 64, ∀ st, s.strands.find (strandNo w l) = some st →
         u.strands.find (strandNo (waveNo (scribeBank core) 32) l) = some st) ∧
   (∀ (s : State) (die entry : Nat) (rest : List Nat) (img : Image) (sig key : List Byte) (streams : Dword), die < 4 → s.device.boot ≠ .recovery →
     img.asid = 0 → img.exports = entry :: rest → s.device.ownerKey = some key →
     (∀ o, s.device.contexts.find 0 = some o → ∀ w ∈ o.versions, w.number < 2 ^ 32 - 1) →
     (∀ w, (s.die die).rubric = some w → s.allIdle w = true) →
     ∃ u, exec (.rubricReplace die img sig streams) s = .next u ∧
       if Config.ecdsaVerify key (Config.sha256 img.file) sig then
         ∃ w, (u.die die).rubric = some w ∧ (u.die die).rubricDigest = Config.sha256 img.file ∧
           waveBank w = bankNo (128 * die + 127) 0 ∧
           ∀ l < 64, u.strands.find (strandNo w l) = some (Strand.fresh (.ofNat 57 entry) true (s.parks.get (strandNo w l) 0))
       else u = s)) ∧
  ((∀ (s v : State) (die stream base head : Nat) (b : List Byte), (s.die die).rubricOut = [] → stream < 64 →
     (∀ f ∈ s.flights, f.core ≠ rubricCore die) → s.engineStopped (rubricCore die) = false →
     s.streamEntry die stream = .ok (base, head, b, v) →
     let op := bytesAt b 0 4
     let who : Launcher := { die := die, asid := 0, level := 1, prio := 3, depth := 0, team := none, grid := none }
     (∀ status g t, op = 1 → v.launchGrid who (b.drop 128) true = some (status, g, t) →
       let noted := if status = 0 then
           t.modDie die fun d => { d with streams := d.streams.set stream (d.streams.get stream [] ++ [(head, g)]) } else t
       exec (.streamLaunch die stream) s = .next (noted.streamDone die base head status (some g))) ∧
     (op = 1 → v.launchGrid who (b.drop 128) true = none → exec (.streamLaunch die stream) s = .next s) ∧
     (op = 2 → (∀ p ∈ v.streamGrids die stream, p.1 = bytesAt b 8 8 → v.gridRetired p.2 = true) →
       exec (.streamWaitgrid die stream) s = .next (v.streamDone die base head 0 none)) ∧
     (op = 2 → (∃ p ∈ v.streamGrids die stream, p.1 = bytesAt b 8 8 ∧ v.gridRetired p.2 = false) →
       exec (.streamWaitgrid die stream) s = .next s) ∧
     (op = 3 → exec (.streamWrite die stream) s = .next ((v.modDie die fun d =>
       { d with rubricOut := d.rubricOut ++ [(bytesAt b 8 8 % 2 ^ 57, (b.drop 16).take 8)] }).streamDone die base head 0 none)) ∧
     (op = 4 → (∀ p ∈ v.streamGrids die stream, v.gridRetired p.2 = true) →
       exec (.streamDrain die stream) s = .next (v.streamDone die base head 0 none)) ∧
     (op = 4 → (∃ p ∈ v.streamGrids die stream, v.gridRetired p.2 = false) → exec (.streamDrain die stream) s = .next s) ∧
     ((op = 0 ∨ 4 < op) → exec (.streamBadOp die stream) s = .next (v.streamDone die base head 0xFF none))) ∧
   (∀ (s : State) (die base head status : Nat) (grid : Option Nat),
     let entry := base + 512 + 256 * (head % Config.streamEntries)
     ((s.streamDone die base head status grid).die die).rubricOut = (s.die die).rubricOut ++ [((entry + 4) % 2 ^ 57, toBytes 4 status)] ++
       (match grid with | some g => [((entry + 8) % 2 ^ 57, toBytes 8 g)] | none => []) ++ [(base % 2 ^ 57, toBytes 8 (head + 1))]) ∧
   (∀ (s : State) (die stream va : Nat) (bytes : List Byte) (rest : List (Nat × List Byte)), (s.die die).rubricOut = (va, bytes) :: rest →
     let core := rubricCore die
     let orders := s.releaseIds [core] (strandNo ((s.die die).rubric.getD 0) 0) 6 0 false
     ∀ i ∈ [Instr.streamLaunch die stream, .streamWaitgrid die stream, .streamWrite die stream, .streamDrain die stream,
         .streamBadOp die stream],
       ((s.engineStopped core = true ∨ s.awaits orders.1 orders.2 = true) → exec i s = .next s) ∧
       (∀ cells : List Host.Cell, s.engineStopped core = false → s.awaits orders.1 orders.2 = false →
         cells.map (·.2) = bytes →
         (∀ k pa, (cells.map (·.1))[k]? = some pa → s.translateNow core 0 1 ((va + k) % 2 ^ 57) 1 kStore = .ok pa) →
         exec i s = .next ((splitSectors cells).foldl (fun s l => s.launchFlight core none l false none)
           (s.modDie die fun d => { d with rubricOut := rest })))))

/-- R333, R340, R370, R371, R373, R374, R376, R377: a store of the host, of a peer in its link's sequence, or through
the inbound region of a network window, writes exactly its bytes once the copies that own its lines have finished and,
where it is ordered, the agent's earlier writes have reached every die; a duplicate of the sequence is discarded; a
compare and swap writes where the bytes are the expected ones; a retransmission changes nothing. A link that fails is
down until it comes up again; a failed window gets its ERR bit. -/
def Obligations.OutsideAccesses : Prop :=
  (∀ (s : State) (pa : Nat) (bytes : List Byte), MemoryOk s → bytes ≠ [] → isDevice (pa + bytes.length - 1) = true →
    let wrote := fun (u : State) => ((span pa bytes.length).map memKey).Nodup ∧ u.peek pa bytes.length = bytes ∧
      ∀ n, n ∉ (span pa bytes.length).map memKey → Memory.read u.mem n = Memory.read s.mem n
    (∀ release, s.outsideMay 0 pa bytes.length release = true →
      (∃ u, exec (.hostAccess (.store pa bytes) release) s = .next u ∧ wrote u) ∧
      exec (.hostAccess (.load pa bytes.length) release) s = .next s ∧
      (∀ expected, expected.length = bytes.length → s.poisonedAt pa = false →
        (s.peek pa bytes.length = expected → ∃ u, exec (.hostAccess (.cas pa expected bytes) release) s = .next u ∧ wrote u) ∧
        (s.peek pa bytes.length ≠ expected → exec (.hostAccess (.cas pa expected bytes) release) s = .next s)) ∧
      (∀ value, s.poisonedAt pa = false → toBytes bytes.length (s.peekNum pa bytes.length + value) = bytes →
        ∃ u, exec (.hostAccess (.add pa bytes.length value) release) s = .next u ∧ wrote u)) ∧
    (∀ link seq, link < 8 → (s.device.link link).up = true → seq = (s.device.link link).received →
      s.outsideMay (1 + link) pa bytes.length true = true →
      ∃ u, exec (.peerAccess link seq (.store pa bytes)) s = .next u ∧ wrote u ∧ (u.device.link link).received = seq + 1 ∧
        exec (.peerAccess link seq (.store pa bytes)) u = .next u) ∧
    (∀ window offset rva len, s.windowEntry window = some (true, rva, len) →
      let entry := s.device.nwtBase.toNat / 2 ^ 12 % 2 ^ 40 * 4096 + 64 * window
      pa = s.peekNum (entry + 32) 8 + offset → offset + bytes.length ≤ s.peekNum (entry + 40) 8 →
      isDevice (s.peekNum (entry + 32) 8 + s.peekNum (entry + 40) 8 - 1) = true →
      s.outsideMay (16 + s.queuePair window) pa bytes.length true = true →
      ∃ u, exec (.inboundRdmaWrite window offset bytes) s = .next u ∧ wrote u)) ∧
  (∀ (s : State) (link seq : Nat), exec (.luteFlitRetransmit link seq) s = .next s) ∧
  (∀ (s : State) (link : Nat), link < 8 →
    ((s.device.link link).up = true → ∃ u, exec (.linkdown link) s = .next u ∧ (u.device.link link).up = false ∧
      ∀ pa, isPeer pa = true → peerOf pa = link → u.linkLost pa = true) ∧
    ((s.device.link link).up = false → s.linkBusy link = false → ∃ u, exec (.luteLinkUp link) s = .next u ∧ u.mem = s.mem ∧
      (u.device.link link).up = true)) ∧
  (∀ (s : State) (w rva len : Nat), s.windowEntry w = some (true, rva, len) →
    (∀ p ∈ s.banks, ∀ c ∈ p.2.copies, c.windows.contains w = false) → ringBase s.device.errBase = 0 → MemoryOk s →
    let entry := s.device.nwtBase.toNat / 2 ^ 12 % 2 ^ 40 * 4096 + 64 * w
    s.ownedByCopy (lineOf entry) = false →
    ∃ u, exec (.neterr w) s = .next u ∧ u.peekNum entry 1 = s.peekNum entry 1 ||| 2 ∧
      ∀ n, n ≠ memKey entry → Memory.read u.mem n = Memory.read s.mem n)

/-- R359, R378, R379, R380: firmware that the root key verifies and the rollback counter allows runs, and with it the
rubric program that the device was given, on each die, where the owner key verifies it; any other firmware leaves
recovery, which only firmware that passes the same checks ends, and in which nothing else from outside is taken. The
report binds the nonce, the digests, each in its 32 bytes, and the test-access bit under the identity key. The owner
key is enrolled once, and unlocks test access. What an unlock signs and the digest of what has not run are log 10, the
rubric program's shape and start log 29, and that the report names the program of die 0 log 39: the model's choices.
-/
def Obligations.BootAndIdentity : Prop :=
  (∀ (s : State) (f : SignedBlob),
    let ok := Config.ecdsaVerify s.device.rootKey (Config.sha256 f.bytes) f.signature && decide (s.device.rollback ≤ f.version)
    let starts := fun (i : Instr) (given failed : Device) =>
      let runs := Safety.next { s with device := { given with boot := .running, firmwareDigest := Config.sha256 f.bytes } }
      (ok = false → exec i s = .next { s with device := failed }) ∧
      (ok = true → given.rubricImage = none → exec i s = runs) ∧
      (∀ rubric sig streams, ok = true → given.rubricImage = some (rubric, sig, streams) →
        ((rubric.exports = [] ∨ rubric.asid ≠ 0 ∨ ∀ key, s.device.ownerKey = some key →
          Config.ecdsaVerify key (Config.sha256 rubric.file) sig = false) → exec i s = runs) ∧
        (∀ key entry rest, s.device.ownerKey = some key → Config.ecdsaVerify key (Config.sha256 rubric.file) sig = true →
          rubric.exports = entry :: rest → rubric.asid = 0 →
          (∀ o, s.device.contexts.find 0 = some o → ∀ w ∈ o.versions, w.number < 2 ^ 32 - 1) →
          ∃ u, exec i s = .next u ∧ u.device.boot = .running ∧ u.device.firmwareDigest = Config.sha256 f.bytes ∧
            ∀ d < 4, ∃ w, (u.die d).rubric = some w ∧ (u.die d).rubricDigest = Config.sha256 rubric.file ∧
              ∀ l < 64, u.strands.find (strandNo w l) =
                some (Strand.fresh (.ofNat 57 entry) true (s.parks.get (strandNo w l) 0))))
    (∀ rubric sig streams, s.device.boot = .off →
      let given := { s.device with rubricImage := some (rubric, sig, streams) }
      starts (.boot f rubric sig streams) given { given with boot := .recovery }) ∧
    (s.device.boot = .recovery → starts (.firmwareRecovery f) s.device s.device)) ∧
  (∀ (s : State) (nonce : List Byte), nonce.length = 32 → s.device.boot ≠ .recovery →
    let field := fun (l : List Byte) => (l ++ List.replicate 32 0).take 32
    let body := toBytes 4 0x54415453 ++ toBytes 2 1 ++ toBytes 2 s.device.imageDigests.length ++ nonce
      ++ field s.device.firmwareDigest ++ field (s.die 0).rubricDigest ++ toBytes 4 (if s.device.testAccess then 1 else 0)
      ++ toBytes 4 0 ++ s.device.imageDigests.flatMap field
    exec (.attestationReport nonce) s =
      .next { s with device := { s.device with report := body ++ Config.identitySign body } }) ∧
  (∀ (s : State) (key sig : List Byte), s.device.boot ≠ .recovery →
    (s.device.ownerKey = none →
      exec (.ownerKeyEnrol key) s = .next { s with device := { s.device with ownerKey := some key } }) ∧
    (s.device.ownerKey ≠ none → exec (.ownerKeyEnrol key) s = .next s) ∧
    (s.device.ownerKey = some key → exec (.testUnlock sig) s =
      .next (if Config.ecdsaVerify key (Config.sha256 []) sig then { s with device := { s.device with testAccess := true } }
        else s))) ∧
  (∀ (s : State) (l : List Byte) (img : Image) (n : Nat) (sig : List Byte) (streams : Dword) (acc : Access) (release : Bool),
    s.device.boot = .recovery →
    ∀ i ∈ [Instr.attestationReport l, .ownerKeyEnrol l, .testUnlock l, .imageLoad img, .rubricReplace n img sig streams,
        .hostAccess acc release, .powerState n, .dieIdle n, .dieResume n, .hostResumeCore n, .thermalResume n],
      exec i s = .next s)

/-! ### What is left unchanged, and the window -/

/-- R16, R17, R18, R86, R100: an arithmetic, move, predicate or float instruction of a lane that runs alone and is not
stopped changes its own strand, its core's result queues and CLOCK, and the issue's sample of CLOCK: no memory, no
other strand, no wave, team or bank. In the strand, the count grows by 1, the pc is the next word, and every register
and predicate but its destination holds the newest value that it held; FSTAT changes only where the instruction has
flags. -/
def Obligations.RegisterFrame : Prop :=
  ∀ (s u : State) (e : Env) (i : Instr) (ds : List Dst), s.env = some e → Alone e → computes i = some ds →
    exec i s = .next u → (∃ x, u = s.stop e x) ∨
    { u with strands := s.strands, cores := s.cores, issue := s.issue, nextId := s.nextId, freeCount := s.freeCount } = s ∧
    (u.issue = s.issue ∨ ∃ x, u.issue = s.issue.map fun i => { i with clock := some x }) ∧
    (∀ c, { u.core c with results := (s.core c).results, clock := (s.core c).clock } = s.core c) ∧
    (∀ k, k ≠ e.key → u.strands.find k = s.strands.find k) ∧
    ∃ t, u.strands.find e.key = some t ∧ t.count = e.st.count + 1 ∧ t.pc = e.st.pc ∧ t.life = .ready ∧
      t.regionPc = e.st.regionPc ∧ t.faultCode = e.st.faultCode ∧ t.faultPc = e.st.faultPc ∧ t.faultVa = e.st.faultVa ∧
      t.seq = e.st.seq ∧ t.entry = e.st.entry ∧ t.openGroup = e.st.openGroup ∧ t.closed = e.st.closed ∧
      (flagging i = false → t.fstat = e.st.fstat) ∧
      ∀ d x, d ∉ ds → writable d = true → newest e.st d = some x → newest t d = some x

/-- R11, R13, R19, R250: an instruction of the arithmetic, compare, move, address and float classes that waits for
nothing takes ILLOP where a register that it names lies at or above the wave's allocation, whatever its operands hold;
where all of them exist, it takes STALE when a register that it consumes would not be read as its latest write,
whatever poison the others hold; and it is consumption, with no effect of its own, when one of them is poisoned and
none is stale. MOV and SEL consume nothing. -/
def Obligations.OperandFaults : Prop :=
  ∀ (s : State) (e : Env) (i : Instr) (named used : List Nat),
    s.env = some e → operands i = some (named, used) → Unhindered s e i →
    ((∃ n ∈ named, ¬Has e n) → exec i s = faulted e 2 0) ∧
    ((∀ n ∈ named, Has e n) →
      (∀ n ∈ used, e.read n = .error (.fault 4 0 0) ∨ ∃ x p, e.read n = .ok (x, p)) →
      ((∃ n ∈ used, e.read n = .error (.fault 4 0 0)) → exec i s = faulted e 4 0) ∧
      ((∀ n ∈ used, ∃ x p, e.read n = .ok (x, p)) → (∃ n ∈ used, ∃ x, e.read n = .ok (x, true)) →
        exec i s = .next (s.stop e .poison)))

/-- R125, R133, R134, R290, R292: a store, a fence, a cache operation, a copy command or COMMIT of a lane that runs
alone, is not stopped and reaches no register area changes no byte of memory by itself; the bytes of a global store
reach memory with its performance. It leaves every register, predicate, pc and FSTAT of every other strand as they
are, and the newest value of every register and predicate and FSTAT of its own strand. -/
def Obligations.MemoryFrame : Prop :=
  ∀ (s u : State) (e : Env) (i : Instr), s.env = some e → Alone e → accesses i = true →
    (∀ n r, e.hReg n = .ok r → hKind r ≠ 2) → exec i s = .next u → (∃ x, u = s.stop e x) ∨
    (∀ n, Memory.read u.mem n = Memory.read s.mem n) ∧
    (∀ k st, k ≠ e.key → s.strands.find k = some st → ∃ t, u.strands.find k = some t ∧ t.regs = st.regs ∧
      t.preds = st.preds ∧ t.window = st.window ∧ t.pc = st.pc ∧ t.fstat = st.fstat ∧ t.handler = st.handler) ∧
    ∃ t, u.strands.find e.key = some t ∧ t.fstat = e.st.fstat ∧ t.faultCode = e.st.faultCode ∧
      t.faultPc = e.st.faultPc ∧ t.faultVa = e.st.faultVa ∧
      ∀ d x, writable d = true → newest e.st d = some x → newest t d = some x

/-- R17, R18, R19, R20: k counts after a write of latency lat, a read finds the value written once lat counts have
passed, for good, or as a transient for at most 8 counts; before and after that it finds what it would find without
the write. A predicate of an injected lane is inverted (R272; log 7: the model's choice). With CHKSB set a read that
would not find the newest write traps STALE, and any other read finds the newest write. -/
def Obligations.WindowReads : Prop :=
  (∀ (e : Env) (st : Strand) (n lat k : Nat) (x : Word) (p t : Bool), st.handler = none → e.checks = false →
    let after : Env := { e with
      st := (st.push { dst := .v n, val := x, poison := p, lat := lat, age := 0, transient := t, tag := none }).tick k }
    let without : Env := { e with st := st.tick k }
    (lat ≤ k → (t = false ∨ k ≤ 8) → after.read n = .ok (x, p)) ∧
    (k < lat ∨ (t = true ∧ 8 < k) → after.read n = without.read n)) ∧
  (∀ (e : Env) (st : Strand) (n lat k : Nat) (x : Bool), st.handler = none → e.checks = false → 0 < n → n < 8 →
    let after : Env := { e with st := (e.writePred st n x lat).tick k }
    let without : Env := { e with st := st.tick k }
    (lat ≤ k → after.pred n = .ok (x ^^ e.injected)) ∧ (k < lat → after.pred n = without.pred n)) ∧
  (∀ (e : Env) (n : Nat) (x : Word), e.checks = true →
    (stale e.st (.v n) = true → e.read n = .error (.fault 4 0 0)) ∧
    (stale e.st (.v n) = false → newest e.st (.v n) = some x → e.st.handler = none →
      (e.st.reg n).par = parity (e.st.reg n).val → ∃ p, e.read n = .ok (x, p)))

/-- R267, R268, R269, R270, R290: where the leading lane has given its values, the trailing lane takes them: a load
its registers, an instruction that is performed once what follows it, with no effect of its own; it takes a fault that
the leading lane took there. A request that is performed once (`onceRequest`: the TEAM class, copies, tags, commands
of the matrix engine and of accumulators; atomics of global memory) is entered by the leading lane, which waits; an
equal one of the trailing lane permits it, and then it is performed: COMMIT, an atomic on the store buffer, MXZ and
CPY are given. A store enters the store buffer at once with the words to compare, and the trailing lane's equal store
takes the entry away. A difference is a MISMATCH: the issue gathers the lanes that differed, at its end the core
records the two physical lanes of each, and the team is killed, to be placed on the same core again while that is
possible. That the leading lane waits at its own instruction until the comparison is log 27: the model's choice. -/
def Obligations.RedundantMode : Prop :=
  let request := fun (e : Env) (i : Instr) (req : List Word) => onceRequest e i = some req ∨
    ∃ (op : Nat) (rb : BitVec 1) (d : BitVec 7) (h : BitVec 4) (a : BitVec 7) (y : BitVec 3) (r : HRec) (x : Word)
      (words : List (Word × Bool)) (va : Nat),
      i = atomicInstr op rb d h a y ∧ AtomicElement e op h a d r x words ∧ e.locate r x.toNat 2 = .ok (.glob va) ∧
      req = reqWords va ([op, hEsize r, e.order, accessScope y.toNat r, rb.toNat] ++ words.map (·.1.toNat))
  let entry := fun (e : Env) (req : List Word) => (⟨e.bundle, e.issueNo, 0, none, req, []⟩ : PairItem)
  (∀ (s : State) (e : Env) (lead : Strand) (v : PairItem) (rest : List PairItem), s.env = some e → e.trailing = true →
    s.strands.find e.partnerKey = some lead → lead.values = v :: rest → v.seq = 0 →
    let taken := s.setStrand e.partnerKey { lead with values := rest }
    (∀ (d : BitVec 7) (h : BitVec 4) (a : BitVec 7) (y : BitVec 3) (r : HRec) (i : Word), Element e h a d r i → hKind r ≠ 2 →
      v.fault = none → exec (.ld d h a y) s = .next
        (if v.pc = e.bundle then e.retire taken (e.put e.st d.toNat (v.words.zip v.poison)) else s.mismatch e)) ∧
    (∀ i req, request e i req →
      (v.pc ≠ e.bundle → exec i s = .next (s.mismatch e)) ∧
      (v.pc = e.bundle → v.fault = none →
        ∃ t, exec i s = .next (taken.setStrand e.key t) ∧ t.pc = e.st.pc ∧ t.count = e.st.count + 1) ∧
      (∀ code arg va, v.pc = e.bundle → v.fault = some (code, arg, va) →
        exec i s = .next (taken.stop e (.fault code arg va))))) ∧
  (∀ (s : State) (e : Env) (i : Instr) (req : List Word), s.env = some e → request e i req →
    (∀ st, e.leading = true → e.st.permit = false → s.strands.find e.key = some st → st.life ≠ .waiting .pair →
      (s.pairEntries e.waveKey).length < 256 → exec i s = .next (s.setStrand e.key
        { st with life := .waiting .pair, handles := e.keepHandles, wait := 0, compares := st.compares ++ [entry e req] })) ∧
    (∀ lead c rest, e.trailing = true → s.strands.find e.partnerKey = some lead → lead.values = [] →
      lead.compares = c :: rest →
      (c.pc = e.bundle → c.words = req → lead.permit = false →
        exec i s = .next ((s.setStrand e.partnerKey { lead with permit := true }).modStrand e.key fun st =>
          { st with handles := e.keepHandles })) ∧
      (c.pc ≠ e.bundle ∨ c.words ≠ req → exec i s = .next (s.mismatch e)))) ∧
  (∀ (s : State) (e : Env), s.env = some e → e.leading = true → e.st.permit = true → e.isContained = true →
    s.ownOutstanding e.key = false → s.allCompared e.wave.team = true →
    let permitted : Strand := { e.st with permit := false, compares := e.st.compares.drop 1 }
    exec .commit s = .next (e.retire (s.commit e.wave.team) (e.told permitted)) ∧
    (∀ (op : Nat) (rb : BitVec 1) (d : BitVec 7) (h : BitVec 4) (a : BitVec 7) (y : BitVec 3) (r : HRec) (x : Word)
      (words : List (Word × Bool)) (va pa : Nat), AtomicElement e op h a d r x words →
      e.locate r x.toNat 2 = .ok (.glob va) → e.translate va 2 kAtomic = .ok pa → accessScope y.toNat r ≤ 2 →
      ∃ u m t, exec (atomicInstr op rb d h a y) s = .next u ∧ u.atomics = s.atomics ++ [m] ∧ m.pa = pa ∧ m.op = op ∧
        m.inBuffer = true ∧ m.strand = e.key ∧ u.strands.find e.key = some t ∧ t.compares = permitted.compares ∧
        t.permit = false) ∧
    (∀ (t : BitVec 4) (tile : Nat), e.tile t.toNat = .ok tile → (s.bank e.engine).mxQueue.length < 64 →
      e.st.openGroup.length < 32 → ∃ u x, exec (.mxz t) s = .next u ∧
        (u.bank e.engine).mxQueue = (s.bank e.engine).mxQueue ++ [x] ∧ x.op = .zero ∧ x.tile = tile ∧ x.team = e.wave.team) ∧
    (∀ (g : BitVec 6) (d h : BitVec 4) (a : BitVec 7) (m : BitVec 1) (req : List Word) (hd hs : HRec) (x y z : Word) (op : CopyOp),
      onceRequest e (.cpy g d h a m) = some req → e.hReg d.toNat = .ok hd → e.hReg h.toNat = .ok hs →
      Reads e a.toNat x → Reads e (a.toNat + 1) y → Reads e (a.toNat + 2) z →
      linearOp hs hd x y z e.scratchGrant = .ok op →
      ∃ u c, exec (.cpy g d h a m) s = .next u ∧ (u.bank e.engine).copies = (s.bank e.engine).copies ++ [c] ∧ c.op = op ∧
        c.hs = hs ∧ c.hd = hd)) ∧
  (∀ (s : State) (e : Env) (x : BitVec 7) (h : BitVec 4) (a : BitVec 7) (y : BitVec 3) (r : HRec) (i : Word)
    (words : List (Word × Bool)) (va : Nat), s.env = some e → e.isContained = true → Element e h a x r i → hKind r = 0 →
    e.readMany x.toNat (elementRegs (hEsize r)) = .ok words → words.any (·.2) = false →
    e.locate r i.toNat 1 = .ok (.glob va) → s.readsOutstanding e.key = false →
    let data := storeBytes (hEsize r) (words.map fun w => (e.produce w.1, w.2))
    let scope := accessScope y.toNat r
    let req := reqWords va ([hEsize r, scope, 0] ++ data.map fun b => b.1.toNat + if b.2 then 256 else 0)
    let fin := fun (t : State) (st : Strand) => if scope = 6 then e.retireRegion t st else e.retire t st
    (∀ pa, e.leading = true → e.translate va 1 kStore = .ok pa → s.ownHeld e.key pa data.bytes.length s.nextId = false →
      s.ownedByCopy (lineOf pa) = false → e.bufferRoom pa data.bytes.length = true →
      exec (.st x h a y) s = .next
        (fin ((if e.policy r = 3 then s else s.noteAccess e.lane 1 data.bytes.length va false).bufferStore e.wave.team pa data.bytes)
          { e.st with compares := e.st.compares ++ [entry e req] })) ∧
    (∀ lead c rest, e.trailing = true → s.strands.find e.partnerKey = some lead → lead.values = [] →
      lead.compares = c :: rest →
      (c.pc = e.bundle → c.words = req →
        exec (.st x h a y) s = .next (fin (s.setStrand e.partnerKey { lead with compares := rest }) e.st)) ∧
      (c.pc ≠ e.bundle ∨ c.words ≠ req → exec (.st x h a y) s = .next (s.mismatch e)))) ∧
  (∀ (s : State) (e : Env) (i : Issue), s.env = some e → s.issue = some i →
    s.mismatch e = { s with issue := some { i with differ := i.differ ++ [e.key] } }) ∧
  (∀ (s : State) (k : Nat) (rest : List Nat) (w : Wave) (team : Team), s.waves.find (strandWave k) = some w →
    s.teams.find w.team = some team → team.contained = true → team.exposed = false → team.relaunches < 3 →
    let c := s.core (strandCore k)
    let lanes := (k :: rest).map fun k =>
      (⟨strandLane k, c.physical (strandLane k) w.width false, c.physical (strandLane k) w.width true⟩ : Differed)
    let u := s.mismatchAt (k :: rest)
    (u.core (strandCore k)).mismatches = c.mismatches ++ [⟨w.team, lanes⟩] ∧
    (u.core (strandCore k)).held = (c.held || !c.mismatches.isEmpty) ∧
    ∃ t, u.teams.find w.team = some t ∧ t.waiting = true ∧ t.killed = 0x14 ∧ t.buffer = [] ∧
      t.relaunches = team.relaunches + 1 ∧ t.sameCore = some (bankCore team.bank))

/-! ### The machine as a whole -/

/-- R166, R229, R252, R253, R288, R320, R354, R361, R364, R366, R376: reset leaves the system registers at the values
that the spec gives, no team, grid or context, nothing outstanding, and memory in its canonical form. Host memory
contents and every other reset value are the model's choices (log 3, log 4). -/
def Obligations.ResetState : Prop :=
  let s := State.reset
  MemoryOk s ∧ s.mem = [] ∧ s.strands = [] ∧ s.waves = [] ∧ s.teams = [] ∧ s.grids = [] ∧ s.flights = [] ∧ s.loads = [] ∧
  s.stores = [] ∧ s.atomics = [] ∧ s.updates = [] ∧ s.pending = [] ∧ s.issue = none ∧ s.device.contexts = [] ∧
  (∀ b, (s.bank b).patience = 3 ∧ (s.bank b).greed = 16 ∧ (s.bank b).chksb = 0 ∧ (s.bank b).trapBase = 0 ∧
    (s.bank b).asid = none ∧ (s.bank b).mxQueue = [] ∧ (s.bank b).copies = []) ∧
  (∀ c, (s.core c).clock = 0 ∧ (s.core c).mxwd = 0x80000400 ∧ (s.core c).tlb = [] ∧ (s.core c).icache = [] ∧
    (s.core c).halted = false) ∧
  (∀ c, (s.cluster c).gatherWin = 64 ∧ (s.cluster c).fqBase = 0 ∧ (s.cluster c).fqBase2 = 0 ∧
    (s.cluster c).scribeEnt = 0) ∧
  (∀ d, (s.die d).clock = [0, 0, 0, 0]) ∧
  s.device.ctxTab = 0 ∧ s.device.errBase = 0 ∧ s.device.nwtBase = 0 ∧ ∀ n, s.device.hbmStat.get n 0 = 0

/-- R8, R15, R69, R74, R167, R204, R319, R322: with an issue in progress, a step executes the next lane, unless the
schedule puts an event in front of it: the lane whose bundle decodes runs its instruction with the cursor at that
bundle, and one that would stay where it is leaves the issue unserved; a bundle that is broken raises ILLOP at the
word that offends. A lane that waits for a walk that has a slot of the walker walks first, and leaves the issue where
the walk cannot go on. Of the events that the schedule puts in front of a lane only accesses of other agents come
there. A word of the instruction cache that is no hint decodes by itself, and one of a SYS page is there for system
levels alone. With no issue in progress, a step takes the schedule's next entry: it runs an event of the table, lets
an upset of the hardware happen, or starts the issue of a core that can issue; with no schedule it is what is due, or
an issue, or what passes time (log 2, log 41). -/
def Obligations.StepRunsDecoded : Prop :=
  ((∀ (s : State) (i : Issue) (k : Nat) (rest : List Nat) (st : Strand) (b : Bundle) (cls : Nat),
     s.issue = some i → i.remaining = k :: rest → (∀ x l, s.turns ≠ .inner x :: l) → s.walkOf k = none →
     s.strands.find k = some st → s.fetch k st = .bundle b cls →
     let t : State := { s with issue := some { i with remaining := rest } }
     (∀ x h, b.result = .ok (x, h) → let here : State := { t with cur := cursorOf k st b.length h }
       (exec x here ≠ .next here → step s = exec x here) ∧
       (exec x here = .next here → step s = .next
         { here with issue := some { i with remaining := rest, unserved := i.unserved + 1 } })) ∧
     (∀ j, b.result = .error j → step s = .next (t.trap k (t.gridOf k) 2 0
       ((st.pc + BitVec.ofNat 57 (4 * j)).setWidth 64) (st.pc + BitVec.ofNat 57 (4 * b.length))))) ∧
   (∀ (s : State) (i : Issue) (k : Nat) (rest : List Nat) (w : Walk),
     s.issue = some i → i.remaining = k :: rest → (∀ x l, s.turns ≠ .inner x :: l) → s.walkOf k = some w →
     let stays := w.locked = none ∧ s.hasSlot w = true ∧ (s.walkNow w).1 ≠ .held
     (stays → step s = .next (s.walked w)) ∧
     (¬stays → step s = .next { s with issue := some { i with remaining := rest, unserved := i.unserved + 1 } })) ∧
   (∀ (s : State) (i : Issue) (x : Instr) (rest : List Turn), s.issue = some i → s.turns = .inner x :: rest →
     (innerEvent x = false → step s = .next { s with turns := .event x :: rest }) ∧
     (∀ t, innerEvent x = true → exec x { s with turns := rest } = .next t →
       ∃ old, step s = .next { t with issue := t.issue.map fun j => { j with before := j.before ++ old } })) ∧
   (∀ (s : State) (k : Nat) (st : Strand) (w : Nat),
     (s.core (strandCore k)).fetchWord (s.asidOf k) (s.versionOf k) (s.levelOf k) st.pc.toNat = some w → isPrefix w = false →
     (∀ x, decodeWord w = .ok x → s.fetch k st = .bundle ⟨1, if x.wf then .ok (x, {}) else .error 0⟩ (w / 2 ^ 26)) ∧
     (∀ x, decodeWord w = .error x → s.fetch k st = .bundle ⟨1, .error 0⟩ (w / 2 ^ 26))) ∧
   (∀ (c : Core) (asid version pc : Nat), (∀ l ∈ c.icache, l.line = pc / 256 → l.sys = true) →
     c.fetchWord asid version 0 pc = none)) ∧
  (∀ (s : State), s.issue = none →
     (∀ e rest, (s.turns = .event e :: rest ∨ s.turns = .inner e :: rest) → step s = exec e { s with turns := rest }) ∧
     (∀ x rest, s.turns = .upset x :: rest → step s = .next (State.upset { s with turns := rest } x)) ∧
     (∀ core rest, s.turns = .issue core :: rest → let t : State := { s with turns := rest }
       step s = .next ((t.startIssue exec core).getD t)) ∧
     (s.turns = [] → step s = s.byDefault exec dueEvents idleEvents))

/-- R58, R64, R69, R71, R74: words and bundles written out bit by bit decode to the instructions that they stand for,
and words that the tables leave free are refused. -/
def Obligations.DecodeWords : Prop :=
  decodeWord 0x08004081 = .ok (.addImm 0 1 1 1) ∧
  decodeWord 0x1980C286 = .ok (.cmp 6 3 5 6) ∧
  decodeWord 0x20004103 = .ok (.pand 1 2 3) ∧
  decodeWord 0x54003C08 = .ok (.st 0 15 1 0) ∧
  decodeWord 0x85C00001 = .ok .trapretSkip ∧
  bundleOf [0x02000000] 0x0840C1C6 = ⟨2, .ok (.subImm 0 3 3 70, { hx := some 0 })⟩ ∧
  bundleOf [0x00800004] 0x04004081 = ⟨2, .error 0⟩ ∧
  bundleOf [] 0x88000000 = ⟨1, .error 0⟩ ∧
  (∀ minor < 16, 6 ≤ minor → decodeWord (0x20000000 + minor * 2 ^ 22) = .error .unassignedMinor)

/-- R54, R58, R71: every instruction that has a word has one of 32 bits that decodes to it, and every word that
decodes is the word of its instruction: no bit of an encoding is dropped, none is free. -/
def Obligations.RoundTrip : Prop :=
  (∀ i w, encode i = some w → w < 2 ^ 32 ∧ decodeWord w = .ok i) ∧
  (∀ i w, w < 2 ^ 32 → decodeWord w = .ok i → encode i = some w)

/-- R29, R315, R337: memory stays in its canonical form, whatever a step does. -/
def Obligations.StepKeepsMemory : Prop :=
  ∀ (s t : State), MemoryOk s → step s = .next t → MemoryOk t

end
end

