-- ==== Sys2Proof/Laws/Exec.lean ====
section
/-!
SUPPORT. Each arm of the dispatch as a rewriting rule.
-/

namespace Sys2Proof.Machine

@[simp] theorem exec_hs {n} (s : State) : exec (.hs n) s = execHs n s := rfl
@[simp] theorem exec_add {t d a b} (s : State) : exec (.add t d a b) s = execAdd t d a b s := rfl
@[simp] theorem exec_sub {t d a b} (s : State) : exec (.sub t d a b) s = execSub t d a b s := rfl
@[simp] theorem exec_and {t d a b} (s : State) : exec (.and t d a b) s = execAnd t d a b s := rfl
@[simp] theorem exec_or {t d a b} (s : State) : exec (.or t d a b) s = execOr t d a b s := rfl
@[simp] theorem exec_xor {t d a b} (s : State) : exec (.xor t d a b) s = execXor t d a b s := rfl
@[simp] theorem exec_andn {t d a b} (s : State) : exec (.andn t d a b) s = execAndn t d a b s := rfl
@[simp] theorem exec_min {t d a b} (s : State) : exec (.min t d a b) s = execMin t d a b s := rfl
@[simp] theorem exec_max {t d a b} (s : State) : exec (.max t d a b) s = execMax t d a b s := rfl
@[simp] theorem exec_minb {t d a b} (s : State) : exec (.minb t d a b) s = execMinb t d a b s := rfl
@[simp] theorem exec_maxb {t d a b} (s : State) : exec (.maxb t d a b) s = execMaxb t d a b s := rfl
@[simp] theorem exec_abs {t d a} (s : State) : exec (.abs t d a) s = execAbs t d a s := rfl
@[simp] theorem exec_addc {t d a b} (s : State) : exec (.addc t d a b) s = execAddc t d a b s := rfl
@[simp] theorem exec_subb {t d a b} (s : State) : exec (.subb t d a b) s = execSubb t d a b s := rfl
@[simp] theorem exec_adds {t d a b} (s : State) : exec (.adds t d a b) s = execAdds t d a b s := rfl
@[simp] theorem exec_subs {t d a b} (s : State) : exec (.subs t d a b) s = execSubs t d a b s := rfl
@[simp] theorem exec_neg {t d a} (s : State) : exec (.neg t d a) s = execNeg t d a s := rfl
@[simp] theorem exec_addImm {t d a i} (s : State) : exec (.addImm t d a i) s = execAddImm t d a i s := rfl
@[simp] theorem exec_subImm {t d a i} (s : State) : exec (.subImm t d a i) s = execSubImm t d a i s := rfl
@[simp] theorem exec_andImm {t d a i} (s : State) : exec (.andImm t d a i) s = execAndImm t d a i s := rfl
@[simp] theorem exec_orImm {t d a i} (s : State) : exec (.orImm t d a i) s = execOrImm t d a i s := rfl
@[simp] theorem exec_xorImm {t d a i} (s : State) : exec (.xorImm t d a i) s = execXorImm t d a i s := rfl
@[simp] theorem exec_andnImm {t d a i} (s : State) : exec (.andnImm t d a i) s = execAndnImm t d a i s := rfl
@[simp] theorem exec_minImm {t d a i} (s : State) : exec (.minImm t d a i) s = execMinImm t d a i s := rfl
@[simp] theorem exec_maxImm {t d a i} (s : State) : exec (.maxImm t d a i) s = execMaxImm t d a i s := rfl
@[simp] theorem exec_minbImm {t d a i} (s : State) : exec (.minbImm t d a i) s = execMinbImm t d a i s := rfl
@[simp] theorem exec_maxbImm {t d a i} (s : State) : exec (.maxbImm t d a i) s = execMaxbImm t d a i s := rfl
@[simp] theorem exec_addcImm {t d a i} (s : State) : exec (.addcImm t d a i) s = execAddcImm t d a i s := rfl
@[simp] theorem exec_subbImm {t d a i} (s : State) : exec (.subbImm t d a i) s = execSubbImm t d a i s := rfl
@[simp] theorem exec_addsImm {t d a i} (s : State) : exec (.addsImm t d a i) s = execAddsImm t d a i s := rfl
@[simp] theorem exec_subsImm {t d a i} (s : State) : exec (.subsImm t d a i) s = execSubsImm t d a i s := rfl
@[simp] theorem exec_shl {t d a b} (s : State) : exec (.shl t d a b) s = execShl t d a b s := rfl
@[simp] theorem exec_shr {t d a b} (s : State) : exec (.shr t d a b) s = execShr t d a b s := rfl
@[simp] theorem exec_sar {t d a b} (s : State) : exec (.sar t d a b) s = execSar t d a b s := rfl
@[simp] theorem exec_rol {t d a b} (s : State) : exec (.rol t d a b) s = execRol t d a b s := rfl
@[simp] theorem exec_bfx {t d a b} (s : State) : exec (.bfx t d a b) s = execBfx t d a b s := rfl
@[simp] theorem exec_bfxb {t d a b} (s : State) : exec (.bfxb t d a b) s = execBfxb t d a b s := rfl
@[simp] theorem exec_bfi {t d a b} (s : State) : exec (.bfi t d a b) s = execBfi t d a b s := rfl
@[simp] theorem exec_clz {t d a} (s : State) : exec (.clz t d a) s = execClz t d a s := rfl
@[simp] theorem exec_popc {t d a} (s : State) : exec (.popc t d a) s = execPopc t d a s := rfl
@[simp] theorem exec_brev {t d a} (s : State) : exec (.brev t d a) s = execBrev t d a s := rfl
@[simp] theorem exec_prmt {t d a b} (s : State) : exec (.prmt t d a b) s = execPrmt t d a b s := rfl
@[simp] theorem exec_fshf {t d a b} (s : State) : exec (.fshf t d a b) s = execFshf t d a b s := rfl
@[simp] theorem exec_mul {t d a b} (s : State) : exec (.mul t d a b) s = execMul t d a b s := rfl
@[simp] theorem exec_mulhi {t d a b} (s : State) : exec (.mulhi t d a b) s = execMulhi t d a b s := rfl
@[simp] theorem exec_mulhib {t d a b} (s : State) : exec (.mulhib t d a b) s = execMulhib t d a b s := rfl
@[simp] theorem exec_mad {t d a b} (s : State) : exec (.mad t d a b) s = execMad t d a b s := rfl
@[simp] theorem exec_madhi {t d a b} (s : State) : exec (.madhi t d a b) s = execMadhi t d a b s := rfl
@[simp] theorem exec_madhib {t d a b} (s : State) : exec (.madhib t d a b) s = execMadhib t d a b s := rfl
@[simp] theorem exec_div {d a b} (s : State) : exec (.div d a b) s = execDiv d a b s := rfl
@[simp] theorem exec_divb {d a b} (s : State) : exec (.divb d a b) s = execDivb d a b s := rfl
@[simp] theorem exec_rem {d a b} (s : State) : exec (.rem d a b) s = execRem d a b s := rfl
@[simp] theorem exec_remb {d a b} (s : State) : exec (.remb d a b) s = execRemb d a b s := rfl
@[simp] theorem exec_cmp {c p a b} (s : State) : exec (.cmp c p a b) s = execCmp c p a b s := rfl
@[simp] theorem exec_cmpi {c p a i} (s : State) : exec (.cmpi c p a i) s = execCmpi c p a i s := rfl
@[simp] theorem exec_mov {t d a} (s : State) : exec (.mov t d a) s = execMov t d a s := rfl
@[simp] theorem exec_movi {t d i} (s : State) : exec (.movi t d i) s = execMovi t d i s := rfl
@[simp] theorem exec_rdsr {t d n} (s : State) : exec (.rdsr t d n) s = execRdsr t d n s := rfl
@[simp] theorem exec_rdw {t d n} (s : State) : exec (.rdw t d n) s = execRdw t d n s := rfl
@[simp] theorem exec_rdk {t d n} (s : State) : exec (.rdk t d n) s = execRdk t d n s := rfl
@[simp] theorem exec_movToFstat {a} (s : State) : exec (.movToFstat a) s = execMovToFstat a s := rfl
@[simp] theorem exec_movFromFstat {t d} (s : State) : exec (.movFromFstat t d) s = execMovFromFstat t d s := rfl
@[simp] theorem exec_sel {n t d a b} (s : State) : exec (.sel n t d a b) s = execSel n t d a b s := rfl
@[simp] theorem exec_pand {d a b} (s : State) : exec (.pand d a b) s = execPand d a b s := rfl
@[simp] theorem exec_por {d a b} (s : State) : exec (.por d a b) s = execPor d a b s := rfl
@[simp] theorem exec_pxor {d a b} (s : State) : exec (.pxor d a b) s = execPxor d a b s := rfl
@[simp] theorem exec_pnot {d a} (s : State) : exec (.pnot d a) s = execPnot d a s := rfl
@[simp] theorem exec_pset {d a} (s : State) : exec (.pset d a) s = execPset d a s := rfl
@[simp] theorem exec_pmov {d a} (s : State) : exec (.pmov d a) s = execPmov d a s := rfl
@[simp] theorem exec_lea {t d a h} (s : State) : exec (.lea t d a h) s = execLea t d a h s := rfl
@[simp] theorem exec_add64 {t d a b} (s : State) : exec (.add64 t d a b) s = execAdd64 t d a b s := rfl
@[simp] theorem exec_sub64 {t d a b} (s : State) : exec (.sub64 t d a b) s = execSub64 t d a b s := rfl
@[simp] theorem exec_shl64 {t d a b} (s : State) : exec (.shl64 t d a b) s = execShl64 t d a b s := rfl
@[simp] theorem exec_mulw {t d a b} (s : State) : exec (.mulw t d a b) s = execMulw t d a b s := rfl
@[simp] theorem exec_cmp64 {c p a b} (s : State) : exec (.cmp64 c p a b) s = execCmp64 c p a b s := rfl
@[simp] theorem exec_fadd {t d a b} (s : State) : exec (.fadd t d a b) s = execFadd t d a b s := rfl
@[simp] theorem exec_fsub {t d a b} (s : State) : exec (.fsub t d a b) s = execFsub t d a b s := rfl
@[simp] theorem exec_fmin {t d a b} (s : State) : exec (.fmin t d a b) s = execFmin t d a b s := rfl
@[simp] theorem exec_fmax {t d a b} (s : State) : exec (.fmax t d a b) s = execFmax t d a b s := rfl
@[simp] theorem exec_fmul {t d a b} (s : State) : exec (.fmul t d a b) s = execFmul t d a b s := rfl
@[simp] theorem exec_fscale {t d a b} (s : State) : exec (.fscale t d a b) s = execFscale t d a b s := rfl
@[simp] theorem exec_ffma {t d a b} (s : State) : exec (.ffma t d a b) s = execFfma t d a b s := rfl
@[simp] theorem exec_ffms {t d a b} (s : State) : exec (.ffms t d a b) s = execFfms t d a b s := rfl
@[simp] theorem exec_fnma {t d a b} (s : State) : exec (.fnma t d a b) s = execFnma t d a b s := rfl
@[simp] theorem exec_fnms {t d a b} (s : State) : exec (.fnms t d a b) s = execFnms t d a b s := rfl
@[simp] theorem exec_fcmp {c p a b} (s : State) : exec (.fcmp c p a b) s = execFcmp c p a b s := rfl
@[simp] theorem exec_fclass {t d a} (s : State) : exec (.fclass t d a) s = execFclass t d a s := rfl
@[simp] theorem exec_frnd {t d a} (s : State) : exec (.frnd t d a) s = execFrnd t d a s := rfl
@[simp] theorem exec_fcpys {t d a b} (s : State) : exec (.fcpys t d a b) s = execFcpys t d a b s := rfl
@[simp] theorem exec_fabs {t d a} (s : State) : exec (.fabs t d a) s = execFabs t d a s := rfl
@[simp] theorem exec_fneg {t d a} (s : State) : exec (.fneg t d a) s = execFneg t d a s := rfl
@[simp] theorem exec_ffrac {t d a} (s : State) : exec (.ffrac t d a) s = execFfrac t d a s := rfl
@[simp] theorem exec_frcp {d a} (s : State) : exec (.frcp d a) s = execFrcp d a s := rfl
@[simp] theorem exec_frsq {d a} (s : State) : exec (.frsq d a) s = execFrsq d a s := rfl
@[simp] theorem exec_fsqrt {d a} (s : State) : exec (.fsqrt d a) s = execFsqrt d a s := rfl
@[simp] theorem exec_fdiv {d a b} (s : State) : exec (.fdiv d a b) s = execFdiv d a b s := rfl
@[simp] theorem exec_fexp2 {d a} (s : State) : exec (.fexp2 d a) s = execFexp2 d a s := rfl
@[simp] theorem exec_flog2 {d a} (s : State) : exec (.flog2 d a) s = execFlog2 d a s := rfl
@[simp] theorem exec_fsinp {d a} (s : State) : exec (.fsinp d a) s = execFsinp d a s := rfl
@[simp] theorem exec_fcosp {d a} (s : State) : exec (.fcosp d a) s = execFcosp d a s := rfl
@[simp] theorem exec_ftanh {d a} (s : State) : exec (.ftanh d a) s = execFtanh d a s := rfl
@[simp] theorem exec_f2f {d a y x} (s : State) : exec (.f2f d a y x) s = execF2f d a y x s := rfl
@[simp] theorem exec_f2i {d a y x} (s : State) : exec (.f2i d a y x) s = execF2i d a y x s := rfl
@[simp] theorem exec_i2f {d a y x} (s : State) : exec (.i2f d a y x) s = execI2f d a y x s := rfl
@[simp] theorem exec_i2i {d a y x} (s : State) : exec (.i2i d a y x) s = execI2i d a y x s := rfl
@[simp] theorem exec_pack2 {d a k y x} (s : State) : exec (.pack2 d a k y x) s = execPack2 d a k y x s := rfl
@[simp] theorem exec_unpack2 {d a k y x} (s : State) : exec (.unpack2 d a k y x) s = execUnpack2 d a k y x s := rfl
@[simp] theorem exec_hadd2 {f t d a b} (s : State) : exec (.hadd2 f t d a b) s = execHadd2 f t d a b s := rfl
@[simp] theorem exec_hsub2 {f t d a b} (s : State) : exec (.hsub2 f t d a b) s = execHsub2 f t d a b s := rfl
@[simp] theorem exec_hmul2 {f t d a b} (s : State) : exec (.hmul2 f t d a b) s = execHmul2 f t d a b s := rfl
@[simp] theorem exec_hfma2 {f t d a b} (s : State) : exec (.hfma2 f t d a b) s = execHfma2 f t d a b s := rfl
@[simp] theorem exec_hmin2 {f t d a b} (s : State) : exec (.hmin2 f t d a b) s = execHmin2 f t d a b s := rfl
@[simp] theorem exec_hmax2 {f t d a b} (s : State) : exec (.hmax2 f t d a b) s = execHmax2 f t d a b s := rfl
@[simp] theorem exec_idot4 {u t d a b} (s : State) : exec (.idot4 u t d a b) s = execIdot4 u t d a b s := rfl
@[simp] theorem exec_fdot2 {u t d a b} (s : State) : exec (.fdot2 u t d a b) s = execFdot2 u t d a b s := rfl
@[simp] theorem exec_f8dot4 {u t d a b} (s : State) : exec (.f8dot4 u t d a b) s = execF8dot4 u t d a b s := rfl
@[simp] theorem exec_nqdec {y t d a b} (s : State) : exec (.nqdec y t d a b) s = execNqdec y t d a b s := rfl
@[simp] theorem exec_nqdecf {y t d a b} (s : State) : exec (.nqdecf y t d a b) s = execNqdecf y t d a b s := rfl
@[simp] theorem exec_nqdot {y t d a b} (s : State) : exec (.nqdot y t d a b) s = execNqdot y t d a b s := rfl
@[simp] theorem exec_ld {d h a y} (s : State) : exec (.ld d h a y) s = execLd d h a y s := rfl
@[simp] theorem exec_lds {d h a y} (s : State) : exec (.lds d h a y) s = execLds d h a y s := rfl
@[simp] theorem exec_lda {d h a y} (s : State) : exec (.lda d h a y) s = execLda d h a y s := rfl
@[simp] theorem exec_st {y h a c} (s : State) : exec (.st y h a c) s = execSt y h a c s := rfl
@[simp] theorem exec_strel {y h a c} (s : State) : exec (.strel y h a c) s = execStrel y h a c s := rfl
@[simp] theorem exec_aadd {r d h a y} (s : State) : exec (.aadd r d h a y) s = execAadd r d h a y s := rfl
@[simp] theorem exec_afadd {r d h a y} (s : State) : exec (.afadd r d h a y) s = execAfadd r d h a y s := rfl
@[simp] theorem exec_amin {r d h a y} (s : State) : exec (.amin r d h a y) s = execAmin r d h a y s := rfl
@[simp] theorem exec_amax {r d h a y} (s : State) : exec (.amax r d h a y) s = execAmax r d h a y s := rfl
@[simp] theorem exec_aminb {r d h a y} (s : State) : exec (.aminb r d h a y) s = execAminb r d h a y s := rfl
@[simp] theorem exec_amaxb {r d h a y} (s : State) : exec (.amaxb r d h a y) s = execAmaxb r d h a y s := rfl
@[simp] theorem exec_aand {r d h a y} (s : State) : exec (.aand r d h a y) s = execAand r d h a y s := rfl
@[simp] theorem exec_aor {r d h a y} (s : State) : exec (.aor r d h a y) s = execAor r d h a y s := rfl
@[simp] theorem exec_axor {r d h a y} (s : State) : exec (.axor r d h a y) s = execAxor r d h a y s := rfl
@[simp] theorem exec_axch {r d h a y} (s : State) : exec (.axch r d h a y) s = execAxch r d h a y s := rfl
@[simp] theorem exec_acas {r d h a y} (s : State) : exec (.acas r d h a y) s = execAcas r d h a y s := rfl
@[simp] theorem exec_ainc {r d h a y} (s : State) : exec (.ainc r d h a y) s = execAinc r d h a y s := rfl
@[simp] theorem exec_hld {g h a e k} (s : State) : exec (.hld g h a e k) s = execHld g h a e k s := rfl
@[simp] theorem exec_hset {g h a e k} (s : State) : exec (.hset g h a e k) s = execHset g h a e k s := rfl
@[simp] theorem exec_hrd {g d h e k} (s : State) : exec (.hrd g d h e k) s = execHrd g d h e k s := rfl
@[simp] theorem exec_hcpy {g d a e k} (s : State) : exec (.hcpy g d a e k) s = execHcpy g d a e k s := rfl
@[simp] theorem exec_fenceAcq {y} (s : State) : exec (.fenceAcq y) s = execFenceAcq y s := rfl
@[simp] theorem exec_fenceRel {y} (s : State) : exec (.fenceRel y) s = execFenceRel y s := rfl
@[simp] theorem exec_fenceAr {y} (s : State) : exec (.fenceAr y) s = execFenceAr y s := rfl
@[simp] theorem exec_fenceSc {y} (s : State) : exec (.fenceSc y) s = execFenceSc y s := rfl
@[simp] theorem exec_cwb {h a y} (s : State) : exec (.cwb h a y) s = execCwb h a y s := rfl
@[simp] theorem exec_cinv {h a y} (s : State) : exec (.cinv h a y) s = execCinv h a y s := rfl
@[simp] theorem exec_pref {h a y} (s : State) : exec (.pref h a y) s = execPref h a y s := rfl
@[simp] theorem exec_waitline {d h a y} (s : State) : exec (.waitline d h a y) s = execWaitline d h a y s := rfl
@[simp] theorem exec_nx {o} (s : State) : exec (.nx o) s = execNx o s := rfl
@[simp] theorem exec_nxc {n p o} (s : State) : exec (.nxc n p o) s = execNxc n p o s := rfl
@[simp] theorem exec_nxi {a} (s : State) : exec (.nxi a) s = execNxi a s := rfl
@[simp] theorem exec_call {l o} (s : State) : exec (.call l o) s = execCall l o s := rfl
@[simp] theorem exec_calli {l a} (s : State) : exec (.calli l a) s = execCalli l a s := rfl
@[simp] theorem exec_ret {a} (s : State) : exec (.ret a) s = execRet a s := rfl
@[simp] theorem exec_exit (s : State) : exec (.exit) s = execExit s := rfl
@[simp] theorem exec_yield (s : State) : exec (.yield) s = execYield s := rfl
@[simp] theorem exec_refill {o} (s : State) : exec (.refill o) s = execRefill o s := rfl
@[simp] theorem exec_region (s : State) : exec (.region) s = execRegion s := rfl
@[simp] theorem exec_trap {c} (s : State) : exec (.trap c) s = execTrap c s := rfl
@[simp] theorem exec_brk {c} (s : State) : exec (.brk c) s = execBrk c s := rfl
@[simp] theorem exec_meet {g e k} (s : State) : exec (.meet g e k) s = execMeet g e k s := rfl
@[simp] theorem exec_gvoteAny {g d a e k} (s : State) : exec (.gvoteAny g d a e k) s = execGvoteAny g d a e k s := rfl
@[simp] theorem exec_gvoteAll {g d a e k} (s : State) : exec (.gvoteAll g d a e k) s = execGvoteAll g d a e k s := rfl
@[simp] theorem exec_gvoteBallot {g d a e k} (s : State) :
    exec (.gvoteBallot g d a e k) s = execGvoteBallot g d a e k s := rfl
@[simp] theorem exec_gbcast {g d a e k} (s : State) : exec (.gbcast g d a e k) s = execGbcast g d a e k s := rfl
@[simp] theorem exec_gelect {g d e k} (s : State) : exec (.gelect g d e k) s = execGelect g d e k s := rfl
@[simp] theorem exec_fencew {g o y e k} (s : State) : exec (.fencew g o y e k) s = execFencew g o y e k s := rfl
@[simp] theorem exec_gred {g d a o} (s : State) : exec (.gred g d a o) s = execGred g d a o s := rfl
@[simp] theorem exec_gscan {g d a o} (s : State) : exec (.gscan g d a o) s = execGscan g d a o s := rfl
@[simp] theorem exec_shflIdx {g d a b} (s : State) : exec (.shflIdx g d a b) s = execShflIdx g d a b s := rfl
@[simp] theorem exec_shflUp {g d a c} (s : State) : exec (.shflUp g d a c) s = execShflUp g d a c s := rfl
@[simp] theorem exec_shflDn {g d a c} (s : State) : exec (.shflDn g d a c) s = execShflDn g d a c s := rfl
@[simp] theorem exec_shflXor {g d a c} (s : State) : exec (.shflXor g d a c) s = execShflXor g d a c s := rfl
@[simp] theorem exec_cdet {g d a e k} (s : State) : exec (.cdet g d a e k) s = execCdet g d a e k s := rfl
@[simp] theorem exec_gcombF32 {g d a e k} (s : State) : exec (.gcombF32 g d a e k) s = execGcombF32 g d a e k s := rfl
@[simp] theorem exec_gcombS32 {g d a e k} (s : State) : exec (.gcombS32 g d a e k) s = execGcombS32 g d a e k s := rfl
@[simp] theorem exec_wacfg {w a} (s : State) : exec (.wacfg w a) s = execWacfg w a s := rfl
@[simp] theorem exec_wapush {w a} (s : State) : exec (.wapush w a) s = execWapush w a s := rfl
@[simp] theorem exec_ward {d w} (s : State) : exec (.ward d w) s = execWard d w s := rfl
@[simp] theorem exec_wapr {d w a} (s : State) : exec (.wapr d w a) s = execWapr d w a s := rfl
@[simp] theorem exec_waclr {w} (s : State) : exec (.waclr w) s = execWaclr w s := rfl
@[simp] theorem exec_wastat {d w a} (s : State) : exec (.wastat d w a) s = execWastat d w a s := rfl
@[simp] theorem exec_wasave {h w a} (s : State) : exec (.wasave h w a) s = execWasave h w a s := rfl
@[simp] theorem exec_waload {h w a} (s : State) : exec (.waload h w a) s = execWaload h w a s := rfl
@[simp] theorem exec_mxmmaBf16 {r t h j a} (s : State) :
    exec (.mxmmaBf16 r t h j a) s = execMxmmaBf16 r t h j a s := rfl
@[simp] theorem exec_mxmmaF16 {r t h j a} (s : State) : exec (.mxmmaF16 r t h j a) s = execMxmmaF16 r t h j a s := rfl
@[simp] theorem exec_mxmmaE4m3 {r t h j a} (s : State) :
    exec (.mxmmaE4m3 r t h j a) s = execMxmmaE4m3 r t h j a s := rfl
@[simp] theorem exec_mxmmaE5m2 {r t h j a} (s : State) :
    exec (.mxmmaE5m2 r t h j a) s = execMxmmaE5m2 r t h j a s := rfl
@[simp] theorem exec_mxmmaS8 {r t h j a} (s : State) : exec (.mxmmaS8 r t h j a) s = execMxmmaS8 r t h j a s := rfl
@[simp] theorem exec_mxmmaNq4 {r t h j a} (s : State) : exec (.mxmmaNq4 r t h j a) s = execMxmmaNq4 r t h j a s := rfl
@[simp] theorem exec_mxz {t} (s : State) : exec (.mxz t) s = execMxz t s := rfl
@[simp] theorem exec_mxst {t h a} (s : State) : exec (.mxst t h a) s = execMxst t h a s := rfl
@[simp] theorem exec_mxrd {t d a} (s : State) : exec (.mxrd t d a) s = execMxrd t d a s := rfl
@[simp] theorem exec_mxwr {t a} (s : State) : exec (.mxwr t a) s = execMxwr t a s := rfl
@[simp] theorem exec_mxcommit (s : State) : exec (.mxcommit) s = execMxcommit s := rfl
@[simp] theorem exec_mxwait {n} (s : State) : exec (.mxwait n) s = execMxwait n s := rfl
@[simp] theorem exec_mxstat {d a} (s : State) : exec (.mxstat d a) s = execMxstat d a s := rfl
@[simp] theorem exec_cpy {g d y a m} (s : State) : exec (.cpy g d y a m) s = execCpy g d y a m s := rfl
@[simp] theorem exec_tcpy {g d y a m} (s : State) : exec (.tcpy g d y a m) s = execTcpy g d y a m s := rfl
@[simp] theorem exec_chain {g d y a m} (s : State) : exec (.chain g d y a m) s = execChain g d y a m s := rfl
@[simp] theorem exec_tagarm {g a} (s : State) : exec (.tagarm g a) s = execTagarm g a s := rfl
@[simp] theorem exec_tagwaitAny {a} (s : State) : exec (.tagwaitAny a) s = execTagwaitAny a s := rfl
@[simp] theorem exec_tagwaitAll {a} (s : State) : exec (.tagwaitAll a) s = execTagwaitAll a s := rfl
@[simp] theorem exec_tagff {a} (s : State) : exec (.tagff a) s = execTagff a s := rfl
@[simp] theorem exec_tagclr {a} (s : State) : exec (.tagclr a) s = execTagclr a s := rfl
@[simp] theorem exec_tagrd {g a} (s : State) : exec (.tagrd g a) s = execTagrd g a s := rfl
@[simp] theorem exec_tbar {n} (s : State) : exec (.tbar n) s = execTbar n s := rfl
@[simp] theorem exec_tbara {d n} (s : State) : exec (.tbara d n) s = execTbara d n s := rfl
@[simp] theorem exec_tbarw {a n} (s : State) : exec (.tbarw a n) s = execTbarw a n s := rfl
@[simp] theorem exec_launch {d a h} (s : State) : exec (.launch d a h) s = execLaunch d a h s := rfl
@[simp] theorem exec_gwait {d a} (s : State) : exec (.gwait d a) s = execGwait d a s := rfl
@[simp] theorem exec_taskpush {d a h} (s : State) : exec (.taskpush d a h) s = execTaskpush d a h s := rfl
@[simp] theorem exec_rgrow {d n} (s : State) : exec (.rgrow d n) s = execRgrow d n s := rfl
@[simp] theorem exec_rshrink {n} (s : State) : exec (.rshrink n) s = execRshrink n s := rfl
@[simp] theorem exec_commit (s : State) : exec (.commit) s = execCommit s := rfl
@[simp] theorem exec_rds {d n} (s : State) : exec (.rds d n) s = execRds d n s := rfl
@[simp] theorem exec_wrs {y n} (s : State) : exec (.wrs y n) s = execWrs y n s := rfl
@[simp] theorem exec_tlbinv {a b} (s : State) : exec (.tlbinv a b) s = execTlbinv a b s := rfl
@[simp] theorem exec_unpark {d a} (s : State) : exec (.unpark d a) s = execUnpark d a s := rfl
@[simp] theorem exec_swapctx {d a} (s : State) : exec (.swapctx d a) s = execSwapctx d a s := rfl
@[simp] theorem exec_ctxsave {d a b} (s : State) : exec (.ctxsave d a b) s = execCtxsave d a b s := rfl
@[simp] theorem exec_ctxload {d a b} (s : State) : exec (.ctxload d a b) s = execCtxload d a b s := rfl
@[simp] theorem exec_trapret (s : State) : exec (.trapret) s = execTrapret s := rfl
@[simp] theorem exec_trapretSkip (s : State) : exec (.trapretSkip) s = execTrapretSkip s := rfl
@[simp] theorem exec_halt (s : State) : exec (.halt) s = execHalt s := rfl
@[simp] theorem exec_sleep (s : State) : exec (.sleep) s = execSleep s := rfl
@[simp] theorem exec_lmapw {d a b} (s : State) : exec (.lmapw d a b) s = execLmapw d a b s := rfl
@[simp] theorem exec_idivResult {id} (s : State) : exec (.idivResult id) s = execIdivResult id s := rfl
@[simp] theorem exec_sfuResult {id} (s : State) : exec (.sfuResult id) s = execSfuResult id s := rfl
@[simp] theorem exec_cvtResult {id} (s : State) : exec (.cvtResult id) s = execCvtResult id s := rfl
@[simp] theorem exec_loadReturn {id} (s : State) : exec (.loadReturn id) s = execLoadReturn id s := rfl
@[simp] theorem exec_atomicPerform {id} (s : State) : exec (.atomicPerform id) s = execAtomicPerform id s := rfl
@[simp] theorem exec_waitlineWake {strand} (s : State) :
    exec (.waitlineWake strand) s = execWaitlineWake strand s := rfl
@[simp] theorem exec_meetComplete {wave key} (s : State) :
    exec (.meetComplete wave key) s = execMeetComplete wave key s := rfl
@[simp] theorem exec_mxChunk {core} (s : State) : exec (.mxChunk core) s = execMxChunk core s := rfl
@[simp] theorem exec_mxCommandComplete {core} (s : State) :
    exec (.mxCommandComplete core) s = execMxCommandComplete core s := rfl
@[simp] theorem exec_mxGroupComplete {strand group} (s : State) :
    exec (.mxGroupComplete strand group) s = execMxGroupComplete strand group s := rfl
@[simp] theorem exec_mxwdFire {core} (s : State) : exec (.mxwdFire core) s = execMxwdFire core s := rfl
@[simp] theorem exec_copyLand {id block} (s : State) : exec (.copyLand id block) s = execCopyLand id block s := rfl
@[simp] theorem exec_copyRetry {id} (s : State) : exec (.copyRetry id) s = execCopyRetry id s := rfl
@[simp] theorem exec_directoryRecall {line} (s : State) :
    exec (.directoryRecall line) s = execDirectoryRecall line s := rfl
@[simp] theorem exec_barrierPhaseComplete {team bar} (s : State) :
    exec (.barrierPhaseComplete team bar) s = execBarrierPhaseComplete team bar s := rfl
@[simp] theorem exec_launchStatus {id} (s : State) : exec (.launchStatus id) s = execLaunchStatus id s := rfl
@[simp] theorem exec_taskpushPoolFree {cluster} (s : State) :
    exec (.taskpushPoolFree cluster) s = execTaskpushPoolFree cluster s := rfl
@[simp] theorem exec_growGrant {bank} (s : State) : exec (.growGrant bank) s = execGrowGrant bank s := rfl
@[simp] theorem exec_growFail {bank} (s : State) : exec (.growFail bank) s = execGrowFail bank s := rfl
@[simp] theorem exec_tlbinvComplete {id} (s : State) : exec (.tlbinvComplete id) s = execTlbinvComplete id s := rfl
@[simp] theorem exec_ctxsaveComplete {id} (s : State) : exec (.ctxsaveComplete id) s = execCtxsaveComplete id s := rfl
@[simp] theorem exec_scribeentWrite {cluster} (s : State) :
    exec (.scribeentWrite cluster) s = execScribeentWrite cluster s := rfl
@[simp] theorem exec_hbmstatClear {stack} (s : State) : exec (.hbmstatClear stack) s = execHbmstatClear stack s := rfl
@[simp] theorem exec_fetchFill {strand} (s : State) : exec (.fetchFill strand) s = execFetchFill strand s := rfl
@[simp] theorem exec_missRegisterGrant {core} (s : State) :
    exec (.missRegisterGrant core) s = execMissRegisterGrant core s := rfl
@[simp] theorem exec_translationWalk {id} (s : State) : exec (.translationWalk id) s = execTranslationWalk id s := rfl
@[simp] theorem exec_walkLockReread {id} (s : State) : exec (.walkLockReread id) s = execWalkLockReread id s := rfl
@[simp] theorem exec_faultRecordDeliver {cluster} (s : State) :
    exec (.faultRecordDeliver cluster) s = execFaultRecordDeliver cluster s := rfl
@[simp] theorem exec_handlerEntry {strand} (s : State) :
    exec (.handlerEntry strand) s = execHandlerEntry strand s := rfl
@[simp] theorem exec_parityRollback {strand reg} (s : State) :
    exec (.parityRollback strand reg) s = execParityRollback strand reg s := rfl
@[simp] theorem exec_teamRelaunch {team} (s : State) : exec (.teamRelaunch team) s = execTeamRelaunch team s := rfl
@[simp] theorem exec_teamPlace {grid} (s : State) : exec (.teamPlace grid) s = execTeamPlace grid s := rfl
@[simp] theorem exec_prio3Preempt {grid core} (s : State) :
    exec (.prio3Preempt grid core) s = execPrio3Preempt grid core s := rfl
@[simp] theorem exec_bankSwap {core} (s : State) : exec (.bankSwap core) s = execBankSwap core s := rfl
@[simp] theorem exec_teamRetire {team} (s : State) : exec (.teamRetire team) s = execTeamRetire team s := rfl
@[simp] theorem exec_gridRetire {grid} (s : State) : exec (.gridRetire grid) s = execGridRetire grid s := rfl
@[simp] theorem exec_coreGate {core} (s : State) : exec (.coreGate core) s = execCoreGate core s := rfl
@[simp] theorem exec_coreWake {core} (s : State) : exec (.coreWake core) s = execCoreWake core s := rfl
@[simp] theorem exec_gatherTick {cluster} (s : State) : exec (.gatherTick cluster) s = execGatherTick cluster s := rfl
@[simp] theorem exec_gatherWindowExpiry {cluster} (s : State) :
    exec (.gatherWindowExpiry cluster) s = execGatherWindowExpiry cluster s := rfl
@[simp] theorem exec_laneTest {core failed} (s : State) :
    exec (.laneTest core failed) s = execLaneTest core failed s := rfl
@[simp] theorem exec_scribeMove {cluster} (s : State) : exec (.scribeMove cluster) s = execScribeMove cluster s := rfl
@[simp] theorem exec_failLaneInject {core lane issue} (s : State) :
    exec (.failLaneInject core lane issue) s = execFailLaneInject core lane issue s := rfl
@[simp] theorem exec_lineMigrate {line cluster} (s : State) :
    exec (.lineMigrate line cluster) s = execLineMigrate line cluster s := rfl
@[simp] theorem exec_crossDieApply {home die} (s : State) :
    exec (.crossDieApply home die) s = execCrossDieApply home die s := rfl
@[simp] theorem exec_replicaEvict {die line} (s : State) :
    exec (.replicaEvict die line) s = execReplicaEvict die line s := rfl
@[simp] theorem exec_scrubPassEnd {stack ecs rowmax} (s : State) :
    exec (.scrubPassEnd stack ecs rowmax) s = execScrubPassEnd stack ecs rowmax s := rfl
@[simp] theorem exec_streamLaunch {die stream} (s : State) :
    exec (.streamLaunch die stream) s = execStreamLaunch die stream s := rfl
@[simp] theorem exec_streamWaitgrid {die stream} (s : State) :
    exec (.streamWaitgrid die stream) s = execStreamWaitgrid die stream s := rfl
@[simp] theorem exec_streamWrite {die stream} (s : State) :
    exec (.streamWrite die stream) s = execStreamWrite die stream s := rfl
@[simp] theorem exec_streamDrain {die stream} (s : State) :
    exec (.streamDrain die stream) s = execStreamDrain die stream s := rfl
@[simp] theorem exec_streamBadOp {die stream} (s : State) :
    exec (.streamBadOp die stream) s = execStreamBadOp die stream s := rfl
@[simp] theorem exec_rubricReplace {die img signature streams} (s : State) :
    exec (.rubricReplace die img signature streams) s = execRubricReplace die img signature streams s := rfl
@[simp] theorem exec_hostResumeCore {core} (s : State) :
    exec (.hostResumeCore core) s = execHostResumeCore core s := rfl
@[simp] theorem exec_powerState {p} (s : State) : exec (.powerState p) s = execPowerState p s := rfl
@[simp] theorem exec_dieIdle {die} (s : State) : exec (.dieIdle die) s = execDieIdle die s := rfl
@[simp] theorem exec_dieResume {die} (s : State) : exec (.dieResume die) s = execDieResume die s := rfl
@[simp] theorem exec_thermalStop (s : State) : exec (.thermalStop) s = execThermalStop s := rfl
@[simp] theorem exec_thermalResume {celsius} (s : State) :
    exec (.thermalResume celsius) s = execThermalResume celsius s := rfl
@[simp] theorem exec_linkdown {link} (s : State) : exec (.linkdown link) s = execLinkdown link s := rfl
@[simp] theorem exec_luteFlitRetransmit {link seq} (s : State) :
    exec (.luteFlitRetransmit link seq) s = execLuteFlitRetransmit link seq s := rfl
@[simp] theorem exec_neterr {window} (s : State) : exec (.neterr window) s = execNeterr window s := rfl
@[simp] theorem exec_inboundRdmaWrite {window offset bytes} (s : State) :
    exec (.inboundRdmaWrite window offset bytes) s = execInboundRdmaWrite window offset bytes s := rfl
@[simp] theorem exec_boot {firmware rubric signature streams} (s : State) :
    exec (.boot firmware rubric signature streams) s = execBoot firmware rubric signature streams s := rfl
@[simp] theorem exec_firmwareRecovery {firmware} (s : State) :
    exec (.firmwareRecovery firmware) s = execFirmwareRecovery firmware s := rfl
@[simp] theorem exec_attestationReport {nonce} (s : State) :
    exec (.attestationReport nonce) s = execAttestationReport nonce s := rfl
@[simp] theorem exec_testUnlock {signature} (s : State) :
    exec (.testUnlock signature) s = execTestUnlock signature s := rfl
@[simp] theorem exec_deviceReset (s : State) : exec (.deviceReset) s = execDeviceReset s := rfl
@[simp] theorem exec_storePerform {id} (s : State) : exec (.storePerform id) s = execStorePerform id s := rfl
@[simp] theorem exec_l1Writeback {core line} (s : State) :
    exec (.l1Writeback core line) s = execL1Writeback core line s := rfl
@[simp] theorem exec_ctxloadComplete {id} (s : State) : exec (.ctxloadComplete id) s = execCtxloadComplete id s := rfl
@[simp] theorem exec_hostAccess {acc release} (s : State) :
    exec (.hostAccess acc release) s = execHostAccess acc release s := rfl
@[simp] theorem exec_peerAccess {link seq acc} (s : State) :
    exec (.peerAccess link seq acc) s = execPeerAccess link seq acc s := rfl
@[simp] theorem exec_imageLoad {img} (s : State) : exec (.imageLoad img) s = execImageLoad img s := rfl
@[simp] theorem exec_coreReset {core} (s : State) : exec (.coreReset core) s = execCoreReset core s := rfl
@[simp] theorem exec_luteLinkUp {link} (s : State) : exec (.luteLinkUp link) s = execLuteLinkUp link s := rfl
@[simp] theorem exec_managementGridStart {mgrid} (s : State) :
    exec (.managementGridStart mgrid) s = execManagementGridStart mgrid s := rfl
@[simp] theorem exec_ownerKeyEnrol {key} (s : State) : exec (.ownerKeyEnrol key) s = execOwnerKeyEnrol key s := rfl

end Sys2Proof.Machine
end

