-- ==== Sys2Proof/Laws/Forms.lean ====
section
/-!
SUPPORT. What the shared forms of the register instructions do on a lane whose operands exist and can be read.
-/

namespace Sys2Proof.Machine

open Sys2Proof.Safety

/-! ### The lane -/

theorem env_s {s : State} {e : Env} (h : s.env = some e) : e.s = s := by
  simp only [State.env] at h
  split at h
  · cases h
  · split at h
    · cases h
    · split at h
      · cases h
      · cases h; rfl

theorem env_key {s : State} {e : Env} (h : s.env = some e) : e.key = s.cur.strand := by
  simp only [State.env] at h
  split at h
  · cases h
  · split at h
    · cases h
    · split at h
      · cases h
      · cases h; rfl

theorem runLane_ok {s t : State} {e : Env} {f : Env → Act State} (h : s.env = some e) (hf : f e = .ok t) :
    runLane s f = .next t := by simp [runLane, h, hf]

theorem runLane_error {s : State} {e : Env} {f : Env → Act State} {x : Stop} (h : s.env = some e) (hf : f e = .error x) :
    runLane s f = .next (s.stop e x) := by simp [runLane, h, hf]

/-- A lane that is a live strand always gets a next state. -/
theorem runLane_next {s : State} {e : Env} (f : Env → Act State) (h : s.env = some e) : ∃ t, runLane s f = .next t := by
  cases hf : f e with
  | ok t => exact ⟨t, runLane_ok h hf⟩
  | error x => exact ⟨_, runLane_error h hf⟩

theorem laneStep_ok {s : State} {e : Env} {f : Env → Act Strand} {st : Strand} (h : s.env = some e) (hf : f e = .ok st) :
    laneStep s f = done e st := by
  simp [laneStep, runLane, h, hf, done, Env.retire, bind, Except.bind, pure, Except.pure]

theorem eventStep_some {s t : State} {f : State → Option State} (h : f s = some t) : eventStep s f = .next t := by
  simp [eventStep, h]

theorem eventStep_none {s : State} {f : State → Option State} (h : f s = none) : eventStep s f = .next s := by
  simp [eventStep, h]

/-- An event always answers a next state. -/
theorem eventStep_next (s : State) (f : State → Option State) : ∃ t, eventStep s f = .next t := by
  cases h : f s with
  | some t => exact ⟨t, eventStep_some h⟩
  | none => exact ⟨s, eventStep_none h⟩

/-! ### Operands -/

theorem use_ok {e : Env} {n : Nat} {x : Word} (h : Reads e n x) : e.use n = .ok x := by
  simp [Env.use, h.2, bind, Except.bind]

@[simp] theorem both_ok {α β : Type} (x : α) (y : β) : both (.ok x : Act α) (.ok y : Act β) = .ok (x, y) := rfl

theorem use2_ok {e : Env} {a b : Nat} {x y : Word} (ha : Reads e a x) (hb : Reads e b y) : e.use2 a b = .ok (x, y) := by
  simp [Env.use2, use_ok ha, use_ok hb]

theorem readPair_ok {e : Env} {n : Nat} {x : Dword} (h : ReadsPair e n x) : e.readPair n = .ok (x, false) := by
  have key : ((x >>> 32).setWidth 32 ++ x.setWidth 32 : BitVec (32 + 32)) = x := by
    apply BitVec.eq_of_getLsbD_eq
    intro i hi
    rw [BitVec.getLsbD_append, BitVec.getLsbD_setWidth, BitVec.getLsbD_setWidth, BitVec.getLsbD_ushiftRight]
    by_cases h : i < 32
    · simp [h]
    · have h1 : i - 32 < 32 := by omega
      have h2 : 32 + (i - 32) = i := by omega
      simp [h, h1, h2]
  simp [ReadsPair, Reads] at h
  simp [Env.readPair, h.1.2, h.2.2, bind, Except.bind, pure, Except.pure, key]

theorem usePair_ok {e : Env} {n : Nat} {x : Dword} (h : ReadsPair e n x) : e.usePair n = .ok x := by
  simp [Env.usePair, readPair_ok h, bind, Except.bind]

theorem exist_ok {e : Env} {l : List Nat} (h : ∀ n ∈ l, Has e n) : e.exist l = .ok () := by
  have : l.all (· < e.wave.alloc) = true := by simpa [Has] using h
  simp [Env.exist, require, this]

theorem queueRoom_ok {s : State} {e : Env} {u n : Nat} (h : s.env = some e)
    (hq : (s.unitIssues e.waveKey u).length < n) : e.queueRoom u n = .ok () := by
  simp [Env.queueRoom, require, env_s h, hq]

/-! ### Integer forms -/

section
variable {s : State} {e : Env} {t : BitVec 1} {d a b : BitVec 7} {x y z : Word}

theorem alu2_result {lat : Nat} {f : Word → Word → Word} (h : s.env = some e) (hd : Has e d.toNat)
    (ha : Reads e a.toNat x) (hb : Reads e b.toNat y) : alu2 s t d a b lat f = wrote e t d.toNat lat (f x y) := by
  have h1 := ha.1
  have h2 := hb.1
  exact laneStep_ok h (by simp [exist_ok, use2_ok ha hb, bind, Except.bind, pure, Except.pure, *])

theorem alu1_result {f : Word → Word} (h : s.env = some e) (hd : Has e d.toNat) (ha : Reads e a.toNat x) :
    alu1 s t d a f = wrote e t d.toNat 1 (f x) := by
  have h1 := ha.1
  exact laneStep_ok h (by simp [exist_ok, use_ok ha, bind, Except.bind, pure, Except.pure, *])

theorem aluI_result {i : BitVec 7} {f : Word → Word → Word} (h : s.env = some e) (hd : Has e d.toNat)
    (ha : Reads e a.toNat x) : aluI s t d a i f = wrote e t d.toNat 1 (f x (e.imm7 i)) := by
  have h1 := ha.1
  exact laneStep_ok h (by simp [exist_ok, use_ok ha, bind, Except.bind, pure, Except.pure, *])

theorem alu3_result {lat : Nat} {f : Word → Word → Word → Word} (h : s.env = some e) (hd : Reads e d.toNat z)
    (ha : Reads e a.toNat x) (hb : Reads e b.toNat y) :
    alu3 s t d a b lat f = wrote e t d.toNat lat (f x y z) := by
  have h1 := ha.1
  have h2 := hb.1
  have h3 := hd.1
  exact laneStep_ok h (by simp [exist_ok, use_ok ha, use2_ok hb hd, bind, Except.bind, pure, Except.pure, *])

theorem divide_result {f : Word → Word → Word} (h : s.env = some e) (hd : Has e d.toNat) (ha : Reads e a.toNat x)
    (hb : Reads e b.toNat y) : divide s d a b f = queued e 0 [(d.toNat, f x y)] 0 := by
  have h1 := ha.1
  have h2 := hb.1
  exact runLane_ok h (by simp [exist_ok, use2_ok ha hb, bind, Except.bind, pure, Except.pure, *])

/-! ### Float forms -/

theorem float2_result {f : Nat → Bool → Word → Word → Nat × Flags} (h : s.env = some e) (hd : Has e d.toNat)
    (ha : Reads e a.toNat x) (hb : Reads e b.toNat y) :
    float2 s t d a b f = floated e t d.toNat (f e.mode.1 e.mode.2 x y) := by
  have h1 := ha.1
  have h2 := hb.1
  exact laneStep_ok h
    (by simp [exist_ok, use2_ok ha hb, Env.floatOut, bind, Except.bind, pure, Except.pure, *])

theorem float1_result {f : Nat → Word → Nat × Flags} (h : s.env = some e) (hd : Has e d.toNat)
    (ha : Reads e a.toNat x) : float1 s t d a f = floated e t d.toNat (f e.mode.1 x) := by
  have h1 := ha.1
  exact laneStep_ok h (by simp [exist_ok, use_ok ha, Env.floatOut, bind, Except.bind, pure, Except.pure, *])

theorem float3_result {f : Nat → Bool → Word → Word → Word → Nat × Flags} (h : s.env = some e)
    (hd : Reads e d.toNat z) (ha : Reads e a.toNat x) (hb : Reads e b.toNat y) :
    float3 s t d a b f = floated e t d.toNat (f e.mode.1 e.mode.2 x y z) := by
  have h1 := ha.1
  have h2 := hb.1
  have h3 := hd.1
  exact laneStep_ok h
    (by simp [exist_ok, use_ok ha, use2_ok hb hd, Env.floatOut, bind, Except.bind, pure, Except.pure, *])

/-! ### Queued forms -/

theorem sfu1_result {op : Nat} (h : s.env = some e) (hop : op ≠ 3) (hd : Has e d.toNat) (ha : Reads e a.toNat x)
    (hq : (s.unitIssues e.waveKey 1).length < 4) :
    sfuOp s op d a b = queued e 1 [(d.toNat, .ofNat 32 (sfu op x 0).1)] (e.loud (sfu op x 0).2) := by
  have h1 := ha.1
  exact runLane_ok h (by simp [exist_ok, use_ok ha, queueRoom_ok h hq, Config.sfuQueue, bind, Except.bind, pure,
    Except.pure, Except.map, *])

theorem sfu2_result (h : s.env = some e) (hd : Has e d.toNat) (ha : Reads e a.toNat x) (hb : Reads e b.toNat y)
    (hq : (s.unitIssues e.waveKey 1).length < 4) :
    sfuOp s 3 d a b = queued e 1 [(d.toNat, .ofNat 32 (sfu 3 x y).1)] (e.loud (sfu 3 x y).2) := by
  have h1 := ha.1
  have h2 := hb.1
  exact runLane_ok h (by simp [exist_ok, use2_ok ha hb, queueRoom_ok h hq, Config.sfuQueue, bind, Except.bind,
    pure, Except.pure, *])

theorem cvt_result {k : Nat} {ty tx : BitVec 3} (h : s.env = some e) (hd : Has e d.toNat) (ha : Reads e a.toNat x)
    (hq : (s.unitIssues e.waveKey 2).length < 8) :
    cvtOp s k d a ty tx = queued e 2 [(d.toNat, (convert k ty.toNat tx.toNat e.mode.1 e.mode.2 x.toNat).1)]
      (e.loud (convert k ty.toNat tx.toNat e.mode.1 e.mode.2 x.toNat).2) := by
  have h1 := ha.1
  exact runLane_ok h (by simp [exist_ok, use_ok ha, queueRoom_ok h hq, Config.cvtQueue, bind, Except.bind, pure,
    Except.pure, *])

end

end Sys2Proof.Machine
end

