-- ==== Sys2Proof/Laws/Memory.lean ====
section
/-!
SUPPORT. The laws of tables and of memory: a read after a write, what a write leaves alone, and that every memory
operation keeps the canonical form.
-/

namespace Sys2Proof

/-! ### Tables -/

variable {α : Type}

@[simp] theorem Tbl.find_set_same (t : Tbl α) (k : Nat) (x : α) : Tbl.find (Tbl.set t k x) k = some x := by
  induction t with
  | nil => simp [Tbl.set, Tbl.find]
  | cons p t ih =>
    obtain ⟨j, y⟩ := p
    simp only [Tbl.set]
    split
    · simp [Tbl.find]
    · split
      · simp [Tbl.find]
      · next h => simp [Tbl.find, h, ih]

theorem Tbl.find_set_other (t : Tbl α) {k n : Nat} (x : α) (h : n ≠ k) : Tbl.find (Tbl.set t k x) n = Tbl.find t n := by
  induction t with
  | nil => simp [Tbl.set, Tbl.find, Ne.symm h]
  | cons p t ih =>
    obtain ⟨j, y⟩ := p
    simp only [Tbl.set]
    split
    · simp [Tbl.find, Ne.symm h]
    · split
      · next e => simp [Tbl.find, e, Ne.symm h]
      · simp [Tbl.find, ih]

theorem Tbl.find_set (t : Tbl α) (k n : Nat) (x : α) :
    Tbl.find (Tbl.set t k x) n = if n = k then some x else Tbl.find t n := by
  by_cases h : n = k
  · subst h; simp
  · simp [h, Tbl.find_set_other t x h]

@[simp] theorem Tbl.set_set (t : Tbl α) (k : Nat) (x y : α) : Tbl.set (Tbl.set t k x) k y = Tbl.set t k y := by
  induction t with
  | nil => simp [Tbl.set]
  | cons p t ih =>
    obtain ⟨j, z⟩ := p
    by_cases h1 : k < j
    · simp [Tbl.set, h1]
    · by_cases h2 : j = k
      · subst h2; simp [Tbl.set]
      · simp [Tbl.set, h1, h2, ih]

theorem Tbl.set_same (t : Tbl α) (k : Nat) (x : α) (h : Tbl.find t k = some x)
    (hs : t.Pairwise fun p q => p.1 < q.1) : Tbl.set t k x = t := by
  induction t with
  | nil => simp [Tbl.find] at h
  | cons p t ih =>
    obtain ⟨j, y⟩ := p
    rw [List.pairwise_cons] at hs
    by_cases h2 : j = k
    · subst h2; simp [Tbl.find] at h; simp [Tbl.set, h]
    · simp [Tbl.find, h2] at h
      have hlt : ¬ k < j := by
        intro hkj
        have hmem : ∀ (u : Tbl α), Tbl.find u k = some x → ∃ p ∈ u, p.1 = k := by
          intro u
          induction u with
          | nil => intro h; simp [Tbl.find] at h
          | cons q u ihu =>
            obtain ⟨a, b⟩ := q
            intro h
            by_cases hak : a = k
            · exact ⟨(a, b), by simp, hak⟩
            · simp [Tbl.find, hak] at h
              obtain ⟨p, hp, e⟩ := ihu h
              exact ⟨p, by simp [hp], e⟩
        obtain ⟨p, hp, e⟩ := hmem t h
        have := hs.1 p hp
        simp at this
        omega
      simp [Tbl.set, hlt, h2, ih h hs.2]

@[simp] theorem Tbl.find_change_same (t : Tbl α) (k : Nat) (f : α → α) :
    Tbl.find (Tbl.change t k f) k = (Tbl.find t k).map f := by
  unfold Tbl.change
  split
  · next h => simp [h]
  · next h => simp [h]

theorem Tbl.find_change_other (t : Tbl α) {k n : Nat} (f : α → α) (h : n ≠ k) :
    Tbl.find (Tbl.change t k f) n = Tbl.find t n := by
  unfold Tbl.change
  split
  · exact Tbl.find_set_other t _ h
  · rfl

@[simp] theorem Tbl.get_set_same (t : Tbl α) (k : Nat) (x d : α) : Tbl.get (Tbl.set t k x) k d = x := by simp [Tbl.get]

theorem Tbl.get_set_other (t : Tbl α) {k n : Nat} (x d : α) (h : n ≠ k) : Tbl.get (Tbl.set t k x) n d = Tbl.get t n d := by
  simp [Tbl.get, Tbl.find_set_other t x h]

/-! ### The canonical form of memory -/

namespace Machine

open Sys2Proof.Safety

/-- The first address, when there is one, lies above `a`. -/
def Memory.above (a : Nat) : List Host.Cell → Prop
  | [] => True
  | c :: _ => a < c.1

theorem Memory.wf_cons (c : Host.Cell) (m : List Host.Cell) :
    Memory.wf (c :: m) = true ↔ c.2 ≠ emptyByte ∧ Memory.above c.1 m ∧ Memory.wf m = true := by
  obtain ⟨a, b⟩ := c
  cases m with
  | nil => simp [Memory.wf, Memory.above]
  | cons d m => obtain ⟨a', b'⟩ := d; simp [Memory.wf, Memory.above, and_assoc]

theorem Memory.read_below {a : Nat} {m : List Host.Cell} (hw : Memory.wf m = true) (h : Memory.above a m) :
    Memory.read m a = emptyByte := by
  induction m with
  | nil => rfl
  | cons c m ih =>
    obtain ⟨j, b⟩ := c
    rw [Memory.wf_cons] at hw
    simp only [Memory.above] at h
    have : j ≠ a := by omega
    simp only [Memory.read, this, if_false]
    apply ih hw.2.2
    cases m with
    | nil => trivial
    | cons d m => have := hw.2.1; simp only [Memory.above] at this ⊢; omega

theorem Memory.above_erase {a j : Nat} {m : List Host.Cell} (hw : Memory.wf m = true) (h : Memory.above j m) :
    Memory.above j (Memory.erase m a) := by
  cases m with
  | nil => trivial
  | cons c m =>
    obtain ⟨i, b⟩ := c
    rw [Memory.wf_cons] at hw
    simp only [Memory.above] at h
    simp only [Memory.erase]
    split
    · cases m with
      | nil => trivial
      | cons d m => have := hw.2.1; simp only [Memory.above] at this ⊢; omega
    · split <;> exact h

theorem Memory.wf_erase {m : List Host.Cell} (hw : Memory.wf m = true) (a : Nat) :
    Memory.wf (Memory.erase m a) = true := by
  induction m with
  | nil => rfl
  | cons c m ih =>
    obtain ⟨i, b⟩ := c
    have h := hw
    rw [Memory.wf_cons] at h
    simp only [Memory.erase]
    split
    · exact h.2.2
    · split
      · exact hw
      · rw [Memory.wf_cons]; exact ⟨h.1, Memory.above_erase h.2.2 h.2.1, ih h.2.2⟩

theorem Memory.above_insert {a j : Nat} {x : Byte} {m : List Host.Cell} (h : Memory.above j m) (ha : j < a) :
    Memory.above j (Memory.insert m a x) := by
  cases m with
  | nil => exact ha
  | cons c m =>
    obtain ⟨i, b⟩ := c
    simp only [Memory.insert]
    split
    · exact ha
    · split
      · exact ha
      · exact h

theorem Memory.wf_insert {m : List Host.Cell} (hw : Memory.wf m = true) (a : Nat) {x : Byte} (hx : x ≠ emptyByte) :
    Memory.wf (Memory.insert m a x) = true := by
  induction m with
  | nil => simp [Memory.insert, Memory.wf, hx]
  | cons c m ih =>
    obtain ⟨i, b⟩ := c
    have h := hw
    rw [Memory.wf_cons] at h
    simp only [Memory.insert]
    split
    · next hlt => rw [Memory.wf_cons]; exact ⟨hx, hlt, hw⟩
    · split
      · next e => subst e; rw [Memory.wf_cons]; exact ⟨hx, h.2.1, h.2.2⟩
      · next h1 h2 =>
        rw [Memory.wf_cons]
        exact ⟨h.1, Memory.above_insert h.2.1 (show i < a by omega), ih h.2.2⟩

theorem Memory.wf_write {m : List Host.Cell} (hw : Memory.wf m = true) (a : Nat) (x : Byte) :
    Memory.wf (Memory.write m a x) = true := by
  unfold Memory.write
  split
  · exact Memory.wf_erase hw a
  · next h => exact Memory.wf_insert hw a h

theorem Memory.wf_writeAll {m : List Host.Cell} (hw : Memory.wf m = true) (l : List Host.Cell) :
    Memory.wf (Memory.writeAll m l) = true := by
  induction l generalizing m with
  | nil => exact hw
  | cons c l ih => obtain ⟨a, x⟩ := c; exact ih (Memory.wf_write hw a x)

/-! ### Reading after writing -/

theorem Memory.read_insert (m : List Host.Cell) (a n : Nat) (x : Byte) :
    Memory.read (Memory.insert m a x) n = if n = a then x else Memory.read m n := by
  induction m with
  | nil => simp [Memory.insert, Memory.read, eq_comm]
  | cons c m ih =>
    obtain ⟨i, b⟩ := c
    simp only [Memory.insert]
    by_cases h : n = a
    · subst h
      split
      · simp [Memory.read]
      · split
        · simp [Memory.read]
        · next h2 => simp [Memory.read, h2, ih]
    · have ha : a ≠ n := Ne.symm h
      split
      · simp [Memory.read, ha]
      · split
        · next e => subst e; simp [Memory.read, ha]
        · simp [Memory.read, ih, h]

theorem Memory.read_erase {m : List Host.Cell} (hw : Memory.wf m = true) (a n : Nat) :
    Memory.read (Memory.erase m a) n = if n = a then emptyByte else Memory.read m n := by
  induction m with
  | nil => simp [Memory.erase, Memory.read]
  | cons c m ih =>
    obtain ⟨i, b⟩ := c
    have h := hw
    rw [Memory.wf_cons] at h
    simp only [Memory.erase]
    split
    · next e =>
      subst e
      by_cases hn : n = i
      · subst hn; simp [Memory.read_below h.2.2 h.2.1]
      · have : i ≠ n := Ne.symm hn
        simp [Memory.read, hn, this]
    · split
      · next hlt =>
        by_cases hn : n = a
        · subst hn; rw [if_pos rfl]; exact Memory.read_below hw hlt
        · simp [hn]
      · next hne _ =>
        by_cases hi : i = n
        · subst hi; simp [Memory.read, hne]
        · simp [Memory.read, hi, ih h.2.2]

theorem Memory.read_write {m : List Host.Cell} (hw : Memory.wf m = true) (a n : Nat) (x : Byte) :
    Memory.read (Memory.write m a x) n = if n = a then x else Memory.read m n := by
  unfold Memory.write
  split
  · next h => subst h; exact Memory.read_erase hw a n
  · exact Memory.read_insert m a n x

/-- A write of bytes leaves every other byte alone. -/
theorem Memory.read_writeAll_other {m : List Host.Cell} (hw : Memory.wf m = true) (l : List Host.Cell) (n : Nat)
    (h : n ∉ l.map (·.1)) : Memory.read (Memory.writeAll m l) n = Memory.read m n := by
  induction l generalizing m with
  | nil => rfl
  | cons c l ih =>
    obtain ⟨a, x⟩ := c
    simp only [List.map_cons, List.mem_cons, not_or] at h
    simp only [Memory.writeAll]
    rw [ih (Memory.wf_write hw a x) h.2, Memory.read_write hw, if_neg h.1]

/-- A read after a write of bytes at different addresses gives the byte written. -/
theorem Memory.read_writeAll_same {m : List Host.Cell} (hw : Memory.wf m = true) (l : List Host.Cell)
    (hn : (l.map (·.1)).Nodup) (c : Host.Cell) (hc : c ∈ l) : Memory.read (Memory.writeAll m l) c.1 = c.2 := by
  induction l generalizing m with
  | nil => simp at hc
  | cons d l ih =>
    obtain ⟨a, x⟩ := d
    simp only [List.map_cons, List.nodup_cons] at hn
    simp only [Memory.writeAll]
    rcases List.mem_cons.mp hc with e | e
    · subst e
      rw [Memory.read_writeAll_other (Memory.wf_write hw a x) l a hn.1, Memory.read_write hw, if_pos rfl]
    · exact ih (Memory.wf_write hw a x) hn.2 e

theorem MemoryOk.pokeAll {s : State} (h : MemoryOk s) (l : List Host.Cell) : MemoryOk (s.pokeAll l) :=
  Memory.wf_writeAll h _

theorem MemoryOk.poke {s : State} (h : MemoryOk s) (pa : Nat) (l : List Byte) : MemoryOk (s.poke pa l) :=
  MemoryOk.pokeAll h _

/-- A state with the same memory keeps the canonical form. -/
theorem MemoryOk.of_mem {s t : State} (h : MemoryOk s) (e : t.mem = s.mem) : MemoryOk t := by
  unfold MemoryOk at *; rw [e]; exact h

end Machine

end Sys2Proof
end

