-- ==== Sys2Proof/Laws/PerInstr.lean ====
section
/-!
SUPPORT. The statement that decode and encode agree, one lemma per constructor of Instr.
-/

namespace Sys2Proof.Laws

/-- The word of an instruction has 32 bits and decodes to the instruction. -/
def RoundTrip.Statement (i : Instr) : Prop := ∀ w, encode i = some w → w < 2 ^ 32 ∧ decodeWord w = .ok i

theorem ofNat_field {n : Nat} (x : BitVec n) (m : Nat) (h : m % 2 ^ n = x.toNat) : BitVec.ofNat n m = x := by
  apply BitVec.eq_of_toNat_eq
  simpa using h

theorem RoundTrip.add (t : BitVec 1) (d : BitVec 7) (a : BitVec 7) (b : BitVec 7) : RoundTrip.Statement (.add t d a b) := by
  intro word henc
  have hword : put (put (put (put 0x04000000 21 t) 14 d) 7 a) 0 b = word := Option.some.inj henc
  simp only [put] at hword
  have := t.isLt
  have := d.isLt
  have := a.isLt
  have := b.isLt
  clear henc
  have hc : fld word 26 6 = 1 := by simp only [fld]; omega
  have h0 : fld word 22 4 = 0 := by simp only [fld]; omega
  have f0 : BitVec.ofNat 1 (word / 2097152) = t := ofNat_field _ _ (by omega)
  have f1 : BitVec.ofNat 7 (word / 16384) = d := ofNat_field _ _ (by omega)
  have f2 : BitVec.ofNat 7 (word / 128) = a := ofNat_field _ _ (by omega)
  have f3 : BitVec.ofNat 7 word = b := ofNat_field _ _ (by omega)
  refine ⟨by omega, ?_⟩
  simp [decodeWord, hc, decodeIalu, h0, f0, f1, f2, f3]

theorem RoundTrip.hs (n : BitVec 8) : RoundTrip.Statement (.hs n) := by
  intro word henc
  have hword : put 0x00000000 0 n = word := Option.some.inj henc
  simp only [put] at hword
  have := n.isLt
  clear henc
  have hc : fld word 26 6 = 0 := by simp only [fld]; omega
  have h0 : fld word 22 4 = 0 := by simp only [fld]; omega
  have h1 : fld word 8 14 = 0 := by simp only [fld]; omega
  have f0 : BitVec.ofNat 8 word = n := ofNat_field _ _ (by omega)
  refine ⟨by omega, ?_⟩
  simp [decodeWord, hc, decodeHint, h0, h1, f0]

theorem RoundTrip.sub (t : BitVec 1) (d : BitVec 7) (a : BitVec 7) (b : BitVec 7) : RoundTrip.Statement (.sub t d a b) := by
  intro word henc
  have hword : put (put (put (put 0x04400000 21 t) 14 d) 7 a) 0 b = word := Option.some.inj henc
  simp only [put] at hword
  have := t.isLt
  have := d.isLt
  have := a.isLt
  have := b.isLt
  clear henc
  have hc : fld word 26 6 = 1 := by simp only [fld]; omega
  have h0 : fld word 22 4 = 1 := by simp only [fld]; omega
  have f0 : BitVec.ofNat 1 (word / 2097152) = t := ofNat_field _ _ (by omega)
  have f1 : BitVec.ofNat 7 (word / 16384) = d := ofNat_field _ _ (by omega)
  have f2 : BitVec.ofNat 7 (word / 128) = a := ofNat_field _ _ (by omega)
  have f3 : BitVec.ofNat 7 word = b := ofNat_field _ _ (by omega)
  refine ⟨by omega, ?_⟩
  simp [decodeWord, hc, decodeIalu, h0, f0, f1, f2, f3]

theorem RoundTrip.and (t : BitVec 1) (d : BitVec 7) (a : BitVec 7) (b : BitVec 7) : RoundTrip.Statement (.and t d a b) := by
  intro word henc
  have hword : put (put (put (put 0x04800000 21 t) 14 d) 7 a) 0 b = word := Option.some.inj henc
  simp only [put] at hword
  have := t.isLt
  have := d.isLt
  have := a.isLt
  have := b.isLt
  clear henc
  have hc : fld word 26 6 = 1 := by simp only [fld]; omega
  have h0 : fld word 22 4 = 2 := by simp only [fld]; omega
  have f0 : BitVec.ofNat 1 (word / 2097152) = t := ofNat_field _ _ (by omega)
  have f1 : BitVec.ofNat 7 (word / 16384) = d := ofNat_field _ _ (by omega)
  have f2 : BitVec.ofNat 7 (word / 128) = a := ofNat_field _ _ (by omega)
  have f3 : BitVec.ofNat 7 word = b := ofNat_field _ _ (by omega)
  refine ⟨by omega, ?_⟩
  simp [decodeWord, hc, decodeIalu, h0, f0, f1, f2, f3]

theorem RoundTrip.or (t : BitVec 1) (d : BitVec 7) (a : BitVec 7) (b : BitVec 7) : RoundTrip.Statement (.or t d a b) := by
  intro word henc
  have hword : put (put (put (put 0x04C00000 21 t) 14 d) 7 a) 0 b = word := Option.some.inj henc
  simp only [put] at hword
  have := t.isLt
  have := d.isLt
  have := a.isLt
  have := b.isLt
  clear henc
  have hc : fld word 26 6 = 1 := by simp only [fld]; omega
  have h0 : fld word 22 4 = 3 := by simp only [fld]; omega
  have f0 : BitVec.ofNat 1 (word / 2097152) = t := ofNat_field _ _ (by omega)
  have f1 : BitVec.ofNat 7 (word / 16384) = d := ofNat_field _ _ (by omega)
  have f2 : BitVec.ofNat 7 (word / 128) = a := ofNat_field _ _ (by omega)
  have f3 : BitVec.ofNat 7 word = b := ofNat_field _ _ (by omega)
  refine ⟨by omega, ?_⟩
  simp [decodeWord, hc, decodeIalu, h0, f0, f1, f2, f3]

theorem RoundTrip.xor (t : BitVec 1) (d : BitVec 7) (a : BitVec 7) (b : BitVec 7) : RoundTrip.Statement (.xor t d a b) := by
  intro word henc
  have hword : put (put (put (put 0x05000000 21 t) 14 d) 7 a) 0 b = word := Option.some.inj henc
  simp only [put] at hword
  have := t.isLt
  have := d.isLt
  have := a.isLt
  have := b.isLt
  clear henc
  have hc : fld word 26 6 = 1 := by simp only [fld]; omega
  have h0 : fld word 22 4 = 4 := by simp only [fld]; omega
  have f0 : BitVec.ofNat 1 (word / 2097152) = t := ofNat_field _ _ (by omega)
  have f1 : BitVec.ofNat 7 (word / 16384) = d := ofNat_field _ _ (by omega)
  have f2 : BitVec.ofNat 7 (word / 128) = a := ofNat_field _ _ (by omega)
  have f3 : BitVec.ofNat 7 word = b := ofNat_field _ _ (by omega)
  refine ⟨by omega, ?_⟩
  simp [decodeWord, hc, decodeIalu, h0, f0, f1, f2, f3]

theorem RoundTrip.andn (t : BitVec 1) (d : BitVec 7) (a : BitVec 7) (b : BitVec 7) : RoundTrip.Statement (.andn t d a b) := by
  intro word henc
  have hword : put (put (put (put 0x05400000 21 t) 14 d) 7 a) 0 b = word := Option.some.inj henc
  simp only [put] at hword
  have := t.isLt
  have := d.isLt
  have := a.isLt
  have := b.isLt
  clear henc
  have hc : fld word 26 6 = 1 := by simp only [fld]; omega
  have h0 : fld word 22 4 = 5 := by simp only [fld]; omega
  have f0 : BitVec.ofNat 1 (word / 2097152) = t := ofNat_field _ _ (by omega)
  have f1 : BitVec.ofNat 7 (word / 16384) = d := ofNat_field _ _ (by omega)
  have f2 : BitVec.ofNat 7 (word / 128) = a := ofNat_field _ _ (by omega)
  have f3 : BitVec.ofNat 7 word = b := ofNat_field _ _ (by omega)
  refine ⟨by omega, ?_⟩
  simp [decodeWord, hc, decodeIalu, h0, f0, f1, f2, f3]

theorem RoundTrip.min (t : BitVec 1) (d : BitVec 7) (a : BitVec 7) (b : BitVec 7) : RoundTrip.Statement (.min t d a b) := by
  intro word henc
  have hword : put (put (put (put 0x05800000 21 t) 14 d) 7 a) 0 b = word := Option.some.inj henc
  simp only [put] at hword
  have := t.isLt
  have := d.isLt
  have := a.isLt
  have := b.isLt
  clear henc
  have hc : fld word 26 6 = 1 := by simp only [fld]; omega
  have h0 : fld word 22 4 = 6 := by simp only [fld]; omega
  have f0 : BitVec.ofNat 1 (word / 2097152) = t := ofNat_field _ _ (by omega)
  have f1 : BitVec.ofNat 7 (word / 16384) = d := ofNat_field _ _ (by omega)
  have f2 : BitVec.ofNat 7 (word / 128) = a := ofNat_field _ _ (by omega)
  have f3 : BitVec.ofNat 7 word = b := ofNat_field _ _ (by omega)
  refine ⟨by omega, ?_⟩
  simp [decodeWord, hc, decodeIalu, h0, f0, f1, f2, f3]

theorem RoundTrip.max (t : BitVec 1) (d : BitVec 7) (a : BitVec 7) (b : BitVec 7) : RoundTrip.Statement (.max t d a b) := by
  intro word henc
  have hword : put (put (put (put 0x05C00000 21 t) 14 d) 7 a) 0 b = word := Option.some.inj henc
  simp only [put] at hword
  have := t.isLt
  have := d.isLt
  have := a.isLt
  have := b.isLt
  clear henc
  have hc : fld word 26 6 = 1 := by simp only [fld]; omega
  have h0 : fld word 22 4 = 7 := by simp only [fld]; omega
  have f0 : BitVec.ofNat 1 (word / 2097152) = t := ofNat_field _ _ (by omega)
  have f1 : BitVec.ofNat 7 (word / 16384) = d := ofNat_field _ _ (by omega)
  have f2 : BitVec.ofNat 7 (word / 128) = a := ofNat_field _ _ (by omega)
  have f3 : BitVec.ofNat 7 word = b := ofNat_field _ _ (by omega)
  refine ⟨by omega, ?_⟩
  simp [decodeWord, hc, decodeIalu, h0, f0, f1, f2, f3]

theorem RoundTrip.minb (t : BitVec 1) (d : BitVec 7) (a : BitVec 7) (b : BitVec 7) : RoundTrip.Statement (.minb t d a b) := by
  intro word henc
  have hword : put (put (put (put 0x06000000 21 t) 14 d) 7 a) 0 b = word := Option.some.inj henc
  simp only [put] at hword
  have := t.isLt
  have := d.isLt
  have := a.isLt
  have := b.isLt
  clear henc
  have hc : fld word 26 6 = 1 := by simp only [fld]; omega
  have h0 : fld word 22 4 = 8 := by simp only [fld]; omega
  have f0 : BitVec.ofNat 1 (word / 2097152) = t := ofNat_field _ _ (by omega)
  have f1 : BitVec.ofNat 7 (word / 16384) = d := ofNat_field _ _ (by omega)
  have f2 : BitVec.ofNat 7 (word / 128) = a := ofNat_field _ _ (by omega)
  have f3 : BitVec.ofNat 7 word = b := ofNat_field _ _ (by omega)
  refine ⟨by omega, ?_⟩
  simp [decodeWord, hc, decodeIalu, h0, f0, f1, f2, f3]

theorem RoundTrip.maxb (t : BitVec 1) (d : BitVec 7) (a : BitVec 7) (b : BitVec 7) : RoundTrip.Statement (.maxb t d a b) := by
  intro word henc
  have hword : put (put (put (put 0x06400000 21 t) 14 d) 7 a) 0 b = word := Option.some.inj henc
  simp only [put] at hword
  have := t.isLt
  have := d.isLt
  have := a.isLt
  have := b.isLt
  clear henc
  have hc : fld word 26 6 = 1 := by simp only [fld]; omega
  have h0 : fld word 22 4 = 9 := by simp only [fld]; omega
  have f0 : BitVec.ofNat 1 (word / 2097152) = t := ofNat_field _ _ (by omega)
  have f1 : BitVec.ofNat 7 (word / 16384) = d := ofNat_field _ _ (by omega)
  have f2 : BitVec.ofNat 7 (word / 128) = a := ofNat_field _ _ (by omega)
  have f3 : BitVec.ofNat 7 word = b := ofNat_field _ _ (by omega)
  refine ⟨by omega, ?_⟩
  simp [decodeWord, hc, decodeIalu, h0, f0, f1, f2, f3]

theorem RoundTrip.abs (t : BitVec 1) (d : BitVec 7) (a : BitVec 7) : RoundTrip.Statement (.abs t d a) := by
  intro word henc
  have hword : put (put (put 0x06800000 21 t) 14 d) 7 a = word := Option.some.inj henc
  simp only [put] at hword
  have := t.isLt
  have := d.isLt
  have := a.isLt
  clear henc
  have hc : fld word 26 6 = 1 := by simp only [fld]; omega
  have h0 : fld word 22 4 = 10 := by simp only [fld]; omega
  have h1 : fld word 0 7 = 0 := by simp only [fld]; omega
  have f0 : BitVec.ofNat 1 (word / 2097152) = t := ofNat_field _ _ (by omega)
  have f1 : BitVec.ofNat 7 (word / 16384) = d := ofNat_field _ _ (by omega)
  have f2 : BitVec.ofNat 7 (word / 128) = a := ofNat_field _ _ (by omega)
  refine ⟨by omega, ?_⟩
  simp [decodeWord, hc, decodeIalu, h0, h1, f0, f1, f2]

theorem RoundTrip.addc (t : BitVec 1) (d : BitVec 7) (a : BitVec 7) (b : BitVec 7) : RoundTrip.Statement (.addc t d a b) := by
  intro word henc
  have hword : put (put (put (put 0x06C00000 21 t) 14 d) 7 a) 0 b = word := Option.some.inj henc
  simp only [put] at hword
  have := t.isLt
  have := d.isLt
  have := a.isLt
  have := b.isLt
  clear henc
  have hc : fld word 26 6 = 1 := by simp only [fld]; omega
  have h0 : fld word 22 4 = 11 := by simp only [fld]; omega
  have f0 : BitVec.ofNat 1 (word / 2097152) = t := ofNat_field _ _ (by omega)
  have f1 : BitVec.ofNat 7 (word / 16384) = d := ofNat_field _ _ (by omega)
  have f2 : BitVec.ofNat 7 (word / 128) = a := ofNat_field _ _ (by omega)
  have f3 : BitVec.ofNat 7 word = b := ofNat_field _ _ (by omega)
  refine ⟨by omega, ?_⟩
  simp [decodeWord, hc, decodeIalu, h0, f0, f1, f2, f3]

theorem RoundTrip.subb (t : BitVec 1) (d : BitVec 7) (a : BitVec 7) (b : BitVec 7) : RoundTrip.Statement (.subb t d a b) := by
  intro word henc
  have hword : put (put (put (put 0x07000000 21 t) 14 d) 7 a) 0 b = word := Option.some.inj henc
  simp only [put] at hword
  have := t.isLt
  have := d.isLt
  have := a.isLt
  have := b.isLt
  clear henc
  have hc : fld word 26 6 = 1 := by simp only [fld]; omega
  have h0 : fld word 22 4 = 12 := by simp only [fld]; omega
  have f0 : BitVec.ofNat 1 (word / 2097152) = t := ofNat_field _ _ (by omega)
  have f1 : BitVec.ofNat 7 (word / 16384) = d := ofNat_field _ _ (by omega)
  have f2 : BitVec.ofNat 7 (word / 128) = a := ofNat_field _ _ (by omega)
  have f3 : BitVec.ofNat 7 word = b := ofNat_field _ _ (by omega)
  refine ⟨by omega, ?_⟩
  simp [decodeWord, hc, decodeIalu, h0, f0, f1, f2, f3]

theorem RoundTrip.adds (t : BitVec 1) (d : BitVec 7) (a : BitVec 7) (b : BitVec 7) : RoundTrip.Statement (.adds t d a b) := by
  intro word henc
  have hword : put (put (put (put 0x07400000 21 t) 14 d) 7 a) 0 b = word := Option.some.inj henc
  simp only [put] at hword
  have := t.isLt
  have := d.isLt
  have := a.isLt
  have := b.isLt
  clear henc
  have hc : fld word 26 6 = 1 := by simp only [fld]; omega
  have h0 : fld word 22 4 = 13 := by simp only [fld]; omega
  have f0 : BitVec.ofNat 1 (word / 2097152) = t := ofNat_field _ _ (by omega)
  have f1 : BitVec.ofNat 7 (word / 16384) = d := ofNat_field _ _ (by omega)
  have f2 : BitVec.ofNat 7 (word / 128) = a := ofNat_field _ _ (by omega)
  have f3 : BitVec.ofNat 7 word = b := ofNat_field _ _ (by omega)
  refine ⟨by omega, ?_⟩
  simp [decodeWord, hc, decodeIalu, h0, f0, f1, f2, f3]

theorem RoundTrip.subs (t : BitVec 1) (d : BitVec 7) (a : BitVec 7) (b : BitVec 7) : RoundTrip.Statement (.subs t d a b) := by
  intro word henc
  have hword : put (put (put (put 0x07800000 21 t) 14 d) 7 a) 0 b = word := Option.some.inj henc
  simp only [put] at hword
  have := t.isLt
  have := d.isLt
  have := a.isLt
  have := b.isLt
  clear henc
  have hc : fld word 26 6 = 1 := by simp only [fld]; omega
  have h0 : fld word 22 4 = 14 := by simp only [fld]; omega
  have f0 : BitVec.ofNat 1 (word / 2097152) = t := ofNat_field _ _ (by omega)
  have f1 : BitVec.ofNat 7 (word / 16384) = d := ofNat_field _ _ (by omega)
  have f2 : BitVec.ofNat 7 (word / 128) = a := ofNat_field _ _ (by omega)
  have f3 : BitVec.ofNat 7 word = b := ofNat_field _ _ (by omega)
  refine ⟨by omega, ?_⟩
  simp [decodeWord, hc, decodeIalu, h0, f0, f1, f2, f3]

theorem RoundTrip.neg (t : BitVec 1) (d : BitVec 7) (a : BitVec 7) : RoundTrip.Statement (.neg t d a) := by
  intro word henc
  have hword : put (put (put 0x07C00000 21 t) 14 d) 7 a = word := Option.some.inj henc
  simp only [put] at hword
  have := t.isLt
  have := d.isLt
  have := a.isLt
  clear henc
  have hc : fld word 26 6 = 1 := by simp only [fld]; omega
  have h0 : fld word 22 4 = 15 := by simp only [fld]; omega
  have h1 : fld word 0 7 = 0 := by simp only [fld]; omega
  have f0 : BitVec.ofNat 1 (word / 2097152) = t := ofNat_field _ _ (by omega)
  have f1 : BitVec.ofNat 7 (word / 16384) = d := ofNat_field _ _ (by omega)
  have f2 : BitVec.ofNat 7 (word / 128) = a := ofNat_field _ _ (by omega)
  refine ⟨by omega, ?_⟩
  simp [decodeWord, hc, decodeIalu, h0, h1, f0, f1, f2]

theorem RoundTrip.addImm (t : BitVec 1) (d : BitVec 7) (a : BitVec 7) (i : BitVec 7) : RoundTrip.Statement (.addImm t d a i) := by
  intro word henc
  have hword : put (put (put (put 0x08000000 21 t) 14 d) 7 a) 0 i = word := Option.some.inj henc
  simp only [put] at hword
  have := t.isLt
  have := d.isLt
  have := a.isLt
  have := i.isLt
  clear henc
  have hc : fld word 26 6 = 2 := by simp only [fld]; omega
  have h0 : fld word 22 4 = 0 := by simp only [fld]; omega
  have f0 : BitVec.ofNat 1 (word / 2097152) = t := ofNat_field _ _ (by omega)
  have f1 : BitVec.ofNat 7 (word / 16384) = d := ofNat_field _ _ (by omega)
  have f2 : BitVec.ofNat 7 (word / 128) = a := ofNat_field _ _ (by omega)
  have f3 : BitVec.ofNat 7 word = i := ofNat_field _ _ (by omega)
  refine ⟨by omega, ?_⟩
  simp [decodeWord, hc, decodeIalui, h0, f0, f1, f2, f3]

theorem RoundTrip.subImm (t : BitVec 1) (d : BitVec 7) (a : BitVec 7) (i : BitVec 7) : RoundTrip.Statement (.subImm t d a i) := by
  intro word henc
  have hword : put (put (put (put 0x08400000 21 t) 14 d) 7 a) 0 i = word := Option.some.inj henc
  simp only [put] at hword
  have := t.isLt
  have := d.isLt
  have := a.isLt
  have := i.isLt
  clear henc
  have hc : fld word 26 6 = 2 := by simp only [fld]; omega
  have h0 : fld word 22 4 = 1 := by simp only [fld]; omega
  have f0 : BitVec.ofNat 1 (word / 2097152) = t := ofNat_field _ _ (by omega)
  have f1 : BitVec.ofNat 7 (word / 16384) = d := ofNat_field _ _ (by omega)
  have f2 : BitVec.ofNat 7 (word / 128) = a := ofNat_field _ _ (by omega)
  have f3 : BitVec.ofNat 7 word = i := ofNat_field _ _ (by omega)
  refine ⟨by omega, ?_⟩
  simp [decodeWord, hc, decodeIalui, h0, f0, f1, f2, f3]

theorem RoundTrip.andImm (t : BitVec 1) (d : BitVec 7) (a : BitVec 7) (i : BitVec 7) : RoundTrip.Statement (.andImm t d a i) := by
  intro word henc
  have hword : put (put (put (put 0x08800000 21 t) 14 d) 7 a) 0 i = word := Option.some.inj henc
  simp only [put] at hword
  have := t.isLt
  have := d.isLt
  have := a.isLt
  have := i.isLt
  clear henc
  have hc : fld word 26 6 = 2 := by simp only [fld]; omega
  have h0 : fld word 22 4 = 2 := by simp only [fld]; omega
  have f0 : BitVec.ofNat 1 (word / 2097152) = t := ofNat_field _ _ (by omega)
  have f1 : BitVec.ofNat 7 (word / 16384) = d := ofNat_field _ _ (by omega)
  have f2 : BitVec.ofNat 7 (word / 128) = a := ofNat_field _ _ (by omega)
  have f3 : BitVec.ofNat 7 word = i := ofNat_field _ _ (by omega)
  refine ⟨by omega, ?_⟩
  simp [decodeWord, hc, decodeIalui, h0, f0, f1, f2, f3]

theorem RoundTrip.orImm (t : BitVec 1) (d : BitVec 7) (a : BitVec 7) (i : BitVec 7) : RoundTrip.Statement (.orImm t d a i) := by
  intro word henc
  have hword : put (put (put (put 0x08C00000 21 t) 14 d) 7 a) 0 i = word := Option.some.inj henc
  simp only [put] at hword
  have := t.isLt
  have := d.isLt
  have := a.isLt
  have := i.isLt
  clear henc
  have hc : fld word 26 6 = 2 := by simp only [fld]; omega
  have h0 : fld word 22 4 = 3 := by simp only [fld]; omega
  have f0 : BitVec.ofNat 1 (word / 2097152) = t := ofNat_field _ _ (by omega)
  have f1 : BitVec.ofNat 7 (word / 16384) = d := ofNat_field _ _ (by omega)
  have f2 : BitVec.ofNat 7 (word / 128) = a := ofNat_field _ _ (by omega)
  have f3 : BitVec.ofNat 7 word = i := ofNat_field _ _ (by omega)
  refine ⟨by omega, ?_⟩
  simp [decodeWord, hc, decodeIalui, h0, f0, f1, f2, f3]

theorem RoundTrip.xorImm (t : BitVec 1) (d : BitVec 7) (a : BitVec 7) (i : BitVec 7) : RoundTrip.Statement (.xorImm t d a i) := by
  intro word henc
  have hword : put (put (put (put 0x09000000 21 t) 14 d) 7 a) 0 i = word := Option.some.inj henc
  simp only [put] at hword
  have := t.isLt
  have := d.isLt
  have := a.isLt
  have := i.isLt
  clear henc
  have hc : fld word 26 6 = 2 := by simp only [fld]; omega
  have h0 : fld word 22 4 = 4 := by simp only [fld]; omega
  have f0 : BitVec.ofNat 1 (word / 2097152) = t := ofNat_field _ _ (by omega)
  have f1 : BitVec.ofNat 7 (word / 16384) = d := ofNat_field _ _ (by omega)
  have f2 : BitVec.ofNat 7 (word / 128) = a := ofNat_field _ _ (by omega)
  have f3 : BitVec.ofNat 7 word = i := ofNat_field _ _ (by omega)
  refine ⟨by omega, ?_⟩
  simp [decodeWord, hc, decodeIalui, h0, f0, f1, f2, f3]

theorem RoundTrip.andnImm (t : BitVec 1) (d : BitVec 7) (a : BitVec 7) (i : BitVec 7) : RoundTrip.Statement (.andnImm t d a i) := by
  intro word henc
  have hword : put (put (put (put 0x09400000 21 t) 14 d) 7 a) 0 i = word := Option.some.inj henc
  simp only [put] at hword
  have := t.isLt
  have := d.isLt
  have := a.isLt
  have := i.isLt
  clear henc
  have hc : fld word 26 6 = 2 := by simp only [fld]; omega
  have h0 : fld word 22 4 = 5 := by simp only [fld]; omega
  have f0 : BitVec.ofNat 1 (word / 2097152) = t := ofNat_field _ _ (by omega)
  have f1 : BitVec.ofNat 7 (word / 16384) = d := ofNat_field _ _ (by omega)
  have f2 : BitVec.ofNat 7 (word / 128) = a := ofNat_field _ _ (by omega)
  have f3 : BitVec.ofNat 7 word = i := ofNat_field _ _ (by omega)
  refine ⟨by omega, ?_⟩
  simp [decodeWord, hc, decodeIalui, h0, f0, f1, f2, f3]

theorem RoundTrip.minImm (t : BitVec 1) (d : BitVec 7) (a : BitVec 7) (i : BitVec 7) : RoundTrip.Statement (.minImm t d a i) := by
  intro word henc
  have hword : put (put (put (put 0x09800000 21 t) 14 d) 7 a) 0 i = word := Option.some.inj henc
  simp only [put] at hword
  have := t.isLt
  have := d.isLt
  have := a.isLt
  have := i.isLt
  clear henc
  have hc : fld word 26 6 = 2 := by simp only [fld]; omega
  have h0 : fld word 22 4 = 6 := by simp only [fld]; omega
  have f0 : BitVec.ofNat 1 (word / 2097152) = t := ofNat_field _ _ (by omega)
  have f1 : BitVec.ofNat 7 (word / 16384) = d := ofNat_field _ _ (by omega)
  have f2 : BitVec.ofNat 7 (word / 128) = a := ofNat_field _ _ (by omega)
  have f3 : BitVec.ofNat 7 word = i := ofNat_field _ _ (by omega)
  refine ⟨by omega, ?_⟩
  simp [decodeWord, hc, decodeIalui, h0, f0, f1, f2, f3]

theorem RoundTrip.maxImm (t : BitVec 1) (d : BitVec 7) (a : BitVec 7) (i : BitVec 7) : RoundTrip.Statement (.maxImm t d a i) := by
  intro word henc
  have hword : put (put (put (put 0x09C00000 21 t) 14 d) 7 a) 0 i = word := Option.some.inj henc
  simp only [put] at hword
  have := t.isLt
  have := d.isLt
  have := a.isLt
  have := i.isLt
  clear henc
  have hc : fld word 26 6 = 2 := by simp only [fld]; omega
  have h0 : fld word 22 4 = 7 := by simp only [fld]; omega
  have f0 : BitVec.ofNat 1 (word / 2097152) = t := ofNat_field _ _ (by omega)
  have f1 : BitVec.ofNat 7 (word / 16384) = d := ofNat_field _ _ (by omega)
  have f2 : BitVec.ofNat 7 (word / 128) = a := ofNat_field _ _ (by omega)
  have f3 : BitVec.ofNat 7 word = i := ofNat_field _ _ (by omega)
  refine ⟨by omega, ?_⟩
  simp [decodeWord, hc, decodeIalui, h0, f0, f1, f2, f3]

theorem RoundTrip.minbImm (t : BitVec 1) (d : BitVec 7) (a : BitVec 7) (i : BitVec 7) : RoundTrip.Statement (.minbImm t d a i) := by
  intro word henc
  have hword : put (put (put (put 0x0A000000 21 t) 14 d) 7 a) 0 i = word := Option.some.inj henc
  simp only [put] at hword
  have := t.isLt
  have := d.isLt
  have := a.isLt
  have := i.isLt
  clear henc
  have hc : fld word 26 6 = 2 := by simp only [fld]; omega
  have h0 : fld word 22 4 = 8 := by simp only [fld]; omega
  have f0 : BitVec.ofNat 1 (word / 2097152) = t := ofNat_field _ _ (by omega)
  have f1 : BitVec.ofNat 7 (word / 16384) = d := ofNat_field _ _ (by omega)
  have f2 : BitVec.ofNat 7 (word / 128) = a := ofNat_field _ _ (by omega)
  have f3 : BitVec.ofNat 7 word = i := ofNat_field _ _ (by omega)
  refine ⟨by omega, ?_⟩
  simp [decodeWord, hc, decodeIalui, h0, f0, f1, f2, f3]

theorem RoundTrip.maxbImm (t : BitVec 1) (d : BitVec 7) (a : BitVec 7) (i : BitVec 7) : RoundTrip.Statement (.maxbImm t d a i) := by
  intro word henc
  have hword : put (put (put (put 0x0A400000 21 t) 14 d) 7 a) 0 i = word := Option.some.inj henc
  simp only [put] at hword
  have := t.isLt
  have := d.isLt
  have := a.isLt
  have := i.isLt
  clear henc
  have hc : fld word 26 6 = 2 := by simp only [fld]; omega
  have h0 : fld word 22 4 = 9 := by simp only [fld]; omega
  have f0 : BitVec.ofNat 1 (word / 2097152) = t := ofNat_field _ _ (by omega)
  have f1 : BitVec.ofNat 7 (word / 16384) = d := ofNat_field _ _ (by omega)
  have f2 : BitVec.ofNat 7 (word / 128) = a := ofNat_field _ _ (by omega)
  have f3 : BitVec.ofNat 7 word = i := ofNat_field _ _ (by omega)
  refine ⟨by omega, ?_⟩
  simp [decodeWord, hc, decodeIalui, h0, f0, f1, f2, f3]

theorem RoundTrip.addcImm (t : BitVec 1) (d : BitVec 7) (a : BitVec 7) (i : BitVec 7) : RoundTrip.Statement (.addcImm t d a i) := by
  intro word henc
  have hword : put (put (put (put 0x0AC00000 21 t) 14 d) 7 a) 0 i = word := Option.some.inj henc
  simp only [put] at hword
  have := t.isLt
  have := d.isLt
  have := a.isLt
  have := i.isLt
  clear henc
  have hc : fld word 26 6 = 2 := by simp only [fld]; omega
  have h0 : fld word 22 4 = 11 := by simp only [fld]; omega
  have f0 : BitVec.ofNat 1 (word / 2097152) = t := ofNat_field _ _ (by omega)
  have f1 : BitVec.ofNat 7 (word / 16384) = d := ofNat_field _ _ (by omega)
  have f2 : BitVec.ofNat 7 (word / 128) = a := ofNat_field _ _ (by omega)
  have f3 : BitVec.ofNat 7 word = i := ofNat_field _ _ (by omega)
  refine ⟨by omega, ?_⟩
  simp [decodeWord, hc, decodeIalui, h0, f0, f1, f2, f3]

theorem RoundTrip.subbImm (t : BitVec 1) (d : BitVec 7) (a : BitVec 7) (i : BitVec 7) : RoundTrip.Statement (.subbImm t d a i) := by
  intro word henc
  have hword : put (put (put (put 0x0B000000 21 t) 14 d) 7 a) 0 i = word := Option.some.inj henc
  simp only [put] at hword
  have := t.isLt
  have := d.isLt
  have := a.isLt
  have := i.isLt
  clear henc
  have hc : fld word 26 6 = 2 := by simp only [fld]; omega
  have h0 : fld word 22 4 = 12 := by simp only [fld]; omega
  have f0 : BitVec.ofNat 1 (word / 2097152) = t := ofNat_field _ _ (by omega)
  have f1 : BitVec.ofNat 7 (word / 16384) = d := ofNat_field _ _ (by omega)
  have f2 : BitVec.ofNat 7 (word / 128) = a := ofNat_field _ _ (by omega)
  have f3 : BitVec.ofNat 7 word = i := ofNat_field _ _ (by omega)
  refine ⟨by omega, ?_⟩
  simp [decodeWord, hc, decodeIalui, h0, f0, f1, f2, f3]

theorem RoundTrip.addsImm (t : BitVec 1) (d : BitVec 7) (a : BitVec 7) (i : BitVec 7) : RoundTrip.Statement (.addsImm t d a i) := by
  intro word henc
  have hword : put (put (put (put 0x0B400000 21 t) 14 d) 7 a) 0 i = word := Option.some.inj henc
  simp only [put] at hword
  have := t.isLt
  have := d.isLt
  have := a.isLt
  have := i.isLt
  clear henc
  have hc : fld word 26 6 = 2 := by simp only [fld]; omega
  have h0 : fld word 22 4 = 13 := by simp only [fld]; omega
  have f0 : BitVec.ofNat 1 (word / 2097152) = t := ofNat_field _ _ (by omega)
  have f1 : BitVec.ofNat 7 (word / 16384) = d := ofNat_field _ _ (by omega)
  have f2 : BitVec.ofNat 7 (word / 128) = a := ofNat_field _ _ (by omega)
  have f3 : BitVec.ofNat 7 word = i := ofNat_field _ _ (by omega)
  refine ⟨by omega, ?_⟩
  simp [decodeWord, hc, decodeIalui, h0, f0, f1, f2, f3]

theorem RoundTrip.subsImm (t : BitVec 1) (d : BitVec 7) (a : BitVec 7) (i : BitVec 7) : RoundTrip.Statement (.subsImm t d a i) := by
  intro word henc
  have hword : put (put (put (put 0x0B800000 21 t) 14 d) 7 a) 0 i = word := Option.some.inj henc
  simp only [put] at hword
  have := t.isLt
  have := d.isLt
  have := a.isLt
  have := i.isLt
  clear henc
  have hc : fld word 26 6 = 2 := by simp only [fld]; omega
  have h0 : fld word 22 4 = 14 := by simp only [fld]; omega
  have f0 : BitVec.ofNat 1 (word / 2097152) = t := ofNat_field _ _ (by omega)
  have f1 : BitVec.ofNat 7 (word / 16384) = d := ofNat_field _ _ (by omega)
  have f2 : BitVec.ofNat 7 (word / 128) = a := ofNat_field _ _ (by omega)
  have f3 : BitVec.ofNat 7 word = i := ofNat_field _ _ (by omega)
  refine ⟨by omega, ?_⟩
  simp [decodeWord, hc, decodeIalui, h0, f0, f1, f2, f3]

theorem RoundTrip.shl (t : BitVec 1) (d : BitVec 7) (a : BitVec 7) (b : BitVec 7) : RoundTrip.Statement (.shl t d a b) := by
  intro word henc
  have hword : put (put (put (put 0x0C000000 21 t) 14 d) 7 a) 0 b = word := Option.some.inj henc
  simp only [put] at hword
  have := t.isLt
  have := d.isLt
  have := a.isLt
  have := b.isLt
  clear henc
  have hc : fld word 26 6 = 3 := by simp only [fld]; omega
  have h0 : fld word 22 4 = 0 := by simp only [fld]; omega
  have f0 : BitVec.ofNat 1 (word / 2097152) = t := ofNat_field _ _ (by omega)
  have f1 : BitVec.ofNat 7 (word / 16384) = d := ofNat_field _ _ (by omega)
  have f2 : BitVec.ofNat 7 (word / 128) = a := ofNat_field _ _ (by omega)
  have f3 : BitVec.ofNat 7 word = b := ofNat_field _ _ (by omega)
  refine ⟨by omega, ?_⟩
  simp [decodeWord, hc, decodeShift, h0, f0, f1, f2, f3]

theorem RoundTrip.shr (t : BitVec 1) (d : BitVec 7) (a : BitVec 7) (b : BitVec 7) : RoundTrip.Statement (.shr t d a b) := by
  intro word henc
  have hword : put (put (put (put 0x0C400000 21 t) 14 d) 7 a) 0 b = word := Option.some.inj henc
  simp only [put] at hword
  have := t.isLt
  have := d.isLt
  have := a.isLt
  have := b.isLt
  clear henc
  have hc : fld word 26 6 = 3 := by simp only [fld]; omega
  have h0 : fld word 22 4 = 1 := by simp only [fld]; omega
  have f0 : BitVec.ofNat 1 (word / 2097152) = t := ofNat_field _ _ (by omega)
  have f1 : BitVec.ofNat 7 (word / 16384) = d := ofNat_field _ _ (by omega)
  have f2 : BitVec.ofNat 7 (word / 128) = a := ofNat_field _ _ (by omega)
  have f3 : BitVec.ofNat 7 word = b := ofNat_field _ _ (by omega)
  refine ⟨by omega, ?_⟩
  simp [decodeWord, hc, decodeShift, h0, f0, f1, f2, f3]

theorem RoundTrip.sar (t : BitVec 1) (d : BitVec 7) (a : BitVec 7) (b : BitVec 7) : RoundTrip.Statement (.sar t d a b) := by
  intro word henc
  have hword : put (put (put (put 0x0C800000 21 t) 14 d) 7 a) 0 b = word := Option.some.inj henc
  simp only [put] at hword
  have := t.isLt
  have := d.isLt
  have := a.isLt
  have := b.isLt
  clear henc
  have hc : fld word 26 6 = 3 := by simp only [fld]; omega
  have h0 : fld word 22 4 = 2 := by simp only [fld]; omega
  have f0 : BitVec.ofNat 1 (word / 2097152) = t := ofNat_field _ _ (by omega)
  have f1 : BitVec.ofNat 7 (word / 16384) = d := ofNat_field _ _ (by omega)
  have f2 : BitVec.ofNat 7 (word / 128) = a := ofNat_field _ _ (by omega)
  have f3 : BitVec.ofNat 7 word = b := ofNat_field _ _ (by omega)
  refine ⟨by omega, ?_⟩
  simp [decodeWord, hc, decodeShift, h0, f0, f1, f2, f3]

theorem RoundTrip.rol (t : BitVec 1) (d : BitVec 7) (a : BitVec 7) (b : BitVec 7) : RoundTrip.Statement (.rol t d a b) := by
  intro word henc
  have hword : put (put (put (put 0x0CC00000 21 t) 14 d) 7 a) 0 b = word := Option.some.inj henc
  simp only [put] at hword
  have := t.isLt
  have := d.isLt
  have := a.isLt
  have := b.isLt
  clear henc
  have hc : fld word 26 6 = 3 := by simp only [fld]; omega
  have h0 : fld word 22 4 = 3 := by simp only [fld]; omega
  have f0 : BitVec.ofNat 1 (word / 2097152) = t := ofNat_field _ _ (by omega)
  have f1 : BitVec.ofNat 7 (word / 16384) = d := ofNat_field _ _ (by omega)
  have f2 : BitVec.ofNat 7 (word / 128) = a := ofNat_field _ _ (by omega)
  have f3 : BitVec.ofNat 7 word = b := ofNat_field _ _ (by omega)
  refine ⟨by omega, ?_⟩
  simp [decodeWord, hc, decodeShift, h0, f0, f1, f2, f3]

theorem RoundTrip.bfx (t : BitVec 1) (d : BitVec 7) (a : BitVec 7) (b : BitVec 7) : RoundTrip.Statement (.bfx t d a b) := by
  intro word henc
  have hword : put (put (put (put 0x0D000000 21 t) 14 d) 7 a) 0 b = word := Option.some.inj henc
  simp only [put] at hword
  have := t.isLt
  have := d.isLt
  have := a.isLt
  have := b.isLt
  clear henc
  have hc : fld word 26 6 = 3 := by simp only [fld]; omega
  have h0 : fld word 22 4 = 4 := by simp only [fld]; omega
  have f0 : BitVec.ofNat 1 (word / 2097152) = t := ofNat_field _ _ (by omega)
  have f1 : BitVec.ofNat 7 (word / 16384) = d := ofNat_field _ _ (by omega)
  have f2 : BitVec.ofNat 7 (word / 128) = a := ofNat_field _ _ (by omega)
  have f3 : BitVec.ofNat 7 word = b := ofNat_field _ _ (by omega)
  refine ⟨by omega, ?_⟩
  simp [decodeWord, hc, decodeShift, h0, f0, f1, f2, f3]

theorem RoundTrip.bfxb (t : BitVec 1) (d : BitVec 7) (a : BitVec 7) (b : BitVec 7) : RoundTrip.Statement (.bfxb t d a b) := by
  intro word henc
  have hword : put (put (put (put 0x0D400000 21 t) 14 d) 7 a) 0 b = word := Option.some.inj henc
  simp only [put] at hword
  have := t.isLt
  have := d.isLt
  have := a.isLt
  have := b.isLt
  clear henc
  have hc : fld word 26 6 = 3 := by simp only [fld]; omega
  have h0 : fld word 22 4 = 5 := by simp only [fld]; omega
  have f0 : BitVec.ofNat 1 (word / 2097152) = t := ofNat_field _ _ (by omega)
  have f1 : BitVec.ofNat 7 (word / 16384) = d := ofNat_field _ _ (by omega)
  have f2 : BitVec.ofNat 7 (word / 128) = a := ofNat_field _ _ (by omega)
  have f3 : BitVec.ofNat 7 word = b := ofNat_field _ _ (by omega)
  refine ⟨by omega, ?_⟩
  simp [decodeWord, hc, decodeShift, h0, f0, f1, f2, f3]

theorem RoundTrip.bfi (t : BitVec 1) (d : BitVec 7) (a : BitVec 7) (b : BitVec 7) : RoundTrip.Statement (.bfi t d a b) := by
  intro word henc
  have hword : put (put (put (put 0x0D800000 21 t) 14 d) 7 a) 0 b = word := Option.some.inj henc
  simp only [put] at hword
  have := t.isLt
  have := d.isLt
  have := a.isLt
  have := b.isLt
  clear henc
  have hc : fld word 26 6 = 3 := by simp only [fld]; omega
  have h0 : fld word 22 4 = 6 := by simp only [fld]; omega
  have f0 : BitVec.ofNat 1 (word / 2097152) = t := ofNat_field _ _ (by omega)
  have f1 : BitVec.ofNat 7 (word / 16384) = d := ofNat_field _ _ (by omega)
  have f2 : BitVec.ofNat 7 (word / 128) = a := ofNat_field _ _ (by omega)
  have f3 : BitVec.ofNat 7 word = b := ofNat_field _ _ (by omega)
  refine ⟨by omega, ?_⟩
  simp [decodeWord, hc, decodeShift, h0, f0, f1, f2, f3]

theorem RoundTrip.clz (t : BitVec 1) (d : BitVec 7) (a : BitVec 7) : RoundTrip.Statement (.clz t d a) := by
  intro word henc
  have hword : put (put (put 0x0DC00000 21 t) 14 d) 7 a = word := Option.some.inj henc
  simp only [put] at hword
  have := t.isLt
  have := d.isLt
  have := a.isLt
  clear henc
  have hc : fld word 26 6 = 3 := by simp only [fld]; omega
  have h0 : fld word 22 4 = 7 := by simp only [fld]; omega
  have h1 : fld word 0 7 = 0 := by simp only [fld]; omega
  have f0 : BitVec.ofNat 1 (word / 2097152) = t := ofNat_field _ _ (by omega)
  have f1 : BitVec.ofNat 7 (word / 16384) = d := ofNat_field _ _ (by omega)
  have f2 : BitVec.ofNat 7 (word / 128) = a := ofNat_field _ _ (by omega)
  refine ⟨by omega, ?_⟩
  simp [decodeWord, hc, decodeShift, h0, h1, f0, f1, f2]

theorem RoundTrip.popc (t : BitVec 1) (d : BitVec 7) (a : BitVec 7) : RoundTrip.Statement (.popc t d a) := by
  intro word henc
  have hword : put (put (put 0x0E000000 21 t) 14 d) 7 a = word := Option.some.inj henc
  simp only [put] at hword
  have := t.isLt
  have := d.isLt
  have := a.isLt
  clear henc
  have hc : fld word 26 6 = 3 := by simp only [fld]; omega
  have h0 : fld word 22 4 = 8 := by simp only [fld]; omega
  have h1 : fld word 0 7 = 0 := by simp only [fld]; omega
  have f0 : BitVec.ofNat 1 (word / 2097152) = t := ofNat_field _ _ (by omega)
  have f1 : BitVec.ofNat 7 (word / 16384) = d := ofNat_field _ _ (by omega)
  have f2 : BitVec.ofNat 7 (word / 128) = a := ofNat_field _ _ (by omega)
  refine ⟨by omega, ?_⟩
  simp [decodeWord, hc, decodeShift, h0, h1, f0, f1, f2]

theorem RoundTrip.brev (t : BitVec 1) (d : BitVec 7) (a : BitVec 7) : RoundTrip.Statement (.brev t d a) := by
  intro word henc
  have hword : put (put (put 0x0E400000 21 t) 14 d) 7 a = word := Option.some.inj henc
  simp only [put] at hword
  have := t.isLt
  have := d.isLt
  have := a.isLt
  clear henc
  have hc : fld word 26 6 = 3 := by simp only [fld]; omega
  have h0 : fld word 22 4 = 9 := by simp only [fld]; omega
  have h1 : fld word 0 7 = 0 := by simp only [fld]; omega
  have f0 : BitVec.ofNat 1 (word / 2097152) = t := ofNat_field _ _ (by omega)
  have f1 : BitVec.ofNat 7 (word / 16384) = d := ofNat_field _ _ (by omega)
  have f2 : BitVec.ofNat 7 (word / 128) = a := ofNat_field _ _ (by omega)
  refine ⟨by omega, ?_⟩
  simp [decodeWord, hc, decodeShift, h0, h1, f0, f1, f2]

theorem RoundTrip.prmt (t : BitVec 1) (d : BitVec 7) (a : BitVec 7) (b : BitVec 7) : RoundTrip.Statement (.prmt t d a b) := by
  intro word henc
  have hword : put (put (put (put 0x0E800000 21 t) 14 d) 7 a) 0 b = word := Option.some.inj henc
  simp only [put] at hword
  have := t.isLt
  have := d.isLt
  have := a.isLt
  have := b.isLt
  clear henc
  have hc : fld word 26 6 = 3 := by simp only [fld]; omega
  have h0 : fld word 22 4 = 10 := by simp only [fld]; omega
  have f0 : BitVec.ofNat 1 (word / 2097152) = t := ofNat_field _ _ (by omega)
  have f1 : BitVec.ofNat 7 (word / 16384) = d := ofNat_field _ _ (by omega)
  have f2 : BitVec.ofNat 7 (word / 128) = a := ofNat_field _ _ (by omega)
  have f3 : BitVec.ofNat 7 word = b := ofNat_field _ _ (by omega)
  refine ⟨by omega, ?_⟩
  simp [decodeWord, hc, decodeShift, h0, f0, f1, f2, f3]

theorem RoundTrip.fshf (t : BitVec 1) (d : BitVec 7) (a : BitVec 7) (b : BitVec 7) : RoundTrip.Statement (.fshf t d a b) := by
  intro word henc
  have hword : put (put (put (put 0x0EC00000 21 t) 14 d) 7 a) 0 b = word := Option.some.inj henc
  simp only [put] at hword
  have := t.isLt
  have := d.isLt
  have := a.isLt
  have := b.isLt
  clear henc
  have hc : fld word 26 6 = 3 := by simp only [fld]; omega
  have h0 : fld word 22 4 = 11 := by simp only [fld]; omega
  have f0 : BitVec.ofNat 1 (word / 2097152) = t := ofNat_field _ _ (by omega)
  have f1 : BitVec.ofNat 7 (word / 16384) = d := ofNat_field _ _ (by omega)
  have f2 : BitVec.ofNat 7 (word / 128) = a := ofNat_field _ _ (by omega)
  have f3 : BitVec.ofNat 7 word = b := ofNat_field _ _ (by omega)
  refine ⟨by omega, ?_⟩
  simp [decodeWord, hc, decodeShift, h0, f0, f1, f2, f3]

theorem RoundTrip.mul (t : BitVec 1) (d : BitVec 7) (a : BitVec 7) (b : BitVec 7) : RoundTrip.Statement (.mul t d a b) := by
  intro word henc
  have hword : put (put (put (put 0x10000000 21 t) 14 d) 7 a) 0 b = word := Option.some.inj henc
  simp only [put] at hword
  have := t.isLt
  have := d.isLt
  have := a.isLt
  have := b.isLt
  clear henc
  have hc : fld word 26 6 = 4 := by simp only [fld]; omega
  have h0 : fld word 22 4 = 0 := by simp only [fld]; omega
  have f0 : BitVec.ofNat 1 (word / 2097152) = t := ofNat_field _ _ (by omega)
  have f1 : BitVec.ofNat 7 (word / 16384) = d := ofNat_field _ _ (by omega)
  have f2 : BitVec.ofNat 7 (word / 128) = a := ofNat_field _ _ (by omega)
  have f3 : BitVec.ofNat 7 word = b := ofNat_field _ _ (by omega)
  refine ⟨by omega, ?_⟩
  simp [decodeWord, hc, decodeImul, h0, f0, f1, f2, f3]

theorem RoundTrip.mulhi (t : BitVec 1) (d : BitVec 7) (a : BitVec 7) (b : BitVec 7) : RoundTrip.Statement (.mulhi t d a b) := by
  intro word henc
  have hword : put (put (put (put 0x10400000 21 t) 14 d) 7 a) 0 b = word := Option.some.inj henc
  simp only [put] at hword
  have := t.isLt
  have := d.isLt
  have := a.isLt
  have := b.isLt
  clear henc
  have hc : fld word 26 6 = 4 := by simp only [fld]; omega
  have h0 : fld word 22 4 = 1 := by simp only [fld]; omega
  have f0 : BitVec.ofNat 1 (word / 2097152) = t := ofNat_field _ _ (by omega)
  have f1 : BitVec.ofNat 7 (word / 16384) = d := ofNat_field _ _ (by omega)
  have f2 : BitVec.ofNat 7 (word / 128) = a := ofNat_field _ _ (by omega)
  have f3 : BitVec.ofNat 7 word = b := ofNat_field _ _ (by omega)
  refine ⟨by omega, ?_⟩
  simp [decodeWord, hc, decodeImul, h0, f0, f1, f2, f3]

theorem RoundTrip.mulhib (t : BitVec 1) (d : BitVec 7) (a : BitVec 7) (b : BitVec 7) : RoundTrip.Statement (.mulhib t d a b) := by
  intro word henc
  have hword : put (put (put (put 0x10800000 21 t) 14 d) 7 a) 0 b = word := Option.some.inj henc
  simp only [put] at hword
  have := t.isLt
  have := d.isLt
  have := a.isLt
  have := b.isLt
  clear henc
  have hc : fld word 26 6 = 4 := by simp only [fld]; omega
  have h0 : fld word 22 4 = 2 := by simp only [fld]; omega
  have f0 : BitVec.ofNat 1 (word / 2097152) = t := ofNat_field _ _ (by omega)
  have f1 : BitVec.ofNat 7 (word / 16384) = d := ofNat_field _ _ (by omega)
  have f2 : BitVec.ofNat 7 (word / 128) = a := ofNat_field _ _ (by omega)
  have f3 : BitVec.ofNat 7 word = b := ofNat_field _ _ (by omega)
  refine ⟨by omega, ?_⟩
  simp [decodeWord, hc, decodeImul, h0, f0, f1, f2, f3]

theorem RoundTrip.mad (t : BitVec 1) (d : BitVec 7) (a : BitVec 7) (b : BitVec 7) : RoundTrip.Statement (.mad t d a b) := by
  intro word henc
  have hword : put (put (put (put 0x10C00000 21 t) 14 d) 7 a) 0 b = word := Option.some.inj henc
  simp only [put] at hword
  have := t.isLt
  have := d.isLt
  have := a.isLt
  have := b.isLt
  clear henc
  have hc : fld word 26 6 = 4 := by simp only [fld]; omega
  have h0 : fld word 22 4 = 3 := by simp only [fld]; omega
  have f0 : BitVec.ofNat 1 (word / 2097152) = t := ofNat_field _ _ (by omega)
  have f1 : BitVec.ofNat 7 (word / 16384) = d := ofNat_field _ _ (by omega)
  have f2 : BitVec.ofNat 7 (word / 128) = a := ofNat_field _ _ (by omega)
  have f3 : BitVec.ofNat 7 word = b := ofNat_field _ _ (by omega)
  refine ⟨by omega, ?_⟩
  simp [decodeWord, hc, decodeImul, h0, f0, f1, f2, f3]

theorem RoundTrip.madhi (t : BitVec 1) (d : BitVec 7) (a : BitVec 7) (b : BitVec 7) : RoundTrip.Statement (.madhi t d a b) := by
  intro word henc
  have hword : put (put (put (put 0x11000000 21 t) 14 d) 7 a) 0 b = word := Option.some.inj henc
  simp only [put] at hword
  have := t.isLt
  have := d.isLt
  have := a.isLt
  have := b.isLt
  clear henc
  have hc : fld word 26 6 = 4 := by simp only [fld]; omega
  have h0 : fld word 22 4 = 4 := by simp only [fld]; omega
  have f0 : BitVec.ofNat 1 (word / 2097152) = t := ofNat_field _ _ (by omega)
  have f1 : BitVec.ofNat 7 (word / 16384) = d := ofNat_field _ _ (by omega)
  have f2 : BitVec.ofNat 7 (word / 128) = a := ofNat_field _ _ (by omega)
  have f3 : BitVec.ofNat 7 word = b := ofNat_field _ _ (by omega)
  refine ⟨by omega, ?_⟩
  simp [decodeWord, hc, decodeImul, h0, f0, f1, f2, f3]

theorem RoundTrip.madhib (t : BitVec 1) (d : BitVec 7) (a : BitVec 7) (b : BitVec 7) : RoundTrip.Statement (.madhib t d a b) := by
  intro word henc
  have hword : put (put (put (put 0x11400000 21 t) 14 d) 7 a) 0 b = word := Option.some.inj henc
  simp only [put] at hword
  have := t.isLt
  have := d.isLt
  have := a.isLt
  have := b.isLt
  clear henc
  have hc : fld word 26 6 = 4 := by simp only [fld]; omega
  have h0 : fld word 22 4 = 5 := by simp only [fld]; omega
  have f0 : BitVec.ofNat 1 (word / 2097152) = t := ofNat_field _ _ (by omega)
  have f1 : BitVec.ofNat 7 (word / 16384) = d := ofNat_field _ _ (by omega)
  have f2 : BitVec.ofNat 7 (word / 128) = a := ofNat_field _ _ (by omega)
  have f3 : BitVec.ofNat 7 word = b := ofNat_field _ _ (by omega)
  refine ⟨by omega, ?_⟩
  simp [decodeWord, hc, decodeImul, h0, f0, f1, f2, f3]

theorem RoundTrip.div (d : BitVec 7) (a : BitVec 7) (b : BitVec 7) : RoundTrip.Statement (.div d a b) := by
  intro word henc
  have hword : put (put (put 0x14000000 14 d) 7 a) 0 b = word := Option.some.inj henc
  simp only [put] at hword
  have := d.isLt
  have := a.isLt
  have := b.isLt
  clear henc
  have hc : fld word 26 6 = 5 := by simp only [fld]; omega
  have h0 : fld word 22 4 = 0 := by simp only [fld]; omega
  have h1 : fld word 21 1 = 0 := by simp only [fld]; omega
  have f0 : BitVec.ofNat 7 (word / 16384) = d := ofNat_field _ _ (by omega)
  have f1 : BitVec.ofNat 7 (word / 128) = a := ofNat_field _ _ (by omega)
  have f2 : BitVec.ofNat 7 word = b := ofNat_field _ _ (by omega)
  refine ⟨by omega, ?_⟩
  simp [decodeWord, hc, decodeIdiv, h0, h1, f0, f1, f2]

theorem RoundTrip.divb (d : BitVec 7) (a : BitVec 7) (b : BitVec 7) : RoundTrip.Statement (.divb d a b) := by
  intro word henc
  have hword : put (put (put 0x14400000 14 d) 7 a) 0 b = word := Option.some.inj henc
  simp only [put] at hword
  have := d.isLt
  have := a.isLt
  have := b.isLt
  clear henc
  have hc : fld word 26 6 = 5 := by simp only [fld]; omega
  have h0 : fld word 22 4 = 1 := by simp only [fld]; omega
  have h1 : fld word 21 1 = 0 := by simp only [fld]; omega
  have f0 : BitVec.ofNat 7 (word / 16384) = d := ofNat_field _ _ (by omega)
  have f1 : BitVec.ofNat 7 (word / 128) = a := ofNat_field _ _ (by omega)
  have f2 : BitVec.ofNat 7 word = b := ofNat_field _ _ (by omega)
  refine ⟨by omega, ?_⟩
  simp [decodeWord, hc, decodeIdiv, h0, h1, f0, f1, f2]

theorem RoundTrip.rem (d : BitVec 7) (a : BitVec 7) (b : BitVec 7) : RoundTrip.Statement (.rem d a b) := by
  intro word henc
  have hword : put (put (put 0x14800000 14 d) 7 a) 0 b = word := Option.some.inj henc
  simp only [put] at hword
  have := d.isLt
  have := a.isLt
  have := b.isLt
  clear henc
  have hc : fld word 26 6 = 5 := by simp only [fld]; omega
  have h0 : fld word 22 4 = 2 := by simp only [fld]; omega
  have h1 : fld word 21 1 = 0 := by simp only [fld]; omega
  have f0 : BitVec.ofNat 7 (word / 16384) = d := ofNat_field _ _ (by omega)
  have f1 : BitVec.ofNat 7 (word / 128) = a := ofNat_field _ _ (by omega)
  have f2 : BitVec.ofNat 7 word = b := ofNat_field _ _ (by omega)
  refine ⟨by omega, ?_⟩
  simp [decodeWord, hc, decodeIdiv, h0, h1, f0, f1, f2]

theorem RoundTrip.remb (d : BitVec 7) (a : BitVec 7) (b : BitVec 7) : RoundTrip.Statement (.remb d a b) := by
  intro word henc
  have hword : put (put (put 0x14C00000 14 d) 7 a) 0 b = word := Option.some.inj henc
  simp only [put] at hword
  have := d.isLt
  have := a.isLt
  have := b.isLt
  clear henc
  have hc : fld word 26 6 = 5 := by simp only [fld]; omega
  have h0 : fld word 22 4 = 3 := by simp only [fld]; omega
  have h1 : fld word 21 1 = 0 := by simp only [fld]; omega
  have f0 : BitVec.ofNat 7 (word / 16384) = d := ofNat_field _ _ (by omega)
  have f1 : BitVec.ofNat 7 (word / 128) = a := ofNat_field _ _ (by omega)
  have f2 : BitVec.ofNat 7 word = b := ofNat_field _ _ (by omega)
  refine ⟨by omega, ?_⟩
  simp [decodeWord, hc, decodeIdiv, h0, h1, f0, f1, f2]

theorem RoundTrip.cmp (c : BitVec 4) (p : BitVec 3) (a : BitVec 7) (b : BitVec 7) : RoundTrip.Statement (.cmp c p a b) := by
  intro word henc
  have hword : put (put (put (put 0x18000000 22 c) 14 p) 7 a) 0 b = word := Option.some.inj henc
  simp only [put] at hword
  have := c.isLt
  have := p.isLt
  have := a.isLt
  have := b.isLt
  clear henc
  have hc : fld word 26 6 = 6 := by simp only [fld]; omega
  have h0 : fld word 21 1 = 0 := by simp only [fld]; omega
  have h1 : fld word 17 4 = 0 := by simp only [fld]; omega
  have f0 : BitVec.ofNat 4 (word / 4194304) = c := ofNat_field _ _ (by omega)
  have f1 : BitVec.ofNat 3 (word / 16384) = p := ofNat_field _ _ (by omega)
  have f2 : BitVec.ofNat 7 (word / 128) = a := ofNat_field _ _ (by omega)
  have f3 : BitVec.ofNat 7 word = b := ofNat_field _ _ (by omega)
  refine ⟨by omega, ?_⟩
  simp [decodeWord, hc, decodeIcmp, h0, h1, f0, f1, f2, f3]

theorem RoundTrip.cmpi (c : BitVec 4) (p : BitVec 3) (a : BitVec 7) (i : BitVec 7) : RoundTrip.Statement (.cmpi c p a i) := by
  intro word henc
  have hword : put (put (put (put 0x18200000 22 c) 14 p) 7 a) 0 i = word := Option.some.inj henc
  simp only [put] at hword
  have := c.isLt
  have := p.isLt
  have := a.isLt
  have := i.isLt
  clear henc
  have hc : fld word 26 6 = 6 := by simp only [fld]; omega
  have h0 : fld word 21 1 = 1 := by simp only [fld]; omega
  have h1 : fld word 17 4 = 0 := by simp only [fld]; omega
  have f0 : BitVec.ofNat 4 (word / 4194304) = c := ofNat_field _ _ (by omega)
  have f1 : BitVec.ofNat 3 (word / 16384) = p := ofNat_field _ _ (by omega)
  have f2 : BitVec.ofNat 7 (word / 128) = a := ofNat_field _ _ (by omega)
  have f3 : BitVec.ofNat 7 word = i := ofNat_field _ _ (by omega)
  refine ⟨by omega, ?_⟩
  simp [decodeWord, hc, decodeIcmp, h0, h1, f0, f1, f2, f3]

theorem RoundTrip.mov (t : BitVec 1) (d : BitVec 7) (a : BitVec 7) : RoundTrip.Statement (.mov t d a) := by
  intro word henc
  have hword : put (put (put 0x1C000000 21 t) 14 d) 7 a = word := Option.some.inj henc
  simp only [put] at hword
  have := t.isLt
  have := d.isLt
  have := a.isLt
  clear henc
  have hc : fld word 26 6 = 7 := by simp only [fld]; omega
  have h0 : fld word 22 4 = 0 := by simp only [fld]; omega
  have h1 : fld word 0 7 = 0 := by simp only [fld]; omega
  have f0 : BitVec.ofNat 1 (word / 2097152) = t := ofNat_field _ _ (by omega)
  have f1 : BitVec.ofNat 7 (word / 16384) = d := ofNat_field _ _ (by omega)
  have f2 : BitVec.ofNat 7 (word / 128) = a := ofNat_field _ _ (by omega)
  refine ⟨by omega, ?_⟩
  simp [decodeWord, hc, decodeMove, h0, h1, f0, f1, f2]

theorem RoundTrip.movi (t : BitVec 1) (d : BitVec 7) (i : BitVec 14) : RoundTrip.Statement (.movi t d i) := by
  intro word henc
  have hword : put (put (put 0x1C400000 21 t) 14 d) 0 i = word := Option.some.inj henc
  simp only [put] at hword
  have := t.isLt
  have := d.isLt
  have := i.isLt
  clear henc
  have hc : fld word 26 6 = 7 := by simp only [fld]; omega
  have h0 : fld word 22 4 = 1 := by simp only [fld]; omega
  have f0 : BitVec.ofNat 1 (word / 2097152) = t := ofNat_field _ _ (by omega)
  have f1 : BitVec.ofNat 7 (word / 16384) = d := ofNat_field _ _ (by omega)
  have f2 : BitVec.ofNat 14 word = i := ofNat_field _ _ (by omega)
  refine ⟨by omega, ?_⟩
  simp [decodeWord, hc, decodeMove, h0, f0, f1, f2]

theorem RoundTrip.rdsr (t : BitVec 1) (d : BitVec 7) (n : BitVec 14) : RoundTrip.Statement (.rdsr t d n) := by
  intro word henc
  have hword : put (put (put 0x1C800000 21 t) 14 d) 0 n = word := Option.some.inj henc
  simp only [put] at hword
  have := t.isLt
  have := d.isLt
  have := n.isLt
  clear henc
  have hc : fld word 26 6 = 7 := by simp only [fld]; omega
  have h0 : fld word 22 4 = 2 := by simp only [fld]; omega
  have f0 : BitVec.ofNat 1 (word / 2097152) = t := ofNat_field _ _ (by omega)
  have f1 : BitVec.ofNat 7 (word / 16384) = d := ofNat_field _ _ (by omega)
  have f2 : BitVec.ofNat 14 word = n := ofNat_field _ _ (by omega)
  refine ⟨by omega, ?_⟩
  simp [decodeWord, hc, decodeMove, h0, f0, f1, f2]

theorem RoundTrip.rdw (t : BitVec 1) (d : BitVec 7) (n : BitVec 4) : RoundTrip.Statement (.rdw t d n) := by
  intro word henc
  have hword : put (put (put 0x1CC00000 21 t) 14 d) 7 n = word := Option.some.inj henc
  simp only [put] at hword
  have := t.isLt
  have := d.isLt
  have := n.isLt
  clear henc
  have hc : fld word 26 6 = 7 := by simp only [fld]; omega
  have h0 : fld word 22 4 = 3 := by simp only [fld]; omega
  have h1 : fld word 0 7 = 0 := by simp only [fld]; omega
  have h2 : fld word 11 3 = 0 := by simp only [fld]; omega
  have f0 : BitVec.ofNat 1 (word / 2097152) = t := ofNat_field _ _ (by omega)
  have f1 : BitVec.ofNat 7 (word / 16384) = d := ofNat_field _ _ (by omega)
  have f2 : BitVec.ofNat 4 (word / 128) = n := ofNat_field _ _ (by omega)
  refine ⟨by omega, ?_⟩
  simp [decodeWord, hc, decodeMove, h0, h1, h2, f0, f1, f2]

theorem RoundTrip.rdk (t : BitVec 1) (d : BitVec 7) (n : BitVec 3) : RoundTrip.Statement (.rdk t d n) := by
  intro word henc
  have hword : put (put (put 0x1D000000 21 t) 14 d) 7 n = word := Option.some.inj henc
  simp only [put] at hword
  have := t.isLt
  have := d.isLt
  have := n.isLt
  clear henc
  have hc : fld word 26 6 = 7 := by simp only [fld]; omega
  have h0 : fld word 22 4 = 4 := by simp only [fld]; omega
  have h1 : fld word 0 7 = 0 := by simp only [fld]; omega
  have h2 : fld word 10 4 = 0 := by simp only [fld]; omega
  have f0 : BitVec.ofNat 1 (word / 2097152) = t := ofNat_field _ _ (by omega)
  have f1 : BitVec.ofNat 7 (word / 16384) = d := ofNat_field _ _ (by omega)
  have f2 : BitVec.ofNat 3 (word / 128) = n := ofNat_field _ _ (by omega)
  refine ⟨by omega, ?_⟩
  simp [decodeWord, hc, decodeMove, h0, h1, h2, f0, f1, f2]

theorem RoundTrip.movToFstat (a : BitVec 7) : RoundTrip.Statement (.movToFstat a) := by
  intro word henc
  have hword : put 0x1D400000 7 a = word := Option.some.inj henc
  simp only [put] at hword
  have := a.isLt
  clear henc
  have hc : fld word 26 6 = 7 := by simp only [fld]; omega
  have h0 : fld word 22 4 = 5 := by simp only [fld]; omega
  have h1 : fld word 0 7 = 0 := by simp only [fld]; omega
  have h2 : fld word 14 8 = 0 := by simp only [fld]; omega
  have f0 : BitVec.ofNat 7 (word / 128) = a := ofNat_field _ _ (by omega)
  refine ⟨by omega, ?_⟩
  simp [decodeWord, hc, decodeMove, h0, h1, h2, f0]

theorem RoundTrip.movFromFstat (t : BitVec 1) (d : BitVec 7) : RoundTrip.Statement (.movFromFstat t d) := by
  intro word henc
  have hword : put (put 0x1D800000 21 t) 14 d = word := Option.some.inj henc
  simp only [put] at hword
  have := t.isLt
  have := d.isLt
  clear henc
  have hc : fld word 26 6 = 7 := by simp only [fld]; omega
  have h0 : fld word 22 4 = 6 := by simp only [fld]; omega
  have h1 : fld word 0 14 = 0 := by simp only [fld]; omega
  have f0 : BitVec.ofNat 1 (word / 2097152) = t := ofNat_field _ _ (by omega)
  have f1 : BitVec.ofNat 7 (word / 16384) = d := ofNat_field _ _ (by omega)
  refine ⟨by omega, ?_⟩
  simp [decodeWord, hc, decodeMove, h0, h1, f0, f1]

theorem RoundTrip.sel (n : BitVec 3) (t : BitVec 1) (d : BitVec 7) (a : BitVec 7) (b : BitVec 7) : RoundTrip.Statement (.sel n t d a b) := by
  intro word henc
  have hword : put (put (put (put (put 0x1E000000 22 n) 21 t) 14 d) 7 a) 0 b = word := Option.some.inj henc
  simp only [put] at hword
  have := n.isLt
  have := t.isLt
  have := d.isLt
  have := a.isLt
  have := b.isLt
  clear henc
  have hc : fld word 26 6 = 7 := by simp only [fld]; omega
  have h0 : fld word 25 1 = 1 := by simp only [fld]; omega
  have n0 : ¬ fld word 22 4 = 0 := by simp only [fld]; omega
  have n1 : ¬ fld word 22 4 = 1 := by simp only [fld]; omega
  have n2 : ¬ fld word 22 4 = 2 := by simp only [fld]; omega
  have n3 : ¬ fld word 22 4 = 3 := by simp only [fld]; omega
  have n4 : ¬ fld word 22 4 = 4 := by simp only [fld]; omega
  have n5 : ¬ fld word 22 4 = 5 := by simp only [fld]; omega
  have n6 : ¬ fld word 22 4 = 6 := by simp only [fld]; omega
  have f0 : BitVec.ofNat 3 (word / 4194304) = n := ofNat_field _ _ (by omega)
  have f1 : BitVec.ofNat 1 (word / 2097152) = t := ofNat_field _ _ (by omega)
  have f2 : BitVec.ofNat 7 (word / 16384) = d := ofNat_field _ _ (by omega)
  have f3 : BitVec.ofNat 7 (word / 128) = a := ofNat_field _ _ (by omega)
  have f4 : BitVec.ofNat 7 word = b := ofNat_field _ _ (by omega)
  refine ⟨by omega, ?_⟩
  simp [decodeWord, hc, decodeMove, h0, n0, n1, n2, n3, n4, n5, n6, f0, f1, f2, f3, f4]

theorem RoundTrip.pand (d : BitVec 3) (a : BitVec 3) (b : BitVec 3) : RoundTrip.Statement (.pand d a b) := by
  intro word henc
  have hword : put (put (put 0x20000000 14 d) 7 a) 0 b = word := Option.some.inj henc
  simp only [put] at hword
  have := d.isLt
  have := a.isLt
  have := b.isLt
  clear henc
  have hc : fld word 26 6 = 8 := by simp only [fld]; omega
  have h0 : fld word 22 4 = 0 := by simp only [fld]; omega
  have h1 : fld word 3 4 = 0 := by simp only [fld]; omega
  have h2 : fld word 10 4 = 0 := by simp only [fld]; omega
  have h3 : fld word 17 5 = 0 := by simp only [fld]; omega
  have f0 : BitVec.ofNat 3 (word / 16384) = d := ofNat_field _ _ (by omega)
  have f1 : BitVec.ofNat 3 (word / 128) = a := ofNat_field _ _ (by omega)
  have f2 : BitVec.ofNat 3 word = b := ofNat_field _ _ (by omega)
  refine ⟨by omega, ?_⟩
  simp [decodeWord, hc, decodePred, h0, h1, h2, h3, f0, f1, f2]

theorem RoundTrip.por (d : BitVec 3) (a : BitVec 3) (b : BitVec 3) : RoundTrip.Statement (.por d a b) := by
  intro word henc
  have hword : put (put (put 0x20400000 14 d) 7 a) 0 b = word := Option.some.inj henc
  simp only [put] at hword
  have := d.isLt
  have := a.isLt
  have := b.isLt
  clear henc
  have hc : fld word 26 6 = 8 := by simp only [fld]; omega
  have h0 : fld word 22 4 = 1 := by simp only [fld]; omega
  have h1 : fld word 3 4 = 0 := by simp only [fld]; omega
  have h2 : fld word 10 4 = 0 := by simp only [fld]; omega
  have h3 : fld word 17 5 = 0 := by simp only [fld]; omega
  have f0 : BitVec.ofNat 3 (word / 16384) = d := ofNat_field _ _ (by omega)
  have f1 : BitVec.ofNat 3 (word / 128) = a := ofNat_field _ _ (by omega)
  have f2 : BitVec.ofNat 3 word = b := ofNat_field _ _ (by omega)
  refine ⟨by omega, ?_⟩
  simp [decodeWord, hc, decodePred, h0, h1, h2, h3, f0, f1, f2]

theorem RoundTrip.pxor (d : BitVec 3) (a : BitVec 3) (b : BitVec 3) : RoundTrip.Statement (.pxor d a b) := by
  intro word henc
  have hword : put (put (put 0x20800000 14 d) 7 a) 0 b = word := Option.some.inj henc
  simp only [put] at hword
  have := d.isLt
  have := a.isLt
  have := b.isLt
  clear henc
  have hc : fld word 26 6 = 8 := by simp only [fld]; omega
  have h0 : fld word 22 4 = 2 := by simp only [fld]; omega
  have h1 : fld word 3 4 = 0 := by simp only [fld]; omega
  have h2 : fld word 10 4 = 0 := by simp only [fld]; omega
  have h3 : fld word 17 5 = 0 := by simp only [fld]; omega
  have f0 : BitVec.ofNat 3 (word / 16384) = d := ofNat_field _ _ (by omega)
  have f1 : BitVec.ofNat 3 (word / 128) = a := ofNat_field _ _ (by omega)
  have f2 : BitVec.ofNat 3 word = b := ofNat_field _ _ (by omega)
  refine ⟨by omega, ?_⟩
  simp [decodeWord, hc, decodePred, h0, h1, h2, h3, f0, f1, f2]

theorem RoundTrip.pnot (d : BitVec 3) (a : BitVec 3) : RoundTrip.Statement (.pnot d a) := by
  intro word henc
  have hword : put (put 0x20C00000 14 d) 7 a = word := Option.some.inj henc
  simp only [put] at hword
  have := d.isLt
  have := a.isLt
  clear henc
  have hc : fld word 26 6 = 8 := by simp only [fld]; omega
  have h0 : fld word 22 4 = 3 := by simp only [fld]; omega
  have h1 : fld word 0 7 = 0 := by simp only [fld]; omega
  have h2 : fld word 10 4 = 0 := by simp only [fld]; omega
  have h3 : fld word 17 5 = 0 := by simp only [fld]; omega
  have f0 : BitVec.ofNat 3 (word / 16384) = d := ofNat_field _ _ (by omega)
  have f1 : BitVec.ofNat 3 (word / 128) = a := ofNat_field _ _ (by omega)
  refine ⟨by omega, ?_⟩
  simp [decodeWord, hc, decodePred, h0, h1, h2, h3, f0, f1]

theorem RoundTrip.pset (d : BitVec 3) (a : BitVec 7) : RoundTrip.Statement (.pset d a) := by
  intro word henc
  have hword : put (put 0x21000000 14 d) 7 a = word := Option.some.inj henc
  simp only [put] at hword
  have := d.isLt
  have := a.isLt
  clear henc
  have hc : fld word 26 6 = 8 := by simp only [fld]; omega
  have h0 : fld word 22 4 = 4 := by simp only [fld]; omega
  have h1 : fld word 0 7 = 0 := by simp only [fld]; omega
  have h2 : fld word 17 5 = 0 := by simp only [fld]; omega
  have f0 : BitVec.ofNat 3 (word / 16384) = d := ofNat_field _ _ (by omega)
  have f1 : BitVec.ofNat 7 (word / 128) = a := ofNat_field _ _ (by omega)
  refine ⟨by omega, ?_⟩
  simp [decodeWord, hc, decodePred, h0, h1, h2, f0, f1]

theorem RoundTrip.pmov (d : BitVec 3) (a : BitVec 3) : RoundTrip.Statement (.pmov d a) := by
  intro word henc
  have hword : put (put 0x21400000 14 d) 7 a = word := Option.some.inj henc
  simp only [put] at hword
  have := d.isLt
  have := a.isLt
  clear henc
  have hc : fld word 26 6 = 8 := by simp only [fld]; omega
  have h0 : fld word 22 4 = 5 := by simp only [fld]; omega
  have h1 : fld word 0 7 = 0 := by simp only [fld]; omega
  have h2 : fld word 10 4 = 0 := by simp only [fld]; omega
  have h3 : fld word 17 5 = 0 := by simp only [fld]; omega
  have f0 : BitVec.ofNat 3 (word / 16384) = d := ofNat_field _ _ (by omega)
  have f1 : BitVec.ofNat 3 (word / 128) = a := ofNat_field _ _ (by omega)
  refine ⟨by omega, ?_⟩
  simp [decodeWord, hc, decodePred, h0, h1, h2, h3, f0, f1]

theorem RoundTrip.lea (t : BitVec 1) (d : BitVec 7) (a : BitVec 7) (h : BitVec 4) : RoundTrip.Statement (.lea t d a h) := by
  intro word henc
  have hword : put (put (put (put 0x24000000 21 t) 14 d) 7 a) 0 h = word := Option.some.inj henc
  simp only [put] at hword
  have := t.isLt
  have := d.isLt
  have := a.isLt
  have := h.isLt
  clear henc
  have hc : fld word 26 6 = 9 := by simp only [fld]; omega
  have h0 : fld word 22 4 = 0 := by simp only [fld]; omega
  have h1 : fld word 4 3 = 0 := by simp only [fld]; omega
  have f0 : BitVec.ofNat 1 (word / 2097152) = t := ofNat_field _ _ (by omega)
  have f1 : BitVec.ofNat 7 (word / 16384) = d := ofNat_field _ _ (by omega)
  have f2 : BitVec.ofNat 7 (word / 128) = a := ofNat_field _ _ (by omega)
  have f3 : BitVec.ofNat 4 word = h := ofNat_field _ _ (by omega)
  refine ⟨by omega, ?_⟩
  simp [decodeWord, hc, decodeAddr, h0, h1, f0, f1, f2, f3]

theorem RoundTrip.add64 (t : BitVec 1) (d : BitVec 7) (a : BitVec 7) (b : BitVec 7) : RoundTrip.Statement (.add64 t d a b) := by
  intro word henc
  have hword : put (put (put (put 0x24400000 21 t) 14 d) 7 a) 0 b = word := Option.some.inj henc
  simp only [put] at hword
  have := t.isLt
  have := d.isLt
  have := a.isLt
  have := b.isLt
  clear henc
  have hc : fld word 26 6 = 9 := by simp only [fld]; omega
  have h0 : fld word 22 4 = 1 := by simp only [fld]; omega
  have f0 : BitVec.ofNat 1 (word / 2097152) = t := ofNat_field _ _ (by omega)
  have f1 : BitVec.ofNat 7 (word / 16384) = d := ofNat_field _ _ (by omega)
  have f2 : BitVec.ofNat 7 (word / 128) = a := ofNat_field _ _ (by omega)
  have f3 : BitVec.ofNat 7 word = b := ofNat_field _ _ (by omega)
  refine ⟨by omega, ?_⟩
  simp [decodeWord, hc, decodeAddr, h0, f0, f1, f2, f3]

theorem RoundTrip.sub64 (t : BitVec 1) (d : BitVec 7) (a : BitVec 7) (b : BitVec 7) : RoundTrip.Statement (.sub64 t d a b) := by
  intro word henc
  have hword : put (put (put (put 0x24800000 21 t) 14 d) 7 a) 0 b = word := Option.some.inj henc
  simp only [put] at hword
  have := t.isLt
  have := d.isLt
  have := a.isLt
  have := b.isLt
  clear henc
  have hc : fld word 26 6 = 9 := by simp only [fld]; omega
  have h0 : fld word 22 4 = 2 := by simp only [fld]; omega
  have f0 : BitVec.ofNat 1 (word / 2097152) = t := ofNat_field _ _ (by omega)
  have f1 : BitVec.ofNat 7 (word / 16384) = d := ofNat_field _ _ (by omega)
  have f2 : BitVec.ofNat 7 (word / 128) = a := ofNat_field _ _ (by omega)
  have f3 : BitVec.ofNat 7 word = b := ofNat_field _ _ (by omega)
  refine ⟨by omega, ?_⟩
  simp [decodeWord, hc, decodeAddr, h0, f0, f1, f2, f3]

theorem RoundTrip.shl64 (t : BitVec 1) (d : BitVec 7) (a : BitVec 7) (b : BitVec 7) : RoundTrip.Statement (.shl64 t d a b) := by
  intro word henc
  have hword : put (put (put (put 0x24C00000 21 t) 14 d) 7 a) 0 b = word := Option.some.inj henc
  simp only [put] at hword
  have := t.isLt
  have := d.isLt
  have := a.isLt
  have := b.isLt
  clear henc
  have hc : fld word 26 6 = 9 := by simp only [fld]; omega
  have h0 : fld word 22 4 = 3 := by simp only [fld]; omega
  have f0 : BitVec.ofNat 1 (word / 2097152) = t := ofNat_field _ _ (by omega)
  have f1 : BitVec.ofNat 7 (word / 16384) = d := ofNat_field _ _ (by omega)
  have f2 : BitVec.ofNat 7 (word / 128) = a := ofNat_field _ _ (by omega)
  have f3 : BitVec.ofNat 7 word = b := ofNat_field _ _ (by omega)
  refine ⟨by omega, ?_⟩
  simp [decodeWord, hc, decodeAddr, h0, f0, f1, f2, f3]

theorem RoundTrip.mulw (t : BitVec 1) (d : BitVec 7) (a : BitVec 7) (b : BitVec 7) : RoundTrip.Statement (.mulw t d a b) := by
  intro word henc
  have hword : put (put (put (put 0x25000000 21 t) 14 d) 7 a) 0 b = word := Option.some.inj henc
  simp only [put] at hword
  have := t.isLt
  have := d.isLt
  have := a.isLt
  have := b.isLt
  clear henc
  have hc : fld word 26 6 = 9 := by simp only [fld]; omega
  have h0 : fld word 22 4 = 4 := by simp only [fld]; omega
  have f0 : BitVec.ofNat 1 (word / 2097152) = t := ofNat_field _ _ (by omega)
  have f1 : BitVec.ofNat 7 (word / 16384) = d := ofNat_field _ _ (by omega)
  have f2 : BitVec.ofNat 7 (word / 128) = a := ofNat_field _ _ (by omega)
  have f3 : BitVec.ofNat 7 word = b := ofNat_field _ _ (by omega)
  refine ⟨by omega, ?_⟩
  simp [decodeWord, hc, decodeAddr, h0, f0, f1, f2, f3]

theorem RoundTrip.cmp64 (c : BitVec 4) (p : BitVec 3) (a : BitVec 7) (b : BitVec 7) : RoundTrip.Statement (.cmp64 c p a b) := by
  intro word henc
  have hword : put (put (put (put 0x25400000 17 c) 14 p) 7 a) 0 b = word := Option.some.inj henc
  simp only [put] at hword
  have := c.isLt
  have := p.isLt
  have := a.isLt
  have := b.isLt
  clear henc
  have hc : fld word 26 6 = 9 := by simp only [fld]; omega
  have h0 : fld word 22 4 = 5 := by simp only [fld]; omega
  have h1 : fld word 21 1 = 0 := by simp only [fld]; omega
  have f0 : BitVec.ofNat 4 (word / 131072) = c := ofNat_field _ _ (by omega)
  have f1 : BitVec.ofNat 3 (word / 16384) = p := ofNat_field _ _ (by omega)
  have f2 : BitVec.ofNat 7 (word / 128) = a := ofNat_field _ _ (by omega)
  have f3 : BitVec.ofNat 7 word = b := ofNat_field _ _ (by omega)
  refine ⟨by omega, ?_⟩
  simp [decodeWord, hc, decodeAddr, h0, h1, f0, f1, f2, f3]

theorem RoundTrip.fadd (t : BitVec 1) (d : BitVec 7) (a : BitVec 7) (b : BitVec 7) : RoundTrip.Statement (.fadd t d a b) := by
  intro word henc
  have hword : put (put (put (put 0x28000000 21 t) 14 d) 7 a) 0 b = word := Option.some.inj henc
  simp only [put] at hword
  have := t.isLt
  have := d.isLt
  have := a.isLt
  have := b.isLt
  clear henc
  have hc : fld word 26 6 = 10 := by simp only [fld]; omega
  have h0 : fld word 22 4 = 0 := by simp only [fld]; omega
  have f0 : BitVec.ofNat 1 (word / 2097152) = t := ofNat_field _ _ (by omega)
  have f1 : BitVec.ofNat 7 (word / 16384) = d := ofNat_field _ _ (by omega)
  have f2 : BitVec.ofNat 7 (word / 128) = a := ofNat_field _ _ (by omega)
  have f3 : BitVec.ofNat 7 word = b := ofNat_field _ _ (by omega)
  refine ⟨by omega, ?_⟩
  simp [decodeWord, hc, decodeFadd, h0, f0, f1, f2, f3]

theorem RoundTrip.fsub (t : BitVec 1) (d : BitVec 7) (a : BitVec 7) (b : BitVec 7) : RoundTrip.Statement (.fsub t d a b) := by
  intro word henc
  have hword : put (put (put (put 0x28400000 21 t) 14 d) 7 a) 0 b = word := Option.some.inj henc
  simp only [put] at hword
  have := t.isLt
  have := d.isLt
  have := a.isLt
  have := b.isLt
  clear henc
  have hc : fld word 26 6 = 10 := by simp only [fld]; omega
  have h0 : fld word 22 4 = 1 := by simp only [fld]; omega
  have f0 : BitVec.ofNat 1 (word / 2097152) = t := ofNat_field _ _ (by omega)
  have f1 : BitVec.ofNat 7 (word / 16384) = d := ofNat_field _ _ (by omega)
  have f2 : BitVec.ofNat 7 (word / 128) = a := ofNat_field _ _ (by omega)
  have f3 : BitVec.ofNat 7 word = b := ofNat_field _ _ (by omega)
  refine ⟨by omega, ?_⟩
  simp [decodeWord, hc, decodeFadd, h0, f0, f1, f2, f3]

theorem RoundTrip.fmin (t : BitVec 1) (d : BitVec 7) (a : BitVec 7) (b : BitVec 7) : RoundTrip.Statement (.fmin t d a b) := by
  intro word henc
  have hword : put (put (put (put 0x28800000 21 t) 14 d) 7 a) 0 b = word := Option.some.inj henc
  simp only [put] at hword
  have := t.isLt
  have := d.isLt
  have := a.isLt
  have := b.isLt
  clear henc
  have hc : fld word 26 6 = 10 := by simp only [fld]; omega
  have h0 : fld word 22 4 = 2 := by simp only [fld]; omega
  have f0 : BitVec.ofNat 1 (word / 2097152) = t := ofNat_field _ _ (by omega)
  have f1 : BitVec.ofNat 7 (word / 16384) = d := ofNat_field _ _ (by omega)
  have f2 : BitVec.ofNat 7 (word / 128) = a := ofNat_field _ _ (by omega)
  have f3 : BitVec.ofNat 7 word = b := ofNat_field _ _ (by omega)
  refine ⟨by omega, ?_⟩
  simp [decodeWord, hc, decodeFadd, h0, f0, f1, f2, f3]

theorem RoundTrip.fmax (t : BitVec 1) (d : BitVec 7) (a : BitVec 7) (b : BitVec 7) : RoundTrip.Statement (.fmax t d a b) := by
  intro word henc
  have hword : put (put (put (put 0x28C00000 21 t) 14 d) 7 a) 0 b = word := Option.some.inj henc
  simp only [put] at hword
  have := t.isLt
  have := d.isLt
  have := a.isLt
  have := b.isLt
  clear henc
  have hc : fld word 26 6 = 10 := by simp only [fld]; omega
  have h0 : fld word 22 4 = 3 := by simp only [fld]; omega
  have f0 : BitVec.ofNat 1 (word / 2097152) = t := ofNat_field _ _ (by omega)
  have f1 : BitVec.ofNat 7 (word / 16384) = d := ofNat_field _ _ (by omega)
  have f2 : BitVec.ofNat 7 (word / 128) = a := ofNat_field _ _ (by omega)
  have f3 : BitVec.ofNat 7 word = b := ofNat_field _ _ (by omega)
  refine ⟨by omega, ?_⟩
  simp [decodeWord, hc, decodeFadd, h0, f0, f1, f2, f3]

theorem RoundTrip.fmul (t : BitVec 1) (d : BitVec 7) (a : BitVec 7) (b : BitVec 7) : RoundTrip.Statement (.fmul t d a b) := by
  intro word henc
  have hword : put (put (put (put 0x2C000000 21 t) 14 d) 7 a) 0 b = word := Option.some.inj henc
  simp only [put] at hword
  have := t.isLt
  have := d.isLt
  have := a.isLt
  have := b.isLt
  clear henc
  have hc : fld word 26 6 = 11 := by simp only [fld]; omega
  have h0 : fld word 22 4 = 0 := by simp only [fld]; omega
  have f0 : BitVec.ofNat 1 (word / 2097152) = t := ofNat_field _ _ (by omega)
  have f1 : BitVec.ofNat 7 (word / 16384) = d := ofNat_field _ _ (by omega)
  have f2 : BitVec.ofNat 7 (word / 128) = a := ofNat_field _ _ (by omega)
  have f3 : BitVec.ofNat 7 word = b := ofNat_field _ _ (by omega)
  refine ⟨by omega, ?_⟩
  simp [decodeWord, hc, decodeFmul, h0, f0, f1, f2, f3]

theorem RoundTrip.fscale (t : BitVec 1) (d : BitVec 7) (a : BitVec 7) (b : BitVec 7) : RoundTrip.Statement (.fscale t d a b) := by
  intro word henc
  have hword : put (put (put (put 0x2C400000 21 t) 14 d) 7 a) 0 b = word := Option.some.inj henc
  simp only [put] at hword
  have := t.isLt
  have := d.isLt
  have := a.isLt
  have := b.isLt
  clear henc
  have hc : fld word 26 6 = 11 := by simp only [fld]; omega
  have h0 : fld word 22 4 = 1 := by simp only [fld]; omega
  have f0 : BitVec.ofNat 1 (word / 2097152) = t := ofNat_field _ _ (by omega)
  have f1 : BitVec.ofNat 7 (word / 16384) = d := ofNat_field _ _ (by omega)
  have f2 : BitVec.ofNat 7 (word / 128) = a := ofNat_field _ _ (by omega)
  have f3 : BitVec.ofNat 7 word = b := ofNat_field _ _ (by omega)
  refine ⟨by omega, ?_⟩
  simp [decodeWord, hc, decodeFmul, h0, f0, f1, f2, f3]

theorem RoundTrip.ffma (t : BitVec 1) (d : BitVec 7) (a : BitVec 7) (b : BitVec 7) : RoundTrip.Statement (.ffma t d a b) := by
  intro word henc
  have hword : put (put (put (put 0x30000000 21 t) 14 d) 7 a) 0 b = word := Option.some.inj henc
  simp only [put] at hword
  have := t.isLt
  have := d.isLt
  have := a.isLt
  have := b.isLt
  clear henc
  have hc : fld word 26 6 = 12 := by simp only [fld]; omega
  have h0 : fld word 22 4 = 0 := by simp only [fld]; omega
  have f0 : BitVec.ofNat 1 (word / 2097152) = t := ofNat_field _ _ (by omega)
  have f1 : BitVec.ofNat 7 (word / 16384) = d := ofNat_field _ _ (by omega)
  have f2 : BitVec.ofNat 7 (word / 128) = a := ofNat_field _ _ (by omega)
  have f3 : BitVec.ofNat 7 word = b := ofNat_field _ _ (by omega)
  refine ⟨by omega, ?_⟩
  simp [decodeWord, hc, decodeFfma, h0, f0, f1, f2, f3]

theorem RoundTrip.ffms (t : BitVec 1) (d : BitVec 7) (a : BitVec 7) (b : BitVec 7) : RoundTrip.Statement (.ffms t d a b) := by
  intro word henc
  have hword : put (put (put (put 0x30400000 21 t) 14 d) 7 a) 0 b = word := Option.some.inj henc
  simp only [put] at hword
  have := t.isLt
  have := d.isLt
  have := a.isLt
  have := b.isLt
  clear henc
  have hc : fld word 26 6 = 12 := by simp only [fld]; omega
  have h0 : fld word 22 4 = 1 := by simp only [fld]; omega
  have f0 : BitVec.ofNat 1 (word / 2097152) = t := ofNat_field _ _ (by omega)
  have f1 : BitVec.ofNat 7 (word / 16384) = d := ofNat_field _ _ (by omega)
  have f2 : BitVec.ofNat 7 (word / 128) = a := ofNat_field _ _ (by omega)
  have f3 : BitVec.ofNat 7 word = b := ofNat_field _ _ (by omega)
  refine ⟨by omega, ?_⟩
  simp [decodeWord, hc, decodeFfma, h0, f0, f1, f2, f3]

theorem RoundTrip.fnma (t : BitVec 1) (d : BitVec 7) (a : BitVec 7) (b : BitVec 7) : RoundTrip.Statement (.fnma t d a b) := by
  intro word henc
  have hword : put (put (put (put 0x30800000 21 t) 14 d) 7 a) 0 b = word := Option.some.inj henc
  simp only [put] at hword
  have := t.isLt
  have := d.isLt
  have := a.isLt
  have := b.isLt
  clear henc
  have hc : fld word 26 6 = 12 := by simp only [fld]; omega
  have h0 : fld word 22 4 = 2 := by simp only [fld]; omega
  have f0 : BitVec.ofNat 1 (word / 2097152) = t := ofNat_field _ _ (by omega)
  have f1 : BitVec.ofNat 7 (word / 16384) = d := ofNat_field _ _ (by omega)
  have f2 : BitVec.ofNat 7 (word / 128) = a := ofNat_field _ _ (by omega)
  have f3 : BitVec.ofNat 7 word = b := ofNat_field _ _ (by omega)
  refine ⟨by omega, ?_⟩
  simp [decodeWord, hc, decodeFfma, h0, f0, f1, f2, f3]

theorem RoundTrip.fnms (t : BitVec 1) (d : BitVec 7) (a : BitVec 7) (b : BitVec 7) : RoundTrip.Statement (.fnms t d a b) := by
  intro word henc
  have hword : put (put (put (put 0x30C00000 21 t) 14 d) 7 a) 0 b = word := Option.some.inj henc
  simp only [put] at hword
  have := t.isLt
  have := d.isLt
  have := a.isLt
  have := b.isLt
  clear henc
  have hc : fld word 26 6 = 12 := by simp only [fld]; omega
  have h0 : fld word 22 4 = 3 := by simp only [fld]; omega
  have f0 : BitVec.ofNat 1 (word / 2097152) = t := ofNat_field _ _ (by omega)
  have f1 : BitVec.ofNat 7 (word / 16384) = d := ofNat_field _ _ (by omega)
  have f2 : BitVec.ofNat 7 (word / 128) = a := ofNat_field _ _ (by omega)
  have f3 : BitVec.ofNat 7 word = b := ofNat_field _ _ (by omega)
  refine ⟨by omega, ?_⟩
  simp [decodeWord, hc, decodeFfma, h0, f0, f1, f2, f3]

theorem RoundTrip.fcmp (c : BitVec 3) (p : BitVec 3) (a : BitVec 7) (b : BitVec 7) : RoundTrip.Statement (.fcmp c p a b) := by
  intro word henc
  have hword : put (put (put (put 0x34000000 22 c) 14 p) 7 a) 0 b = word := Option.some.inj henc
  simp only [put] at hword
  have := c.isLt
  have := p.isLt
  have := a.isLt
  have := b.isLt
  clear henc
  have hc : fld word 26 6 = 13 := by simp only [fld]; omega
  have h0 : fld word 25 1 = 0 := by simp only [fld]; omega
  have h1 : fld word 17 5 = 0 := by simp only [fld]; omega
  have f0 : BitVec.ofNat 3 (word / 4194304) = c := ofNat_field _ _ (by omega)
  have f1 : BitVec.ofNat 3 (word / 16384) = p := ofNat_field _ _ (by omega)
  have f2 : BitVec.ofNat 7 (word / 128) = a := ofNat_field _ _ (by omega)
  have f3 : BitVec.ofNat 7 word = b := ofNat_field _ _ (by omega)
  refine ⟨by omega, ?_⟩
  simp [decodeWord, hc, decodeFcmp, h0, h1, f0, f1, f2, f3]

theorem RoundTrip.fclass (t : BitVec 1) (d : BitVec 7) (a : BitVec 7) : RoundTrip.Statement (.fclass t d a) := by
  intro word henc
  have hword : put (put (put 0x36000000 21 t) 14 d) 7 a = word := Option.some.inj henc
  simp only [put] at hword
  have := t.isLt
  have := d.isLt
  have := a.isLt
  clear henc
  have hc : fld word 26 6 = 13 := by simp only [fld]; omega
  have h0 : fld word 22 4 = 8 := by simp only [fld]; omega
  have h1 : fld word 0 7 = 0 := by simp only [fld]; omega
  have n0 : ¬ fld word 25 1 = 0 := by simp only [fld]; omega
  have f0 : BitVec.ofNat 1 (word / 2097152) = t := ofNat_field _ _ (by omega)
  have f1 : BitVec.ofNat 7 (word / 16384) = d := ofNat_field _ _ (by omega)
  have f2 : BitVec.ofNat 7 (word / 128) = a := ofNat_field _ _ (by omega)
  refine ⟨by omega, ?_⟩
  simp [decodeWord, hc, decodeFcmp, h0, h1, n0, f0, f1, f2]

theorem RoundTrip.frnd (t : BitVec 1) (d : BitVec 7) (a : BitVec 7) : RoundTrip.Statement (.frnd t d a) := by
  intro word henc
  have hword : put (put (put 0x38000000 21 t) 14 d) 7 a = word := Option.some.inj henc
  simp only [put] at hword
  have := t.isLt
  have := d.isLt
  have := a.isLt
  clear henc
  have hc : fld word 26 6 = 14 := by simp only [fld]; omega
  have h0 : fld word 22 4 = 0 := by simp only [fld]; omega
  have h1 : fld word 0 7 = 0 := by simp only [fld]; omega
  have f0 : BitVec.ofNat 1 (word / 2097152) = t := ofNat_field _ _ (by omega)
  have f1 : BitVec.ofNat 7 (word / 16384) = d := ofNat_field _ _ (by omega)
  have f2 : BitVec.ofNat 7 (word / 128) = a := ofNat_field _ _ (by omega)
  refine ⟨by omega, ?_⟩
  simp [decodeWord, hc, decodeFmisc, h0, h1, f0, f1, f2]

theorem RoundTrip.fcpys (t : BitVec 1) (d : BitVec 7) (a : BitVec 7) (b : BitVec 7) : RoundTrip.Statement (.fcpys t d a b) := by
  intro word henc
  have hword : put (put (put (put 0x38400000 21 t) 14 d) 7 a) 0 b = word := Option.some.inj henc
  simp only [put] at hword
  have := t.isLt
  have := d.isLt
  have := a.isLt
  have := b.isLt
  clear henc
  have hc : fld word 26 6 = 14 := by simp only [fld]; omega
  have h0 : fld word 22 4 = 1 := by simp only [fld]; omega
  have f0 : BitVec.ofNat 1 (word / 2097152) = t := ofNat_field _ _ (by omega)
  have f1 : BitVec.ofNat 7 (word / 16384) = d := ofNat_field _ _ (by omega)
  have f2 : BitVec.ofNat 7 (word / 128) = a := ofNat_field _ _ (by omega)
  have f3 : BitVec.ofNat 7 word = b := ofNat_field _ _ (by omega)
  refine ⟨by omega, ?_⟩
  simp [decodeWord, hc, decodeFmisc, h0, f0, f1, f2, f3]

theorem RoundTrip.fabs (t : BitVec 1) (d : BitVec 7) (a : BitVec 7) : RoundTrip.Statement (.fabs t d a) := by
  intro word henc
  have hword : put (put (put 0x38800000 21 t) 14 d) 7 a = word := Option.some.inj henc
  simp only [put] at hword
  have := t.isLt
  have := d.isLt
  have := a.isLt
  clear henc
  have hc : fld word 26 6 = 14 := by simp only [fld]; omega
  have h0 : fld word 22 4 = 2 := by simp only [fld]; omega
  have h1 : fld word 0 7 = 0 := by simp only [fld]; omega
  have f0 : BitVec.ofNat 1 (word / 2097152) = t := ofNat_field _ _ (by omega)
  have f1 : BitVec.ofNat 7 (word / 16384) = d := ofNat_field _ _ (by omega)
  have f2 : BitVec.ofNat 7 (word / 128) = a := ofNat_field _ _ (by omega)
  refine ⟨by omega, ?_⟩
  simp [decodeWord, hc, decodeFmisc, h0, h1, f0, f1, f2]

theorem RoundTrip.fneg (t : BitVec 1) (d : BitVec 7) (a : BitVec 7) : RoundTrip.Statement (.fneg t d a) := by
  intro word henc
  have hword : put (put (put 0x38C00000 21 t) 14 d) 7 a = word := Option.some.inj henc
  simp only [put] at hword
  have := t.isLt
  have := d.isLt
  have := a.isLt
  clear henc
  have hc : fld word 26 6 = 14 := by simp only [fld]; omega
  have h0 : fld word 22 4 = 3 := by simp only [fld]; omega
  have h1 : fld word 0 7 = 0 := by simp only [fld]; omega
  have f0 : BitVec.ofNat 1 (word / 2097152) = t := ofNat_field _ _ (by omega)
  have f1 : BitVec.ofNat 7 (word / 16384) = d := ofNat_field _ _ (by omega)
  have f2 : BitVec.ofNat 7 (word / 128) = a := ofNat_field _ _ (by omega)
  refine ⟨by omega, ?_⟩
  simp [decodeWord, hc, decodeFmisc, h0, h1, f0, f1, f2]

theorem RoundTrip.ffrac (t : BitVec 1) (d : BitVec 7) (a : BitVec 7) : RoundTrip.Statement (.ffrac t d a) := by
  intro word henc
  have hword : put (put (put 0x39000000 21 t) 14 d) 7 a = word := Option.some.inj henc
  simp only [put] at hword
  have := t.isLt
  have := d.isLt
  have := a.isLt
  clear henc
  have hc : fld word 26 6 = 14 := by simp only [fld]; omega
  have h0 : fld word 22 4 = 4 := by simp only [fld]; omega
  have h1 : fld word 0 7 = 0 := by simp only [fld]; omega
  have f0 : BitVec.ofNat 1 (word / 2097152) = t := ofNat_field _ _ (by omega)
  have f1 : BitVec.ofNat 7 (word / 16384) = d := ofNat_field _ _ (by omega)
  have f2 : BitVec.ofNat 7 (word / 128) = a := ofNat_field _ _ (by omega)
  refine ⟨by omega, ?_⟩
  simp [decodeWord, hc, decodeFmisc, h0, h1, f0, f1, f2]

theorem RoundTrip.frcp (d : BitVec 7) (a : BitVec 7) : RoundTrip.Statement (.frcp d a) := by
  intro word henc
  have hword : put (put 0x3C000000 14 d) 7 a = word := Option.some.inj henc
  simp only [put] at hword
  have := d.isLt
  have := a.isLt
  clear henc
  have hc : fld word 26 6 = 15 := by simp only [fld]; omega
  have h0 : fld word 22 4 = 0 := by simp only [fld]; omega
  have h1 : fld word 0 7 = 0 := by simp only [fld]; omega
  have h2 : fld word 21 1 = 0 := by simp only [fld]; omega
  have f0 : BitVec.ofNat 7 (word / 16384) = d := ofNat_field _ _ (by omega)
  have f1 : BitVec.ofNat 7 (word / 128) = a := ofNat_field _ _ (by omega)
  refine ⟨by omega, ?_⟩
  simp [decodeWord, hc, decodeSfu, h0, h1, h2, f0, f1]

theorem RoundTrip.frsq (d : BitVec 7) (a : BitVec 7) : RoundTrip.Statement (.frsq d a) := by
  intro word henc
  have hword : put (put 0x3C400000 14 d) 7 a = word := Option.some.inj henc
  simp only [put] at hword
  have := d.isLt
  have := a.isLt
  clear henc
  have hc : fld word 26 6 = 15 := by simp only [fld]; omega
  have h0 : fld word 22 4 = 1 := by simp only [fld]; omega
  have h1 : fld word 0 7 = 0 := by simp only [fld]; omega
  have h2 : fld word 21 1 = 0 := by simp only [fld]; omega
  have f0 : BitVec.ofNat 7 (word / 16384) = d := ofNat_field _ _ (by omega)
  have f1 : BitVec.ofNat 7 (word / 128) = a := ofNat_field _ _ (by omega)
  refine ⟨by omega, ?_⟩
  simp [decodeWord, hc, decodeSfu, h0, h1, h2, f0, f1]

theorem RoundTrip.fsqrt (d : BitVec 7) (a : BitVec 7) : RoundTrip.Statement (.fsqrt d a) := by
  intro word henc
  have hword : put (put 0x3C800000 14 d) 7 a = word := Option.some.inj henc
  simp only [put] at hword
  have := d.isLt
  have := a.isLt
  clear henc
  have hc : fld word 26 6 = 15 := by simp only [fld]; omega
  have h0 : fld word 22 4 = 2 := by simp only [fld]; omega
  have h1 : fld word 0 7 = 0 := by simp only [fld]; omega
  have h2 : fld word 21 1 = 0 := by simp only [fld]; omega
  have f0 : BitVec.ofNat 7 (word / 16384) = d := ofNat_field _ _ (by omega)
  have f1 : BitVec.ofNat 7 (word / 128) = a := ofNat_field _ _ (by omega)
  refine ⟨by omega, ?_⟩
  simp [decodeWord, hc, decodeSfu, h0, h1, h2, f0, f1]

theorem RoundTrip.fdiv (d : BitVec 7) (a : BitVec 7) (b : BitVec 7) : RoundTrip.Statement (.fdiv d a b) := by
  intro word henc
  have hword : put (put (put 0x3CC00000 14 d) 7 a) 0 b = word := Option.some.inj henc
  simp only [put] at hword
  have := d.isLt
  have := a.isLt
  have := b.isLt
  clear henc
  have hc : fld word 26 6 = 15 := by simp only [fld]; omega
  have h0 : fld word 22 4 = 3 := by simp only [fld]; omega
  have h1 : fld word 21 1 = 0 := by simp only [fld]; omega
  have f0 : BitVec.ofNat 7 (word / 16384) = d := ofNat_field _ _ (by omega)
  have f1 : BitVec.ofNat 7 (word / 128) = a := ofNat_field _ _ (by omega)
  have f2 : BitVec.ofNat 7 word = b := ofNat_field _ _ (by omega)
  refine ⟨by omega, ?_⟩
  simp [decodeWord, hc, decodeSfu, h0, h1, f0, f1, f2]

theorem RoundTrip.fexp2 (d : BitVec 7) (a : BitVec 7) : RoundTrip.Statement (.fexp2 d a) := by
  intro word henc
  have hword : put (put 0x3D000000 14 d) 7 a = word := Option.some.inj henc
  simp only [put] at hword
  have := d.isLt
  have := a.isLt
  clear henc
  have hc : fld word 26 6 = 15 := by simp only [fld]; omega
  have h0 : fld word 22 4 = 4 := by simp only [fld]; omega
  have h1 : fld word 0 7 = 0 := by simp only [fld]; omega
  have h2 : fld word 21 1 = 0 := by simp only [fld]; omega
  have f0 : BitVec.ofNat 7 (word / 16384) = d := ofNat_field _ _ (by omega)
  have f1 : BitVec.ofNat 7 (word / 128) = a := ofNat_field _ _ (by omega)
  refine ⟨by omega, ?_⟩
  simp [decodeWord, hc, decodeSfu, h0, h1, h2, f0, f1]

theorem RoundTrip.flog2 (d : BitVec 7) (a : BitVec 7) : RoundTrip.Statement (.flog2 d a) := by
  intro word henc
  have hword : put (put 0x3D400000 14 d) 7 a = word := Option.some.inj henc
  simp only [put] at hword
  have := d.isLt
  have := a.isLt
  clear henc
  have hc : fld word 26 6 = 15 := by simp only [fld]; omega
  have h0 : fld word 22 4 = 5 := by simp only [fld]; omega
  have h1 : fld word 0 7 = 0 := by simp only [fld]; omega
  have h2 : fld word 21 1 = 0 := by simp only [fld]; omega
  have f0 : BitVec.ofNat 7 (word / 16384) = d := ofNat_field _ _ (by omega)
  have f1 : BitVec.ofNat 7 (word / 128) = a := ofNat_field _ _ (by omega)
  refine ⟨by omega, ?_⟩
  simp [decodeWord, hc, decodeSfu, h0, h1, h2, f0, f1]

theorem RoundTrip.fsinp (d : BitVec 7) (a : BitVec 7) : RoundTrip.Statement (.fsinp d a) := by
  intro word henc
  have hword : put (put 0x3D800000 14 d) 7 a = word := Option.some.inj henc
  simp only [put] at hword
  have := d.isLt
  have := a.isLt
  clear henc
  have hc : fld word 26 6 = 15 := by simp only [fld]; omega
  have h0 : fld word 22 4 = 6 := by simp only [fld]; omega
  have h1 : fld word 0 7 = 0 := by simp only [fld]; omega
  have h2 : fld word 21 1 = 0 := by simp only [fld]; omega
  have f0 : BitVec.ofNat 7 (word / 16384) = d := ofNat_field _ _ (by omega)
  have f1 : BitVec.ofNat 7 (word / 128) = a := ofNat_field _ _ (by omega)
  refine ⟨by omega, ?_⟩
  simp [decodeWord, hc, decodeSfu, h0, h1, h2, f0, f1]

theorem RoundTrip.fcosp (d : BitVec 7) (a : BitVec 7) : RoundTrip.Statement (.fcosp d a) := by
  intro word henc
  have hword : put (put 0x3DC00000 14 d) 7 a = word := Option.some.inj henc
  simp only [put] at hword
  have := d.isLt
  have := a.isLt
  clear henc
  have hc : fld word 26 6 = 15 := by simp only [fld]; omega
  have h0 : fld word 22 4 = 7 := by simp only [fld]; omega
  have h1 : fld word 0 7 = 0 := by simp only [fld]; omega
  have h2 : fld word 21 1 = 0 := by simp only [fld]; omega
  have f0 : BitVec.ofNat 7 (word / 16384) = d := ofNat_field _ _ (by omega)
  have f1 : BitVec.ofNat 7 (word / 128) = a := ofNat_field _ _ (by omega)
  refine ⟨by omega, ?_⟩
  simp [decodeWord, hc, decodeSfu, h0, h1, h2, f0, f1]

theorem RoundTrip.ftanh (d : BitVec 7) (a : BitVec 7) : RoundTrip.Statement (.ftanh d a) := by
  intro word henc
  have hword : put (put 0x3E000000 14 d) 7 a = word := Option.some.inj henc
  simp only [put] at hword
  have := d.isLt
  have := a.isLt
  clear henc
  have hc : fld word 26 6 = 15 := by simp only [fld]; omega
  have h0 : fld word 22 4 = 8 := by simp only [fld]; omega
  have h1 : fld word 0 7 = 0 := by simp only [fld]; omega
  have h2 : fld word 21 1 = 0 := by simp only [fld]; omega
  have f0 : BitVec.ofNat 7 (word / 16384) = d := ofNat_field _ _ (by omega)
  have f1 : BitVec.ofNat 7 (word / 128) = a := ofNat_field _ _ (by omega)
  refine ⟨by omega, ?_⟩
  simp [decodeWord, hc, decodeSfu, h0, h1, h2, f0, f1]

theorem RoundTrip.f2f (d : BitVec 7) (a : BitVec 7) (y : BitVec 3) (x : BitVec 3) : RoundTrip.Statement (.f2f d a y x) := by
  intro word henc
  have hword : put (put (put (put 0x40000000 14 d) 7 a) 3 y) 0 x = word := Option.some.inj henc
  simp only [put] at hword
  have := d.isLt
  have := a.isLt
  have := y.isLt
  have := x.isLt
  clear henc
  have hc : fld word 26 6 = 16 := by simp only [fld]; omega
  have h0 : fld word 22 4 = 0 := by simp only [fld]; omega
  have h1 : fld word 6 1 = 0 := by simp only [fld]; omega
  have h2 : fld word 21 1 = 0 := by simp only [fld]; omega
  have f0 : BitVec.ofNat 7 (word / 16384) = d := ofNat_field _ _ (by omega)
  have f1 : BitVec.ofNat 7 (word / 128) = a := ofNat_field _ _ (by omega)
  have f2 : BitVec.ofNat 3 (word / 8) = y := ofNat_field _ _ (by omega)
  have f3 : BitVec.ofNat 3 word = x := ofNat_field _ _ (by omega)
  refine ⟨by omega, ?_⟩
  simp [decodeWord, hc, decodeCvt, h0, h1, h2, f0, f1, f2, f3]

theorem RoundTrip.f2i (d : BitVec 7) (a : BitVec 7) (y : BitVec 3) (x : BitVec 3) : RoundTrip.Statement (.f2i d a y x) := by
  intro word henc
  have hword : put (put (put (put 0x40400000 14 d) 7 a) 3 y) 0 x = word := Option.some.inj henc
  simp only [put] at hword
  have := d.isLt
  have := a.isLt
  have := y.isLt
  have := x.isLt
  clear henc
  have hc : fld word 26 6 = 16 := by simp only [fld]; omega
  have h0 : fld word 22 4 = 1 := by simp only [fld]; omega
  have h1 : fld word 6 1 = 0 := by simp only [fld]; omega
  have h2 : fld word 21 1 = 0 := by simp only [fld]; omega
  have f0 : BitVec.ofNat 7 (word / 16384) = d := ofNat_field _ _ (by omega)
  have f1 : BitVec.ofNat 7 (word / 128) = a := ofNat_field _ _ (by omega)
  have f2 : BitVec.ofNat 3 (word / 8) = y := ofNat_field _ _ (by omega)
  have f3 : BitVec.ofNat 3 word = x := ofNat_field _ _ (by omega)
  refine ⟨by omega, ?_⟩
  simp [decodeWord, hc, decodeCvt, h0, h1, h2, f0, f1, f2, f3]

theorem RoundTrip.i2f (d : BitVec 7) (a : BitVec 7) (y : BitVec 3) (x : BitVec 3) : RoundTrip.Statement (.i2f d a y x) := by
  intro word henc
  have hword : put (put (put (put 0x40800000 14 d) 7 a) 3 y) 0 x = word := Option.some.inj henc
  simp only [put] at hword
  have := d.isLt
  have := a.isLt
  have := y.isLt
  have := x.isLt
  clear henc
  have hc : fld word 26 6 = 16 := by simp only [fld]; omega
  have h0 : fld word 22 4 = 2 := by simp only [fld]; omega
  have h1 : fld word 6 1 = 0 := by simp only [fld]; omega
  have h2 : fld word 21 1 = 0 := by simp only [fld]; omega
  have f0 : BitVec.ofNat 7 (word / 16384) = d := ofNat_field _ _ (by omega)
  have f1 : BitVec.ofNat 7 (word / 128) = a := ofNat_field _ _ (by omega)
  have f2 : BitVec.ofNat 3 (word / 8) = y := ofNat_field _ _ (by omega)
  have f3 : BitVec.ofNat 3 word = x := ofNat_field _ _ (by omega)
  refine ⟨by omega, ?_⟩
  simp [decodeWord, hc, decodeCvt, h0, h1, h2, f0, f1, f2, f3]

theorem RoundTrip.i2i (d : BitVec 7) (a : BitVec 7) (y : BitVec 3) (x : BitVec 3) : RoundTrip.Statement (.i2i d a y x) := by
  intro word henc
  have hword : put (put (put (put 0x40C00000 14 d) 7 a) 3 y) 0 x = word := Option.some.inj henc
  simp only [put] at hword
  have := d.isLt
  have := a.isLt
  have := y.isLt
  have := x.isLt
  clear henc
  have hc : fld word 26 6 = 16 := by simp only [fld]; omega
  have h0 : fld word 22 4 = 3 := by simp only [fld]; omega
  have h1 : fld word 6 1 = 0 := by simp only [fld]; omega
  have h2 : fld word 21 1 = 0 := by simp only [fld]; omega
  have f0 : BitVec.ofNat 7 (word / 16384) = d := ofNat_field _ _ (by omega)
  have f1 : BitVec.ofNat 7 (word / 128) = a := ofNat_field _ _ (by omega)
  have f2 : BitVec.ofNat 3 (word / 8) = y := ofNat_field _ _ (by omega)
  have f3 : BitVec.ofNat 3 word = x := ofNat_field _ _ (by omega)
  refine ⟨by omega, ?_⟩
  simp [decodeWord, hc, decodeCvt, h0, h1, h2, f0, f1, f2, f3]

theorem RoundTrip.pack2 (d : BitVec 7) (a : BitVec 7) (k : BitVec 1) (y : BitVec 3) (x : BitVec 3) : RoundTrip.Statement (.pack2 d a k y x) := by
  intro word henc
  have hword : put (put (put (put (put 0x41000000 14 d) 7 a) 6 k) 3 y) 0 x = word := Option.some.inj henc
  simp only [put] at hword
  have := d.isLt
  have := a.isLt
  have := k.isLt
  have := y.isLt
  have := x.isLt
  clear henc
  have hc : fld word 26 6 = 16 := by simp only [fld]; omega
  have h0 : fld word 22 4 = 4 := by simp only [fld]; omega
  have h1 : fld word 21 1 = 0 := by simp only [fld]; omega
  have f0 : BitVec.ofNat 7 (word / 16384) = d := ofNat_field _ _ (by omega)
  have f1 : BitVec.ofNat 7 (word / 128) = a := ofNat_field _ _ (by omega)
  have f2 : BitVec.ofNat 1 (word / 64) = k := ofNat_field _ _ (by omega)
  have f3 : BitVec.ofNat 3 (word / 8) = y := ofNat_field _ _ (by omega)
  have f4 : BitVec.ofNat 3 word = x := ofNat_field _ _ (by omega)
  refine ⟨by omega, ?_⟩
  simp [decodeWord, hc, decodeCvt, h0, h1, f0, f1, f2, f3, f4]

theorem RoundTrip.unpack2 (d : BitVec 7) (a : BitVec 7) (k : BitVec 1) (y : BitVec 3) (x : BitVec 3) : RoundTrip.Statement (.unpack2 d a k y x) := by
  intro word henc
  have hword : put (put (put (put (put 0x41400000 14 d) 7 a) 6 k) 3 y) 0 x = word := Option.some.inj henc
  simp only [put] at hword
  have := d.isLt
  have := a.isLt
  have := k.isLt
  have := y.isLt
  have := x.isLt
  clear henc
  have hc : fld word 26 6 = 16 := by simp only [fld]; omega
  have h0 : fld word 22 4 = 5 := by simp only [fld]; omega
  have h1 : fld word 21 1 = 0 := by simp only [fld]; omega
  have f0 : BitVec.ofNat 7 (word / 16384) = d := ofNat_field _ _ (by omega)
  have f1 : BitVec.ofNat 7 (word / 128) = a := ofNat_field _ _ (by omega)
  have f2 : BitVec.ofNat 1 (word / 64) = k := ofNat_field _ _ (by omega)
  have f3 : BitVec.ofNat 3 (word / 8) = y := ofNat_field _ _ (by omega)
  have f4 : BitVec.ofNat 3 word = x := ofNat_field _ _ (by omega)
  refine ⟨by omega, ?_⟩
  simp [decodeWord, hc, decodeCvt, h0, h1, f0, f1, f2, f3, f4]

theorem RoundTrip.hadd2 (f : BitVec 1) (t : BitVec 1) (d : BitVec 7) (a : BitVec 7) (b : BitVec 7) : RoundTrip.Statement (.hadd2 f t d a b) := by
  intro word henc
  have hword : put (put (put (put (put 0x44000000 25 f) 21 t) 14 d) 7 a) 0 b = word := Option.some.inj henc
  simp only [put] at hword
  have := f.isLt
  have := t.isLt
  have := d.isLt
  have := a.isLt
  have := b.isLt
  clear henc
  have hc : fld word 26 6 = 17 := by simp only [fld]; omega
  have h0 : fld word 22 3 = 0 := by simp only [fld]; omega
  have f0 : BitVec.ofNat 1 (word / 33554432) = f := ofNat_field _ _ (by omega)
  have f1 : BitVec.ofNat 1 (word / 2097152) = t := ofNat_field _ _ (by omega)
  have f2 : BitVec.ofNat 7 (word / 16384) = d := ofNat_field _ _ (by omega)
  have f3 : BitVec.ofNat 7 (word / 128) = a := ofNat_field _ _ (by omega)
  have f4 : BitVec.ofNat 7 word = b := ofNat_field _ _ (by omega)
  refine ⟨by omega, ?_⟩
  simp [decodeWord, hc, decodePk16, h0, f0, f1, f2, f3, f4]

theorem RoundTrip.hsub2 (f : BitVec 1) (t : BitVec 1) (d : BitVec 7) (a : BitVec 7) (b : BitVec 7) : RoundTrip.Statement (.hsub2 f t d a b) := by
  intro word henc
  have hword : put (put (put (put (put 0x44400000 25 f) 21 t) 14 d) 7 a) 0 b = word := Option.some.inj henc
  simp only [put] at hword
  have := f.isLt
  have := t.isLt
  have := d.isLt
  have := a.isLt
  have := b.isLt
  clear henc
  have hc : fld word 26 6 = 17 := by simp only [fld]; omega
  have h0 : fld word 22 3 = 1 := by simp only [fld]; omega
  have f0 : BitVec.ofNat 1 (word / 33554432) = f := ofNat_field _ _ (by omega)
  have f1 : BitVec.ofNat 1 (word / 2097152) = t := ofNat_field _ _ (by omega)
  have f2 : BitVec.ofNat 7 (word / 16384) = d := ofNat_field _ _ (by omega)
  have f3 : BitVec.ofNat 7 (word / 128) = a := ofNat_field _ _ (by omega)
  have f4 : BitVec.ofNat 7 word = b := ofNat_field _ _ (by omega)
  refine ⟨by omega, ?_⟩
  simp [decodeWord, hc, decodePk16, h0, f0, f1, f2, f3, f4]

theorem RoundTrip.hmul2 (f : BitVec 1) (t : BitVec 1) (d : BitVec 7) (a : BitVec 7) (b : BitVec 7) : RoundTrip.Statement (.hmul2 f t d a b) := by
  intro word henc
  have hword : put (put (put (put (put 0x44800000 25 f) 21 t) 14 d) 7 a) 0 b = word := Option.some.inj henc
  simp only [put] at hword
  have := f.isLt
  have := t.isLt
  have := d.isLt
  have := a.isLt
  have := b.isLt
  clear henc
  have hc : fld word 26 6 = 17 := by simp only [fld]; omega
  have h0 : fld word 22 3 = 2 := by simp only [fld]; omega
  have f0 : BitVec.ofNat 1 (word / 33554432) = f := ofNat_field _ _ (by omega)
  have f1 : BitVec.ofNat 1 (word / 2097152) = t := ofNat_field _ _ (by omega)
  have f2 : BitVec.ofNat 7 (word / 16384) = d := ofNat_field _ _ (by omega)
  have f3 : BitVec.ofNat 7 (word / 128) = a := ofNat_field _ _ (by omega)
  have f4 : BitVec.ofNat 7 word = b := ofNat_field _ _ (by omega)
  refine ⟨by omega, ?_⟩
  simp [decodeWord, hc, decodePk16, h0, f0, f1, f2, f3, f4]

theorem RoundTrip.hfma2 (f : BitVec 1) (t : BitVec 1) (d : BitVec 7) (a : BitVec 7) (b : BitVec 7) : RoundTrip.Statement (.hfma2 f t d a b) := by
  intro word henc
  have hword : put (put (put (put (put 0x44C00000 25 f) 21 t) 14 d) 7 a) 0 b = word := Option.some.inj henc
  simp only [put] at hword
  have := f.isLt
  have := t.isLt
  have := d.isLt
  have := a.isLt
  have := b.isLt
  clear henc
  have hc : fld word 26 6 = 17 := by simp only [fld]; omega
  have h0 : fld word 22 3 = 3 := by simp only [fld]; omega
  have f0 : BitVec.ofNat 1 (word / 33554432) = f := ofNat_field _ _ (by omega)
  have f1 : BitVec.ofNat 1 (word / 2097152) = t := ofNat_field _ _ (by omega)
  have f2 : BitVec.ofNat 7 (word / 16384) = d := ofNat_field _ _ (by omega)
  have f3 : BitVec.ofNat 7 (word / 128) = a := ofNat_field _ _ (by omega)
  have f4 : BitVec.ofNat 7 word = b := ofNat_field _ _ (by omega)
  refine ⟨by omega, ?_⟩
  simp [decodeWord, hc, decodePk16, h0, f0, f1, f2, f3, f4]

theorem RoundTrip.hmin2 (f : BitVec 1) (t : BitVec 1) (d : BitVec 7) (a : BitVec 7) (b : BitVec 7) : RoundTrip.Statement (.hmin2 f t d a b) := by
  intro word henc
  have hword : put (put (put (put (put 0x45000000 25 f) 21 t) 14 d) 7 a) 0 b = word := Option.some.inj henc
  simp only [put] at hword
  have := f.isLt
  have := t.isLt
  have := d.isLt
  have := a.isLt
  have := b.isLt
  clear henc
  have hc : fld word 26 6 = 17 := by simp only [fld]; omega
  have h0 : fld word 22 3 = 4 := by simp only [fld]; omega
  have f0 : BitVec.ofNat 1 (word / 33554432) = f := ofNat_field _ _ (by omega)
  have f1 : BitVec.ofNat 1 (word / 2097152) = t := ofNat_field _ _ (by omega)
  have f2 : BitVec.ofNat 7 (word / 16384) = d := ofNat_field _ _ (by omega)
  have f3 : BitVec.ofNat 7 (word / 128) = a := ofNat_field _ _ (by omega)
  have f4 : BitVec.ofNat 7 word = b := ofNat_field _ _ (by omega)
  refine ⟨by omega, ?_⟩
  simp [decodeWord, hc, decodePk16, h0, f0, f1, f2, f3, f4]

theorem RoundTrip.hmax2 (f : BitVec 1) (t : BitVec 1) (d : BitVec 7) (a : BitVec 7) (b : BitVec 7) : RoundTrip.Statement (.hmax2 f t d a b) := by
  intro word henc
  have hword : put (put (put (put (put 0x45400000 25 f) 21 t) 14 d) 7 a) 0 b = word := Option.some.inj henc
  simp only [put] at hword
  have := f.isLt
  have := t.isLt
  have := d.isLt
  have := a.isLt
  have := b.isLt
  clear henc
  have hc : fld word 26 6 = 17 := by simp only [fld]; omega
  have h0 : fld word 22 3 = 5 := by simp only [fld]; omega
  have f0 : BitVec.ofNat 1 (word / 33554432) = f := ofNat_field _ _ (by omega)
  have f1 : BitVec.ofNat 1 (word / 2097152) = t := ofNat_field _ _ (by omega)
  have f2 : BitVec.ofNat 7 (word / 16384) = d := ofNat_field _ _ (by omega)
  have f3 : BitVec.ofNat 7 (word / 128) = a := ofNat_field _ _ (by omega)
  have f4 : BitVec.ofNat 7 word = b := ofNat_field _ _ (by omega)
  refine ⟨by omega, ?_⟩
  simp [decodeWord, hc, decodePk16, h0, f0, f1, f2, f3, f4]

theorem RoundTrip.idot4 (u : BitVec 1) (t : BitVec 1) (d : BitVec 7) (a : BitVec 7) (b : BitVec 7) : RoundTrip.Statement (.idot4 u t d a b) := by
  intro word henc
  have hword : put (put (put (put (put 0x48000000 22 u) 21 t) 14 d) 7 a) 0 b = word := Option.some.inj henc
  simp only [put] at hword
  have := u.isLt
  have := t.isLt
  have := d.isLt
  have := a.isLt
  have := b.isLt
  clear henc
  have hc : fld word 26 6 = 18 := by simp only [fld]; omega
  have h0 : fld word 23 3 = 0 := by simp only [fld]; omega
  have f0 : BitVec.ofNat 1 (word / 4194304) = u := ofNat_field _ _ (by omega)
  have f1 : BitVec.ofNat 1 (word / 2097152) = t := ofNat_field _ _ (by omega)
  have f2 : BitVec.ofNat 7 (word / 16384) = d := ofNat_field _ _ (by omega)
  have f3 : BitVec.ofNat 7 (word / 128) = a := ofNat_field _ _ (by omega)
  have f4 : BitVec.ofNat 7 word = b := ofNat_field _ _ (by omega)
  refine ⟨by omega, ?_⟩
  simp [decodeWord, hc, decodeDot, h0, f0, f1, f2, f3, f4]

theorem RoundTrip.fdot2 (u : BitVec 1) (t : BitVec 1) (d : BitVec 7) (a : BitVec 7) (b : BitVec 7) : RoundTrip.Statement (.fdot2 u t d a b) := by
  intro word henc
  have hword : put (put (put (put (put 0x48800000 22 u) 21 t) 14 d) 7 a) 0 b = word := Option.some.inj henc
  simp only [put] at hword
  have := u.isLt
  have := t.isLt
  have := d.isLt
  have := a.isLt
  have := b.isLt
  clear henc
  have hc : fld word 26 6 = 18 := by simp only [fld]; omega
  have h0 : fld word 23 3 = 1 := by simp only [fld]; omega
  have f0 : BitVec.ofNat 1 (word / 4194304) = u := ofNat_field _ _ (by omega)
  have f1 : BitVec.ofNat 1 (word / 2097152) = t := ofNat_field _ _ (by omega)
  have f2 : BitVec.ofNat 7 (word / 16384) = d := ofNat_field _ _ (by omega)
  have f3 : BitVec.ofNat 7 (word / 128) = a := ofNat_field _ _ (by omega)
  have f4 : BitVec.ofNat 7 word = b := ofNat_field _ _ (by omega)
  refine ⟨by omega, ?_⟩
  simp [decodeWord, hc, decodeDot, h0, f0, f1, f2, f3, f4]

theorem RoundTrip.f8dot4 (u : BitVec 1) (t : BitVec 1) (d : BitVec 7) (a : BitVec 7) (b : BitVec 7) : RoundTrip.Statement (.f8dot4 u t d a b) := by
  intro word henc
  have hword : put (put (put (put (put 0x49000000 22 u) 21 t) 14 d) 7 a) 0 b = word := Option.some.inj henc
  simp only [put] at hword
  have := u.isLt
  have := t.isLt
  have := d.isLt
  have := a.isLt
  have := b.isLt
  clear henc
  have hc : fld word 26 6 = 18 := by simp only [fld]; omega
  have h0 : fld word 23 3 = 2 := by simp only [fld]; omega
  have f0 : BitVec.ofNat 1 (word / 4194304) = u := ofNat_field _ _ (by omega)
  have f1 : BitVec.ofNat 1 (word / 2097152) = t := ofNat_field _ _ (by omega)
  have f2 : BitVec.ofNat 7 (word / 16384) = d := ofNat_field _ _ (by omega)
  have f3 : BitVec.ofNat 7 (word / 128) = a := ofNat_field _ _ (by omega)
  have f4 : BitVec.ofNat 7 word = b := ofNat_field _ _ (by omega)
  refine ⟨by omega, ?_⟩
  simp [decodeWord, hc, decodeDot, h0, f0, f1, f2, f3, f4]

theorem RoundTrip.nqdec (s : BitVec 2) (t : BitVec 1) (d : BitVec 7) (a : BitVec 7) (b : BitVec 7) : RoundTrip.Statement (.nqdec s t d a b) := by
  intro word henc
  have hword : put (put (put (put (put 0x4C000000 24 s) 21 t) 14 d) 7 a) 0 b = word := Option.some.inj henc
  simp only [put] at hword
  have := s.isLt
  have := t.isLt
  have := d.isLt
  have := a.isLt
  have := b.isLt
  clear henc
  have hc : fld word 26 6 = 19 := by simp only [fld]; omega
  have h0 : fld word 22 2 = 0 := by simp only [fld]; omega
  have f0 : BitVec.ofNat 2 (word / 16777216) = s := ofNat_field _ _ (by omega)
  have f1 : BitVec.ofNat 1 (word / 2097152) = t := ofNat_field _ _ (by omega)
  have f2 : BitVec.ofNat 7 (word / 16384) = d := ofNat_field _ _ (by omega)
  have f3 : BitVec.ofNat 7 (word / 128) = a := ofNat_field _ _ (by omega)
  have f4 : BitVec.ofNat 7 word = b := ofNat_field _ _ (by omega)
  refine ⟨by omega, ?_⟩
  simp [decodeWord, hc, decodeNq, h0, f0, f1, f2, f3, f4]

theorem RoundTrip.nqdecf (s : BitVec 2) (t : BitVec 1) (d : BitVec 7) (a : BitVec 7) (b : BitVec 7) : RoundTrip.Statement (.nqdecf s t d a b) := by
  intro word henc
  have hword : put (put (put (put (put 0x4C400000 24 s) 21 t) 14 d) 7 a) 0 b = word := Option.some.inj henc
  simp only [put] at hword
  have := s.isLt
  have := t.isLt
  have := d.isLt
  have := a.isLt
  have := b.isLt
  clear henc
  have hc : fld word 26 6 = 19 := by simp only [fld]; omega
  have h0 : fld word 22 2 = 1 := by simp only [fld]; omega
  have f0 : BitVec.ofNat 2 (word / 16777216) = s := ofNat_field _ _ (by omega)
  have f1 : BitVec.ofNat 1 (word / 2097152) = t := ofNat_field _ _ (by omega)
  have f2 : BitVec.ofNat 7 (word / 16384) = d := ofNat_field _ _ (by omega)
  have f3 : BitVec.ofNat 7 (word / 128) = a := ofNat_field _ _ (by omega)
  have f4 : BitVec.ofNat 7 word = b := ofNat_field _ _ (by omega)
  refine ⟨by omega, ?_⟩
  simp [decodeWord, hc, decodeNq, h0, f0, f1, f2, f3, f4]

theorem RoundTrip.nqdot (s : BitVec 2) (t : BitVec 1) (d : BitVec 7) (a : BitVec 7) (b : BitVec 7) : RoundTrip.Statement (.nqdot s t d a b) := by
  intro word henc
  have hword : put (put (put (put (put 0x4C800000 24 s) 21 t) 14 d) 7 a) 0 b = word := Option.some.inj henc
  simp only [put] at hword
  have := s.isLt
  have := t.isLt
  have := d.isLt
  have := a.isLt
  have := b.isLt
  clear henc
  have hc : fld word 26 6 = 19 := by simp only [fld]; omega
  have h0 : fld word 22 2 = 2 := by simp only [fld]; omega
  have f0 : BitVec.ofNat 2 (word / 16777216) = s := ofNat_field _ _ (by omega)
  have f1 : BitVec.ofNat 1 (word / 2097152) = t := ofNat_field _ _ (by omega)
  have f2 : BitVec.ofNat 7 (word / 16384) = d := ofNat_field _ _ (by omega)
  have f3 : BitVec.ofNat 7 (word / 128) = a := ofNat_field _ _ (by omega)
  have f4 : BitVec.ofNat 7 word = b := ofNat_field _ _ (by omega)
  refine ⟨by omega, ?_⟩
  simp [decodeWord, hc, decodeNq, h0, f0, f1, f2, f3, f4]

theorem RoundTrip.ld (d : BitVec 7) (h : BitVec 4) (a : BitVec 7) (s : BitVec 3) : RoundTrip.Statement (.ld d h a s) := by
  intro word henc
  have hword : put (put (put (put 0x50000000 14 d) 10 h) 3 a) 0 s = word := Option.some.inj henc
  simp only [put] at hword
  have := d.isLt
  have := h.isLt
  have := a.isLt
  have := s.isLt
  clear henc
  have hc : fld word 26 6 = 20 := by simp only [fld]; omega
  have h0 : fld word 22 4 = 0 := by simp only [fld]; omega
  have h1 : fld word 21 1 = 0 := by simp only [fld]; omega
  have f0 : BitVec.ofNat 7 (word / 16384) = d := ofNat_field _ _ (by omega)
  have f1 : BitVec.ofNat 4 (word / 1024) = h := ofNat_field _ _ (by omega)
  have f2 : BitVec.ofNat 7 (word / 8) = a := ofNat_field _ _ (by omega)
  have f3 : BitVec.ofNat 3 word = s := ofNat_field _ _ (by omega)
  refine ⟨by omega, ?_⟩
  simp [decodeWord, hc, decodeLd, h0, h1, f0, f1, f2, f3]

theorem RoundTrip.lds (d : BitVec 7) (h : BitVec 4) (a : BitVec 7) (s : BitVec 3) : RoundTrip.Statement (.lds d h a s) := by
  intro word henc
  have hword : put (put (put (put 0x50400000 14 d) 10 h) 3 a) 0 s = word := Option.some.inj henc
  simp only [put] at hword
  have := d.isLt
  have := h.isLt
  have := a.isLt
  have := s.isLt
  clear henc
  have hc : fld word 26 6 = 20 := by simp only [fld]; omega
  have h0 : fld word 22 4 = 1 := by simp only [fld]; omega
  have h1 : fld word 21 1 = 0 := by simp only [fld]; omega
  have f0 : BitVec.ofNat 7 (word / 16384) = d := ofNat_field _ _ (by omega)
  have f1 : BitVec.ofNat 4 (word / 1024) = h := ofNat_field _ _ (by omega)
  have f2 : BitVec.ofNat 7 (word / 8) = a := ofNat_field _ _ (by omega)
  have f3 : BitVec.ofNat 3 word = s := ofNat_field _ _ (by omega)
  refine ⟨by omega, ?_⟩
  simp [decodeWord, hc, decodeLd, h0, h1, f0, f1, f2, f3]

theorem RoundTrip.lda (d : BitVec 7) (h : BitVec 4) (a : BitVec 7) (s : BitVec 3) : RoundTrip.Statement (.lda d h a s) := by
  intro word henc
  have hword : put (put (put (put 0x50800000 14 d) 10 h) 3 a) 0 s = word := Option.some.inj henc
  simp only [put] at hword
  have := d.isLt
  have := h.isLt
  have := a.isLt
  have := s.isLt
  clear henc
  have hc : fld word 26 6 = 20 := by simp only [fld]; omega
  have h0 : fld word 22 4 = 2 := by simp only [fld]; omega
  have h1 : fld word 21 1 = 0 := by simp only [fld]; omega
  have f0 : BitVec.ofNat 7 (word / 16384) = d := ofNat_field _ _ (by omega)
  have f1 : BitVec.ofNat 4 (word / 1024) = h := ofNat_field _ _ (by omega)
  have f2 : BitVec.ofNat 7 (word / 8) = a := ofNat_field _ _ (by omega)
  have f3 : BitVec.ofNat 3 word = s := ofNat_field _ _ (by omega)
  refine ⟨by omega, ?_⟩
  simp [decodeWord, hc, decodeLd, h0, h1, f0, f1, f2, f3]

theorem RoundTrip.st (s : BitVec 7) (h : BitVec 4) (a : BitVec 7) (c : BitVec 3) : RoundTrip.Statement (.st s h a c) := by
  intro word henc
  have hword : put (put (put (put 0x54000000 14 s) 10 h) 3 a) 0 c = word := Option.some.inj henc
  simp only [put] at hword
  have := s.isLt
  have := h.isLt
  have := a.isLt
  have := c.isLt
  clear henc
  have hc : fld word 26 6 = 21 := by simp only [fld]; omega
  have h0 : fld word 22 4 = 0 := by simp only [fld]; omega
  have h1 : fld word 21 1 = 0 := by simp only [fld]; omega
  have f0 : BitVec.ofNat 7 (word / 16384) = s := ofNat_field _ _ (by omega)
  have f1 : BitVec.ofNat 4 (word / 1024) = h := ofNat_field _ _ (by omega)
  have f2 : BitVec.ofNat 7 (word / 8) = a := ofNat_field _ _ (by omega)
  have f3 : BitVec.ofNat 3 word = c := ofNat_field _ _ (by omega)
  refine ⟨by omega, ?_⟩
  simp [decodeWord, hc, decodeSt, h0, h1, f0, f1, f2, f3]

theorem RoundTrip.strel (s : BitVec 7) (h : BitVec 4) (a : BitVec 7) (c : BitVec 3) : RoundTrip.Statement (.strel s h a c) := by
  intro word henc
  have hword : put (put (put (put 0x54400000 14 s) 10 h) 3 a) 0 c = word := Option.some.inj henc
  simp only [put] at hword
  have := s.isLt
  have := h.isLt
  have := a.isLt
  have := c.isLt
  clear henc
  have hc : fld word 26 6 = 21 := by simp only [fld]; omega
  have h0 : fld word 22 4 = 1 := by simp only [fld]; omega
  have h1 : fld word 21 1 = 0 := by simp only [fld]; omega
  have f0 : BitVec.ofNat 7 (word / 16384) = s := ofNat_field _ _ (by omega)
  have f1 : BitVec.ofNat 4 (word / 1024) = h := ofNat_field _ _ (by omega)
  have f2 : BitVec.ofNat 7 (word / 8) = a := ofNat_field _ _ (by omega)
  have f3 : BitVec.ofNat 3 word = c := ofNat_field _ _ (by omega)
  refine ⟨by omega, ?_⟩
  simp [decodeWord, hc, decodeSt, h0, h1, f0, f1, f2, f3]

theorem RoundTrip.aadd (r : BitVec 1) (d : BitVec 7) (h : BitVec 4) (a : BitVec 7) (s : BitVec 3) : RoundTrip.Statement (.aadd r d h a s) := by
  intro word henc
  have hword : put (put (put (put (put 0x58000000 21 r) 14 d) 10 h) 3 a) 0 s = word := Option.some.inj henc
  simp only [put] at hword
  have := r.isLt
  have := d.isLt
  have := h.isLt
  have := a.isLt
  have := s.isLt
  clear henc
  have hc : fld word 26 6 = 22 := by simp only [fld]; omega
  have h0 : fld word 22 4 = 0 := by simp only [fld]; omega
  have f0 : BitVec.ofNat 1 (word / 2097152) = r := ofNat_field _ _ (by omega)
  have f1 : BitVec.ofNat 7 (word / 16384) = d := ofNat_field _ _ (by omega)
  have f2 : BitVec.ofNat 4 (word / 1024) = h := ofNat_field _ _ (by omega)
  have f3 : BitVec.ofNat 7 (word / 8) = a := ofNat_field _ _ (by omega)
  have f4 : BitVec.ofNat 3 word = s := ofNat_field _ _ (by omega)
  refine ⟨by omega, ?_⟩
  simp [decodeWord, hc, decodeAtom, h0, f0, f1, f2, f3, f4]

theorem RoundTrip.afadd (r : BitVec 1) (d : BitVec 7) (h : BitVec 4) (a : BitVec 7) (s : BitVec 3) : RoundTrip.Statement (.afadd r d h a s) := by
  intro word henc
  have hword : put (put (put (put (put 0x58400000 21 r) 14 d) 10 h) 3 a) 0 s = word := Option.some.inj henc
  simp only [put] at hword
  have := r.isLt
  have := d.isLt
  have := h.isLt
  have := a.isLt
  have := s.isLt
  clear henc
  have hc : fld word 26 6 = 22 := by simp only [fld]; omega
  have h0 : fld word 22 4 = 1 := by simp only [fld]; omega
  have f0 : BitVec.ofNat 1 (word / 2097152) = r := ofNat_field _ _ (by omega)
  have f1 : BitVec.ofNat 7 (word / 16384) = d := ofNat_field _ _ (by omega)
  have f2 : BitVec.ofNat 4 (word / 1024) = h := ofNat_field _ _ (by omega)
  have f3 : BitVec.ofNat 7 (word / 8) = a := ofNat_field _ _ (by omega)
  have f4 : BitVec.ofNat 3 word = s := ofNat_field _ _ (by omega)
  refine ⟨by omega, ?_⟩
  simp [decodeWord, hc, decodeAtom, h0, f0, f1, f2, f3, f4]

theorem RoundTrip.amin (r : BitVec 1) (d : BitVec 7) (h : BitVec 4) (a : BitVec 7) (s : BitVec 3) : RoundTrip.Statement (.amin r d h a s) := by
  intro word henc
  have hword : put (put (put (put (put 0x58800000 21 r) 14 d) 10 h) 3 a) 0 s = word := Option.some.inj henc
  simp only [put] at hword
  have := r.isLt
  have := d.isLt
  have := h.isLt
  have := a.isLt
  have := s.isLt
  clear henc
  have hc : fld word 26 6 = 22 := by simp only [fld]; omega
  have h0 : fld word 22 4 = 2 := by simp only [fld]; omega
  have f0 : BitVec.ofNat 1 (word / 2097152) = r := ofNat_field _ _ (by omega)
  have f1 : BitVec.ofNat 7 (word / 16384) = d := ofNat_field _ _ (by omega)
  have f2 : BitVec.ofNat 4 (word / 1024) = h := ofNat_field _ _ (by omega)
  have f3 : BitVec.ofNat 7 (word / 8) = a := ofNat_field _ _ (by omega)
  have f4 : BitVec.ofNat 3 word = s := ofNat_field _ _ (by omega)
  refine ⟨by omega, ?_⟩
  simp [decodeWord, hc, decodeAtom, h0, f0, f1, f2, f3, f4]

theorem RoundTrip.amax (r : BitVec 1) (d : BitVec 7) (h : BitVec 4) (a : BitVec 7) (s : BitVec 3) : RoundTrip.Statement (.amax r d h a s) := by
  intro word henc
  have hword : put (put (put (put (put 0x58C00000 21 r) 14 d) 10 h) 3 a) 0 s = word := Option.some.inj henc
  simp only [put] at hword
  have := r.isLt
  have := d.isLt
  have := h.isLt
  have := a.isLt
  have := s.isLt
  clear henc
  have hc : fld word 26 6 = 22 := by simp only [fld]; omega
  have h0 : fld word 22 4 = 3 := by simp only [fld]; omega
  have f0 : BitVec.ofNat 1 (word / 2097152) = r := ofNat_field _ _ (by omega)
  have f1 : BitVec.ofNat 7 (word / 16384) = d := ofNat_field _ _ (by omega)
  have f2 : BitVec.ofNat 4 (word / 1024) = h := ofNat_field _ _ (by omega)
  have f3 : BitVec.ofNat 7 (word / 8) = a := ofNat_field _ _ (by omega)
  have f4 : BitVec.ofNat 3 word = s := ofNat_field _ _ (by omega)
  refine ⟨by omega, ?_⟩
  simp [decodeWord, hc, decodeAtom, h0, f0, f1, f2, f3, f4]

theorem RoundTrip.aminb (r : BitVec 1) (d : BitVec 7) (h : BitVec 4) (a : BitVec 7) (s : BitVec 3) : RoundTrip.Statement (.aminb r d h a s) := by
  intro word henc
  have hword : put (put (put (put (put 0x59000000 21 r) 14 d) 10 h) 3 a) 0 s = word := Option.some.inj henc
  simp only [put] at hword
  have := r.isLt
  have := d.isLt
  have := h.isLt
  have := a.isLt
  have := s.isLt
  clear henc
  have hc : fld word 26 6 = 22 := by simp only [fld]; omega
  have h0 : fld word 22 4 = 4 := by simp only [fld]; omega
  have f0 : BitVec.ofNat 1 (word / 2097152) = r := ofNat_field _ _ (by omega)
  have f1 : BitVec.ofNat 7 (word / 16384) = d := ofNat_field _ _ (by omega)
  have f2 : BitVec.ofNat 4 (word / 1024) = h := ofNat_field _ _ (by omega)
  have f3 : BitVec.ofNat 7 (word / 8) = a := ofNat_field _ _ (by omega)
  have f4 : BitVec.ofNat 3 word = s := ofNat_field _ _ (by omega)
  refine ⟨by omega, ?_⟩
  simp [decodeWord, hc, decodeAtom, h0, f0, f1, f2, f3, f4]

theorem RoundTrip.amaxb (r : BitVec 1) (d : BitVec 7) (h : BitVec 4) (a : BitVec 7) (s : BitVec 3) : RoundTrip.Statement (.amaxb r d h a s) := by
  intro word henc
  have hword : put (put (put (put (put 0x59400000 21 r) 14 d) 10 h) 3 a) 0 s = word := Option.some.inj henc
  simp only [put] at hword
  have := r.isLt
  have := d.isLt
  have := h.isLt
  have := a.isLt
  have := s.isLt
  clear henc
  have hc : fld word 26 6 = 22 := by simp only [fld]; omega
  have h0 : fld word 22 4 = 5 := by simp only [fld]; omega
  have f0 : BitVec.ofNat 1 (word / 2097152) = r := ofNat_field _ _ (by omega)
  have f1 : BitVec.ofNat 7 (word / 16384) = d := ofNat_field _ _ (by omega)
  have f2 : BitVec.ofNat 4 (word / 1024) = h := ofNat_field _ _ (by omega)
  have f3 : BitVec.ofNat 7 (word / 8) = a := ofNat_field _ _ (by omega)
  have f4 : BitVec.ofNat 3 word = s := ofNat_field _ _ (by omega)
  refine ⟨by omega, ?_⟩
  simp [decodeWord, hc, decodeAtom, h0, f0, f1, f2, f3, f4]

theorem RoundTrip.aand (r : BitVec 1) (d : BitVec 7) (h : BitVec 4) (a : BitVec 7) (s : BitVec 3) : RoundTrip.Statement (.aand r d h a s) := by
  intro word henc
  have hword : put (put (put (put (put 0x59800000 21 r) 14 d) 10 h) 3 a) 0 s = word := Option.some.inj henc
  simp only [put] at hword
  have := r.isLt
  have := d.isLt
  have := h.isLt
  have := a.isLt
  have := s.isLt
  clear henc
  have hc : fld word 26 6 = 22 := by simp only [fld]; omega
  have h0 : fld word 22 4 = 6 := by simp only [fld]; omega
  have f0 : BitVec.ofNat 1 (word / 2097152) = r := ofNat_field _ _ (by omega)
  have f1 : BitVec.ofNat 7 (word / 16384) = d := ofNat_field _ _ (by omega)
  have f2 : BitVec.ofNat 4 (word / 1024) = h := ofNat_field _ _ (by omega)
  have f3 : BitVec.ofNat 7 (word / 8) = a := ofNat_field _ _ (by omega)
  have f4 : BitVec.ofNat 3 word = s := ofNat_field _ _ (by omega)
  refine ⟨by omega, ?_⟩
  simp [decodeWord, hc, decodeAtom, h0, f0, f1, f2, f3, f4]

theorem RoundTrip.aor (r : BitVec 1) (d : BitVec 7) (h : BitVec 4) (a : BitVec 7) (s : BitVec 3) : RoundTrip.Statement (.aor r d h a s) := by
  intro word henc
  have hword : put (put (put (put (put 0x59C00000 21 r) 14 d) 10 h) 3 a) 0 s = word := Option.some.inj henc
  simp only [put] at hword
  have := r.isLt
  have := d.isLt
  have := h.isLt
  have := a.isLt
  have := s.isLt
  clear henc
  have hc : fld word 26 6 = 22 := by simp only [fld]; omega
  have h0 : fld word 22 4 = 7 := by simp only [fld]; omega
  have f0 : BitVec.ofNat 1 (word / 2097152) = r := ofNat_field _ _ (by omega)
  have f1 : BitVec.ofNat 7 (word / 16384) = d := ofNat_field _ _ (by omega)
  have f2 : BitVec.ofNat 4 (word / 1024) = h := ofNat_field _ _ (by omega)
  have f3 : BitVec.ofNat 7 (word / 8) = a := ofNat_field _ _ (by omega)
  have f4 : BitVec.ofNat 3 word = s := ofNat_field _ _ (by omega)
  refine ⟨by omega, ?_⟩
  simp [decodeWord, hc, decodeAtom, h0, f0, f1, f2, f3, f4]

theorem RoundTrip.axor (r : BitVec 1) (d : BitVec 7) (h : BitVec 4) (a : BitVec 7) (s : BitVec 3) : RoundTrip.Statement (.axor r d h a s) := by
  intro word henc
  have hword : put (put (put (put (put 0x5A000000 21 r) 14 d) 10 h) 3 a) 0 s = word := Option.some.inj henc
  simp only [put] at hword
  have := r.isLt
  have := d.isLt
  have := h.isLt
  have := a.isLt
  have := s.isLt
  clear henc
  have hc : fld word 26 6 = 22 := by simp only [fld]; omega
  have h0 : fld word 22 4 = 8 := by simp only [fld]; omega
  have f0 : BitVec.ofNat 1 (word / 2097152) = r := ofNat_field _ _ (by omega)
  have f1 : BitVec.ofNat 7 (word / 16384) = d := ofNat_field _ _ (by omega)
  have f2 : BitVec.ofNat 4 (word / 1024) = h := ofNat_field _ _ (by omega)
  have f3 : BitVec.ofNat 7 (word / 8) = a := ofNat_field _ _ (by omega)
  have f4 : BitVec.ofNat 3 word = s := ofNat_field _ _ (by omega)
  refine ⟨by omega, ?_⟩
  simp [decodeWord, hc, decodeAtom, h0, f0, f1, f2, f3, f4]

theorem RoundTrip.axch (r : BitVec 1) (d : BitVec 7) (h : BitVec 4) (a : BitVec 7) (s : BitVec 3) : RoundTrip.Statement (.axch r d h a s) := by
  intro word henc
  have hword : put (put (put (put (put 0x5A400000 21 r) 14 d) 10 h) 3 a) 0 s = word := Option.some.inj henc
  simp only [put] at hword
  have := r.isLt
  have := d.isLt
  have := h.isLt
  have := a.isLt
  have := s.isLt
  clear henc
  have hc : fld word 26 6 = 22 := by simp only [fld]; omega
  have h0 : fld word 22 4 = 9 := by simp only [fld]; omega
  have f0 : BitVec.ofNat 1 (word / 2097152) = r := ofNat_field _ _ (by omega)
  have f1 : BitVec.ofNat 7 (word / 16384) = d := ofNat_field _ _ (by omega)
  have f2 : BitVec.ofNat 4 (word / 1024) = h := ofNat_field _ _ (by omega)
  have f3 : BitVec.ofNat 7 (word / 8) = a := ofNat_field _ _ (by omega)
  have f4 : BitVec.ofNat 3 word = s := ofNat_field _ _ (by omega)
  refine ⟨by omega, ?_⟩
  simp [decodeWord, hc, decodeAtom, h0, f0, f1, f2, f3, f4]

theorem RoundTrip.acas (r : BitVec 1) (d : BitVec 7) (h : BitVec 4) (a : BitVec 7) (s : BitVec 3) : RoundTrip.Statement (.acas r d h a s) := by
  intro word henc
  have hword : put (put (put (put (put 0x5A800000 21 r) 14 d) 10 h) 3 a) 0 s = word := Option.some.inj henc
  simp only [put] at hword
  have := r.isLt
  have := d.isLt
  have := h.isLt
  have := a.isLt
  have := s.isLt
  clear henc
  have hc : fld word 26 6 = 22 := by simp only [fld]; omega
  have h0 : fld word 22 4 = 10 := by simp only [fld]; omega
  have f0 : BitVec.ofNat 1 (word / 2097152) = r := ofNat_field _ _ (by omega)
  have f1 : BitVec.ofNat 7 (word / 16384) = d := ofNat_field _ _ (by omega)
  have f2 : BitVec.ofNat 4 (word / 1024) = h := ofNat_field _ _ (by omega)
  have f3 : BitVec.ofNat 7 (word / 8) = a := ofNat_field _ _ (by omega)
  have f4 : BitVec.ofNat 3 word = s := ofNat_field _ _ (by omega)
  refine ⟨by omega, ?_⟩
  simp [decodeWord, hc, decodeAtom, h0, f0, f1, f2, f3, f4]

theorem RoundTrip.ainc (r : BitVec 1) (d : BitVec 7) (h : BitVec 4) (a : BitVec 7) (s : BitVec 3) : RoundTrip.Statement (.ainc r d h a s) := by
  intro word henc
  have hword : put (put (put (put (put 0x5AC00000 21 r) 14 d) 10 h) 3 a) 0 s = word := Option.some.inj henc
  simp only [put] at hword
  have := r.isLt
  have := d.isLt
  have := h.isLt
  have := a.isLt
  have := s.isLt
  clear henc
  have hc : fld word 26 6 = 22 := by simp only [fld]; omega
  have h0 : fld word 22 4 = 11 := by simp only [fld]; omega
  have f0 : BitVec.ofNat 1 (word / 2097152) = r := ofNat_field _ _ (by omega)
  have f1 : BitVec.ofNat 7 (word / 16384) = d := ofNat_field _ _ (by omega)
  have f2 : BitVec.ofNat 4 (word / 1024) = h := ofNat_field _ _ (by omega)
  have f3 : BitVec.ofNat 7 (word / 8) = a := ofNat_field _ _ (by omega)
  have f4 : BitVec.ofNat 3 word = s := ofNat_field _ _ (by omega)
  refine ⟨by omega, ?_⟩
  simp [decodeWord, hc, decodeAtom, h0, f0, f1, f2, f3, f4]

theorem RoundTrip.hld (g : BitVec 4) (h : BitVec 4) (a : BitVec 7) (e : BitVec 1) (k : BitVec 3) : RoundTrip.Statement (.hld g h a e k) := by
  intro word henc
  have hword : put (put (put (put (put 0x5C000000 18 g) 11 h) 4 a) 3 e) 0 k = word := Option.some.inj henc
  simp only [put] at hword
  have := g.isLt
  have := h.isLt
  have := a.isLt
  have := e.isLt
  have := k.isLt
  clear henc
  have hc : fld word 26 6 = 23 := by simp only [fld]; omega
  have h0 : fld word 22 4 = 0 := by simp only [fld]; omega
  have h1 : fld word 15 3 = 0 := by simp only [fld]; omega
  have f0 : BitVec.ofNat 4 (word / 262144) = g := ofNat_field _ _ (by omega)
  have f1 : BitVec.ofNat 4 (word / 2048) = h := ofNat_field _ _ (by omega)
  have f2 : BitVec.ofNat 7 (word / 16) = a := ofNat_field _ _ (by omega)
  have f3 : BitVec.ofNat 1 (word / 8) = e := ofNat_field _ _ (by omega)
  have f4 : BitVec.ofNat 3 word = k := ofNat_field _ _ (by omega)
  refine ⟨by omega, ?_⟩
  simp [decodeWord, hc, decodeHnd, h0, h1, f0, f1, f2, f3, f4]

theorem RoundTrip.hset (g : BitVec 4) (h : BitVec 4) (a : BitVec 7) (e : BitVec 1) (k : BitVec 3) : RoundTrip.Statement (.hset g h a e k) := by
  intro word henc
  have hword : put (put (put (put (put 0x5C400000 18 g) 11 h) 4 a) 3 e) 0 k = word := Option.some.inj henc
  simp only [put] at hword
  have := g.isLt
  have := h.isLt
  have := a.isLt
  have := e.isLt
  have := k.isLt
  clear henc
  have hc : fld word 26 6 = 23 := by simp only [fld]; omega
  have h0 : fld word 22 4 = 1 := by simp only [fld]; omega
  have h1 : fld word 15 3 = 0 := by simp only [fld]; omega
  have f0 : BitVec.ofNat 4 (word / 262144) = g := ofNat_field _ _ (by omega)
  have f1 : BitVec.ofNat 4 (word / 2048) = h := ofNat_field _ _ (by omega)
  have f2 : BitVec.ofNat 7 (word / 16) = a := ofNat_field _ _ (by omega)
  have f3 : BitVec.ofNat 1 (word / 8) = e := ofNat_field _ _ (by omega)
  have f4 : BitVec.ofNat 3 word = k := ofNat_field _ _ (by omega)
  refine ⟨by omega, ?_⟩
  simp [decodeWord, hc, decodeHnd, h0, h1, f0, f1, f2, f3, f4]

theorem RoundTrip.hrd (g : BitVec 4) (d : BitVec 7) (h : BitVec 4) (e : BitVec 1) (k : BitVec 3) : RoundTrip.Statement (.hrd g d h e k) := by
  intro word henc
  have hword : put (put (put (put (put 0x5C800000 18 g) 11 d) 4 h) 3 e) 0 k = word := Option.some.inj henc
  simp only [put] at hword
  have := g.isLt
  have := d.isLt
  have := h.isLt
  have := e.isLt
  have := k.isLt
  clear henc
  have hc : fld word 26 6 = 23 := by simp only [fld]; omega
  have h0 : fld word 22 4 = 2 := by simp only [fld]; omega
  have h1 : fld word 8 3 = 0 := by simp only [fld]; omega
  have f0 : BitVec.ofNat 4 (word / 262144) = g := ofNat_field _ _ (by omega)
  have f1 : BitVec.ofNat 7 (word / 2048) = d := ofNat_field _ _ (by omega)
  have f2 : BitVec.ofNat 4 (word / 16) = h := ofNat_field _ _ (by omega)
  have f3 : BitVec.ofNat 1 (word / 8) = e := ofNat_field _ _ (by omega)
  have f4 : BitVec.ofNat 3 word = k := ofNat_field _ _ (by omega)
  refine ⟨by omega, ?_⟩
  simp [decodeWord, hc, decodeHnd, h0, h1, f0, f1, f2, f3, f4]

theorem RoundTrip.hcpy (g : BitVec 4) (d : BitVec 4) (a : BitVec 4) (e : BitVec 1) (k : BitVec 3) : RoundTrip.Statement (.hcpy g d a e k) := by
  intro word henc
  have hword : put (put (put (put (put 0x5CC00000 18 g) 11 d) 4 a) 3 e) 0 k = word := Option.some.inj henc
  simp only [put] at hword
  have := g.isLt
  have := d.isLt
  have := a.isLt
  have := e.isLt
  have := k.isLt
  clear henc
  have hc : fld word 26 6 = 23 := by simp only [fld]; omega
  have h0 : fld word 22 4 = 3 := by simp only [fld]; omega
  have h1 : fld word 8 3 = 0 := by simp only [fld]; omega
  have h2 : fld word 15 3 = 0 := by simp only [fld]; omega
  have f0 : BitVec.ofNat 4 (word / 262144) = g := ofNat_field _ _ (by omega)
  have f1 : BitVec.ofNat 4 (word / 2048) = d := ofNat_field _ _ (by omega)
  have f2 : BitVec.ofNat 4 (word / 16) = a := ofNat_field _ _ (by omega)
  have f3 : BitVec.ofNat 1 (word / 8) = e := ofNat_field _ _ (by omega)
  have f4 : BitVec.ofNat 3 word = k := ofNat_field _ _ (by omega)
  refine ⟨by omega, ?_⟩
  simp [decodeWord, hc, decodeHnd, h0, h1, h2, f0, f1, f2, f3, f4]

theorem RoundTrip.fenceAcq (s : BitVec 3) : RoundTrip.Statement (.fenceAcq s) := by
  intro word henc
  have hword : put 0x60000000 0 s = word := Option.some.inj henc
  simp only [put] at hword
  have := s.isLt
  clear henc
  have hc : fld word 26 6 = 24 := by simp only [fld]; omega
  have h0 : fld word 22 4 = 0 := by simp only [fld]; omega
  have h1 : fld word 3 19 = 0 := by simp only [fld]; omega
  have f0 : BitVec.ofNat 3 word = s := ofNat_field _ _ (by omega)
  refine ⟨by omega, ?_⟩
  simp [decodeWord, hc, decodeFence, h0, h1, f0]

theorem RoundTrip.fenceRel (s : BitVec 3) : RoundTrip.Statement (.fenceRel s) := by
  intro word henc
  have hword : put 0x60400000 0 s = word := Option.some.inj henc
  simp only [put] at hword
  have := s.isLt
  clear henc
  have hc : fld word 26 6 = 24 := by simp only [fld]; omega
  have h0 : fld word 22 4 = 1 := by simp only [fld]; omega
  have h1 : fld word 3 19 = 0 := by simp only [fld]; omega
  have f0 : BitVec.ofNat 3 word = s := ofNat_field _ _ (by omega)
  refine ⟨by omega, ?_⟩
  simp [decodeWord, hc, decodeFence, h0, h1, f0]

theorem RoundTrip.fenceAr (s : BitVec 3) : RoundTrip.Statement (.fenceAr s) := by
  intro word henc
  have hword : put 0x60800000 0 s = word := Option.some.inj henc
  simp only [put] at hword
  have := s.isLt
  clear henc
  have hc : fld word 26 6 = 24 := by simp only [fld]; omega
  have h0 : fld word 22 4 = 2 := by simp only [fld]; omega
  have h1 : fld word 3 19 = 0 := by simp only [fld]; omega
  have f0 : BitVec.ofNat 3 word = s := ofNat_field _ _ (by omega)
  refine ⟨by omega, ?_⟩
  simp [decodeWord, hc, decodeFence, h0, h1, f0]

theorem RoundTrip.fenceSc (s : BitVec 3) : RoundTrip.Statement (.fenceSc s) := by
  intro word henc
  have hword : put 0x60C00000 0 s = word := Option.some.inj henc
  simp only [put] at hword
  have := s.isLt
  clear henc
  have hc : fld word 26 6 = 24 := by simp only [fld]; omega
  have h0 : fld word 22 4 = 3 := by simp only [fld]; omega
  have h1 : fld word 3 19 = 0 := by simp only [fld]; omega
  have f0 : BitVec.ofNat 3 word = s := ofNat_field _ _ (by omega)
  refine ⟨by omega, ?_⟩
  simp [decodeWord, hc, decodeFence, h0, h1, f0]

theorem RoundTrip.cwb (h : BitVec 4) (a : BitVec 7) (s : BitVec 3) : RoundTrip.Statement (.cwb h a s) := by
  intro word henc
  have hword : put (put (put 0x61000000 10 h) 3 a) 0 s = word := Option.some.inj henc
  simp only [put] at hword
  have := h.isLt
  have := a.isLt
  have := s.isLt
  clear henc
  have hc : fld word 26 6 = 24 := by simp only [fld]; omega
  have h0 : fld word 22 4 = 4 := by simp only [fld]; omega
  have h1 : fld word 14 8 = 0 := by simp only [fld]; omega
  have f0 : BitVec.ofNat 4 (word / 1024) = h := ofNat_field _ _ (by omega)
  have f1 : BitVec.ofNat 7 (word / 8) = a := ofNat_field _ _ (by omega)
  have f2 : BitVec.ofNat 3 word = s := ofNat_field _ _ (by omega)
  refine ⟨by omega, ?_⟩
  simp [decodeWord, hc, decodeFence, h0, h1, f0, f1, f2]

theorem RoundTrip.cinv (h : BitVec 4) (a : BitVec 7) (s : BitVec 3) : RoundTrip.Statement (.cinv h a s) := by
  intro word henc
  have hword : put (put (put 0x61400000 10 h) 3 a) 0 s = word := Option.some.inj henc
  simp only [put] at hword
  have := h.isLt
  have := a.isLt
  have := s.isLt
  clear henc
  have hc : fld word 26 6 = 24 := by simp only [fld]; omega
  have h0 : fld word 22 4 = 5 := by simp only [fld]; omega
  have h1 : fld word 14 8 = 0 := by simp only [fld]; omega
  have f0 : BitVec.ofNat 4 (word / 1024) = h := ofNat_field _ _ (by omega)
  have f1 : BitVec.ofNat 7 (word / 8) = a := ofNat_field _ _ (by omega)
  have f2 : BitVec.ofNat 3 word = s := ofNat_field _ _ (by omega)
  refine ⟨by omega, ?_⟩
  simp [decodeWord, hc, decodeFence, h0, h1, f0, f1, f2]

theorem RoundTrip.pref (h : BitVec 4) (a : BitVec 7) (s : BitVec 3) : RoundTrip.Statement (.pref h a s) := by
  intro word henc
  have hword : put (put (put 0x61800000 10 h) 3 a) 0 s = word := Option.some.inj henc
  simp only [put] at hword
  have := h.isLt
  have := a.isLt
  have := s.isLt
  clear henc
  have hc : fld word 26 6 = 24 := by simp only [fld]; omega
  have h0 : fld word 22 4 = 6 := by simp only [fld]; omega
  have h1 : fld word 14 8 = 0 := by simp only [fld]; omega
  have f0 : BitVec.ofNat 4 (word / 1024) = h := ofNat_field _ _ (by omega)
  have f1 : BitVec.ofNat 7 (word / 8) = a := ofNat_field _ _ (by omega)
  have f2 : BitVec.ofNat 3 word = s := ofNat_field _ _ (by omega)
  refine ⟨by omega, ?_⟩
  simp [decodeWord, hc, decodeFence, h0, h1, f0, f1, f2]

theorem RoundTrip.waitline (d : BitVec 7) (h : BitVec 4) (a : BitVec 7) (s : BitVec 3) : RoundTrip.Statement (.waitline d h a s) := by
  intro word henc
  have hword : put (put (put (put 0x61C00000 14 d) 10 h) 3 a) 0 s = word := Option.some.inj henc
  simp only [put] at hword
  have := d.isLt
  have := h.isLt
  have := a.isLt
  have := s.isLt
  clear henc
  have hc : fld word 26 6 = 24 := by simp only [fld]; omega
  have h0 : fld word 22 4 = 7 := by simp only [fld]; omega
  have h1 : fld word 21 1 = 0 := by simp only [fld]; omega
  have f0 : BitVec.ofNat 7 (word / 16384) = d := ofNat_field _ _ (by omega)
  have f1 : BitVec.ofNat 4 (word / 1024) = h := ofNat_field _ _ (by omega)
  have f2 : BitVec.ofNat 7 (word / 8) = a := ofNat_field _ _ (by omega)
  have f3 : BitVec.ofNat 3 word = s := ofNat_field _ _ (by omega)
  refine ⟨by omega, ?_⟩
  simp [decodeWord, hc, decodeFence, h0, h1, f0, f1, f2, f3]

theorem RoundTrip.nx (o : BitVec 18) : RoundTrip.Statement (.nx o) := by
  intro word henc
  have hword : put 0x64000000 0 o = word := Option.some.inj henc
  simp only [put] at hword
  have := o.isLt
  clear henc
  have hc : fld word 26 6 = 25 := by simp only [fld]; omega
  have h0 : fld word 22 4 = 0 := by simp only [fld]; omega
  have h1 : fld word 18 4 = 0 := by simp only [fld]; omega
  have f0 : BitVec.ofNat 18 word = o := ofNat_field _ _ (by omega)
  refine ⟨by omega, ?_⟩
  simp [decodeWord, hc, decodeCtrl, h0, h1, f0]

theorem RoundTrip.nxc (n : BitVec 1) (p : BitVec 3) (o : BitVec 18) : RoundTrip.Statement (.nxc n p o) := by
  intro word henc
  have hword : put (put (put 0x64400000 21 n) 18 p) 0 o = word := Option.some.inj henc
  simp only [put] at hword
  have := n.isLt
  have := p.isLt
  have := o.isLt
  clear henc
  have hc : fld word 26 6 = 25 := by simp only [fld]; omega
  have h0 : fld word 22 4 = 1 := by simp only [fld]; omega
  have f0 : BitVec.ofNat 1 (word / 2097152) = n := ofNat_field _ _ (by omega)
  have f1 : BitVec.ofNat 3 (word / 262144) = p := ofNat_field _ _ (by omega)
  have f2 : BitVec.ofNat 18 word = o := ofNat_field _ _ (by omega)
  refine ⟨by omega, ?_⟩
  simp [decodeWord, hc, decodeCtrl, h0, f0, f1, f2]

theorem RoundTrip.nxi (a : BitVec 7) : RoundTrip.Statement (.nxi a) := by
  intro word henc
  have hword : put 0x64800000 0 a = word := Option.some.inj henc
  simp only [put] at hword
  have := a.isLt
  clear henc
  have hc : fld word 26 6 = 25 := by simp only [fld]; omega
  have h0 : fld word 22 4 = 2 := by simp only [fld]; omega
  have h1 : fld word 7 15 = 0 := by simp only [fld]; omega
  have f0 : BitVec.ofNat 7 word = a := ofNat_field _ _ (by omega)
  refine ⟨by omega, ?_⟩
  simp [decodeWord, hc, decodeCtrl, h0, h1, f0]

theorem RoundTrip.call (l : BitVec 4) (o : BitVec 18) : RoundTrip.Statement (.call l o) := by
  intro word henc
  have hword : put (put 0x64C00000 18 l) 0 o = word := Option.some.inj henc
  simp only [put] at hword
  have := l.isLt
  have := o.isLt
  clear henc
  have hc : fld word 26 6 = 25 := by simp only [fld]; omega
  have h0 : fld word 22 4 = 3 := by simp only [fld]; omega
  have f0 : BitVec.ofNat 4 (word / 262144) = l := ofNat_field _ _ (by omega)
  have f1 : BitVec.ofNat 18 word = o := ofNat_field _ _ (by omega)
  refine ⟨by omega, ?_⟩
  simp [decodeWord, hc, decodeCtrl, h0, f0, f1]

theorem RoundTrip.calli (l : BitVec 4) (a : BitVec 7) : RoundTrip.Statement (.calli l a) := by
  intro word henc
  have hword : put (put 0x65000000 18 l) 0 a = word := Option.some.inj henc
  simp only [put] at hword
  have := l.isLt
  have := a.isLt
  clear henc
  have hc : fld word 26 6 = 25 := by simp only [fld]; omega
  have h0 : fld word 22 4 = 4 := by simp only [fld]; omega
  have h1 : fld word 7 11 = 0 := by simp only [fld]; omega
  have f0 : BitVec.ofNat 4 (word / 262144) = l := ofNat_field _ _ (by omega)
  have f1 : BitVec.ofNat 7 word = a := ofNat_field _ _ (by omega)
  refine ⟨by omega, ?_⟩
  simp [decodeWord, hc, decodeCtrl, h0, h1, f0, f1]

theorem RoundTrip.ret (a : BitVec 7) : RoundTrip.Statement (.ret a) := by
  intro word henc
  have hword : put 0x65400000 0 a = word := Option.some.inj henc
  simp only [put] at hword
  have := a.isLt
  clear henc
  have hc : fld word 26 6 = 25 := by simp only [fld]; omega
  have h0 : fld word 22 4 = 5 := by simp only [fld]; omega
  have h1 : fld word 7 15 = 0 := by simp only [fld]; omega
  have f0 : BitVec.ofNat 7 word = a := ofNat_field _ _ (by omega)
  refine ⟨by omega, ?_⟩
  simp [decodeWord, hc, decodeCtrl, h0, h1, f0]

theorem RoundTrip.exit : RoundTrip.Statement .exit := by
  intro word henc
  have hword : 0x65800000 = word := Option.some.inj henc
  clear henc
  have hc : fld word 26 6 = 25 := by simp only [fld]; omega
  have h0 : fld word 22 4 = 6 := by simp only [fld]; omega
  have h1 : fld word 0 22 = 0 := by simp only [fld]; omega
  refine ⟨by omega, ?_⟩
  simp [decodeWord, hc, decodeCtrl, h0, h1]

theorem RoundTrip.yield : RoundTrip.Statement .yield := by
  intro word henc
  have hword : 0x65C00000 = word := Option.some.inj henc
  clear henc
  have hc : fld word 26 6 = 25 := by simp only [fld]; omega
  have h0 : fld word 22 4 = 7 := by simp only [fld]; omega
  have h1 : fld word 0 22 = 0 := by simp only [fld]; omega
  refine ⟨by omega, ?_⟩
  simp [decodeWord, hc, decodeCtrl, h0, h1]

theorem RoundTrip.refill (o : BitVec 18) : RoundTrip.Statement (.refill o) := by
  intro word henc
  have hword : put 0x66000000 0 o = word := Option.some.inj henc
  simp only [put] at hword
  have := o.isLt
  clear henc
  have hc : fld word 26 6 = 25 := by simp only [fld]; omega
  have h0 : fld word 22 4 = 8 := by simp only [fld]; omega
  have h1 : fld word 18 4 = 0 := by simp only [fld]; omega
  have f0 : BitVec.ofNat 18 word = o := ofNat_field _ _ (by omega)
  refine ⟨by omega, ?_⟩
  simp [decodeWord, hc, decodeCtrl, h0, h1, f0]

theorem RoundTrip.region : RoundTrip.Statement .region := by
  intro word henc
  have hword : 0x66400000 = word := Option.some.inj henc
  clear henc
  have hc : fld word 26 6 = 25 := by simp only [fld]; omega
  have h0 : fld word 22 4 = 9 := by simp only [fld]; omega
  have h1 : fld word 0 22 = 0 := by simp only [fld]; omega
  refine ⟨by omega, ?_⟩
  simp [decodeWord, hc, decodeCtrl, h0, h1]

theorem RoundTrip.trap (c : BitVec 8) : RoundTrip.Statement (.trap c) := by
  intro word henc
  have hword : put 0x66800000 0 c = word := Option.some.inj henc
  simp only [put] at hword
  have := c.isLt
  clear henc
  have hc : fld word 26 6 = 25 := by simp only [fld]; omega
  have h0 : fld word 22 4 = 10 := by simp only [fld]; omega
  have h1 : fld word 8 14 = 0 := by simp only [fld]; omega
  have f0 : BitVec.ofNat 8 word = c := ofNat_field _ _ (by omega)
  refine ⟨by omega, ?_⟩
  simp [decodeWord, hc, decodeCtrl, h0, h1, f0]

theorem RoundTrip.brk (c : BitVec 8) : RoundTrip.Statement (.brk c) := by
  intro word henc
  have hword : put 0x66C00000 0 c = word := Option.some.inj henc
  simp only [put] at hword
  have := c.isLt
  clear henc
  have hc : fld word 26 6 = 25 := by simp only [fld]; omega
  have h0 : fld word 22 4 = 11 := by simp only [fld]; omega
  have h1 : fld word 8 14 = 0 := by simp only [fld]; omega
  have f0 : BitVec.ofNat 8 word = c := ofNat_field _ _ (by omega)
  refine ⟨by omega, ?_⟩
  simp [decodeWord, hc, decodeCtrl, h0, h1, f0]

theorem RoundTrip.meet (g : BitVec 4) (e : BitVec 1) (k : BitVec 3) : RoundTrip.Statement (.meet g e k) := by
  intro word henc
  have hword : put (put (put 0x68000000 18 g) 3 e) 0 k = word := Option.some.inj henc
  simp only [put] at hword
  have := g.isLt
  have := e.isLt
  have := k.isLt
  clear henc
  have hc : fld word 26 6 = 26 := by simp only [fld]; omega
  have h0 : fld word 22 4 = 0 := by simp only [fld]; omega
  have h1 : fld word 4 14 = 0 := by simp only [fld]; omega
  have f0 : BitVec.ofNat 4 (word / 262144) = g := ofNat_field _ _ (by omega)
  have f1 : BitVec.ofNat 1 (word / 8) = e := ofNat_field _ _ (by omega)
  have f2 : BitVec.ofNat 3 word = k := ofNat_field _ _ (by omega)
  refine ⟨by omega, ?_⟩
  simp [decodeWord, hc, decodeGrp, h0, h1, f0, f1, f2]

theorem RoundTrip.gvoteAny (g : BitVec 4) (d : BitVec 3) (a : BitVec 3) (e : BitVec 1) (k : BitVec 3) : RoundTrip.Statement (.gvoteAny g d a e k) := by
  intro word henc
  have hword : put (put (put (put (put 0x68400000 18 g) 11 d) 4 a) 3 e) 0 k = word := Option.some.inj henc
  simp only [put] at hword
  have := g.isLt
  have := d.isLt
  have := a.isLt
  have := e.isLt
  have := k.isLt
  clear henc
  have hc : fld word 26 6 = 26 := by simp only [fld]; omega
  have h0 : fld word 22 4 = 1 := by simp only [fld]; omega
  have h1 : fld word 7 4 = 0 := by simp only [fld]; omega
  have h2 : fld word 14 4 = 0 := by simp only [fld]; omega
  have f0 : BitVec.ofNat 4 (word / 262144) = g := ofNat_field _ _ (by omega)
  have f1 : BitVec.ofNat 3 (word / 2048) = d := ofNat_field _ _ (by omega)
  have f2 : BitVec.ofNat 3 (word / 16) = a := ofNat_field _ _ (by omega)
  have f3 : BitVec.ofNat 1 (word / 8) = e := ofNat_field _ _ (by omega)
  have f4 : BitVec.ofNat 3 word = k := ofNat_field _ _ (by omega)
  refine ⟨by omega, ?_⟩
  simp [decodeWord, hc, decodeGrp, h0, h1, h2, f0, f1, f2, f3, f4]

theorem RoundTrip.gvoteAll (g : BitVec 4) (d : BitVec 3) (a : BitVec 3) (e : BitVec 1) (k : BitVec 3) : RoundTrip.Statement (.gvoteAll g d a e k) := by
  intro word henc
  have hword : put (put (put (put (put 0x68800000 18 g) 11 d) 4 a) 3 e) 0 k = word := Option.some.inj henc
  simp only [put] at hword
  have := g.isLt
  have := d.isLt
  have := a.isLt
  have := e.isLt
  have := k.isLt
  clear henc
  have hc : fld word 26 6 = 26 := by simp only [fld]; omega
  have h0 : fld word 22 4 = 2 := by simp only [fld]; omega
  have h1 : fld word 7 4 = 0 := by simp only [fld]; omega
  have h2 : fld word 14 4 = 0 := by simp only [fld]; omega
  have f0 : BitVec.ofNat 4 (word / 262144) = g := ofNat_field _ _ (by omega)
  have f1 : BitVec.ofNat 3 (word / 2048) = d := ofNat_field _ _ (by omega)
  have f2 : BitVec.ofNat 3 (word / 16) = a := ofNat_field _ _ (by omega)
  have f3 : BitVec.ofNat 1 (word / 8) = e := ofNat_field _ _ (by omega)
  have f4 : BitVec.ofNat 3 word = k := ofNat_field _ _ (by omega)
  refine ⟨by omega, ?_⟩
  simp [decodeWord, hc, decodeGrp, h0, h1, h2, f0, f1, f2, f3, f4]

theorem RoundTrip.gvoteBallot (g : BitVec 4) (d : BitVec 3) (a : BitVec 3) (e : BitVec 1) (k : BitVec 3) : RoundTrip.Statement (.gvoteBallot g d a e k) := by
  intro word henc
  have hword : put (put (put (put (put 0x68C00000 18 g) 11 d) 4 a) 3 e) 0 k = word := Option.some.inj henc
  simp only [put] at hword
  have := g.isLt
  have := d.isLt
  have := a.isLt
  have := e.isLt
  have := k.isLt
  clear henc
  have hc : fld word 26 6 = 26 := by simp only [fld]; omega
  have h0 : fld word 22 4 = 3 := by simp only [fld]; omega
  have h1 : fld word 7 4 = 0 := by simp only [fld]; omega
  have h2 : fld word 14 4 = 0 := by simp only [fld]; omega
  have f0 : BitVec.ofNat 4 (word / 262144) = g := ofNat_field _ _ (by omega)
  have f1 : BitVec.ofNat 3 (word / 2048) = d := ofNat_field _ _ (by omega)
  have f2 : BitVec.ofNat 3 (word / 16) = a := ofNat_field _ _ (by omega)
  have f3 : BitVec.ofNat 1 (word / 8) = e := ofNat_field _ _ (by omega)
  have f4 : BitVec.ofNat 3 word = k := ofNat_field _ _ (by omega)
  refine ⟨by omega, ?_⟩
  simp [decodeWord, hc, decodeGrp, h0, h1, h2, f0, f1, f2, f3, f4]

theorem RoundTrip.gbcast (g : BitVec 4) (d : BitVec 4) (a : BitVec 7) (e : BitVec 1) (k : BitVec 3) : RoundTrip.Statement (.gbcast g d a e k) := by
  intro word henc
  have hword : put (put (put (put (put 0x69000000 18 g) 11 d) 4 a) 3 e) 0 k = word := Option.some.inj henc
  simp only [put] at hword
  have := g.isLt
  have := d.isLt
  have := a.isLt
  have := e.isLt
  have := k.isLt
  clear henc
  have hc : fld word 26 6 = 26 := by simp only [fld]; omega
  have h0 : fld word 22 4 = 4 := by simp only [fld]; omega
  have h1 : fld word 15 3 = 0 := by simp only [fld]; omega
  have f0 : BitVec.ofNat 4 (word / 262144) = g := ofNat_field _ _ (by omega)
  have f1 : BitVec.ofNat 4 (word / 2048) = d := ofNat_field _ _ (by omega)
  have f2 : BitVec.ofNat 7 (word / 16) = a := ofNat_field _ _ (by omega)
  have f3 : BitVec.ofNat 1 (word / 8) = e := ofNat_field _ _ (by omega)
  have f4 : BitVec.ofNat 3 word = k := ofNat_field _ _ (by omega)
  refine ⟨by omega, ?_⟩
  simp [decodeWord, hc, decodeGrp, h0, h1, f0, f1, f2, f3, f4]

theorem RoundTrip.gelect (g : BitVec 4) (d : BitVec 3) (e : BitVec 1) (k : BitVec 3) : RoundTrip.Statement (.gelect g d e k) := by
  intro word henc
  have hword : put (put (put (put 0x69400000 18 g) 11 d) 3 e) 0 k = word := Option.some.inj henc
  simp only [put] at hword
  have := g.isLt
  have := d.isLt
  have := e.isLt
  have := k.isLt
  clear henc
  have hc : fld word 26 6 = 26 := by simp only [fld]; omega
  have h0 : fld word 22 4 = 5 := by simp only [fld]; omega
  have h1 : fld word 4 7 = 0 := by simp only [fld]; omega
  have h2 : fld word 14 4 = 0 := by simp only [fld]; omega
  have f0 : BitVec.ofNat 4 (word / 262144) = g := ofNat_field _ _ (by omega)
  have f1 : BitVec.ofNat 3 (word / 2048) = d := ofNat_field _ _ (by omega)
  have f2 : BitVec.ofNat 1 (word / 8) = e := ofNat_field _ _ (by omega)
  have f3 : BitVec.ofNat 3 word = k := ofNat_field _ _ (by omega)
  refine ⟨by omega, ?_⟩
  simp [decodeWord, hc, decodeGrp, h0, h1, h2, f0, f1, f2, f3]

theorem RoundTrip.fencew (g : BitVec 4) (o : BitVec 3) (s : BitVec 3) (e : BitVec 1) (k : BitVec 3) : RoundTrip.Statement (.fencew g o s e k) := by
  intro word henc
  have hword : put (put (put (put (put 0x69800000 18 g) 11 o) 4 s) 3 e) 0 k = word := Option.some.inj henc
  simp only [put] at hword
  have := g.isLt
  have := o.isLt
  have := s.isLt
  have := e.isLt
  have := k.isLt
  clear henc
  have hc : fld word 26 6 = 26 := by simp only [fld]; omega
  have h0 : fld word 22 4 = 6 := by simp only [fld]; omega
  have h1 : fld word 7 4 = 0 := by simp only [fld]; omega
  have h2 : fld word 14 4 = 0 := by simp only [fld]; omega
  have f0 : BitVec.ofNat 4 (word / 262144) = g := ofNat_field _ _ (by omega)
  have f1 : BitVec.ofNat 3 (word / 2048) = o := ofNat_field _ _ (by omega)
  have f2 : BitVec.ofNat 3 (word / 16) = s := ofNat_field _ _ (by omega)
  have f3 : BitVec.ofNat 1 (word / 8) = e := ofNat_field _ _ (by omega)
  have f4 : BitVec.ofNat 3 word = k := ofNat_field _ _ (by omega)
  refine ⟨by omega, ?_⟩
  simp [decodeWord, hc, decodeGrp, h0, h1, h2, f0, f1, f2, f3, f4]

theorem RoundTrip.gred (g : BitVec 4) (d : BitVec 7) (a : BitVec 7) (o : BitVec 4) : RoundTrip.Statement (.gred g d a o) := by
  intro word henc
  have hword : put (put (put (put 0x69C00000 18 g) 11 d) 4 a) 0 o = word := Option.some.inj henc
  simp only [put] at hword
  have := g.isLt
  have := d.isLt
  have := a.isLt
  have := o.isLt
  clear henc
  have hc : fld word 26 6 = 26 := by simp only [fld]; omega
  have h0 : fld word 22 4 = 7 := by simp only [fld]; omega
  have f0 : BitVec.ofNat 4 (word / 262144) = g := ofNat_field _ _ (by omega)
  have f1 : BitVec.ofNat 7 (word / 2048) = d := ofNat_field _ _ (by omega)
  have f2 : BitVec.ofNat 7 (word / 16) = a := ofNat_field _ _ (by omega)
  have f3 : BitVec.ofNat 4 word = o := ofNat_field _ _ (by omega)
  refine ⟨by omega, ?_⟩
  simp [decodeWord, hc, decodeGrp, h0, f0, f1, f2, f3]

theorem RoundTrip.gscan (g : BitVec 4) (d : BitVec 7) (a : BitVec 7) (o : BitVec 4) : RoundTrip.Statement (.gscan g d a o) := by
  intro word henc
  have hword : put (put (put (put 0x6A000000 18 g) 11 d) 4 a) 0 o = word := Option.some.inj henc
  simp only [put] at hword
  have := g.isLt
  have := d.isLt
  have := a.isLt
  have := o.isLt
  clear henc
  have hc : fld word 26 6 = 26 := by simp only [fld]; omega
  have h0 : fld word 22 4 = 8 := by simp only [fld]; omega
  have f0 : BitVec.ofNat 4 (word / 262144) = g := ofNat_field _ _ (by omega)
  have f1 : BitVec.ofNat 7 (word / 2048) = d := ofNat_field _ _ (by omega)
  have f2 : BitVec.ofNat 7 (word / 16) = a := ofNat_field _ _ (by omega)
  have f3 : BitVec.ofNat 4 word = o := ofNat_field _ _ (by omega)
  refine ⟨by omega, ?_⟩
  simp [decodeWord, hc, decodeGrp, h0, f0, f1, f2, f3]

theorem RoundTrip.shflIdx (g : BitVec 3) (d : BitVec 7) (a : BitVec 7) (b : BitVec 7) : RoundTrip.Statement (.shflIdx g d a b) := by
  intro word henc
  have hword : put (put (put (put 0x6C000000 21 g) 14 d) 7 a) 0 b = word := Option.some.inj henc
  simp only [put] at hword
  have := g.isLt
  have := d.isLt
  have := a.isLt
  have := b.isLt
  clear henc
  have hc : fld word 26 6 = 27 := by simp only [fld]; omega
  have h0 : fld word 24 2 = 0 := by simp only [fld]; omega
  have f0 : BitVec.ofNat 3 (word / 2097152) = g := ofNat_field _ _ (by omega)
  have f1 : BitVec.ofNat 7 (word / 16384) = d := ofNat_field _ _ (by omega)
  have f2 : BitVec.ofNat 7 (word / 128) = a := ofNat_field _ _ (by omega)
  have f3 : BitVec.ofNat 7 word = b := ofNat_field _ _ (by omega)
  refine ⟨by omega, ?_⟩
  simp [decodeWord, hc, decodeXlane, h0, f0, f1, f2, f3]

theorem RoundTrip.shflUp (g : BitVec 3) (d : BitVec 7) (a : BitVec 7) (c : BitVec 6) : RoundTrip.Statement (.shflUp g d a c) := by
  intro word henc
  have hword : put (put (put (put 0x6D000000 21 g) 14 d) 7 a) 0 c = word := Option.some.inj henc
  simp only [put] at hword
  have := g.isLt
  have := d.isLt
  have := a.isLt
  have := c.isLt
  clear henc
  have hc : fld word 26 6 = 27 := by simp only [fld]; omega
  have h0 : fld word 24 2 = 1 := by simp only [fld]; omega
  have h1 : fld word 6 1 = 0 := by simp only [fld]; omega
  have f0 : BitVec.ofNat 3 (word / 2097152) = g := ofNat_field _ _ (by omega)
  have f1 : BitVec.ofNat 7 (word / 16384) = d := ofNat_field _ _ (by omega)
  have f2 : BitVec.ofNat 7 (word / 128) = a := ofNat_field _ _ (by omega)
  have f3 : BitVec.ofNat 6 word = c := ofNat_field _ _ (by omega)
  refine ⟨by omega, ?_⟩
  simp [decodeWord, hc, decodeXlane, h0, h1, f0, f1, f2, f3]

theorem RoundTrip.shflDn (g : BitVec 3) (d : BitVec 7) (a : BitVec 7) (c : BitVec 6) : RoundTrip.Statement (.shflDn g d a c) := by
  intro word henc
  have hword : put (put (put (put 0x6E000000 21 g) 14 d) 7 a) 0 c = word := Option.some.inj henc
  simp only [put] at hword
  have := g.isLt
  have := d.isLt
  have := a.isLt
  have := c.isLt
  clear henc
  have hc : fld word 26 6 = 27 := by simp only [fld]; omega
  have h0 : fld word 24 2 = 2 := by simp only [fld]; omega
  have h1 : fld word 6 1 = 0 := by simp only [fld]; omega
  have f0 : BitVec.ofNat 3 (word / 2097152) = g := ofNat_field _ _ (by omega)
  have f1 : BitVec.ofNat 7 (word / 16384) = d := ofNat_field _ _ (by omega)
  have f2 : BitVec.ofNat 7 (word / 128) = a := ofNat_field _ _ (by omega)
  have f3 : BitVec.ofNat 6 word = c := ofNat_field _ _ (by omega)
  refine ⟨by omega, ?_⟩
  simp [decodeWord, hc, decodeXlane, h0, h1, f0, f1, f2, f3]

theorem RoundTrip.shflXor (g : BitVec 3) (d : BitVec 7) (a : BitVec 7) (c : BitVec 6) : RoundTrip.Statement (.shflXor g d a c) := by
  intro word henc
  have hword : put (put (put (put 0x6F000000 21 g) 14 d) 7 a) 0 c = word := Option.some.inj henc
  simp only [put] at hword
  have := g.isLt
  have := d.isLt
  have := a.isLt
  have := c.isLt
  clear henc
  have hc : fld word 26 6 = 27 := by simp only [fld]; omega
  have h0 : fld word 24 2 = 3 := by simp only [fld]; omega
  have h1 : fld word 6 1 = 0 := by simp only [fld]; omega
  have f0 : BitVec.ofNat 3 (word / 2097152) = g := ofNat_field _ _ (by omega)
  have f1 : BitVec.ofNat 7 (word / 16384) = d := ofNat_field _ _ (by omega)
  have f2 : BitVec.ofNat 7 (word / 128) = a := ofNat_field _ _ (by omega)
  have f3 : BitVec.ofNat 6 word = c := ofNat_field _ _ (by omega)
  refine ⟨by omega, ?_⟩
  simp [decodeWord, hc, decodeXlane, h0, h1, f0, f1, f2, f3]

theorem RoundTrip.cdet (g : BitVec 4) (d : BitVec 7) (a : BitVec 7) (e : BitVec 1) (k : BitVec 3) : RoundTrip.Statement (.cdet g d a e k) := by
  intro word henc
  have hword : put (put (put (put (put 0x70000000 18 g) 11 d) 4 a) 3 e) 0 k = word := Option.some.inj henc
  simp only [put] at hword
  have := g.isLt
  have := d.isLt
  have := a.isLt
  have := e.isLt
  have := k.isLt
  clear henc
  have hc : fld word 26 6 = 28 := by simp only [fld]; omega
  have h0 : fld word 22 4 = 0 := by simp only [fld]; omega
  have f0 : BitVec.ofNat 4 (word / 262144) = g := ofNat_field _ _ (by omega)
  have f1 : BitVec.ofNat 7 (word / 2048) = d := ofNat_field _ _ (by omega)
  have f2 : BitVec.ofNat 7 (word / 16) = a := ofNat_field _ _ (by omega)
  have f3 : BitVec.ofNat 1 (word / 8) = e := ofNat_field _ _ (by omega)
  have f4 : BitVec.ofNat 3 word = k := ofNat_field _ _ (by omega)
  refine ⟨by omega, ?_⟩
  simp [decodeWord, hc, decodeCdet, h0, f0, f1, f2, f3, f4]

theorem RoundTrip.gcombF32 (g : BitVec 4) (d : BitVec 7) (a : BitVec 7) (e : BitVec 1) (k : BitVec 3) : RoundTrip.Statement (.gcombF32 g d a e k) := by
  intro word henc
  have hword : put (put (put (put (put 0x70400000 18 g) 11 d) 4 a) 3 e) 0 k = word := Option.some.inj henc
  simp only [put] at hword
  have := g.isLt
  have := d.isLt
  have := a.isLt
  have := e.isLt
  have := k.isLt
  clear henc
  have hc : fld word 26 6 = 28 := by simp only [fld]; omega
  have h0 : fld word 22 4 = 1 := by simp only [fld]; omega
  have f0 : BitVec.ofNat 4 (word / 262144) = g := ofNat_field _ _ (by omega)
  have f1 : BitVec.ofNat 7 (word / 2048) = d := ofNat_field _ _ (by omega)
  have f2 : BitVec.ofNat 7 (word / 16) = a := ofNat_field _ _ (by omega)
  have f3 : BitVec.ofNat 1 (word / 8) = e := ofNat_field _ _ (by omega)
  have f4 : BitVec.ofNat 3 word = k := ofNat_field _ _ (by omega)
  refine ⟨by omega, ?_⟩
  simp [decodeWord, hc, decodeCdet, h0, f0, f1, f2, f3, f4]

theorem RoundTrip.gcombS32 (g : BitVec 4) (d : BitVec 7) (a : BitVec 7) (e : BitVec 1) (k : BitVec 3) : RoundTrip.Statement (.gcombS32 g d a e k) := by
  intro word henc
  have hword : put (put (put (put (put 0x70800000 18 g) 11 d) 4 a) 3 e) 0 k = word := Option.some.inj henc
  simp only [put] at hword
  have := g.isLt
  have := d.isLt
  have := a.isLt
  have := e.isLt
  have := k.isLt
  clear henc
  have hc : fld word 26 6 = 28 := by simp only [fld]; omega
  have h0 : fld word 22 4 = 2 := by simp only [fld]; omega
  have f0 : BitVec.ofNat 4 (word / 262144) = g := ofNat_field _ _ (by omega)
  have f1 : BitVec.ofNat 7 (word / 2048) = d := ofNat_field _ _ (by omega)
  have f2 : BitVec.ofNat 7 (word / 16) = a := ofNat_field _ _ (by omega)
  have f3 : BitVec.ofNat 1 (word / 8) = e := ofNat_field _ _ (by omega)
  have f4 : BitVec.ofNat 3 word = k := ofNat_field _ _ (by omega)
  refine ⟨by omega, ?_⟩
  simp [decodeWord, hc, decodeCdet, h0, f0, f1, f2, f3, f4]

theorem RoundTrip.wacfg (w : BitVec 4) (a : BitVec 7) : RoundTrip.Statement (.wacfg w a) := by
  intro word henc
  have hword : put (put 0x74000000 10 w) 3 a = word := Option.some.inj henc
  simp only [put] at hword
  have := w.isLt
  have := a.isLt
  clear henc
  have hc : fld word 26 6 = 29 := by simp only [fld]; omega
  have h0 : fld word 22 4 = 0 := by simp only [fld]; omega
  have h1 : fld word 0 3 = 0 := by simp only [fld]; omega
  have h2 : fld word 14 8 = 0 := by simp only [fld]; omega
  have f0 : BitVec.ofNat 4 (word / 1024) = w := ofNat_field _ _ (by omega)
  have f1 : BitVec.ofNat 7 (word / 8) = a := ofNat_field _ _ (by omega)
  refine ⟨by omega, ?_⟩
  simp [decodeWord, hc, decodeWa, h0, h1, h2, f0, f1]

theorem RoundTrip.wapush (w : BitVec 4) (a : BitVec 7) : RoundTrip.Statement (.wapush w a) := by
  intro word henc
  have hword : put (put 0x74400000 10 w) 3 a = word := Option.some.inj henc
  simp only [put] at hword
  have := w.isLt
  have := a.isLt
  clear henc
  have hc : fld word 26 6 = 29 := by simp only [fld]; omega
  have h0 : fld word 22 4 = 1 := by simp only [fld]; omega
  have h1 : fld word 0 3 = 0 := by simp only [fld]; omega
  have h2 : fld word 14 8 = 0 := by simp only [fld]; omega
  have f0 : BitVec.ofNat 4 (word / 1024) = w := ofNat_field _ _ (by omega)
  have f1 : BitVec.ofNat 7 (word / 8) = a := ofNat_field _ _ (by omega)
  refine ⟨by omega, ?_⟩
  simp [decodeWord, hc, decodeWa, h0, h1, h2, f0, f1]

theorem RoundTrip.ward (d : BitVec 7) (w : BitVec 4) : RoundTrip.Statement (.ward d w) := by
  intro word henc
  have hword : put (put 0x74800000 14 d) 10 w = word := Option.some.inj henc
  simp only [put] at hword
  have := d.isLt
  have := w.isLt
  clear henc
  have hc : fld word 26 6 = 29 := by simp only [fld]; omega
  have h0 : fld word 22 4 = 2 := by simp only [fld]; omega
  have h1 : fld word 0 10 = 0 := by simp only [fld]; omega
  have h2 : fld word 21 1 = 0 := by simp only [fld]; omega
  have f0 : BitVec.ofNat 7 (word / 16384) = d := ofNat_field _ _ (by omega)
  have f1 : BitVec.ofNat 4 (word / 1024) = w := ofNat_field _ _ (by omega)
  refine ⟨by omega, ?_⟩
  simp [decodeWord, hc, decodeWa, h0, h1, h2, f0, f1]

theorem RoundTrip.wapr (d : BitVec 7) (w : BitVec 4) (a : BitVec 7) : RoundTrip.Statement (.wapr d w a) := by
  intro word henc
  have hword : put (put (put 0x74C00000 14 d) 10 w) 3 a = word := Option.some.inj henc
  simp only [put] at hword
  have := d.isLt
  have := w.isLt
  have := a.isLt
  clear henc
  have hc : fld word 26 6 = 29 := by simp only [fld]; omega
  have h0 : fld word 22 4 = 3 := by simp only [fld]; omega
  have h1 : fld word 0 3 = 0 := by simp only [fld]; omega
  have h2 : fld word 21 1 = 0 := by simp only [fld]; omega
  have f0 : BitVec.ofNat 7 (word / 16384) = d := ofNat_field _ _ (by omega)
  have f1 : BitVec.ofNat 4 (word / 1024) = w := ofNat_field _ _ (by omega)
  have f2 : BitVec.ofNat 7 (word / 8) = a := ofNat_field _ _ (by omega)
  refine ⟨by omega, ?_⟩
  simp [decodeWord, hc, decodeWa, h0, h1, h2, f0, f1, f2]

theorem RoundTrip.waclr (w : BitVec 4) : RoundTrip.Statement (.waclr w) := by
  intro word henc
  have hword : put 0x75000000 10 w = word := Option.some.inj henc
  simp only [put] at hword
  have := w.isLt
  clear henc
  have hc : fld word 26 6 = 29 := by simp only [fld]; omega
  have h0 : fld word 22 4 = 4 := by simp only [fld]; omega
  have h1 : fld word 0 10 = 0 := by simp only [fld]; omega
  have h2 : fld word 14 8 = 0 := by simp only [fld]; omega
  have f0 : BitVec.ofNat 4 (word / 1024) = w := ofNat_field _ _ (by omega)
  refine ⟨by omega, ?_⟩
  simp [decodeWord, hc, decodeWa, h0, h1, h2, f0]

theorem RoundTrip.wastat (d : BitVec 7) (w : BitVec 4) (a : BitVec 7) : RoundTrip.Statement (.wastat d w a) := by
  intro word henc
  have hword : put (put (put 0x75400000 14 d) 10 w) 3 a = word := Option.some.inj henc
  simp only [put] at hword
  have := d.isLt
  have := w.isLt
  have := a.isLt
  clear henc
  have hc : fld word 26 6 = 29 := by simp only [fld]; omega
  have h0 : fld word 22 4 = 5 := by simp only [fld]; omega
  have h1 : fld word 0 3 = 0 := by simp only [fld]; omega
  have h2 : fld word 21 1 = 0 := by simp only [fld]; omega
  have f0 : BitVec.ofNat 7 (word / 16384) = d := ofNat_field _ _ (by omega)
  have f1 : BitVec.ofNat 4 (word / 1024) = w := ofNat_field _ _ (by omega)
  have f2 : BitVec.ofNat 7 (word / 8) = a := ofNat_field _ _ (by omega)
  refine ⟨by omega, ?_⟩
  simp [decodeWord, hc, decodeWa, h0, h1, h2, f0, f1, f2]

theorem RoundTrip.wasave (h : BitVec 4) (w : BitVec 4) (a : BitVec 7) : RoundTrip.Statement (.wasave h w a) := by
  intro word henc
  have hword : put (put (put 0x75800000 14 h) 10 w) 3 a = word := Option.some.inj henc
  simp only [put] at hword
  have := h.isLt
  have := w.isLt
  have := a.isLt
  clear henc
  have hc : fld word 26 6 = 29 := by simp only [fld]; omega
  have h0 : fld word 22 4 = 6 := by simp only [fld]; omega
  have h1 : fld word 0 3 = 0 := by simp only [fld]; omega
  have h2 : fld word 18 4 = 0 := by simp only [fld]; omega
  have f0 : BitVec.ofNat 4 (word / 16384) = h := ofNat_field _ _ (by omega)
  have f1 : BitVec.ofNat 4 (word / 1024) = w := ofNat_field _ _ (by omega)
  have f2 : BitVec.ofNat 7 (word / 8) = a := ofNat_field _ _ (by omega)
  refine ⟨by omega, ?_⟩
  simp [decodeWord, hc, decodeWa, h0, h1, h2, f0, f1, f2]

theorem RoundTrip.waload (h : BitVec 4) (w : BitVec 4) (a : BitVec 7) : RoundTrip.Statement (.waload h w a) := by
  intro word henc
  have hword : put (put (put 0x75C00000 14 h) 10 w) 3 a = word := Option.some.inj henc
  simp only [put] at hword
  have := h.isLt
  have := w.isLt
  have := a.isLt
  clear henc
  have hc : fld word 26 6 = 29 := by simp only [fld]; omega
  have h0 : fld word 22 4 = 7 := by simp only [fld]; omega
  have h1 : fld word 0 3 = 0 := by simp only [fld]; omega
  have h2 : fld word 18 4 = 0 := by simp only [fld]; omega
  have f0 : BitVec.ofNat 4 (word / 16384) = h := ofNat_field _ _ (by omega)
  have f1 : BitVec.ofNat 4 (word / 1024) = w := ofNat_field _ _ (by omega)
  have f2 : BitVec.ofNat 7 (word / 8) = a := ofNat_field _ _ (by omega)
  refine ⟨by omega, ?_⟩
  simp [decodeWord, hc, decodeWa, h0, h1, h2, f0, f1, f2]

theorem RoundTrip.mxmmaBf16 (r : BitVec 1) (t : BitVec 4) (h : BitVec 4) (j : BitVec 4) (a : BitVec 7) : RoundTrip.Statement (.mxmmaBf16 r t h j a) := by
  intro word henc
  have hword : put (put (put (put (put 0x78000000 21 r) 17 t) 13 h) 9 j) 2 a = word := Option.some.inj henc
  simp only [put] at hword
  have := r.isLt
  have := t.isLt
  have := h.isLt
  have := j.isLt
  have := a.isLt
  clear henc
  have hc : fld word 26 6 = 30 := by simp only [fld]; omega
  have h0 : fld word 22 4 = 0 := by simp only [fld]; omega
  have h1 : fld word 0 2 = 0 := by simp only [fld]; omega
  have f0 : BitVec.ofNat 1 (word / 2097152) = r := ofNat_field _ _ (by omega)
  have f1 : BitVec.ofNat 4 (word / 131072) = t := ofNat_field _ _ (by omega)
  have f2 : BitVec.ofNat 4 (word / 8192) = h := ofNat_field _ _ (by omega)
  have f3 : BitVec.ofNat 4 (word / 512) = j := ofNat_field _ _ (by omega)
  have f4 : BitVec.ofNat 7 (word / 4) = a := ofNat_field _ _ (by omega)
  refine ⟨by omega, ?_⟩
  simp [decodeWord, hc, decodeMx, h0, h1, f0, f1, f2, f3, f4]

theorem RoundTrip.mxmmaF16 (r : BitVec 1) (t : BitVec 4) (h : BitVec 4) (j : BitVec 4) (a : BitVec 7) : RoundTrip.Statement (.mxmmaF16 r t h j a) := by
  intro word henc
  have hword : put (put (put (put (put 0x78400000 21 r) 17 t) 13 h) 9 j) 2 a = word := Option.some.inj henc
  simp only [put] at hword
  have := r.isLt
  have := t.isLt
  have := h.isLt
  have := j.isLt
  have := a.isLt
  clear henc
  have hc : fld word 26 6 = 30 := by simp only [fld]; omega
  have h0 : fld word 22 4 = 1 := by simp only [fld]; omega
  have h1 : fld word 0 2 = 0 := by simp only [fld]; omega
  have f0 : BitVec.ofNat 1 (word / 2097152) = r := ofNat_field _ _ (by omega)
  have f1 : BitVec.ofNat 4 (word / 131072) = t := ofNat_field _ _ (by omega)
  have f2 : BitVec.ofNat 4 (word / 8192) = h := ofNat_field _ _ (by omega)
  have f3 : BitVec.ofNat 4 (word / 512) = j := ofNat_field _ _ (by omega)
  have f4 : BitVec.ofNat 7 (word / 4) = a := ofNat_field _ _ (by omega)
  refine ⟨by omega, ?_⟩
  simp [decodeWord, hc, decodeMx, h0, h1, f0, f1, f2, f3, f4]

theorem RoundTrip.mxmmaE4m3 (r : BitVec 1) (t : BitVec 4) (h : BitVec 4) (j : BitVec 4) (a : BitVec 7) : RoundTrip.Statement (.mxmmaE4m3 r t h j a) := by
  intro word henc
  have hword : put (put (put (put (put 0x78800000 21 r) 17 t) 13 h) 9 j) 2 a = word := Option.some.inj henc
  simp only [put] at hword
  have := r.isLt
  have := t.isLt
  have := h.isLt
  have := j.isLt
  have := a.isLt
  clear henc
  have hc : fld word 26 6 = 30 := by simp only [fld]; omega
  have h0 : fld word 22 4 = 2 := by simp only [fld]; omega
  have h1 : fld word 0 2 = 0 := by simp only [fld]; omega
  have f0 : BitVec.ofNat 1 (word / 2097152) = r := ofNat_field _ _ (by omega)
  have f1 : BitVec.ofNat 4 (word / 131072) = t := ofNat_field _ _ (by omega)
  have f2 : BitVec.ofNat 4 (word / 8192) = h := ofNat_field _ _ (by omega)
  have f3 : BitVec.ofNat 4 (word / 512) = j := ofNat_field _ _ (by omega)
  have f4 : BitVec.ofNat 7 (word / 4) = a := ofNat_field _ _ (by omega)
  refine ⟨by omega, ?_⟩
  simp [decodeWord, hc, decodeMx, h0, h1, f0, f1, f2, f3, f4]

theorem RoundTrip.mxmmaE5m2 (r : BitVec 1) (t : BitVec 4) (h : BitVec 4) (j : BitVec 4) (a : BitVec 7) : RoundTrip.Statement (.mxmmaE5m2 r t h j a) := by
  intro word henc
  have hword : put (put (put (put (put 0x78C00000 21 r) 17 t) 13 h) 9 j) 2 a = word := Option.some.inj henc
  simp only [put] at hword
  have := r.isLt
  have := t.isLt
  have := h.isLt
  have := j.isLt
  have := a.isLt
  clear henc
  have hc : fld word 26 6 = 30 := by simp only [fld]; omega
  have h0 : fld word 22 4 = 3 := by simp only [fld]; omega
  have h1 : fld word 0 2 = 0 := by simp only [fld]; omega
  have f0 : BitVec.ofNat 1 (word / 2097152) = r := ofNat_field _ _ (by omega)
  have f1 : BitVec.ofNat 4 (word / 131072) = t := ofNat_field _ _ (by omega)
  have f2 : BitVec.ofNat 4 (word / 8192) = h := ofNat_field _ _ (by omega)
  have f3 : BitVec.ofNat 4 (word / 512) = j := ofNat_field _ _ (by omega)
  have f4 : BitVec.ofNat 7 (word / 4) = a := ofNat_field _ _ (by omega)
  refine ⟨by omega, ?_⟩
  simp [decodeWord, hc, decodeMx, h0, h1, f0, f1, f2, f3, f4]

theorem RoundTrip.mxmmaS8 (r : BitVec 1) (t : BitVec 4) (h : BitVec 4) (j : BitVec 4) (a : BitVec 7) : RoundTrip.Statement (.mxmmaS8 r t h j a) := by
  intro word henc
  have hword : put (put (put (put (put 0x79000000 21 r) 17 t) 13 h) 9 j) 2 a = word := Option.some.inj henc
  simp only [put] at hword
  have := r.isLt
  have := t.isLt
  have := h.isLt
  have := j.isLt
  have := a.isLt
  clear henc
  have hc : fld word 26 6 = 30 := by simp only [fld]; omega
  have h0 : fld word 22 4 = 4 := by simp only [fld]; omega
  have h1 : fld word 0 2 = 0 := by simp only [fld]; omega
  have f0 : BitVec.ofNat 1 (word / 2097152) = r := ofNat_field _ _ (by omega)
  have f1 : BitVec.ofNat 4 (word / 131072) = t := ofNat_field _ _ (by omega)
  have f2 : BitVec.ofNat 4 (word / 8192) = h := ofNat_field _ _ (by omega)
  have f3 : BitVec.ofNat 4 (word / 512) = j := ofNat_field _ _ (by omega)
  have f4 : BitVec.ofNat 7 (word / 4) = a := ofNat_field _ _ (by omega)
  refine ⟨by omega, ?_⟩
  simp [decodeWord, hc, decodeMx, h0, h1, f0, f1, f2, f3, f4]

theorem RoundTrip.mxmmaNq4 (r : BitVec 1) (t : BitVec 4) (h : BitVec 4) (j : BitVec 4) (a : BitVec 7) : RoundTrip.Statement (.mxmmaNq4 r t h j a) := by
  intro word henc
  have hword : put (put (put (put (put 0x79400000 21 r) 17 t) 13 h) 9 j) 2 a = word := Option.some.inj henc
  simp only [put] at hword
  have := r.isLt
  have := t.isLt
  have := h.isLt
  have := j.isLt
  have := a.isLt
  clear henc
  have hc : fld word 26 6 = 30 := by simp only [fld]; omega
  have h0 : fld word 22 4 = 5 := by simp only [fld]; omega
  have h1 : fld word 0 2 = 0 := by simp only [fld]; omega
  have f0 : BitVec.ofNat 1 (word / 2097152) = r := ofNat_field _ _ (by omega)
  have f1 : BitVec.ofNat 4 (word / 131072) = t := ofNat_field _ _ (by omega)
  have f2 : BitVec.ofNat 4 (word / 8192) = h := ofNat_field _ _ (by omega)
  have f3 : BitVec.ofNat 4 (word / 512) = j := ofNat_field _ _ (by omega)
  have f4 : BitVec.ofNat 7 (word / 4) = a := ofNat_field _ _ (by omega)
  refine ⟨by omega, ?_⟩
  simp [decodeWord, hc, decodeMx, h0, h1, f0, f1, f2, f3, f4]

theorem RoundTrip.mxz (t : BitVec 4) : RoundTrip.Statement (.mxz t) := by
  intro word henc
  have hword : put 0x79800000 17 t = word := Option.some.inj henc
  simp only [put] at hword
  have := t.isLt
  clear henc
  have hc : fld word 26 6 = 30 := by simp only [fld]; omega
  have h0 : fld word 22 4 = 6 := by simp only [fld]; omega
  have h1 : fld word 0 17 = 0 := by simp only [fld]; omega
  have h2 : fld word 21 1 = 0 := by simp only [fld]; omega
  have f0 : BitVec.ofNat 4 (word / 131072) = t := ofNat_field _ _ (by omega)
  refine ⟨by omega, ?_⟩
  simp [decodeWord, hc, decodeMx, h0, h1, h2, f0]

theorem RoundTrip.mxst (t : BitVec 4) (h : BitVec 4) (a : BitVec 7) : RoundTrip.Statement (.mxst t h a) := by
  intro word henc
  have hword : put (put (put 0x79C00000 17 t) 13 h) 2 a = word := Option.some.inj henc
  simp only [put] at hword
  have := t.isLt
  have := h.isLt
  have := a.isLt
  clear henc
  have hc : fld word 26 6 = 30 := by simp only [fld]; omega
  have h0 : fld word 22 4 = 7 := by simp only [fld]; omega
  have h1 : fld word 0 2 = 0 := by simp only [fld]; omega
  have h2 : fld word 9 4 = 0 := by simp only [fld]; omega
  have h3 : fld word 21 1 = 0 := by simp only [fld]; omega
  have f0 : BitVec.ofNat 4 (word / 131072) = t := ofNat_field _ _ (by omega)
  have f1 : BitVec.ofNat 4 (word / 8192) = h := ofNat_field _ _ (by omega)
  have f2 : BitVec.ofNat 7 (word / 4) = a := ofNat_field _ _ (by omega)
  refine ⟨by omega, ?_⟩
  simp [decodeWord, hc, decodeMx, h0, h1, h2, h3, f0, f1, f2]

theorem RoundTrip.mxrd (t : BitVec 4) (d : BitVec 7) (a : BitVec 7) : RoundTrip.Statement (.mxrd t d a) := by
  intro word henc
  have hword : put (put (put 0x7A000000 17 t) 9 d) 2 a = word := Option.some.inj henc
  simp only [put] at hword
  have := t.isLt
  have := d.isLt
  have := a.isLt
  clear henc
  have hc : fld word 26 6 = 30 := by simp only [fld]; omega
  have h0 : fld word 22 4 = 8 := by simp only [fld]; omega
  have h1 : fld word 0 2 = 0 := by simp only [fld]; omega
  have h2 : fld word 16 1 = 0 := by simp only [fld]; omega
  have h3 : fld word 21 1 = 0 := by simp only [fld]; omega
  have f0 : BitVec.ofNat 4 (word / 131072) = t := ofNat_field _ _ (by omega)
  have f1 : BitVec.ofNat 7 (word / 512) = d := ofNat_field _ _ (by omega)
  have f2 : BitVec.ofNat 7 (word / 4) = a := ofNat_field _ _ (by omega)
  refine ⟨by omega, ?_⟩
  simp [decodeWord, hc, decodeMx, h0, h1, h2, h3, f0, f1, f2]

theorem RoundTrip.mxwr (t : BitVec 4) (a : BitVec 7) : RoundTrip.Statement (.mxwr t a) := by
  intro word henc
  have hword : put (put 0x7A400000 17 t) 2 a = word := Option.some.inj henc
  simp only [put] at hword
  have := t.isLt
  have := a.isLt
  clear henc
  have hc : fld word 26 6 = 30 := by simp only [fld]; omega
  have h0 : fld word 22 4 = 9 := by simp only [fld]; omega
  have h1 : fld word 0 2 = 0 := by simp only [fld]; omega
  have h2 : fld word 9 8 = 0 := by simp only [fld]; omega
  have h3 : fld word 21 1 = 0 := by simp only [fld]; omega
  have f0 : BitVec.ofNat 4 (word / 131072) = t := ofNat_field _ _ (by omega)
  have f1 : BitVec.ofNat 7 (word / 4) = a := ofNat_field _ _ (by omega)
  refine ⟨by omega, ?_⟩
  simp [decodeWord, hc, decodeMx, h0, h1, h2, h3, f0, f1]

theorem RoundTrip.mxcommit : RoundTrip.Statement .mxcommit := by
  intro word henc
  have hword : 0x7A800000 = word := Option.some.inj henc
  clear henc
  have hc : fld word 26 6 = 30 := by simp only [fld]; omega
  have h0 : fld word 22 4 = 10 := by simp only [fld]; omega
  have h1 : fld word 0 22 = 0 := by simp only [fld]; omega
  refine ⟨by omega, ?_⟩
  simp [decodeWord, hc, decodeMx, h0, h1]

theorem RoundTrip.mxwait (n : BitVec 7) : RoundTrip.Statement (.mxwait n) := by
  intro word henc
  have hword : put 0x7AC00000 2 n = word := Option.some.inj henc
  simp only [put] at hword
  have := n.isLt
  clear henc
  have hc : fld word 26 6 = 30 := by simp only [fld]; omega
  have h0 : fld word 22 4 = 11 := by simp only [fld]; omega
  have h1 : fld word 0 2 = 0 := by simp only [fld]; omega
  have h2 : fld word 9 13 = 0 := by simp only [fld]; omega
  have f0 : BitVec.ofNat 7 (word / 4) = n := ofNat_field _ _ (by omega)
  refine ⟨by omega, ?_⟩
  simp [decodeWord, hc, decodeMx, h0, h1, h2, f0]

theorem RoundTrip.mxstat (d : BitVec 7) (a : BitVec 7) : RoundTrip.Statement (.mxstat d a) := by
  intro word henc
  have hword : put (put 0x7B000000 9 d) 2 a = word := Option.some.inj henc
  simp only [put] at hword
  have := d.isLt
  have := a.isLt
  clear henc
  have hc : fld word 26 6 = 30 := by simp only [fld]; omega
  have h0 : fld word 22 4 = 12 := by simp only [fld]; omega
  have h1 : fld word 0 2 = 0 := by simp only [fld]; omega
  have h2 : fld word 16 6 = 0 := by simp only [fld]; omega
  have f0 : BitVec.ofNat 7 (word / 512) = d := ofNat_field _ _ (by omega)
  have f1 : BitVec.ofNat 7 (word / 4) = a := ofNat_field _ _ (by omega)
  refine ⟨by omega, ?_⟩
  simp [decodeWord, hc, decodeMx, h0, h1, h2, f0, f1]

theorem RoundTrip.cpy (g : BitVec 6) (d : BitVec 4) (s : BitVec 4) (a : BitVec 7) (m : BitVec 1) : RoundTrip.Statement (.cpy g d s a m) := by
  intro word henc
  have hword : put (put (put (put (put 0x7C000000 16 g) 12 d) 8 s) 1 a) 0 m = word := Option.some.inj henc
  simp only [put] at hword
  have := g.isLt
  have := d.isLt
  have := s.isLt
  have := a.isLt
  have := m.isLt
  clear henc
  have hc : fld word 26 6 = 31 := by simp only [fld]; omega
  have h0 : fld word 22 4 = 0 := by simp only [fld]; omega
  have f0 : BitVec.ofNat 6 (word / 65536) = g := ofNat_field _ _ (by omega)
  have f1 : BitVec.ofNat 4 (word / 4096) = d := ofNat_field _ _ (by omega)
  have f2 : BitVec.ofNat 4 (word / 256) = s := ofNat_field _ _ (by omega)
  have f3 : BitVec.ofNat 7 (word / 2) = a := ofNat_field _ _ (by omega)
  have f4 : BitVec.ofNat 1 word = m := ofNat_field _ _ (by omega)
  refine ⟨by omega, ?_⟩
  simp [decodeWord, hc, decodeCpe, h0, f0, f1, f2, f3, f4]

theorem RoundTrip.tcpy (g : BitVec 6) (d : BitVec 4) (s : BitVec 4) (a : BitVec 7) (m : BitVec 1) : RoundTrip.Statement (.tcpy g d s a m) := by
  intro word henc
  have hword : put (put (put (put (put 0x7C400000 16 g) 12 d) 8 s) 1 a) 0 m = word := Option.some.inj henc
  simp only [put] at hword
  have := g.isLt
  have := d.isLt
  have := s.isLt
  have := a.isLt
  have := m.isLt
  clear henc
  have hc : fld word 26 6 = 31 := by simp only [fld]; omega
  have h0 : fld word 22 4 = 1 := by simp only [fld]; omega
  have f0 : BitVec.ofNat 6 (word / 65536) = g := ofNat_field _ _ (by omega)
  have f1 : BitVec.ofNat 4 (word / 4096) = d := ofNat_field _ _ (by omega)
  have f2 : BitVec.ofNat 4 (word / 256) = s := ofNat_field _ _ (by omega)
  have f3 : BitVec.ofNat 7 (word / 2) = a := ofNat_field _ _ (by omega)
  have f4 : BitVec.ofNat 1 word = m := ofNat_field _ _ (by omega)
  refine ⟨by omega, ?_⟩
  simp [decodeWord, hc, decodeCpe, h0, f0, f1, f2, f3, f4]

theorem RoundTrip.chain (g : BitVec 6) (d : BitVec 4) (s : BitVec 4) (a : BitVec 7) (m : BitVec 1) : RoundTrip.Statement (.chain g d s a m) := by
  intro word henc
  have hword : put (put (put (put (put 0x7C800000 16 g) 12 d) 8 s) 1 a) 0 m = word := Option.some.inj henc
  simp only [put] at hword
  have := g.isLt
  have := d.isLt
  have := s.isLt
  have := a.isLt
  have := m.isLt
  clear henc
  have hc : fld word 26 6 = 31 := by simp only [fld]; omega
  have h0 : fld word 22 4 = 2 := by simp only [fld]; omega
  have f0 : BitVec.ofNat 6 (word / 65536) = g := ofNat_field _ _ (by omega)
  have f1 : BitVec.ofNat 4 (word / 4096) = d := ofNat_field _ _ (by omega)
  have f2 : BitVec.ofNat 4 (word / 256) = s := ofNat_field _ _ (by omega)
  have f3 : BitVec.ofNat 7 (word / 2) = a := ofNat_field _ _ (by omega)
  have f4 : BitVec.ofNat 1 word = m := ofNat_field _ _ (by omega)
  refine ⟨by omega, ?_⟩
  simp [decodeWord, hc, decodeCpe, h0, f0, f1, f2, f3, f4]

theorem RoundTrip.tagarm (g : BitVec 6) (a : BitVec 7) : RoundTrip.Statement (.tagarm g a) := by
  intro word henc
  have hword : put (put 0x7CC00000 16 g) 1 a = word := Option.some.inj henc
  simp only [put] at hword
  have := g.isLt
  have := a.isLt
  clear henc
  have hc : fld word 26 6 = 31 := by simp only [fld]; omega
  have h0 : fld word 22 4 = 3 := by simp only [fld]; omega
  have h1 : fld word 0 1 = 0 := by simp only [fld]; omega
  have h2 : fld word 8 8 = 0 := by simp only [fld]; omega
  have f0 : BitVec.ofNat 6 (word / 65536) = g := ofNat_field _ _ (by omega)
  have f1 : BitVec.ofNat 7 (word / 2) = a := ofNat_field _ _ (by omega)
  refine ⟨by omega, ?_⟩
  simp [decodeWord, hc, decodeCpe, h0, h1, h2, f0, f1]

theorem RoundTrip.tagwaitAny (a : BitVec 7) : RoundTrip.Statement (.tagwaitAny a) := by
  intro word henc
  have hword : put 0x7D000000 1 a = word := Option.some.inj henc
  simp only [put] at hword
  have := a.isLt
  clear henc
  have hc : fld word 26 6 = 31 := by simp only [fld]; omega
  have h0 : fld word 22 4 = 4 := by simp only [fld]; omega
  have h1 : fld word 0 1 = 0 := by simp only [fld]; omega
  have h2 : fld word 8 14 = 0 := by simp only [fld]; omega
  have f0 : BitVec.ofNat 7 (word / 2) = a := ofNat_field _ _ (by omega)
  refine ⟨by omega, ?_⟩
  simp [decodeWord, hc, decodeCpe, h0, h1, h2, f0]

theorem RoundTrip.tagwaitAll (a : BitVec 7) : RoundTrip.Statement (.tagwaitAll a) := by
  intro word henc
  have hword : put 0x7D400000 1 a = word := Option.some.inj henc
  simp only [put] at hword
  have := a.isLt
  clear henc
  have hc : fld word 26 6 = 31 := by simp only [fld]; omega
  have h0 : fld word 22 4 = 5 := by simp only [fld]; omega
  have h1 : fld word 0 1 = 0 := by simp only [fld]; omega
  have h2 : fld word 8 14 = 0 := by simp only [fld]; omega
  have f0 : BitVec.ofNat 7 (word / 2) = a := ofNat_field _ _ (by omega)
  refine ⟨by omega, ?_⟩
  simp [decodeWord, hc, decodeCpe, h0, h1, h2, f0]

theorem RoundTrip.tagff (a : BitVec 7) : RoundTrip.Statement (.tagff a) := by
  intro word henc
  have hword : put 0x7D800000 1 a = word := Option.some.inj henc
  simp only [put] at hword
  have := a.isLt
  clear henc
  have hc : fld word 26 6 = 31 := by simp only [fld]; omega
  have h0 : fld word 22 4 = 6 := by simp only [fld]; omega
  have h1 : fld word 0 1 = 0 := by simp only [fld]; omega
  have h2 : fld word 8 14 = 0 := by simp only [fld]; omega
  have f0 : BitVec.ofNat 7 (word / 2) = a := ofNat_field _ _ (by omega)
  refine ⟨by omega, ?_⟩
  simp [decodeWord, hc, decodeCpe, h0, h1, h2, f0]

theorem RoundTrip.tagclr (a : BitVec 7) : RoundTrip.Statement (.tagclr a) := by
  intro word henc
  have hword : put 0x7DC00000 1 a = word := Option.some.inj henc
  simp only [put] at hword
  have := a.isLt
  clear henc
  have hc : fld word 26 6 = 31 := by simp only [fld]; omega
  have h0 : fld word 22 4 = 7 := by simp only [fld]; omega
  have h1 : fld word 0 1 = 0 := by simp only [fld]; omega
  have h2 : fld word 8 14 = 0 := by simp only [fld]; omega
  have f0 : BitVec.ofNat 7 (word / 2) = a := ofNat_field _ _ (by omega)
  refine ⟨by omega, ?_⟩
  simp [decodeWord, hc, decodeCpe, h0, h1, h2, f0]

theorem RoundTrip.tagrd (g : BitVec 6) (a : BitVec 7) : RoundTrip.Statement (.tagrd g a) := by
  intro word henc
  have hword : put (put 0x7E000000 16 g) 1 a = word := Option.some.inj henc
  simp only [put] at hword
  have := g.isLt
  have := a.isLt
  clear henc
  have hc : fld word 26 6 = 31 := by simp only [fld]; omega
  have h0 : fld word 22 4 = 8 := by simp only [fld]; omega
  have h1 : fld word 0 1 = 0 := by simp only [fld]; omega
  have h2 : fld word 8 8 = 0 := by simp only [fld]; omega
  have f0 : BitVec.ofNat 6 (word / 65536) = g := ofNat_field _ _ (by omega)
  have f1 : BitVec.ofNat 7 (word / 2) = a := ofNat_field _ _ (by omega)
  refine ⟨by omega, ?_⟩
  simp [decodeWord, hc, decodeCpe, h0, h1, h2, f0, f1]

theorem RoundTrip.tbar (n : BitVec 3) : RoundTrip.Statement (.tbar n) := by
  intro word henc
  have hword : put 0x80000000 0 n = word := Option.some.inj henc
  simp only [put] at hword
  have := n.isLt
  clear henc
  have hc : fld word 26 6 = 32 := by simp only [fld]; omega
  have h0 : fld word 22 4 = 0 := by simp only [fld]; omega
  have h1 : fld word 3 19 = 0 := by simp only [fld]; omega
  have f0 : BitVec.ofNat 3 word = n := ofNat_field _ _ (by omega)
  refine ⟨by omega, ?_⟩
  simp [decodeWord, hc, decodeTeam, h0, h1, f0]

theorem RoundTrip.tbara (d : BitVec 7) (n : BitVec 3) : RoundTrip.Statement (.tbara d n) := by
  intro word henc
  have hword : put (put 0x80400000 14 d) 0 n = word := Option.some.inj henc
  simp only [put] at hword
  have := d.isLt
  have := n.isLt
  clear henc
  have hc : fld word 26 6 = 32 := by simp only [fld]; omega
  have h0 : fld word 22 4 = 1 := by simp only [fld]; omega
  have h1 : fld word 3 11 = 0 := by simp only [fld]; omega
  have h2 : fld word 21 1 = 0 := by simp only [fld]; omega
  have f0 : BitVec.ofNat 7 (word / 16384) = d := ofNat_field _ _ (by omega)
  have f1 : BitVec.ofNat 3 word = n := ofNat_field _ _ (by omega)
  refine ⟨by omega, ?_⟩
  simp [decodeWord, hc, decodeTeam, h0, h1, h2, f0, f1]

theorem RoundTrip.tbarw (a : BitVec 7) (n : BitVec 3) : RoundTrip.Statement (.tbarw a n) := by
  intro word henc
  have hword : put (put 0x80800000 7 a) 0 n = word := Option.some.inj henc
  simp only [put] at hword
  have := a.isLt
  have := n.isLt
  clear henc
  have hc : fld word 26 6 = 32 := by simp only [fld]; omega
  have h0 : fld word 22 4 = 2 := by simp only [fld]; omega
  have h1 : fld word 3 4 = 0 := by simp only [fld]; omega
  have h2 : fld word 14 8 = 0 := by simp only [fld]; omega
  have f0 : BitVec.ofNat 7 (word / 128) = a := ofNat_field _ _ (by omega)
  have f1 : BitVec.ofNat 3 word = n := ofNat_field _ _ (by omega)
  refine ⟨by omega, ?_⟩
  simp [decodeWord, hc, decodeTeam, h0, h1, h2, f0, f1]

theorem RoundTrip.launch (d : BitVec 7) (a : BitVec 7) (h : BitVec 4) : RoundTrip.Statement (.launch d a h) := by
  intro word henc
  have hword : put (put (put 0x80C00000 14 d) 7 a) 0 h = word := Option.some.inj henc
  simp only [put] at hword
  have := d.isLt
  have := a.isLt
  have := h.isLt
  clear henc
  have hc : fld word 26 6 = 32 := by simp only [fld]; omega
  have h0 : fld word 22 4 = 3 := by simp only [fld]; omega
  have h1 : fld word 4 3 = 0 := by simp only [fld]; omega
  have h2 : fld word 21 1 = 0 := by simp only [fld]; omega
  have f0 : BitVec.ofNat 7 (word / 16384) = d := ofNat_field _ _ (by omega)
  have f1 : BitVec.ofNat 7 (word / 128) = a := ofNat_field _ _ (by omega)
  have f2 : BitVec.ofNat 4 word = h := ofNat_field _ _ (by omega)
  refine ⟨by omega, ?_⟩
  simp [decodeWord, hc, decodeTeam, h0, h1, h2, f0, f1, f2]

theorem RoundTrip.gwait (d : BitVec 7) (a : BitVec 7) : RoundTrip.Statement (.gwait d a) := by
  intro word henc
  have hword : put (put 0x81000000 14 d) 7 a = word := Option.some.inj henc
  simp only [put] at hword
  have := d.isLt
  have := a.isLt
  clear henc
  have hc : fld word 26 6 = 32 := by simp only [fld]; omega
  have h0 : fld word 22 4 = 4 := by simp only [fld]; omega
  have h1 : fld word 0 7 = 0 := by simp only [fld]; omega
  have h2 : fld word 21 1 = 0 := by simp only [fld]; omega
  have f0 : BitVec.ofNat 7 (word / 16384) = d := ofNat_field _ _ (by omega)
  have f1 : BitVec.ofNat 7 (word / 128) = a := ofNat_field _ _ (by omega)
  refine ⟨by omega, ?_⟩
  simp [decodeWord, hc, decodeTeam, h0, h1, h2, f0, f1]

theorem RoundTrip.taskpush (d : BitVec 7) (a : BitVec 7) (h : BitVec 4) : RoundTrip.Statement (.taskpush d a h) := by
  intro word henc
  have hword : put (put (put 0x81400000 14 d) 7 a) 0 h = word := Option.some.inj henc
  simp only [put] at hword
  have := d.isLt
  have := a.isLt
  have := h.isLt
  clear henc
  have hc : fld word 26 6 = 32 := by simp only [fld]; omega
  have h0 : fld word 22 4 = 5 := by simp only [fld]; omega
  have h1 : fld word 4 3 = 0 := by simp only [fld]; omega
  have h2 : fld word 21 1 = 0 := by simp only [fld]; omega
  have f0 : BitVec.ofNat 7 (word / 16384) = d := ofNat_field _ _ (by omega)
  have f1 : BitVec.ofNat 7 (word / 128) = a := ofNat_field _ _ (by omega)
  have f2 : BitVec.ofNat 4 word = h := ofNat_field _ _ (by omega)
  refine ⟨by omega, ?_⟩
  simp [decodeWord, hc, decodeTeam, h0, h1, h2, f0, f1, f2]

theorem RoundTrip.rgrow (d : BitVec 7) (n : BitVec 7) : RoundTrip.Statement (.rgrow d n) := by
  intro word henc
  have hword : put (put 0x81800000 14 d) 0 n = word := Option.some.inj henc
  simp only [put] at hword
  have := d.isLt
  have := n.isLt
  clear henc
  have hc : fld word 26 6 = 32 := by simp only [fld]; omega
  have h0 : fld word 22 4 = 6 := by simp only [fld]; omega
  have h1 : fld word 7 7 = 0 := by simp only [fld]; omega
  have h2 : fld word 21 1 = 0 := by simp only [fld]; omega
  have f0 : BitVec.ofNat 7 (word / 16384) = d := ofNat_field _ _ (by omega)
  have f1 : BitVec.ofNat 7 word = n := ofNat_field _ _ (by omega)
  refine ⟨by omega, ?_⟩
  simp [decodeWord, hc, decodeTeam, h0, h1, h2, f0, f1]

theorem RoundTrip.rshrink (n : BitVec 7) : RoundTrip.Statement (.rshrink n) := by
  intro word henc
  have hword : put 0x81C00000 0 n = word := Option.some.inj henc
  simp only [put] at hword
  have := n.isLt
  clear henc
  have hc : fld word 26 6 = 32 := by simp only [fld]; omega
  have h0 : fld word 22 4 = 7 := by simp only [fld]; omega
  have h1 : fld word 7 15 = 0 := by simp only [fld]; omega
  have f0 : BitVec.ofNat 7 word = n := ofNat_field _ _ (by omega)
  refine ⟨by omega, ?_⟩
  simp [decodeWord, hc, decodeTeam, h0, h1, f0]

theorem RoundTrip.commit : RoundTrip.Statement .commit := by
  intro word henc
  have hword : 0x82000000 = word := Option.some.inj henc
  clear henc
  have hc : fld word 26 6 = 32 := by simp only [fld]; omega
  have h0 : fld word 22 4 = 8 := by simp only [fld]; omega
  have h1 : fld word 0 22 = 0 := by simp only [fld]; omega
  refine ⟨by omega, ?_⟩
  simp [decodeWord, hc, decodeTeam, h0, h1]

theorem RoundTrip.rds (d : BitVec 7) (n : BitVec 14) : RoundTrip.Statement (.rds d n) := by
  intro word henc
  have hword : put (put 0x84000000 14 d) 0 n = word := Option.some.inj henc
  simp only [put] at hword
  have := d.isLt
  have := n.isLt
  clear henc
  have hc : fld word 26 6 = 33 := by simp only [fld]; omega
  have h0 : fld word 22 4 = 0 := by simp only [fld]; omega
  have h1 : fld word 21 1 = 0 := by simp only [fld]; omega
  have f0 : BitVec.ofNat 7 (word / 16384) = d := ofNat_field _ _ (by omega)
  have f1 : BitVec.ofNat 14 word = n := ofNat_field _ _ (by omega)
  refine ⟨by omega, ?_⟩
  simp [decodeWord, hc, decodeSys, h0, h1, f0, f1]

theorem RoundTrip.wrs (s : BitVec 7) (n : BitVec 14) : RoundTrip.Statement (.wrs s n) := by
  intro word henc
  have hword : put (put 0x84400000 14 s) 0 n = word := Option.some.inj henc
  simp only [put] at hword
  have := s.isLt
  have := n.isLt
  clear henc
  have hc : fld word 26 6 = 33 := by simp only [fld]; omega
  have h0 : fld word 22 4 = 1 := by simp only [fld]; omega
  have h1 : fld word 21 1 = 0 := by simp only [fld]; omega
  have f0 : BitVec.ofNat 7 (word / 16384) = s := ofNat_field _ _ (by omega)
  have f1 : BitVec.ofNat 14 word = n := ofNat_field _ _ (by omega)
  refine ⟨by omega, ?_⟩
  simp [decodeWord, hc, decodeSys, h0, h1, f0, f1]

theorem RoundTrip.tlbinv (a : BitVec 7) (b : BitVec 7) : RoundTrip.Statement (.tlbinv a b) := by
  intro word henc
  have hword : put (put 0x84800000 7 a) 0 b = word := Option.some.inj henc
  simp only [put] at hword
  have := a.isLt
  have := b.isLt
  clear henc
  have hc : fld word 26 6 = 33 := by simp only [fld]; omega
  have h0 : fld word 22 4 = 2 := by simp only [fld]; omega
  have h1 : fld word 14 8 = 0 := by simp only [fld]; omega
  have f0 : BitVec.ofNat 7 (word / 128) = a := ofNat_field _ _ (by omega)
  have f1 : BitVec.ofNat 7 word = b := ofNat_field _ _ (by omega)
  refine ⟨by omega, ?_⟩
  simp [decodeWord, hc, decodeSys, h0, h1, f0, f1]

theorem RoundTrip.unpark (d : BitVec 7) (a : BitVec 7) : RoundTrip.Statement (.unpark d a) := by
  intro word henc
  have hword : put (put 0x84C00000 14 d) 7 a = word := Option.some.inj henc
  simp only [put] at hword
  have := d.isLt
  have := a.isLt
  clear henc
  have hc : fld word 26 6 = 33 := by simp only [fld]; omega
  have h0 : fld word 22 4 = 3 := by simp only [fld]; omega
  have h1 : fld word 0 7 = 0 := by simp only [fld]; omega
  have h2 : fld word 21 1 = 0 := by simp only [fld]; omega
  have f0 : BitVec.ofNat 7 (word / 16384) = d := ofNat_field _ _ (by omega)
  have f1 : BitVec.ofNat 7 (word / 128) = a := ofNat_field _ _ (by omega)
  refine ⟨by omega, ?_⟩
  simp [decodeWord, hc, decodeSys, h0, h1, h2, f0, f1]

theorem RoundTrip.swapctx (d : BitVec 7) (a : BitVec 7) : RoundTrip.Statement (.swapctx d a) := by
  intro word henc
  have hword : put (put 0x85000000 14 d) 7 a = word := Option.some.inj henc
  simp only [put] at hword
  have := d.isLt
  have := a.isLt
  clear henc
  have hc : fld word 26 6 = 33 := by simp only [fld]; omega
  have h0 : fld word 22 4 = 4 := by simp only [fld]; omega
  have h1 : fld word 0 7 = 0 := by simp only [fld]; omega
  have h2 : fld word 21 1 = 0 := by simp only [fld]; omega
  have f0 : BitVec.ofNat 7 (word / 16384) = d := ofNat_field _ _ (by omega)
  have f1 : BitVec.ofNat 7 (word / 128) = a := ofNat_field _ _ (by omega)
  refine ⟨by omega, ?_⟩
  simp [decodeWord, hc, decodeSys, h0, h1, h2, f0, f1]

theorem RoundTrip.ctxsave (d : BitVec 7) (a : BitVec 7) (b : BitVec 7) : RoundTrip.Statement (.ctxsave d a b) := by
  intro word henc
  have hword : put (put (put 0x85400000 14 d) 7 a) 0 b = word := Option.some.inj henc
  simp only [put] at hword
  have := d.isLt
  have := a.isLt
  have := b.isLt
  clear henc
  have hc : fld word 26 6 = 33 := by simp only [fld]; omega
  have h0 : fld word 22 4 = 5 := by simp only [fld]; omega
  have h1 : fld word 21 1 = 0 := by simp only [fld]; omega
  have f0 : BitVec.ofNat 7 (word / 16384) = d := ofNat_field _ _ (by omega)
  have f1 : BitVec.ofNat 7 (word / 128) = a := ofNat_field _ _ (by omega)
  have f2 : BitVec.ofNat 7 word = b := ofNat_field _ _ (by omega)
  refine ⟨by omega, ?_⟩
  simp [decodeWord, hc, decodeSys, h0, h1, f0, f1, f2]

theorem RoundTrip.ctxload (d : BitVec 7) (a : BitVec 7) (b : BitVec 7) : RoundTrip.Statement (.ctxload d a b) := by
  intro word henc
  have hword : put (put (put 0x85800000 14 d) 7 a) 0 b = word := Option.some.inj henc
  simp only [put] at hword
  have := d.isLt
  have := a.isLt
  have := b.isLt
  clear henc
  have hc : fld word 26 6 = 33 := by simp only [fld]; omega
  have h0 : fld word 22 4 = 6 := by simp only [fld]; omega
  have h1 : fld word 21 1 = 0 := by simp only [fld]; omega
  have f0 : BitVec.ofNat 7 (word / 16384) = d := ofNat_field _ _ (by omega)
  have f1 : BitVec.ofNat 7 (word / 128) = a := ofNat_field _ _ (by omega)
  have f2 : BitVec.ofNat 7 word = b := ofNat_field _ _ (by omega)
  refine ⟨by omega, ?_⟩
  simp [decodeWord, hc, decodeSys, h0, h1, f0, f1, f2]

theorem RoundTrip.trapret : RoundTrip.Statement .trapret := by
  intro word henc
  have hword : 0x85C00000 = word := Option.some.inj henc
  clear henc
  have hc : fld word 26 6 = 33 := by simp only [fld]; omega
  have h0 : fld word 0 1 = 0 := by simp only [fld]; omega
  have h1 : fld word 22 4 = 7 := by simp only [fld]; omega
  have h2 : fld word 1 21 = 0 := by simp only [fld]; omega
  refine ⟨by omega, ?_⟩
  simp [decodeWord, hc, decodeSys, h0, h1, h2]

theorem RoundTrip.trapretSkip : RoundTrip.Statement .trapretSkip := by
  intro word henc
  have hword : 0x85C00001 = word := Option.some.inj henc
  clear henc
  have hc : fld word 26 6 = 33 := by simp only [fld]; omega
  have h0 : fld word 0 1 = 1 := by simp only [fld]; omega
  have h1 : fld word 22 4 = 7 := by simp only [fld]; omega
  have h2 : fld word 1 21 = 0 := by simp only [fld]; omega
  refine ⟨by omega, ?_⟩
  simp [decodeWord, hc, decodeSys, h0, h1, h2]

theorem RoundTrip.halt : RoundTrip.Statement .halt := by
  intro word henc
  have hword : 0x86000000 = word := Option.some.inj henc
  clear henc
  have hc : fld word 26 6 = 33 := by simp only [fld]; omega
  have h0 : fld word 22 4 = 8 := by simp only [fld]; omega
  have h1 : fld word 0 22 = 0 := by simp only [fld]; omega
  refine ⟨by omega, ?_⟩
  simp [decodeWord, hc, decodeSys, h0, h1]

theorem RoundTrip.sleep : RoundTrip.Statement .sleep := by
  intro word henc
  have hword : 0x86400000 = word := Option.some.inj henc
  clear henc
  have hc : fld word 26 6 = 33 := by simp only [fld]; omega
  have h0 : fld word 22 4 = 9 := by simp only [fld]; omega
  have h1 : fld word 0 22 = 0 := by simp only [fld]; omega
  refine ⟨by omega, ?_⟩
  simp [decodeWord, hc, decodeSys, h0, h1]

theorem RoundTrip.lmapw (d : BitVec 7) (a : BitVec 7) (b : BitVec 7) : RoundTrip.Statement (.lmapw d a b) := by
  intro word henc
  have hword : put (put (put 0x86800000 14 d) 7 a) 0 b = word := Option.some.inj henc
  simp only [put] at hword
  have := d.isLt
  have := a.isLt
  have := b.isLt
  clear henc
  have hc : fld word 26 6 = 33 := by simp only [fld]; omega
  have h0 : fld word 22 4 = 10 := by simp only [fld]; omega
  have h1 : fld word 21 1 = 0 := by simp only [fld]; omega
  have f0 : BitVec.ofNat 7 (word / 16384) = d := ofNat_field _ _ (by omega)
  have f1 : BitVec.ofNat 7 (word / 128) = a := ofNat_field _ _ (by omega)
  have f2 : BitVec.ofNat 7 word = b := ofNat_field _ _ (by omega)
  refine ⟨by omega, ?_⟩
  simp [decodeWord, hc, decodeSys, h0, h1, f0, f1, f2]

theorem RoundTrip.idivResult (id : Nat) : RoundTrip.Statement (.idivResult id) := by
  intro _ h
  cases h

theorem RoundTrip.sfuResult (id : Nat) : RoundTrip.Statement (.sfuResult id) := by
  intro _ h
  cases h

theorem RoundTrip.cvtResult (id : Nat) : RoundTrip.Statement (.cvtResult id) := by
  intro _ h
  cases h

theorem RoundTrip.loadReturn (id : Nat) : RoundTrip.Statement (.loadReturn id) := by
  intro _ h
  cases h

theorem RoundTrip.atomicPerform (id : Nat) : RoundTrip.Statement (.atomicPerform id) := by
  intro _ h
  cases h

theorem RoundTrip.waitlineWake (strand : Nat) : RoundTrip.Statement (.waitlineWake strand) := by
  intro _ h
  cases h

theorem RoundTrip.meetComplete (wave : Nat) (key : List Byte) : RoundTrip.Statement (.meetComplete wave key) := by
  intro _ h
  cases h

theorem RoundTrip.mxChunk (core : Nat) : RoundTrip.Statement (.mxChunk core) := by
  intro _ h
  cases h

theorem RoundTrip.mxCommandComplete (core : Nat) : RoundTrip.Statement (.mxCommandComplete core) := by
  intro _ h
  cases h

theorem RoundTrip.mxGroupComplete (strand : Nat) (group : Nat) : RoundTrip.Statement (.mxGroupComplete strand group) := by
  intro _ h
  cases h

theorem RoundTrip.mxwdFire (core : Nat) : RoundTrip.Statement (.mxwdFire core) := by
  intro _ h
  cases h

theorem RoundTrip.copyLand (id : Nat) (block : Nat) : RoundTrip.Statement (.copyLand id block) := by
  intro _ h
  cases h

theorem RoundTrip.copyRetry (id : Nat) : RoundTrip.Statement (.copyRetry id) := by
  intro _ h
  cases h

theorem RoundTrip.directoryRecall (line : Nat) : RoundTrip.Statement (.directoryRecall line) := by
  intro _ h
  cases h

theorem RoundTrip.barrierPhaseComplete (team : Nat) (bar : Nat) : RoundTrip.Statement (.barrierPhaseComplete team bar) := by
  intro _ h
  cases h

theorem RoundTrip.launchStatus (id : Nat) : RoundTrip.Statement (.launchStatus id) := by
  intro _ h
  cases h

theorem RoundTrip.taskpushPoolFree (cluster : Nat) : RoundTrip.Statement (.taskpushPoolFree cluster) := by
  intro _ h
  cases h

theorem RoundTrip.growGrant (bank : Nat) : RoundTrip.Statement (.growGrant bank) := by
  intro _ h
  cases h

theorem RoundTrip.growFail (bank : Nat) : RoundTrip.Statement (.growFail bank) := by
  intro _ h
  cases h

theorem RoundTrip.tlbinvComplete (id : Nat) : RoundTrip.Statement (.tlbinvComplete id) := by
  intro _ h
  cases h

theorem RoundTrip.ctxsaveComplete (id : Nat) : RoundTrip.Statement (.ctxsaveComplete id) := by
  intro _ h
  cases h

theorem RoundTrip.scribeentWrite (cluster : Nat) : RoundTrip.Statement (.scribeentWrite cluster) := by
  intro _ h
  cases h

theorem RoundTrip.hbmstatClear (stack : Nat) : RoundTrip.Statement (.hbmstatClear stack) := by
  intro _ h
  cases h

theorem RoundTrip.fetchFill (strand : Nat) : RoundTrip.Statement (.fetchFill strand) := by
  intro _ h
  cases h

theorem RoundTrip.missRegisterGrant (core : Nat) : RoundTrip.Statement (.missRegisterGrant core) := by
  intro _ h
  cases h

theorem RoundTrip.translationWalk (id : Nat) : RoundTrip.Statement (.translationWalk id) := by
  intro _ h
  cases h

theorem RoundTrip.walkLockReread (id : Nat) : RoundTrip.Statement (.walkLockReread id) := by
  intro _ h
  cases h

theorem RoundTrip.faultRecordDeliver (cluster : Nat) : RoundTrip.Statement (.faultRecordDeliver cluster) := by
  intro _ h
  cases h

theorem RoundTrip.handlerEntry (strand : Nat) : RoundTrip.Statement (.handlerEntry strand) := by
  intro _ h
  cases h

theorem RoundTrip.parityRollback (strand : Nat) (reg : Nat) : RoundTrip.Statement (.parityRollback strand reg) := by
  intro _ h
  cases h

theorem RoundTrip.teamRelaunch (team : Nat) : RoundTrip.Statement (.teamRelaunch team) := by
  intro _ h
  cases h

theorem RoundTrip.teamPlace (grid : Nat) : RoundTrip.Statement (.teamPlace grid) := by
  intro _ h
  cases h

theorem RoundTrip.prio3Preempt (grid : Nat) (core : Nat) : RoundTrip.Statement (.prio3Preempt grid core) := by
  intro _ h
  cases h

theorem RoundTrip.bankSwap (core : Nat) : RoundTrip.Statement (.bankSwap core) := by
  intro _ h
  cases h

theorem RoundTrip.teamRetire (team : Nat) : RoundTrip.Statement (.teamRetire team) := by
  intro _ h
  cases h

theorem RoundTrip.gridRetire (grid : Nat) : RoundTrip.Statement (.gridRetire grid) := by
  intro _ h
  cases h

theorem RoundTrip.coreGate (core : Nat) : RoundTrip.Statement (.coreGate core) := by
  intro _ h
  cases h

theorem RoundTrip.coreWake (core : Nat) : RoundTrip.Statement (.coreWake core) := by
  intro _ h
  cases h

theorem RoundTrip.gatherTick (cluster : Nat) : RoundTrip.Statement (.gatherTick cluster) := by
  intro _ h
  cases h

theorem RoundTrip.gatherWindowExpiry (cluster : Nat) : RoundTrip.Statement (.gatherWindowExpiry cluster) := by
  intro _ h
  cases h

theorem RoundTrip.laneTest (core : Nat) (failed : List Nat) : RoundTrip.Statement (.laneTest core failed) := by
  intro _ h
  cases h

theorem RoundTrip.scribeMove (cluster : Nat) : RoundTrip.Statement (.scribeMove cluster) := by
  intro _ h
  cases h

theorem RoundTrip.failLaneInject (core : Nat) (lane : Nat) (issue : Nat) : RoundTrip.Statement (.failLaneInject core lane issue) := by
  intro _ h
  cases h

theorem RoundTrip.lineMigrate (line : Nat) (cluster : Nat) : RoundTrip.Statement (.lineMigrate line cluster) := by
  intro _ h
  cases h

theorem RoundTrip.crossDieApply (home : Nat) (die : Nat) : RoundTrip.Statement (.crossDieApply home die) := by
  intro _ h
  cases h

theorem RoundTrip.replicaEvict (die : Nat) (line : Nat) : RoundTrip.Statement (.replicaEvict die line) := by
  intro _ h
  cases h

theorem RoundTrip.scrubPassEnd (stack : Nat) (ecs : Nat) (rowmax : Nat) : RoundTrip.Statement (.scrubPassEnd stack ecs rowmax) := by
  intro _ h
  cases h

theorem RoundTrip.streamLaunch (die : Nat) (stream : Nat) : RoundTrip.Statement (.streamLaunch die stream) := by
  intro _ h
  cases h

theorem RoundTrip.streamWaitgrid (die : Nat) (stream : Nat) : RoundTrip.Statement (.streamWaitgrid die stream) := by
  intro _ h
  cases h

theorem RoundTrip.streamWrite (die : Nat) (stream : Nat) : RoundTrip.Statement (.streamWrite die stream) := by
  intro _ h
  cases h

theorem RoundTrip.streamDrain (die : Nat) (stream : Nat) : RoundTrip.Statement (.streamDrain die stream) := by
  intro _ h
  cases h

theorem RoundTrip.streamBadOp (die : Nat) (stream : Nat) : RoundTrip.Statement (.streamBadOp die stream) := by
  intro _ h
  cases h

theorem RoundTrip.rubricReplace (die : Nat) (img : Image) (signature : List Byte) (streams : Dword) : RoundTrip.Statement (.rubricReplace die img signature streams) := by
  intro _ h
  cases h

theorem RoundTrip.hostResumeCore (core : Nat) : RoundTrip.Statement (.hostResumeCore core) := by
  intro _ h
  cases h

theorem RoundTrip.powerState (p : Nat) : RoundTrip.Statement (.powerState p) := by
  intro _ h
  cases h

theorem RoundTrip.dieIdle (die : Nat) : RoundTrip.Statement (.dieIdle die) := by
  intro _ h
  cases h

theorem RoundTrip.dieResume (die : Nat) : RoundTrip.Statement (.dieResume die) := by
  intro _ h
  cases h

theorem RoundTrip.thermalStop : RoundTrip.Statement .thermalStop := by
  intro _ h
  cases h

theorem RoundTrip.thermalResume (celsius : Nat) : RoundTrip.Statement (.thermalResume celsius) := by
  intro _ h
  cases h

theorem RoundTrip.linkdown (link : Nat) : RoundTrip.Statement (.linkdown link) := by
  intro _ h
  cases h

theorem RoundTrip.luteFlitRetransmit (link : Nat) (seq : Nat) : RoundTrip.Statement (.luteFlitRetransmit link seq) := by
  intro _ h
  cases h

theorem RoundTrip.neterr (window : Nat) : RoundTrip.Statement (.neterr window) := by
  intro _ h
  cases h

theorem RoundTrip.inboundRdmaWrite (window : Nat) (offset : Nat) (bytes : List Byte) : RoundTrip.Statement (.inboundRdmaWrite window offset bytes) := by
  intro _ h
  cases h

theorem RoundTrip.boot (firmware : SignedBlob) (rubric : Image) (signature : List Byte) (streams : Dword) : RoundTrip.Statement (.boot firmware rubric signature streams) := by
  intro _ h
  cases h

theorem RoundTrip.firmwareRecovery (firmware : SignedBlob) : RoundTrip.Statement (.firmwareRecovery firmware) := by
  intro _ h
  cases h

theorem RoundTrip.attestationReport (nonce : List Byte) : RoundTrip.Statement (.attestationReport nonce) := by
  intro _ h
  cases h

theorem RoundTrip.testUnlock (signature : List Byte) : RoundTrip.Statement (.testUnlock signature) := by
  intro _ h
  cases h

theorem RoundTrip.deviceReset : RoundTrip.Statement .deviceReset := by
  intro _ h
  cases h

theorem RoundTrip.storePerform (id : Nat) : RoundTrip.Statement (.storePerform id) := by
  intro _ h
  cases h

theorem RoundTrip.l1Writeback (core : Nat) (line : Nat) : RoundTrip.Statement (.l1Writeback core line) := by
  intro _ h
  cases h

theorem RoundTrip.ctxloadComplete (id : Nat) : RoundTrip.Statement (.ctxloadComplete id) := by
  intro _ h
  cases h

theorem RoundTrip.hostAccess (acc : Access) (release : Bool) : RoundTrip.Statement (.hostAccess acc release) := by
  intro _ h
  cases h

theorem RoundTrip.peerAccess (link : Nat) (seq : Nat) (acc : Access) : RoundTrip.Statement (.peerAccess link seq acc) := by
  intro _ h
  cases h

theorem RoundTrip.imageLoad (img : Image) : RoundTrip.Statement (.imageLoad img) := by
  intro _ h
  cases h

theorem RoundTrip.coreReset (core : Nat) : RoundTrip.Statement (.coreReset core) := by
  intro _ h
  cases h

theorem RoundTrip.luteLinkUp (link : Nat) : RoundTrip.Statement (.luteLinkUp link) := by
  intro _ h
  cases h

theorem RoundTrip.managementGridStart (mgrid : ManagementGrid) : RoundTrip.Statement (.managementGridStart mgrid) := by
  intro _ h
  cases h

theorem RoundTrip.ownerKeyEnrol (key : List Byte) : RoundTrip.Statement (.ownerKeyEnrol key) := by
  intro _ h
  cases h

end Sys2Proof.Laws
end

