-- ==== Sys2Proof/Laws/SaveArea.lean ====
section
/-!
SUPPORT. The laws of the save area (R265): a field takes back the bytes that it gave, so that the area of a context gives the
context again, and bytes written to memory are read back.
-/

namespace Sys2Proof.Machine

open Sys2Proof.Safety

/-! ### Little-endian values -/

@[simp] theorem length_toBytes (n x : Nat) : (toBytes n x).length = n := by
  induction n generalizing x with
  | zero => rfl
  | succ n ih => simp [toBytes, ih]

theorem fromBytes_toBytes (n x : Nat) : fromBytes (toBytes n x) = x % 256 ^ n := by
  induction n generalizing x with
  | zero => simp [toBytes, fromBytes, Nat.mod_one]
  | succ n ih =>
    have split : x % 256 ^ (n + 1) = x % 256 + 256 * (x / 256 % 256 ^ n) := by rw [pow_succ', Nat.mod_mul]
    rw [toBytes, fromBytes, ih, BitVec.toNat_ofNat, split]

/-! ### Memory -/

@[simp] theorem length_span (a n : Nat) : (span a n).length = n := by simp [span]

theorem place_map_fst (a : Nat) (l : List Byte) : (place a l).map (·.1) = span a l.length := by
  induction l generalizing a with
  | nil => rfl
  | cons b l ih =>
    simp only [place, List.map_cons, ih, span, List.length_cons, List.range_succ_eq_map, List.map_map, Nat.add_zero]
    congr 1
    exact List.map_congr_left fun k _ => by simp only [Function.comp]; omega

theorem mem_place {a k : Nat} {l : List Byte} (h : k < l.length) : (a + k, l[k]) ∈ place a l := by
  induction l generalizing a k with
  | nil => simp at h
  | cons b l ih =>
    cases k with
    | zero => simp [place]
    | succ k =>
      have := ih (a := a + 1) (k := k) (by simpa using h)
      simp only [place, List.getElem_cons_succ, List.mem_cons]
      right
      convert this using 2
      omega

/-- A read of part of what was written gives that part. -/
theorem peek_poke {s : State} (h : MemoryOk s) (pa : Nat) (l : List Byte) (low : pa + l.length ≤ 2 ^ 51) (k n : Nat)
    (hk : k + n ≤ l.length) : (s.poke pa l).peek (pa + k) n = (l.drop k).take n := by
  have key : ∀ a, pa ≤ a → a < pa + l.length → memKey a = a := fun a _ ha => by
    unfold memKey; rw [if_pos (by omega)]
  have keys : ((place pa l).map fun c => (memKey c.1, c.2)) = place pa l := by
    conv_rhs => rw [← List.map_id (place pa l)]
    apply List.map_congr_left
    intro c hc
    have : c.1 ∈ span pa l.length := by rw [← place_map_fst]; exact List.mem_map_of_mem hc
    simp only [span, List.mem_map, List.mem_range] at this
    obtain ⟨j, hj, e⟩ := this
    simp only [id_eq, key c.1 (by omega) (by omega)]
  have nodup : ((place pa l).map (·.1)).Nodup := by
    rw [place_map_fst]
    exact (List.nodup_range).map fun _ _ => by simp
  apply List.ext_getElem
  · simp [State.peek]; omega
  · intro i h1 h2
    have hi : i < n := by simpa [State.peek] using h1
    have at' : (pa + (k + i), l[k + i]'(by omega)) ∈ place pa l := mem_place (by omega)
    simp only [State.peek, span, List.map_map, List.getElem_map, List.getElem_range, Function.comp, State.poke, State.pokeAll, keys,
      List.getElem_take, List.getElem_drop]
    rw [key _ (by omega) (by omega), Nat.add_assoc]
    exact Memory.read_writeAll_same h _ nodup _ at'

/-! ### Fields -/

/-- A field gives as many bytes as its size says, and takes its own bytes back. -/
def Slot.keeps {α : Type} (f : Slot α) (x : α) : Prop := (f.get x).length = f.size ∧ f.put (f.get x) x = some x

@[simp] theorem length_padded (n : Nat) (l : List Byte) : (padded n l).length = n := by simp [padded]; omega

theorem Slot.coded_keeps {α : Type} (n : Nat) (get : α → List Byte) (put : List Byte → α → Option α) (x : α) :
    (Slot.coded n get put).keeps x := ⟨length_padded _ _, if_pos rfl⟩

theorem Slot.fixed_keeps {α : Type} (n : Nat) (get : α → List Byte) (x : α) : (Slot.fixed n get).keeps x :=
  coded_keeps n get _ x

theorem Slot.spare_keeps {α : Type} (n : Nat) (get : α → List Byte) (x : α) : (Slot.spare n get).keeps x :=
  coded_keeps n get _ x

theorem Slot.num_keeps {α : Type} (n : Nat) (ok : Nat → Bool) (get : α → Nat) (put : Nat → α → α) (x : α)
    (h : get x < 256 ^ n) : (Slot.num n ok get put).keeps x := by
  simp [Slot.keeps, Slot.num, fromBytes_toBytes, Nat.mod_eq_of_lt h]

theorem Slot.word_keeps {α : Type} (get : α → Word) (put : Word → α → α) (x : α) : (Slot.word get put).keeps x :=
  num_keeps 4 _ _ _ x (get x).isLt

theorem Slot.within_keeps {α β : Type} (look : β → α) (set : α → β → β) (f : Slot α) (x : β)
    (h : f.keeps (look x)) (hs : set (look x) x = x) : (f.within look set).keeps x := by
  refine ⟨h.1, ?_⟩
  simp [Slot.within, h.2, hs]

/-- Fields that take their own bytes back give the object again. -/
theorem slotsRead_slotsBytes {α : Type} (l : List (Slot α)) (x : α) (h : ∀ f ∈ l, f.keeps x) :
    slotsRead l (slotsBytes l x) x = some x := by
  induction l with
  | nil => rfl
  | cons f l ih =>
    have hf := h f (by simp)
    have e : slotsBytes (f :: l) x = f.get x ++ slotsBytes l x := rfl
    rw [e, slotsRead, ← hf.1, List.take_left, List.drop_left, hf.2]
    exact ih fun g hg => h g (by simp [hg])

theorem length_slotsBytes {α : Type} (l : List (Slot α)) (x : α) (h : ∀ f ∈ l, f.keeps x) :
    (slotsBytes l x).length = slotsSize l := by
  induction l with
  | nil => rfl
  | cons f l ih =>
    have e : slotsBytes (f :: l) x = f.get x ++ slotsBytes l x := rfl
    rw [e, List.length_append, (h f (by simp)).1, ih fun g hg => h g (by simp [hg])]
    simp [slotsSize]

/-- R264: the area of a context gives the context again. -/
theorem Saved.readArea_area (x : Saved) (h : ∀ f ∈ x.slots, f.keeps x) : x.readArea x.area = some x :=
  slotsRead_slotsBytes _ _ h

end Sys2Proof.Machine
end

