-- ==== Sys2Proof/Laws/State.lean ====
section
/-!
SUPPORT. What each update of the state does to each of its fields.
-/

namespace Sys2Proof.Machine

variable (s : State)

@[simp] theorem State.setCore_mem (c : Nat) (x : Core) : (s.setCore c x).mem = s.mem := rfl
@[simp] theorem State.setCore_poison (c : Nat) (x : Core) : (s.setCore c x).poison = s.poison := rfl
@[simp] theorem State.setCore_strands (c : Nat) (x : Core) : (s.setCore c x).strands = s.strands := rfl
@[simp] theorem State.setCore_waves (c : Nat) (x : Core) : (s.setCore c x).waves = s.waves := rfl
@[simp] theorem State.setCore_teams (c : Nat) (x : Core) : (s.setCore c x).teams = s.teams := rfl
@[simp] theorem State.setCore_grids (c : Nat) (x : Core) : (s.setCore c x).grids = s.grids := rfl
@[simp] theorem State.setCore_banks (c : Nat) (x : Core) : (s.setCore c x).banks = s.banks := rfl
@[simp] theorem State.setCore_cores (c : Nat) (x : Core) : (s.setCore c x).cores = s.cores.set c x := rfl
@[simp] theorem State.setCore_clusters (c : Nat) (x : Core) : (s.setCore c x).clusters = s.clusters := rfl
@[simp] theorem State.setCore_dies (c : Nat) (x : Core) : (s.setCore c x).dies = s.dies := rfl
@[simp] theorem State.setCore_device (c : Nat) (x : Core) : (s.setCore c x).device = s.device := rfl
@[simp] theorem State.setCore_flights (c : Nat) (x : Core) : (s.setCore c x).flights = s.flights := rfl
@[simp] theorem State.setCore_stores (c : Nat) (x : Core) : (s.setCore c x).stores = s.stores := rfl
@[simp] theorem State.setCore_loads (c : Nat) (x : Core) : (s.setCore c x).loads = s.loads := rfl
@[simp] theorem State.setCore_atomics (c : Nat) (x : Core) : (s.setCore c x).atomics = s.atomics := rfl
@[simp] theorem State.setCore_watches (c : Nat) (x : Core) : (s.setCore c x).watches = s.watches := rfl
@[simp] theorem State.setCore_updates (c : Nat) (x : Core) : (s.setCore c x).updates = s.updates := rfl
@[simp] theorem State.setCore_walks (c : Nat) (x : Core) : (s.setCore c x).walks = s.walks := rfl
@[simp] theorem State.setCore_parks (c : Nat) (x : Core) : (s.setCore c x).parks = s.parks := rfl
@[simp] theorem State.setCore_pending (c : Nat) (x : Core) : (s.setCore c x).pending = s.pending := rfl
@[simp] theorem State.setCore_turns (c : Nat) (x : Core) : (s.setCore c x).turns = s.turns := rfl
@[simp] theorem State.setCore_issue (c : Nat) (x : Core) : (s.setCore c x).issue = s.issue := rfl
@[simp] theorem State.setCore_cur (c : Nat) (x : Core) : (s.setCore c x).cur = s.cur := rfl
@[simp] theorem State.setCore_nextId (c : Nat) (x : Core) : (s.setCore c x).nextId = s.nextId := rfl
@[simp] theorem State.setCore_freeCount (c : Nat) (x : Core) : (s.setCore c x).freeCount = s.freeCount := rfl

@[simp] theorem State.setBank_mem (b : Nat) (x : Bank) : (s.setBank b x).mem = s.mem := rfl
@[simp] theorem State.setBank_poison (b : Nat) (x : Bank) : (s.setBank b x).poison = s.poison := rfl
@[simp] theorem State.setBank_strands (b : Nat) (x : Bank) : (s.setBank b x).strands = s.strands := rfl
@[simp] theorem State.setBank_waves (b : Nat) (x : Bank) : (s.setBank b x).waves = s.waves := rfl
@[simp] theorem State.setBank_teams (b : Nat) (x : Bank) : (s.setBank b x).teams = s.teams := rfl
@[simp] theorem State.setBank_grids (b : Nat) (x : Bank) : (s.setBank b x).grids = s.grids := rfl
@[simp] theorem State.setBank_banks (b : Nat) (x : Bank) : (s.setBank b x).banks = s.banks.set b x := rfl
@[simp] theorem State.setBank_cores (b : Nat) (x : Bank) : (s.setBank b x).cores = s.cores := rfl
@[simp] theorem State.setBank_clusters (b : Nat) (x : Bank) : (s.setBank b x).clusters = s.clusters := rfl
@[simp] theorem State.setBank_dies (b : Nat) (x : Bank) : (s.setBank b x).dies = s.dies := rfl
@[simp] theorem State.setBank_device (b : Nat) (x : Bank) : (s.setBank b x).device = s.device := rfl
@[simp] theorem State.setBank_flights (b : Nat) (x : Bank) : (s.setBank b x).flights = s.flights := rfl
@[simp] theorem State.setBank_stores (b : Nat) (x : Bank) : (s.setBank b x).stores = s.stores := rfl
@[simp] theorem State.setBank_loads (b : Nat) (x : Bank) : (s.setBank b x).loads = s.loads := rfl
@[simp] theorem State.setBank_atomics (b : Nat) (x : Bank) : (s.setBank b x).atomics = s.atomics := rfl
@[simp] theorem State.setBank_watches (b : Nat) (x : Bank) : (s.setBank b x).watches = s.watches := rfl
@[simp] theorem State.setBank_updates (b : Nat) (x : Bank) : (s.setBank b x).updates = s.updates := rfl
@[simp] theorem State.setBank_walks (b : Nat) (x : Bank) : (s.setBank b x).walks = s.walks := rfl
@[simp] theorem State.setBank_parks (b : Nat) (x : Bank) : (s.setBank b x).parks = s.parks := rfl
@[simp] theorem State.setBank_pending (b : Nat) (x : Bank) : (s.setBank b x).pending = s.pending := rfl
@[simp] theorem State.setBank_turns (b : Nat) (x : Bank) : (s.setBank b x).turns = s.turns := rfl
@[simp] theorem State.setBank_issue (b : Nat) (x : Bank) : (s.setBank b x).issue = s.issue := rfl
@[simp] theorem State.setBank_cur (b : Nat) (x : Bank) : (s.setBank b x).cur = s.cur := rfl
@[simp] theorem State.setBank_nextId (b : Nat) (x : Bank) : (s.setBank b x).nextId = s.nextId := rfl
@[simp] theorem State.setBank_freeCount (b : Nat) (x : Bank) : (s.setBank b x).freeCount = s.freeCount := rfl

@[simp] theorem State.setCluster_mem (c : Nat) (x : Cluster) : (s.setCluster c x).mem = s.mem := rfl
@[simp] theorem State.setCluster_poison (c : Nat) (x : Cluster) : (s.setCluster c x).poison = s.poison := rfl
@[simp] theorem State.setCluster_strands (c : Nat) (x : Cluster) : (s.setCluster c x).strands = s.strands := rfl
@[simp] theorem State.setCluster_waves (c : Nat) (x : Cluster) : (s.setCluster c x).waves = s.waves := rfl
@[simp] theorem State.setCluster_teams (c : Nat) (x : Cluster) : (s.setCluster c x).teams = s.teams := rfl
@[simp] theorem State.setCluster_grids (c : Nat) (x : Cluster) : (s.setCluster c x).grids = s.grids := rfl
@[simp] theorem State.setCluster_banks (c : Nat) (x : Cluster) : (s.setCluster c x).banks = s.banks := rfl
@[simp] theorem State.setCluster_cores (c : Nat) (x : Cluster) : (s.setCluster c x).cores = s.cores := rfl
@[simp] theorem State.setCluster_clusters (c : Nat) (x : Cluster) :
    (s.setCluster c x).clusters = s.clusters.set c x := rfl
@[simp] theorem State.setCluster_dies (c : Nat) (x : Cluster) : (s.setCluster c x).dies = s.dies := rfl
@[simp] theorem State.setCluster_device (c : Nat) (x : Cluster) : (s.setCluster c x).device = s.device := rfl
@[simp] theorem State.setCluster_flights (c : Nat) (x : Cluster) : (s.setCluster c x).flights = s.flights := rfl
@[simp] theorem State.setCluster_stores (c : Nat) (x : Cluster) : (s.setCluster c x).stores = s.stores := rfl
@[simp] theorem State.setCluster_loads (c : Nat) (x : Cluster) : (s.setCluster c x).loads = s.loads := rfl
@[simp] theorem State.setCluster_atomics (c : Nat) (x : Cluster) : (s.setCluster c x).atomics = s.atomics := rfl
@[simp] theorem State.setCluster_watches (c : Nat) (x : Cluster) : (s.setCluster c x).watches = s.watches := rfl
@[simp] theorem State.setCluster_updates (c : Nat) (x : Cluster) : (s.setCluster c x).updates = s.updates := rfl
@[simp] theorem State.setCluster_walks (c : Nat) (x : Cluster) : (s.setCluster c x).walks = s.walks := rfl
@[simp] theorem State.setCluster_parks (c : Nat) (x : Cluster) : (s.setCluster c x).parks = s.parks := rfl
@[simp] theorem State.setCluster_pending (c : Nat) (x : Cluster) : (s.setCluster c x).pending = s.pending := rfl
@[simp] theorem State.setCluster_turns (c : Nat) (x : Cluster) : (s.setCluster c x).turns = s.turns := rfl
@[simp] theorem State.setCluster_issue (c : Nat) (x : Cluster) : (s.setCluster c x).issue = s.issue := rfl
@[simp] theorem State.setCluster_cur (c : Nat) (x : Cluster) : (s.setCluster c x).cur = s.cur := rfl
@[simp] theorem State.setCluster_nextId (c : Nat) (x : Cluster) : (s.setCluster c x).nextId = s.nextId := rfl
@[simp] theorem State.setCluster_freeCount (c : Nat) (x : Cluster) : (s.setCluster c x).freeCount = s.freeCount := rfl

@[simp] theorem State.setDie_mem (d : Nat) (x : Die) : (s.setDie d x).mem = s.mem := rfl
@[simp] theorem State.setDie_poison (d : Nat) (x : Die) : (s.setDie d x).poison = s.poison := rfl
@[simp] theorem State.setDie_strands (d : Nat) (x : Die) : (s.setDie d x).strands = s.strands := rfl
@[simp] theorem State.setDie_waves (d : Nat) (x : Die) : (s.setDie d x).waves = s.waves := rfl
@[simp] theorem State.setDie_teams (d : Nat) (x : Die) : (s.setDie d x).teams = s.teams := rfl
@[simp] theorem State.setDie_grids (d : Nat) (x : Die) : (s.setDie d x).grids = s.grids := rfl
@[simp] theorem State.setDie_banks (d : Nat) (x : Die) : (s.setDie d x).banks = s.banks := rfl
@[simp] theorem State.setDie_cores (d : Nat) (x : Die) : (s.setDie d x).cores = s.cores := rfl
@[simp] theorem State.setDie_clusters (d : Nat) (x : Die) : (s.setDie d x).clusters = s.clusters := rfl
@[simp] theorem State.setDie_dies (d : Nat) (x : Die) : (s.setDie d x).dies = s.dies.set d x := rfl
@[simp] theorem State.setDie_device (d : Nat) (x : Die) : (s.setDie d x).device = s.device := rfl
@[simp] theorem State.setDie_flights (d : Nat) (x : Die) : (s.setDie d x).flights = s.flights := rfl
@[simp] theorem State.setDie_stores (d : Nat) (x : Die) : (s.setDie d x).stores = s.stores := rfl
@[simp] theorem State.setDie_loads (d : Nat) (x : Die) : (s.setDie d x).loads = s.loads := rfl
@[simp] theorem State.setDie_atomics (d : Nat) (x : Die) : (s.setDie d x).atomics = s.atomics := rfl
@[simp] theorem State.setDie_watches (d : Nat) (x : Die) : (s.setDie d x).watches = s.watches := rfl
@[simp] theorem State.setDie_updates (d : Nat) (x : Die) : (s.setDie d x).updates = s.updates := rfl
@[simp] theorem State.setDie_walks (d : Nat) (x : Die) : (s.setDie d x).walks = s.walks := rfl
@[simp] theorem State.setDie_parks (d : Nat) (x : Die) : (s.setDie d x).parks = s.parks := rfl
@[simp] theorem State.setDie_pending (d : Nat) (x : Die) : (s.setDie d x).pending = s.pending := rfl
@[simp] theorem State.setDie_turns (d : Nat) (x : Die) : (s.setDie d x).turns = s.turns := rfl
@[simp] theorem State.setDie_issue (d : Nat) (x : Die) : (s.setDie d x).issue = s.issue := rfl
@[simp] theorem State.setDie_cur (d : Nat) (x : Die) : (s.setDie d x).cur = s.cur := rfl
@[simp] theorem State.setDie_nextId (d : Nat) (x : Die) : (s.setDie d x).nextId = s.nextId := rfl
@[simp] theorem State.setDie_freeCount (d : Nat) (x : Die) : (s.setDie d x).freeCount = s.freeCount := rfl

@[simp] theorem State.setStrand_mem (k : Nat) (x : Strand) : (s.setStrand k x).mem = s.mem := rfl
@[simp] theorem State.setStrand_poison (k : Nat) (x : Strand) : (s.setStrand k x).poison = s.poison := rfl
@[simp] theorem State.setStrand_strands (k : Nat) (x : Strand) : (s.setStrand k x).strands = s.strands.set k x := rfl
@[simp] theorem State.setStrand_waves (k : Nat) (x : Strand) : (s.setStrand k x).waves = s.waves := rfl
@[simp] theorem State.setStrand_teams (k : Nat) (x : Strand) : (s.setStrand k x).teams = s.teams := rfl
@[simp] theorem State.setStrand_grids (k : Nat) (x : Strand) : (s.setStrand k x).grids = s.grids := rfl
@[simp] theorem State.setStrand_banks (k : Nat) (x : Strand) : (s.setStrand k x).banks = s.banks := rfl
@[simp] theorem State.setStrand_cores (k : Nat) (x : Strand) : (s.setStrand k x).cores = s.cores := rfl
@[simp] theorem State.setStrand_clusters (k : Nat) (x : Strand) : (s.setStrand k x).clusters = s.clusters := rfl
@[simp] theorem State.setStrand_dies (k : Nat) (x : Strand) : (s.setStrand k x).dies = s.dies := rfl
@[simp] theorem State.setStrand_device (k : Nat) (x : Strand) : (s.setStrand k x).device = s.device := rfl
@[simp] theorem State.setStrand_flights (k : Nat) (x : Strand) : (s.setStrand k x).flights = s.flights := rfl
@[simp] theorem State.setStrand_stores (k : Nat) (x : Strand) : (s.setStrand k x).stores = s.stores := rfl
@[simp] theorem State.setStrand_loads (k : Nat) (x : Strand) : (s.setStrand k x).loads = s.loads := rfl
@[simp] theorem State.setStrand_atomics (k : Nat) (x : Strand) : (s.setStrand k x).atomics = s.atomics := rfl
@[simp] theorem State.setStrand_watches (k : Nat) (x : Strand) : (s.setStrand k x).watches = s.watches := rfl
@[simp] theorem State.setStrand_updates (k : Nat) (x : Strand) : (s.setStrand k x).updates = s.updates := rfl
@[simp] theorem State.setStrand_walks (k : Nat) (x : Strand) : (s.setStrand k x).walks = s.walks := rfl
@[simp] theorem State.setStrand_parks (k : Nat) (x : Strand) : (s.setStrand k x).parks = s.parks := rfl
@[simp] theorem State.setStrand_pending (k : Nat) (x : Strand) : (s.setStrand k x).pending = s.pending := rfl
@[simp] theorem State.setStrand_turns (k : Nat) (x : Strand) : (s.setStrand k x).turns = s.turns := rfl
@[simp] theorem State.setStrand_issue (k : Nat) (x : Strand) : (s.setStrand k x).issue = s.issue := rfl
@[simp] theorem State.setStrand_cur (k : Nat) (x : Strand) : (s.setStrand k x).cur = s.cur := rfl
@[simp] theorem State.setStrand_nextId (k : Nat) (x : Strand) : (s.setStrand k x).nextId = s.nextId := rfl
@[simp] theorem State.setStrand_freeCount (k : Nat) (x : Strand) : (s.setStrand k x).freeCount = s.freeCount := rfl

@[simp] theorem State.setWave_mem (w : Nat) (x : Wave) : (s.setWave w x).mem = s.mem := rfl
@[simp] theorem State.setWave_poison (w : Nat) (x : Wave) : (s.setWave w x).poison = s.poison := rfl
@[simp] theorem State.setWave_strands (w : Nat) (x : Wave) : (s.setWave w x).strands = s.strands := rfl
@[simp] theorem State.setWave_waves (w : Nat) (x : Wave) : (s.setWave w x).waves = s.waves.set w x := rfl
@[simp] theorem State.setWave_teams (w : Nat) (x : Wave) : (s.setWave w x).teams = s.teams := rfl
@[simp] theorem State.setWave_grids (w : Nat) (x : Wave) : (s.setWave w x).grids = s.grids := rfl
@[simp] theorem State.setWave_banks (w : Nat) (x : Wave) : (s.setWave w x).banks = s.banks := rfl
@[simp] theorem State.setWave_cores (w : Nat) (x : Wave) : (s.setWave w x).cores = s.cores := rfl
@[simp] theorem State.setWave_clusters (w : Nat) (x : Wave) : (s.setWave w x).clusters = s.clusters := rfl
@[simp] theorem State.setWave_dies (w : Nat) (x : Wave) : (s.setWave w x).dies = s.dies := rfl
@[simp] theorem State.setWave_device (w : Nat) (x : Wave) : (s.setWave w x).device = s.device := rfl
@[simp] theorem State.setWave_flights (w : Nat) (x : Wave) : (s.setWave w x).flights = s.flights := rfl
@[simp] theorem State.setWave_stores (w : Nat) (x : Wave) : (s.setWave w x).stores = s.stores := rfl
@[simp] theorem State.setWave_loads (w : Nat) (x : Wave) : (s.setWave w x).loads = s.loads := rfl
@[simp] theorem State.setWave_atomics (w : Nat) (x : Wave) : (s.setWave w x).atomics = s.atomics := rfl
@[simp] theorem State.setWave_watches (w : Nat) (x : Wave) : (s.setWave w x).watches = s.watches := rfl
@[simp] theorem State.setWave_updates (w : Nat) (x : Wave) : (s.setWave w x).updates = s.updates := rfl
@[simp] theorem State.setWave_walks (w : Nat) (x : Wave) : (s.setWave w x).walks = s.walks := rfl
@[simp] theorem State.setWave_parks (w : Nat) (x : Wave) : (s.setWave w x).parks = s.parks := rfl
@[simp] theorem State.setWave_pending (w : Nat) (x : Wave) : (s.setWave w x).pending = s.pending := rfl
@[simp] theorem State.setWave_turns (w : Nat) (x : Wave) : (s.setWave w x).turns = s.turns := rfl
@[simp] theorem State.setWave_issue (w : Nat) (x : Wave) : (s.setWave w x).issue = s.issue := rfl
@[simp] theorem State.setWave_cur (w : Nat) (x : Wave) : (s.setWave w x).cur = s.cur := rfl
@[simp] theorem State.setWave_nextId (w : Nat) (x : Wave) : (s.setWave w x).nextId = s.nextId := rfl
@[simp] theorem State.setWave_freeCount (w : Nat) (x : Wave) : (s.setWave w x).freeCount = s.freeCount := rfl

@[simp] theorem State.setTeam_mem (t : Nat) (x : Team) : (s.setTeam t x).mem = s.mem := rfl
@[simp] theorem State.setTeam_poison (t : Nat) (x : Team) : (s.setTeam t x).poison = s.poison := rfl
@[simp] theorem State.setTeam_strands (t : Nat) (x : Team) : (s.setTeam t x).strands = s.strands := rfl
@[simp] theorem State.setTeam_waves (t : Nat) (x : Team) : (s.setTeam t x).waves = s.waves := rfl
@[simp] theorem State.setTeam_teams (t : Nat) (x : Team) : (s.setTeam t x).teams = s.teams.set t x := rfl
@[simp] theorem State.setTeam_grids (t : Nat) (x : Team) : (s.setTeam t x).grids = s.grids := rfl
@[simp] theorem State.setTeam_banks (t : Nat) (x : Team) : (s.setTeam t x).banks = s.banks := rfl
@[simp] theorem State.setTeam_cores (t : Nat) (x : Team) : (s.setTeam t x).cores = s.cores := rfl
@[simp] theorem State.setTeam_clusters (t : Nat) (x : Team) : (s.setTeam t x).clusters = s.clusters := rfl
@[simp] theorem State.setTeam_dies (t : Nat) (x : Team) : (s.setTeam t x).dies = s.dies := rfl
@[simp] theorem State.setTeam_device (t : Nat) (x : Team) : (s.setTeam t x).device = s.device := rfl
@[simp] theorem State.setTeam_flights (t : Nat) (x : Team) : (s.setTeam t x).flights = s.flights := rfl
@[simp] theorem State.setTeam_stores (t : Nat) (x : Team) : (s.setTeam t x).stores = s.stores := rfl
@[simp] theorem State.setTeam_loads (t : Nat) (x : Team) : (s.setTeam t x).loads = s.loads := rfl
@[simp] theorem State.setTeam_atomics (t : Nat) (x : Team) : (s.setTeam t x).atomics = s.atomics := rfl
@[simp] theorem State.setTeam_watches (t : Nat) (x : Team) : (s.setTeam t x).watches = s.watches := rfl
@[simp] theorem State.setTeam_updates (t : Nat) (x : Team) : (s.setTeam t x).updates = s.updates := rfl
@[simp] theorem State.setTeam_walks (t : Nat) (x : Team) : (s.setTeam t x).walks = s.walks := rfl
@[simp] theorem State.setTeam_parks (t : Nat) (x : Team) : (s.setTeam t x).parks = s.parks := rfl
@[simp] theorem State.setTeam_pending (t : Nat) (x : Team) : (s.setTeam t x).pending = s.pending := rfl
@[simp] theorem State.setTeam_turns (t : Nat) (x : Team) : (s.setTeam t x).turns = s.turns := rfl
@[simp] theorem State.setTeam_issue (t : Nat) (x : Team) : (s.setTeam t x).issue = s.issue := rfl
@[simp] theorem State.setTeam_cur (t : Nat) (x : Team) : (s.setTeam t x).cur = s.cur := rfl
@[simp] theorem State.setTeam_nextId (t : Nat) (x : Team) : (s.setTeam t x).nextId = s.nextId := rfl
@[simp] theorem State.setTeam_freeCount (t : Nat) (x : Team) : (s.setTeam t x).freeCount = s.freeCount := rfl

@[simp] theorem State.setGrid_mem (g : Nat) (x : Grid) : (s.setGrid g x).mem = s.mem := rfl
@[simp] theorem State.setGrid_poison (g : Nat) (x : Grid) : (s.setGrid g x).poison = s.poison := rfl
@[simp] theorem State.setGrid_strands (g : Nat) (x : Grid) : (s.setGrid g x).strands = s.strands := rfl
@[simp] theorem State.setGrid_waves (g : Nat) (x : Grid) : (s.setGrid g x).waves = s.waves := rfl
@[simp] theorem State.setGrid_teams (g : Nat) (x : Grid) : (s.setGrid g x).teams = s.teams := rfl
@[simp] theorem State.setGrid_grids (g : Nat) (x : Grid) : (s.setGrid g x).grids = s.grids.set g x := rfl
@[simp] theorem State.setGrid_banks (g : Nat) (x : Grid) : (s.setGrid g x).banks = s.banks := rfl
@[simp] theorem State.setGrid_cores (g : Nat) (x : Grid) : (s.setGrid g x).cores = s.cores := rfl
@[simp] theorem State.setGrid_clusters (g : Nat) (x : Grid) : (s.setGrid g x).clusters = s.clusters := rfl
@[simp] theorem State.setGrid_dies (g : Nat) (x : Grid) : (s.setGrid g x).dies = s.dies := rfl
@[simp] theorem State.setGrid_device (g : Nat) (x : Grid) : (s.setGrid g x).device = s.device := rfl
@[simp] theorem State.setGrid_flights (g : Nat) (x : Grid) : (s.setGrid g x).flights = s.flights := rfl
@[simp] theorem State.setGrid_stores (g : Nat) (x : Grid) : (s.setGrid g x).stores = s.stores := rfl
@[simp] theorem State.setGrid_loads (g : Nat) (x : Grid) : (s.setGrid g x).loads = s.loads := rfl
@[simp] theorem State.setGrid_atomics (g : Nat) (x : Grid) : (s.setGrid g x).atomics = s.atomics := rfl
@[simp] theorem State.setGrid_watches (g : Nat) (x : Grid) : (s.setGrid g x).watches = s.watches := rfl
@[simp] theorem State.setGrid_updates (g : Nat) (x : Grid) : (s.setGrid g x).updates = s.updates := rfl
@[simp] theorem State.setGrid_walks (g : Nat) (x : Grid) : (s.setGrid g x).walks = s.walks := rfl
@[simp] theorem State.setGrid_parks (g : Nat) (x : Grid) : (s.setGrid g x).parks = s.parks := rfl
@[simp] theorem State.setGrid_pending (g : Nat) (x : Grid) : (s.setGrid g x).pending = s.pending := rfl
@[simp] theorem State.setGrid_turns (g : Nat) (x : Grid) : (s.setGrid g x).turns = s.turns := rfl
@[simp] theorem State.setGrid_issue (g : Nat) (x : Grid) : (s.setGrid g x).issue = s.issue := rfl
@[simp] theorem State.setGrid_cur (g : Nat) (x : Grid) : (s.setGrid g x).cur = s.cur := rfl
@[simp] theorem State.setGrid_nextId (g : Nat) (x : Grid) : (s.setGrid g x).nextId = s.nextId := rfl
@[simp] theorem State.setGrid_freeCount (g : Nat) (x : Grid) : (s.setGrid g x).freeCount = s.freeCount := rfl

@[simp] theorem State.setDevice_mem (x : Device) : (s.setDevice x).mem = s.mem := rfl
@[simp] theorem State.setDevice_poison (x : Device) : (s.setDevice x).poison = s.poison := rfl
@[simp] theorem State.setDevice_strands (x : Device) : (s.setDevice x).strands = s.strands := rfl
@[simp] theorem State.setDevice_waves (x : Device) : (s.setDevice x).waves = s.waves := rfl
@[simp] theorem State.setDevice_teams (x : Device) : (s.setDevice x).teams = s.teams := rfl
@[simp] theorem State.setDevice_grids (x : Device) : (s.setDevice x).grids = s.grids := rfl
@[simp] theorem State.setDevice_banks (x : Device) : (s.setDevice x).banks = s.banks := rfl
@[simp] theorem State.setDevice_cores (x : Device) : (s.setDevice x).cores = s.cores := rfl
@[simp] theorem State.setDevice_clusters (x : Device) : (s.setDevice x).clusters = s.clusters := rfl
@[simp] theorem State.setDevice_dies (x : Device) : (s.setDevice x).dies = s.dies := rfl
@[simp] theorem State.setDevice_device (x : Device) : (s.setDevice x).device = x := rfl
@[simp] theorem State.setDevice_flights (x : Device) : (s.setDevice x).flights = s.flights := rfl
@[simp] theorem State.setDevice_stores (x : Device) : (s.setDevice x).stores = s.stores := rfl
@[simp] theorem State.setDevice_loads (x : Device) : (s.setDevice x).loads = s.loads := rfl
@[simp] theorem State.setDevice_atomics (x : Device) : (s.setDevice x).atomics = s.atomics := rfl
@[simp] theorem State.setDevice_watches (x : Device) : (s.setDevice x).watches = s.watches := rfl
@[simp] theorem State.setDevice_updates (x : Device) : (s.setDevice x).updates = s.updates := rfl
@[simp] theorem State.setDevice_walks (x : Device) : (s.setDevice x).walks = s.walks := rfl
@[simp] theorem State.setDevice_parks (x : Device) : (s.setDevice x).parks = s.parks := rfl
@[simp] theorem State.setDevice_pending (x : Device) : (s.setDevice x).pending = s.pending := rfl
@[simp] theorem State.setDevice_turns (x : Device) : (s.setDevice x).turns = s.turns := rfl
@[simp] theorem State.setDevice_issue (x : Device) : (s.setDevice x).issue = s.issue := rfl
@[simp] theorem State.setDevice_cur (x : Device) : (s.setDevice x).cur = s.cur := rfl
@[simp] theorem State.setDevice_nextId (x : Device) : (s.setDevice x).nextId = s.nextId := rfl
@[simp] theorem State.setDevice_freeCount (x : Device) : (s.setDevice x).freeCount = s.freeCount := rfl

@[simp] theorem State.modCore_mem (c : Nat) (f : Core → Core) : (s.modCore c f).mem = s.mem := rfl
@[simp] theorem State.modCore_poison (c : Nat) (f : Core → Core) : (s.modCore c f).poison = s.poison := rfl
@[simp] theorem State.modCore_strands (c : Nat) (f : Core → Core) : (s.modCore c f).strands = s.strands := rfl
@[simp] theorem State.modCore_waves (c : Nat) (f : Core → Core) : (s.modCore c f).waves = s.waves := rfl
@[simp] theorem State.modCore_teams (c : Nat) (f : Core → Core) : (s.modCore c f).teams = s.teams := rfl
@[simp] theorem State.modCore_grids (c : Nat) (f : Core → Core) : (s.modCore c f).grids = s.grids := rfl
@[simp] theorem State.modCore_banks (c : Nat) (f : Core → Core) : (s.modCore c f).banks = s.banks := rfl
@[simp] theorem State.modCore_cores (c : Nat) (f : Core → Core) :
    (s.modCore c f).cores = s.cores.set c (f (s.core c)) := rfl
@[simp] theorem State.modCore_clusters (c : Nat) (f : Core → Core) : (s.modCore c f).clusters = s.clusters := rfl
@[simp] theorem State.modCore_dies (c : Nat) (f : Core → Core) : (s.modCore c f).dies = s.dies := rfl
@[simp] theorem State.modCore_device (c : Nat) (f : Core → Core) : (s.modCore c f).device = s.device := rfl
@[simp] theorem State.modCore_flights (c : Nat) (f : Core → Core) : (s.modCore c f).flights = s.flights := rfl
@[simp] theorem State.modCore_stores (c : Nat) (f : Core → Core) : (s.modCore c f).stores = s.stores := rfl
@[simp] theorem State.modCore_loads (c : Nat) (f : Core → Core) : (s.modCore c f).loads = s.loads := rfl
@[simp] theorem State.modCore_atomics (c : Nat) (f : Core → Core) : (s.modCore c f).atomics = s.atomics := rfl
@[simp] theorem State.modCore_watches (c : Nat) (f : Core → Core) : (s.modCore c f).watches = s.watches := rfl
@[simp] theorem State.modCore_updates (c : Nat) (f : Core → Core) : (s.modCore c f).updates = s.updates := rfl
@[simp] theorem State.modCore_walks (c : Nat) (f : Core → Core) : (s.modCore c f).walks = s.walks := rfl
@[simp] theorem State.modCore_parks (c : Nat) (f : Core → Core) : (s.modCore c f).parks = s.parks := rfl
@[simp] theorem State.modCore_pending (c : Nat) (f : Core → Core) : (s.modCore c f).pending = s.pending := rfl
@[simp] theorem State.modCore_turns (c : Nat) (f : Core → Core) : (s.modCore c f).turns = s.turns := rfl
@[simp] theorem State.modCore_issue (c : Nat) (f : Core → Core) : (s.modCore c f).issue = s.issue := rfl
@[simp] theorem State.modCore_cur (c : Nat) (f : Core → Core) : (s.modCore c f).cur = s.cur := rfl
@[simp] theorem State.modCore_nextId (c : Nat) (f : Core → Core) : (s.modCore c f).nextId = s.nextId := rfl
@[simp] theorem State.modCore_freeCount (c : Nat) (f : Core → Core) : (s.modCore c f).freeCount = s.freeCount := rfl

@[simp] theorem State.modBank_mem (b : Nat) (f : Bank → Bank) : (s.modBank b f).mem = s.mem := rfl
@[simp] theorem State.modBank_poison (b : Nat) (f : Bank → Bank) : (s.modBank b f).poison = s.poison := rfl
@[simp] theorem State.modBank_strands (b : Nat) (f : Bank → Bank) : (s.modBank b f).strands = s.strands := rfl
@[simp] theorem State.modBank_waves (b : Nat) (f : Bank → Bank) : (s.modBank b f).waves = s.waves := rfl
@[simp] theorem State.modBank_teams (b : Nat) (f : Bank → Bank) : (s.modBank b f).teams = s.teams := rfl
@[simp] theorem State.modBank_grids (b : Nat) (f : Bank → Bank) : (s.modBank b f).grids = s.grids := rfl
@[simp] theorem State.modBank_banks (b : Nat) (f : Bank → Bank) :
    (s.modBank b f).banks = s.banks.set b (f (s.bank b)) := rfl
@[simp] theorem State.modBank_cores (b : Nat) (f : Bank → Bank) : (s.modBank b f).cores = s.cores := rfl
@[simp] theorem State.modBank_clusters (b : Nat) (f : Bank → Bank) : (s.modBank b f).clusters = s.clusters := rfl
@[simp] theorem State.modBank_dies (b : Nat) (f : Bank → Bank) : (s.modBank b f).dies = s.dies := rfl
@[simp] theorem State.modBank_device (b : Nat) (f : Bank → Bank) : (s.modBank b f).device = s.device := rfl
@[simp] theorem State.modBank_flights (b : Nat) (f : Bank → Bank) : (s.modBank b f).flights = s.flights := rfl
@[simp] theorem State.modBank_stores (b : Nat) (f : Bank → Bank) : (s.modBank b f).stores = s.stores := rfl
@[simp] theorem State.modBank_loads (b : Nat) (f : Bank → Bank) : (s.modBank b f).loads = s.loads := rfl
@[simp] theorem State.modBank_atomics (b : Nat) (f : Bank → Bank) : (s.modBank b f).atomics = s.atomics := rfl
@[simp] theorem State.modBank_watches (b : Nat) (f : Bank → Bank) : (s.modBank b f).watches = s.watches := rfl
@[simp] theorem State.modBank_updates (b : Nat) (f : Bank → Bank) : (s.modBank b f).updates = s.updates := rfl
@[simp] theorem State.modBank_walks (b : Nat) (f : Bank → Bank) : (s.modBank b f).walks = s.walks := rfl
@[simp] theorem State.modBank_parks (b : Nat) (f : Bank → Bank) : (s.modBank b f).parks = s.parks := rfl
@[simp] theorem State.modBank_pending (b : Nat) (f : Bank → Bank) : (s.modBank b f).pending = s.pending := rfl
@[simp] theorem State.modBank_turns (b : Nat) (f : Bank → Bank) : (s.modBank b f).turns = s.turns := rfl
@[simp] theorem State.modBank_issue (b : Nat) (f : Bank → Bank) : (s.modBank b f).issue = s.issue := rfl
@[simp] theorem State.modBank_cur (b : Nat) (f : Bank → Bank) : (s.modBank b f).cur = s.cur := rfl
@[simp] theorem State.modBank_nextId (b : Nat) (f : Bank → Bank) : (s.modBank b f).nextId = s.nextId := rfl
@[simp] theorem State.modBank_freeCount (b : Nat) (f : Bank → Bank) : (s.modBank b f).freeCount = s.freeCount := rfl

@[simp] theorem State.modCluster_mem (c : Nat) (f : Cluster → Cluster) : (s.modCluster c f).mem = s.mem := rfl
@[simp] theorem State.modCluster_poison (c : Nat) (f : Cluster → Cluster) :
    (s.modCluster c f).poison = s.poison := rfl
@[simp] theorem State.modCluster_strands (c : Nat) (f : Cluster → Cluster) :
    (s.modCluster c f).strands = s.strands := rfl
@[simp] theorem State.modCluster_waves (c : Nat) (f : Cluster → Cluster) : (s.modCluster c f).waves = s.waves := rfl
@[simp] theorem State.modCluster_teams (c : Nat) (f : Cluster → Cluster) : (s.modCluster c f).teams = s.teams := rfl
@[simp] theorem State.modCluster_grids (c : Nat) (f : Cluster → Cluster) : (s.modCluster c f).grids = s.grids := rfl
@[simp] theorem State.modCluster_banks (c : Nat) (f : Cluster → Cluster) : (s.modCluster c f).banks = s.banks := rfl
@[simp] theorem State.modCluster_cores (c : Nat) (f : Cluster → Cluster) : (s.modCluster c f).cores = s.cores := rfl
@[simp] theorem State.modCluster_clusters (c : Nat) (f : Cluster → Cluster) :
    (s.modCluster c f).clusters = s.clusters.set c (f (s.cluster c)) := rfl
@[simp] theorem State.modCluster_dies (c : Nat) (f : Cluster → Cluster) : (s.modCluster c f).dies = s.dies := rfl
@[simp] theorem State.modCluster_device (c : Nat) (f : Cluster → Cluster) :
    (s.modCluster c f).device = s.device := rfl
@[simp] theorem State.modCluster_flights (c : Nat) (f : Cluster → Cluster) :
    (s.modCluster c f).flights = s.flights := rfl
@[simp] theorem State.modCluster_stores (c : Nat) (f : Cluster → Cluster) :
    (s.modCluster c f).stores = s.stores := rfl
@[simp] theorem State.modCluster_loads (c : Nat) (f : Cluster → Cluster) : (s.modCluster c f).loads = s.loads := rfl
@[simp] theorem State.modCluster_atomics (c : Nat) (f : Cluster → Cluster) :
    (s.modCluster c f).atomics = s.atomics := rfl
@[simp] theorem State.modCluster_watches (c : Nat) (f : Cluster → Cluster) :
    (s.modCluster c f).watches = s.watches := rfl
@[simp] theorem State.modCluster_updates (c : Nat) (f : Cluster → Cluster) :
    (s.modCluster c f).updates = s.updates := rfl
@[simp] theorem State.modCluster_walks (c : Nat) (f : Cluster → Cluster) : (s.modCluster c f).walks = s.walks := rfl
@[simp] theorem State.modCluster_parks (c : Nat) (f : Cluster → Cluster) : (s.modCluster c f).parks = s.parks := rfl
@[simp] theorem State.modCluster_pending (c : Nat) (f : Cluster → Cluster) :
    (s.modCluster c f).pending = s.pending := rfl
@[simp] theorem State.modCluster_turns (c : Nat) (f : Cluster → Cluster) : (s.modCluster c f).turns = s.turns := rfl
@[simp] theorem State.modCluster_issue (c : Nat) (f : Cluster → Cluster) : (s.modCluster c f).issue = s.issue := rfl
@[simp] theorem State.modCluster_cur (c : Nat) (f : Cluster → Cluster) : (s.modCluster c f).cur = s.cur := rfl
@[simp] theorem State.modCluster_nextId (c : Nat) (f : Cluster → Cluster) :
    (s.modCluster c f).nextId = s.nextId := rfl
@[simp] theorem State.modCluster_freeCount (c : Nat) (f : Cluster → Cluster) :
    (s.modCluster c f).freeCount = s.freeCount := rfl

@[simp] theorem State.modDie_mem (d : Nat) (f : Die → Die) : (s.modDie d f).mem = s.mem := rfl
@[simp] theorem State.modDie_poison (d : Nat) (f : Die → Die) : (s.modDie d f).poison = s.poison := rfl
@[simp] theorem State.modDie_strands (d : Nat) (f : Die → Die) : (s.modDie d f).strands = s.strands := rfl
@[simp] theorem State.modDie_waves (d : Nat) (f : Die → Die) : (s.modDie d f).waves = s.waves := rfl
@[simp] theorem State.modDie_teams (d : Nat) (f : Die → Die) : (s.modDie d f).teams = s.teams := rfl
@[simp] theorem State.modDie_grids (d : Nat) (f : Die → Die) : (s.modDie d f).grids = s.grids := rfl
@[simp] theorem State.modDie_banks (d : Nat) (f : Die → Die) : (s.modDie d f).banks = s.banks := rfl
@[simp] theorem State.modDie_cores (d : Nat) (f : Die → Die) : (s.modDie d f).cores = s.cores := rfl
@[simp] theorem State.modDie_clusters (d : Nat) (f : Die → Die) : (s.modDie d f).clusters = s.clusters := rfl
@[simp] theorem State.modDie_dies (d : Nat) (f : Die → Die) : (s.modDie d f).dies = s.dies.set d (f (s.die d)) := rfl
@[simp] theorem State.modDie_device (d : Nat) (f : Die → Die) : (s.modDie d f).device = s.device := rfl
@[simp] theorem State.modDie_flights (d : Nat) (f : Die → Die) : (s.modDie d f).flights = s.flights := rfl
@[simp] theorem State.modDie_stores (d : Nat) (f : Die → Die) : (s.modDie d f).stores = s.stores := rfl
@[simp] theorem State.modDie_loads (d : Nat) (f : Die → Die) : (s.modDie d f).loads = s.loads := rfl
@[simp] theorem State.modDie_atomics (d : Nat) (f : Die → Die) : (s.modDie d f).atomics = s.atomics := rfl
@[simp] theorem State.modDie_watches (d : Nat) (f : Die → Die) : (s.modDie d f).watches = s.watches := rfl
@[simp] theorem State.modDie_updates (d : Nat) (f : Die → Die) : (s.modDie d f).updates = s.updates := rfl
@[simp] theorem State.modDie_walks (d : Nat) (f : Die → Die) : (s.modDie d f).walks = s.walks := rfl
@[simp] theorem State.modDie_parks (d : Nat) (f : Die → Die) : (s.modDie d f).parks = s.parks := rfl
@[simp] theorem State.modDie_pending (d : Nat) (f : Die → Die) : (s.modDie d f).pending = s.pending := rfl
@[simp] theorem State.modDie_turns (d : Nat) (f : Die → Die) : (s.modDie d f).turns = s.turns := rfl
@[simp] theorem State.modDie_issue (d : Nat) (f : Die → Die) : (s.modDie d f).issue = s.issue := rfl
@[simp] theorem State.modDie_cur (d : Nat) (f : Die → Die) : (s.modDie d f).cur = s.cur := rfl
@[simp] theorem State.modDie_nextId (d : Nat) (f : Die → Die) : (s.modDie d f).nextId = s.nextId := rfl
@[simp] theorem State.modDie_freeCount (d : Nat) (f : Die → Die) : (s.modDie d f).freeCount = s.freeCount := rfl

@[simp] theorem State.modStrand_mem (k : Nat) (f : Strand → Strand) : (s.modStrand k f).mem = s.mem := rfl
@[simp] theorem State.modStrand_poison (k : Nat) (f : Strand → Strand) : (s.modStrand k f).poison = s.poison := rfl
@[simp] theorem State.modStrand_strands (k : Nat) (f : Strand → Strand) :
    (s.modStrand k f).strands = s.strands.change k f := rfl
@[simp] theorem State.modStrand_waves (k : Nat) (f : Strand → Strand) : (s.modStrand k f).waves = s.waves := rfl
@[simp] theorem State.modStrand_teams (k : Nat) (f : Strand → Strand) : (s.modStrand k f).teams = s.teams := rfl
@[simp] theorem State.modStrand_grids (k : Nat) (f : Strand → Strand) : (s.modStrand k f).grids = s.grids := rfl
@[simp] theorem State.modStrand_banks (k : Nat) (f : Strand → Strand) : (s.modStrand k f).banks = s.banks := rfl
@[simp] theorem State.modStrand_cores (k : Nat) (f : Strand → Strand) : (s.modStrand k f).cores = s.cores := rfl
@[simp] theorem State.modStrand_clusters (k : Nat) (f : Strand → Strand) :
    (s.modStrand k f).clusters = s.clusters := rfl
@[simp] theorem State.modStrand_dies (k : Nat) (f : Strand → Strand) : (s.modStrand k f).dies = s.dies := rfl
@[simp] theorem State.modStrand_device (k : Nat) (f : Strand → Strand) : (s.modStrand k f).device = s.device := rfl
@[simp] theorem State.modStrand_flights (k : Nat) (f : Strand → Strand) : (s.modStrand k f).flights = s.flights := rfl
@[simp] theorem State.modStrand_stores (k : Nat) (f : Strand → Strand) : (s.modStrand k f).stores = s.stores := rfl
@[simp] theorem State.modStrand_loads (k : Nat) (f : Strand → Strand) : (s.modStrand k f).loads = s.loads := rfl
@[simp] theorem State.modStrand_atomics (k : Nat) (f : Strand → Strand) : (s.modStrand k f).atomics = s.atomics := rfl
@[simp] theorem State.modStrand_watches (k : Nat) (f : Strand → Strand) : (s.modStrand k f).watches = s.watches := rfl
@[simp] theorem State.modStrand_updates (k : Nat) (f : Strand → Strand) : (s.modStrand k f).updates = s.updates := rfl
@[simp] theorem State.modStrand_walks (k : Nat) (f : Strand → Strand) : (s.modStrand k f).walks = s.walks := rfl
@[simp] theorem State.modStrand_parks (k : Nat) (f : Strand → Strand) : (s.modStrand k f).parks = s.parks := rfl
@[simp] theorem State.modStrand_pending (k : Nat) (f : Strand → Strand) : (s.modStrand k f).pending = s.pending := rfl
@[simp] theorem State.modStrand_turns (k : Nat) (f : Strand → Strand) : (s.modStrand k f).turns = s.turns := rfl
@[simp] theorem State.modStrand_issue (k : Nat) (f : Strand → Strand) : (s.modStrand k f).issue = s.issue := rfl
@[simp] theorem State.modStrand_cur (k : Nat) (f : Strand → Strand) : (s.modStrand k f).cur = s.cur := rfl
@[simp] theorem State.modStrand_nextId (k : Nat) (f : Strand → Strand) : (s.modStrand k f).nextId = s.nextId := rfl
@[simp] theorem State.modStrand_freeCount (k : Nat) (f : Strand → Strand) :
    (s.modStrand k f).freeCount = s.freeCount := rfl

@[simp] theorem State.modWave_mem (w : Nat) (f : Wave → Wave) : (s.modWave w f).mem = s.mem := rfl
@[simp] theorem State.modWave_poison (w : Nat) (f : Wave → Wave) : (s.modWave w f).poison = s.poison := rfl
@[simp] theorem State.modWave_strands (w : Nat) (f : Wave → Wave) : (s.modWave w f).strands = s.strands := rfl
@[simp] theorem State.modWave_waves (w : Nat) (f : Wave → Wave) : (s.modWave w f).waves = s.waves.change w f := rfl
@[simp] theorem State.modWave_teams (w : Nat) (f : Wave → Wave) : (s.modWave w f).teams = s.teams := rfl
@[simp] theorem State.modWave_grids (w : Nat) (f : Wave → Wave) : (s.modWave w f).grids = s.grids := rfl
@[simp] theorem State.modWave_banks (w : Nat) (f : Wave → Wave) : (s.modWave w f).banks = s.banks := rfl
@[simp] theorem State.modWave_cores (w : Nat) (f : Wave → Wave) : (s.modWave w f).cores = s.cores := rfl
@[simp] theorem State.modWave_clusters (w : Nat) (f : Wave → Wave) : (s.modWave w f).clusters = s.clusters := rfl
@[simp] theorem State.modWave_dies (w : Nat) (f : Wave → Wave) : (s.modWave w f).dies = s.dies := rfl
@[simp] theorem State.modWave_device (w : Nat) (f : Wave → Wave) : (s.modWave w f).device = s.device := rfl
@[simp] theorem State.modWave_flights (w : Nat) (f : Wave → Wave) : (s.modWave w f).flights = s.flights := rfl
@[simp] theorem State.modWave_stores (w : Nat) (f : Wave → Wave) : (s.modWave w f).stores = s.stores := rfl
@[simp] theorem State.modWave_loads (w : Nat) (f : Wave → Wave) : (s.modWave w f).loads = s.loads := rfl
@[simp] theorem State.modWave_atomics (w : Nat) (f : Wave → Wave) : (s.modWave w f).atomics = s.atomics := rfl
@[simp] theorem State.modWave_watches (w : Nat) (f : Wave → Wave) : (s.modWave w f).watches = s.watches := rfl
@[simp] theorem State.modWave_updates (w : Nat) (f : Wave → Wave) : (s.modWave w f).updates = s.updates := rfl
@[simp] theorem State.modWave_walks (w : Nat) (f : Wave → Wave) : (s.modWave w f).walks = s.walks := rfl
@[simp] theorem State.modWave_parks (w : Nat) (f : Wave → Wave) : (s.modWave w f).parks = s.parks := rfl
@[simp] theorem State.modWave_pending (w : Nat) (f : Wave → Wave) : (s.modWave w f).pending = s.pending := rfl
@[simp] theorem State.modWave_turns (w : Nat) (f : Wave → Wave) : (s.modWave w f).turns = s.turns := rfl
@[simp] theorem State.modWave_issue (w : Nat) (f : Wave → Wave) : (s.modWave w f).issue = s.issue := rfl
@[simp] theorem State.modWave_cur (w : Nat) (f : Wave → Wave) : (s.modWave w f).cur = s.cur := rfl
@[simp] theorem State.modWave_nextId (w : Nat) (f : Wave → Wave) : (s.modWave w f).nextId = s.nextId := rfl
@[simp] theorem State.modWave_freeCount (w : Nat) (f : Wave → Wave) : (s.modWave w f).freeCount = s.freeCount := rfl

@[simp] theorem State.modTeam_mem (t : Nat) (f : Team → Team) : (s.modTeam t f).mem = s.mem := rfl
@[simp] theorem State.modTeam_poison (t : Nat) (f : Team → Team) : (s.modTeam t f).poison = s.poison := rfl
@[simp] theorem State.modTeam_strands (t : Nat) (f : Team → Team) : (s.modTeam t f).strands = s.strands := rfl
@[simp] theorem State.modTeam_waves (t : Nat) (f : Team → Team) : (s.modTeam t f).waves = s.waves := rfl
@[simp] theorem State.modTeam_teams (t : Nat) (f : Team → Team) : (s.modTeam t f).teams = s.teams.change t f := rfl
@[simp] theorem State.modTeam_grids (t : Nat) (f : Team → Team) : (s.modTeam t f).grids = s.grids := rfl
@[simp] theorem State.modTeam_banks (t : Nat) (f : Team → Team) : (s.modTeam t f).banks = s.banks := rfl
@[simp] theorem State.modTeam_cores (t : Nat) (f : Team → Team) : (s.modTeam t f).cores = s.cores := rfl
@[simp] theorem State.modTeam_clusters (t : Nat) (f : Team → Team) : (s.modTeam t f).clusters = s.clusters := rfl
@[simp] theorem State.modTeam_dies (t : Nat) (f : Team → Team) : (s.modTeam t f).dies = s.dies := rfl
@[simp] theorem State.modTeam_device (t : Nat) (f : Team → Team) : (s.modTeam t f).device = s.device := rfl
@[simp] theorem State.modTeam_flights (t : Nat) (f : Team → Team) : (s.modTeam t f).flights = s.flights := rfl
@[simp] theorem State.modTeam_stores (t : Nat) (f : Team → Team) : (s.modTeam t f).stores = s.stores := rfl
@[simp] theorem State.modTeam_loads (t : Nat) (f : Team → Team) : (s.modTeam t f).loads = s.loads := rfl
@[simp] theorem State.modTeam_atomics (t : Nat) (f : Team → Team) : (s.modTeam t f).atomics = s.atomics := rfl
@[simp] theorem State.modTeam_watches (t : Nat) (f : Team → Team) : (s.modTeam t f).watches = s.watches := rfl
@[simp] theorem State.modTeam_updates (t : Nat) (f : Team → Team) : (s.modTeam t f).updates = s.updates := rfl
@[simp] theorem State.modTeam_walks (t : Nat) (f : Team → Team) : (s.modTeam t f).walks = s.walks := rfl
@[simp] theorem State.modTeam_parks (t : Nat) (f : Team → Team) : (s.modTeam t f).parks = s.parks := rfl
@[simp] theorem State.modTeam_pending (t : Nat) (f : Team → Team) : (s.modTeam t f).pending = s.pending := rfl
@[simp] theorem State.modTeam_turns (t : Nat) (f : Team → Team) : (s.modTeam t f).turns = s.turns := rfl
@[simp] theorem State.modTeam_issue (t : Nat) (f : Team → Team) : (s.modTeam t f).issue = s.issue := rfl
@[simp] theorem State.modTeam_cur (t : Nat) (f : Team → Team) : (s.modTeam t f).cur = s.cur := rfl
@[simp] theorem State.modTeam_nextId (t : Nat) (f : Team → Team) : (s.modTeam t f).nextId = s.nextId := rfl
@[simp] theorem State.modTeam_freeCount (t : Nat) (f : Team → Team) : (s.modTeam t f).freeCount = s.freeCount := rfl

@[simp] theorem State.modGrid_mem (g : Nat) (f : Grid → Grid) : (s.modGrid g f).mem = s.mem := rfl
@[simp] theorem State.modGrid_poison (g : Nat) (f : Grid → Grid) : (s.modGrid g f).poison = s.poison := rfl
@[simp] theorem State.modGrid_strands (g : Nat) (f : Grid → Grid) : (s.modGrid g f).strands = s.strands := rfl
@[simp] theorem State.modGrid_waves (g : Nat) (f : Grid → Grid) : (s.modGrid g f).waves = s.waves := rfl
@[simp] theorem State.modGrid_teams (g : Nat) (f : Grid → Grid) : (s.modGrid g f).teams = s.teams := rfl
@[simp] theorem State.modGrid_grids (g : Nat) (f : Grid → Grid) : (s.modGrid g f).grids = s.grids.change g f := rfl
@[simp] theorem State.modGrid_banks (g : Nat) (f : Grid → Grid) : (s.modGrid g f).banks = s.banks := rfl
@[simp] theorem State.modGrid_cores (g : Nat) (f : Grid → Grid) : (s.modGrid g f).cores = s.cores := rfl
@[simp] theorem State.modGrid_clusters (g : Nat) (f : Grid → Grid) : (s.modGrid g f).clusters = s.clusters := rfl
@[simp] theorem State.modGrid_dies (g : Nat) (f : Grid → Grid) : (s.modGrid g f).dies = s.dies := rfl
@[simp] theorem State.modGrid_device (g : Nat) (f : Grid → Grid) : (s.modGrid g f).device = s.device := rfl
@[simp] theorem State.modGrid_flights (g : Nat) (f : Grid → Grid) : (s.modGrid g f).flights = s.flights := rfl
@[simp] theorem State.modGrid_stores (g : Nat) (f : Grid → Grid) : (s.modGrid g f).stores = s.stores := rfl
@[simp] theorem State.modGrid_loads (g : Nat) (f : Grid → Grid) : (s.modGrid g f).loads = s.loads := rfl
@[simp] theorem State.modGrid_atomics (g : Nat) (f : Grid → Grid) : (s.modGrid g f).atomics = s.atomics := rfl
@[simp] theorem State.modGrid_watches (g : Nat) (f : Grid → Grid) : (s.modGrid g f).watches = s.watches := rfl
@[simp] theorem State.modGrid_updates (g : Nat) (f : Grid → Grid) : (s.modGrid g f).updates = s.updates := rfl
@[simp] theorem State.modGrid_walks (g : Nat) (f : Grid → Grid) : (s.modGrid g f).walks = s.walks := rfl
@[simp] theorem State.modGrid_parks (g : Nat) (f : Grid → Grid) : (s.modGrid g f).parks = s.parks := rfl
@[simp] theorem State.modGrid_pending (g : Nat) (f : Grid → Grid) : (s.modGrid g f).pending = s.pending := rfl
@[simp] theorem State.modGrid_turns (g : Nat) (f : Grid → Grid) : (s.modGrid g f).turns = s.turns := rfl
@[simp] theorem State.modGrid_issue (g : Nat) (f : Grid → Grid) : (s.modGrid g f).issue = s.issue := rfl
@[simp] theorem State.modGrid_cur (g : Nat) (f : Grid → Grid) : (s.modGrid g f).cur = s.cur := rfl
@[simp] theorem State.modGrid_nextId (g : Nat) (f : Grid → Grid) : (s.modGrid g f).nextId = s.nextId := rfl
@[simp] theorem State.modGrid_freeCount (g : Nat) (f : Grid → Grid) : (s.modGrid g f).freeCount = s.freeCount := rfl

@[simp] theorem State.noteAccess_mem (l p n a : Nat) (b : Bool) : (s.noteAccess l p n a b).mem = s.mem := rfl
@[simp] theorem State.noteAccess_poison (l p n a : Nat) (b : Bool) : (s.noteAccess l p n a b).poison = s.poison := rfl
@[simp] theorem State.noteAccess_strands (l p n a : Nat) (b : Bool) :
    (s.noteAccess l p n a b).strands = s.strands := rfl
@[simp] theorem State.noteAccess_waves (l p n a : Nat) (b : Bool) : (s.noteAccess l p n a b).waves = s.waves := rfl
@[simp] theorem State.noteAccess_teams (l p n a : Nat) (b : Bool) : (s.noteAccess l p n a b).teams = s.teams := rfl
@[simp] theorem State.noteAccess_grids (l p n a : Nat) (b : Bool) : (s.noteAccess l p n a b).grids = s.grids := rfl
@[simp] theorem State.noteAccess_banks (l p n a : Nat) (b : Bool) : (s.noteAccess l p n a b).banks = s.banks := rfl
@[simp] theorem State.noteAccess_cores (l p n a : Nat) (b : Bool) : (s.noteAccess l p n a b).cores = s.cores := rfl
@[simp] theorem State.noteAccess_clusters (l p n a : Nat) (b : Bool) :
    (s.noteAccess l p n a b).clusters = s.clusters := rfl
@[simp] theorem State.noteAccess_dies (l p n a : Nat) (b : Bool) : (s.noteAccess l p n a b).dies = s.dies := rfl
@[simp] theorem State.noteAccess_device (l p n a : Nat) (b : Bool) : (s.noteAccess l p n a b).device = s.device := rfl
@[simp] theorem State.noteAccess_flights (l p n a : Nat) (b : Bool) :
    (s.noteAccess l p n a b).flights = s.flights := rfl
@[simp] theorem State.noteAccess_stores (l p n a : Nat) (b : Bool) : (s.noteAccess l p n a b).stores = s.stores := rfl
@[simp] theorem State.noteAccess_loads (l p n a : Nat) (b : Bool) : (s.noteAccess l p n a b).loads = s.loads := rfl
@[simp] theorem State.noteAccess_atomics (l p n a : Nat) (b : Bool) :
    (s.noteAccess l p n a b).atomics = s.atomics := rfl
@[simp] theorem State.noteAccess_watches (l p n a : Nat) (b : Bool) :
    (s.noteAccess l p n a b).watches = s.watches := rfl
@[simp] theorem State.noteAccess_updates (l p n a : Nat) (b : Bool) :
    (s.noteAccess l p n a b).updates = s.updates := rfl
@[simp] theorem State.noteAccess_walks (l p n a : Nat) (b : Bool) : (s.noteAccess l p n a b).walks = s.walks := rfl
@[simp] theorem State.noteAccess_parks (l p n a : Nat) (b : Bool) : (s.noteAccess l p n a b).parks = s.parks := rfl
@[simp] theorem State.noteAccess_pending (l p n a : Nat) (b : Bool) :
    (s.noteAccess l p n a b).pending = s.pending := rfl
@[simp] theorem State.noteAccess_turns (l p n a : Nat) (b : Bool) : (s.noteAccess l p n a b).turns = s.turns := rfl
@[simp] theorem State.noteAccess_cur (l p n a : Nat) (b : Bool) : (s.noteAccess l p n a b).cur = s.cur := rfl
@[simp] theorem State.noteAccess_nextId (l p n a : Nat) (b : Bool) : (s.noteAccess l p n a b).nextId = s.nextId := rfl
@[simp] theorem State.noteAccess_freeCount (l p n a : Nat) (b : Bool) :
    (s.noteAccess l p n a b).freeCount = s.freeCount := rfl

@[simp] theorem State.pokeAll_mem (l : List Host.Cell) :
    (s.pokeAll l).mem = Memory.writeAll s.mem (l.map fun c => (memKey c.1, c.2)) := rfl
@[simp] theorem State.pokeAll_poison (l : List Host.Cell) : (s.pokeAll l).poison = s.poison := rfl
@[simp] theorem State.pokeAll_strands (l : List Host.Cell) : (s.pokeAll l).strands = s.strands := rfl
@[simp] theorem State.pokeAll_waves (l : List Host.Cell) : (s.pokeAll l).waves = s.waves := rfl
@[simp] theorem State.pokeAll_teams (l : List Host.Cell) : (s.pokeAll l).teams = s.teams := rfl
@[simp] theorem State.pokeAll_grids (l : List Host.Cell) : (s.pokeAll l).grids = s.grids := rfl
@[simp] theorem State.pokeAll_banks (l : List Host.Cell) : (s.pokeAll l).banks = s.banks := rfl
@[simp] theorem State.pokeAll_cores (l : List Host.Cell) : (s.pokeAll l).cores = s.cores := rfl
@[simp] theorem State.pokeAll_clusters (l : List Host.Cell) : (s.pokeAll l).clusters = s.clusters := rfl
@[simp] theorem State.pokeAll_dies (l : List Host.Cell) : (s.pokeAll l).dies = s.dies := rfl
@[simp] theorem State.pokeAll_device (l : List Host.Cell) : (s.pokeAll l).device = s.device := rfl
@[simp] theorem State.pokeAll_flights (l : List Host.Cell) : (s.pokeAll l).flights = s.flights := rfl
@[simp] theorem State.pokeAll_stores (l : List Host.Cell) : (s.pokeAll l).stores = s.stores := rfl
@[simp] theorem State.pokeAll_loads (l : List Host.Cell) : (s.pokeAll l).loads = s.loads := rfl
@[simp] theorem State.pokeAll_atomics (l : List Host.Cell) : (s.pokeAll l).atomics = s.atomics := rfl
@[simp] theorem State.pokeAll_watches (l : List Host.Cell) : (s.pokeAll l).watches = s.watches := rfl
@[simp] theorem State.pokeAll_updates (l : List Host.Cell) : (s.pokeAll l).updates = s.updates := rfl
@[simp] theorem State.pokeAll_walks (l : List Host.Cell) : (s.pokeAll l).walks = s.walks := rfl
@[simp] theorem State.pokeAll_parks (l : List Host.Cell) : (s.pokeAll l).parks = s.parks := rfl
@[simp] theorem State.pokeAll_pending (l : List Host.Cell) : (s.pokeAll l).pending = s.pending := rfl
@[simp] theorem State.pokeAll_turns (l : List Host.Cell) : (s.pokeAll l).turns = s.turns := rfl
@[simp] theorem State.pokeAll_issue (l : List Host.Cell) : (s.pokeAll l).issue = s.issue := rfl
@[simp] theorem State.pokeAll_cur (l : List Host.Cell) : (s.pokeAll l).cur = s.cur := rfl
@[simp] theorem State.pokeAll_nextId (l : List Host.Cell) : (s.pokeAll l).nextId = s.nextId := rfl
@[simp] theorem State.pokeAll_freeCount (l : List Host.Cell) : (s.pokeAll l).freeCount = s.freeCount := rfl

@[simp] theorem State.fresh_1 : s.fresh.1 = s.nextId := rfl
@[simp] theorem State.fresh_mem : s.fresh.2.mem = s.mem := rfl
@[simp] theorem State.fresh_poison : s.fresh.2.poison = s.poison := rfl
@[simp] theorem State.fresh_strands : s.fresh.2.strands = s.strands := rfl
@[simp] theorem State.fresh_waves : s.fresh.2.waves = s.waves := rfl
@[simp] theorem State.fresh_teams : s.fresh.2.teams = s.teams := rfl
@[simp] theorem State.fresh_grids : s.fresh.2.grids = s.grids := rfl
@[simp] theorem State.fresh_banks : s.fresh.2.banks = s.banks := rfl
@[simp] theorem State.fresh_cores : s.fresh.2.cores = s.cores := rfl
@[simp] theorem State.fresh_clusters : s.fresh.2.clusters = s.clusters := rfl
@[simp] theorem State.fresh_dies : s.fresh.2.dies = s.dies := rfl
@[simp] theorem State.fresh_device : s.fresh.2.device = s.device := rfl
@[simp] theorem State.fresh_flights : s.fresh.2.flights = s.flights := rfl
@[simp] theorem State.fresh_stores : s.fresh.2.stores = s.stores := rfl
@[simp] theorem State.fresh_loads : s.fresh.2.loads = s.loads := rfl
@[simp] theorem State.fresh_atomics : s.fresh.2.atomics = s.atomics := rfl
@[simp] theorem State.fresh_watches : s.fresh.2.watches = s.watches := rfl
@[simp] theorem State.fresh_updates : s.fresh.2.updates = s.updates := rfl
@[simp] theorem State.fresh_walks : s.fresh.2.walks = s.walks := rfl
@[simp] theorem State.fresh_parks : s.fresh.2.parks = s.parks := rfl
@[simp] theorem State.fresh_pending : s.fresh.2.pending = s.pending := rfl
@[simp] theorem State.fresh_turns : s.fresh.2.turns = s.turns := rfl
@[simp] theorem State.fresh_issue : s.fresh.2.issue = s.issue := rfl
@[simp] theorem State.fresh_cur : s.fresh.2.cur = s.cur := rfl
@[simp] theorem State.fresh_nextId : s.fresh.2.nextId = s.nextId + 1 := rfl
@[simp] theorem State.fresh_freeCount : s.fresh.2.freeCount = s.freeCount := rfl

@[simp] theorem State.free_1 : s.free.1 = s.freeCount := rfl
@[simp] theorem State.free_mem : s.free.2.mem = s.mem := rfl
@[simp] theorem State.free_poison : s.free.2.poison = s.poison := rfl
@[simp] theorem State.free_strands : s.free.2.strands = s.strands := rfl
@[simp] theorem State.free_waves : s.free.2.waves = s.waves := rfl
@[simp] theorem State.free_teams : s.free.2.teams = s.teams := rfl
@[simp] theorem State.free_grids : s.free.2.grids = s.grids := rfl
@[simp] theorem State.free_banks : s.free.2.banks = s.banks := rfl
@[simp] theorem State.free_cores : s.free.2.cores = s.cores := rfl
@[simp] theorem State.free_clusters : s.free.2.clusters = s.clusters := rfl
@[simp] theorem State.free_dies : s.free.2.dies = s.dies := rfl
@[simp] theorem State.free_device : s.free.2.device = s.device := rfl
@[simp] theorem State.free_flights : s.free.2.flights = s.flights := rfl
@[simp] theorem State.free_stores : s.free.2.stores = s.stores := rfl
@[simp] theorem State.free_loads : s.free.2.loads = s.loads := rfl
@[simp] theorem State.free_atomics : s.free.2.atomics = s.atomics := rfl
@[simp] theorem State.free_watches : s.free.2.watches = s.watches := rfl
@[simp] theorem State.free_updates : s.free.2.updates = s.updates := rfl
@[simp] theorem State.free_walks : s.free.2.walks = s.walks := rfl
@[simp] theorem State.free_parks : s.free.2.parks = s.parks := rfl
@[simp] theorem State.free_pending : s.free.2.pending = s.pending := rfl
@[simp] theorem State.free_turns : s.free.2.turns = s.turns := rfl
@[simp] theorem State.free_issue : s.free.2.issue = s.issue := rfl
@[simp] theorem State.free_cur : s.free.2.cur = s.cur := rfl
@[simp] theorem State.free_nextId : s.free.2.nextId = s.nextId := rfl
@[simp] theorem State.free_freeCount : s.free.2.freeCount = s.freeCount + 1 := rfl

end Sys2Proof.Machine
end

