-- ==== Sys2Proof/Tests/Slice0.lean ====
section
/-!
SUPPORT. The model's own tests: ill-formed terms that the checks refuse, a word of every instruction written out from the
opcode table, steps whose results are worked examples of spec/ or computed by hand from its rules, and for each
statement with hypotheses a state and operands that meet them.
-/

namespace Sys2Proof.Tests

open Sys2Proof.Machine
open Sys2Proof.Safety

set_option Elab.async false
/-! ### A small machine -/

/-- A Ready strand at 0x400010 whose listed registers hold values. -/
def strand (regs : List (Nat × Word)) : Strand :=
  { Strand.fresh 0x400010 true 0 with regs := regs.map fun p => (p.1, Reg.of p.2 false) }

def grid : Grid := { placedGrid with asid := 3, level := 0 }

def team : Team := { Team.fresh 5 2 0 [0] 4096 [0, 1] [0, 1, 2] with accs := [(0, Acc.empty 0x10000002)] }

def wave : Wave := Wave.fresh 16 1 0 7 5 64

/-- One wave of sixteen lanes with 64 registers in bank 0 of core 0; its lane 0 executes at level 0. -/
def lane (regs : List (Nat × Word)) : State :=
  { State.reset with
    strands := [(0, strand regs)], waves := [(0, wave)], teams := [(7, team)], grids := [(5, grid)]
    banks := [(0, { Bank.reset with asid := some 3, mapping := 8, order := [⟨0, none⟩] })]
    cur := { strand := 0, bundle := 0x400010, word := 0x400010, hints := {} } }

/-- What the executing lane's instruction sees. -/
def envOf (s : State) : Env :=
  s.env.getD { s := s, key := 0, st := strand [], waveKey := 0, wave := wave, bankKey := 0, bank := Bank.reset, here := 0,
               hints := {}, hs := none }

/-- Whether an outcome is a next state with a property. -/
def after (o : Out) (p : State → Bool) : Bool := match o with | .next t => p t | _ => false

/-- The newest value that a register or a predicate of the executing strand holds, and its FSTAT. -/
def reg (s : State) (n : Nat) : Option Word := (s.strands.find s.cur.strand).bind fun st => newest st (.v n)
def pred (s : State) (n : Nat) : Option Word := (s.strands.find s.cur.strand).bind fun st => newest st (.p n)
def fstat (s : State) : Option Word := (s.strands.find s.cur.strand).map (·.fstat)
def life (s : State) : Option Life := (s.strands.find s.cur.strand).map (·.life)

/-- An issue with nothing left to execute. -/
def endedIssue (writes : List (Nat × Nat × Dword)) : Issue :=
  { core := 0, wave := 0, cls := 0x21, number := 4, remaining := [], accesses := [], clock := none, differ := [], late := [],
    before := [], tlb := [], unserved := 0, writes := writes }

theorem has_of {e : Env} {n : Nat} (h : decide (n < e.wave.alloc) = true) : Has e n :=
  (of_decide_eq_true h : n < e.wave.alloc)

theorem reads_of {e : Env} {n : Nat} {x : Word} (h : decide (n < e.wave.alloc) = true)
    (hr : (match e.read n with | .ok (y, p) => y == x && !p | .error _ => false) = true) : Reads e n x := by
  refine ⟨has_of h, ?_⟩
  split at hr
  · next y p hy => simp_all
  · cases hr

theorem readsPair_of {e : Env} {n : Nat} {x : Dword} (h : decide (n + 1 < e.wave.alloc) = true)
    (lo : (match e.read n with | .ok (y, p) => y == x.setWidth 32 && !p | .error _ => false) = true)
    (hi : (match e.read (n + 1) with | .ok (y, p) => y == (x >>> 32).setWidth 32 && !p | .error _ => false) = true) :
    ReadsPair e n x :=
  ⟨reads_of (decide_eq_true (Nat.lt_of_succ_lt (of_decide_eq_true h))) lo, reads_of h hi⟩

/-! ### Words written out from the encoding tables (R55 to R73) -/

theorem test_decode_hint :
    decodeWord 0x00000056 = .ok (.hs 86) := by decide

theorem test_decode_ialu :
    decodeWord 0x0434EA5A = .ok (.add 1 83 84 90) ∧
    decodeWord 0x0474EA5A = .ok (.sub 1 83 84 90) ∧
    decodeWord 0x04B4EA5A = .ok (.and 1 83 84 90) ∧
    decodeWord 0x04F4EA5A = .ok (.or 1 83 84 90) ∧
    decodeWord 0x0534EA5A = .ok (.xor 1 83 84 90) ∧
    decodeWord 0x0574EA5A = .ok (.andn 1 83 84 90) ∧
    decodeWord 0x05B4EA5A = .ok (.min 1 83 84 90) ∧
    decodeWord 0x05F4EA5A = .ok (.max 1 83 84 90) ∧
    decodeWord 0x0634EA5A = .ok (.minb 1 83 84 90) ∧
    decodeWord 0x0674EA5A = .ok (.maxb 1 83 84 90) ∧
    decodeWord 0x06B4EA00 = .ok (.abs 1 83 84) ∧
    decodeWord 0x06F4EA5A = .ok (.addc 1 83 84 90) ∧
    decodeWord 0x0734EA5A = .ok (.subb 1 83 84 90) ∧
    decodeWord 0x0774EA5A = .ok (.adds 1 83 84 90) ∧
    decodeWord 0x07B4EA5A = .ok (.subs 1 83 84 90) ∧
    decodeWord 0x07F4EA00 = .ok (.neg 1 83 84) := by decide

theorem test_decode_ialui :
    decodeWord 0x0834EA5A = .ok (.addImm 1 83 84 90) ∧
    decodeWord 0x0874EA5A = .ok (.subImm 1 83 84 90) ∧
    decodeWord 0x08B4EA5A = .ok (.andImm 1 83 84 90) ∧
    decodeWord 0x08F4EA5A = .ok (.orImm 1 83 84 90) ∧
    decodeWord 0x0934EA5A = .ok (.xorImm 1 83 84 90) ∧
    decodeWord 0x0974EA5A = .ok (.andnImm 1 83 84 90) ∧
    decodeWord 0x09B4EA5A = .ok (.minImm 1 83 84 90) ∧
    decodeWord 0x09F4EA5A = .ok (.maxImm 1 83 84 90) ∧
    decodeWord 0x0A34EA5A = .ok (.minbImm 1 83 84 90) ∧
    decodeWord 0x0A74EA5A = .ok (.maxbImm 1 83 84 90) ∧
    decodeWord 0x0AF4EA5A = .ok (.addcImm 1 83 84 90) ∧
    decodeWord 0x0B34EA5A = .ok (.subbImm 1 83 84 90) ∧
    decodeWord 0x0B74EA5A = .ok (.addsImm 1 83 84 90) ∧
    decodeWord 0x0BB4EA5A = .ok (.subsImm 1 83 84 90) := by decide

theorem test_decode_shift :
    decodeWord 0x0C34EA5A = .ok (.shl 1 83 84 90) ∧
    decodeWord 0x0C74EA5A = .ok (.shr 1 83 84 90) ∧
    decodeWord 0x0CB4EA5A = .ok (.sar 1 83 84 90) ∧
    decodeWord 0x0CF4EA5A = .ok (.rol 1 83 84 90) ∧
    decodeWord 0x0D34EA5A = .ok (.bfx 1 83 84 90) ∧
    decodeWord 0x0D74EA5A = .ok (.bfxb 1 83 84 90) ∧
    decodeWord 0x0DB4EA5A = .ok (.bfi 1 83 84 90) ∧
    decodeWord 0x0DF4EA00 = .ok (.clz 1 83 84) ∧
    decodeWord 0x0E34EA00 = .ok (.popc 1 83 84) ∧
    decodeWord 0x0E74EA00 = .ok (.brev 1 83 84) ∧
    decodeWord 0x0EB4EA5A = .ok (.prmt 1 83 84 90) ∧
    decodeWord 0x0EF4EA5A = .ok (.fshf 1 83 84 90) := by decide

theorem test_decode_imul :
    decodeWord 0x1034EA5A = .ok (.mul 1 83 84 90) ∧
    decodeWord 0x1074EA5A = .ok (.mulhi 1 83 84 90) ∧
    decodeWord 0x10B4EA5A = .ok (.mulhib 1 83 84 90) ∧
    decodeWord 0x10F4EA5A = .ok (.mad 1 83 84 90) ∧
    decodeWord 0x1134EA5A = .ok (.madhi 1 83 84 90) ∧
    decodeWord 0x1174EA5A = .ok (.madhib 1 83 84 90) := by decide

theorem test_decode_idiv :
    decodeWord 0x1415A9D4 = .ok (.div 86 83 84) ∧
    decodeWord 0x1455A9D4 = .ok (.divb 86 83 84) ∧
    decodeWord 0x1495A9D4 = .ok (.rem 86 83 84) ∧
    decodeWord 0x14D5A9D4 = .ok (.remb 86 83 84) := by decide

theorem test_decode_icmp :
    decodeWord 0x1940AA5A = .ok (.cmp 5 2 84 90) ∧
    decodeWord 0x1960AA5A = .ok (.cmpi 5 2 84 90) := by decide

theorem test_decode_move :
    decodeWord 0x1C34EA00 = .ok (.mov 1 83 84) ∧
    decodeWord 0x1C74C054 = .ok (.movi 1 83 84) ∧
    decodeWord 0x1CB4C054 = .ok (.rdsr 1 83 84) ∧
    decodeWord 0x1CF4C180 = .ok (.rdw 1 83 3) ∧
    decodeWord 0x1D34C180 = .ok (.rdk 1 83 3) ∧
    decodeWord 0x1D402B00 = .ok (.movToFstat 86) ∧
    decodeWord 0x1DB4C000 = .ok (.movFromFstat 1 83) ∧
    decodeWord 0x1F752D57 = .ok (.sel 5 1 84 90 87) := by decide

theorem test_decode_pred :
    decodeWord 0x20014103 = .ok (.pand 5 2 3) ∧
    decodeWord 0x20414103 = .ok (.por 5 2 3) ∧
    decodeWord 0x20814103 = .ok (.pxor 5 2 3) ∧
    decodeWord 0x20C14100 = .ok (.pnot 5 2) ∧
    decodeWord 0x21016980 = .ok (.pset 5 83) ∧
    decodeWord 0x21414100 = .ok (.pmov 5 2) := by decide

theorem test_decode_addr :
    decodeWord 0x2434EA09 = .ok (.lea 1 83 84 9) ∧
    decodeWord 0x2474EA5A = .ok (.add64 1 83 84 90) ∧
    decodeWord 0x24B4EA5A = .ok (.sub64 1 83 84 90) ∧
    decodeWord 0x24F4EA5A = .ok (.shl64 1 83 84 90) ∧
    decodeWord 0x2534EA5A = .ok (.mulw 1 83 84 90) ∧
    decodeWord 0x254AAA5A = .ok (.cmp64 5 2 84 90) := by decide

theorem test_decode_fadd :
    decodeWord 0x2834EA5A = .ok (.fadd 1 83 84 90) ∧
    decodeWord 0x2874EA5A = .ok (.fsub 1 83 84 90) ∧
    decodeWord 0x28B4EA5A = .ok (.fmin 1 83 84 90) ∧
    decodeWord 0x28F4EA5A = .ok (.fmax 1 83 84 90) := by decide

theorem test_decode_fmul :
    decodeWord 0x2C34EA5A = .ok (.fmul 1 83 84 90) ∧
    decodeWord 0x2C74EA5A = .ok (.fscale 1 83 84 90) := by decide

theorem test_decode_ffma :
    decodeWord 0x3034EA5A = .ok (.ffma 1 83 84 90) ∧
    decodeWord 0x3074EA5A = .ok (.ffms 1 83 84 90) ∧
    decodeWord 0x30B4EA5A = .ok (.fnma 1 83 84 90) ∧
    decodeWord 0x30F4EA5A = .ok (.fnms 1 83 84 90) := by decide

theorem test_decode_fcmp :
    decodeWord 0x3540AA5A = .ok (.fcmp 5 2 84 90) ∧
    decodeWord 0x3634EA00 = .ok (.fclass 1 83 84) := by decide

theorem test_decode_fmisc :
    decodeWord 0x3834EA00 = .ok (.frnd 1 83 84) ∧
    decodeWord 0x3874EA5A = .ok (.fcpys 1 83 84 90) ∧
    decodeWord 0x38B4EA00 = .ok (.fabs 1 83 84) ∧
    decodeWord 0x38F4EA00 = .ok (.fneg 1 83 84) ∧
    decodeWord 0x3934EA00 = .ok (.ffrac 1 83 84) := by decide

theorem test_decode_sfu :
    decodeWord 0x3C15A980 = .ok (.frcp 86 83) ∧
    decodeWord 0x3C55A980 = .ok (.frsq 86 83) ∧
    decodeWord 0x3C95A980 = .ok (.fsqrt 86 83) ∧
    decodeWord 0x3CD5A9D4 = .ok (.fdiv 86 83 84) ∧
    decodeWord 0x3D15A980 = .ok (.fexp2 86 83) ∧
    decodeWord 0x3D55A980 = .ok (.flog2 86 83) ∧
    decodeWord 0x3D95A980 = .ok (.fsinp 86 83) ∧
    decodeWord 0x3DD5A980 = .ok (.fcosp 86 83) ∧
    decodeWord 0x3E15A980 = .ok (.ftanh 86 83) := by decide

theorem test_decode_cvt :
    decodeWord 0x4015A999 = .ok (.f2f 86 83 3 1) ∧
    decodeWord 0x4055A999 = .ok (.f2i 86 83 3 1) ∧
    decodeWord 0x4095A999 = .ok (.i2f 86 83 3 1) ∧
    decodeWord 0x40D5A999 = .ok (.i2i 86 83 3 1) ∧
    decodeWord 0x4115A9CE = .ok (.pack2 86 83 1 1 6) ∧
    decodeWord 0x4155A9CE = .ok (.unpack2 86 83 1 1 6) := by decide

theorem test_decode_pk16 :
    decodeWord 0x46352D57 = .ok (.hadd2 1 1 84 90 87) ∧
    decodeWord 0x46752D57 = .ok (.hsub2 1 1 84 90 87) ∧
    decodeWord 0x46B52D57 = .ok (.hmul2 1 1 84 90 87) ∧
    decodeWord 0x46F52D57 = .ok (.hfma2 1 1 84 90 87) ∧
    decodeWord 0x47352D57 = .ok (.hmin2 1 1 84 90 87) ∧
    decodeWord 0x47752D57 = .ok (.hmax2 1 1 84 90 87) := by decide

theorem test_decode_dot :
    decodeWord 0x48752D57 = .ok (.idot4 1 1 84 90 87) ∧
    decodeWord 0x48F52D57 = .ok (.fdot2 1 1 84 90 87) ∧
    decodeWord 0x49752D57 = .ok (.f8dot4 1 1 84 90 87) := by decide

theorem test_decode_nq :
    decodeWord 0x4D352D57 = .ok (.nqdec 1 1 84 90 87) ∧
    decodeWord 0x4D752D57 = .ok (.nqdecf 1 1 84 90 87) ∧
    decodeWord 0x4DB52D57 = .ok (.nqdot 1 1 84 90 87) := by decide

theorem test_decode_ld :
    decodeWord 0x50158AA1 = .ok (.ld 86 2 84 1) ∧
    decodeWord 0x50558AA1 = .ok (.lds 86 2 84 1) ∧
    decodeWord 0x50958AA1 = .ok (.lda 86 2 84 1) := by decide

theorem test_decode_st :
    decodeWord 0x54158AA1 = .ok (.st 86 2 84 1) ∧
    decodeWord 0x54558AA1 = .ok (.strel 86 2 84 1) := by decide

theorem test_decode_atom :
    decodeWord 0x5834CED6 = .ok (.aadd 1 83 3 90 6) ∧
    decodeWord 0x5874CED6 = .ok (.afadd 1 83 3 90 6) ∧
    decodeWord 0x58B4CED6 = .ok (.amin 1 83 3 90 6) ∧
    decodeWord 0x58F4CED6 = .ok (.amax 1 83 3 90 6) ∧
    decodeWord 0x5934CED6 = .ok (.aminb 1 83 3 90 6) ∧
    decodeWord 0x5974CED6 = .ok (.amaxb 1 83 3 90 6) ∧
    decodeWord 0x59B4CED6 = .ok (.aand 1 83 3 90 6) ∧
    decodeWord 0x59F4CED6 = .ok (.aor 1 83 3 90 6) ∧
    decodeWord 0x5A34CED6 = .ok (.axor 1 83 3 90 6) ∧
    decodeWord 0x5A74CED6 = .ok (.axch 1 83 3 90 6) ∧
    decodeWord 0x5AB4CED6 = .ok (.acas 1 83 3 90 6) ∧
    decodeWord 0x5AF4CED6 = .ok (.ainc 1 83 3 90 6) := by decide

theorem test_decode_hnd :
    decodeWord 0x5C14154E = .ok (.hld 5 2 84 1 6) ∧
    decodeWord 0x5C54154E = .ok (.hset 5 2 84 1 6) ∧
    decodeWord 0x5C96983E = .ok (.hrd 5 83 3 1 6) ∧
    decodeWord 0x5CD4103E = .ok (.hcpy 5 2 3 1 6) := by decide

theorem test_decode_fence :
    decodeWord 0x60000005 = .ok (.fenceAcq 5) ∧
    decodeWord 0x60400005 = .ok (.fenceRel 5) ∧
    decodeWord 0x60800005 = .ok (.fenceAr 5) ∧
    decodeWord 0x60C00005 = .ok (.fenceSc 5) ∧
    decodeWord 0x6100169B = .ok (.cwb 5 83 3) ∧
    decodeWord 0x6140169B = .ok (.cinv 5 83 3) ∧
    decodeWord 0x6180169B = .ok (.pref 5 83 3) ∧
    decodeWord 0x61D58AA1 = .ok (.waitline 86 2 84 1) := by decide

theorem test_decode_ctrl :
    decodeWord 0x64000056 = .ok (.nx 86) ∧
    decodeWord 0x64680054 = .ok (.nxc 1 2 84) ∧
    decodeWord 0x64800056 = .ok (.nxi 86) ∧
    decodeWord 0x64D40053 = .ok (.call 5 83) ∧
    decodeWord 0x65140053 = .ok (.calli 5 83) ∧
    decodeWord 0x65400056 = .ok (.ret 86) ∧
    decodeWord 0x65800000 = .ok .exit ∧
    decodeWord 0x65C00000 = .ok .yield ∧
    decodeWord 0x66000056 = .ok (.refill 86) ∧
    decodeWord 0x66400000 = .ok .region ∧
    decodeWord 0x66800056 = .ok (.trap 86) ∧
    decodeWord 0x66C00056 = .ok (.brk 86) := by decide

theorem test_decode_grp :
    decodeWord 0x6814000B = .ok (.meet 5 1 3) ∧
    decodeWord 0x6854103E = .ok (.gvoteAny 5 2 3 1 6) ∧
    decodeWord 0x6894103E = .ok (.gvoteAll 5 2 3 1 6) ∧
    decodeWord 0x68D4103E = .ok (.gvoteBallot 5 2 3 1 6) ∧
    decodeWord 0x6914154E = .ok (.gbcast 5 2 84 1 6) ∧
    decodeWord 0x69541009 = .ok (.gelect 5 2 1 1) ∧
    decodeWord 0x6994103E = .ok (.fencew 5 2 3 1 6) ∧
    decodeWord 0x69D69D49 = .ok (.gred 5 83 84 9) ∧
    decodeWord 0x6A169D49 = .ok (.gscan 5 83 84 9) := by decide

theorem test_decode_xlane :
    decodeWord 0x6CB4EA5A = .ok (.shflIdx 5 83 84 90) ∧
    decodeWord 0x6DB4EA09 = .ok (.shflUp 5 83 84 9) ∧
    decodeWord 0x6EB4EA09 = .ok (.shflDn 5 83 84 9) ∧
    decodeWord 0x6FB4EA09 = .ok (.shflXor 5 83 84 9) := by decide

theorem test_decode_cdet :
    decodeWord 0x70169D4E = .ok (.cdet 5 83 84 1 6) ∧
    decodeWord 0x70569D4E = .ok (.gcombF32 5 83 84 1 6) ∧
    decodeWord 0x70969D4E = .ok (.gcombS32 5 83 84 1 6) := by decide

theorem test_decode_wa :
    decodeWord 0x74001698 = .ok (.wacfg 5 83) ∧
    decodeWord 0x74401698 = .ok (.wapush 5 83) ∧
    decodeWord 0x74958800 = .ok (.ward 86 2) ∧
    decodeWord 0x74D58AA0 = .ok (.wapr 86 2 84) ∧
    decodeWord 0x75001400 = .ok (.waclr 5) ∧
    decodeWord 0x75558AA0 = .ok (.wastat 86 2 84) ∧
    decodeWord 0x75814AA0 = .ok (.wasave 5 2 84) ∧
    decodeWord 0x75C14AA0 = .ok (.waload 5 2 84) := by decide

theorem test_decode_mx :
    decodeWord 0x7824735C = .ok (.mxmmaBf16 1 2 3 9 87) ∧
    decodeWord 0x7864735C = .ok (.mxmmaF16 1 2 3 9 87) ∧
    decodeWord 0x78A4735C = .ok (.mxmmaE4m3 1 2 3 9 87) ∧
    decodeWord 0x78E4735C = .ok (.mxmmaE5m2 1 2 3 9 87) ∧
    decodeWord 0x7924735C = .ok (.mxmmaS8 1 2 3 9 87) ∧
    decodeWord 0x7964735C = .ok (.mxmmaNq4 1 2 3 9 87) ∧
    decodeWord 0x798A0000 = .ok (.mxz 5) ∧
    decodeWord 0x79CA4150 = .ok (.mxst 5 2 84) ∧
    decodeWord 0x7A0AA750 = .ok (.mxrd 5 83 84) ∧
    decodeWord 0x7A4A014C = .ok (.mxwr 5 83) ∧
    decodeWord 0x7A800000 = .ok .mxcommit ∧
    decodeWord 0x7AC00158 = .ok (.mxwait 86) ∧
    decodeWord 0x7B00AD4C = .ok (.mxstat 86 83) := by decide

theorem test_decode_cpe :
    decodeWord 0x7C0523B5 = .ok (.cpy 5 2 3 90 1) ∧
    decodeWord 0x7C4523B5 = .ok (.tcpy 5 2 3 90 1) ∧
    decodeWord 0x7C8523B5 = .ok (.chain 5 2 3 90 1) ∧
    decodeWord 0x7CC500A6 = .ok (.tagarm 5 83) ∧
    decodeWord 0x7D0000AC = .ok (.tagwaitAny 86) ∧
    decodeWord 0x7D4000AC = .ok (.tagwaitAll 86) ∧
    decodeWord 0x7D8000AC = .ok (.tagff 86) ∧
    decodeWord 0x7DC000AC = .ok (.tagclr 86) ∧
    decodeWord 0x7E0500A6 = .ok (.tagrd 5 83) := by decide

theorem test_decode_team :
    decodeWord 0x80000005 = .ok (.tbar 5) ∧
    decodeWord 0x80558002 = .ok (.tbara 86 2) ∧
    decodeWord 0x80802B02 = .ok (.tbarw 86 2) ∧
    decodeWord 0x80D5A983 = .ok (.launch 86 83 3) ∧
    decodeWord 0x8115A980 = .ok (.gwait 86 83) ∧
    decodeWord 0x8155A983 = .ok (.taskpush 86 83 3) ∧
    decodeWord 0x81958053 = .ok (.rgrow 86 83) ∧
    decodeWord 0x81C00056 = .ok (.rshrink 86) ∧
    decodeWord 0x82000000 = .ok .commit := by decide

theorem test_decode_sys :
    decodeWord 0x84158053 = .ok (.rds 86 83) ∧
    decodeWord 0x84558053 = .ok (.wrs 86 83) ∧
    decodeWord 0x84802B53 = .ok (.tlbinv 86 83) ∧
    decodeWord 0x84D5A980 = .ok (.unpark 86 83) ∧
    decodeWord 0x8515A980 = .ok (.swapctx 86 83) ∧
    decodeWord 0x8555A9D4 = .ok (.ctxsave 86 83 84) ∧
    decodeWord 0x8595A9D4 = .ok (.ctxload 86 83 84) ∧
    decodeWord 0x85C00000 = .ok .trapret ∧
    decodeWord 0x85C00001 = .ok .trapretSkip ∧
    decodeWord 0x86000000 = .ok .halt ∧
    decodeWord 0x86400000 = .ok .sleep ∧
    decodeWord 0x8695A9D4 = .ok (.lmapw 86 83 84) := by decide

/-! ### States and operands that meet the hypotheses of the statements -/

/-! ### States that meet the hypotheses of the statements -/

/-- The strand of the executing lane, changed. -/
def withStrand (s : State) (f : Strand → Strand) : State := s.modStrand s.cur.strand f

theorem witness_integer : let s := lane [(2, 0xFFFFFFFF), (3, 2)]
    let e := envOf s
    s.env = some e ∧ Has e 1 ∧ Reads e 2 0xFFFFFFFF ∧ Reads e 3 2 ∧ e.hints.hx = none :=
  ⟨rfl, has_of rfl, reads_of rfl rfl, reads_of rfl rfl, rfl⟩

theorem witness_integer_hx :
    let s : State := { lane [(2, 5)] with cur := { strand := 0, bundle := 0x400010, word := 0x400014, hints := { hx := some 1 } } }
    let e := envOf s
    s.env = some e ∧ Has e 63 ∧ Reads e 2 5 ∧ e.hints.hx = some 1 := ⟨rfl, has_of rfl, reads_of rfl rfl, rfl⟩

theorem witness_products : let s := lane [(1, 7), (2, 0x80000000), (3, 0x00003F1F)]
    let e := envOf s
    s.env = some e ∧ Has e 1 ∧ Reads e 1 7 ∧ Reads e 2 0x80000000 ∧ Reads e 3 0x00003F1F :=
  ⟨rfl, has_of rfl, reads_of rfl rfl, reads_of rfl rfl, reads_of rfl rfl⟩

/-- A result of each unit that has not left the core. -/
def unitState (unit : Nat) : State :=
  { lane [] with cores := [(0, { Core.reset with results := [⟨9, 0, unit, 0, 0, [(4, 6)], 2⟩] })] }

theorem witness_unit_results : ∀ unit < 3, let s := unitState unit
    let r : Result := ⟨9, 0, unit, 0, 0, [(4, 6)], 2⟩
    s.cores = [] ++ (0, { Core.reset with results := [r] }) :: [] ∧
    (∀ x ∈ ({ Core.reset with results := [r] } : Core).results, x.id = r.id → x = r) ∧
    s.strands.find r.strand = some (strand []) := by
  intro unit _
  refine ⟨rfl, ?_, rfl⟩
  intro x hx _
  simpa using hx

theorem witness_predicates :
    let s := withStrand (lane [(5, 1)]) fun st => { st with preds := 5, regs := st.regs ++ [(6, Reg.of 3 true)] }
    let e := envOf s
    s.env = some e ∧ e.pred 0 = .ok true ∧ e.pred 1 = .ok false ∧ e.pred 2 = .ok true ∧ e.pred 7 = .ok false ∧
    Reads e 5 1 ∧ Has e 6 ∧ e.read 6 = .ok (3, true) :=
  ⟨rfl, rfl, rfl, rfl, rfl, reads_of rfl rfl, has_of rfl, rfl⟩

theorem witness_clock : (let s : State := { lane [] with issue := some { endedIssue [] with clock := some 5 } }
     s.env = some (envOf s) ∧ Alone (envOf s) ∧ Has (envOf s) 4 ∧ Has (envOf s) 5 ∧ s.issue.bind (·.clock) = some 5) ∧
    (let s := lane []
     s.env = some (envOf s) ∧ Alone (envOf s) ∧ Has (envOf s) 4 ∧ Has (envOf s) 5 ∧ s.issue.bind (·.clock) = none) :=
  ⟨⟨rfl, rfl, has_of rfl, has_of rfl, rfl⟩, rfl, rfl, has_of rfl, has_of rfl, rfl⟩

theorem witness_pairs : let s := (lane [(2, 0xFFFFFFFF), (3, 1), (4, 0), (5, 0x80000000)])
    let e := envOf s
    s.env = some e ∧ Has e 62 ∧ Has e 63 ∧ ReadsPair e 2 0x1FFFFFFFF ∧ ReadsPair e 4 0x8000000000000000 ∧
    Reads e 3 1 ∧ e.hReg 0 = .ok 0 ∧ e.kReg 7 = .ok 0 ∧ e.wReg 15 = .ok 0 ∧ e.pred 0 = .ok true ∧ Alone e ∧
    FlagsIn s e ∧ specialWide 128 = false :=
  ⟨rfl, has_of rfl, has_of rfl, readsPair_of rfl rfl rfl, readsPair_of rfl rfl rfl, reads_of rfl rfl, rfl, rfl, rfl, rfl,
    rfl, ⟨rfl, fun t ht o ho => by cases ht; cases ho⟩, rfl⟩

theorem witness_floats : let s := lane [(1, 0x3F800000), (2, 0x7FC00000), (3, 0xFF800000), (4, 0x00000001), (5, 2)]
    let e := envOf s
    s.env = some e ∧ Has e 1 ∧ Reads e 1 0x3F800000 ∧ Reads e 2 0x7FC00000 ∧ Reads e 3 0xFF800000 ∧ Reads e 4 1 ∧
    Reads e 5 2 ∧ (s.unitIssues e.waveKey 1).length < 4 ∧ (s.unitIssues e.waveKey 2).length < 8 ∧
    (f32v 0x7FC00000).isNaN = true :=
  ⟨rfl, has_of rfl, reads_of rfl rfl, reads_of rfl rfl, reads_of rfl rfl, reads_of rfl rfl, reads_of rfl rfl, by decide,
    by decide, rfl⟩

/-- A handle record: kind, element-size code, permissions (1 R, 2 W, 4 A), BND, stride 1, extent and BASE0 (R118). -/
def handle (kind esize perm bnd extent base : Nat) : HRec :=
  .ofNat 256 (kind * 8 + esize * 32 + perm * 256 + bnd * 2 ^ 17 + 2 ^ 20 + extent * 2 ^ 32 + base * 2 ^ 64)

/-- The lane with handles. -/
def withHandles (s : State) (l : List (Nat × HRec)) : State := s.modWave (strandWave s.cur.strand) fun w => { w with h := l }

/-- Where an access goes: the extent first, then the permission, then the grant, at the ends of each range. -/
theorem witness_locate :
    hExtent (handle 1 2 7 0 8 4064) ≤ 8 ∧ hBnd (handle 1 2 7 0 8 4064) = false ∧ hBnd (handle 1 2 7 1 8 4064) = true ∧
    7 < hExtent (handle 1 2 3 0 8 4064) ∧ hGrants (handle 1 2 3 0 8 4064) 2 = false ∧
    hGrants (handle 1 2 3 0 8 4064) 1 = true ∧ hKind (handle 1 2 3 0 8 4064) = 1 ∧
    -- the last element that lies inside 4,096 bytes, and the first that does not
    (hBase0 (handle 1 2 3 0 8 4064) : Int) + hOffset (handle 1 2 3 0 8 4064) 7 + 4 = 4096 ∧
    (4096 : Int) < hBase0 (handle 1 2 3 0 9 4064) + hOffset (handle 1 2 3 0 9 4064) 8 + 4 ∧
    hBase0 (handle 1 2 3 0 8 0) + hOffset (handle 1 2 3 0 8 0) 0 = 0 := by decide +kernel

/-- A lane with a local handle of four-byte elements in h1, one that clamps in h2, and eight- and sixteen-byte elements
in h3 and h4. -/
def localLane : State :=
  withHandles (lane [(1, 7), (2, 8), (4, 0x11223344), (5, 0x55667788), (6, 0), (7, 0)])
    [(1, handle 1 2 7 0 8 4064), (2, handle 1 2 7 1 8 4064), (3, handle 1 3 7 0 8 0), (4, handle 1 4 7 0 8 0)]

theorem witness_local : let s := localLane
    let e := envOf s
    s.env = some e ∧ Alone e ∧ e.areaDrained (handle 1 2 7 0 8 4064) = .ok e ∧
    Element e 1 1 4 (handle 1 2 7 0 8 4064) 7 ∧ Element e 2 2 4 (handle 1 2 7 1 8 4064) 8 ∧
    Element e 3 1 4 (handle 1 3 7 0 8 0) 7 ∧ Element e 4 1 4 (handle 1 4 7 0 8 0) 7 ∧
    e.locate (handle 1 2 7 0 8 4064) 7 0 = .ok (.scratch 4092) ∧ e.locate (handle 1 2 7 0 8 4064) 7 1 = .ok (.scratch 4092) ∧
    e.locate (handle 1 2 7 1 8 4064) 8 0 = .ok .clamped ∧ e.locate (handle 1 2 7 1 8 4064) 8 1 = .ok .clamped ∧
    e.locate (handle 1 3 7 0 8 0) 7 0 = .ok (.scratch 56) ∧ e.locate (handle 1 4 7 0 8 0) 7 0 = .ok (.scratch 112) ∧
    s.teams.find e.wave.team = some team ∧
    e.readMany 4 (elementRegs (hEsize (handle 1 2 7 0 8 4064))) = .ok [(0x11223344, false)] ∧
    s.readsOutstanding e.key = false ∧ s.ownOutstanding e.key = false := by
  refine ⟨rfl, rfl, rfl, ⟨rfl, reads_of rfl rfl, rfl, ?_⟩, ⟨rfl, reads_of rfl rfl, rfl, ?_⟩, ⟨rfl, reads_of rfl rfl, rfl, ?_⟩,
    ⟨rfl, reads_of rfl rfl, rfl, ?_⟩, rfl, rfl, rfl, rfl, rfl, rfl, rfl, rfl, rfl, rfl⟩ <;>
  · intro k hk
    have : k < 4 := by revert hk; revert k; decide +kernel
    have : 4 + k < 64 := by omega
    exact this

/-- A lane with a handle of its register area in h1, whose element 7 is its own register 4, the register as it was written or
with a bit lost; h2 clamps. -/
def areaLane (lostBit : Bool) : State :=
  let s := withHandles (lane [(1, 7), (2, 8), (4, 0x11223344), (5, 0x55667788)])
    [(1, handle 2 2 7 0 8 228), (2, handle 2 2 7 1 8 228)]
  withStrand s fun st => if lostBit then { st with regs := st.regs.set 4 ⟨0x11223345, parity 0x11223344, false⟩ } else st

theorem witness_area :
    (∀ lostBit, let s := areaLane lostBit
     let e := envOf s
     let r := handle 2 2 7 0 8 228
     let f : Env := { e with st := e.st.drain }
     s.env = some e ∧ Alone e ∧ hKind r = 2 ∧ e.areaDrained r = .ok f ∧ Element f 1 1 5 r 7 ∧
     e.locate r 7 0 = .ok (.area 256) ∧ e.locate r 7 1 = .ok (.area 256) ∧
     e.areaDrained (handle 2 2 7 1 8 228) = .ok f ∧ Element f 2 2 5 (handle 2 2 7 1 8 228) 8 ∧
     e.locate (handle 2 2 7 1 8 228) 8 0 = .ok .clamped ∧ e.locate (handle 2 2 7 1 8 228) 8 1 = .ok .clamped ∧
     f.readMany 5 (elementRegs (hEsize r)) = .ok [(0x55667788, false)] ∧ s.readsOutstanding e.key = false ∧
     s.ownOutstanding e.key = false ∧
     (let g := (s.noteAccess e.lane 0 4 (256 + 2 ^ 40) false).setStrand e.key f.st
      g.areaError e.wave.team e.wave.trailing (.area 256) 4 = if lostBit then some (0, 4) else none)) ∧
    (let s := areaLane false
     areaPlace (s.areasFor 7 false) 257 = some { strand := some 0, n := 4, byte := 1 } ∧ s.strands.find 0 ≠ none) ∧
    (let s := withStrand (areaLane false) fun st => { st with window := [⟨.v 6, 0, false, 0, 0, false, some 8⟩] }
     let e := envOf s
     s.env = some e ∧ Alone e ∧ e.hReg 1 = .ok (handle 2 2 7 0 8 228) ∧ Has e 1 ∧ e.st.drained = false ∧
     elementAligned (hEsize (handle 2 2 7 0 8 228)) 5 = true ∧ elementRegs (hEsize (handle 2 2 7 0 8 228)) = 1 ∧ Has e 5) ∧
    (let l : Late := { strand := 0, id := 8, d := 5, words := [(3, false)] }
     let i : Issue := { endedIssue [] with late := [l] }
     i.late = [l] ∧ i.writes = [] ∧ i.differ = []) := by
  refine ⟨fun lostBit => ?_, ⟨by decide +kernel, by decide +kernel⟩,
    ⟨rfl, rfl, rfl, has_of rfl, rfl, by decide +kernel, by decide +kernel, has_of rfl⟩, rfl, rfl, rfl⟩
  have two (e : Env) (h : 64 = e.wave.alloc) : ∀ k < elementRegs (hEsize (handle 2 2 7 0 8 228)), Has e ((5 : BitVec 7).toNat + k) := by
    intro k hk
    have : k < 4 := by revert hk; revert k; decide +kernel
    have : 5 + k < e.wave.alloc := by omega
    exact this
  cases lostBit <;>
    exact ⟨rfl, rfl, by decide +kernel, rfl, ⟨rfl, reads_of rfl rfl, by decide +kernel, two _ rfl⟩, by rfl, by rfl, rfl,
      ⟨rfl, reads_of rfl rfl, by decide +kernel, two _ rfl⟩, by rfl, by rfl, by rfl, rfl, rfl, by decide +kernel⟩

theorem witness_scratch : let t := { team with scratch := [(3, 9), (8, 1)], poisonWords := [0, 2] }
    t.scratch.Pairwise (fun a b => a.1 < b.1) ∧ 
    -- a write of bytes 2 to 6: word 0 in part, word 1 in part, word 2 not at all; one of 8 to 11 covers word 2 whole
    ((span 2 5).zip (clean [1, 2, 3, 4, 5]) |>.filter fun c => c.1 / 4 = 0).length = 2 ∧
    ((span 2 5).zip (clean [1, 2, 3, 4, 5]) |>.filter fun c => c.1 / 4 = 2).length = 0 ∧
    ((span 8 4).zip (clean [1, 2, 3, 4]) |>.filter fun c => c.1 / 4 = 2).length = 4 := by decide +kernel

theorem witness_local_atomic : let s := localLane
    let e := envOf s
    s.env = some e ∧ Alone e ∧ AtomicElement e 0 1 1 4 (handle 1 2 7 0 8 4064) 7 [(0x11223344, false)] ∧
    AtomicElement e 10 3 1 4 (handle 1 3 7 0 8 0) 7 [(0x11223344, false), (0x55667788, false), (0, false), (0, false)] ∧
    hKind (handle 1 2 7 0 8 4064) = 1 ∧ e.order < 2 ∧ e.locate (handle 1 2 7 0 8 4064) 7 2 = .ok (.scratch 4092) ∧
    s.teams.find e.wave.team = some team ∧ (team.scratchRead 4092 4).poisoned = false ∧
    AtomicElement e 0 2 2 4 (handle 1 2 7 1 8 4064) 8 [(0x11223344, false)] ∧
    e.locate (handle 1 2 7 1 8 4064) 8 2 = .ok .clamped := by
  refine ⟨rfl, rfl, ⟨by decide, rfl, reads_of rfl rfl, rfl, rfl, ?_, rfl, rfl, rfl⟩,
    ⟨by decide, rfl, reads_of rfl rfl, rfl, rfl, ?_, rfl, rfl, rfl⟩, by decide +kernel, by decide, rfl, rfl, rfl,
    ⟨by decide, rfl, reads_of rfl rfl, rfl, rfl, ?_, rfl, rfl, rfl⟩, rfl⟩ <;>
  · intro k hk
    have : k < 4 := by revert hk; revert k; decide +kernel
    have : 4 + k < 64 := by omega
    exact this

/-- A translation of 0x500000 on for ASID 3, with every permission of level 0. -/
def tlbEntry : TlbEntry :=
  { asid := 3, vmid := 0, va := 0x500000, size := 65536, pa := 0x500000, ipa := 0, page := (0x500000, 65536),
    page2 := (0, 0), r := true, w := true, x := true, sys := false,
    present := true, stage := 1, level := 4, level2 := 0, stageR := 1, stageW := 1, stageX := 1, stageS := 1 }

/-- The lane in a context whose code page is at 0x400000, with budget words of 64 before 0x400100, of 72 before
0x400200 and of 12 before 0x400300. -/
def codeLane (regs : List (Nat × Word)) : State :=
  let s := lane regs
  let c : Context := ⟨2, 0x400800, [⟨1, [⟨0x400000, 0x400000⟩], []⟩]⟩
  { s with cores := [(0, { Core.reset with tlb := [{ tlbEntry with va := 0x400000, pa := 0x400000 }] })]
           mem := [(0x4000F8, 64), (0x4001F8, 72), (0x4002F8, 12)]
           device := { s.device with contexts := [(3, c)], ctxTab := 1 } }

/-- A lane with register targets: an aligned one in range, one that is not aligned, one out of range. -/
def branchLane : State :=
  withStrand (lane [(2, 0xFFFFFFFC), (3, 0x01FFFFFF), (4, 2), (5, 0), (6, 0), (7, 0x02000000)]) fun st =>
    { st with preds := 3 }

theorem witness_branches : let s := branchLane
    let e := envOf s
    s.env = some e ∧ e.pred 1 = .ok true ∧ e.pred 2 = .ok false ∧ ReadsPair e 2 0x1FFFFFFFFFFFFFC ∧
    (0x1FFFFFFFFFFFFFC : Dword).toNat % 4 = 0 ∧ (0x1FFFFFFFFFFFFFC : Dword).toNat < 2 ^ 57 ∧
    s.strands.find e.key = some { e.st with pc := s.cur.bundle } ∧ e.bundle = s.cur.bundle ∧
    ReadsPair e 4 2 ∧ (2 : Dword).toNat % 4 ≠ 0 ∧ ReadsPair e 6 0x0200000000000000 ∧
    2 ^ 57 ≤ (0x0200000000000000 : Dword).toNat ∧ Has e 30 ∧ Has e 31 := by
  refine ⟨rfl, rfl, rfl, readsPair_of rfl rfl rfl, by decide, by decide, rfl, rfl, readsPair_of rfl rfl rfl, by decide,
    readsPair_of rfl rfl rfl, by decide, has_of rfl, has_of rfl⟩

theorem witness_fault_queue :
    let s : State := { lane [(4, 2)] with clusters := [(0, { Cluster.reset with fqBase := 0x100001 })] }
    let e := envOf s
    s.env = some e ∧ ReadsPair e 4 2 ∧ ringBase (s.cluster (coreCluster e.coreKey)).fqBase ≠ 0 :=
  ⟨rfl, readsPair_of rfl rfl rfl, by decide +kernel⟩

theorem witness_calls : let s := codeLane [(4, 0x400100), (6, 0x400200)]
    let e := envOf s
    s.env = some e ∧ Alone e ∧ Has e 30 ∧ Has e 31 ∧ e.codeWord (budgetAt 0x400100) = .ok 64 ∧
    budgetOk 64 = true ∧ 64 ≤ e.wave.alloc ∧ e.target 0x3C = 0x400100 ∧ ReadsPair e 4 0x400100 ∧ checkTarget 0x400100 = .ok 0x400100 ∧
    e.codeWord (budgetAt 0x400200) = .ok 72 ∧ budgetOk 72 = true ∧ e.wave.alloc < 72 ∧ e.wave.grow = none ∧ e.target 0x7C = 0x400200 ∧
    ReadsPair e 6 0x400200 ∧ checkTarget 0x400200 = .ok 0x400200 ∧
    -- a budget that is not valid
    e.codeWord (budgetAt 0x400300) = .ok 12 ∧ budgetOk 12 = false ∧ e.target 0xBC = 0x400300 :=
  ⟨rfl, rfl, has_of rfl, has_of rfl, rfl, rfl, by decide, by decide +kernel, readsPair_of rfl rfl rfl, rfl, rfl, rfl, by decide,
    rfl, by decide +kernel, readsPair_of rfl rfl rfl, rfl, by rfl, rfl, by decide +kernel⟩

/-- A lane with a result of the divide unit that has not arrived. -/
def drainingLane : State :=
  withStrand (lane []) fun st => { st with window := [⟨.v 4, 0, false, 0, 0, false, some 8⟩] }

theorem witness_exit : (envOf (lane [])).wave.meets = [] ∧ (lane []).env = some (envOf (lane [])) ∧
    (envOf (lane [])).st.drained = true ∧ drainingLane.env = some (envOf drainingLane) ∧
    (envOf drainingLane).st.drained = false := ⟨rfl, rfl, rfl, rfl, rfl⟩

/-- A lane at REFILL whose core has items of its grid: a fitting one at 0x400100 and one too large. -/
def refillLane : State :=
  { codeLane [] with
    grids := [(5, { grid with level := 2 })]
    device := { (codeLane []).device with ctxTab := 0 }
    cores := [(0, { Core.reset with items := [⟨5, 0x400200, 0x500000, 0⟩, ⟨5, 0x400100, 0x600000, 0⟩] })] }

theorem witness_refill : let s := refillLane
    let e := envOf s
    let t : Task := ⟨5, 0x400100, 0x600000, 0⟩
    s.env = some e ∧ Alone e ∧ e.st.item = none ∧ e.st.drained = true ∧ e.fitting e.codeWord (s.core e.coreKey).items = .ok (some t) ∧
    (e.s.core e.coreKey).items.contains t ∧
    ({ e with st := { e.st with item := some (t.entry.toNat, t.record) },
              s := ((s.modCore e.coreKey fun c => { c with items := c.items.erase t }).modStrand e.key fun st =>
                { st with item := some (t.entry.toNat, t.record) }) } : Env).argLoads t.record 4 =
      .ok [0x600000, 0x600010, 0x600020, 0x600030] ∧
    (envOf (lane [])).fitting (envOf (lane [])).codeWord ((lane []).core 0).items = .ok none ∧ (envOf (lane [])).poolHolds = false :=
  ⟨rfl, rfl, rfl, rfl, rfl, by decide +kernel, rfl, rfl, rfl⟩

/-- A lane whose bank has a handler. -/
def trapLane : State := (lane [(2, 9)]).modBank 0 fun b => { b with trapBase := 0x400800 }

/-- The lane in its handler, interrupted with two writes that have not arrived; `waits` for a result in the handler. -/
def handlerLane (waits : Bool) : State :=
  let w : List Went := [⟨.v 9, 3, false, 4, 1, false, none⟩, ⟨.v 10, 0, false, 0, 1, false, some 8⟩]
  let st := { strand [(2, 9)] with window := w }
  let h := st.enterHandler 0x400800 0 0x10009 0x400010 0 0x400014 0x400014 false
  let h := { h with pc := 0x400010 }.push ⟨.v 10, 7, false, 1, 0, false, none⟩
  { trapLane with strands := [(0, if waits then h.await 12 9 else h)] }

theorem witness_traps :
    trapLane.strands.find 0 = some (strand [(2, 9)]) ∧ (strand [(2, 9)]).handler = none ∧ trapLane.queued 0 = false ∧
    (trapLane.bank (waveBank (strandWave 0))).trapBase ≠ 0 ∧ trapLane.env = some (envOf trapLane) ∧
    ((lane []).bank (waveBank (strandWave 0))).trapBase = 0 ∧
    (∀ b, (handlerLane b).env = some (envOf (handlerLane b)) ∧ (envOf (handlerLane b)).st.handler.isSome = true ∧
      (envOf (handlerLane b)).st.drained = !b) ∧
    (envOf trapLane).st.handler = none := by
  refine ⟨rfl, rfl, rfl, by decide, rfl, rfl, fun b => ?_, rfl⟩
  cases b <;> exact ⟨rfl, rfl, rfl⟩

/-- A level-2 lane, whose addresses are physical, with a global handle of four-byte elements at 0x500000 in h1, of
sixteen bytes in h2 and a handle that bypasses in h3. -/
def globalLane : State :=
  let s := withHandles (lane [(1, 7), (2, 0), (4, 0x11223344), (5, 0), (6, 0), (7, 0)])
    [(1, handle 0 2 7 0 8 0x500000), (2, handle 0 4 7 0 8 0x500000), (3, handle 0 2 7 0 8 0x500000 ||| 0xC000)]
  { s with grids := [(5, { grid with level := 2 })] }

/-- The same with the line in the L1 area of its core, four bytes of it dirty. -/
def cachedLane : State :=
  let l : L1Line := { line := 0x5000, bytes := (List.range 256).map fun k => (k, .ofNat 8 k),
                      dirty := [(28, 0), (29, 0), (30, 0), (31, 0)], poison := [], pol := 0 }
  { globalLane with cores := [(0, { Core.reset with l1 := [l] })] }

theorem element_of {e : Env} {h : BitVec 4} {a d : BitVec 7} {r : HRec} {i : Word} (h1 : e.hReg h.toNat = .ok r)
    (h2 : Reads e a.toNat i) (h3 : elementAligned (hEsize r) d.toNat = true)
    (h4 : (List.range (elementRegs (hEsize r))).all (fun k => decide (d.toNat + k < e.wave.alloc)) = true) :
    Element e h a d r i := by
  refine ⟨h1, h2, h3, fun k hk => ?_⟩
  have := List.all_eq_true.mp h4 k (List.mem_range.mpr hk)
  exact has_of this

/-- The same lane in a contained team, whose store buffer holds a byte of the element and one of another line, or nothing. -/
def containedLane (buffer : List Host.Cell) : State :=
  { cachedLane with teams := [(7, { team with contained := true, buffer := buffer })] }

def buffered : List Host.Cell := [(0x50001C, 9), (0x600000, 1)]

theorem witness_global_loads : let s := globalLane
    let t := cachedLane
    let u := containedLane buffered
    s.env = some (envOf s) ∧ Alone (envOf s) ∧ Element (envOf s) 1 1 4 (handle 0 2 7 0 8 0x500000) 7 ∧
    Element (envOf s) 2 1 4 (handle 0 4 7 0 8 0x500000) 7 ∧
    (envOf s).locate (handle 0 2 7 0 8 0x500000) 7 0 = .ok (.glob 0x50001C) ∧
    (envOf s).locate (handle 0 4 7 0 8 0x500000) 7 0 = .ok (.glob 0x500070) ∧
    (envOf s).translate 0x50001C 0 kLoad = .ok 0x50001C ∧ (envOf s).translate 0x500070 0 kLoad = .ok 0x500070 ∧
    (envOf s).served 0 0x50001C 4 0 = none ∧ (envOf s).served 0 0x500070 16 0 = none ∧
    t.env = some (envOf t) ∧ Element (envOf t) 1 1 4 (handle 0 2 7 0 8 0x500000) 7 ∧
    (envOf t).served 0 0x50001C 4 0 = some ([28, 29, 30, 31], false) ∧
    (envOf t).served 0 0x50001C 4 6 = some ([28, 29, 30, 31], false) ∧ (envOf t).served 0 0x500070 16 3 = none ∧
    u.env = some (envOf u) ∧ (envOf u).served 0 0x50001C 4 0 = some ([9, 29, 30, 31], false) :=
  ⟨rfl, rfl, element_of rfl (reads_of rfl rfl) rfl rfl, element_of rfl (reads_of rfl rfl) rfl rfl, rfl, rfl, rfl, rfl, rfl,
    rfl, rfl, element_of rfl (reads_of rfl rfl) rfl rfl, rfl, rfl, rfl, rfl, rfl⟩

def aLoad (use : LoadUse) : Load := ⟨4, 0, use, 0, 3, 0x500070, 0x500070, 16, false, 4, 0, 0, true, [0, 0, 0, 0]⟩

theorem witness_load_returns : let l := aLoad .register
    let s := withStrand { globalLane with loads := [l] } fun st => st.awaitMany 4 4 4
    s.loads.find? (·.id = l.id) = some l ∧ l.granted = true ∧ l.use = .register ∧
    (s.loadStands l && s.olderAtSlice l.pa l.id) = false ∧
    s.olderLoad l.strand l.pa l.size l.id = false ∧
    homeDie l.pa = some (coreDie (strandCore l.strand)) ∧ (s.core l.core).line (lineOf l.pa) = none ∧
    s.bufferOf l.strand = [] ∧ s.flights = [] ∧ s.ownHeld l.strand l.pa l.size l.id = false ∧
    s.ownedByCopy (lineOf l.pa) = false ∧
    (let t : State := { globalLane with loads := [{ l with granted := false }] }
     (t.missWaiting 0).find? (fun p => t.missFree 0 p.2 || t.requestHits p.1) = some (4, 0x500070)) := by
  refine ⟨rfl, rfl, rfl, ?_, rfl, rfl, rfl, rfl, rfl, rfl, rfl, ?_⟩ <;> decide +kernel

/-- A lane of no contained team, or of one, with a write on its way or none. -/
def storeLane (contained busy : Bool) : State :=
  { if contained then containedLane buffered else globalLane with
    flights := if busy then [⟨3, 0, none, [(0x700000, 5)], none, none, false⟩] else [] }

theorem witness_global_stores : ∀ contained busy,
    let s := storeLane contained busy
    let e := envOf s
    let r := handle 0 2 7 0 8 0x500000
    let noted := s.noteAccess e.lane 1 4 0x50001C false
    s.env = some e ∧ Alone e ∧ Element e 1 1 4 r 7 ∧ e.readMany 4 (elementRegs (hEsize r)) = .ok [(0x11223344, false)] ∧
    e.locate r 7 1 = .ok (.glob 0x50001C) ∧ e.translate 0x50001C 1 kStore = .ok 0x50001C ∧
    s.readsOutstanding e.key = false ∧ s.storesOf e.key = [] ∧ e.isContained = contained ∧
    e.policy r ≠ 3 ∧ e.policy (r ||| 0xC000) = 3 ∧ accessScope 2 r ≤ 2 ∧ 3 ≤ accessScope 3 r ∧ accessScope 6 r = 6 ∧
    e.revision ≠ 1 ∧ s.ownHeld e.key 0x50001C 4 s.nextId = false ∧ s.ownedByCopy (lineOf 0x50001C) = false ∧
    e.bufferRoom 0x50001C 4 = true ∧ s.allCompared e.wave.team = true ∧
    (contained = false → let t := noted.writeBackAll e.cores
     t.stillOut (t.releaseIds e.cores e.key 3 e.revision false).1 (t.releaseIds e.cores e.key 3 e.revision false).2 =
       if busy then [3] else []) := by
  intro contained busy
  cases contained <;> cases busy <;>
  exact ⟨rfl, rfl, element_of rfl (reads_of rfl rfl) rfl rfl, rfl, rfl, rfl, rfl, rfl, rfl, by decide +kernel, by decide +kernel,
    by decide +kernel, by decide +kernel, by decide +kernel, by decide +kernel, by rfl, rfl, by decide +kernel, by decide +kernel,
    by decide +kernel⟩

/-- A store of one byte of lane 0, that `aStore` of lane 1 joins. -/
def aStore (pa : Nat) (bypass : Bool) : PendStore :=
  { id := 9, issue := 4, home := 0, core := 0, bytes := [(pa, 5)], strands := [0], asid := 3, va := pa, release := false, after := [],
    applied := false, bypass := bypass, pol := 0, single := false, granted := true, exposes := none }

theorem witness_stores_join :
    (∀ bypass, let r := aStore 0x50001C bypass
     let n := aStore 0x50001D bypass
     -- the store of another sector and the release of the same one stand beside it
     let far := { aStore 0x500040 bypass with id := 10 }
     let s : State := { globalLane with stores := [{ r with id := 8, home := 1 }, r, far], issue := some (endedIssue []) }
     globalLane.issue = none ∧ s.issue ≠ none ∧ s.stores = [{ r with id := 8, home := 1 }] ++ r :: [far] ∧
     r.issue = n.issue ∧ r.home = n.home ∧ sectorOf (0x50001C : Nat) = sectorOf (0x50001D : Nat) ∧
     sectorOf (0x500040 : Nat) ≠ sectorOf (0x50001D : Nat) ∧ r.strands.length = r.bytes.length ∧
     ({ n with release := true } : PendStore).release ≠ r.release) ∧
    ((containedLane buffered).teams.find 7 = some { team with contained := true, buffer := buffered } ∧
     (sectorsOf (buffered ++ place 0x50001C [1, 2, 3, 4])).length ≤ 1024) := by
  refine ⟨fun b => ⟨rfl, by cases b <;> decide, rfl, rfl, rfl, by decide, by decide, rfl, by cases b <;> decide⟩, rfl, by decide +kernel⟩

/-- A write of two bytes on its way from a core, with its stamp where the line is of another die. -/
def aFlight (core : Nat) (stamp : Option (List Nat)) : Flight :=
  ⟨3, core, some 0, [(0x500000, 5), (0x500001, 0)], none, stamp, false⟩

theorem witness_stores_arrive :
    (∀ bypass, let r := aStore 0x50001C bypass
     let s : State := { cachedLane with stores := [r] }
     s.stores.find? (·.id = r.id) = some r ∧ s.flights = [] ∧ r.bytes = (0x50001C, 5) :: [] ∧ r.strands = 0 :: [] ∧
     s.storeMay r 0x50001C = true ∧ (r.bytes.map (·.1 % 256)).Nodup) ∧
    (∀ p ∈ [(0, none), (128, some [0, 1, 0, 0])], let f := aFlight p.1 p.2
     let s : State := { globalLane with mem := [(0x500001, 9)], flights := [f] }
     MemoryOk s ∧ s.flights.find? (·.id = f.id) = some f ∧ f.bytes ≠ [] ∧ homeDie f.pa = some 0 ∧
     (s.olderFlight f || s.recalled f.line f.id f.core || s.olderAtSlice f.pa f.id) = false ∧
     (∀ v, f.stamp = some v → applicable (s.die 0).clock v (coreDie f.core) = true) ∧ (f.bytes.map (memKey ·.1)).Nodup) ∧
    (let f := aFlight 0 none
     let s : State := { globalLane with flights := [{ f with id := 2 }, f] }
     s.flights.find? (·.id = f.id) = some f ∧ (s.olderFlight f || s.recalled f.line f.id f.core || s.olderAtSlice f.pa f.id) = true) ∧
    (cachedLane.core 0).line 0x5000 ≠ none := by
  refine ⟨fun b => ?_, fun p h => ?_, ⟨rfl, rfl⟩, by decide +kernel⟩
  · cases b <;> exact ⟨rfl, rfl, rfl, rfl, by decide +kernel, by decide⟩
  · simp only [List.mem_cons, List.not_mem_nil, or_false] at h
    rcases h with rfl | rfl <;>
      exact ⟨rfl, rfl, by decide, rfl, by decide +kernel, fun v h => by cases h <;> decide +kernel, by decide +kernel⟩

def anAtomic (inBuffer : Bool) : Atomic :=
  ⟨6, 0, 0, 0, 4, 3, 0x500000, 0x500000, 5, 0, false, true, 4, 0, 0, [], false, true, none, inBuffer, false, none, none⟩

theorem atomicElement_of {e : Env} {op : Nat} {h : BitVec 4} {a d : BitVec 7} {r : HRec} {i : Word} {words : List (Word × Bool)}
    (h0 : op < 12) (h1 : e.hReg h.toNat = .ok r) (h2 : Reads e a.toNat i) (h3 : atomicSize op (hEsize r) = true)
    (h4 : atomicAligned op (hEsize r) d.toNat = true)
    (h5 : (List.range (atomicRegs op (hEsize r))).all (fun k => decide (d.toNat + k < e.wave.alloc)) = true)
    (h6 : e.readMany d.toNat (atomicRegs op (hEsize r)) = .ok words) (h7 : words.any (·.2) = false)
    (h8 : e.s.readsOutstanding e.key = false) : AtomicElement e op h a d r i words :=
  ⟨h0, h1, h2, h3, h4, fun k hk => has_of (List.all_eq_true.mp h5 k (List.mem_range.mpr hk)), h6, h7, h8⟩

theorem witness_global_atomics : ∀ contained, let s := storeLane contained false
    let e := envOf s
    let r := handle 0 2 7 0 8 0x500000
    s.env = some e ∧ Alone e ∧ AtomicElement e 0 1 1 4 r 7 [(0x11223344, false)] ∧ hKind r = 0 ∧
    e.locate r 7 2 = .ok (.glob 0x50001C) ∧ e.translate 0x50001C 2 kAtomic = .ok 0x50001C ∧ e.isContained = contained ∧
    s.storesOf e.key = [] ∧ s.ownedByCopy (lineOf 0x50001C) = false ∧ s.ownHeld e.key 0x50001C 4 s.nextId = false ∧
    accessScope 1 r ≤ 2 ∧ 3 ≤ accessScope 3 r ∧ e.atomicPoisoned 0x50001C = false ∧ s.allCompared e.wave.team = true ∧
    s.ownOutstanding e.key = false := by
  intro contained
  cases contained <;>
    exact ⟨rfl, rfl, atomicElement_of (by decide) rfl (reads_of rfl rfl) rfl rfl rfl rfl rfl rfl, by decide +kernel, rfl, rfl, rfl,
      rfl, rfl, by rfl, by decide +kernel, by decide +kernel, by decide +kernel, by decide +kernel, rfl⟩

/-- A contained lane at an atomic above team scope whose element is poisoned. -/
theorem witness_atomic_dies : let s : State := { storeLane true false with poison := [0x14000] }
    let e := envOf s
    s.env = some e ∧ e.isContained = true ∧ e.atomicPoisoned 0x500020 = true ∧ e.translate 0x500020 2 kAtomic = .ok 0x500020 ∧
    e.locate (handle 0 2 7 0 8 0x500004) 7 2 = .ok (.glob 0x500020) := by
  refine ⟨rfl, rfl, by decide +kernel, rfl, by decide +kernel⟩

theorem witness_atomics_perform :
    (let x := anAtomic false
     let t : State := { globalLane with mem := [(0x500000, 7)], atomics := [x] }
     MemoryOk t ∧ t.atomics.find? (·.id = x.id) = some x ∧ homeDie x.pa = some (coreDie x.core) ∧
     t.awaits x.after x.applied = false ∧ t.recalled (lineOf x.pa) x.id x.core = false ∧ x.inBuffer = false ∧ x.orphan = false ∧
     t.poisonedAt x.pa = false ∧ t.olderAtSlice x.pa x.id = false ∧ x.granted = true ∧
     x.done = none ∧ x.stamp = none ∧ ((span x.pa x.size).map memKey).Nodup ∧ (t.strands.find x.strand).isSome = true) ∧
    (let x := anAtomic true
     let t : State := { containedLane buffered with atomics := [x] }
     t.atomics.find? (·.id = x.id) = some x ∧ x.done = none ∧ x.inBuffer = true ∧ x.granted = true ∧
     t.awaits x.after x.applied = false ∧ t.olderAtSlice x.pa x.id = false ∧
     (match t.globalRead x.strand x.core x.pa x.size 0 0 (t.die (coreDie x.core)).clock x.id with
      | some (b, bad, u) => b == [0, 1, 2, 3] && !bad && u.bufferFits (u.teamOf x.strand) x.pa x.size
      | none => false) = true) := by
  refine ⟨⟨rfl, rfl, rfl, rfl, rfl, rfl, rfl, rfl, by decide +kernel, rfl, rfl, rfl, by decide +kernel, rfl⟩,
    rfl, rfl, rfl, rfl, rfl, by decide +kernel, by decide +kernel⟩

/-- A lane at a fence with a write on its way, and the lane once it is waiting for that write. -/
def fenceLane (contained waiting out : Bool) : State :=
  withStrand (storeLane contained out) fun st => { st with life := if waiting then .waiting (.acks [3] false) else st.life }

theorem witness_fences :
    (∀ c w o, let s := fenceLane c w o
      s.env = some (envOf s) ∧ Alone (envOf s) ∧ (envOf s).isContained = c ∧ s.readsOutstanding 0 = false ∧ s.storesOf 0 = [] ∧
      s.allCompared (envOf s).wave.team = true ∧
      (s.strands.find 0).map (·.life) = some (if w then .waiting (.acks [3] false) else .ready)) ∧
    (fenceLane false true false).awaits [3] false = false ∧ (fenceLane false true true).awaits [3] false = true ∧
    (∀ o, let t := (fenceLane false false o).writeBackAll [0]
     t.stillOut (t.releaseIds [0] 0 3 2 false).1 (t.releaseIds [0] 0 3 2 false).2 = if o then [3] else []) ∧
    -- the buffered stores that a contained team commits are on their way
    (let t := ((fenceLane true false false).commit 7).writeBackAll [0]
     t.stillOut (t.releaseIds [0] 0 3 2 false).1 (t.releaseIds [0] 0 3 2 false).2 ≠ []) ∧
    (let s : State := { containedLane [] with cores := [] }
     let t := (s.commit 7).writeBackAll [0]
     t.stillOut (t.releaseIds [0] 0 3 2 false).1 (t.releaseIds [0] 0 3 2 false).2 = []) ∧
    (let t := fenceLane false false true
     t.stillOut (t.releaseIds [0] 0 2 2 false).1 (t.releaseIds [0] 0 2 2 false).2 = []) := by
  refine ⟨?_, rfl, rfl, ?_, by decide +kernel, rfl, rfl⟩
  · intro c w o
    cases c <;> cases w <;> cases o <;> exact ⟨rfl, rfl, rfl, rfl, rfl, by decide +kernel, rfl⟩
  · intro o; cases o <;> rfl

theorem witness_cache_operations : let s := cachedLane
    let e := envOf s
    s.env = some e ∧ e.hReg 1 = .ok (handle 0 2 7 0 8 0x500000) ∧ Reads e 1 7 ∧ hKind (handle 0 2 7 0 8 0x500000) = 0 ∧
    e.locate (handle 0 2 7 0 8 0x500000) 7 0 = .ok (.glob 0x50001C) ∧ e.translate 0x50001C 0 kLoad = .ok 0x50001C ∧
    e.policy (handle 0 2 7 0 8 0x500000) ≠ 3 ∧ s.loads = [] ∧
    (envOf localLane).locate (handle 1 2 7 1 8 4064) 8 0 = .ok .clamped ∧
    s.ownHeld e.key (lineOf 0x50001C * 256) 256 s.nextId = false ∧
    (∀ bad : Bool, let l := { aLoad (.prefetch 0 4) with pa := 0x500100, va := 0x500100, size := 64 }
     let t : State := { s with loads := [l], poison := if bad then [0x14004] else [] }
     t.loads.find? (·.id = l.id) = some l ∧ l.granted = true ∧ (t.loadStands l && t.olderAtSlice l.pa l.id) = false ∧
     (t.globalRead l.strand l.core l.pa l.size 0 l.pol l.clock l.id).map (fun x => x.2.1) = some bad) := by
  refine ⟨rfl, rfl, reads_of rfl rfl, by decide +kernel, rfl, rfl, by decide +kernel, rfl, rfl, by decide +kernel, fun bad => ?_⟩
  cases bad <;> exact ⟨rfl, rfl, by decide +kernel, by decide +kernel⟩

def aWatch : Watch :=
  { id := 11, strand := 0, isLocal := true, team := 7, line := 15, issue := 4, va := 0, offset := 4092, size := 4, expected := 5,
    d := 4, scope := 2, pol := 0, written := true, next := 0x400014 }

theorem witness_waitline : let s := localLane
    let e := envOf s
    let t := withStrand { s with watches := [aWatch] } fun st => { st with life := .blocked (.line 11) }
    s.env = some e ∧ Alone e ∧ e.hReg 1 = .ok (handle 1 2 7 0 8 4064) ∧ Reads e 1 7 ∧
    hKind (handle 1 2 7 0 8 4064) = 1 ∧ hEsize (handle 1 2 7 0 8 4064) = 4 ∧ hEsize (handle 1 3 7 0 8 0) = 8 ∧
    e.readMany 4 1 = .ok [(0x11223344, false)] ∧ e.readMany 6 1 = .ok [(0, false)] ∧ Has e 6 ∧ s.loads = [] ∧
    e.locate (handle 1 2 7 0 8 4064) 7 2 = .ok (.scratch 4092) ∧ s.teams.find e.wave.team = some team ∧
    e.hReg 2 = .ok (handle 1 2 7 1 8 4064) ∧ Reads e 2 8 ∧ e.locate (handle 1 2 7 1 8 4064) 8 2 = .ok .clamped ∧
    -- the element is 0: equal to v6, different from v4
    fromBytes (team.scratchRead 4092 4).bytes = (wordsValue [(0, false)]).toNat ∧
    fromBytes (team.scratchRead 4092 4).bytes ≠ (wordsValue [(0x11223344, false)]).toNat ∧
    (envOf globalLane).locate (handle 0 2 7 0 8 0x500000) 7 2 = .ok (.glob 0x50001C) ∧
    (envOf globalLane).translate 0x50001C 2 kAtomic = .ok 0x50001C ∧
    t.watches.find? (·.strand = aWatch.strand) = some aWatch ∧ aWatch.isLocal = true ∧ aWatch.written = true ∧
    t.teams.find aWatch.team = some team ∧ (t.waves.find (strandWave aWatch.strand)).isSome = true ∧
    t.activeBank (strandCore aWatch.strand) = waveBank (strandWave aWatch.strand) ∧
    waveBank (strandWave aWatch.strand) < 1024 ∧
    fromBytes (team.scratchRead aWatch.offset aWatch.size).bytes ≠ aWatch.expected.toNat % 2 ^ (8 * aWatch.size) ∧
    fromBytes (team.scratchRead aWatch.offset aWatch.size).bytes = ({ aWatch with expected := 0 } : Watch).expected.toNat :=
  ⟨rfl, rfl, rfl, reads_of rfl rfl, by decide +kernel, by decide +kernel, by decide +kernel, rfl, rfl, has_of rfl, rfl, rfl,
    rfl, rfl, reads_of rfl rfl, rfl, rfl, by decide +kernel, rfl, rfl, rfl, rfl, rfl, rfl, rfl, rfl, by decide +kernel,
    by decide +kernel, rfl⟩

/-- A context table at 0x10000 whose ASID 3 has its root at 0x20000, and one page for 0x500000 five levels down; a lock in
the root's descriptor when `locked`. -/
def aWalk : Walk := ⟨9, .lanes 0 4, 0, 3, 0x500000, none, false⟩

def walkState (locked : Bool) : State :=
  let s := withStrand (lane []) fun st => { st with life := .waiting (.walk 9) }
  let put := fun (s : State) (pa x : Nat) => s.poke pa (toBytes 8 x)
  let s : State := { s with walks := [aWalk], device := { s.device with ctxTab := 0x10001 } }
  let s := put s (0x10000 + 16 * 3) 0x20001
  let s := put s 0x20000 (0x21003 + (if locked then 128 else 0))
  let s := put (put (put s 0x21000 0x22003) 0x22000 0x23003) (0x23000 + 8 * 2) 0x24003
  put s (0x24000 + 8 * 16) 0x50001D

/-- The watch of a global element, of an address that is mapped or not; the read of its element returns. -/
theorem witness_global_watch :
    (let s := globalLane
     let w : Watch := { aWatch with isLocal := false, va := 0x50001C }
     s.translateNow 0 (s.asidOf w.strand) (s.levelOf w.strand) w.va 2 kAtomic = .ok 0x50001C ∧
     s.waves.find (strandWave w.strand) ≠ none ∧ wave.partner = none ∧ s.loads = []) ∧
    (let s : State := { walkState false with
       watches := [{ aWatch with isLocal := false, va := 0x700000 }]
       cores := [(0, { Core.reset with tlb := [{ tlbEntry with va := 0x700000, present := false }] })] }
     (match s.translateNow 0 (s.asidOf 0) (s.levelOf 0) 0x700000 2 kAtomic with
      | .error (.park ..) => true
      | _ => false) = true) ∧
    (let l := aLoad (.watch 11)
     let w : Watch := { aWatch with isLocal := false, va := 0x500070 }
     let s := withStrand { globalLane with loads := [l], watches := [w] } fun st => { st with life := .waiting (.reply 11) }
     s.loads.find? (·.id = l.id) = some l ∧ l.granted = true ∧ (s.loadStands l && s.olderAtSlice l.pa l.id) = false ∧
     (match s.globalRead l.strand l.core l.pa l.size l.acquire l.pol l.clock l.id with
      | some (_, _, u) => u.watches.find? (·.id = w.id) == some w && (u.strands.find l.strand).isSome
      | none => false) = true) := by
  refine ⟨⟨rfl, by decide +kernel, rfl, rfl⟩, by decide +kernel, rfl, rfl, by decide +kernel, by decide +kernel⟩

/-- A wave of `n` live lanes that all stand at the cursor's bundle, with the same registers; k1 names lanes 0 and 1. -/
def groupLane (n : Nat) (meets : List Meet) : State :=
  let s := lane [(1, 7), (2, 3), (3, 9)]
  { s with
    strands := (List.range n).map fun l => (l, { strand [(1, 7), (2, 3), (3, 9)] with preds := 3 })
    waves := [(0, { wave with k := [(1, 3)], meets := meets })] }

/-- What lane 1 has brought to a vote of k1's lanes. -/
def vote : Meet :=
  { id := 9, closed := false, cls := 0x1A, tag := 3, own := none, minor := 1, op := 0, order := 0, scope := 0, kEnable := true,
    kValue := 3, dst := 0, src := 0, presenters := [⟨1, [], false, 2, 0, 0, 0x400014⟩], members := [0, 1], acks := none, asked := false, parts := [] }

theorem witness_group_presents :
    let i : Instr := .gvoteAny 3 2 1 1 1
    let q : Asked := ⟨{ cls := 0x1A, tag := 3, minor := 1, e := 1, k := 1, d := 2 }, predReads 1⟩
    let s := groupLane 2 []
    let e := envOf s
    let t := groupLane 2 [vote]
    let f := envOf t
    s.env = some e ∧ Alone e ∧ e.st.handler = none ∧
    (({ e with wave := e.wave.without q.ask.cls q.ask.tag } : Env).kReg q.ask.k.toNat) = .ok 3 ∧
    q.reads { e with wave := e.wave.without q.ask.cls q.ask.tag } = .ok ([], true) ∧ openMeet e q.ask = none ∧
    (3 : Dword).getLsbD e.lane = true ∧ e.lane < e.wave.width ∧
    1 ∈ s.meetLive e.waveKey (joined e q.ask 3 [] true) ∧ (joined e q.ask 3 [] true).presenters.map (·.lane) = [0] ∧
    t.env = some f ∧ Alone f ∧ q.reads { f with wave := f.wave.without q.ask.cls q.ask.tag } = .ok ([], true) ∧
    (({ f with wave := f.wave.without q.ask.cls q.ask.tag } : Env).kReg q.ask.k.toNat) = .ok 3 ∧
    openMeet f q.ask = some vote ∧ 0 ∈ vote.members ∧ vote.agrees q.ask 3 = true ∧
    t.meetLive f.waveKey (joined f q.ask 3 [] true) = [0, 1] ∧ (joined f q.ask 3 [] true).presenters.map (·.lane) = [0, 1] ∧
    asked i = some q ∧ (∀ n ∈ q.ask.regs, Has e n) ∧
    (∃ r, asked (.gred 3 4 1 0) = some r ∧ r.ask.regs = [4, 1] ∧
      r.reads { e with wave := e.wave.without r.ask.cls r.ask.tag } = .ok ([(7, false)], false)) := by
  refine ⟨rfl, rfl, rfl, rfl, rfl, rfl, rfl, by decide, by decide +kernel, rfl, rfl, rfl, rfl, rfl, rfl, by decide, rfl, rfl,
    rfl, rfl, ?_, _, rfl, rfl, rfl⟩
  intro n hn
  cases hn

/-- A meet of two presenters that has closed. -/
def closedMeet (cls minor op : Nat) : Meet :=
  { id := 9, closed := true, cls := cls, tag := 3, own := none, minor := minor, op := op, order := 3, scope := 3,
    kEnable := false, kValue := 0, dst := 1, src := 0,
    presenters := [⟨0, [(7, false), (5, false)], true, 2, 1, 0, 0x400014⟩, ⟨1, [(7, false), (6, false)], false, 2, 1, 0, 0x400014⟩],
    members := [0, 1], acks := none, asked := false, parts := [] }

/-- The two lanes stand Blocked in a closed meet. -/
def blockedLanes (m : Meet) : State :=
  let s := groupLane 2 [m]
  { s with strands := s.strands.map fun p => (p.1, { p.2 with life := .blocked (.meet m.cls m.tag false) }) }

/-- An HLD of entry `i` of a handle table of one entry at 0x500000, its record not asked for, or come back in one part. -/
def tableMeet (i : Word) (asked : Bool) (parts : Tbl (List Byte × Bool)) : Meet :=
  { closedMeet 0x17 0 0 with
    presenters := [⟨0, [(i, false)], true, 2, 1, 0, 0x400014⟩, ⟨1, [(i, false)], false, 2, 1, 0, 0x400014⟩]
    asked := asked, parts := parts }

def tableState (m : Meet) (loads : List Load) : State :=
  { blockedLanes m with
    grids := [(5, { grid with level := 2, launch := { grid.launch with htab := 0x500000, htabLen := 1 } })], loads := loads }

/-- The read of that record. -/
def tableLoad : Load := ⟨12, 0, .table 9 0, 0, 3, 0x500000, 0x500000, 32, false, 0, 0, 0, true, [0, 0, 0, 0]⟩

theorem witness_tables :
    (∀ asked, let m := tableMeet 0 asked []
     let s := tableState m []
     (s.handleTable wave.grid) = (0x500000, 1) ∧ m.cls = 0x17 ∧ m.minor = 0 ∧ wave.partner = none ∧ wave.trailing = false ∧
     m.parts.length < (recordParts ((s.handleTable wave.grid).1 + 32 * 0)).length ∧ m.asked = asked ∧
     s.translateAll 0 kTable (recordParts 0x500000) = .ok [(0x500000, 0x500000, 32)]) ∧
    ((tableState (tableMeet 1 false []) []).handleTable wave.grid).2 ≤ (1 : Word).toNat ∧
    (∀ bad, let b := toBytes 32 (handle 0 2 7 0 8 0x500000).toNat
     let m := tableMeet 0 true [(0, b, bad)]
     (recordParts 0x500000).length ≤ m.parts.length ∧ hValid (.ofNat 256 (fromBytes (m.parts.flatMap fun p => p.2.1))) = true ∧
     m.parts.any (·.2.2) = bad) ∧
    hValid (.ofNat 256 (fromBytes (toBytes 32 (handle 0 5 7 0 8 0x500000).toNat))) = false ∧
    (let s := tableState (tableMeet 0 true []) [tableLoad]
     s.loads.find? (·.id = tableLoad.id) = some tableLoad ∧ tableLoad.granted = true ∧
     (s.loadStands tableLoad && s.olderAtSlice tableLoad.pa tableLoad.id) = false ∧
     (s.globalRead 0 0 0x500000 32 0 0 tableLoad.clock 12).isSome = true) := by
  refine ⟨fun asked => ?_, by decide +kernel, fun bad => ⟨Nat.le_of_eq rfl, ?_, by cases bad <;> rfl⟩, by decide +kernel, rfl, rfl,
    by decide +kernel, by decide +kernel⟩
  · cases asked <;> exact ⟨rfl, rfl, rfl, rfl, rfl, by decide +kernel, rfl, rfl⟩
  · cases bad <;> decide +kernel

theorem witness_meets_complete :
    (closedMeet 0x1A 2 0).presenters = ⟨0, [(7, false), (5, false)], true, 2, 1, 0, 0x400014⟩ ::
      [⟨1, [(7, false), (6, false)], false, 2, 1, 0, 0x400014⟩] ∧
    (([(7, false), (5, false)] : List (Word × Bool)).any (·.2)) = false ∧
    hValid (wordsRecord (recordWords (handle 0 2 7 0 8 0x500000))) = true ∧
    hValid (wordsRecord (recordWords (handle 0 5 7 0 8 0x500000))) = false ∧
    wave.partner = none ∧ (blockedLanes (closedMeet 0x1A 6 0)).contained wave.team = false ∧
    (closedMeet 0x1A 6 0).acks = none ∧
    (∀ p ∈ (closedMeet 0x1A 6 0).presenters, (∀ l ∈ (blockedLanes (closedMeet 0x1A 6 0)).loads, l.strand ≠ strandNo 0 p.lane) ∧
      (blockedLanes (closedMeet 0x1A 6 0)).readsOutstanding (strandNo 0 p.lane) = false ∧
      (blockedLanes (closedMeet 0x1A 6 0)).storesOf (strandNo 0 p.lane) = []) ∧
    (blockedLanes (closedMeet 0x1A 6 0)).awaits [3] false = false ∧
    (let s := { blockedLanes (closedMeet 0x1A 6 0) with teams := [(7, { team with contained := true, buffer := buffered })] }
     s.contained wave.team = true ∧ s.allCompared 7 = true) ∧
    (blockedLanes (closedMeet 0x1A 2 0)).waves.find 0 = some { wave with k := [(1, 3)], meets := [closedMeet 0x1A 2 0] } ∧
    ([closedMeet 0x1A 2 0].filter fun y => y.cls = (0x1A : Byte).toNat && y.tag = (3 : Byte).toNat) = [closedMeet 0x1A 2 0] := by
  refine ⟨rfl, rfl, by decide +kernel, by decide +kernel, rfl, rfl, rfl, ?_, rfl, ⟨rfl, by decide +kernel⟩, rfl, rfl⟩
  decide +kernel

theorem witness_meet_grants : let m := closedMeet 0x1A 2 0
    (m.presenters.map (·.lane)).Nodup ∧ (∀ p ∈ m.presenters, p.lane < 64) ∧
    ((blockedLanes m).core (bankCore (waveBank 0))).inject = none ∧
    (∀ p ∈ m.presenters, (blockedLanes m).strands.find (strandNo 0 p.lane) ≠ none) := by
  refine ⟨by decide +kernel, by decide +kernel, rfl, by decide +kernel⟩

theorem witness_group_results : let m := closedMeet 0x1A 1 0
    m.presenters.Pairwise (fun a b => a.lane < b.lane) ∧ (∀ p ∈ m.presenters, p.lane < wave.width) ∧ wave.width ≤ 64 ∧
    (∀ p ∈ m.presenters, m.presenters.filter (fun q => q.word 0 = p.word 0) = m.presenters) ∧
    (∀ p ∈ m.presenters, m.op < 12 ∧ p ∈ m.presenters) ∧ wave.width = 16 ∧
    Op.ofGroup 2 ∉ [Op.addF, .mulF, .minF, .maxF] := by
  refine ⟨by decide +kernel, by decide +kernel, by decide, by decide +kernel, fun p h => ⟨by decide, h⟩, rfl, by decide +kernel⟩

/-- A window of two entries after three pushes (R235, R236). -/
def windowAcc (op : Nat) : Acc :=
  let x : Word := if op = 13 then 1 else 0
  [(5, x), (0xFFFFFFFF, x), (7, x)].foldl (fun a x => (Acc.push a x).1) (Acc.empty (.ofNat 32 (2 * 65536 + op)))

/-- A team with a full window of two entries of the operator `op` (R235), and one that is empty, in scratch that holds an
image of the first at byte 256. -/
def windowTeam (op : Nat) : Team :=
  { (team.scratchWrite 256 (clean (windowAcc op).image)) with
    accs := [(0, windowAcc op), (1, Acc.empty (.ofNat 32 (2 * 65536 + op)))] }

/-- A lane of that team: v2 holds a CFG of the longest window, h1 the image's handle. -/
def windowLane (op : Nat) : State :=
  let s := withHandles (lane [(1, 7), (2, .ofNat 32 (0x08000000 + op)), (3, 9), (4, 16), (5, 3),
      (8, .ofNat 32 (0x08000000 + (14 - op)))])
    [(1, handle 1 4 7 0 256 0)]
  { s with teams := [(7, windowTeam op)] }

/-- The same lane where the team's accumulators lie in core 1. -/
def remoteLane (op : Nat) : State := { windowLane op with teams := [(7, { windowTeam op with bank := 2 })] }

def accOf (e : Env) (n : Nat) : Acc := match e.acc n with | .ok a => a | .error _ => Acc.empty 0

theorem witness_windows : ∀ op ∈ [1, 13],
    let s := windowLane op
    let e := envOf s
    s.env = some e ∧ Alone e ∧ e.acc 0 = .ok (accOf e 0) ∧ (accOf e 0).bad = [] ∧ e.acc 1 = .ok (accOf e 1) ∧
    (accOf e 0).count = 2 ∧ (accOf e 1).count = 0 ∧
    Reads e 2 (.ofNat 32 (0x08000000 + op)) ∧ cfgOk (.ofNat 32 (0x08000000 + op)) = true ∧ Reads e 3 9 ∧ Reads e 4 16 ∧
    Reads e 5 3 ∧ cfgArg (accOf e 0).cfg = decide (op = 13) ∧ Has e 6 ∧ Has e 7 ∧ (4 : Nat) % 2 = 0 ∧
    e.hReg 1 = .ok (handle 1 4 7 0 256 0) ∧ imageHandle (handle 1 4 7 0 256 0) = true ∧
    hPermW (handle 1 4 7 0 256 0) = true ∧ hPermR (handle 1 4 7 0 256 0) = true ∧ s.readsOutstanding e.key = false ∧
    e.imageAt (handle 1 4 7 0 256 0) 16 ((imageBytes (accOf e 0).cfg (accOf e 0).count + 15) / 16) = .ok 256 ∧
    e.imageAt (handle 1 4 7 0 256 0) 16 1 = .ok 256 ∧
    (let head := (s.scratchRead e.wave.team 256 16).bytes
     let len := imageBytes (wordAt head 0) (fld (wordAt head 4).toNat 0 13)
     headerOk (wordAt head 0) (wordAt head 4) = true ∧ e.imageAt (handle 1 4 7 0 256 0) 16 ((len + 15) / 16) = .ok 256 ∧
     (s.scratchRead e.wave.team 256 len).poisoned = false) := by
  intro op h
  simp only [List.mem_cons, List.not_mem_nil, or_false] at h
  rcases h with rfl | rfl <;>
    exact ⟨rfl, rfl, rfl, rfl, rfl, rfl, rfl, reads_of rfl rfl, rfl, reads_of rfl rfl, reads_of rfl rfl, reads_of rfl rfl, rfl,
      has_of rfl, has_of rfl, rfl, rfl, by decide +kernel, by decide +kernel, by decide +kernel, rfl, rfl, rfl, rfl, rfl, rfl⟩

/-- An operation of core 1 on accumulator 0 of the remote lane's team. -/
def aWaOp (minor : Nat) (turns late : Bool) : WaOp :=
  { id := 9, issue := 4, core := 1, strand := 0, minor := minor, acc := 0, d := 6, x := (0, 0), turns := turns, late := late,
    here := 0x400010, a := 3, h := 0, poison := false }

theorem witness_remote_windows : ∀ op ∈ [1, 13], ∀ turns : Bool,
    let s := (remoteLane op).modTeam 7 fun t => { t with waOps := if turns then [aWaOp 0 true false] else [] }
    let e := envOf s
    s.env = some e ∧ Alone e ∧ e.acc 0 = .ok (accOf e 0) ∧ (accOf e 0).bad = [] ∧ e.remoteAccs = true ∧
    (envOf (windowLane op)).remoteAccs = false ∧ e.unsettled 0 = turns ∧ e.waQueued 0 = turns ∧
    (match e.read 4 with | .error .hold => false | _ => true) = true ∧
    e.hReg 1 = .ok (handle 1 4 7 0 256 0) ∧ imageHandle (handle 1 4 7 0 256 0) = true ∧ Reads e 4 16 ∧
    hPermW (handle 1 4 7 0 256 0) = true ∧ hPermR (handle 1 4 7 0 256 0) = true ∧ s.readsOutstanding e.key = false ∧
    -- a CFG of the other kind of operator
    Reads e 8 (.ofNat 32 (0x08000000 + (14 - op))) ∧ cfgOk (.ofNat 32 (0x08000000 + (14 - op))) = true ∧
    cfgArg (.ofNat 32 (0x08000000 + (14 - op))) ≠ cfgArg (accOf e 0).cfg := by
  intro op h turns
  simp only [List.mem_cons, List.not_mem_nil, or_false] at h
  rcases h with rfl | rfl <;> cases turns <;>
    exact ⟨rfl, rfl, rfl, rfl, rfl, rfl, rfl, rfl, rfl, rfl, by decide +kernel, reads_of rfl rfl, by decide +kernel,
      by decide +kernel, rfl, reads_of rfl rfl, by decide +kernel, by decide +kernel⟩

/-- An operation on its way from core 1 to a sound accumulator, or to one with a faulty entry. -/
def arriving (op : WaOp) (bad : List Nat) : State :=
  { withStrand (windowLane 1) fun st => if op.late then { st with life := .waiting (.reply 9) } else st with
    turns := [.upset (.waArrive 7 1)]
    teams := [(7, { windowTeam 1 with accs := [(0, { windowAcc 1 with bad := bad })], waOps := [op] })] }

theorem witness_window_arrives : (∀ bad ∈ [[], [0, 1, 2, 3]], ∀ late,
    let op := aWaOp 2 false late
    let s := arriving op bad
    let a : Acc := { windowAcc 1 with bad := bad }
    s.issue = none ∧ (s.teams.find 7).map (·.waOps) = some [op] ∧ (s.teams.find 7).map (·.accs) = some [(0, a)] ∧
    ([op].filter fun o => o.core = op.core && o.issue = op.issue) = [op] ∧
    (match a.perform op.minor op.x with | .ok _ => bad == [] | .error _ => bad != []) = true ∧
    (s.strands.find op.strand).isSome = true ∧
    (let mid := ({ s with turns := [] } : State).modTeam 7 fun t => { t with waOps := [] }
     let at' : State := { mid.modStrand op.strand fun st => { st with life := .ready } with
       cur := { strand := op.strand, bundle := op.here, word := op.here, hints := {} } }
     at'.env = some (envOf at') ∧ Alone (envOf at') ∧
     (match (envOf at').waTurn op with | .ok _ => bad == [] | .error _ => bad != []) = true)) ∧
    -- one that turns the accumulator comes behind the others
    (aWaOp 0 true false).turns = true ∧ (∀ o ∈ [aWaOp 0 true false, aWaOp 2 false true], o.acc = 0 → o.late = true ∨ o = aWaOp 0 true false) := by
  refine ⟨?_, rfl, by decide +kernel⟩
  intro bad h late
  simp only [List.mem_cons, List.not_mem_nil, or_false] at h
  rcases h with rfl | rfl <;> cases late <;>
    exact ⟨rfl, rfl, rfl, by decide +kernel, by decide +kernel, rfl, rfl, rfl, by decide +kernel⟩

theorem witness_aggregates : cfgOk 0x10000002 = true ∧ cfgOp 0x10000002 = 2 ∧ cfgOk 0x0001000B = true ∧
    cfgOp 0x0001000B = 11 ∧ cfgLen 0x10000002 = 4096 ∧ cfgLen 0x0001000B = 1 := by decide +kernel

theorem witness_images : (∀ op ∈ [1, 13],
      cfgOk (windowAcc op).cfg = true ∧ (windowAcc op).count ≤ cfgLen (windowAcc op).cfg ∧ (windowAcc op).count = 2 ∧
      (windowAcc op).bad = [] ∧ (windowAcc op).back ≠ []) ∧
    cfgArg (windowAcc 1).cfg = false ∧ (∀ x ∈ (windowAcc 1).front ++ (windowAcc 1).back, x.2 = 0) ∧
    (windowAcc 1).agg.2 = 0 ∧ cfgArg (windowAcc 13).cfg = true := by
  refine ⟨?_, by decide +kernel, fun x hx => ?_, by decide +kernel, by decide +kernel⟩
  swap
  · have h : ((windowAcc 1).front ++ (windowAcc 1).back).all (fun x => x.2 == 0) = true := by decide +kernel
    simpa using List.all_eq_true.mp h x hx
  intro op h
  simp only [List.mem_cons, List.not_mem_nil, or_false] at h
  rcases h with rfl | rfl <;>
    exact ⟨by decide +kernel, by decide +kernel, by decide +kernel, by decide +kernel, by decide +kernel⟩

/-- A lane whose team holds two context tiles of a bank, with handles of A (h1), B (h2) and C (h3) of the type's element
size. -/
def matrixLane (type : Nat) (queue : List MxEntry) : State :=
  let s := withHandles (lane [(1, .ofNat 32 (mxDepth type)), (2, 0x00004000), (3, 4095), (4, 7)])
    [(1, handle 1 (mxSize type - 1) 7 0 4096 0), (2, handle 1 (mxSize type - 1) 7 0 8192 0), (3, handle 1 2 7 0 4096 0)]
  { s with teams := [(7, { team with tiles := [2, 3], scratchSize := 16384 })]
           banks := [(0, { Bank.reset with asid := some 3, mapping := 8, order := [⟨0, none⟩], mxQueue := queue })] }

theorem witness_matrix_commands : ∀ type < 6, let s := matrixLane type []
    let e := envOf s
    let hA := handle 1 (mxSize type - 1) 7 0 4096 0
    let hB := handle 1 (mxSize type - 1) 7 0 8192 0
    s.env = some e ∧ Alone e ∧ e.tile (1 : BitVec 4).toNat = .ok 3 ∧ (s.bank e.engine).mxQueue.length < 64 ∧
    decide (32 ≤ e.st.openGroup.length) = false ∧ e.hReg 1 = .ok hA ∧ e.hReg 2 = .ok hB ∧
    Reads e 1 (.ofNat 32 (mxDepth type)) ∧ mxHandleOk (mxSize type) hA = true ∧ mxHandleOk (mxSize type) hB = true ∧
    (let k := (BitVec.ofNat 32 (mxDepth type)).toNat % 65536
     let koff := (BitVec.ofNat 32 (mxDepth type)).toNat / 65536
     mxDepth type ≤ k ∧ k % mxDepth type = 0 ∧ koff % mxDepth type = 0 ∧ koff + k ≤ 4096 ∧ hPermR hA = true ∧
     hPermR hB = true ∧ mxFits hA (64 * (koff + k)) (mxSize type) e.scratchGrant = true ∧
     mxFits hB (mxSpanB type (koff + k)) (mxSize type) e.scratchGrant = true) ∧
    e.hReg 3 = .ok (handle 1 2 7 0 4096 0) ∧ Reads e 2 0x00004000 ∧ mxHandleOk 4 (handle 1 2 7 0 4096 0) = true ∧
    hPermW (handle 1 2 7 0 4096 0) = true ∧ mxFits (handle 1 2 7 0 4096 0) (64 * 64) 4 e.scratchGrant = true ∧
    Reads e 3 4095 ∧ Reads e 4 7 ∧ Has e 5 ∧ (s.bank e.engine).mxQueue = [] := by
  intro type h
  interval_cases type <;>
    exact ⟨rfl, rfl, rfl, by decide +kernel, rfl, rfl, rfl, reads_of rfl rfl, by decide +kernel, by decide +kernel,
      by decide +kernel, rfl, reads_of rfl rfl, by decide +kernel, by decide +kernel, by decide +kernel, reads_of rfl rfl,
      reads_of rfl rfl, has_of rfl, rfl⟩

/-- The entry that an earlier lane of the same issue has made. -/
def anAccess : MxEntry :=
  { id := 9, issue := some 4, tile := 3, team := 7, wave := 0, lane := 0, progress := 0, residue := 0,
    op := .access [⟨0, 3, 5, 6, none⟩] }

theorem witness_matrix_joins : let s : State := { matrixLane 4 [anAccess] with issue := some (endedIssue []) }
    let e := envOf s
    s.env = some e ∧ Alone e ∧ e.issueEntry = some anAccess ∧ Has e 5 ∧ Reads e 3 4095 ∧ Reads e 4 7 ∧
    (s.bank e.engine).mxQueue = [anAccess] :=
  ⟨rfl, rfl, rfl, has_of rfl, reads_of rfl rfl, reads_of rfl rfl, rfl⟩

/-- The same with a full open group and seven closed groups outstanding. -/
def fullGroups : State :=
  withStrand (matrixLane 4 []) fun st =>
    { st with openGroup := List.range 32, closed := (List.range 7).map fun n => ⟨n, []⟩ }

theorem witness_full_group : let s := fullGroups
    let e := envOf s
    s.env = some e ∧ Alone e ∧ decide (32 ≤ e.st.openGroup.length) = true ∧ s.waveGroups e.waveKey < 8 ∧
    e.st.closed.length ≤ (7 : BitVec 7).toNat ∧ (6 : BitVec 7).toNat < e.st.closed.length ∧ Has e 5 ∧ Reads e 4 7 ∧
    s.strands.find e.key = some { e.st with pc := 0x400010 } ∧ e.st.closed.find? (·.number = 6) = some ⟨6, []⟩ ∧ e.st.life ≠ .blocked .sleep ∧
    (s.bank (s.engineBank e.key)).mxQueue = [] :=
  ⟨rfl, rfl, rfl, by decide +kernel, by decide +kernel, by decide +kernel, has_of rfl, reads_of rfl rfl, rfl, rfl,
    by decide +kernel, rfl⟩

def anMma (type : Nat) : MxEntry :=
  { id := 9, issue := some 0, tile := 3, team := 7, wave := 0, lane := 0, progress := 0, residue := 0,
    op := .mma type false (handle 1 (mxSize type - 1) 7 0 4096 0) (handle 1 (mxSize type - 1) 7 0 8192 0) 0 (mxDepth type) }

/-- The engine with one command at the head of its queue, in a team whose scratch holds ones. -/
def engineState (type : Nat) (op : MxOp) : State :=
  let s := matrixLane type [{ anMma type with op := op }]
  { s with teams := s.teams.map fun p => (p.1, { p.2 with scratch := (List.range 64).map fun k => (k, 1) }) }

theorem witness_engine : ∀ type < 6,
    let hA := handle 1 (mxSize type - 1) 7 0 4096 0
    let hB := handle 1 (mxSize type - 1) 7 0 8192 0
    let s := engineState type (anMma type).op
    (s.bank (s.activeBank 0)).mxQueue = anMma type :: [] ∧ s.engineHeld 0 = false ∧ (s.core 0).tileBad = [] ∧
    s.entering 0 (anMma type) = false ∧
    (anMma type).residue = 0 ∧
    (∃ t, s.teams.find 7 = some t ∧ (t.scratchRead (hBase0 hA) (64 * mxDepth type * mxSize type)).poisoned = false ∧
      (t.snapshotB type hB 0 (mxDepth type) 0).2.2.2 = false) := by
  intro type h
  interval_cases type <;> exact ⟨rfl, rfl, rfl, rfl, rfl, _, rfl, by decide +kernel, by decide +kernel⟩

/-- Descriptors in scratch: of a TCPY of 2 by 3 elements of four bytes at byte 0, of a CHAIN that multiplies two f32
elements by one at byte 128 (R297, R299). -/
def descriptorBytes : List Byte :=
  let word := fun (x : Nat) => toBytes 4 x
  ([2, 2, 0, 0, 0, 0, 0, 0] : List Byte) ++ ([2, 3, 1, 1, 1, 1, 1, 1].flatMap word) ++ ([1, 4, 0, 0, 0, 0, 0, 0].flatMap word)
    ++ ([1, 2, 0, 0, 0, 0, 0, 0].flatMap word) ++ List.replicate 24 0
    ++ word 2 ++ ([1, 0, 0, 0] : List Byte) ++ List.replicate 24 0 ++ ([1, 0, 0, 0] : List Byte) ++ word 0x3F800000
    ++ List.replicate 120 0

/-- A lane at a copy command: v8 to v10 for CPY, v12 to v14 for TCPY, v16 to v18 for CHAIN; h1 a local and h2 a global
handle of four-byte elements. -/
def copyLane : State :=
  let s := withHandles (lane [(8, 0), (9, 4), (10, 16), (12, 0), (13, 1), (14, 0), (16, 2), (17, 3), (18, 128)])
    [(1, handle 1 2 7 0 256 1024), (2, handle 0 2 7 0 256 0x500000)]
  { s with teams := [(7, { team with scratch := (descriptorBytes.zipIdx.map fun p => (p.2, p.1)) })]
           grids := [(5, { grid with level := 2 })] }

def okBytes (x : Act Marked) (b : List Byte) : Bool := match x with | .ok c => c == clean b | .error _ => false
def okOp (x : Act CopyOp) : Bool := match x with | .ok _ => true | .error _ => false

theorem witness_copies : let s := copyLane
    let e := envOf s
    let hl := handle 1 2 7 0 256 1024
    let hg := handle 0 2 7 0 256 0x500000
    s.env = some e ∧ Alone e ∧ e.tagNo (2 : BitVec 6).toNat = .ok 2 ∧ e.hReg 1 = .ok hl ∧ e.hReg 2 = .ok hg ∧
    Reads e 8 0 ∧ Reads e 9 4 ∧ Reads e 10 16 ∧ Reads e 12 0 ∧ Reads e 13 1 ∧ Reads e 14 0 ∧ Reads e 16 2 ∧ Reads e 17 3 ∧
    Reads e 18 128 ∧ copyHandle hl = true ∧ copyHandle hg = true ∧ hPermR hl = true ∧ hPermW hg = true ∧
    (s.bank e.engine).copies.length < 64 ∧ hKind hl = 1 ∧ hKind hg ≠ 1 ∧ s.readsOutstanding e.key = false ∧
    e.isContained = false ∧ s.storesOf e.key = [] ∧
    (16 : Nat) % hEsize hl = 0 ∧ copyFits hl 0 16 e.scratchGrant = true ∧ copyFits hg 16 32 e.scratchGrant = true ∧
    (let t := s.modTeam 7 fun x => { x with contained := true, buffer := buffered }
     t.env = some (envOf t) ∧ (envOf t).isContained = true ∧ t.allCompared 7 = true) :=
  ⟨rfl, rfl, rfl, rfl, rfl, reads_of rfl rfl, reads_of rfl rfl, reads_of rfl rfl, reads_of rfl rfl, reads_of rfl rfl,
    reads_of rfl rfl, reads_of rfl rfl, reads_of rfl rfl, reads_of rfl rfl, by decide +kernel, by decide +kernel,
    by decide +kernel, by decide +kernel, by decide +kernel, by decide +kernel, by decide +kernel, rfl, rfl, rfl,
    by decide +kernel, by decide +kernel, by decide +kernel, rfl, rfl, by decide +kernel⟩

theorem witness_descriptors : let e := envOf copyLane
    let hl := handle 1 2 7 0 256 1024
    let hg := handle 0 2 7 0 256 0x500000
    okBytes (e.descriptor 0 128) (descriptorBytes.take 128) = true ∧
    okBytes (e.descriptor 128 160) (descriptorBytes.drop 128) = true ∧
    okOp (tensorOp (descriptorBytes.take 128) hl hg 0 1 e.scratchGrant) = true ∧
    okOp (chainOp (descriptorBytes.drop 128) hl hg 2 3 e.scratchGrant) = true :=
  ⟨by decide +kernel, by decide +kernel, by decide +kernel, by decide +kernel⟩

/-- A lane whose team's tags 0 and 2 are ready; masks in Pair(2) (tags 0 and 1), Pair(4) (tag 1) and Pair(6) (none). -/
def tagLane : State :=
  (lane [(1, 5), (2, 3), (3, 0), (4, 2), (5, 0), (6, 0), (7, 0), (8, 5), (9, 0)]).modBank 0 fun b =>
    { b with tags := [(0, ⟨8, 0, false, true, 1⟩), (1, ⟨8, 8, true, false, 0⟩), (2, ⟨4, 0, false, true, 0⟩)] }

theorem witness_tags : let s := tagLane
    let e := envOf s
    s.env = some e ∧ Alone e ∧ e.tagNo (1 : BitVec 6).toNat = .ok 1 ∧ Reads e 1 5 ∧ Reads e 6 0 ∧ Has e 10 ∧ Has e 11 ∧
    Has e 12 ∧ e.team = some team ∧ ReadsPair e 2 3 ∧ ReadsPair e 4 2 ∧ ReadsPair e 6 0 ∧ ReadsPair e 8 5 ∧
    (5 : Dword).toNat < 2 ^ team.tags.length ∧ e.readyBits = 5 ∧
    ((3 : Dword).toNat &&& e.readyBits) = 1 ∧ ((2 : Dword).toNat &&& e.readyBits) = 0 ∧
    ((5 : Dword).toNat &&& e.readyBits) = (5 : Dword).toNat ∧ (1 : Nat).testBit 0 = true :=
  ⟨rfl, rfl, rfl, reads_of rfl rfl, reads_of rfl rfl, has_of rfl, has_of rfl, has_of rfl, rfl, readsPair_of rfl rfl rfl,
    readsPair_of rfl rfl rfl, readsPair_of rfl rfl rfl, readsPair_of rfl rfl rfl, by decide +kernel, rfl, rfl, rfl, rfl, rfl⟩

/-- A copy of 300 bytes whose second block is to land, to scratch or to global memory. -/
def aCopy (toGlobal : Bool) : Copy :=
  { id := 9, op := .linear 0 1024 300, hs := handle 1 2 7 0 1024 0,
    hd := if toGlobal then handle 0 2 7 0 1024 0x500000 else handle 1 2 7 0 1024 0, tag := 2, team := 7, strand := 0,
    pol := 0, landed := [0], blocks := 2, owned := if toGlobal then [(0x5005, 44)] else [], unplaced := [], writes := [],
    stopped := none, retry := false, windows := [], after := [], crc := 0 }

def landState (toGlobal : Bool) : State :=
  let s := (lane []).modBank 0 fun b =>
    { b with copies := [aCopy toGlobal], tags := [(2, ⟨300, 44, true, false, 0⟩)] }
  { s with teams := [(7, { team with scratch := [(256, 0x11), (257, 0x22), (299, 0x33)] })]
           grids := [(5, { grid with level := 2 })] }

def sameCopy (x : Option (Nat × Copy)) (c : Copy) : Bool := x == some (0, c)

theorem witness_copy_landing : ∀ g, let s := landState g
    let c := aCopy g
    s.findCopy c.id = some (0, c) ∧ c.op = .linear 0 1024 300 ∧ c.blocks = c.op.blocks c.hd ∧ c.windows = [] ∧
    c.stopped = none ∧ s.awaits c.after false = false ∧ s.crcFailed c = false ∧ s.engineStopped (bankCore 0) = false ∧
    s.unowned c 1 = false ∧ c.writes = [] ∧
    ((s.banks.filter fun p => bankCore p.1 = bankCore 0).flatMap fun p =>
      p.2.copies.filter fun d => d.landed ≠ []).length < 16 ∧
    (∀ t, s.teams.find c.team = some t → t.poisonWords = [] ∧ t.scratch.map (·.1) = [256, 257, 299]) ∧
    copyAddr c.hd 1024 % 256 = 0 ∧ s.banks.map (fun p => (p.1, p.2.copies)) = [(0, [c])] ∧ 1 < c.blocks ∧
    1 ∉ c.landed ∧ hKind c.hs = 1 ∧ (s.teams.find c.team).isSome = true ∧ ((s.bank 0).tag c.tag).armed = true ∧
    min 256 (300 - 256 * 1) ≤ ((s.bank 0).tag c.tag).remaining.toNat ∧ MemoryOk s ∧
    (g = false → hKind c.hd = 1 ∧ hBase0 c.hs + (0 + 256 * 1) + 44 ≤ hBase0 c.hd + (1024 + 256 * 1)) ∧
    (g = true → hKind c.hd ≠ 1 ∧ lineOf 0x500500 = lineOf (0x500500 + 44 - 1) ∧
      homeDie 0x500500 = some (coreDie (strandCore c.strand)) ∧
      (List.range 44).all (fun j => s.copyTo c ((hBase0 c.hd + (1024 + 256 * 1) + j) % 2 ^ 57) matches .ok (some _)) = true ∧
      s.copyTo c ((hBase0 c.hd + (1024 + 256 * 1) + 43) % 2 ^ 57) = .ok (some (0x500500 + 43)) ∧
      s.ownedBefore (lineOf 0x500500) c.id = false ∧ s.olderAtSlice (lineOf 0x500500 * 256) s.nextId = false ∧ s.flights = [] ∧
      (∀ p ∈ c.owned, p.2 ≠ 0) ∧ c.owns (lineOf 0x500500) = true ∧ s.touches c (lineOf 0x500500) 0 = false) := by
  intro g
  cases g <;>
    exact ⟨rfl, rfl, by decide +kernel, rfl, rfl, rfl, rfl, rfl, rfl, rfl, by decide +kernel,
      fun t h => by cases h; exact ⟨rfl, rfl⟩, by decide +kernel, rfl, by decide, by decide, by decide +kernel, rfl, rfl,
      by decide +kernel, rfl, by decide +kernel, by decide +kernel⟩

theorem witness_copy_retry : let c : Copy := { aCopy true with stopped := some 0x500500, retry := true }
    let s := (lane []).modBank 0 fun b => { b with copies := [c] }
    s.findCopy c.id = some (0, c) ∧ c.stopped ≠ none ∧ c.retry = true ∧ s.engineStopped (bankCore 0) = false :=
  ⟨rfl, by decide, rfl, rfl⟩

/-- A write of the copy's second block that has left for its line, of the copy's own die or of another one. -/
def copyWrite (stamp : Option (List Nat)) : CopyWrite :=
  { block := 1, line := 0x5005, cells := [(0x500500, 1), (0x500501, 0)], count := 2, flags := 0, bad := false, stamp := stamp }

theorem witness_copy_writes : ∀ p ∈ [(0, none), (256, some [0, 1, 0, 0])], let w := copyWrite p.2
    let c : Copy := { aCopy true with landed := [0, 1], writes := [w], strand := strandNo (33 * p.1) 0 }
    let s : State := (landState true).modBank p.1 fun b =>
      { b with copies := [c], tags := [(2, ⟨300, 44, true, false, 0⟩)] }
    let s : State := if p.1 = 0 then s else s.modBank 0 fun b => { b with copies := [] }
    s.findCopy c.id = some (p.1, c) ∧ 1 ∈ c.landed ∧ (c.writes.filter fun x => x.block = 1) = [w] ∧ w.cells ≠ [] ∧ w.bad = false ∧
    homeDie (w.line * 256) = some 0 ∧ (∀ v, w.stamp = some v → applicable (s.die 0).clock v (coreDie (strandCore c.strand)) = true) ∧
    s.ownedBefore w.line c.id = false ∧ (c.writes.takeWhile (· ≠ w)) = [] ∧ s.olderAtSlice (w.line * 256) s.nextId = false ∧
    s.flights = [] ∧ MemoryOk s ∧ ((s.bank p.1).tag c.tag).armed = true ∧ w.count ≤ ((s.bank p.1).tag c.tag).remaining.toNat ∧
    (w.cells.map (memKey ·.1)).Nodup := by
  intro p h
  simp only [List.mem_cons, List.not_mem_nil, or_false] at h
  rcases h with rfl | rfl <;>
    exact ⟨by decide +kernel, by decide, by decide, by decide, rfl, by decide +kernel,
      fun v h => by cases h <;> decide +kernel, by decide +kernel, by decide, by decide +kernel, rfl, rfl, by decide +kernel,
      by decide +kernel, by decide +kernel⟩

/-- A lane of a team whose barrier 0 has `arrived`; its wave has two live lanes, both Blocked in phase 4 when they wait. -/
def barrierLane (arrived : List Nat) (waiting : Bool) : State :=
  let life : Life := if waiting then .blocked (.barrier 0 4) else .ready
  let s := lane [(1, 4), (2, 5)]
  { s with
    strands := [(0, { strand [(1, 4), (2, 5)] with life := life }), (1, { strand [] with life := life })]
    teams := [(7, { team with barriers := [(0, ⟨4, arrived⟩)] })] }

theorem witness_barriers :
    (let s := barrierLane [1] false
     let e := envOf s
     s.env = some e ∧ Alone e ∧ e.team = some { team with barriers := [(0, ⟨4, [1]⟩)] } ∧ s.ownOutstanding e.key = false ∧
     e.key ∉ [1] ∧ Has e 3 ∧ Reads e 1 4 ∧ Reads e 2 5) ∧
    (let s := barrierLane [1, 0] true
     let t : Team := { team with barriers := [(0, ⟨4, [1, 0]⟩)] }
     s.teams.find 7 = some t ∧ (t.barrier 0).arrived ≠ [] ∧ s.strands.map (·.1) = [0, 1] ∧
     ∀ k ∈ [0, 1], k ∈ (t.barrier 0).arrived ∧ (s.strands.find k).isSome = true) ∧
    (let s := barrierLane [1] true
     (s.strands.find 0).isSome = true ∧ ({ team with barriers := [(0, ⟨4, [1]⟩)] } : Team).waves.contains (strandWave 0) = true ∧
     s.teams.find 7 = some { team with barriers := [(0, ⟨4, [1]⟩)] } ∧
     0 ∉ (({ team with barriers := [(0, ⟨4, [1]⟩)] } : Team).barrier 0).arrived) ∧
    (∀ arrived : Bool, let k := moveStrand 1 (awayBank 9) (strandNo 33 0)
     let t : Team := { team with waves := [0, strandWave k], barriers := [(0, ⟨4, if arrived then [1, 0, k] else [1, 0]⟩)] }
     let x : Saved := { pa := 0x800000, id := 9, old := 1, vmid := 0, level := 0, bank := Bank.reset, waves := []
                        strands := [(strandNo 33 0, strand [])], teams := [], tiles := [], tileBad := [], offsets := [], watches := [] }
     let s : State := { barrierLane [] true with teams := [(7, t)], device := { Device.reset with saved := [x] } }
     s.teams.find 7 = some t ∧ s.awayStrands t = [k] ∧ s.strands.find k = none ∧ decide (k ∈ (t.barrier 0).arrived) = arrived) ∧
    (handlerLane false).strands.map (fun p => p.2.handler.isSome) = [true] ∧ team.waOps = [] := by
  refine ⟨⟨rfl, rfl, rfl, rfl, by decide, has_of rfl, reads_of rfl rfl, reads_of rfl rfl⟩,
    ⟨rfl, by decide +kernel, rfl, by decide +kernel⟩, ⟨rfl, rfl, rfl, by decide +kernel⟩, fun arrived => ?_, rfl, rfl⟩
  cases arrived <;> exact ⟨rfl, by decide +kernel, by decide +kernel, by decide +kernel⟩

/-- A launch record of one team of 32 lanes at 0x400100 with REVISION 2 (R278). -/
def launchRecord (revision : Nat) : List Byte :=
  toBytes 8 0x400100 ++ toBytes 4 0 ++ toBytes 4 1 ++ ([1, 32, 32, 64] : List Byte) ++ toBytes 4 0 ++ ([0, 0, 0, 0] : List Byte)
    ++ toBytes 2 (64 * revision) ++ toBytes 2 0 ++ List.replicate 96 0

/-- A level-1 lane that reads the record through h1 and launches; `busy` has a write on its way. -/
def launchLane (revision : Nat) (busy : Bool) : State :=
  let s := withHandles (codeLane [(1, 0)]) [(1, handle 0 4 7 0 8 0x500000)]
  let c : Context := ⟨2, 0x400800, [⟨1, [⟨0x400000, 0x400000⟩], [0x400100]⟩]⟩
  { s with
    grids := [(5, { grid with level := 2 })]
    device := { s.device with contexts := [(3, c)], nextGrid := 6, ctxTab := 0 }
    cores := [(0, { Core.reset with l1 := [{ line := 0x5000, dirty := [], poison := [], pol := 0
                                             bytes := place 0 (launchRecord revision ++ List.replicate 128 0) }] })]
    flights := if busy then [⟨3, 0, none, [(0x600000, 5)], none, none, false⟩] else [] }

/-- Where the parts of the record that the lane names are. -/
def recordPlaces : List (Option (Nat × Nat)) := (List.range 8).map fun j => some (0x500000 + 16 * j, 0x500000 + 16 * j)

/-- The lane of a contained team whose buffer is empty. -/
def containedLauncher : State := (launchLane 2 false).modTeam 7 fun x => { x with contained := true }

theorem witness_launch : (∀ busy, let s := launchLane 2 busy
    let e := envOf s
    let r := handle 0 4 7 0 8 0x500000
    s.env = some e ∧ Alone e ∧ Has e 4 ∧ Has e 5 ∧ Reads e 1 0 ∧ e.hReg 1 = .ok r ∧ hKind r = 0 ∧ hEsize r = 16 ∧
    (∃ st, s.strands.find e.key = some st ∧ st.life = .ready) ∧ e.lane = 0 ∧ e.wave.waveId = 0 ∧ e.locateAll r 0 8 = .ok () ∧
    e.recordPlaces r 0 8 = .ok recordPlaces ∧
    ({ e with s := s.writeBackAll e.cores } : Env).recordPlaces r 0 8 = .ok recordPlaces ∧
    s.ownOutstanding e.key = false ∧ e.isContained = false ∧
    (let t := s.writeBackAll e.cores
     let asks := t.releaseIds e.cores e.key 5 e.revision false
     t.stillOut asks.1 asks.2 = if busy then [3] else [])) ∧
    -- a contained team; a lane that has waited for its release
    (let s := containedLauncher
     let e := envOf s
     s.env = some e ∧ e.isContained = true ∧ s.allCompared e.wave.team = true ∧
     (let t := (s.commit e.wave.team).writeBackAll e.cores
      t.stillOut (t.releaseIds e.cores e.key 5 e.revision false).1 (t.releaseIds e.cores e.key 5 e.revision false).2 = [])) ∧
    (let s := withStrand (launchLane 2 false) fun st => { st with life := .waiting (.acks [3] false) }
     s.env = some (envOf s) ∧ (s.strands.find 0).map (·.life) = some (.waiting (.acks [3] false)) ∧ s.awaits [3] false = false) := by
  refine ⟨fun busy => ?_, ⟨rfl, rfl, by decide +kernel, rfl⟩, rfl, rfl, rfl⟩
  cases busy <;>
    exact ⟨rfl, rfl, has_of rfl, has_of rfl, reads_of rfl rfl, rfl, by decide +kernel, by decide +kernel, ⟨_, rfl, rfl⟩, rfl, rfl,
      rfl, rfl, rfl, rfl, rfl, rfl⟩

/-- The parts of a record as they have come back, one of them poisoned when `bad`. -/
def launchParts (revision : Nat) (bad : Bool) : Tbl (List Byte × Bool) :=
  (List.range 8).map fun j => (j, ((launchRecord revision).drop (16 * j)).take 16, bad && j == 3)

/-- The request that a LAUNCH has left. -/
def askedLaunch (revision : Nat) (bad : Bool) : State :=
  { launchLane revision false with pending := [(9, .launch 0 4 (launchParts revision bad) [])] }

/-- The read of a part of the record. -/
def partLoad : Load := ⟨12, 0, .launch 9 2, 0, 3, 0x500020, 0x500020, 16, false, 0, 0, 0, true, [0, 0, 0, 0]⟩

theorem witness_launch_parts :
    let s : State := { launchLane 2 false with pending := [(9, .launch 0 4 [] [])], loads := [partLoad] }
    s.loads.find? (·.id = partLoad.id) = some partLoad ∧ partLoad.granted = true ∧
    (s.loadStands partLoad && s.olderAtSlice partLoad.pa partLoad.id) = false ∧ partLoad.use = .launch 9 2 ∧
    (match s.readLoad partLoad with
     | some (_, _, u) => u.pending.find 9 == some (.launch 0 4 [] [])
     | none => false) = true := by
  exact ⟨rfl, rfl, by decide +kernel, rfl, by decide +kernel⟩

theorem witness_launch_status : ∀ revision ∈ [1, 2], ∀ bad, let s := askedLaunch revision bad
    let parts := launchParts revision bad
    s.pending.find 9 = some (.launch 0 4 parts []) ∧ s.awaits [] true = false ∧ 8 ≤ parts.length ∧ parts.any (·.2.2) = bad ∧
    (let t : State := { s with pending := s.pending.drop 9 }
     let p := parseLaunch (parts.flatMap fun x => x.2.1)
     t.budgetOpen (s.launcherOf 0) p.1 = true ∧ (t.launchStatus (s.launcherOf 0) p.1 p.2).1 = if revision = 2 then 0 else 2) := by
  intro revision h bad
  simp only [List.mem_cons, List.not_mem_nil, or_false] at h
  rcases h with rfl | rfl <;> cases bad <;>
    exact ⟨rfl, rfl, Nat.le_of_eq rfl, by decide +kernel, by decide +kernel, by decide +kernel⟩

theorem witness_other_launcher :
    (let s : State := { launchLane 2 false with waves := [(0, { wave with waveId := 1, h := [(1, handle 0 4 7 0 8 0x500000)] })] }
     s.env = some (envOf s) ∧ (envOf s).wave.waveId ≠ 0 ∧ (envOf s).hReg 1 = .ok (handle 0 4 7 0 8 0x500000)) ∧
    (let s : State := { launchLane 2 false with cur := { strand := 1, bundle := 0x400010, word := 0x400010, hints := {} }
                                                strands := [(1, strand [(1, 0)])] }
     s.env = some (envOf s) ∧ (envOf s).lane ≠ 0) := by
  refine ⟨⟨rfl, by decide +kernel, rfl⟩, rfl, by decide +kernel⟩

/-- A lane that waits for grid v1: none, of another team, retired, or in progress. -/
def waitLane (parent : Option Nat) (retired : Bool) : State :=
  let s := lane [(1, 8), (2, 99)]
  { s with grids := s.grids.set 8 { grid with parent := parent, retired := retired, status := 0x18 } }

theorem witness_gwait : ∀ r, let s := waitLane (some 7) r
    let e := envOf s
    s.env = some e ∧ Alone e ∧ Has e 4 ∧ Reads e 1 8 ∧ Reads e 2 99 ∧ s.grids.find 99 = none ∧ e.wave.team = 7 ∧
    s.grids.find 8 = some { grid with parent := some 7, retired := r, status := 0x18 } ∧
    (let s := waitLane none r
     s.env = some (envOf s) ∧ Reads (envOf s) 1 8 ∧
     s.grids.find 8 = some { grid with parent := none, retired := r, status := 0x18 }) := by
  intro r
  cases r <;>
    exact ⟨rfl, rfl, has_of rfl, reads_of rfl rfl, reads_of rfl rfl, rfl, rfl, rfl, rfl, reads_of rfl rfl, rfl⟩

def aTask : Task := ⟨5, 0x400100, 0x500040, 0⟩
def largeTask : Task := ⟨5, 0x400200, 0x500040, 0⟩

/-- A lane at TASKPUSH of the entry in Pair(4) with the record of element v1 of h1. -/
def taskLane (pool : List Task) (pushing : List (Nat × Task)) : State :=
  let s := withHandles (codeLane [(1, 4), (4, 0x400100), (5, 0)]) [(1, handle 0 4 7 0 64 0x500000)]
  { s with clusters := [(0, { Cluster.reset with pool := pool, pushing := pushing })] }

def fullPool : List Task := List.replicate 4096 aTask

theorem witness_taskpush : ∀ full : Bool, let s := taskLane (if full then fullPool else []) []
    let e := envOf s
    s.env = some e ∧ Alone e ∧ e.hReg 1 = .ok (handle 0 4 7 0 64 0x500000) ∧ ReadsPair e 4 0x400100 ∧ Reads e 1 4 ∧
    checkTarget 0x400100 = .ok 0x400100 ∧ e.codeWord (budgetAt 0x400100) = .ok 64 ∧ budgetOk 64 = true ∧
    e.locateAll (handle 0 4 7 0 64 0x500000) 4 4 = .ok () ∧ (∃ st, s.strands.find e.key = some st ∧ st.life = .ready) ∧
    s.ownOutstanding e.key = false ∧ e.isContained = false ∧
    (let t := s.writeBackAll e.cores
     t.stillOut (t.releaseIds e.cores e.key 3 e.revision false).1 (t.releaseIds e.cores e.key 3 e.revision false).2 = []) ∧
    (s.cluster (coreCluster e.coreKey)).pool = (if full then fullPool else []) ∧
    (s.cluster (coreCluster e.coreKey)).pushing = [] ∧
    (let u := s.modTeam 7 fun x => { x with contained := true }
     u.env = some (envOf u) ∧ (envOf u).isContained = true ∧ u.allCompared 7 = true) := by
  intro full
  cases full <;>
    exact ⟨rfl, rfl, rfl, readsPair_of rfl rfl rfl, reads_of rfl rfl, rfl, rfl, rfl, rfl, ⟨_, rfl, rfl⟩, rfl, rfl, rfl, rfl, rfl, rfl, rfl,
      by decide +kernel⟩

theorem witness_task_pool : 4096 ≤ fullPool.length ∧
    (let s := withStrand (taskLane [] [(0, aTask)]) fun st => { st with life := .blocked (.pool 9) }
     (s.cluster 0).pushing = (0, aTask) :: [] ∧ (s.cluster 0).pool.length < 4096 ∧
     (s.strands.find 0).map (·.life) = some (.blocked (.pool 9))) := by
  exact ⟨(List.length_replicate (n := 4096) (a := aTask)).ge, rfl, by decide, rfl⟩

/-- A core's lane Blocked in REFILL beside a pool, and the lane of that core when the pool's first task has become its item. -/
def gatherLane (pool : List Task) : State := withStrand (taskLane pool []) fun st => { st with life := .blocked (.refill 3) }
def gatherThere (pool : List Task) : State :=
  let s := gatherLane pool
  let t := ((s.modCluster 0 fun c => { c with pool := pool.drop 1 }).modCore 0 fun c => { c with items := pool.take 1 }).wake 0
  { t with cur := { t.cur with strand := 0 } }

/-- The fitting task that a lane gets. -/
def fitIs (x : Act (Option Task)) (t : Option Task) : Bool := match x with | .ok y => y == t | .error _ => false

theorem witness_gather :
    (let s := taskLane [aTask] []
     (groupsOf (s.cluster 0).pool).all (fun l => decide (l.length < 32)) = true ∧
     (s.strands.all fun p => match p.2.life with | .blocked (.refill _) => false | _ => true) = true) ∧
    -- a task that fits; one that is too large, with another task of the grid behind it, and without one
    (∀ x ∈ [(aTask, [], true), (largeTask, [aTask], false), (largeTask, [], false)],
      let s := gatherLane (x.1 :: x.2.1)
      let t := gatherThere (x.1 :: x.2.1)
      (s.core 0).items = [] ∧ (s.strands.filter fun p => match p.2.life with | .blocked (.refill _) => true | _ => false).map (·.1) = [0] ∧
      (s.cluster 0).pool.find? (·.grid = s.gridOf 0) = some x.1 ∧ (s.cluster 0).pool.erase x.1 = x.2.1 ∧
      (groupsOf ((s.cluster 0).pool.erase x.1)).all (fun l => decide (l.length < 32)) = true ∧
      t.env = some (envOf t) ∧
      fitIs ((envOf t).fitting (envOf t).codeWord [x.1]) (if x.2.2 then some x.1 else none) = true ∧
      (envOf t).wave.grid = 5) := by
  refine ⟨⟨rfl, by decide +kernel⟩, ?_⟩
  intro x h
  simp only [List.mem_cons, List.not_mem_nil, or_false] at h
  rcases h with rfl | rfl | rfl <;>
    exact ⟨rfl, by decide +kernel, by decide +kernel, by decide +kernel, by decide +kernel, rfl, by decide +kernel, rfl⟩

theorem witness_grows :
    (let s := lane [(1, 1), (63, 2)]
     let e := envOf s
     s.env = some e ∧ Alone e ∧ Has e 2 ∧ 8 * (8 : BitVec 7).toNat ≤ e.wave.alloc ∧
     e.wave.alloc < 8 * (9 : BitVec 7).toNat ∧ e.wave.grow = none ∧ 8 * (4 : BitVec 7).toNat < e.wave.alloc ∧
     e.isContained = false) ∧
    (let s : State := { lane [] with teams := [(7, { team with contained := true, buffer := [(0x500000, 7)] })] }
     s.env = some (envOf s) ∧ (envOf s).isContained = true ∧ s.allCompared 7 = true) := by
  refine ⟨⟨rfl, rfl, has_of rfl, by decide +kernel, by decide +kernel, rfl, by decide +kernel, rfl⟩, rfl, rfl, rfl⟩

/-- The lane Blocked in a grow of its wave to `size` registers. -/
def growLane (size : Nat) : State :=
  let g : Grow := ⟨9, 0, size, [⟨0, some 2, 0, 0x400014, 0, 0x400010⟩]⟩
  let s := withStrand (lane [(1, 1)]) fun st => { st with life := .blocked (.grow 9) }
  { (s.modBank 0 fun b => { b with grows := [0] }) with waves := [(0, { wave with grow := some g })] }

theorem witness_grow_ends :
    (let s := growLane 128
     let g : Grow := ⟨9, 0, 128, [⟨0, some 2, 0, 0x400014, 0, 0x400010⟩]⟩
     (s.bank 0).grows = 0 :: [] ∧ (s.bank 0).grows = [] ++ [0] ∧ s.waves.find 0 = some { wave with grow := some g } ∧
     ({ wave with grow := some g } : Wave).growBytes 128 ≤ s.poolFree 0 ∧ s.activeBank (bankCore 0) = 0 ∧
     s.bankBusy 0 = false ∧ s.flights = [] ∧ (∀ p ∈ s.bankStrands 0, s.able p.1 p.2 = false) ∧
     g.lanes = [⟨0, some 2, 0, 0x400014, 0, 0x400010⟩] ∧ wave.partner = none ∧
     (s.strands.find (strandNo 0 0)).map (fun st => (st.life, st.window)) = some (.blocked (.grow 9), []) ∧
     wave.alloc ≤ 128) := by
  refine ⟨rfl, rfl, rfl, by decide +kernel, rfl, rfl, rfl, ?_, rfl, rfl, rfl, by decide⟩
  intro p hp
  have h : (growLane 128).bankStrands 0 = [(0, { strand [(1, 1)] with life := .blocked (.grow 9) })] := rfl
  rw [h] at hp
  simp only [List.mem_singleton] at hp
  subst hp
  rfl

/-- A lane of a level that has Pair(2) and v4 to v8 for the operands of the SYS class. -/
def systemLane (level : Nat) (regs : List (Nat × Word)) : State :=
  { lane regs with grids := [(5, { grid with level := level })] }

theorem witness_reads : let s := systemLane 2 []
    let e := envOf s
    s.env = some e ∧ Alone e ∧ Has e 4 ∧ Has e 5 ∧ systemReadLevel (0x22 : BitVec 14).toNat ≤ e.level ∧
    isFaultReg (0x22 : BitVec 14).toNat = false ∧ systemWide (0x22 : BitVec 14).toNat = true ∧
    systemWide (0x00 : BitVec 14).toNat = false ∧ systemReadLevel (0x00 : BitVec 14).toNat ≤ e.level ∧
    e.st.handler = none ∧ isFaultReg 9 = true := by
  refine ⟨rfl, rfl, has_of rfl, has_of rfl, by decide +kernel, rfl, rfl, rfl, by decide +kernel, rfl, rfl⟩

theorem witness_writes :
    let s : State := { systemLane 2 [(2, 0x2000), (3, 0), (4, 7)] with issue := some (endedIssue []) }
    let e := envOf s
    s.env = some e ∧ Alone e ∧ systemWriteLevel (0x20 : BitVec 14).toNat = some 2 ∧ 2 ≤ e.level ∧
    s.issue = some (endedIssue []) ∧ systemWide 0x20 = true ∧ ReadsPair e 2 0x2000 ∧ systemValueOk 0x20 0x2000 = true ∧
    systemWriteLevel (0x00 : BitVec 14).toNat = some 0 ∧ systemWide 0x00 = false ∧ Reads e 4 7 ∧ systemValueOk 0x00 7 = true ∧
    (let t : State := { s with issue := some (endedIssue [(0, 0, 7)]) }
     t.issue = some (endedIssue [(0, 0, 7)]) ∧ (endedIssue [(0, 0, 7)]).remaining = [] ∧ t.waves.find 0 = some wave) := by
  refine ⟨rfl, rfl, rfl, by decide, rfl, rfl, readsPair_of rfl rfl rfl, by decide +kernel, rfl, rfl, reads_of rfl rfl,
    by decide +kernel, rfl, rfl, rfl⟩

theorem witness_privileges : let s := systemLane 0 [(2, 0), (3, 0), (4, 0x600000)]
    let e := envOf s
    s.env = some e ∧ Has e 6 ∧ Has e 7 ∧ Has e 2 ∧ Has e 3 ∧ Has e 4 ∧ e.level = 0 ∧ ReadsPair e 2 0 ∧ Reads e 4 0x600000 ∧
    (0x600000 : Word).toNat / 2 ^ 21 % 4 = 3 ∧ e.level < systemReadLevel 0x30 ∧ e.st.handler = none ∧
    systemWriteLevel 0x03 = none ∧ systemWriteLevel 0x37 = some 2 ∧
    (let t := systemLane 1 [(2, 0), (3, 0), (4, 0x200000)]
     t.env = some (envOf t) ∧ (envOf t).level = 1 ∧ Reads (envOf t) 4 0x200000 ∧
     (0x200000 : Word).toNat / 2 ^ 21 % 4 = 1) := by
  refine ⟨rfl, has_of rfl, has_of rfl, has_of rfl, has_of rfl, has_of rfl, rfl, readsPair_of rfl rfl rfl, reads_of rfl rfl,
    by decide, by decide +kernel, rfl, rfl, rfl, rfl, rfl, reads_of rfl rfl, by decide⟩

/-- A level-1 lane with a strand parked after one park in lane 1, whose token is in v4, and with DLV in v5, and one of a leading
wave of another slot, with DLV in v10; the word at their pc is in the instruction cache. -/
def unparkLane : State :=
  let s := systemLane 1 [(2, 0x10000), (3, 0), (4, 0x00400001), (5, 0x00600001), (6, 511), (7, 512), (8, 0x200), (9, 0),
    (10, 0x00600081)]
  let code : CodeLine := ⟨3, 1, 0x4000, List.replicate 256 0, false⟩
  let parked := { strand [] with life := .parked, seq := 1, faultCode := 0x10008, faultVa := 0x700000 }
  { s with
    strands := s.strands ++ [(1, parked), (129, parked)]
    waves := s.waves ++ [(2, { wave with partner := some 3 })]
    cores := [(0, { Core.reset with icache := [code] })] }

theorem witness_commands : let s := unparkLane
    let e := envOf s
    s.env = some e ∧ Alone e ∧ 1 ≤ e.level ∧ Has e 10 ∧ Reads e 4 0x00400001 ∧ Reads e 5 0x00600001 ∧ Reads e 6 511 ∧
    Reads e 7 512 ∧ Reads e 9 0 ∧ (tokenStrands (0x00400001 : Word).toNat).find? (s.parkedFor (0x00400001 : Word).toNat) = some 1 ∧
    (tokenStrands (0x00600001 : Word).toNat).find? (s.parkedFor (0x00600001 : Word).toNat) = some 1 ∧
    (s.strands.find 1).map (fun st => (st.life, st.seq)) = some (.parked, 1) ∧
    (0x00400001 : Word).toNat / 2 ^ 22 = 1 ∧ (0x00400001 : Word).getLsbD 21 = false ∧ (0x00600001 : Word).getLsbD 21 = true ∧
    (s.strands.find 1).map (fun st => (match s.fetch 1 st with | .bundle _ _ => true | .missing _ => false)) = some true ∧
    (tokenStrands (0 : Word).toNat).find? (s.parkedFor (0 : Word).toNat) = none ∧
    (s.waves.find 0).map (·.partner) = some none ∧ Reads e 10 0x00600081 ∧
    (tokenStrands (0x00600081 : Word).toNat).find? (s.parkedFor (0x00600081 : Word).toNat) = some 129 ∧
    (match s.strands.find 129 with
     | some st => (match s.fetch 129 st with | .bundle _ _ => true | .missing _ => false) && !s.faultsAlone 129 st
     | none => false) = true ∧ (s.waves.find 2).map (fun w => (w.partner, w.trailing)) = some (some 3, false) ∧
    ((s.modCore 511 fun c => { c with halted := true }).core 511).halted = true ∧
    ReadsPair e 2 0x10000 ∧ Reads e 8 0x200 ∧ saveBank (0x200 : Word).toNat = 1 ∧ (0x10000 : Dword).toNat % 65536 = 0 ∧
    s.activeBank 0 ≠ 1 ∧ (s.bank 1).asid = none ∧ s.retiredCore 0 = false ∧ (s.core 0).halted = false ∧
    s.activeBank (bankCore (saveBank (0 : Word).toNat)) = saveBank (0 : Word).toNat ∧
    ((s.modBank 1 fun b => { b with asid := some 4 }).bank 1).asid ≠ none := by
  refine ⟨rfl, rfl, by decide +kernel, has_of rfl, reads_of rfl rfl, reads_of rfl rfl, reads_of rfl rfl, reads_of rfl rfl,
    reads_of rfl rfl, by decide +kernel, by decide +kernel, rfl, by decide, by decide, by decide, by decide +kernel,
    by decide +kernel, rfl, reads_of rfl rfl, by decide +kernel, by decide +kernel, rfl, by decide +kernel, readsPair_of rfl rfl rfl,
    reads_of rfl rfl, rfl, by decide, by decide +kernel, rfl, rfl, rfl, rfl, by decide +kernel⟩

theorem witness_tlbinv : let s := systemLane 2 [(2, 0x10000), (3, 0), (4, 0x007FFFFF)]
    let e := envOf s
    s.env = some e ∧ Alone e ∧ ReadsPair e 2 0x10000 ∧ Reads e 4 0x007FFFFF ∧ (0x007FFFFF : Word).toNat < 2 ^ 23 ∧
    tlbinvLevel (0x007FFFFF : Word).toNat ≤ e.level ∧ (∃ st, s.strands.find e.key = some st ∧ st.life = .ready) ∧
    s.ownOutstanding e.key = false ∧ e.isContained = false ∧
    (let t := s.writeBackAll e.cores
     t.stillOut (t.releaseIds e.cores e.key 5 e.revision false).1 (t.releaseIds e.cores e.key 5 e.revision false).2 = []) ∧
    (let u := s.modTeam 7 fun x => { x with contained := true }
     let t := (u.commit 7).writeBackAll e.cores
     u.env = some (envOf u) ∧ (envOf u).isContained = true ∧ u.allCompared 7 = true ∧
     t.stillOut (t.releaseIds e.cores e.key 5 e.revision false).1 (t.releaseIds e.cores e.key 5 e.revision false).2 = []) := by
  refine ⟨rfl, rfl, readsPair_of rfl rfl rfl, reads_of rfl rfl, by decide, by decide +kernel, ⟨_, rfl, rfl⟩, rfl, rfl, rfl, rfl,
    rfl, by decide +kernel, rfl⟩

/-- LMAPW of the spare lane to logical lane 63 on an idle core; the lane register stands idle before. -/
theorem witness_lane_maps : let s := systemLane 2 [(2, 0xFC40), (4, 9), (5, 0), (6, 0x80)]
    let e := envOf s
    s.env = some e ∧ 2 ≤ e.level ∧ Reads e 2 0xFC40 ∧ Reads e 4 9 ∧ Reads e 5 0 ∧ Reads e 6 0x80 ∧
    s.scribeToMove ((9 : Word).toNat % 2 ^ 9) = false ∧ s.scribeToMove 0 = false ∧
    (0xFC40 : Word).toNat < 2 ^ 16 ∧ (0xFC40 : Word).toNat / 2 ^ 7 % 2 = 0 ∧ (0xFC40 : Word).toNat % 2 ^ 7 ≤ 64 ∧
    (0xFC40 : Word).toNat / 2 ^ 8 % 4 ≠ 2 ∧ lmapState ((s.core 9).lmapReg 64) < 2 ∧ s.coreResident 9 = false ∧
    s.coreResident 0 = true ∧ (0x80 : Word).toNat / 2 ^ 7 % 2 ≠ 0 := by
  refine ⟨rfl, by decide +kernel, reads_of rfl rfl, reads_of rfl rfl, reads_of rfl rfl, reads_of rfl rfl, rfl, rfl, by decide,
    by decide, by decide, by decide, by decide +kernel, rfl, rfl, by decide⟩

def aWatchOf (k : Nat) : Watch := { aWatch with strand := k, written := false }

/-- A shadow bank with a context of one wave. -/
def shadowState (p : Pending) : State :=
  let s := lane []
  { s with
    pending := [(9, p)]
    banks := s.banks ++ [(1, { Bank.reset with asid := some 4 })]
    strands := s.strands ++ [(strandNo 33 0, { strand [] with life := .blocked .sleep })]
    waves := s.waves ++ [(33, { wave with team := 8 })]
    teams := s.teams ++ [(8, { Team.fresh 5 3 1 [33] 0 [] [] with scratchSize := 0 })]
    watches := [aWatchOf (strandNo 33 0)] }

/-- A TLBINV of ASID 3 whose invalidation has begun, with the accesses and the walks that it waits for. -/
def invalidating (accesses walks : List Nat) (held : List Walk) : State :=
  { withStrand (lane []) fun st => { st with life := .waiting (.reply 9) } with
    pending := [(9, .tlbinv 0 2 3 0 0 accesses walks)], cores := [(0, { Core.reset with tlb := [tlbEntry] })], walks := held }

/-- What stands in the way of its end: a walk that it waits for; a walk at a locked descriptor of the ASID; nothing, for the walks or
for the accesses. -/
theorem witness_invalidations :
    (∀ p ∈ [([9], aWalk), ([], { aWalk with locked := some 0x200 })], let s := invalidating [4] p.1 [p.2]
     s.pending.find 9 = some (.tlbinv 0 2 3 0 0 [4] p.1) ∧
     ¬(∀ w ∈ s.walks, w.id ∉ p.1 ∧ s.walkOverlaps w 2 3 0 = false)) ∧
    (∀ walks ∈ [[], [8]], let s := invalidating [4] walks []
     s.pending.find 9 = some (.tlbinv 0 2 3 0 0 [4] walks) ∧ s.walks = [] ∧ s.awaits [4] false = false ∧
     (s.strands.find 0).map (·.life) = some (.waiting (.reply 9))) := by
  refine ⟨fun p h => ?_, fun w h => ?_⟩ <;> simp only [List.mem_cons, List.not_mem_nil, or_false] at h
  · rcases h with rfl | rfl <;> exact ⟨rfl, by decide +kernel⟩
  · rcases h with rfl | rfl <;> exact ⟨rfl, rfl, rfl, rfl⟩

/-- A swap, to a bank that holds a context or none, of a core that runs, that has halted, or that has given priority 3 its turn. -/
theorem witness_swaps : ∀ full halted prio3,
    let s := (if full then shadowState (.swap 0 4 0) else lane []).modCore 0 fun c =>
      { c with swaps := [some 9], halted := halted, prio3 := prio3 }
    (s.core 0).swaps = some 9 :: [] ∧ s.issue = none ∧ (s.core 0).results = [] ∧ (s.core 0).active < 2 ∧
    (s.bank (bankNo 0 (1 - (s.core 0).active))).asid.isSome = full ∧ (s.core 0).halted = halted ∧ (s.core 0).prio3 = prio3 ∧
    s.hasPrio3 1 = false ∧
    (full = true → s.watches.map (·.strand) = [strandNo 33 0] ∧ waveBank (strandWave (strandNo 33 0)) = 1) := by
  intro full halted prio3
  cases full <;> cases halted <;> cases prio3 <;>
    exact ⟨rfl, rfl, rfl, by decide +kernel, by decide +kernel, rfl, rfl, by decide +kernel, by decide +kernel⟩

/-- A save, of a sound context and of one whose team has a faulty word in its tile. -/
theorem witness_saves : ∀ bad : Bool, let s := (shadowState (.ctxsave 0 4 1 0x800000)).modTeam 8 fun x => { x with tiles := [2] }
    let s := s.modCore 0 fun c => { c with tileBad := if bad then [2048 * s.physTile 1 2] else [] }
    s.pending.find 9 = some (.ctxsave 0 4 1 0x800000) ∧ s.activeBank (bankCore 1) ≠ 1 ∧ (s.bank 1).asid ≠ none ∧
    (s.core (bankCore 1)).l1 = [] ∧ s.saveBusy 1 = false ∧ MemoryOk s ∧ s.faultyTiles 1 = (if bad then some 8 else none) ∧
    s.banks.all (fun p => p.2.copies.isEmpty) = true := by
  intro bad
  cases bad <;>
    exact ⟨rfl, by decide +kernel, by decide +kernel, rfl, by decide +kernel, rfl, by decide +kernel, by decide +kernel⟩

theorem witness_save_place (s : State) (pa n : Nat) (h : s.banks.all (fun p => p.2.copies.isEmpty) = true) :
    s.runOwned pa n = false := by
  have none' : ∀ line, s.ownedByCopy line = false := fun line => by
    simp only [State.ownedByCopy, List.any_eq_false]
    intro p hp
    have := List.all_eq_true.mp h p hp
    simp [List.isEmpty_iff.mp this]
  simp [State.runOwned, none']

/-- A saved context without waves, whose bank held the 16 x 16 mapping or none, and memory that holds its area. -/
def savedContext (wide : Bool) : Saved :=
  { pa := 0x800000, id := 9, old := 1, vmid := 0, level := 0, bank := { Bank.reset with asid := some 4, mapping := if wide then 16 else 0 },
    waves := [], strands := [], teams := [], tiles := [], tileBad := [], offsets := [], watches := [] }

theorem word_fits (x : Word) : x.toNat < 256 ^ 4 := Nat.lt_of_lt_of_eq x.isLt (by norm_num)
theorem dword_fits (x : Dword) : x.toNat < 256 ^ 8 := Nat.lt_of_lt_of_eq x.isLt (by norm_num)

theorem bankSlots_keep (b : Bank) : ∀ f ∈ bankSlots, f.keeps b := by
  intro f hf
  rcases List.mem_append.mp hf with hf | hf
  · simp only [List.mem_cons, List.not_mem_nil, or_false] at hf
    rcases hf with rfl | rfl | rfl | rfl | rfl | rfl
    · exact Slot.num_keeps _ _ _ _ _ (word_fits _)
    · exact Slot.num_keeps _ _ _ _ _ (word_fits _)
    · exact Slot.num_keeps _ _ _ _ _ (word_fits _)
    · exact Slot.num_keeps _ _ _ _ _ (word_fits _)
    · exact Slot.num_keeps _ _ _ _ _ (dword_fits _)
    · exact Slot.spare_keeps _ _ _
  · obtain ⟨k, -, hf⟩ := List.mem_flatMap.mp hf
    simp only [tagSlots, List.mem_cons, List.not_mem_nil, or_false] at hf
    rcases hf with rfl | rfl | rfl | rfl
    · exact Slot.word_keeps _ _ _
    · exact Slot.word_keeps _ _ _
    · exact Slot.num_keeps _ _ _ _ _ (word_fits _)
    · exact Slot.spare_keeps _ _ _

theorem record_keeps {α : Type} (x : α) (id start n : Nat) (l : List (Slot α)) (h : ∀ f ∈ l, f.keeps x) :
    ∀ f ∈ slotRecord id start n l, f.keeps x := by
  intro f hf
  rcases List.mem_append.mp hf with hf | hf
  · exact h f hf
  · rw [List.mem_singleton.mp hf]
    exact Slot.spare_keeps _ _ _

theorem section_keeps {α : Type} (x : α) (l : List (Slot α)) (h : ∀ f ∈ l, f.keeps x) : ∀ f ∈ slotSection l, f.keeps x := by
  intro f hf
  rcases List.mem_append.mp hf with hf | hf
  · exact h f hf
  · rw [List.mem_singleton.mp hf]
    exact Slot.spare_keeps _ _ _

theorem savedContext_keeps (wide : Bool) : ∀ f ∈ (savedContext wide).slots, f.keeps (savedContext wide) := by
  have shown : ∀ (n : Nat) (g : Saved → Nat), (Slot.shown n g).keeps (savedContext wide) := fun n g => Slot.fixed_keeps n _ _
  have none' : ∀ f ∈ ([] : List (Slot Saved)), f.keeps (savedContext wide) := fun f hf => absurd hf (List.not_mem_nil)
  intro f hf
  rcases List.mem_append.mp hf with hf | hf
  · rcases List.mem_append.mp hf with hf | hf
    · rcases List.mem_append.mp hf with hf | hf
      · simp only [List.mem_cons, List.not_mem_nil, or_false] at hf
        rcases hf with rfl | rfl | rfl | rfl | rfl | rfl | rfl | rfl | rfl | rfl | rfl
        all_goals first | exact shown _ _ | exact Slot.spare_keeps _ _ _
      · obtain ⟨v, -, rfl⟩ := List.mem_map.mp hf
        exact shown _ _
    · rw [List.mem_singleton.mp hf]
      exact Slot.fixed_keeps _ _ _
  · obtain ⟨l, hl, hf⟩ := List.mem_flatten.mp hf
    simp only [Saved.sections, List.mem_cons, List.not_mem_nil, or_false] at hl
    rcases hl with rfl | rfl | rfl | rfl | rfl | rfl | rfl | rfl | rfl
    · refine record_keeps _ _ _ _ _ (fun f hf => ?_) f hf
      rcases List.mem_append.mp hf with hf | hf
      · obtain ⟨g, hg, rfl⟩ := List.mem_map.mp hf
        exact Slot.within_keeps _ _ g _ (bankSlots_keep _ g hg) rfl
      · rw [List.mem_singleton.mp hf]
        exact shown _ _
    · exact none' f hf
    · exact none' f hf
    · exact section_keeps _ _ none' f hf
    · exact section_keeps _ _ none' f hf
    · exact section_keeps _ _ none' f hf
    · exact none' f hf
    · obtain ⟨k, -, hf⟩ := List.mem_flatMap.mp hf
      refine record_keeps _ _ _ _ _ (fun f hf => ?_) f hf
      rw [List.mem_singleton.mp hf]
      exact Slot.coded_keeps _ _ _ _
    · exact none' f hf

theorem savedContext_length (wide : Bool) : (savedContext wide).area.length = 18688 := by
  rw [Saved.area, length_slotsBytes _ _ (savedContext_keeps wide)]
  cases wide <;> decide +kernel

/-- The head of the area, and what memory holds there. -/
theorem savedContext_head (wide : Bool) : (savedContext wide).area.take 6 = [0x43, 0x41, 0x56, 0x53, 1, 0] := by
  cases wide <;> decide +kernel

theorem savedContext_id (wide : Bool) : ((savedContext wide).area.drop 1312).take 8 = [9, 0, 0, 0, 0, 0, 0, 0] := by
  cases wide <;> decide +kernel

def loadBase (wide : Bool) : State :=
  { lane [] with pending := [(9, .ctxload 0 4 1 0x800000)]
                 device := { Device.reset with saved := [savedContext wide] } }

def loadState (wide : Bool) : State := (loadBase wide).poke 0x800000 (savedContext wide).area

theorem loadState_peek (wide : Bool) (k n : Nat) (h : k + n ≤ 18688) :
    (loadState wide).peek (0x800000 + k) n = ((savedContext wide).area.drop k).take n := by
  have len := savedContext_length wide
  have h : k + n ≤ (savedContext wide).area.length := by rw [len]; exact h
  have low : 0x800000 + (savedContext wide).area.length ≤ 2 ^ 51 := by rw [len]; norm_num
  exact peek_poke (s := loadBase wide) rfl _ _ low k n h

theorem witness_loads : ∀ wide, let s := loadState wide
    s.pending.find 9 = some (.ctxload 0 4 1 0x800000) ∧ s.activeBank (bankCore 1) ≠ 1 ∧ (s.bank 1).asid = none ∧
    s.peekNum 0x800000 4 = 0x53564143 ∧ s.peekNum (0x800000 + 4) 2 = 1 ∧ s.savedAt 0x800000 = some (savedContext wide) ∧
    (savedContext wide).areasFit = true ∧ (s.bank 0).mapping = 8 ∧ (lane []).peekNum 0x800000 4 ≠ 0x53564143 := by
  intro wide
  have head := savedContext_head wide
  have magic : (loadState wide).peek 0x800000 4 = [0x43, 0x41, 0x56, 0x53] := by
    rw [loadState_peek wide 0 4 (by norm_num), List.drop_zero,
      show List.take 4 (savedContext wide).area = List.take 4 (List.take 6 (savedContext wide).area) by simp [List.take_take],
      head]; rfl
  have version : (loadState wide).peek (0x800000 + 4) 2 = [1, 0] := by
    rw [loadState_peek wide 4 2 (by norm_num), List.take_drop, head]; rfl
  have all : (loadState wide).peek 0x800000 (slotsSize (savedContext wide).slots) = (savedContext wide).area := by
    have size := length_slotsBytes _ _ (savedContext_keeps wide)
    have len := savedContext_length wide
    rw [Saved.area] at len
    rw [← size, len, loadState_peek wide 0 18688 (by norm_num), List.drop_zero, ← len]
    exact List.take_length
  refine ⟨rfl, by cases wide <;> decide +kernel, rfl, by rw [State.peekNum, magic]; rfl, by rw [State.peekNum, version]; rfl, ?_,
    by cases wide <;> rfl, rfl, by decide +kernel⟩
  have held : (loadState wide).device.saved = [savedContext wide] := rfl
  simp only [State.savedAt, held]
  have number : (loadState wide).peek (0x800000 + 1312) 8 = [9, 0, 0, 0, 0, 0, 0, 0] := by
    rw [loadState_peek wide 1312 8 (by norm_num), savedContext_id]
  have here : [savedContext wide].find? (fun x => x.id = (loadState wide).peekNum (0x800000 + 1312) 8) = some (savedContext wide) := by
    rw [State.peekNum, number]; rfl
  rw [here, Option.bind_some, all, Saved.readArea_area _ (savedContext_keeps wide), Option.some_or]

/-- A strand of context 3 at a word that the instruction cache does not hold, with what its core's TLB holds; a copy owns
the word's line when `owned`. -/
def fetchState (tlb : List TlbEntry) (owned : Bool) : State :=
  let s := codeLane []
  { s with
    clusters := [(0, { Cluster.reset with fqBase := 0x100000 })]
    cores := [(0, { Core.reset with tlb := tlb })]
    banks := s.banks.mapVal fun _ (b : Bank) => { b with copies := if owned then [{ aCopy true with owned := [(0x4000, 256)] }] else [] } }

def codeEntry (executable : Bool) : TlbEntry := { tlbEntry with va := 0x400000, pa := 0x400000, x := executable }

def fetching (s : State) (p : Act (Nat × Bool) → Bool) : Bool :=
  match s.strands.find 0 with
  | some st => s.awake 0 st && (match s.fetch 0 st with | .missing va => va == 0x400010 | _ => false) &&
      p (s.fetchAt 0 (s.asidOf 0) (s.versionOf 0) (s.levelOf 0) 0x400010)
  | none => false

theorem witness_fetch :
    (∀ owned, let s := fetchState [codeEntry true] owned
      fetching s (fun x => match x with | .ok (pa, sys) => pa == 0x400010 && !sys | _ => false) = true ∧
      s.sliceOpen 0 0x400010 s.nextId = !owned) ∧
    fetching (fetchState [] false) (fun x => match x with | .error (.walk va) => va == 0x400010 | _ => false) = true ∧
    fetching (fetchState [codeEntry false] false) (fun x => match x with | .error (.park ..) => true | _ => false) = true := by
  refine ⟨fun owned => ?_, by decide +kernel, by decide +kernel⟩
  cases owned <;> exact ⟨by decide +kernel, by decide +kernel⟩

theorem witness_walks : ∀ locked, let s := walkState locked
    let w := aWalk
    s.walks.find? (·.id = w.id) = some w ∧ w.locked = none ∧ s.hasSlot w = true ∧
    (∃ st, s.strands.find 0 = some st ∧ st.life = .waiting (.walk w.id)) ∧
    (match s.walkNow w with
     | (.entry t, _) => !locked && t.pa == 0x500000
     | (.locked pa, _) => locked && pa == 0x20000
     | _ => false) = true := by
  intro locked
  cases locked <;> exact ⟨rfl, rfl, rfl, ⟨_, rfl, rfl⟩, by decide +kernel⟩

/-- A walk whose ASID's entry a copy owns is held; the 65th walk of a die has no slot. -/
theorem witness_walk_waits :
    (let s := (walkState false).modBank 0 fun b => { b with copies := [{ aCopy true with owned := [(0x100, 256)] }] }
     s.walks.find? (·.id = aWalk.id) = some aWalk ∧
     (match s.walkNow aWalk with | (.held, _) => true | _ => false) = true) ∧
    (let w : Walk := { aWalk with id := 100 }
     let s : State := { walkState false with walks := ((List.range 64).map fun n => { aWalk with id := n + 20 }) ++ [w] }
     s.walks.find? (·.id = w.id) = some w ∧ w.locked = none ∧ s.hasSlot w = false) :=
  ⟨⟨rfl, by decide +kernel⟩, by decide +kernel, rfl, by decide +kernel⟩

/-- A walk that met a locked descriptor, whose line has been written since, or not. -/
theorem witness_walk_lock : ∀ written, let w : Walk := { aWalk with locked := some 0x200, written := written }
    let s : State := { walkState true with walks := [w] }
    s.walks.find? (·.id = w.id) = some w ∧ w.locked ≠ none ∧ w.written = written := fun _ => ⟨rfl, by simp, rfl⟩

theorem witness_entries :
    (let s := withStrand trapLane fun st => { st with life := .waiting (.handler 0x107 5 0x400010 0x400014) }
     (s.strands.find 0).map (·.life) = some (.waiting (.handler 0x107 5 0x400010 0x400014)) ∧ s.queued 0 = false) ∧
    (let s := withStrand (lane [(1, 3)]) fun st => { st with parityErrors := [2] }
     (match s.strands.find 0 with
      | some st => s.awake 0 st && !st.parityErrors.contains 1 && st.parityErrors.contains 2
      | none => false) = true ∧ s.waves.find (strandWave 0) = some wave ∧ 2 < wave.alloc ∧ wave.partner = none) ∧
    (let s := (lane [(1, 3)]).setWave 0 { wave with partner := some 1 }
     (s.strands.find 0).any (s.awake 0) = true ∧ s.waves.find (strandWave 0) = some { wave with partner := some 1 }) := by
  refine ⟨⟨rfl, rfl⟩, ⟨by decide +kernel, rfl, by decide, rfl⟩, by decide +kernel, rfl⟩

/-- A cluster with fault queues at 0x100000 and, for stage 2, at 0x200000, and the records that it holds. -/
def queueState (records : List FaultRec) : State :=
  { lane [] with
    clusters := [(0, { Cluster.reset with fqBase := 0x100000, fqBase2 := 0x200000, records := records })] }

def aRecord (stage2 : Bool) : FaultRec := ⟨List.replicate 64 1, stage2⟩

/-- The first queue's ring is full. -/
def fullQueue (records : List FaultRec) : State := (queueState records).poke (0x100000 + 256) [64]

theorem witness_parks :
    (let s := queueState []
     ringBase (s.cluster 0).fqBase ≠ 0 ∧ (s.cluster 0).records = [] ∧ (s.strands.find 0).isSome = true ∧ MemoryOk s ∧
     (s.peekNum (0x100000 + 256) 8 - s.peekNum 0x100000 8 < ringSize 0x100000) ∧
     (s.ringPut 0x100000 (List.replicate 64 1)).isSome = true) ∧
    ringBase ((lane []).cluster 0).fqBase = 0 ∧ (List.replicate 64 (1 : Byte)).length = 64 ∧
    -- a record of the queue is held, or one of the other queue
    ((queueState [aRecord false]).cluster 0).records.any (fun r => r.stage2 = decide (1 = 2)) = true ∧
    ((queueState [aRecord true]).cluster 0).records.any (fun r => r.stage2 = decide (1 = 2)) = false ∧
    ((queueState [aRecord false]).ringPut 0x100000 (aRecord false).bytes).isSome = true ∧
    (let s := fullQueue [aRecord false, aRecord true]
     ringSize 0x100000 ≤ s.peekNum (0x100000 + 256) 8 - s.peekNum 0x100000 8 ∧ MemoryOk s ∧
     (s.cluster 0).records = [aRecord false, aRecord true] ∧ aRecord false ≠ aRecord true ∧
     s.ringPut (s.cluster 0).fqBase (aRecord false).bytes = none ∧
     (s.ringPut (s.cluster 0).fqBase2 (aRecord true).bytes).isSome = true) := by
  refine ⟨⟨by decide +kernel, rfl, rfl, rfl, by decide +kernel, by decide +kernel⟩, by decide +kernel, rfl, rfl, rfl,
    by decide +kernel, by decide +kernel, rfl, rfl, by decide, ?_, by decide +kernel⟩
  have h : ((fullQueue [aRecord false, aRecord true]).ringPut 0x100000 (aRecord false).bytes).isNone = true := by
    decide +kernel
  exact Option.isNone_iff_eq_none.mp h

/-- An update of a line of die 0 on its way to die 1, the first write of die 2 or, when it is `early`, the second. -/
def updateState (early : Bool) : State :=
  let u : Update := ⟨9, 0, 1, 2, [0, 0, if early then 2 else 1, 0], [(0, 5)], true⟩
  { State.reset with updates := [u], dies := [(1, { Die.reset with replicas := [⟨0, [(0, 3)], []⟩] })] }

/-- A die whose line 0 has had twelve requests of cluster 3. -/
def migrateState : State := { State.reset with dies := [(0, { Die.reset with requests := [(0, List.replicate 12 3)] })] }

theorem witness_dies : (∀ early, let s := updateState early
      let u : Update := ⟨9, 0, 1, 2, [0, 0, if early then 2 else 1, 0], [(0, 5)], true⟩
      s.updates.find? (fun u => u.home = 0 && u.die = 1) = some u ∧ u.writer ≠ 1 ∧
      applicable (s.die 1).clock u.stamp u.writer = !early ∧ (s.die 1).replica 0 ≠ none) ∧
    (let s := migrateState
     homeDie (0 * 256) = some 0 ∧ clusterDie 3 = 0 ∧ (s.die 0).currentSlice 0 / 2 ≠ 3 % 16 ∧
     12 ≤ (((s.die 0).requests.get 0 []).filter (· = 3)).length) := by
  refine ⟨fun early => ?_, by decide +kernel, rfl, by decide +kernel, by decide +kernel⟩
  cases early <;> exact ⟨by decide +kernel, by decide, by decide +kernel, by decide +kernel⟩

/-- A grid whose first team is to be placed, on a core or pinned to core 9, which has halted. -/
def placing (pin : Option Nat) : Grid :=
  { placedGrid with nextTeam := 0, launch := { placedLaunch with live := 7, pin := pin, args := [11, 12], budget := 32 } }

def placeState (pin : Option Nat) : State :=
  { State.reset with grids := [(5, placing pin)], cores := [(9, { Core.reset with halted := true })] }

/-- A place of distinct waves, with an empty handle table to place there. -/
def fits (s : State) (x : Grid) (f : Option Fit) : Bool :=
  match f with
  | some f => decide (f.waves.Nodup) && !f.waves.isEmpty && (match s.tableRecords x (bankCore f.bank) with
      | .ok (h, _) => h == List.replicate 16 0
      | .error _ => false)
  | none => false

theorem witness_placing :
    (let s := placeState none
     let x := placing none
     s.grids.find 5 = some x ∧ x.unplaced = true ∧ x.launch.pin = none ∧ s.turnOf 5 x x.nextTeam = true ∧ x.launch.cooperative = false ∧
     x.launch.redundant = false ∧ fits s x (s.spot x.asid x.launch none none) = true ∧ x.launch.width ≤ 64) ∧
    (let s := placeState (some 9)
     let x := placing (some 9)
     s.grids.find 5 = some x ∧ x.unplaced = true ∧ x.launch.pin = some 9 ∧ (s.core 9).halted = true) ∧
    -- a team of the pinned grid that was killed there
    (let x := { placing (some 9) with nextTeam := 1 }
     let t : Team := { Team.fresh 5 0 18 [] 0 [] [] with waiting := true, sameCore := some 9, relaunches := 1 }
     let s : State := { placeState (some 9) with grids := [(5, x)], teams := [(7, t)] }
     s.grids.find 5 = some x ∧ x.launch.pin = some 9 ∧ (s.core 9).halted = true ∧ s.teams.find 7 = some t ∧ t.grid = 5 ∧
     t.waiting = true) := by
  refine ⟨⟨rfl, rfl, rfl, ?_, rfl, rfl, ?_, by decide⟩, ⟨rfl, rfl, rfl, rfl⟩, rfl, rfl, rfl, rfl, rfl, rfl⟩ <;>
    decide +kernel

/-- The grid's team, which was killed and waits for its place. -/
def replaceState : State :=
  { placeState none with
    grids := [(5, { placing none with nextTeam := 1 })]
    teams := [(7, { Team.fresh 5 0 6 [] 0 [] [] with waiting := true, contained := true, sameCore := some 3, relaunches := 1 })] }

theorem witness_relaunch :
    let s := replaceState
    let t : Team := { Team.fresh 5 0 6 [] 0 [] [] with waiting := true, contained := true, sameCore := some 3, relaunches := 1 }
    let x := { placing none with nextTeam := 1 }
    s.teams.find 7 = some t ∧ t.waiting = true ∧ s.grids.find t.grid = some x ∧ t.tasks = none ∧
    s.turnOf t.grid x t.teamId = true ∧ x.launch.pin = none ∧
    fits s x (s.spot x.asid x.launch (some t) none) = true ∧ s.retiredCore 3 = false ∧ (s.core 9).halted = true := by
  exact ⟨rfl, rfl, rfl, rfl, by decide +kernel, rfl, by decide +kernel, rfl, rfl⟩

def preempting : Grid := { placing none with launch := { (placing none).launch with prio := 3 } }

/-- A grid of priority 3 on a package where core 0 alone takes teams, whose active bank holds another context; its shadow bank
is empty, or holds a third one. -/
def preemptState (shadow : Option Nat) : State :=
  { State.reset with
    grids := [(5, preempting)]
    banks := [(0, { Bank.reset with asid := some 4 }), (1, { Bank.reset with asid := shadow })]
    cores := (List.range 127).map fun c => (c + 1, { Core.reset with halted := true })
    dies := (List.range 3).map fun d => (d + 1, { Die.reset with idle := true }) }

theorem mem_insertBy (key : Nat → Nat) (x c : Nat) (l : List Nat) : c ∈ insertBy key x l → c = x ∨ c ∈ l := by
  induction l with
  | nil => simp [insertBy]
  | cons y l ih =>
    unfold insertBy
    split
    · simp
    · intro h
      rcases List.mem_cons.mp h with h | h
      · simp [h]
      · rcases ih h with h | h <;> simp [h]

theorem mem_sortBy (key : Nat → Nat) (c : Nat) (l : List Nat) (h : c ∈ sortBy key l) : c ∈ l := by
  have key : ∀ (l acc : List Nat), c ∈ l.foldl (fun acc x => insertBy key x acc) acc → c ∈ l ∨ c ∈ acc := by
    intro l
    induction l with
    | nil => simp
    | cons x l ih =>
      intro acc h
      rcases ih _ h with h | h
      · simp [h]
      · rcases mem_insertBy _ _ _ _ h with h | h <;> simp [h]
  simpa using key l [] h

theorem mem_coreOrder {s : State} {asid c : Nat} (h : c ∈ s.coreOrder asid) : c < 512 := by
  simp only [State.coreOrder, List.mem_flatMap] at h
  obtain ⟨d, hd, e, he, hc⟩ := h
  have hd := List.mem_range.mp (mem_sortBy _ _ _ hd)
  have he := mem_sortBy _ _ _ he
  have hc := mem_sortBy _ _ _ hc
  simp only [List.mem_map, List.mem_range] at he hc
  obtain ⟨i, hi, rfl⟩ := he
  obtain ⟨j, hj, rfl⟩ := hc
  simp only [Config.dies] at hd
  omega

theorem preempt_none (shadow : Option Nat) (h : shadow = none ∨ shadow = some 6) :
    (preemptState shadow).spot 0 (preempting).launch none none = none := by
  have off : (List.range 512).all (fun c => c == 0 || ((preemptState shadow).core c).halted ||
      ((preemptState shadow).die (coreDie c)).idle) = true := by
    rcases h with rfl | rfl <;> decide +kernel
  have first : (preemptState shadow).fit 0 preempting.launch 0 ((preemptState shadow).core 0).active false = none := by
    rcases h with rfl | rfl <;> decide +kernel
  have parts : preempting.launch.fused = false ∧ preempting.launch.pin = none := ⟨rfl, rfl⟩
  simp only [State.spot, parts, Option.bind_none, if_false, Bool.false_eq_true, List.findSome?_eq_none_iff]
  intro c hc
  rcases Nat.eq_zero_or_pos c with rfl | pos
  · exact first
  · have := List.all_eq_true.mp off c (List.mem_range.mpr (mem_coreOrder hc))
    have no : (preemptState shadow).takesTeams c = false := by
      have pos : c ≠ 0 := by omega
      simp only [Bool.or_eq_true, beq_iff_eq, pos, false_or] at this
      unfold State.takesTeams
      rcases this with h | h <;> simp [h]
    simp [State.fit, preempting, placing, placedLaunch, no, guard, failure]

theorem witness_preempt : ∀ shadow, shadow = none ∨ shadow = some 6 → let s := preemptState shadow
    let x := preempting
    s.grids.find 5 = some x ∧ x.unplaced = true ∧ x.launch.prio = 3 ∧ x.launch.fused = false ∧ x.launch.pin = none ∧
    x.asid = 0 ∧ s.turnOf 5 x x.nextTeam = true ∧ s.spot x.asid x.launch none none = none ∧ (s.core 0).active = 0 ∧
    s.takesTeams 0 = true ∧ (s.bank (bankNo 0 0)).asid = some 4 ∧ s.hasPrio3 (bankNo 0 0) = false ∧
    (s.bank (bankNo 0 1)).asid = shadow ∧ (s.die 0).staging = [] ∧
    (shadow = none → fits s x (s.fit x.asid x.launch 0 1 true) = true) := by
  intro shadow h
  refine ⟨rfl, rfl, rfl, rfl, rfl, rfl, ?_, preempt_none shadow h, ?_, ?_, ?_, ?_, ?_, ?_, ?_⟩
  all_goals (rcases h with rfl | rfl <;> decide +kernel)

/-- A pool with one task of the placed grid that has waited GATHERWIN. -/
def expiredState : State :=
  let c : Context := ⟨2, 0x400800, [⟨1, [⟨0x400000, 0x400000⟩], []⟩]⟩
  { State.reset with
    grids := [(5, placedGrid)]
    mem := [(0x4000F8, 64)]
    device := { Device.reset with contexts := [(0, c)] }
    clusters := [(0, { Cluster.reset with pool := [aTask], ticks := 64 })] }

theorem witness_expired : let s := expiredState
    let k : Tasks := { entry := aTask.entry, budget := 64, records := [aTask.record] }
    groupsOf (s.cluster 0).pool = [[aTask]] ∧ aTask.born + (s.cluster 0).gatherWin.toNat % 2 ^ 16 ≤ (s.cluster 0).ticks ∧
    s.grids.find aTask.grid = some placedGrid ∧
    (match s.codeVersion placedGrid.asid placedGrid.version with
     | some c => budgetPlace c aTask.entry == some 0x4000F8
     | none => false) = true ∧
    s.peekNum 0x4000F8 4 = 64 ∧ budgetOk 64 = true ∧ s.turnOf aTask.grid placedGrid placedGrid.teamCount = true ∧
    (match s.spot placedGrid.asid (placedGrid.launch.gathered k) none (some 0) with
     | some f => s.sliceOpen (coreDie (bankCore f.bank)) 0x4000F8 s.nextId &&
        (match s.tableRecords placedGrid (bankCore f.bank) with
         | .ok (_, v) => (match v.taskWords (bankCore f.bank) placedGrid (some k) with | .ok _ => true | .error _ => false)
         | .error _ => false)
     | none => false) = true := by
  refine ⟨by decide +kernel, by decide +kernel, rfl, by decide +kernel, by decide +kernel, by decide +kernel,
    by decide +kernel, by decide +kernel⟩

/-- A grid whose one team has exited, with a strand of another team that waits for the grid; its completion word is at
0x500000. -/
def retireState : State :=
  { withStrand (lane []) fun st => { st with life := .exited } with
    grids := [(5, { grid with level := 2, asid := 0, launch := { placedLaunch with done := 0x500000 } })] }

/-- A grid that has nothing left to run, with a completion word at a place, in a context of a level. -/
def retiring (level asid : Nat) (done : VAddr) (flushed : Bool) : Grid :=
  { grid with level := level, asid := asid, retiredTeams := 1, flushed := flushed, launch := { placedLaunch with done := done } }

def retiredState (s : State) (g : Grid) : State :=
  { s with
    teams := []
    strands := [(0, { strand [] with life := .exited }), (64 * 33 * 2, { strand [] with life := .blocked (.grid 5 3 8) })]
    grids := [(5, g)] }

/-- What GRID_RETIRE asks of the state: it holds in each of the states below. -/
def retires (s : State) (g : Grid) : Bool :=
  Memory.wf s.mem && decide (s.grids.find 5 = some g) && !g.retired && !g.unplaced && decide (g.teamCount ≤ g.retiredTeams) &&
    s.teams.isEmpty && (s.clusters.all fun p => p.2.pool.isEmpty && p.2.pushing.isEmpty) && (s.cores.all fun p => p.2.items.isEmpty) &&
    decide (s.grids.map (·.1) = [5]) && g.parentGrid.isNone && !s.awaits g.stores g.flushed

/-- What the completion word finds. -/
def doneFinds (s : State) (g : Grid) : Act (Option (List Host.Cell)) :=
  let v := s.flushHeld
  ({ v with nextId := v.nextId + 1 } : State).doneCells (g.places.headD 0) g (toBytes 4 g.status ++ toBytes 4 5)

theorem witness_retire :
    (let s := retireState
     let g := { grid with level := 2, asid := 0, launch := { placedLaunch with done := 0x500000 } }
     s.teams.find 7 = some team ∧ s.teamDone 7 team = true ∧ s.grids.find team.grid = some g ∧
     (s.teams.map (·.1)).Pairwise (· < ·)) ∧
    (∀ flushed, let g := retiring 2 0 0x500000 flushed
     let s := retiredState (lane []) g
     retires s g = true ∧ g.launch.done ≠ 0 ∧ s.flushHeld.recordsHeld 5 = false ∧
     (match doneFinds s g with
      | .ok (some cells) => decide (cells.map (memKey ·.1)).Nodup
      | _ => false) = true ∧
     (∃ st, s.strands.find (64 * 33 * 2) = some st ∧ st.life = .blocked (.grid 5 3 8))) ∧
    (let g := retiring 2 0 0 true
     retires (retiredState (lane []) g) g = true ∧ g.launch.done = 0) ∧
    -- records that are held for the grid
    (let g := retiring 2 0 0x500000 true
     let s := retiredState ((lane []).poke (0x100000 + 256) [64]) g
     let s : State := { s with device := { s.device with
       errBase := 0x100000, errors := [{ ErrorRec.blank with code := 0x10, grid := 5 }] } }
     retires s g = true ∧ s.flushHeld.recordsHeld 5 = true) := by
  refine ⟨⟨rfl, by decide +kernel, rfl, List.pairwise_singleton _ _⟩, fun flushed => ?_, ⟨by decide +kernel, rfl⟩,
    by decide +kernel, by decide +kernel⟩
  cases flushed <;> exact ⟨by decide +kernel, by decide, by decide +kernel, by decide +kernel, ⟨_, rfl, rfl⟩⟩

/-- A completion word whose page is not present, whose page the TLBs do not hold, and whose line a copy owns. -/
theorem witness_retire_done :
    (let g := retiring 0 3 0x700000 true
     let s := retiredState { walkState false with
       cores := [(0, { Core.reset with tlb := [{ tlbEntry with va := 0x700000, present := false }] })] } g
     retires s g = true ∧ s.flushHeld.recordsHeld 5 = false ∧
     (match doneFinds s g with | .ok none => true | _ => false) = true) ∧
    (let g := retiring 0 3 0x500000 true
     let s := retiredState (walkState false) g
     retires s g = true ∧ s.flushHeld.recordsHeld 5 = false ∧
     (match doneFinds s g with | .error (.walk va) => va == 0x500007 | _ => false) = true) ∧
    (let g := retiring 2 0 0x500500 true
     let s := retiredState (landState true) g
     retires s g = true ∧ s.flushHeld.recordsHeld 5 = false ∧
     (match doneFinds s g with | .error .hold => true | _ => false) = true) := by
  refine ⟨⟨?_, ?_, ?_⟩, ⟨?_, ?_, ?_⟩, ?_, ?_, ?_⟩ <;> decide +kernel

/-- Cores as the events of a core find them: 1 gated and woken, 2 halted, 3 held with two records of lane 5. -/
def coreState : State :=
  { State.reset with
    cores := [(1, { Core.reset with gated := true, woken := true }), (2, { Core.reset with halted := true }),
              (3, { Core.reset with held := true, mismatches := [⟨1, [⟨5, some 5, some 9⟩]⟩, ⟨2, [⟨5, some 5, some 11⟩]⟩] })]
    device := { Device.reset with testAccess := true } }

/-- The lane's core with a command in progress whose watchdog is armed. -/
def watchdogState : State :=
  (lane []).modBank 0 fun b => { b with mxQueue := [⟨9, none, .zero, 0, 7, 0, 0, 0, 0⟩] }

theorem witness_cores :
    (let s := coreState
     s.issue = none ∧ (s.core 0).gated = false ∧ s.strands = [] ∧ (s.core 1).gated = true ∧ (s.core 1).woken = true ∧
     (s.core 2).halted = true ∧ s.device.boot ≠ .recovery ∧ (s.core 3).held = true ∧ s.coreHolds 3 = false ∧
     s.scribeToMove 3 = false ∧ (s.core 3).swaps = [] ∧ (s.core 3).inject = none ∧ s.device.testAccess = true ∧
     2 ≤ ((s.core 3).mismatches.filter fun m => m.physical.contains 5).length ∧ lmapState ((s.core 3).lmapReg 5) ≤ 1 ∧
     (∀ n ∈ (s.core 3).mismatches.flatMap Mismatch.physical, n ∉ ([1, 2] : List Nat)) ∧
     9 ∈ (s.core 3).mismatches.flatMap Mismatch.physical ∧ lmapState ((s.core 3).lmapReg 9) ≤ 1) ∧
    (let s := watchdogState
     (s.bank (s.activeBank 0)).mxQueue = ⟨9, none, .zero, 0, 7, 0, 0, 0, 0⟩ :: [] ∧ s.engineHeld 0 = false ∧
     (s.core 0).mxwd.msb = true ∧ s.teams.find 7 = some team ∧ team.bank = bankNo 0 0 ∧ team.waiting = false ∧
     team.tiles ≠ []) := by
  refine ⟨⟨rfl, rfl, rfl, rfl, rfl, rfl, by decide, rfl, rfl, by decide +kernel, rfl, rfl, rfl, by decide, by decide +kernel,
    by decide +kernel, by decide, by decide +kernel⟩, rfl, by decide +kernel, by decide, rfl, rfl, rfl, by decide⟩

/-- A device with a pending clear of stack 2, a die that idles, and perhaps a thermal stop. -/
def powerStateOf (stopped : Bool) : State :=
  { State.reset with
    dies := [(1, { Die.reset with idle := true })]
    device := { Device.reset with stopped := stopped, hbmClear := [(2, 0x500000000)], hbmStat := [(2, 0x700010002)] } }

theorem witness_power : ∀ stopped, let s := powerStateOf stopped
    s.device.hbmClear.find 2 = some 0x500000000 ∧ (s.die 1).idle = true ∧ s.teams = [] ∧ s.grids = [] ∧
    s.device.stopped = stopped ∧ s.device.boot ≠ .recovery ∧ s.coreHolds 128 = false := by
  intro stopped
  exact ⟨rfl, rfl, rfl, rfl, rfl, by simp [powerStateOf, Device.reset], rfl⟩

/-- An image of one page with one export. -/
def image (asid : Nat) : Image :=
  { asid := asid, mmr := 2, trapEntry := 0x400800, exports := [0x400100], pages := [⟨0x400000, 0x600000⟩],
    contents := [(0x500000, [1, 2, 3])], file := [9] }

def loadedState : State := { State.reset with device := { Device.reset with contexts := [(3, ⟨1, 0x400900, [⟨4, [], []⟩]⟩)] } }

theorem witness_image_load : MemoryOk loadedState ∧ (image 3).asid < 8192 ∧ loadedState.device.boot ≠ .recovery ∧
    loadedState.device.contexts.find (image 3).asid = some ⟨1, 0x400900, [⟨4, [], []⟩]⟩ ∧
    loadedState.device.contexts.find (image 4).asid = none ∧
    (image 3).contents = [(0x500000, [1, 2, 3])] ∧ ((span 0x500000 3).map memKey).Nodup ∧ (4 : Nat) < 2 ^ 32 - 1 ∧
    -- a context whose version numbers are used up
    (let last : Context := ⟨1, 0x400900, [⟨2 ^ 32 - 1, [], []⟩]⟩
     ({ State.reset with device := { Device.reset with contexts := [(3, last)] } } : State).device.contexts.find (image 3).asid =
       some last) := by
  refine ⟨rfl, by decide, by decide, rfl, rfl, rfl, by decide +kernel, by norm_num, rfl⟩

/-- A package that runs its firmware, with an owner key; a scribe start is asked for in cluster 2; the scribe wave of
cluster 0 sleeps on core 0; die 0 has an old rubric program whose strands have exited. -/
def managed : State :=
  let w := waveNo (scribeBank 0) 32
  { State.reset with
    device := { Device.reset with boot := .running, ownerKey := some [7] }
    dies := [(0, { Die.reset with rubric := some (waveNo (bankNo 127 0) 0) })]
    clusters := [(0, { Cluster.reset with scribe := some w }),
                 (2, { Cluster.reset with scribeStart := true, scribeEnt := 0x8000000000400101 })]
    waves := [(w, Wave.fresh 64 64 0 7 5 32)], teams := [(7, Team.fresh 5 0 1024 [w] 0 [] [])]
    strands := [(strandNo w 0, { strand [] with life := .blocked .sleep })] }

theorem witness_management :
    (let m : ManagementGrid := ⟨0x400010, 1, 16, 1, 32, 256, [1]⟩
     managed.device.boot = .running ∧ managed.device.management = none ∧ m.waves ≤ 32 ∧ 1 ≤ m.waves ∧ m.width = 16 ∧
     1 ≤ m.live ∧ m.live ≤ m.width ∧ 16 ≤ m.budget ∧ m.budget ≤ 128 ∧ m.budget % 8 = 0 ∧ m.scratch % 256 = 0 ∧
     m.scratch ≤ 655360) ∧
    ((managed.cluster 2).scribeStart = true ∧ managed.scribeLive 2 = false ∧ managed.scribeCore 2 = some 16) ∧
    (let w := waveNo (scribeBank 0) 32
     (managed.cluster 0).scribe = some w ∧ managed.waves.find w = some (Wave.fresh 64 64 0 7 5 32) ∧
     managed.waveLive w = true ∧ managed.allIdle w = true ∧ managed.bankBusy (waveBank w) = false ∧
     (((List.range 8).map (8 * 0 + ·)).find? fun c =>
       decide (bankCore (waveBank w) < c) && !managed.retiredCore c) = some 1 ∧
     (managed.core (bankCore (waveBank w))).l1 = [] ∧ managed.flights = [] ∧
     (managed.waves.map (·.1)).Pairwise (· < ·) ∧ waveNo (scribeBank 1) 32 ≠ w) ∧
    ((image 0).asid = 0 ∧ (image 0).exports = 0x400100 :: [] ∧ managed.device.ownerKey = some [7] ∧
     (managed.die 0).rubric = some (waveNo (bankNo 127 0) 0) ∧ managed.allIdle (waveNo (bankNo 127 0) 0) = true) := by
  refine ⟨by decide, ⟨rfl, by decide +kernel, by decide +kernel⟩, ⟨rfl, by decide +kernel, by decide +kernel,
    by decide +kernel, by decide +kernel, by decide +kernel, rfl, rfl, List.pairwise_singleton _ _, by decide⟩, rfl, rfl, rfl,
    rfl, by decide +kernel⟩

/-- Die 0 has a rubric program whose stream 3 has an entry with an OP; a grid that entry 0 launched has retired or not.
The streams lie in one page that the TLB of the program's core holds. A copy may own the line of the budget word. -/
def streamState (op : Nat) (retired owned : Bool) : State :=
  let w := waveNo (bankNo 127 0) 0
  let c : Context := ⟨2, 0x400800, [⟨1, [⟨0x400000, 0x400000⟩], [0x400100]⟩]⟩
  let s : State := { State.reset with
    mem := [(0x4000F8, 64)]
    banks := if owned then [(4, { Bank.reset with copies := [{ aCopy true with owned := [(0x4000, 256)] }] })] else []
    cores := [(127, { Core.reset with tlb := [{ tlbEntry with asid := 0 }] })]
    device := { Device.reset with ctxTab := 0x10001, contexts := [(0, c)], nextGrid := 6 }
    dies := [(0, { Die.reset with rubric := some w, streams := [(3, [(0, 5)])] })]
    grids := [(5, { placedGrid with retired := retired })]
    waves := [(w, { Wave.fresh 64 64 0 7 5 128 with w := [(0, 0x500000)] })] }
  let put := fun (s : State) (pa x : Nat) => s.poke pa (toBytes 8 x)
  let s := put (put s (0x500000 + 8 * 3) 0x501000) (0x501000 + 256) 1
  let s := put (put (put s (0x501000 + 512) op) (0x501000 + 512 + 8) (if op = 3 then 0x502000 else 0)) (0x501000 + 528) 0x1122
  s.poke (0x501000 + 512 + 128) (launchRecord 2)

def entryIs (x : Act (Nat × Nat × List Byte × State)) (p : Nat → State → Bool) : Bool :=
  match x with
  | .ok (base, head, b, v) => base == 0x501000 && head == 0 && p (bytesAt b 0 4) v
  | .error _ => false

/-- What LAUNCH answers to the entry's record. -/
def launched (x : Act (Nat × Nat × List Byte × State)) : Option (Option Nat) :=
  match x with
  | .ok (_, _, b, v) =>
    some ((v.launchGrid { die := 0, asid := 0, level := 1, prio := 3, depth := 0, team := none, grid := none } (b.drop 128)
      true).map fun r => r.1)
  | .error _ => none

theorem witness_streams :
    (List.range 6).all (fun op => entryIs ((streamState op true false).streamEntry 0 3) fun x _ => x == op) = true ∧
    ((streamState 1 true false).die 0).rubricOut = [] ∧ (streamState 1 true false).flights = [] ∧
    (streamState 1 true false).engineStopped (rubricCore 0) = false ∧
    launched ((streamState 1 true false).streamEntry 0 3) = some (some 0) ∧
    launched ((streamState 1 true true).streamEntry 0 3) = some none ∧
    [2, 4].all (fun op => [true, false].all fun retired =>
      entryIs ((streamState op retired false).streamEntry 0 3) fun x v =>
        x == op && v.streamGrids 0 3 == [(0, 5)] && v.gridRetired 5 == retired) = true := by
  refine ⟨?_, rfl, rfl, ?_, ?_, ?_, ?_⟩ <;> decide +kernel

/-- A write of the rubric program of die 0 that is next, with a flight of its core on its way or none. -/
def rubricWriting (halted busy : Bool) : State :=
  let s := streamState 3 true false
  { s with
    cores := s.cores.mapVal fun _ (c : Core) => { c with halted := halted }
    dies := s.dies.mapVal fun _ (d : Die) => { d with rubricOut := [(0x502000, toBytes 8 0x1122)] }
    flights := if busy then [aFlight 127 none] else [] }

theorem witness_rubric_writes : ∀ halted busy, let s := rubricWriting halted busy
    let orders := s.releaseIds [rubricCore 0] (strandNo ((s.die 0).rubric.getD 0) 0) 6 0 false
    (s.die 0).rubricOut = (0x502000, toBytes 8 0x1122) :: [] ∧ s.engineStopped (rubricCore 0) = halted ∧
    s.awaits orders.1 orders.2 = busy ∧
    (List.range 8).all (fun k => match s.translateNow (rubricCore 0) 0 1 (0x502000 + k) 1 kStore with
      | .ok pa => pa == 0x502000 + k
      | .error _ => false) = true := by
  intro halted busy
  cases halted <;> cases busy <;> exact ⟨rfl, by decide +kernel, by decide +kernel, by decide +kernel⟩

/-- Link 2 has had four requests in sequence and link 3 is down; the network window 1 is open: it sends to remote address
0x9000 on, and what arrives for it goes to 0x700000 on. -/
def outsideState : State :=
  let s : State := { State.reset with
    device := { Device.reset with nwtBase := 0x30000, links := [(2, ⟨true, 0, 4⟩), (3, ⟨false, 0, 0⟩)] } }
  (((s.poke (0x30000 + 64) [1]).poke (0x30000 + 64 + 16) (toBytes 8 0x9000)).poke (0x30000 + 64 + 24) (toBytes 8 0x1000)).poke
    (0x30000 + 64 + 32) (toBytes 8 0x700000 ++ toBytes 8 0x1000)

theorem witness_outside : let s := outsideState
    let bytes : List Byte := [1, 2, 3]
    MemoryOk s ∧ bytes ≠ [] ∧ isDevice (0x700010 + bytes.length - 1) = true ∧
    (∀ agent, agent ∈ [0, 3, 16 + s.queuePair 1] → s.outsideMay agent 0x700010 bytes.length true = true) ∧ s.poisonedAt 0x700010 = false ∧
    s.peek 0x700010 bytes.length = [0, 0, 0] ∧ s.peek 0x700010 bytes.length ≠ [1, 0, 0] ∧
    toBytes bytes.length (s.peekNum 0x700010 bytes.length + 0x030201) = bytes ∧ (s.device.link 2).up = true ∧
    (4 : Nat) = (s.device.link 2).received ∧ (s.device.link 3).up = false ∧ s.linkBusy 3 = false ∧
    s.windowEntry 1 = some (true, 0x9000, 0x1000) ∧
    (let entry := s.device.nwtBase.toNat / 2 ^ 12 % 2 ^ 40 * 4096 + 64 * 1
     0x700010 = s.peekNum (entry + 32) 8 + 0x10 ∧ 0x10 + bytes.length ≤ s.peekNum (entry + 40) 8 ∧
     isDevice (s.peekNum (entry + 32) 8 + s.peekNum (entry + 40) 8 - 1) = true) ∧
    s.banks = [] ∧ ringBase s.device.errBase = 0 ∧ s.device.boot ≠ .recovery ∧
    s.ownedByCopy (lineOf (s.device.nwtBase.toNat / 2 ^ 12 % 2 ^ 40 * 4096 + 64)) = false := by
  refine ⟨(by decide +kernel : Memory.wf outsideState.mem = true), by decide, by decide +kernel, fun agent h => ?_, by decide +kernel, by decide +kernel,
    by decide +kernel, by decide +kernel, rfl, rfl, rfl, rfl, by decide +kernel, by decide +kernel, rfl, by decide +kernel, by decide,
    by decide +kernel⟩
  simp only [List.mem_cons, List.not_mem_nil, or_false] at h
  rcases h with rfl | rfl | rfl <;> rfl

/-- A package with firmware to run, in recovery or before boot, with what the management path has given it for a rubric program. -/
def bootState (recovery : Bool) (rubric : Option (Image × List Byte × Dword)) : State :=
  { State.reset with device := { Device.reset with
      boot := if recovery then .recovery else .off, ownerKey := some [7], rubricImage := rubric } }

theorem witness_boot :
    (State.reset.device.boot = .off ∧ State.reset.device.ownerKey = none) ∧
    (∀ recovery rubric, let s := bootState recovery rubric
     s.device.boot = (if recovery then .recovery else .off) ∧ s.device.ownerKey = some [7] ∧ s.device.rubricImage = rubric ∧
     s.device.contexts = []) ∧
    ((image 0).exports = 0x400100 :: [] ∧ (image 0).asid = 0 ∧ (image 3).asid ≠ 0) ∧
    (List.replicate 32 (1 : Byte)).length = 32 :=
  ⟨⟨rfl, rfl⟩, fun _ _ => ⟨rfl, rfl, rfl, rfl⟩, ⟨rfl, rfl, by decide⟩, rfl⟩

/-- Whether an outcome is a next state, as data. -/
def goesOn (o : Out) : Bool := after o fun _ => true

theorem witness_frames :
    (let s := lane [(1, 5), (2, 3)]
     s.env = some (envOf s) ∧ Alone (envOf s) ∧ computes (.add 0 3 1 2) = some [.v 3] ∧ flagging (.add 0 3 1 2) = false ∧
     goesOn (exec (.add 0 3 1 2) s) = true ∧ writable (.v 4) = true ∧ writable (.p 3) = true ∧
     newest (envOf s).st (.v 2) = some 3) ∧
    (let s := globalLane
     s.env = some (envOf s) ∧ Alone (envOf s) ∧ accesses .commit = true ∧ (envOf s).hs = none ∧
     (∀ p ∈ (envOf s).wave.h, hKind p.2 ≠ 2) ∧ hKind 0 ≠ 2 ∧ goesOn (exec .commit s) = true) := by
  refine ⟨⟨rfl, rfl, rfl, rfl, rfl, rfl, rfl, rfl⟩, rfl, rfl, rfl, rfl, by decide +kernel, by decide +kernel, rfl⟩

/-- A strand with a write of v3 that has not arrived, read with and without CHKSB. -/
def windowEnv (checks : Bool) : Env :=
  let s := withStrand ((lane [(4, 9)]).modBank 0 fun b => { b with chksb := if checks then 1 else 0 }) fun st =>
    { st with window := [⟨.v 3, 3, false, 4, 1, false, none⟩] }
  envOf s

theorem witness_window_reads : (windowEnv false).checks = false ∧ (windowEnv false).st.handler = none ∧
    (windowEnv true).checks = true ∧ stale (windowEnv true).st (.v 3) = true ∧ stale (windowEnv true).st (.v 4) = false ∧
    newest (windowEnv true).st (.v 4) = some 9 ∧ ((windowEnv true).st.reg 4).par = parity ((windowEnv true).st.reg 4).val := by
  refine ⟨rfl, rfl, rfl, rfl, rfl, rfl, rfl⟩

/-- The lane with v2 poisoned and a write of v3 that has not arrived, with CHKSB set. -/
def faultyLane : State :=
  withStrand ((lane [(4, 9)]).modBank 0 fun b => { b with chksb := 1 }) fun st =>
    { st with regs := st.regs ++ [(2, Reg.of 7 true)], window := [⟨.v 3, 3, false, 4, 1, false, none⟩] }

theorem witness_operand_faults : let s := faultyLane
    let e := envOf s
    s.env = some e ∧ operands (.add 0 3 2 64) = some ([3, 2, 64], [2, 64]) ∧ Unhindered s e (.add 0 3 2 64) ∧ ¬Has e 64 ∧
    Has e 63 ∧ operands (.ffma 0 3 2 4) = some ([3, 2, 4], [3, 2, 4]) ∧ e.read 3 = .error (.fault 4 0 0) ∧
    e.read 2 = .ok (7, true) ∧ e.read 4 = .ok (9, false) ∧ operands (.f2i 4 2 0 0) = some ([4, 2], [2]) ∧
    Unhindered s e (.f2i 4 2 0 0) := by
  refine ⟨rfl, rfl, trivial, ?_, has_of rfl, rfl, rfl, rfl, rfl, rfl, ?_⟩
  · simp only [Has]
    decide
  · simp only [Unhindered]
    decide

/-- A lane whose wave has four issues in its SFU queue and eight in its conversion queue. -/
def fullQueues : State :=
  { lane [(2, 1)] with
    cores := [(0, { Core.reset with results := (List.range 12).map fun n => ⟨n, 1, if n < 4 then 1 else 2, 100 + n, 0, [], 0⟩ })] }

theorem witness_full_queues : let s := fullQueues
    let e := envOf s
    s.env = some e ∧ (s.unitIssues e.waveKey 1).length = 4 ∧ (s.unitIssues e.waveKey 2).length = 8 ∧
    e.issueNo ∉ s.unitIssues e.waveKey 1 ∧ e.issueNo ∉ s.unitIssues e.waveKey 2 := by
  refine ⟨rfl, by decide, by decide, by decide, by decide⟩

/-- A redundant pair: waves 0 and 33 x 2; lane 0 of the leading or of the trailing wave executes, with index 7 in v1, data in
v4 and a copy's words in v8 to v10. The leading lane has `values` for the trailing one and `compares` to be compared. -/
def pairLane (trailing permit : Bool) (values compares : List PairItem) : State :=
  let h := [(1, handle 0 2 7 0 8 0x500000), (2, handle 1 2 7 0 1024 0), (3, handle 0 2 7 0 1024 0x500000)]
  let regs : List (Nat × Word) := [(1, 7), (4, 0x11223344), (8, 0), (9, 0), (10, 64)]
  let s := lane regs
  { s with
    strands := [(0, { strand regs with
      values := values, compares := compares, permit := permit, life := if permit then .waiting .pair else .ready }), (64, strand regs)]
    waves := [(0, { wave with partner := some 1, h := h }), (1, { wave with partner := some 0, trailing := true, h := h })]
    teams := [(7, { team with waves := [0, 1], contained := true, redundant := true, buffer := [(0x600000, 1)] })]
    banks := [(0, { Bank.reset with asid := some 3, mapping := 8, order := [⟨0, some 1⟩] })]
    grids := [(5, { grid with level := 2 })]
    cur := { strand := if trailing then 64 else 0, bundle := 0x400010, word := 0x400010, hints := {} } }

/-- One instruction of each kind of request that is performed once. -/
def onceSamples : List Instr :=
  [.commit, .rgrow 12 2, .rshrink 4, .gwait 12 1, .mxz 0, .tagarm 1 1, .waclr 0, .cpy 1 3 2 8 0]

/-- The request of an atomic of h1. -/
def aaddWords : List Word := reqWords 0x50001C [0, 4, 0, accessScope 0 (handle 0 2 7 0 8 0x500000), 0, 0x11223344]

def aaddItem : PairItem := ⟨0x400010, 0, 0, none, aaddWords, []⟩

/-- The lane is at an atomic of h1, whose request is `aaddWords`. -/
theorem witness_pair_atomics : ∀ s ∈ [pairLane false false [] [], pairLane false true [] [aaddItem],
      pairLane true false [] [aaddItem], pairLane true false [⟨0x400010, 0, 0, none, [7], [false]⟩] []],
    let e := envOf s
    AtomicElement e 0 1 1 4 (handle 0 2 7 0 8 0x500000) 7 [(0x11223344, false)] ∧
    e.locate (handle 0 2 7 0 8 0x500000) 7 2 = .ok (.glob 0x50001C) ∧
    aaddWords = reqWords 0x50001C ([0, hEsize (handle 0 2 7 0 8 0x500000), e.order,
      accessScope (0 : BitVec 3).toNat (handle 0 2 7 0 8 0x500000), (0 : BitVec 1).toNat] ++
        ([(0x11223344, false)] : List (Word × Bool)).map (·.1.toNat)) := by
  intro s h
  simp only [List.mem_cons, List.not_mem_nil, or_false] at h
  rcases h with rfl | rfl | rfl | rfl <;>
    exact ⟨atomicElement_of (by decide) rfl (reads_of rfl rfl) rfl rfl rfl rfl rfl rfl, by rfl, by decide +kernel⟩

/-- What the leading lane has given, for the same bundle or another, or with a fault. -/
theorem witness_pair_values : ∀ same fault : Bool,
    let v : PairItem := ⟨if same then 0x400010 else 0x400020, 0, 0, if fault then some (9, 7, 0) else none, [7], [false]⟩
    let s := pairLane true false [v] []
    let e := envOf s
    s.env = some e ∧ e.trailing = true ∧ (∃ lead, s.strands.find e.partnerKey = some lead ∧ lead.values = v :: []) ∧ v.seq = 0 ∧
    decide (v.pc = e.bundle) = same ∧ Element e 1 1 4 (handle 0 2 7 0 8 0x500000) 7 ∧
    (onceSamples.all fun i => (onceRequest e i).isSome) = true := by
  intro same fault
  cases same <;> cases fault <;>
    exact ⟨rfl, rfl, ⟨_, rfl, rfl⟩, rfl, rfl, element_of rfl (reads_of rfl rfl) rfl rfl, by decide +kernel⟩

theorem witness_once_requests :
    (let s := pairLane false false [] []
     let e := envOf s
     s.env = some e ∧ e.leading = true ∧ e.st.permit = false ∧
     (∃ st, s.strands.find e.key = some st ∧ st.life ≠ .waiting .pair) ∧ (s.pairEntries e.waveKey).length < 256 ∧
     (onceSamples.all fun i => (onceRequest e i).isSome) = true) ∧
    (∀ same : Bool, let c : PairItem := ⟨0x400010, 0, 0, none, if same then aaddWords else [0], []⟩
     let s := pairLane true false [] [c]
     let e := envOf s
     s.env = some e ∧ e.trailing = true ∧
     (∃ lead, s.strands.find e.partnerKey = some lead ∧ lead.values = [] ∧ lead.compares = c :: [] ∧ lead.permit = false) ∧
     c.pc = e.bundle ∧ decide (c.words = aaddWords) = same) := by
  refine ⟨⟨rfl, rfl, rfl, ⟨_, rfl, by decide⟩, by decide, by decide +kernel⟩, fun same => ?_⟩
  cases same <;> exact ⟨rfl, rfl, ⟨_, rfl, rfl, rfl, rfl⟩, rfl, by decide +kernel⟩

theorem witness_permitted : let s := pairLane false true [] [⟨0x400010, 0, 0, none, aaddWords, []⟩]
    let e := envOf s
    s.env = some e ∧ e.leading = true ∧ e.st.permit = true ∧ e.isContained = true ∧ s.ownOutstanding e.key = false ∧
    s.allCompared e.wave.team = true ∧ e.translate 0x50001C 2 kAtomic = .ok 0x50001C ∧
    accessScope (0 : BitVec 3).toNat (handle 0 2 7 0 8 0x500000) ≤ 2 ∧ e.tile 0 = .ok 0 ∧ (s.bank e.engine).mxQueue.length < 64 ∧
    e.st.openGroup.length < 32 ∧ (onceRequest e (.cpy 1 3 2 8 0)).isSome = true ∧ e.hReg 3 = .ok (handle 0 2 7 0 1024 0x500000) ∧
    e.hReg 2 = .ok (handle 1 2 7 0 1024 0) ∧ Reads e 8 0 ∧ Reads e 9 0 ∧ Reads e 10 64 ∧
    linearOp (handle 1 2 7 0 1024 0) (handle 0 2 7 0 1024 0x500000) 0 0 64 e.scratchGrant = .ok (.linear 0 0 64) := by
  refine ⟨rfl, rfl, rfl, rfl, rfl, ?_, rfl, by decide +kernel, rfl, by decide, by decide, rfl, rfl, rfl, reads_of rfl rfl, reads_of rfl rfl,
    reads_of rfl rfl, by decide +kernel⟩
  decide +kernel

/-- What a store of a contained redundant team is compared by. -/
def stWords (scope : Nat) : List Word :=
  reqWords 0x50001C ([4, scope, 0] ++ [0x44, 0x33, 0x22, 0x11])

theorem witness_pair_stores : ∀ same trailing : Bool,
    let r := handle 0 2 7 0 8 0x500000
    let c : PairItem := ⟨0x400010, 0, 0, none, if same then stWords (accessScope 2 r) else [0], []⟩
    let s := pairLane trailing false [] (if trailing then [c] else [])
    let e := envOf s
    s.env = some e ∧ e.isContained = true ∧ Element e 1 1 4 r 7 ∧ hKind r = 0 ∧
    e.readMany 4 (elementRegs (hEsize r)) = .ok [(0x11223344, false)] ∧ e.locate r 7 1 = .ok (.glob 0x50001C) ∧
    s.readsOutstanding e.key = false ∧
    decide (c.words = reqWords 0x50001C ([hEsize r, accessScope 2 r, 0] ++
      (storeBytes (hEsize r) [(e.produce 0x11223344, false)]).map fun b => b.1.toNat + if b.2 then 256 else 0)) = same ∧
    (if trailing then e.trailing = true ∧ ∃ lead, s.strands.find e.partnerKey = some lead ∧ lead.values = [] ∧ lead.compares = c :: []
     else e.leading = true ∧ e.translate 0x50001C 1 kStore = .ok 0x50001C ∧ s.ownHeld e.key 0x50001C 4 s.nextId = false ∧
       s.ownedByCopy (lineOf 0x50001C) = false ∧ e.bufferRoom 0x50001C 4 = true) := by
  intro same trailing
  cases same <;> cases trailing <;>
    exact ⟨rfl, rfl, element_of rfl (reads_of rfl rfl) rfl rfl, by decide +kernel, rfl, by rfl, rfl, by decide +kernel,
      ⟨rfl, by first | exact ⟨_, rfl, rfl, rfl⟩ | exact ⟨rfl, rfl, rfl, by decide +kernel⟩⟩⟩

/-- An issue in which lanes differ; the team that is killed for it. -/
theorem witness_mismatches :
    (let s : State := { pairLane true false [] [] with issue := some (endedIssue []) }
     s.env = some (envOf s) ∧ s.issue = some (endedIssue [])) ∧
    (let s := pairLane true false [] []
     (∃ w, s.waves.find (strandWave 64) = some w ∧ w.team = 7) ∧
     ∃ t, s.teams.find 7 = some t ∧ t.contained = true ∧ t.exposed = false ∧ t.relaunches < 3) :=
  ⟨⟨rfl, rfl⟩, ⟨_, rfl, rfl⟩, _, rfl, rfl, rfl, by decide⟩

/-- A machine whose next step executes a word. -/
def placedState (w : Nat) : State := State.reset.withFetchWord 32 w

/-- Whether a fetch finds a bundle of one word and a class: the instruction without hints, or none. -/
def bundleIs (f : Fetched) (i : Option Instr) (cls : Nat) : Bool :=
  match f with
  | .bundle ⟨n, r⟩ k =>
    n == 1 && k == cls && (match r with | .ok (x, h) => i == some x && h == {} | .error j => i.isNone && j == 0)
  | .missing _ => false

theorem witness_steps :
    (∃ i st, (placedState 0x08004081).issue = some i ∧ i.remaining = 0 :: [] ∧ (placedState 0x08004081).walkOf 0 = none ∧
     (placedState 0x08004081).strands.find 0 = some st) ∧
    (let s := placedState 0x08004081
     bundleIs (s.fetch 0 (Strand.fresh 0x400010 true 0)) (some (.addImm 0 1 1 1)) 2 = true) ∧
    (let s := placedState 0x88000000
     bundleIs (s.fetch 0 (Strand.fresh 0x400010 true 0)) none 0x22 = true) ∧
    ((placedState 0x08004081).core (strandCore 0)).fetchWord ((placedState 0x08004081).asidOf 0)
      ((placedState 0x08004081).versionOf 0) ((placedState 0x08004081).levelOf 0) (Strand.fresh 0x400010 true 0).pc.toNat = some 0x08004081 ∧
    isPrefix 0x08004081 = false ∧ decodeWord 0x08004081 = .ok (.addImm 0 1 1 1) ∧
    encode (.addImm 0 1 1 1) = some 0x08004081 ∧ (0x08004081 : Nat) < 2 ^ 32 ∧
    (placedState 0x08004081).turns = [] ∧ Memory.wf (placedState 0x08004081).mem = true ∧ goesOn (step (placedState 0x08004081)) = true := by
  refine ⟨⟨_, _, rfl, rfl, rfl, rfl⟩, ?_, ?_, ?_, rfl, ?_, ?_, ?_, rfl, ?_, ?_⟩ <;> decide +kernel

/-- A lane of an issue in progress that waits for a walk: one that goes on, one whose ASID's entry a copy owns, one that waits at a
locked descriptor. -/
def walkingState (w : Walk) (owned : Bool) : State :=
  let s := walkState false
  { s with
    walks := [w], issue := some { endedIssue [] with remaining := [0] }
    banks := if owned then [(0, { Bank.reset with copies := [{ aCopy true with owned := [(0x100, 256)] }] })] else s.banks }

theorem witness_walking :
    (∀ owned, let s := walkingState aWalk owned
     s.issue.map (·.remaining) = some [0] ∧ s.turns = [] ∧ s.walkOf 0 = some aWalk ∧ aWalk.locked = none ∧
     s.hasSlot aWalk = true ∧ decide ((s.walkNow aWalk).1 = .held) = owned) ∧
    (let w : Walk := { aWalk with locked := some 0x200 }
     (walkingState w false).walkOf 0 = some w ∧ w.locked ≠ none) := by
  refine ⟨fun owned => ?_, rfl, by decide⟩
  cases owned <;> exact ⟨rfl, rfl, rfl, rfl, rfl, by decide +kernel⟩

/-- A word of a SYS page: a level-0 strand does not find it. -/
theorem witness_sys_line :
    (let l : CodeLine := { asid := 3, version := 1, line := 0x4000, bytes := List.replicate 256 0, sys := true }
     let c : Core := { Core.reset with icache := [l] }
     (∀ l ∈ c.icache, l.line = 0x400010 / 256 → l.sys = true) ∧ (c.fetchWord 3 1 1 0x400010).isSome = true) :=
  ⟨fun l h _ => by rw [List.mem_singleton.mp h], by decide +kernel⟩

/-- Events that come between the lanes of an issue, or behind it; machines without an issue, by what their schedule has next. -/
theorem witness_turns :
    (∀ e ∈ [Instr.storePerform 4, .dieResume 1],
      let s : State := { lane [] with issue := some { endedIssue [] with remaining := [0] }, turns := [.inner e], stores := [] }
      s.issue.isSome = true ∧ s.turns = .inner e :: [] ∧ goesOn (exec e { s with turns := [] }) = true) ∧
    innerEvent (.storePerform 4) = true ∧ innerEvent (.dieResume 1) = false ∧
    (∀ t ∈ [Turn.event (.dieResume 1), .inner (.dieResume 1), .upset (.waArrive 7 1), .issue 0],
      let s : State := { lane [] with turns := [t] }
      s.issue = none ∧ s.turns = t :: []) ∧ (lane []).issue = none ∧ (lane []).turns = [] := by
  refine ⟨fun e h => ?_, rfl, rfl, fun _ _ => ⟨rfl, rfl⟩, rfl, rfl⟩
  simp only [List.mem_cons, List.not_mem_nil, or_false] at h
  rcases h with rfl | rfl <;> exact ⟨rfl, rfl, by decide +kernel⟩

/-! ### Ill-formed terms -/

/-- One ill-formed term for each check that an instruction word decides. -/
theorem test_ill_formed_words :
    [Instr.cmp 10 1 2 3, .cmpi 10 1 2 3, .cmp64 0 1 3 4, .cmp64 0 1 4 3, .rdk 0 3 1, .rdsr 0 3 6, .rdsr 0 4 12, .lea 3 1 2 0,
     .add64 0 3 2 2, .sub64 0 2 2 3, .shl64 0 3 2 2, .mulw 0 3 2 2, .f2f 1 2 5 0, .f2i 1 2 6 0, .i2f 1 2 0 6, .i2i 1 2 6 0,
     .pack2 1 2 0 0 0, .pack2 1 3 0 1 0, .unpack2 2 1 1 0 2, .unpack2 3 1 0 0 1, .nqdec 0 0 3 2 0, .nqdecf 0 0 2 3 0,
     .nqdot 0 0 2 2 3].all (!·.wf) = true := by decide

theorem test_ill_formed_accesses :
    [Instr.ld 1 1 1 7, .st 1 1 1 7, .aadd 0 1 1 1 7, .acas 0 3 1 1 0, .hld 1 1 1 0 1, .hset 1 1 4 0 0, .hrd 1 4 1 0 0,
     .fenceAcq 0, .fenceSc 7, .cwb 1 1 0, .pref 1 1 1, .waitline 1 1 1 7, .nxi 3, .ret 1, .calli 1 3].all (!·.wf) = true := by
  decide

theorem test_ill_formed_groups :
    [Instr.meet 1 0 1, .gelect 1 1 0 2, .fencew 1 0 1 0 0, .fencew 1 5 1 0 0, .fencew 1 1 0 0 0, .gred 1 1 1 12, .cdet 1 1 1 0 1,
     .wastat 3 0 0, .mxwr 0 3, .mxwait 9, .tagwaitAny 1, .tagff 1, .launch 3 1 1, .taskpush 1 3 1, .rgrow 1 1, .rgrow 1 17,
     .rds 1 0x12, .rds 3 0x22, .wrs 3 0x22, .tlbinv 1 1, .ctxsave 1 3 1].all (!·.wf) = true := by decide

/-- Hints that an instruction does not accept, payloads that are reserved, and an immediate that is too long under HX. -/
theorem test_ill_formed_hints :
    (Instr.add 0 1 2 3).takesHX = false ∧ (Instr.add 0 1 2 3).takesHC = false ∧ (Instr.add 0 1 2 3).takesHM (.arith 0 true) = false ∧
    (Instr.f2i 1 2 2 0).takesHM (.arith 1 true) = false ∧ (Instr.i2i 1 2 0 2).takesHM (.arith 1 true) = false ∧
    (Instr.ld 1 1 1 0).takesHM (.order 1) = false ∧ (Modifier.order 5).wf = false ∧
    (Instr.movi 0 1 128).highImmediateZero = false ∧ (Instr.nx 128).highImmediateZero = false := by decide

/-! ### Single steps with the results of worked examples -/

/-- A lane executes a bundle's instruction word with the hint words before it. -/
def runs (hints : List Nat) (word : Nat) (s : State) : Out :=
  match (bundleOf hints word).result with
  | .ok (i, h) => exec i { s with cur := { s.cur with hints := h } }
  | .error _ => .next s

/-- The register gets a value and FSTAT holds the flags. -/
def gives (o : Out) (d : Nat) (x : Word) (flags : Word := 0) : Bool :=
  after o fun t => reg t d == some x && fstat t == some flags

/-- The units of core 0 hold one result for the lane. -/
def queues (o : Out) (d : Nat) (x : Word) (flags : Word := 0) : Bool :=
  after o fun t => (t.core 0).results.map (fun r => (r.dst, r.flags)) == [([(d, x)], flags)]

/-- R81: `SUB v3, v3, #70`. -/
theorem test_sub_hx : gives (runs [0x02000000] 0x0840C1C6 (lane [(3, 100)])) 3 30 = true := by decide +kernel

/-- R82: BFX, BFXB and PRMT. -/
theorem test_bfx : gives (exec (.bfx 0 3 1 2) (lane [(1, 0xF50), (2, 0x804)])) 3 0xFFFFFFF5 = true := by decide +kernel
theorem test_bfxb : gives (exec (.bfxb 0 3 1 2) (lane [(1, 0xF50), (2, 0x804)])) 3 0xF5 = true := by decide +kernel
theorem test_prmt :
    gives (exec (.prmt 0 3 1 2) (lane [(1, 0x11223344), (2, 0x55667788), (3, 0x0123)])) 3 0x44332211 = true ∧
    gives (exec (.prmt 0 3 1 2) (lane [(1, 0x11223344), (2, 0x55667788), (3, 0x7654)])) 3 0x55667788 = true := by
  decide +kernel

/-- R84: the table of quotients and remainders. -/
theorem test_div :
    queues (exec (.div 3 1 2) (lane [(1, 7), (2, 0xFFFFFFFE)])) 3 0xFFFFFFFD = true ∧
    queues (exec (.div 3 1 2) (lane [(1, 0x80000000), (2, 0xFFFFFFFF)])) 3 0x80000000 = true := by decide +kernel
theorem test_rem :
    queues (exec (.rem 3 1 2) (lane [(1, 7), (2, 0xFFFFFFFE)])) 3 1 = true ∧
    queues (exec (.rem 3 1 2) (lane [(1, 0xFFFFFFF9), (2, 2)])) 3 0xFFFFFFFF = true := by decide +kernel
theorem test_divb : queues (exec (.divb 3 1 2) (lane [(1, 0xFFFFFFFF), (2, 2)])) 3 0x7FFFFFFF = true := by decide +kernel
theorem test_remb_zero : queues (exec (.remb 3 1 2) (lane [(1, 9), (2, 0)])) 3 9 = true := by decide +kernel

/-- R90: the words of the fragment. -/
theorem test_addc : gives (runs [] 0x06C20104 (lane [(2, 0xFFFFFFFF), (4, 1)])) 8 1 = true := by decide +kernel
theorem test_add64 :
    after (runs [] 0x24428104 (lane [(2, 0xFFFFFFFF), (3, 1), (4, 1), (5, 0)])) (fun t =>
      reg t 10 == some 0 && reg t 11 == some 2) = true := by decide +kernel
theorem test_cmp64 :
    after (runs [] 0x2540430A (lane [(6, 0), (7, 2), (10, 0), (11, 2)])) (fun t => pred t 1 == some 1) = true := by
  decide +kernel

/-- The example under R22: an ADD one count after an FMUL of latency 4 reads the old value, and four counts after it the
new one. -/
theorem test_window :
    (let s := fun age => withStrand (lane [(3, 1), (4, 10)]) fun st =>
       { st with window := [⟨.v 4, 0x40C00000, false, 4, age, false, none⟩] }
     gives (exec (.add 0 5 4 3) (s 1)) 5 0xB && gives (exec (.add 0 8 4 3) (s 4)) 8 0x40C00001) = true := by decide +kernel

/-- R104: FSCALE to a subnormal tie and out of range. -/
theorem test_fscale_tie : gives (exec (.fscale 0 3 1 2) (lane [(1, 0x3FC00000), (2, 0xFFFFFF6B)])) 3 2 3 = true := by
  decide +kernel
theorem test_fscale_sat :
    gives (exec (.fscale 0 3 1 2) { lane [(1, 0x3F800000), (2, 128)] with
      cur := { strand := 0, bundle := 0x400010, word := 0x400014, hints := { hm := some (.arith 0 true) } } }) 3 0x7F7FFFFF 5
      = true := by decide +kernel

/-- R108: FRND and FFRAC. -/
theorem test_frnd : gives (exec (.frnd 0 3 1) (lane [(1, 0x40200000)])) 3 0x40000000 = true := by decide +kernel
theorem test_ffrac : gives (exec (.ffrac 0 3 1) (lane [(1, 0xC0400000)])) 3 0x80000000 = true := by decide +kernel

/-- R109: FSQRT of 2.25, and FEXP2 of 3. -/
theorem test_fsqrt : queues (exec (.fsqrt 3 1) (lane [(1, 0x40100000)])) 3 0x3FC00000 = true := by decide +kernel
theorem test_fexp2 : queues (exec (.fexp2 3 1) (lane [(1, 0x40400000)])) 3 0x41000000 = true := by decide +kernel
/-- R110: 1/0 sets DZ. -/
theorem test_frcp_zero : queues (exec (.frcp 3 1) (lane [(1, 0x80000000)])) 3 0xFF800000 8 = true := by decide +kernel

/-- R114: HFMA2 under .rn and under .rm. -/
theorem test_hfma2 :
    (let s := lane [(1, 0xC0003E00), (2, 0x38004000), (7, 0x3C003400)]
     gives (runs [] 0x44C1C082 s) 7 0x4280 && gives (runs [0x00800003] 0x44C1C082 s) 7 0x80004280) = true := by decide +kernel

/-- R116: four products of 448 and 1. -/
theorem test_f8dot4 : gives (runs [] 0x49024205 (lane [(4, 0x7E7E7E7E), (5, 0x38383838), (9, 0)])) 9 0x44E00000 = true := by
  decide +kernel

/-- R117: the example block of R37, decoded by lane 0. -/
def nqLane : State :=
  lane [(2, 0x9B), (3, 0x40), (6, 0x3F000000), (8, 0x3F800000), (9, 0x40003C00), (10, 0x3F800000)]
theorem test_nqdec :
    after (runs [] 0x4C010106 nqLane) (fun t => reg t 4 == some 0xBD200000 && reg t 5 == some 0xBC840000) = true := by
  decide +kernel
theorem test_nqdecf : gives (runs [] 0x4C42C106 nqLane) 11 0xA420A900 = true := by decide +kernel
theorem test_nqdot : gives (runs [] 0x4C828108 nqLane) 10 0x3F5B8000 = true := by decide +kernel

/-- R130: an AADD that names an element holding 10 returns it, and adds. -/
theorem test_aadd :
    (let s := withHandles (lane [(2, 0), (4, 7)]) [(1, handle 1 2 7 0 8 0)]
     after (exec (.aadd 1 4 1 2 0) { s with teams := [(7, { team with scratch := [(0, 10)] })] }) fun t =>
       reg t 4 == some 10 && t.teams.all fun p => p.2.scratch == [(0, 17)]) = true := by decide +kernel

/-- R119: the swizzled offsets of the example, BASE0 0x0400, ESIZE 4, STRIDE 32 and SWZ 3. -/
theorem test_swizzle :
    (let h := handle 1 2 7 0 256 0x400 ^^^ (1 <<< 20) ||| (32 <<< 20) ||| (3 <<< 18)
     [1, 2, 3].map fun i => locate h i 0 4096 0) = [.ok (.scratch 0x490), .ok (.scratch 0x520), .ok (.scratch 0x5B0)] := by
  decide +kernel

/-- R272: an injected lane has bit 0 of its results inverted. -/
theorem test_injection :
    (let s := (lane [(1, 5), (2, 3)]).modCore 0 fun c => { c with inject := some (0, 0) }
     gives (exec (.add 0 3 1 2) s) 3 9) = true := by decide +kernel
theorem test_injected_load :
    (let s := cachedLane.modCore 0 fun c => { c with inject := some (0, 0) }
     gives (exec (.ld 4 1 1 0) s) 4 0x1F1E1D1D) = true := by decide +kernel

/-- R173: COREDESC of the worked map, on core 0 whose physical lane 21 is fused off. -/
theorem test_coredesc :
    (let s := (lane []).modCore 0 fun c => { c with lmap := [(21, 0x80), (64, 0x15)] }
     gives (exec (.rdsr 0 4 5) s) 4 0x60557660) = true := by decide +kernel

/-- R351: the worked home dies. -/
theorem test_home_die : homeDie 0x5000 = some 2 ∧ homeDie 0xD000 = some 2 := by decide

/-- R249, R250: BRK in a context without a handler aborts; with one, the trap waits for the handler at once. -/
theorem test_brk_enters :
    (match exec (.brk 7) trapLane with
     | .next t => t.strands.all fun p => p.2.handler.isSome && p.2.pc == 0x400800
     | _ => false) = true := by decide +kernel

end Sys2Proof.Tests
end

section
/-!
PROOFS. What one step does: with an issue in progress, to the lane or the event whose turn it is (R8, R204, R322); and
with none, by the schedule (log 2). The shared functions of a step come first, each with one rule per case.
-/

namespace Sys2Proof.Machine

/-! ### The fetch of a single word (R69, R74, R319) -/

/-- Without hints there is none to reject (R66 to R69). -/
theorem rejectedBy_noHints (w : Nat) : rejectedBy w {} = none := by
  unfold rejectedBy
  cases decodeWord w with
  | ok x => simp [rejectedHint]
  | error x => simp

theorem bundleOf_nil_ok {w : Nat} {x : Instr} (h : decodeWord w = .ok x) :
    bundleOf [] w = ⟨1, if x.wf then .ok (x, {}) else .error 0⟩ := by
  simp only [bundleOf, readHints, rejectedBy_noHints, h]
  cases x.wf <;> rfl

theorem bundleOf_nil_error {w : Nat} {x : DecodeError} (h : decodeWord w = .error x) : bundleOf [] w = ⟨1, .error 0⟩ := by
  simp only [bundleOf, readHints, rejectedBy_noHints, h, List.length_nil]

theorem Core.fetchFrom_of_not_isPrefix {c : Core} {asid version level n pc w : Nat} (pre : List Nat) (hn : n ≠ 0)
    (hw : c.fetchWord asid version level pc = some w) (hp : isPrefix w = false) :
    c.fetchFrom asid version level n pc pre = .bundle (bundleOf pre w) (w / 2 ^ 26) := by
  obtain ⟨n, rfl⟩ := Nat.exists_eq_succ_of_ne_zero hn
  simp [Core.fetchFrom, hw, hp]

theorem State.fetch_of_not_isPrefix {s : State} {k w : Nat} {st : Strand}
    (hw : (s.core (strandCore k)).fetchWord (s.asidOf k) (s.versionOf k) (s.levelOf k) st.pc.toNat = some w)
    (hp : isPrefix w = false) : s.fetch k st = .bundle (bundleOf [] w) (w / 2 ^ 26) :=
  Core.fetchFrom_of_not_isPrefix [] (by decide) hw hp

theorem Core.fetchWord_eq_none_of_sys {c : Core} {asid version pc : Nat}
    (h : ∀ l ∈ c.icache, l.line = pc / 256 → l.sys = true) : c.fetchWord asid version 0 pc = none := by
  have hnone : c.icache.find? (fun l => l.asid = asid && l.version = version && l.line = pc / 256 && !(l.sys && 0 = 0)) =
      none := by
    rw [List.find?_eq_none]
    intro l hl hfound
    simp only [Bool.and_eq_true, decide_eq_true_eq] at hfound
    obtain ⟨⟨-, hline⟩, hsys⟩ := hfound
    simp [h l hl hline] at hsys
  unfold Core.fetchWord
  rw [hnone]

/-! ### The lane whose turn it is -/

theorem holds_iff {f : Event} {s : State} : holds f s = true ↔ f s = .next s := by
  unfold holds
  cases f s <;> simp

section
variable {s : State} {i : Issue} {k : Nat} {rest : List Nat} {st : Strand} {b : Bundle} {cls : Nat} {run : Run}

/-- The state with the next lane taken off the issue's list. -/
def State.withRemaining (s : State) (i : Issue) (rest : List Nat) : State :=
  { s with issue := some { i with remaining := rest } }

/-- The state in which that lane's instruction runs, with the cursor at its bundle. -/
def State.atBundle (s : State) (i : Issue) (rest : List Nat) (k : Nat) (st : Strand) (b : Bundle) (h : Hints) : State :=
  { s.withRemaining i rest with cur := cursorOf k st b.length h }

theorem State.stepIssue_of_not_inner (h : ∀ x l, s.turns ≠ .inner x :: l) :
    s.stepIssue run i = s.continueIssue run i := by
  unfold State.stepIssue
  split
  · next hturns => exact absurd hturns (h _ _)
  · rfl

theorem State.runNext_of_ok {x : Instr} {h : Hints} (hst : s.strands.find k = some st)
    (hf : s.fetch k st = .bundle b cls) (hb : b.result = .ok (x, h)) :
    s.runNext run i k rest = if holds (run x) (s.atBundle i rest k st b h)
      then .next (s.atBundle i rest k st b h).passedOver else run x (s.atBundle i rest k st b h) := by
  have hf' : (s.withRemaining i rest).fetch k st = .bundle b cls := hf
  simp only [State.withRemaining] at hf'
  simp only [State.runNext, hst, hf', hb]
  rfl

theorem State.runNext_executes {x : Instr} {h : Hints} (hst : s.strands.find k = some st)
    (hf : s.fetch k st = .bundle b cls) (hb : b.result = .ok (x, h))
    (hgo : run x (s.atBundle i rest k st b h) ≠ .next (s.atBundle i rest k st b h)) :
    s.runNext run i k rest = run x (s.atBundle i rest k st b h) := by
  have hholds : ¬ holds (run x) (s.atBundle i rest k st b h) = true := mt holds_iff.mp hgo
  simp only [State.runNext_of_ok hst hf hb, if_neg hholds]

/-- A lane that would hold leaves the issue unserved (log 15). -/
theorem State.runNext_holds {x : Instr} {h : Hints} (hst : s.strands.find k = some st)
    (hf : s.fetch k st = .bundle b cls) (hb : b.result = .ok (x, h))
    (hstay : run x (s.atBundle i rest k st b h) = .next (s.atBundle i rest k st b h)) :
    s.runNext run i k rest = .next { s.atBundle i rest k st b h with
      issue := some { i with remaining := rest, unserved := i.unserved + 1 } } := by
  rw [State.runNext_of_ok hst hf hb, if_pos (holds_iff.mpr hstay)]
  rfl

/-- A broken bundle raises ILLOP at the word that offends (R69, R74). -/
theorem State.runNext_broken {j : Nat} (hst : s.strands.find k = some st) (hf : s.fetch k st = .bundle b cls)
    (hb : b.result = .error j) :
    s.runNext run i k rest = .next ((s.withRemaining i rest).trap k ((s.withRemaining i rest).gridOf k) ILLOP 0
      ((st.pc + BitVec.ofNat 57 (4 * j)).setWidth 64) (st.pc + BitVec.ofNat 57 (4 * b.length))) := by
  have hf' : (s.withRemaining i rest).fetch k st = .bundle b cls := hf
  simp only [State.withRemaining] at hf' ⊢
  simp only [State.runNext, hst, hf', hb]

theorem State.continueIssue_of_no_walk (hi : i.remaining = k :: rest) (hw : s.walkOf k = none) :
    s.continueIssue run i = s.runNext run i k rest := by
  simp only [State.continueIssue, hi, hw]

/-- The condition under which a lane does not walk: a locked descriptor, no slot of the walker, or a line that cannot be
read yet (R322, R325). -/
theorem State.walk_waits_iff {w : Walk} :
    (w.locked.isSome || !s.hasSlot w || decide ((s.walkNow w).1 = .held)) = true ↔
      ¬ (w.locked = none ∧ s.hasSlot w = true ∧ (s.walkNow w).1 ≠ .held) := by
  cases w.locked <;> cases s.hasSlot w <;> simp

/-- A walk that can go on does so within its issue (log 19). -/
theorem State.continueIssue_walks {w : Walk} (hi : i.remaining = k :: rest) (hw : s.walkOf k = some w)
    (hstays : w.locked = none ∧ s.hasSlot w = true ∧ (s.walkNow w).1 ≠ .held) :
    s.continueIssue run i = .next (s.walked w) := by
  have hgoes := fun hwaits => State.walk_waits_iff.mp hwaits hstays
  simp only [State.continueIssue, hi, hw, if_neg hgoes]

/-- The lane of a walk that cannot go on leaves the issue (log 19). -/
theorem State.continueIssue_leaves {w : Walk} (hi : i.remaining = k :: rest) (hw : s.walkOf k = some w)
    (hleaves : ¬ (w.locked = none ∧ s.hasSlot w = true ∧ (s.walkNow w).1 ≠ .held)) :
    s.continueIssue run i =
      .next { s with issue := some { i with remaining := rest, unserved := i.unserved + 1 } } := by
  simp only [State.continueIssue, hi, hw, if_pos (State.walk_waits_iff.mpr hleaves)]
  rfl

end

/-! ### The schedule's turn -/

section
variable {s : State} {run : Run}

/-- An event that finds issues whole comes behind the issue (R204). -/
theorem State.takeInner_defers {i : Issue} {x : Instr} {rest : List Turn} (hx : innerEvent x = false) :
    s.takeInner run i x rest = .next { s with turns := .event x :: rest } := by
  simp [State.takeInner, hx]

/-- Another agent's access comes between the lanes, and the issue keeps the words it overwrites (R204). -/
theorem State.takeInner_runs {i : Issue} {x : Instr} {rest : List Turn} {t : State} (hx : innerEvent x = true)
    (ht : run x { s with turns := rest } = .next t) :
    s.takeInner run i x rest = .next { t with issue := t.issue.map fun j =>
      { j with before := j.before ++ (s.overwritten t).filter fun o => !(i.before.any (·.at_ = o.at_)) } } := by
  simp only [State.takeInner, hx, ht, Bool.not_true, Bool.false_eq_true, if_false]

theorem State.takeTurn_issue {upset : State → Upset → State} {core : Nat} {rest : List Turn} :
    s.takeTurn run upset (.issue core) rest =
      .next ((State.startIssue run { s with turns := rest } core).getD { s with turns := rest }) := by
  simp only [State.takeTurn]
  cases State.startIssue run { s with turns := rest } core <;> rfl

end

/-! ### The step -/

section
variable {s : State}

theorem step_inIssue {i : Issue} (hs : s.issue = some i) : step s = s.stepIssue exec i := by
  simp only [step, hs]

theorem step_nextLane {i : Issue} (hs : s.issue = some i) (hinner : ∀ x l, s.turns ≠ .inner x :: l) :
    step s = s.continueIssue exec i :=
  (step_inIssue hs).trans (State.stepIssue_of_not_inner hinner)

theorem step_inner {i : Issue} {x : Instr} {rest : List Turn} (hs : s.issue = some i) (ht : s.turns = .inner x :: rest) :
    step s = s.takeInner exec i x rest := by
  simp only [step_inIssue hs, State.stepIssue, ht]

theorem step_turn {t : Turn} {rest : List Turn} (hs : s.issue = none) (ht : s.turns = t :: rest) :
    step s = s.takeTurn exec State.upset t rest := by
  simp only [step, hs, ht]

theorem step_noTurn (hs : s.issue = none) (ht : s.turns = []) : step s = s.byDefault exec dueEvents idleEvents := by
  simp only [step, hs, ht]

end

/-- Settles O57: each clause is the rule of the function that has its turn in a step. -/
theorem stepRunsDecoded : Obligations.StepRunsDecoded := by
  unfold Obligations.StepRunsDecoded
  refine ⟨⟨?lane, ?walk, ?inner, ?word, fun c asid version pc => Core.fetchWord_eq_none_of_sys⟩,
    fun s hs => ⟨?event, ?upset, ?issue, step_noTurn hs⟩⟩
  case lane =>
    intro s i k rest st b cls hs hi hinner hw hst hf t
    have hstep : step s = s.runNext exec i k rest :=
      (step_nextLane hs hinner).trans (State.continueIssue_of_no_walk hi hw)
    constructor
    · intro x h hb here
      exact ⟨fun hgo => hstep.trans (State.runNext_executes hst hf hb hgo),
        fun hstay => hstep.trans (State.runNext_holds hst hf hb hstay)⟩
    · intro j hb
      exact hstep.trans (State.runNext_broken hst hf hb)
  case walk =>
    intro s i k rest w hs hi hinner hw
    have hstep := step_nextLane hs hinner
    exact ⟨fun h => hstep.trans (State.continueIssue_walks hi hw h),
      fun h => hstep.trans (State.continueIssue_leaves hi hw h)⟩
  case inner =>
    intro s i x rest hs ht
    rw [step_inner hs ht]
    exact ⟨State.takeInner_defers, fun t hx ht => ⟨_, State.takeInner_runs hx ht⟩⟩
  case word =>
    intro s k st w hw hp
    rw [State.fetch_of_not_isPrefix hw hp]
    exact ⟨fun x hx => by rw [bundleOf_nil_ok hx], fun x hx => by rw [bundleOf_nil_error hx]⟩
  case event =>
    rintro e rest (ht | ht)
    · exact step_turn hs ht
    · exact step_turn hs ht
  case upset => exact fun x rest ht => step_turn hs ht
  case issue => exact fun core rest ht => (step_turn hs ht).trans State.takeTurn_issue

end Sys2Proof.Machine
end

section
/-!
PROOFS. The result window by destination (R17 to R20): what settling keeps and writes, and what a read finds after a
write. Everything that a read of one destination sees is told by the window's entries for that destination.
-/

namespace Sys2Proof.Machine

open Sys2Proof.Safety

/-! ### The window's entries for one destination -/

/-- The entries of a window for one destination, newest first. -/
def entriesOf (w : List Went) (d : Dst) : List Went := w.filter (·.dst = d)

/-- The entries for one destination that a settle keeps in the window. -/
def keptOf (all : Bool) : List Went → List Went
  | [] => []
  | e :: w =>
    if e.transient then (if all || decide (8 < e.age) then keptOf all w else e :: keptOf all w)
    else if e.visible || (all && e.tag.isNone) then [] else e :: keptOf all w

/-- The entry for one destination that a settle writes to the bank. -/
def committedOf (all : Bool) : List Went → Option Went
  | [] => none
  | e :: w =>
    if e.transient then committedOf all w
    else if e.visible || (all && e.tag.isNone) then some e else committedOf all w

@[simp] theorem entriesOf_nil (d : Dst) : entriesOf [] d = [] := rfl

@[simp] theorem entriesOf_cons_of_eq {e : Went} (w : List Went) {d : Dst} (h : e.dst = d) :
    entriesOf (e :: w) d = e :: entriesOf w d := by
  simp [entriesOf, h]

@[simp] theorem entriesOf_cons_of_ne {e : Went} (w : List Went) {d : Dst} (h : e.dst ≠ d) :
    entriesOf (e :: w) d = entriesOf w d := by
  simp [entriesOf, h]

theorem dst_of_mem_entriesOf {e : Went} {w : List Went} {d : Dst} (h : e ∈ entriesOf w d) : e.dst = d := by
  simpa using (List.mem_filter.mp h).2

/-- What is left of one destination where the settle has met a newer committed entry of it, or not. -/
theorem entriesOf_settleWindow (all : Bool) (d : Dst) (w : List Went) (done newer : List Dst) :
    entriesOf (settleWindow all w done newer).1 d = (if d ∈ done then [] else keptOf all (entriesOf w d)) ∧
    entriesOf (settleWindow all w done newer).2.1 d =
      (if d ∈ done then [] else (committedOf all (entriesOf w d)).toList) := by
  induction w generalizing done newer with
  | nil => simp [settleWindow, keptOf, committedOf]
  | cons e w ih =>
    by_cases hd : e.dst = d
    · subst hd
      by_cases hdone : e.dst ∈ done
      · simp [settleWindow, hdone, ih]
      · by_cases ht : e.transient = true
        · by_cases hage : all = true ∨ 8 < e.age <;>
            simp [settleWindow, hdone, ht, hage, keptOf, committedOf, ih]
        · by_cases hv : e.visible = true ∨ all = true ∧ e.tag = none <;>
            simp [settleWindow, hdone, ht, hv, keptOf, committedOf, ih]
    · have hne : d ≠ e.dst := Ne.symm hd
      by_cases hdone : e.dst ∈ done
      · simp [settleWindow, hdone, ih, hd]
      · by_cases ht : e.transient = true
        · by_cases hage : all = true ∨ 8 < e.age <;> simp [settleWindow, hdone, ht, hage, ih, hd]
        · by_cases hv : e.visible = true ∨ all = true ∧ e.tag = none <;>
            simp [settleWindow, hdone, ht, hv, ih, hd, hne]

/-- What a read finds depends on the entries of its destination alone. -/
theorem seen_entriesOf (w : List Went) (d : Dst) : seen (entriesOf w d) d = seen w d := by
  induction w with
  | nil => rfl
  | cons e w ih =>
    by_cases h : e.dst = d
    · simp only [entriesOf_cons_of_eq w h, seen, ih]
    · rw [entriesOf_cons_of_ne w h, ih, seen, if_neg h]

theorem find?_dst_eq_head? (w : List Went) (d : Dst) : w.find? (fun e => e.dst = d) = (entriesOf w d).head? := by
  rw [entriesOf, List.head?_filter]

/-! ### The bank after the commits -/

/-- A committed entry as its register holds it. -/
def Went.reg (e : Went) : Reg := Reg.of e.val e.poison

theorem Strand.reg_setReg (st : Strand) (m n : Nat) (r : Reg) :
    (st.setReg m r).reg n = if n = m then r else st.reg n := by
  unfold Strand.setReg
  cases hh : st.handler with
  | none =>
    by_cases h : n = m
    · subst h; simp [Strand.reg]
    · simp [Strand.reg, hh, h, Tbl.get_set_other]
  | some f =>
    by_cases hm : m < 8 <;> by_cases h : n = m
    · subst h; simp [Strand.reg, hm]
    · simp [Strand.reg, hh, hm, h, Tbl.get_set_other]
    · subst h; simp [Strand.reg, hm]
    · simp [Strand.reg, hh, hm, h, Tbl.get_set_other]

theorem Strand.preds_setReg (st : Strand) (m : Nat) (r : Reg) : (st.setReg m r).preds = st.preds := by
  unfold Strand.setReg
  cases st.handler with
  | none => rfl
  | some f => by_cases hm : m < 8 <;> simp [hm]

theorem Strand.reg_setPred (st : Strand) (m n : Nat) (x : Bool) : (st.setPred m x).reg n = st.reg n := by
  unfold Strand.setPred
  split <;> rfl

/-- A predicate that can be written has its own bit (R10). -/
theorem Strand.preds_setPred (st : Strand) (m n : Nat) (x : Bool) (h0 : 0 < n) (h8 : n < 8) :
    (st.setPred m x).preds.getLsbD n = if n = m then x else st.preds.getLsbD n := by
  have hbit : (BitVec.ofNat 8 (2 ^ m)).getLsbD n = decide (n = m) := by
    rw [BitVec.getLsbD_ofNat, Nat.testBit_two_pow]
    simp [h8, eq_comm]
  unfold Strand.setPred
  by_cases hm : m = 0
  · simp [hm, Nat.pos_iff_ne_zero.mp h0]
  · simp only [if_neg hm]
    cases x with
    | false =>
      simp only [Bool.false_eq_true, if_false, BitVec.getLsbD_and, BitVec.getLsbD_not, hbit]
      by_cases h : n = m <;> simp [h8, h]
    | true =>
      simp only [if_true, BitVec.getLsbD_or, hbit]
      by_cases h : n = m <;> simp [h]

theorem Strand.reg_commit (st : Strand) (e : Went) (n : Nat) :
    (st.commit e).reg n = if e.dst = .v n then e.reg else st.reg n := by
  unfold Strand.commit
  cases hd : e.dst with
  | v m => simp [Strand.reg_setReg, Went.reg, eq_comm]
  | p m => simp [Strand.reg_setPred]

theorem Strand.preds_commit (st : Strand) (e : Went) (n : Nat) (h0 : 0 < n) (h8 : n < 8) :
    (st.commit e).preds.getLsbD n = if e.dst = .p n then e.val.getLsbD 0 else st.preds.getLsbD n := by
  unfold Strand.commit
  cases hd : e.dst with
  | v m => simp [Strand.preds_setReg]
  | p m => simp [Strand.preds_setPred _ _ _ _ h0 h8, eq_comm]

/-- A register holds what the last of the commits to it wrote. -/
theorem Strand.reg_foldl_commit (l : List Went) (st : Strand) (n : Nat) :
    (l.foldl Strand.commit st).reg n = ((entriesOf l (.v n)).getLast?.map Went.reg).getD (st.reg n) := by
  induction l generalizing st with
  | nil => rfl
  | cons e l ih =>
    rw [List.foldl_cons, ih, Strand.reg_commit]
    by_cases h : e.dst = .v n
    · rw [entriesOf_cons_of_eq l h, if_pos h, List.getLast?_cons]
      cases (entriesOf l (.v n)).getLast? <;> rfl
    · rw [entriesOf_cons_of_ne l h, if_neg h]

theorem Strand.preds_foldl_commit (l : List Went) (st : Strand) (n : Nat) (h0 : 0 < n) (h8 : n < 8) :
    (l.foldl Strand.commit st).preds.getLsbD n =
      ((entriesOf l (.p n)).getLast?.map fun e => e.val.getLsbD 0).getD (st.preds.getLsbD n) := by
  induction l generalizing st with
  | nil => rfl
  | cons e l ih =>
    rw [List.foldl_cons, ih, Strand.preds_commit _ _ _ h0 h8]
    by_cases h : e.dst = .p n
    · rw [entriesOf_cons_of_eq l h, if_pos h, List.getLast?_cons]
      cases (entriesOf l (.p n)).getLast? <;> rfl
    · rw [entriesOf_cons_of_ne l h, if_neg h]

/-- The strand without its count and what results change: the bank, the window and the marks that go with them. -/
def Strand.rest (st : Strand) : Strand :=
  { st with count := 0, regs := [], preds := 0, handler := none, parityErrors := [], window := [], lost := [] }

theorem Strand.rest_commit (st : Strand) (e : Went) : (st.commit e).rest = st.rest := by
  unfold Strand.commit Strand.setReg Strand.setPred
  cases e.dst with
  | v n => cases st.handler <;> by_cases hn : n < 8 <;> simp [Strand.rest, hn]
  | p n => by_cases hn : n = 0 <;> simp [Strand.rest, hn]

theorem Strand.count_commit (st : Strand) (e : Went) : (st.commit e).count = st.count := by
  unfold Strand.commit Strand.setReg Strand.setPred
  cases e.dst with
  | v n => cases st.handler <;> by_cases hn : n < 8 <;> simp [hn]
  | p n => by_cases hn : n = 0 <;> simp [hn]

theorem Strand.rest_foldl_commit (l : List Went) (st : Strand) : (l.foldl Strand.commit st).rest = st.rest := by
  induction l generalizing st with
  | nil => rfl
  | cons e l ih => exact (ih (st.commit e)).trans (st.rest_commit e)

theorem Strand.count_foldl_commit (l : List Went) (st : Strand) : (l.foldl Strand.commit st).count = st.count := by
  induction l generalizing st with
  | nil => rfl
  | cons e l ih => exact (ih (st.commit e)).trans (st.count_commit e)

theorem Strand.handler_commit_eq_none {st : Strand} (h : st.handler = none) (e : Went) : (st.commit e).handler = none := by
  unfold Strand.commit Strand.setReg Strand.setPred
  cases e.dst with
  | v n => simp [h]
  | p n => by_cases hn : n = 0 <;> simp [hn, h]

theorem Strand.handler_foldl_commit_eq_none (l : List Went) {st : Strand} (h : st.handler = none) :
    (l.foldl Strand.commit st).handler = none := by
  induction l generalizing st with
  | nil => exact h
  | cons e l ih => exact ih (Strand.handler_commit_eq_none h e)

/-! ### A count passes -/

/-- An entry that stands some counts farther away (R16). -/
def Went.aged (n : Nat) (e : Went) : Went := { e with age := e.age + n }

/-- The entries of a destination as they stand some counts later, before they settle. -/
def Strand.agedEntries (st : Strand) (k : Nat) (d : Dst) : List Went := (entriesOf st.window d).map (Went.aged k)

theorem entriesOf_map_aged (w : List Went) (k : Nat) (d : Dst) :
    entriesOf (w.map (Went.aged k)) d = (entriesOf w d).map (Went.aged k) := by
  simp only [entriesOf, List.filter_map]
  rfl

theorem Strand.entriesOf_tick (st : Strand) (k : Nat) (d : Dst) :
    entriesOf (st.tick k).window d = keptOf false (st.agedEntries k d) := by
  have h := (entriesOf_settleWindow false d (st.window.map (Went.aged k)) [] []).1
  rw [entriesOf_map_aged, if_neg List.not_mem_nil] at h
  exact h

theorem Strand.reg_tick (st : Strand) (k n : Nat) :
    (st.tick k).reg n = ((committedOf false (st.agedEntries k (.v n))).map Went.reg).getD (st.reg n) := by
  have h := (entriesOf_settleWindow false (.v n) (st.window.map (Went.aged k)) [] []).2
  rw [entriesOf_map_aged, if_neg List.not_mem_nil] at h
  have hfold := Strand.reg_foldl_commit (settleWindow false (st.window.map (Went.aged k)) [] []).2.1
    { st with count := st.count + k, window := st.window.map (Went.aged k) } n
  rw [h] at hfold
  unfold Strand.agedEntries
  cases hc : committedOf false ((entriesOf st.window (.v n)).map (Went.aged k)) <;> rw [hc] at hfold <;> exact hfold

theorem Strand.preds_tick (st : Strand) (k n : Nat) (h0 : 0 < n) (h8 : n < 8) :
    (st.tick k).preds.getLsbD n =
      ((committedOf false (st.agedEntries k (.p n))).map fun e => e.val.getLsbD 0).getD (st.preds.getLsbD n) := by
  have h := (entriesOf_settleWindow false (.p n) (st.window.map (Went.aged k)) [] []).2
  rw [entriesOf_map_aged, if_neg List.not_mem_nil] at h
  have hfold := Strand.preds_foldl_commit (settleWindow false (st.window.map (Went.aged k)) [] []).2.1
    { st with count := st.count + k, window := st.window.map (Went.aged k) } n h0 h8
  rw [h] at hfold
  unfold Strand.agedEntries
  cases hc : committedOf false ((entriesOf st.window (.p n)).map (Went.aged k)) <;> rw [hc] at hfold <;> exact hfold

theorem Strand.handler_tick_eq_none {st : Strand} (h : st.handler = none) (k : Nat) : (st.tick k).handler = none :=
  Strand.handler_foldl_commit_eq_none _ h

theorem Strand.rest_tick (st : Strand) (k : Nat) : (st.tick k).rest = st.rest :=
  Strand.rest_foldl_commit (settleWindow false (st.window.map (Went.aged k)) [] []).2.1
    { st with count := st.count + k, window := st.window.map (Went.aged k) }

theorem Strand.count_tick (st : Strand) (k : Nat) : (st.tick k).count = st.count + k :=
  Strand.count_foldl_commit (settleWindow false (st.window.map (Went.aged k)) [] []).2.1
    { st with count := st.count + k, window := st.window.map (Went.aged k) }

/-! ### A write joins the window -/

theorem Strand.rest_push (st : Strand) (e : Went) : (st.push e).rest = st.rest := by
  unfold Strand.push
  split
  · split <;> rfl
  · rfl
  · rfl

@[simp] theorem Strand.push_window (st : Strand) (e : Went) : (st.push e).window = e :: st.window := by
  unfold Strand.push
  split
  · split <;> rfl
  · rfl
  · rfl

theorem Strand.handler_push_eq_none {st : Strand} (h : st.handler = none) (e : Went) : (st.push e).handler = none := by
  simp [Strand.push, h]

@[simp] theorem Strand.reg_push (st : Strand) (e : Went) (n : Nat) : (st.push e).reg n = st.reg n := by
  unfold Strand.push
  split
  · next f m hh hd =>
    split
    · rfl
    · simp [Strand.reg, hh]
  · next f m hh hd => simp [Strand.reg, hh]
  · rfl

@[simp] theorem Strand.preds_push (st : Strand) (e : Went) : (st.push e).preds = st.preds := by
  unfold Strand.push
  split
  · split <;> rfl
  · rfl
  · rfl

@[simp] theorem Strand.agedEntries_push (st : Strand) (e : Went) (k : Nat) :
    (st.push e).agedEntries k e.dst = e.aged k :: st.agedEntries k e.dst := by
  simp [Strand.agedEntries]

/-! ### What a read finds after a write -/

theorem Strand.frozenPending_eq_false {st : Strand} (h : st.handler = none) (d : Dst) : st.frozenPending d = false := by
  simp [Strand.frozenPending, Strand.frameFor, h]

section
variable {e : Env} {a b : Strand} {n : Nat} {x : Word} {p : Bool}

/-- Without CHKSB a read of a strand outside a handler finds what the entries of its register and the bank give. -/
theorem Env.read_congr (hc : e.checks = false) (ha : a.handler = none) (hb : b.handler = none)
    (hseen : seen (entriesOf a.window (.v n)) (.v n) = seen (entriesOf b.window (.v n)) (.v n)) (hr : a.reg n = b.reg n) :
    Env.read { e with st := a } n = Env.read { e with st := b } n := by
  rw [seen_entriesOf, seen_entriesOf] at hseen
  have hca : Env.checks { e with st := a } = false := hc
  have hcb : Env.checks { e with st := b } = false := hc
  simp [Env.read, hca, hcb, hseen, hr, Strand.frozenPending_eq_false ha, Strand.frozenPending_eq_false hb]

theorem Env.pred_congr (hc : e.checks = false) (ha : a.handler = none) (hb : b.handler = none)
    (hseen : seen (entriesOf a.window (.p n)) (.p n) = seen (entriesOf b.window (.p n)) (.p n))
    (hr : a.preds.getLsbD n = b.preds.getLsbD n) : Env.pred { e with st := a } n = Env.pred { e with st := b } n := by
  rw [seen_entriesOf, seen_entriesOf] at hseen
  have hca : Env.checks { e with st := a } = false := hc
  have hcb : Env.checks { e with st := b } = false := hc
  simp [Env.pred, hca, hcb, hseen, hr, Strand.frozenPending_eq_false ha, Strand.frozenPending_eq_false hb]

theorem Env.read_of_value (hc : e.checks = false) (h : seen (entriesOf e.st.window (.v n)) (.v n) = .value x p) :
    e.read n = .ok (x, p) := by
  rw [seen_entriesOf] at h
  simp [Env.read, hc, h]

theorem Env.read_of_bank (hc : e.checks = false) (hh : e.st.handler = none)
    (h : seen (entriesOf e.st.window (.v n)) (.v n) = .bank) (hp : (e.st.reg n).par = parity (e.st.reg n).val) :
    e.read n = .ok ((e.st.reg n).val, (e.st.reg n).poison) := by
  rw [seen_entriesOf] at h
  simp [Env.read, hc, h, hp, Strand.frozenPending_eq_false hh]

theorem Env.pred_of_bank (hc : e.checks = false) (hh : e.st.handler = none) (h0 : 0 < n)
    (h : seen (entriesOf e.st.window (.p n)) (.p n) = .bank) : e.pred n = .ok (e.st.preds.getLsbD n) := by
  rw [seen_entriesOf] at h
  simp [Env.pred, hc, h, Strand.frozenPending_eq_false hh, Nat.pos_iff_ne_zero.mp h0]

end

/-- A write of the strand itself as it stands when it is made. -/
def Went.new (d : Dst) (x : Word) (p : Bool) (lat : Nat) (t : Bool) : Went :=
  { dst := d, val := x, poison := p, lat := lat, age := 0, transient := t, tag := none }

section
variable {d : Dst} {x : Word} {p t : Bool} {lat k : Nat} {w : List Went}

/-- A lasting write goes to the bank once its latency has passed, and hides what is older (R17). -/
theorem settled_new_visible (h : lat ≤ k) :
    keptOf false ((Went.new d x p lat false).aged k :: w) = [] ∧
    committedOf false ((Went.new d x p lat false).aged k :: w) = some ((Went.new d x p lat false).aged k) := by
  simp [Went.new, Went.aged, keptOf, committedOf, Went.visible, h]

/-- A transient stays in the window for 8 counts (R20), where it is found once its latency has passed. -/
theorem seen_new_transient (h : lat ≤ k) (h8 : k ≤ 8) :
    seen (keptOf false ((Went.new d x p lat true).aged k :: w)) d = .value x p := by
  have h8' : ¬ 8 < k := by omega
  simp [Went.new, Went.aged, keptOf, seen, h, h8, h8']

/-- A write that is not visible yet, or a transient that has passed, hides nothing and writes nothing (R17, R20). -/
theorem settled_new_hidden (h : k < lat ∨ t = true ∧ 8 < k) :
    seen (keptOf false ((Went.new d x p lat t).aged k :: w)) d = seen (keptOf false w) d ∧
    committedOf false ((Went.new d x p lat t).aged k :: w) = committedOf false w := by
  cases t with
  | false =>
    have hlat : ¬ lat ≤ k := by simpa using h
    simp [Went.new, Went.aged, keptOf, committedOf, Went.visible, seen, hlat]
  | true =>
    by_cases h8 : 8 < k
    · simp [Went.new, Went.aged, keptOf, committedOf, h8]
    · have hlat : ¬ lat ≤ k := by omega
      simp [Went.new, Went.aged, keptOf, committedOf, seen, hlat, h8]

end

/-- Where a register is not stale, its newest write is what the window shows (R19). -/
theorem seen_of_not_stale {st : Strand} {n : Nat} {x : Word} (hs : stale st (.v n) = false)
    (hx : newest st (.v n) = some x) :
    (∃ p, seen st.window (.v n) = .value x p) ∨ (seen st.window (.v n) = .bank ∧ (st.reg n).val = x) := by
  rw [← seen_entriesOf]
  unfold stale at hs
  unfold newest at hx
  rw [find?_dst_eq_head?] at hs hx
  cases hw : entriesOf st.window (.v n) with
  | nil =>
    rw [hw] at hx
    exact .inr ⟨rfl, by simpa using hx⟩
  | cons f w =>
    have hdst : f.dst = .v n := dst_of_mem_entriesOf (hw ▸ List.mem_cons_self)
    rw [hw] at hs hx
    obtain ⟨⟨ht, htag⟩, hval⟩ : (f.transient = false ∧ f.tag = none) ∧ f.val = x := by simpa using hx
    have hlat : f.lat ≤ f.age := by simpa [htag] using (Bool.or_eq_false_iff.mp hs).2
    exact .inl ⟨f.poison, by simp [seen, hdst, htag, hlat, ht, hval]⟩

/-! ### The statement -/

/-- k counts after a write of a register (R17, R20). -/
theorem read_after_push (e : Env) (st : Strand) (n lat k : Nat) (x : Word) (p t : Bool) (hh : st.handler = none)
    (hc : e.checks = false) :
    (lat ≤ k → (t = false ∨ k ≤ 8) →
      Env.read { e with st := (st.push (.new (.v n) x p lat t)).tick k } n = .ok (x, p)) ∧
    (k < lat ∨ (t = true ∧ 8 < k) →
      Env.read { e with st := (st.push (.new (.v n) x p lat t)).tick k } n = Env.read { e with st := st.tick k } n) := by
  have hnew : ((st.push (.new (.v n) x p lat t)).tick k).handler = none :=
    Strand.handler_tick_eq_none (Strand.handler_push_eq_none hh _) k
  have hentries := Strand.entriesOf_tick (st.push (.new (.v n) x p lat t)) k (.v n)
  have hreg := Strand.reg_tick (st.push (.new (.v n) x p lat t)) k n
  rw [show (st.push (.new (.v n) x p lat t)).agedEntries k (.v n) =
    (Went.new (.v n) x p lat t).aged k :: st.agedEntries k (.v n) from Strand.agedEntries_push ..] at hentries hreg
  constructor
  · intro hlat ht
    cases t with
    | false =>
      rw [(settled_new_visible hlat).1] at hentries
      rw [(settled_new_visible hlat).2] at hreg
      rw [Env.read_of_bank (e := { e with st := (st.push (.new (.v n) x p lat false)).tick k }) hc hnew
        (by rw [hentries]; rfl) (by rw [hreg]; rfl), hreg]
      rfl
    | true =>
      have h8 : k ≤ 8 := by simpa using ht
      exact Env.read_of_value hc (by rw [hentries, seen_new_transient hlat h8])
  · intro hhid
    refine Env.read_congr hc hnew (Strand.handler_tick_eq_none hh k) ?_ ?_
    · rw [hentries, (settled_new_hidden hhid).1, Strand.entriesOf_tick]
    · rw [hreg, (settled_new_hidden hhid).2, Strand.reg_tick, Strand.reg_push]

/-- A predicate as the lane produces it: inverted where its lane is injected (R272, log 7). -/
theorem getLsbD_produce (e : Env) (x : Bool) : (e.produce (if x then 1 else 0)).getLsbD 0 = (x ^^ e.injected) := by
  unfold Env.produce
  cases e.injected <;> cases x <;> rfl

/-- k counts after a write of a predicate (R17, R272). -/
theorem pred_after_writePred (e : Env) (st : Strand) (n lat k : Nat) (x : Bool) (hh : st.handler = none)
    (hc : e.checks = false) (h0 : 0 < n) (h8 : n < 8) :
    (lat ≤ k → Env.pred { e with st := (e.writePred st n x lat).tick k } n = .ok (x ^^ e.injected)) ∧
    (k < lat → Env.pred { e with st := (e.writePred st n x lat).tick k } n = Env.pred { e with st := st.tick k } n) := by
  have hw : e.writePred st n x lat = st.push (.new (.p n) (e.produce (if x then 1 else 0)) false lat false) := by
    simp [Env.writePred, Nat.pos_iff_ne_zero.mp h0, Went.new]
  rw [hw]
  generalize hy : e.produce (if x then 1 else 0) = y
  have hyx : y.getLsbD 0 = (x ^^ e.injected) := hy ▸ getLsbD_produce e x
  have hnew : ((st.push (.new (.p n) y false lat false)).tick k).handler = none :=
    Strand.handler_tick_eq_none (Strand.handler_push_eq_none hh _) k
  have hentries := Strand.entriesOf_tick (st.push (.new (.p n) y false lat false)) k (.p n)
  have hpred := Strand.preds_tick (st.push (.new (.p n) y false lat false)) k n h0 h8
  rw [show (st.push (.new (.p n) y false lat false)).agedEntries k (.p n) =
    (Went.new (.p n) y false lat false).aged k :: st.agedEntries k (.p n) from Strand.agedEntries_push ..] at hentries hpred
  constructor
  · intro hlat
    rw [(settled_new_visible hlat).1] at hentries
    rw [(settled_new_visible hlat).2] at hpred
    rw [Env.pred_of_bank (e := { e with st := (st.push (.new (.p n) y false lat false)).tick k }) hc hnew h0
      (by rw [hentries]; rfl), hpred, ← hyx]
    rfl
  · intro hhid
    refine Env.pred_congr hc hnew (Strand.handler_tick_eq_none hh k) ?_ ?_
    · rw [hentries, (settled_new_hidden (.inl hhid)).1, Strand.entriesOf_tick]
    · rw [hpred, (settled_new_hidden (.inl hhid)).2, Strand.preds_tick _ _ _ h0 h8, Strand.preds_push]

/-- With CHKSB set (R19). -/
theorem read_checked (e : Env) (n : Nat) (x : Word) (hc : e.checks = true) :
    (stale e.st (.v n) = true → e.read n = .error (.fault STALE 0 0)) ∧
    (stale e.st (.v n) = false → newest e.st (.v n) = some x → e.st.handler = none →
      (e.st.reg n).par = parity (e.st.reg n).val → ∃ p, e.read n = .ok (x, p)) := by
  refine ⟨fun hs => by simp [Env.read, hc, hs], fun hs hx hh hp => ?_⟩
  obtain ⟨p, hseen⟩ | ⟨hseen, hval⟩ := seen_of_not_stale hs hx
  · exact ⟨p, by simp [Env.read, hs, hseen]⟩
  · exact ⟨(e.st.reg n).poison, by simp [Env.read, hs, hseen, Strand.frozenPending_eq_false hh, hp, hval]⟩

/-- Settles O54: a write settles by its latency and its T bit, and a read sees the entries of its destination alone. -/
theorem windowReads : Obligations.WindowReads := by
  unfold Obligations.WindowReads
  exact ⟨fun e st n lat k x p t hh hc => read_after_push e st n lat k x p t hh hc,
    fun e st n lat k x hh hc h0 h8 => pred_after_writePred e st n lat k x hh hc h0 h8, read_checked⟩

end Sys2Proof.Machine
end

section
/-!
PROOFS. The order in which an instruction of the register classes meets the faults of its operands (R11, R13, R19, R250): a
register that is not there, then one that is stale, then a poisoned one.
-/

namespace Sys2Proof.Machine

open Sys2Proof.Safety

/-! ### Operands that are read together -/

/-- The read of a register is STALE. -/
def ReadsStale (e : Env) (n : Nat) : Prop := e.read n = .error (.fault STALE 0 0)

/-- The read of a register gives a value that is poisoned. -/
def ReadsPoisoned (e : Env) (n : Nat) : Prop := ∃ x, e.read n = .ok (x, true)

/-- The read of a register gives a value with a clear poison bit. -/
def ReadsClean (e : Env) (n : Nat) : Prop := ∃ x, e.read n = .ok (x, false)

/-- A part of an instruction consumes some registers: the first cause of R250 among them decides, and without one it has its
values. -/
def Consumes {α : Type} (e : Env) (used : List Nat) (x : Act α) : Prop :=
  (∀ n ∈ used, ReadsStale e n ∨ ∃ y p, e.read n = .ok (y, p)) →
    (x = .error (.fault STALE 0 0) ∧ ∃ n ∈ used, ReadsStale e n) ∨
    (x = .error .poison ∧ (∀ n ∈ used, ¬ ReadsStale e n) ∧ ∃ n ∈ used, ReadsPoisoned e n) ∨
    ((∃ y, x = .ok y) ∧ ∀ n ∈ used, ReadsClean e n)

section
variable {α β : Type} {e : Env} {l m : List Nat} {x : Act α} {y : Act β}

theorem ReadsClean.not_stale {n : Nat} (h : ReadsClean e n) : ¬ ReadsStale e n := by
  obtain ⟨y, hy⟩ := h
  simp [ReadsStale, hy]

theorem ReadsClean.not_poisoned {n : Nat} (h : ReadsClean e n) : ¬ ReadsPoisoned e n := by
  obtain ⟨y, hy⟩ := h
  simp [ReadsPoisoned, hy]

theorem Consumes.congr (h : Consumes e l x) (hl : ∀ n, n ∈ l ↔ n ∈ m) : Consumes e m x := by
  simpa only [Consumes, hl] using h

theorem consumes_use (n : Nat) : Consumes e [n] (e.use n) := by
  intro hread
  obtain hs | ⟨y, p, hy⟩ := hread n (by simp)
  · exact .inl ⟨by rw [Env.use, hs]; rfl, n, by simp, hs⟩
  · cases p with
    | true => exact .inr (.inl ⟨by rw [Env.use, hy]; rfl, by simp [ReadsStale, hy], n, by simp, y, hy⟩)
    | false => exact .inr (.inr ⟨⟨y, by rw [Env.use, hy]; rfl⟩, by simpa using ⟨y, hy⟩⟩)

/-- Of two parts that are decided together, STALE of either comes before the poison of any (R250). -/
theorem Consumes.both (hx : Consumes e l x) (hy : Consumes e m y) : Consumes e (l ++ m) (both x y) := by
  intro hread
  have hl := hx fun n hn => hread n (List.mem_append_left m hn)
  have hm := hy fun n hn => hread n (List.mem_append_right l hn)
  have hstale : ∀ {n}, n ∈ l ∨ n ∈ m → ReadsStale e n → ∃ n ∈ l ++ m, ReadsStale e n :=
    fun hn h => ⟨_, List.mem_append.mpr hn, h⟩
  have hpoisoned : ∀ {n}, n ∈ l ∨ n ∈ m → ReadsPoisoned e n → ∃ n ∈ l ++ m, ReadsPoisoned e n :=
    fun hn h => ⟨_, List.mem_append.mpr hn, h⟩
  obtain ⟨hx, n, hn, hs⟩ | ⟨hx, hnl, n, hn, hp⟩ | ⟨⟨a, hx⟩, hcl⟩ := hl
  · refine .inl ⟨?_, hstale (.inl hn) hs⟩
    obtain ⟨hy, -⟩ | ⟨hy, -⟩ | ⟨⟨b, hy⟩, -⟩ := hm <;> rw [hx, hy] <;> rfl
  · obtain ⟨hy, n', hn', hs'⟩ | ⟨hy, hnm, -⟩ | ⟨⟨b, hy⟩, hcm⟩ := hm
    · exact .inl ⟨by rw [hx, hy]; rfl, hstale (.inr hn') hs'⟩
    · exact .inr (.inl ⟨by rw [hx, hy]; rfl, List.forall_mem_append.mpr ⟨hnl, hnm⟩, hpoisoned (.inl hn) hp⟩)
    · exact .inr (.inl ⟨by rw [hx, hy]; rfl, List.forall_mem_append.mpr ⟨hnl, fun k hk => (hcm k hk).not_stale⟩,
        hpoisoned (.inl hn) hp⟩)
  · obtain ⟨hy, n', hn', hs'⟩ | ⟨hy, hnm, n', hn', hp'⟩ | ⟨⟨b, hy⟩, hcm⟩ := hm
    · exact .inl ⟨by rw [hx, hy]; rfl, hstale (.inr hn') hs'⟩
    · exact .inr (.inl ⟨by rw [hx, hy]; rfl, List.forall_mem_append.mpr ⟨fun k hk => (hcl k hk).not_stale, hnm⟩,
        hpoisoned (.inr hn') hp'⟩)
    · exact .inr (.inr ⟨⟨(a, b), by rw [hx, hy]; rfl⟩, List.forall_mem_append.mpr ⟨hcl, hcm⟩⟩)

theorem consumes_use2 (a b : Nat) : Consumes e [a, b] (e.use2 a b) := (consumes_use a).both (consumes_use b)

/-- A pair is read whole before its poison is consumed (R77, R250). -/
theorem consumes_usePair (n : Nat) : Consumes e [n, n + 1] (e.usePair n) := by
  intro hread
  obtain h0 | ⟨y0, p0, h0⟩ := hread n (by simp)
  · refine .inl ⟨?_, n, by simp, h0⟩
    obtain h1 | ⟨y1, p1, h1⟩ := hread (n + 1) (by simp) <;> rw [Env.usePair, Env.readPair, h0, h1] <;> rfl
  · obtain h1 | ⟨y1, p1, h1⟩ := hread (n + 1) (by simp)
    · exact .inl ⟨by rw [Env.usePair, Env.readPair, h0, h1]; rfl, n + 1, by simp, h1⟩
    · have hstale : ∀ k ∈ [n, n + 1], ¬ ReadsStale e k := by simp [ReadsStale, h0, h1]
      have huse : e.usePair n = if p0 || p1 then .error .poison else .ok (y1 ++ y0) := by
        rw [Env.usePair, Env.readPair, h0, h1]; rfl
      cases p0 with
      | true => exact .inr (.inl ⟨by simpa using huse, hstale, n, by simp, y0, h0⟩)
      | false =>
        cases p1 with
        | true => exact .inr (.inl ⟨by simpa using huse, hstale, n + 1, by simp, y1, h1⟩)
        | false => exact .inr (.inr ⟨⟨_, by simpa using huse⟩, by simpa using ⟨⟨y0, h0⟩, ⟨y1, h1⟩⟩⟩)

end

/-! ### The faults of one instruction -/

/-- What missing, stale and poisoned registers make of an instruction that names some registers and consumes some of them. -/
def FaultsOn (s : State) (e : Env) (named used : List Nat) (out : Out) : Prop :=
  ((∃ n ∈ named, ¬ Has e n) → out = faulted e ILLOP 0) ∧
  ((∀ n ∈ named, Has e n) → (∀ n ∈ used, ReadsStale e n ∨ ∃ x p, e.read n = .ok (x, p)) →
    ((∃ n ∈ used, ReadsStale e n) → out = faulted e STALE 0) ∧
    ((∀ n ∈ used, ∃ x p, e.read n = .ok (x, p)) → (∃ n ∈ used, ReadsPoisoned e n) → out = .next (s.stop e .poison)))

theorem laneStep_error {s : State} {e : Env} {f : Env → Act Strand} {x : Stop} (h : s.env = some e) (hf : f e = .error x) :
    laneStep s f = .next (s.stop e x) := by
  simp [laneStep, runLane, h, hf, bind, Except.bind]

theorem exist_error {e : Env} {l : List Nat} (h : ∃ n ∈ l, ¬ Has e n) : e.exist l = .error (.fault ILLOP 0 0) := by
  have hall : l.all (· < e.wave.alloc) = false := by simpa [Has] using h
  simp [Env.exist, require, hall]

section
variable {s : State} {e : Env} {named used : List Nat} {α β : Type} {out : Out} {act : Act β}

/-- An instruction that first asks for its registers, and then consumes. -/
theorem faultsOn_of_act {x : Act α} {f : α → Act β} (hs : s.env = some e)
    (hout : ∀ stop, act = .error stop → out = .next (s.stop e stop)) (hact : act = e.exist named >>= fun _ => x >>= f)
    (hx : Consumes e used x) : FaultsOn s e named used out := by
  have hfault : ∀ code, act = .error (.fault code 0 0) → out = faulted e code 0 := fun code h => by
    rw [faulted, env_s hs, hout _ h]
  refine ⟨fun hmissing => hfault ILLOP (by rw [hact, exist_error hmissing]; rfl), fun hhas hread => ?_⟩
  have hthen : act = x >>= f := by rw [hact, exist_ok hhas]; rfl
  obtain ⟨hx, hstale⟩ | ⟨hx, hnone, hpoisoned⟩ | ⟨-, hclean⟩ := hx hread
  · refine ⟨fun _ => hfault STALE (by rw [hthen, hx]; rfl), fun hall _ => ?_⟩
    obtain ⟨n, hn, hs⟩ := hstale
    obtain ⟨y, p, hy⟩ := hall n hn
    rw [ReadsStale, hy] at hs
    cases hs
  · refine ⟨fun ⟨n, hn, hs⟩ => absurd hs (hnone n hn), fun _ _ => hout _ (by rw [hthen, hx]; rfl)⟩
  · exact ⟨fun ⟨n, hn, hs⟩ => absurd hs (hclean n hn).not_stale,
      fun _ ⟨n, hn, hp⟩ => absurd hp (hclean n hn).not_poisoned⟩

/-- An instruction that asks for its registers and consumes none of them. -/
theorem faultsOn_nil {f : Unit → Act β} (hs : s.env = some e)
    (hout : ∀ stop, act = .error stop → out = .next (s.stop e stop)) (hact : act = e.exist named >>= f) :
    FaultsOn s e named [] out := by
  refine ⟨fun hmissing => ?_, fun _ _ => ⟨by simp, by simp⟩⟩
  rw [faulted, env_s hs, hout _ (by rw [hact, exist_error hmissing]; rfl)]

end

/-! ### The shared forms -/

theorem Consumes.map {α β : Type} {e : Env} {used : List Nat} {x : Act α} (h : Consumes e used x) (f : α → β) :
    Consumes e used (x.map f) := by
  intro hread
  obtain ⟨hx, hs⟩ | ⟨hx, hp⟩ | ⟨⟨y, hx⟩, hc⟩ := h hread
  · exact .inl ⟨by rw [hx]; rfl, hs⟩
  · exact .inr (.inl ⟨by rw [hx]; rfl, hp⟩)
  · exact .inr (.inr ⟨⟨f y, by rw [hx]; rfl⟩, hc⟩)

/-- The old destination is consumed with the two sources. -/
theorem consumes_use3 {e : Env} (d a b : Nat) : Consumes e [d, a, b] (both (e.use a) (e.use2 b d)) :=
  ((consumes_use a).both (consumes_use2 b d)).congr fun n => by
    simp only [List.mem_append, List.mem_cons, List.not_mem_nil, or_false]
    tauto

section
variable {s : State} {e : Env} {t : BitVec 1} {d a b : BitVec 7}

theorem alu1_faultsOn {f : Word → Word} (h : s.env = some e) :
    FaultsOn s e [d.toNat, a.toNat] [a.toNat] (alu1 s t d a f) :=
  faultsOn_of_act h (fun _ => laneStep_error h) rfl (consumes_use _)

theorem aluI_faultsOn {i : BitVec 7} {f : Word → Word → Word} (h : s.env = some e) :
    FaultsOn s e [d.toNat, a.toNat] [a.toNat] (aluI s t d a i f) :=
  faultsOn_of_act h (fun _ => laneStep_error h) rfl (consumes_use _)

theorem alu2_faultsOn {lat : Nat} {f : Word → Word → Word} (h : s.env = some e) :
    FaultsOn s e [d.toNat, a.toNat, b.toNat] [a.toNat, b.toNat] (alu2 s t d a b lat f) :=
  faultsOn_of_act h (fun _ => laneStep_error h) rfl (consumes_use2 _ _)

theorem alu3_faultsOn {lat : Nat} {f : Word → Word → Word → Word} (h : s.env = some e) :
    FaultsOn s e [d.toNat, a.toNat, b.toNat] [d.toNat, a.toNat, b.toNat] (alu3 s t d a b lat f) :=
  faultsOn_of_act h (fun _ => laneStep_error h) rfl (consumes_use3 _ _ _)

theorem divide_faultsOn {f : Word → Word → Word} (h : s.env = some e) :
    FaultsOn s e [d.toNat, a.toNat, b.toNat] [a.toNat, b.toNat] (divide s d a b f) :=
  faultsOn_of_act h (fun _ => runLane_error h) rfl (consumes_use2 _ _)

theorem float1_faultsOn {f : Nat → Word → Nat × Flags} (h : s.env = some e) :
    FaultsOn s e [d.toNat, a.toNat] [a.toNat] (float1 s t d a f) :=
  faultsOn_of_act h (fun _ => laneStep_error h) rfl (consumes_use _)

theorem float2_faultsOn {f : Nat → Bool → Word → Word → Nat × Flags} (h : s.env = some e) :
    FaultsOn s e [d.toNat, a.toNat, b.toNat] [a.toNat, b.toNat] (float2 s t d a b f) :=
  faultsOn_of_act h (fun _ => laneStep_error h) rfl (consumes_use2 _ _)

theorem float3_faultsOn {f : Nat → Bool → Word → Word → Word → Nat × Flags} (h : s.env = some e) :
    FaultsOn s e [d.toNat, a.toNat, b.toNat] [d.toNat, a.toNat, b.toNat] (float3 s t d a b f) :=
  faultsOn_of_act h (fun _ => laneStep_error h) rfl (consumes_use3 _ _ _)

theorem sfu1_faultsOn {op : Nat} (h : s.env = some e) (hop : op ≠ 3) (hq : (s.unitIssues e.waveKey 1).length < 4) :
    FaultsOn s e [d.toNat, a.toNat] [a.toNat] (sfuOp s op d a b) :=
  faultsOn_of_act (x := (e.use a.toNat).map fun x => (x, (0 : Word))) h (fun _ => runLane_error h)
    (by simp only [queueRoom_ok h hq, Config.sfuQueue, if_neg hop]; rfl) ((consumes_use _).map _)

theorem sfu2_faultsOn (h : s.env = some e) (hq : (s.unitIssues e.waveKey 1).length < 4) :
    FaultsOn s e [d.toNat, a.toNat, b.toNat] [a.toNat, b.toNat] (sfuOp s 3 d a b) :=
  faultsOn_of_act h (fun _ => runLane_error h) (by simp only [queueRoom_ok h hq, Config.sfuQueue]; rfl)
    (consumes_use2 _ _)

theorem cvt_faultsOn {kind : Nat} {y x : BitVec 3} (h : s.env = some e) (hq : (s.unitIssues e.waveKey 2).length < 8) :
    FaultsOn s e [d.toNat, a.toNat] [a.toNat] (cvtOp s kind d a y x) :=
  faultsOn_of_act h (fun _ => runLane_error h) (by simp only [queueRoom_ok h hq, Config.cvtQueue]; rfl) (consumes_use _)

theorem pairAlu_faultsOn {f : Dword → Dword → Dword} (h : s.env = some e) :
    FaultsOn s e [d.toNat, d.toNat + 1, a.toNat, a.toNat + 1, b.toNat, b.toNat + 1]
      [a.toNat, a.toNat + 1, b.toNat, b.toNat + 1] (pairAlu s t d a b f) :=
  faultsOn_of_act h (fun _ => laneStep_error h) rfl ((consumes_usePair _).both (consumes_usePair _))

/-- A form that reads a code word with its scales and a third register (R116). -/
theorem consumes_nq {e : Env} (a b : Nat) : Consumes e [a, a + 1, b] (both (e.use2 a (a + 1)) (e.use b)) :=
  (consumes_use2 _ _).both (consumes_use _)

theorem consumes_nqDot {e : Env} (d a b : Nat) :
    Consumes e [d, a, a + 1, b, b + 1] (both (e.use2 a (a + 1)) (both (e.use2 b (b + 1)) (e.use d))) :=
  ((consumes_use2 _ _).both ((consumes_use2 _ _).both (consumes_use _))).congr fun n => by
    simp only [List.mem_append, List.mem_cons, List.not_mem_nil, or_false]
    tauto

end

/-! ### The statement -/

/-- The flags of the strand have all come (R86, R240). -/
theorem flagsDelivered_ok {s : State} {e : Env} (h : s.env = some e) (hf : FlagsIn s e) : e.flagsDelivered = .ok () := by
  obtain ⟨hq, hwa⟩ := hf
  have hteam : (e.team.any fun t => t.waOps.any (·.strand = e.key)) = false := by
    cases ht : e.team with
    | none => rfl
    | some t => simpa using hwa t ht
  simp [Env.flagsDelivered, env_s h, hq, hteam, require]

/-- Settles O52: every form asks for its registers first and consumes them together. -/
theorem operandFaults : Obligations.OperandFaults := by
  unfold Obligations.OperandFaults
  intro s e i named used hs hops hgo
  show FaultsOn s e named used (exec i s)
  cases i with
  | abs | neg | clz | popc | brev =>
    cases hops
    simp only [exec_abs, exec_neg, exec_clz, exec_popc, exec_brev]
    exact alu1_faultsOn hs
  | addImm | subImm | andImm | orImm | xorImm | andnImm | minImm | maxImm | minbImm | maxbImm | addcImm | subbImm | addsImm
  | subsImm =>
    cases hops
    simp only [exec_addImm, exec_subImm, exec_andImm, exec_orImm, exec_xorImm, exec_andnImm, exec_minImm,
      exec_maxImm, exec_minbImm, exec_maxbImm, exec_addcImm, exec_subbImm, exec_addsImm, exec_subsImm]
    exact aluI_faultsOn hs
  | add | sub | and | or | xor | andn | min | max | minb | maxb | addc | subb | adds | subs | shl | shr | sar | rol | bfx
  | bfxb | mul | mulhi | mulhib =>
    cases hops
    simp only [exec_add, exec_sub, exec_and, exec_or, exec_xor, exec_andn, exec_min, exec_max, exec_minb,
      exec_maxb, exec_addc, exec_subb, exec_adds, exec_subs, exec_shl, exec_shr, exec_sar, exec_rol, exec_bfx,
      exec_bfxb, exec_mul, exec_mulhi, exec_mulhib]
    exact alu2_faultsOn hs
  | bfi | prmt | fshf | mad | madhi | madhib =>
    cases hops
    simp only [exec_bfi, exec_prmt, exec_fshf, exec_mad, exec_madhi, exec_madhib]
    exact alu3_faultsOn hs
  | div | divb | rem | remb =>
    cases hops
    simp only [exec_div, exec_divb, exec_rem, exec_remb]
    exact divide_faultsOn hs
  | fabs | fneg | fclass | frnd | ffrac =>
    cases hops
    simp only [exec_fabs, exec_fneg, exec_fclass, exec_frnd, exec_ffrac]
    exact float1_faultsOn hs
  | fadd | fsub | fmin | fmax | fmul | fscale | fcpys =>
    cases hops
    simp only [exec_fadd, exec_fsub, exec_fmin, exec_fmax, exec_fmul, exec_fscale, exec_fcpys]
    exact float2_faultsOn hs
  | hadd2 | hsub2 | hmul2 | hmin2 | hmax2 =>
    cases hops
    simp only [exec_hadd2, execHadd2, exec_hsub2, execHsub2, exec_hmul2, execHmul2, exec_hmin2, execHmin2, exec_hmax2,
      execHmax2]
    exact float2_faultsOn hs
  | ffma | ffms | fnma | fnms | fdot2 | f8dot4 =>
    cases hops
    simp only [exec_ffma, exec_ffms, exec_fnma, exec_fnms, exec_fdot2, exec_f8dot4]
    exact float3_faultsOn hs
  | hfma2 =>
    cases hops
    simp only [exec_hfma2, execHfma2]
    exact float3_faultsOn hs
  | idot4 =>
    cases hops
    simp only [exec_idot4]
    exact faultsOn_of_act hs (fun _ => laneStep_error hs) rfl (consumes_use3 _ _ _)
  | frcp | frsq | fsqrt | fexp2 | flog2 | fsinp | fcosp | ftanh =>
    cases hops
    simp only [exec_frcp, exec_frsq, exec_fsqrt, exec_fexp2, exec_flog2, exec_fsinp, exec_fcosp, exec_ftanh]
    exact sfu1_faultsOn hs (by decide) hgo
  | fdiv =>
    cases hops
    simp only [exec_fdiv]
    exact sfu2_faultsOn hs hgo
  | f2f | f2i | i2f | i2i =>
    cases hops
    simp only [exec_f2f, exec_f2i, exec_i2f, exec_i2i]
    exact cvt_faultsOn hs hgo
  | pack2 =>
    cases hops
    simp only [exec_pack2]
    exact faultsOn_of_act hs (fun _ => runLane_error hs) (by simp only [queueRoom_ok hs hgo, Config.cvtQueue]; rfl)
      (consumes_use2 _ _)
  | unpack2 =>
    cases hops
    simp only [exec_unpack2]
    exact faultsOn_of_act hs (fun _ => runLane_error hs) (by simp only [queueRoom_ok hs hgo, Config.cvtQueue]; rfl)
      (consumes_use _)
  | cmp | fcmp =>
    cases hops
    simp only [exec_cmp, exec_fcmp]
    exact faultsOn_of_act hs (fun _ => laneStep_error hs) rfl (consumes_use2 _ _)
  | cmpi | pset =>
    cases hops
    simp only [exec_cmpi, exec_pset]
    exact faultsOn_of_act hs (fun _ => laneStep_error hs) rfl (consumes_use _)
  | cmp64 =>
    cases hops
    simp only [exec_cmp64]
    exact faultsOn_of_act hs (fun _ => laneStep_error hs) rfl ((consumes_usePair _).both (consumes_usePair _))
  | add64 | sub64 =>
    cases hops
    simp only [exec_add64, exec_sub64]
    exact pairAlu_faultsOn hs
  | shl64 =>
    cases hops
    simp only [exec_shl64]
    exact faultsOn_of_act hs (fun _ => laneStep_error hs) rfl ((consumes_usePair _).both (consumes_use _))
  | mulw =>
    cases hops
    simp only [exec_mulw]
    exact faultsOn_of_act hs (fun _ => laneStep_error hs) rfl (consumes_use2 _ _)
  | nqdec | nqdecf =>
    cases hops
    simp only [exec_nqdec, exec_nqdecf]
    exact faultsOn_of_act hs (fun _ => laneStep_error hs) rfl (consumes_nq _ _)
  | nqdot =>
    cases hops
    simp only [exec_nqdot]
    exact faultsOn_of_act hs (fun _ => laneStep_error hs) rfl (consumes_nqDot _ _ _)
  | lea =>
    cases hops
    simp only [exec_lea]
    obtain ⟨r, hr⟩ := hgo
    exact faultsOn_of_act hs (fun _ => laneStep_error hs) (by simp only [hr]; rfl) (consumes_use _)
  | movToFstat =>
    cases hops
    simp only [exec_movToFstat]
    exact faultsOn_of_act hs (fun _ => laneStep_error hs) (by simp only [flagsDelivered_ok hs hgo]; rfl) (consumes_use _)
  | mov | sel | movi | rdw | movFromFstat | rdk =>
    cases hops
    simp only [exec_mov, exec_sel, exec_movi, exec_rdw, exec_movFromFstat, exec_rdk]
    exact faultsOn_nil hs (fun _ => laneStep_error hs) rfl
  | rdsr =>
    cases hops
    simp only [exec_rdsr]
    exact faultsOn_nil hs (fun _ => runLane_error hs) rfl
  | _ => cases hops

end Sys2Proof.Machine
end

section
/-!
PROOFS. A fault ring whose line a copy owns (R305, R327): the ring takes no record, whatever space it has.
-/

namespace Sys2Proof.Machine

open Sys2Proof.Safety

/-- A record waits while a copy owns a line of the first 512 bytes of its ring (R305). -/
theorem State.ringPut_eq_none_of_owned {s : State} {reg : Dword} (record : List Byte)
    (h : s.runOwned (ringBase reg) 512 = true) : s.ringPut reg record = none := by
  simp [State.ringPut, h]

/-- The register of a ring of 64 records at 4096 (R327). -/
def ringAt4096 : Dword := 4096

/-- A copy of 256 bytes to the line at 4096, which holds HEAD of that ring; it owns the line until its block has landed (R305). -/
def copyToRing : Copy :=
  { id := 1, op := .linear 0 4096 256, hs := 0, hd := 0, tag := 0, team := 0, strand := 0, pol := 0, landed := [], blocks := 1,
    owned := [(16, 256)], unplaced := [], writes := [], stopped := none, retry := false, windows := [], after := [], crc := 0 }

/-- The machine after reset with that copy in the queue of bank 0. -/
def ownedRing : State := { State.reset with banks := [(0, { Bank.reset with copies := [copyToRing] })] }

theorem ringBase_ringAt4096 : ringBase ringAt4096 = 4096 := by decide

theorem ownedRing_runOwned : ownedRing.runOwned (ringBase ringAt4096) 512 = true := by decide

/-- HEAD and TAIL of the ring are both 0. -/
theorem ownedRing_hasSpace :
    ownedRing.peekNum (ringBase ringAt4096 + 256) 8 - ownedRing.peekNum (ringBase ringAt4096) 8 < ringSize ringAt4096 := by
  decide

/-- Refutes O43: the clause that a ring with space takes the record leaves out R305. In `ownedRing` a copy owns the line of the
ring's HEAD, so the ring takes no record although it has space. -/
theorem not_fetchAndParking : ¬ Obligations.FetchAndParking := by
  unfold Obligations.FetchAndParking
  rintro ⟨-, -, hring, -⟩
  have hbase : ringBase ringAt4096 ≠ 0 := by rw [ringBase_ringAt4096]; decide
  obtain ⟨-, htakes⟩ := hring ownedRing ringAt4096 (List.replicate 64 0) rfl rfl hbase
  obtain ⟨u, hu, -⟩ := htakes ownedRing_hasSpace
  rw [State.ringPut_eq_none_of_owned _ ownedRing_runOwned] at hu
  cases hu

end Sys2Proof.Machine
end

section
/-!
PROOFS. What an instruction of the register classes leaves unchanged (R16 to R18, R86, R100): the strand keeps the newest
value of every destination that it does not write, and the rest of the machine stays as it is but for the result queues and
CLOCK of its core.
-/

namespace Sys2Proof.Machine

open Sys2Proof.Safety

/-! ### The newest value of a destination -/

/-- The newest write of a destination by its entries (R17, R18). -/
def newestOf (st : Strand) (d : Dst) (l : List Went) : Option Word :=
  match l.head?, d with
  | some e, .v _ => if e.transient || e.tag.isSome then none else some e.val
  | some e, .p _ => if e.transient || e.tag.isSome then none else some (if e.val.getLsbD 0 then 1 else 0)
  | none, .v n => some (st.reg n).val
  | none, .p n => some (if st.preds.getLsbD n then 1 else 0)

theorem newest_eq (st : Strand) (d : Dst) : newest st d = newestOf st d (entriesOf st.window d) := by
  unfold newest newestOf
  rw [find?_dst_eq_head?] <;> cases (entriesOf st.window d).head? <;> cases d <;> rfl

/-- A count keeps the newest value: the entry stays the newest of its destination, or goes to the bank before any older one. -/
theorem newest_tick {st : Strand} {d : Dst} {x : Word} (hd : writable d = true) (h : newest st d = some x) (k : Nat) :
    newest (st.tick k) d = some x := by
  rw [newest_eq] at h ⊢
  rw [Strand.entriesOf_tick]
  have haged : st.agedEntries k d = (entriesOf st.window d).map (Went.aged k) := rfl
  cases hw : entriesOf st.window d with
  | nil =>
    rw [hw] at h haged
    cases d with
    | v n =>
      have hreg := st.reg_tick k n
      rw [haged] at hreg ⊢
      simpa [newestOf, keptOf, hreg, committedOf] using h
    | p n =>
      obtain ⟨h0, h8⟩ : 0 < n ∧ n < 8 := by simpa [writable] using hd
      have hpred := st.preds_tick k n h0 h8
      rw [haged] at hpred ⊢
      simpa [newestOf, keptOf, hpred, committedOf] using h
  | cons f w =>
    rw [hw] at h haged
    have hplain : f.transient = false ∧ f.tag = none := by
      cases d <;> simp [newestOf] at h <;> exact h.1
    obtain ⟨ht, htag⟩ := hplain
    by_cases hv : f.lat ≤ f.age + k
    · cases d with
      | v n =>
        have hreg := st.reg_tick k n
        rw [haged] at hreg ⊢
        have hcom : (st.tick k).reg n = f.reg := by
          simpa [committedOf, Went.aged, Went.visible, ht, htag, hv, Went.reg] using hreg
        have hval : f.reg.val = f.val := rfl
        simpa [newestOf, keptOf, Went.aged, Went.visible, ht, htag, hv, hcom, hval] using h
      | p n =>
        obtain ⟨h0, h8⟩ : 0 < n ∧ n < 8 := by simpa [writable] using hd
        have hpred := st.preds_tick k n h0 h8
        rw [haged] at hpred ⊢
        have hcom : (st.tick k).preds.getLsbD n = f.val.getLsbD 0 := by
          simpa [committedOf, Went.aged, Went.visible, ht, htag, hv] using hpred
        simpa [newestOf, keptOf, Went.aged, Went.visible, ht, htag, hv, hcom] using h
    · rw [haged]
      cases d <;> simpa [newestOf, keptOf, Went.aged, Went.visible, ht, htag, hv] using h

theorem newest_push {st : Strand} {e : Went} {d : Dst} (hd : e.dst ≠ d) : newest (st.push e) d = newest st d := by
  rw [newest_eq, newest_eq, Strand.push_window, entriesOf_cons_of_ne _ hd]
  unfold newestOf
  cases (entriesOf st.window d).head? <;> cases d <;> simp

/-! ### What the strand keeps -/

/-- A strand that has made writes to some destinations, and changed FSTAT only where it may: the rest stays. -/
structure Strand.Wrote (ds : List Dst) (flags : Bool) (a b : Strand) : Prop where
  rest : b.rest = { a.rest with fstat := b.fstat }
  count : b.count = a.count
  fstat : flags = false → b.fstat = a.fstat
  newest : ∀ d, d ∉ ds → Safety.newest b d = Safety.newest a d

section
variable {ds es : List Dst} {flags : Bool} {a b c : Strand}

theorem Strand.Wrote.refl (ds : List Dst) (flags : Bool) (a : Strand) : Strand.Wrote ds flags a a :=
  ⟨rfl, rfl, fun _ => rfl, fun _ _ => rfl⟩

theorem Strand.Wrote.trans (h : Strand.Wrote ds flags a b) (h' : Strand.Wrote ds flags b c) : Strand.Wrote ds flags a c where
  rest := by rw [h'.rest, h.rest]
  count := h'.count.trans h.count
  fstat hf := (h'.fstat hf).trans (h.fstat hf)
  newest d hd := (h'.newest d hd).trans (h.newest d hd)

theorem Strand.wrote_push {e : Went} (he : e.dst ∈ ds) (st : Strand) : Strand.Wrote ds flags st (st.push e) := by
  have hfstat : (st.push e).rest.fstat = st.rest.fstat := congrArg Strand.fstat (st.rest_push e)
  change (st.push e).fstat = st.fstat at hfstat
  refine ⟨by rw [hfstat]; exact st.rest_push e, ?_, fun _ => hfstat, fun d hd => newest_push fun h => hd (h ▸ he)⟩
  unfold Strand.push
  split
  · split <;> rfl
  · rfl
  · rfl

theorem Strand.wrote_setFstat (ds : List Dst) (st : Strand) (x : Word) :
    Strand.Wrote ds true st { st with fstat := x } :=
  ⟨rfl, rfl, nofun, fun _ _ => rfl⟩

theorem Strand.wrote_raise (ds : List Dst) (st : Strand) (f : Flags) : Strand.Wrote ds true st (st.raise f) :=
  Strand.wrote_setFstat ds st _

theorem Strand.wrote_await {n : Nat} (hn : .v n ∈ ds) (st : Strand) (id : Nat) : Strand.Wrote ds flags st (st.await n id) :=
  Strand.wrote_push hn st

end

section
variable {ds : List Dst} {flags : Bool} {n : Nat}

theorem Env.wrote_write (e : Env) (hn : .v n ∈ ds) (st : Strand) (x : Word) (p : Bool) (lat : Nat) (t : BitVec 1) :
    Strand.Wrote ds flags st (e.write st n x p lat t) :=
  Strand.wrote_push hn st

theorem Env.wrote_writePair (e : Env) (hn : .v n ∈ ds) (hn' : .v (n + 1) ∈ ds) (st : Strand) (x : Dword) (lat : Nat)
    (t : BitVec 1) : Strand.Wrote ds flags st (e.writePair st n x lat t) :=
  (e.wrote_write hn st _ _ _ _).trans (e.wrote_write hn' _ _ _ _ _)

theorem Env.wrote_writePred (e : Env) (hn : .p n ∈ ds) (st : Strand) (x : Bool) (lat : Nat) :
    Strand.Wrote ds flags st (e.writePred st n x lat) := by
  unfold Env.writePred
  split
  · exact .refl ds flags st
  · exact Strand.wrote_push hn st

theorem Env.wrote_floatOut (e : Env) (hn : .v n ∈ ds) (t : BitVec 1) (r : Nat × Flags) :
    Strand.Wrote ds true e.st (e.floatOut t n r) :=
  (e.wrote_write hn _ _ _ _ _).trans (Strand.wrote_raise ds _ _)

end

/-! ### What the machine keeps -/

/-- A state that differs from another in the result queues and CLOCK of its cores, in the issue's sample of CLOCK, and in the
numbers that the model has used. -/
structure State.Queued (s t : State) : Prop where
  rest : { t with cores := s.cores, issue := s.issue, nextId := s.nextId, freeCount := s.freeCount } = s
  issue : t.issue = s.issue ∨ ∃ x, t.issue = s.issue.map fun i => { i with clock := some x }
  core : ∀ c, { t.core c with results := (s.core c).results, clock := (s.core c).clock } = s.core c

theorem State.Queued.strands {s t : State} (h : s.Queued t) : t.strands = s.strands := by
  have heq := congrArg State.strands h.rest
  exact heq

theorem State.Queued.refl (s : State) : s.Queued s := ⟨rfl, .inl rfl, fun _ => rfl⟩

theorem State.core_modCore (s : State) (k c : Nat) (f : Core → Core) :
    (s.modCore k f).core c = if c = k then f (s.core k) else s.core c := by
  show (s.cores.set k (f (s.core k))).get c Core.reset = _
  by_cases h : c = k
  · subst h; simp
  · rw [Tbl.get_set_other _ _ _ h, if_neg h]; rfl

/-- A change of one core's results and CLOCK is one of every core's. -/
theorem State.core_modCore_like (s : State) (k : Nat) {f : Core → Core}
    (hf : ∀ x : Core, { f x with results := x.results, clock := x.clock } = x) (c : Nat) :
    { (s.modCore k f).core c with results := (s.core c).results, clock := (s.core c).clock } = s.core c := by
  rw [State.core_modCore]
  by_cases h : c = k
  · rw [if_pos h, h]; exact hf _
  · rw [if_neg h]

theorem State.queued_enqueue {s : State} {e : Env} (h : s.env = some e) (st : Strand) (unit : Nat) (dst : List (Nat × Word))
    (flags : Flags) : s.Queued (e.enqueue st unit dst flags).1 := by
  unfold Env.enqueue
  rw [env_s h]
  exact ⟨rfl, .inl rfl, s.fresh.2.core_modCore_like e.coreKey fun _ => rfl⟩

theorem State.queued_clockTick (s : State) (core : Nat) : s.Queued (s.clockTick core).2 := by
  unfold State.clockTick
  cases s.issue.bind (·.clock) with
  | some x => exact .refl s
  | none => exact ⟨rfl, .inr ⟨_, rfl⟩, s.free.2.core_modCore_like core (f := fun c => { c with clock := _ }) fun _ => rfl⟩

/-! ### What one instruction keeps -/

/-- An instruction of the lane stops, or it puts the lane's strand back with its writes, one count later. -/
def Retires (s : State) (e : Env) (ds : List Dst) (flags : Bool) (u : State) : Prop :=
  (∃ x, u = s.stop e x) ∨ ∃ t st, u = e.retire t st ∧ s.Queued t ∧ Strand.Wrote ds flags e.st st

/-- A bind that has a result has one of each part. -/
theorem Act.bind_eq_ok {α β : Type} {x : Act α} {f : α → Act β} {y : β} :
    (x >>= f) = .ok y ↔ ∃ a, x = .ok a ∧ f a = .ok y := by
  cases x with
  | error p => exact ⟨nofun, nofun⟩
  | ok a => exact ⟨fun h => ⟨a, rfl, h⟩, fun ⟨b, hb, h⟩ => by cases hb; exact h⟩

section
variable {s u : State} {e : Env} {ds : List Dst} {flags : Bool}

theorem retires_of_laneStep {f : Env → Act Strand} (hs : s.env = some e) (hu : laneStep s f = .next u)
    (hf : ∀ st, f e = .ok st → Strand.Wrote ds flags e.st st) : Retires s e ds flags u := by
  cases hfe : f e with
  | error x =>
    rw [laneStep_error hs hfe] at hu
    cases hu
    exact .inl ⟨x, rfl⟩
  | ok st =>
    rw [laneStep_ok hs hfe, done, env_s hs] at hu
    cases hu
    exact .inr ⟨s, st, rfl, .refl s, hf st hfe⟩

theorem retires_of_runLane {f : Env → Act State} (hs : s.env = some e) (hu : runLane s f = .next u)
    (hf : ∀ v, f e = .ok v → ∃ t st, v = e.retire t st ∧ s.Queued t ∧ Strand.Wrote ds flags e.st st) :
    Retires s e ds flags u := by
  cases hfe : f e with
  | error x =>
    rw [runLane_error hs hfe] at hu
    cases hu
    exact .inl ⟨x, rfl⟩
  | ok v =>
    rw [runLane_ok hs hfe] at hu
    cases hu
    exact .inr (hf _ hfe)

/-- An instruction that asks for its registers, reads, and writes. -/
theorem retires_of_reads {α : Type} {named : List Nat} {f : Env → Act Strand} {x : Act α} {k : α → Strand}
    (hs : s.env = some e) (hu : laneStep s f = .next u) (hact : f e = e.exist named >>= fun _ => x >>= fun v => pure (k v))
    (hk : ∀ v, Strand.Wrote ds flags e.st (k v)) : Retires s e ds flags u :=
  retires_of_laneStep hs hu fun st hst => by
    rw [hact] at hst
    obtain ⟨-, -, hst⟩ := Act.bind_eq_ok.mp hst
    obtain ⟨v, -, hst⟩ := Act.bind_eq_ok.mp hst
    cases hst
    exact hk v

theorem Strand.wrote_awaits {dst : List (Nat × Word)} (hd : ∀ p ∈ dst, .v p.1 ∈ ds) (id : Nat) (st : Strand) :
    Strand.Wrote ds flags st (dst.foldl (fun st p => st.await p.1 id) st) := by
  induction dst generalizing st with
  | nil => exact .refl ds flags st
  | cons p l ih =>
    exact (Strand.wrote_await (hd p List.mem_cons_self) st id).trans (ih (fun q hq => hd q (List.mem_cons_of_mem p hq)) _)

/-- What an instruction whose result waits in a unit's queue leaves (R84, R111, R112). -/
theorem retires_of_enqueue {f : Env → Act State} (hs : s.env = some e) (hu : runLane s f = .next u)
    (hf : ∀ v, f e = .ok v → ∃ unit dst fl, v = e.retire (e.enqueue e.st unit dst fl).1 (e.enqueue e.st unit dst fl).2 ∧
      ∀ p ∈ dst, .v p.1 ∈ ds) : Retires s e ds flags u :=
  retires_of_runLane hs hu fun v hv => by
    obtain ⟨unit, dst, fl, rfl, hd⟩ := hf v hv
    exact ⟨_, _, rfl, State.queued_enqueue hs _ _ _ _, Strand.wrote_awaits hd _ _⟩

end

/-! ### The shared forms -/

section
variable {s u : State} {e : Env} {t : BitVec 1} {d a b : BitVec 7}

theorem alu1_retires {f : Word → Word} (hs : s.env = some e) (hu : alu1 s t d a f = .next u) :
    Retires s e [.v d.toNat] false u :=
  retires_of_reads hs hu rfl fun _ => e.wrote_write List.mem_cons_self _ _ _ _ _

theorem aluI_retires {i : BitVec 7} {f : Word → Word → Word} (hs : s.env = some e) (hu : aluI s t d a i f = .next u) :
    Retires s e [.v d.toNat] false u :=
  retires_of_reads hs hu rfl fun _ => e.wrote_write List.mem_cons_self _ _ _ _ _

theorem alu2_retires {lat : Nat} {f : Word → Word → Word} (hs : s.env = some e) (hu : alu2 s t d a b lat f = .next u) :
    Retires s e [.v d.toNat] false u :=
  retires_of_reads hs hu rfl fun _ => e.wrote_write List.mem_cons_self _ _ _ _ _

theorem alu3_retires {lat : Nat} {f : Word → Word → Word → Word} (hs : s.env = some e)
    (hu : alu3 s t d a b lat f = .next u) : Retires s e [.v d.toNat] false u :=
  retires_of_reads hs hu rfl fun _ => e.wrote_write List.mem_cons_self _ _ _ _ _

theorem float1_retires {f : Nat → Word → Nat × Flags} (hs : s.env = some e) (hu : float1 s t d a f = .next u) :
    Retires s e [.v d.toNat] true u :=
  retires_of_reads hs hu rfl fun _ => e.wrote_floatOut List.mem_cons_self _ _

theorem float2_retires {f : Nat → Bool → Word → Word → Nat × Flags} (hs : s.env = some e)
    (hu : float2 s t d a b f = .next u) : Retires s e [.v d.toNat] true u :=
  retires_of_reads hs hu rfl fun _ => e.wrote_floatOut List.mem_cons_self _ _

theorem float3_retires {f : Nat → Bool → Word → Word → Word → Nat × Flags} (hs : s.env = some e)
    (hu : float3 s t d a b f = .next u) : Retires s e [.v d.toNat] true u :=
  retires_of_reads hs hu rfl fun _ => e.wrote_floatOut List.mem_cons_self _ _

theorem pairAlu_retires {f : Dword → Dword → Dword} (hs : s.env = some e) (hu : pairAlu s t d a b f = .next u) :
    Retires s e [.v d.toNat, .v (d.toNat + 1)] false u :=
  retires_of_reads hs hu rfl fun _ => e.wrote_writePair (by simp) (by simp) _ _ _ _

theorem divide_retires {f : Word → Word → Word} (hs : s.env = some e) (hu : divide s d a b f = .next u) :
    Retires s e [.v d.toNat] false u :=
  retires_of_enqueue hs hu fun v hv => by
    obtain ⟨_, -, hv⟩ := Act.bind_eq_ok.mp hv
    obtain ⟨_, -, hv⟩ := Act.bind_eq_ok.mp hv
    cases hv
    exact ⟨_, _, _, rfl, by simp⟩

theorem sfuOp_retires {op : Nat} (hs : s.env = some e) (hu : sfuOp s op d a b = .next u) :
    Retires s e [.v d.toNat] false u :=
  retires_of_enqueue hs hu fun v hv => by
    obtain ⟨_, -, hv⟩ := Act.bind_eq_ok.mp hv
    obtain ⟨_, -, hv⟩ := Act.bind_eq_ok.mp hv
    by_cases hop : op = 3
    · rw [if_pos hop] at hv
      obtain ⟨_, -, hv⟩ := Act.bind_eq_ok.mp hv
      cases hv
      exact ⟨_, _, _, rfl, by simp⟩
    · rw [if_neg hop] at hv
      obtain ⟨_, -, hv⟩ := Act.bind_eq_ok.mp hv
      cases hv
      exact ⟨_, _, _, rfl, by simp⟩

theorem cvtOp_retires {kind : Nat} {y x : BitVec 3} (hs : s.env = some e) (hu : cvtOp s kind d a y x = .next u) :
    Retires s e [.v d.toNat] false u :=
  retires_of_enqueue hs hu fun v hv => by
    obtain ⟨_, -, hv⟩ := Act.bind_eq_ok.mp hv
    obtain ⟨_, -, hv⟩ := Act.bind_eq_ok.mp hv
    obtain ⟨_, -, hv⟩ := Act.bind_eq_ok.mp hv
    cases hv
    exact ⟨_, _, _, rfl, by simp⟩

theorem pred2_retires {d a b : BitVec 3} {f : Bool → Bool → Bool} (hs : s.env = some e)
    (hu : pred2 s d a b f = .next u) : Retires s e [.p d.toNat] false u :=
  retires_of_laneStep hs hu fun st hst => by
    obtain ⟨_, -, hst⟩ := Act.bind_eq_ok.mp hst
    cases hst
    exact e.wrote_writePred List.mem_cons_self _ _ _

end

/-! ### Single instructions -/

section
variable {s u : State} {e : Env} {t : BitVec 1} {d a : BitVec 7}

theorem movi_retires {i : BitVec 14} (hs : s.env = some e) (hu : execMovi t d i s = .next u) :
    Retires s e [.v d.toNat] false u :=
  retires_of_laneStep hs hu fun st hst => by
    obtain ⟨_, -, hst⟩ := Act.bind_eq_ok.mp hst
    cases hst
    exact e.wrote_write List.mem_cons_self _ _ _ _ _

theorem movToFstat_retires (hs : s.env = some e) (hu : execMovToFstat a s = .next u) : Retires s e [] true u :=
  retires_of_laneStep hs hu fun st hst => by
    obtain ⟨_, -, hst⟩ := Act.bind_eq_ok.mp hst
    obtain ⟨_, -, hst⟩ := Act.bind_eq_ok.mp hst
    obtain ⟨_, -, hst⟩ := Act.bind_eq_ok.mp hst
    cases hst
    exact Strand.wrote_setFstat _ _ _

theorem lea_retires {h : BitVec 4} (hs : s.env = some e) (hu : execLea t d a h s = .next u) :
    Retires s e [.v d.toNat, .v (d.toNat + 1)] false u :=
  retires_of_laneStep hs hu fun st hst => by
    obtain ⟨_, -, hst⟩ := Act.bind_eq_ok.mp hst
    obtain ⟨_, -, hst⟩ := Act.bind_eq_ok.mp hst
    obtain ⟨_, -, hst⟩ := Act.bind_eq_ok.mp hst
    cases hst
    exact e.wrote_writePair (by simp) (by simp) _ _ _ _

theorem nqdec_retires {sel : BitVec 2} {b : BitVec 7} (hs : s.env = some e) (hu : execNqdec sel t d a b s = .next u) :
    Retires s e [.v d.toNat, .v (d.toNat + 1)] true u :=
  retires_of_reads hs hu rfl fun _ => ((e.wrote_write (by simp) _ _ _ _ _).trans (e.wrote_write (by simp) _ _ _ _ _)).trans
    (Strand.wrote_raise _ _ _)

theorem fcmp_retires {c p : BitVec 3} {b : BitVec 7} (hs : s.env = some e) (hu : execFcmp c p a b s = .next u) :
    Retires s e [.p p.toNat] true u :=
  retires_of_reads hs hu rfl fun _ => (e.wrote_writePred List.mem_cons_self _ _ _).trans (Strand.wrote_raise _ _ _)

theorem pack2_retires {k : BitVec 1} {y x : BitVec 3} (hs : s.env = some e) (hu : execPack2 d a k y x s = .next u) :
    Retires s e [.v d.toNat] false u :=
  retires_of_enqueue hs hu fun v hv => by
    obtain ⟨_, -, hv⟩ := Act.bind_eq_ok.mp hv
    obtain ⟨_, -, hv⟩ := Act.bind_eq_ok.mp hv
    obtain ⟨_, -, hv⟩ := Act.bind_eq_ok.mp hv
    cases hv
    exact ⟨_, _, _, rfl, by simp⟩

theorem unpack2_retires {k : BitVec 1} {y x : BitVec 3} (hs : s.env = some e) (hu : execUnpack2 d a k y x s = .next u) :
    Retires s e [.v d.toNat, .v (d.toNat + 1)] false u :=
  retires_of_enqueue hs hu fun v hv => by
    obtain ⟨_, -, hv⟩ := Act.bind_eq_ok.mp hv
    obtain ⟨_, -, hv⟩ := Act.bind_eq_ok.mp hv
    obtain ⟨_, -, hv⟩ := Act.bind_eq_ok.mp hv
    cases hv
    exact ⟨_, _, _, rfl, by simp⟩

/-- A wave outside redundant mode shares nothing with a partner (R266, R267). -/
theorem Env.offer_of_alone {e : Env} (ha : Alone e) (st : Strand) (seq : Nat) (words : List Word) (poison : List Bool) :
    e.offer st seq words poison = st := by
  have hp : e.wave.partner = none := ha
  simp [Env.offer, Env.leading, hp]

theorem Env.wrote_writeWords (e : Env) (t : BitVec 1) {ds : List Dst} {flags : Bool} (l : List Word) {n : Nat}
    (hn : ∀ k < l.length, .v (n + k) ∈ ds) (st : Strand) : Strand.Wrote ds flags st (e.writeWords st t n l) := by
  induction l generalizing n st with
  | nil => exact .refl ds flags st
  | cons x l ih =>
    have htail : ∀ k < l.length, .v (n + 1 + k) ∈ ds := fun k hk => by
      rw [Nat.add_right_comm, Nat.add_assoc]
      exact hn (k + 1) (Nat.succ_lt_succ hk)
    exact (e.wrote_write (hn 0 (Nat.zero_lt_succ _)) st x false 1 t).trans (ih htail _)

/-- A value that is there whether or not it waits for room. -/
theorem Act.eq_of_room {α : Type} {c : Prop} [Decidable c] {g : Act Unit} {x v : α}
    (h : (if c then g >>= fun _ => pure x else pure x) = .ok v) : x = v := by
  split at h
  · obtain ⟨-, -, h⟩ := Act.bind_eq_ok.mp h
    exact Except.ok.inj h
  · exact Except.ok.inj h

/-- RDSR of one register, or of CLOCK, which the issue samples (R87). -/
theorem rdsr_retires {n : BitVec 14} (hs : s.env = some e) (ha : Alone e) (hu : execRdsr t d n s = .next u) :
    Retires s e (if specialWide n.toNat then [.v d.toNat, .v (d.toNat + 1)] else [.v d.toNat]) false u := by
  have htrailing : e.trailing = false := by
    have hp : e.wave.partner = none := ha
    simp [Env.trailing, hp]
  refine retires_of_runLane hs hu fun v hv => ?_
  simp only [htrailing, Bool.and_false, Bool.false_eq_true, if_false, Env.offer_of_alone ha, ite_self] at hv
  obtain ⟨-, -, hv⟩ := Act.bind_eq_ok.mp hv
  refine ⟨_, _, (Act.eq_of_room hv).symm, ?_, ?_⟩
  · by_cases hw : specialWide n.toNat = true
    · rw [if_pos hw, env_s hs]
      exact s.queued_clockTick _
    · rw [if_neg hw, env_s hs]
      exact .refl s
  · by_cases hw : specialWide n.toNat = true
    · simp only [if_pos hw]
      refine e.wrote_writeWords t _ (fun k hk => ?_) _
      have hk2 : k = 0 ∨ k = 1 := by simp at hk; omega
      obtain rfl | rfl := hk2 <;> simp
    · simp only [if_neg hw]
      refine e.wrote_writeWords t _ (fun k hk => ?_) _
      obtain rfl : k = 0 := by simpa using hk
      simp

end

/-! ### The statement -/

/-- Every instruction of these classes stops, or retires with its writes. -/
theorem retires_of_computes {s u : State} {e : Env} {i : Instr} {ds : List Dst} (hs : s.env = some e) (ha : Alone e)
    (hc : computes i = some ds) (hu : exec i s = .next u) : Retires s e ds (flagging i) u := by
  cases i with
  | abs | neg | clz | popc | brev =>
    cases hc
    simp only [exec_abs, exec_neg, exec_clz, exec_popc, exec_brev] at hu
    exact alu1_retires hs hu
  | addImm | subImm | andImm | orImm | xorImm | andnImm | minImm | maxImm | minbImm | maxbImm | addcImm | subbImm | addsImm
  | subsImm =>
    cases hc
    simp only [exec_addImm, exec_subImm, exec_andImm, exec_orImm, exec_xorImm, exec_andnImm, exec_minImm,
      exec_maxImm, exec_minbImm, exec_maxbImm, exec_addcImm, exec_subbImm, exec_addsImm, exec_subsImm] at hu
    exact aluI_retires hs hu
  | add | sub | and | or | xor | andn | min | max | minb | maxb | addc | subb | adds | subs | shl | shr | sar | rol | bfx
  | bfxb | mul | mulhi | mulhib =>
    cases hc
    simp only [exec_add, exec_sub, exec_and, exec_or, exec_xor, exec_andn, exec_min, exec_max, exec_minb,
      exec_maxb, exec_addc, exec_subb, exec_adds, exec_subs, exec_shl, exec_shr, exec_sar, exec_rol, exec_bfx,
      exec_bfxb, exec_mul, exec_mulhi, exec_mulhib] at hu
    exact alu2_retires hs hu
  | bfi | prmt | fshf | mad | madhi | madhib =>
    cases hc
    simp only [exec_bfi, exec_prmt, exec_fshf, exec_mad, exec_madhi, exec_madhib] at hu
    exact alu3_retires hs hu
  | div | divb | rem | remb =>
    cases hc
    simp only [exec_div, exec_divb, exec_rem, exec_remb] at hu
    exact divide_retires hs hu
  | fabs | fneg | fclass | frnd | ffrac =>
    cases hc
    simp only [exec_fabs, exec_fneg, exec_fclass, exec_frnd, exec_ffrac] at hu
    exact float1_retires hs hu
  | fadd | fsub | fmin | fmax | fmul | fscale | fcpys =>
    cases hc
    simp only [exec_fadd, exec_fsub, exec_fmin, exec_fmax, exec_fmul, exec_fscale, exec_fcpys] at hu
    exact float2_retires hs hu
  | hadd2 | hsub2 | hmul2 | hmin2 | hmax2 =>
    cases hc
    simp only [exec_hadd2, execHadd2, exec_hsub2, execHsub2, exec_hmul2, execHmul2, exec_hmin2, execHmin2, exec_hmax2,
      execHmax2] at hu
    exact float2_retires hs hu
  | ffma | ffms | fnma | fnms | fdot2 | f8dot4 =>
    cases hc
    simp only [exec_ffma, exec_ffms, exec_fnma, exec_fnms, exec_fdot2, exec_f8dot4] at hu
    exact float3_retires hs hu
  | hfma2 =>
    cases hc
    simp only [exec_hfma2, execHfma2] at hu
    exact float3_retires hs hu
  | idot4 =>
    cases hc
    rw [exec_idot4] at hu
    exact retires_of_reads hs hu rfl fun _ => e.wrote_write List.mem_cons_self _ _ _ _ _
  | frcp | frsq | fsqrt | fdiv | fexp2 | flog2 | fsinp | fcosp | ftanh =>
    cases hc
    simp only [exec_frcp, exec_frsq, exec_fsqrt, exec_fdiv, exec_fexp2, exec_flog2, exec_fsinp, exec_fcosp,
      exec_ftanh] at hu
    exact sfuOp_retires hs hu
  | f2f | f2i | i2f | i2i =>
    cases hc
    simp only [exec_f2f, exec_f2i, exec_i2f, exec_i2i] at hu
    exact cvtOp_retires hs hu
  | pack2 =>
    cases hc
    rw [exec_pack2] at hu
    exact pack2_retires hs hu
  | unpack2 =>
    cases hc
    rw [exec_unpack2] at hu
    exact unpack2_retires hs hu
  | mov | sel | rdw | movFromFstat =>
    cases hc
    simp only [exec_mov, exec_sel, exec_rdw, exec_movFromFstat] at hu
    exact retires_of_reads hs hu rfl fun _ => e.wrote_write List.mem_cons_self _ _ _ _ _
  | movi =>
    cases hc
    rw [exec_movi] at hu
    exact movi_retires hs hu
  | rdk =>
    cases hc
    rw [exec_rdk] at hu
    exact retires_of_reads hs hu rfl fun _ => e.wrote_writePair (by simp) (by simp) _ _ _ _
  | rdsr =>
    cases hc
    rw [exec_rdsr] at hu
    exact rdsr_retires hs ha hu
  | movToFstat =>
    cases hc
    rw [exec_movToFstat] at hu
    exact movToFstat_retires hs hu
  | lea =>
    cases hc
    rw [exec_lea] at hu
    exact lea_retires hs hu
  | add64 | sub64 =>
    cases hc
    simp only [exec_add64, exec_sub64] at hu
    exact pairAlu_retires hs hu
  | shl64 | mulw =>
    cases hc
    simp only [exec_shl64, exec_mulw] at hu
    exact retires_of_reads hs hu rfl fun _ => e.wrote_writePair (by simp) (by simp) _ _ _ _
  | nqdec =>
    cases hc
    rw [exec_nqdec] at hu
    exact nqdec_retires hs hu
  | nqdecf | nqdot =>
    cases hc
    simp only [exec_nqdecf, exec_nqdot] at hu
    exact retires_of_reads hs hu rfl fun _ => e.wrote_floatOut List.mem_cons_self _ _
  | cmp | cmpi | cmp64 | pset =>
    cases hc
    simp only [exec_cmp, exec_cmpi, exec_cmp64, exec_pset] at hu
    exact retires_of_reads hs hu rfl fun _ => e.wrote_writePred List.mem_cons_self _ _ _
  | fcmp =>
    cases hc
    rw [exec_fcmp] at hu
    exact fcmp_retires hs hu
  | pand | por | pxor | pnot | pmov =>
    cases hc
    simp only [exec_pand, exec_por, exec_pxor, exec_pnot, exec_pmov] at hu
    exact pred2_retires hs hu
  | _ => cases hc

theorem env_life {s : State} {e : Env} (h : s.env = some e) : e.st.life = .ready := by
  simp only [State.env] at h
  split at h
  · cases h
  · split at h
    · cases h
    · split at h
      · cases h
      · cases h; rfl

/-- Settles O51: the instruction retires its strand, and a count keeps the newest value of what it did not write. -/
theorem registerFrame : Obligations.RegisterFrame := by
  unfold Obligations.RegisterFrame
  intro s u e i ds hs ha hc hu
  obtain hstop | ⟨v, st, rfl, hq, hw⟩ := retires_of_computes hs ha hc hu
  · exact .inl hstop
  · have hrest : (st.tick 1).rest = { e.st.rest with fstat := st.fstat } := (st.rest_tick 1).trans hw.rest
    have hfield : ∀ {α : Type} (f : Strand → α), f (st.tick 1).rest = f { e.st.rest with fstat := st.fstat } :=
      fun f => congrArg f hrest
    refine .inr ⟨?_, hq.issue, hq.core, fun k hk => ?_, st.tick 1, Tbl.find_set_same _ _ _, ?_, hfield Strand.pc,
      (hfield Strand.life).trans (env_life hs), hfield Strand.regionPc, hfield Strand.faultCode, hfield Strand.faultPc,
      hfield Strand.faultVa, hfield Strand.seq, hfield Strand.entry, hfield Strand.openGroup, hfield Strand.closed,
      fun hf => (hfield Strand.fstat).trans (hw.fstat hf), fun d x hd hwr hx => ?_⟩
    · rw [← hq.strands]
      exact hq.rest
    · rw [← hq.strands]
      exact Tbl.find_set_other _ _ hk
    · rw [Strand.count_tick, hw.count]
    · exact newest_tick hwr ((hw.newest d hd).trans hx) 1

end Sys2Proof.Machine
end

section
/-!
PROOFS. What a performed write changes (R135, R354): memory has exactly its bytes; the device and the park counts of the
places stay.
-/

namespace Sys2Proof.Machine

open Sys2Proof.Safety

/-! ### What a wake leaves alone -/

/-- A wake changes strands and cores, and nothing else. -/
theorem State.wake_rest (s : State) (core : Nat) : { s.wake core with strands := s.strands, cores := s.cores } = s := by
  simp only [State.wake, State.rouse]
  split <;> rfl

/-- Another state with the same device and the same park counts. -/
structure State.Keeps (s t : State) : Prop where
  device : t.device = s.device
  parks : t.parks = s.parks

theorem State.Keeps.refl (s : State) : s.Keeps s := ⟨rfl, rfl⟩

theorem State.Keeps.trans {s t u : State} (h : s.Keeps t) (h' : t.Keeps u) : s.Keeps u :=
  ⟨h'.device.trans h.device, h'.parks.trans h.parks⟩

variable (s : State)

/-- A fold keeps what each of its steps keeps. -/
theorem State.keeps_foldl {α : Type} {f : State → α → State} (hf : ∀ (t : State) x, t.Keeps (f t x)) (l : List α) :
    s.Keeps (l.foldl f s) := by
  induction l generalizing s with
  | nil => exact .refl s
  | cons x l ih => exact (hf s x).trans (ih _)

@[simp] theorem State.wake_mem (core : Nat) : (s.wake core).mem = s.mem := by
  have h := congrArg State.mem (s.wake_rest core); exact h
@[simp] theorem State.wake_device (core : Nat) : (s.wake core).device = s.device := by
  have h := congrArg State.device (s.wake_rest core); exact h
@[simp] theorem State.wake_parks (core : Nat) : (s.wake core).parks = s.parks := by
  have h := congrArg State.parks (s.wake_rest core); exact h
@[simp] theorem State.wake_clusters (core : Nat) : (s.wake core).clusters = s.clusters := by
  have h := congrArg State.clusters (s.wake_rest core); exact h
@[simp] theorem State.wake_dies (core : Nat) : (s.wake core).dies = s.dies := by
  have h := congrArg State.dies (s.wake_rest core); exact h

theorem State.keeps_wake (core : Nat) : s.Keeps (s.wake core) := ⟨by simp, by simp⟩

/-- A fold keeps the memory that each of its steps keeps. -/
theorem State.mem_foldl {α : Type} {f : State → α → State} (hf : ∀ (t : State) x, (f t x).mem = t.mem) (l : List α) :
    (l.foldl f s).mem = s.mem := by
  induction l generalizing s with
  | nil => rfl
  | cons x l ih => exact (ih _).trans (hf s x)

@[simp] theorem State.wakeLine_mem (pa : Nat) : (s.wakeLine pa).mem = s.mem :=
  State.mem_foldl _ (fun s k => s.wake_mem k) _

theorem State.keeps_wakeLine (pa : Nat) : s.Keeps (s.wakeLine pa) := by
  have hwake : ∀ (l : List Nat) (t : State), t.Keeps (l.foldl State.wake t) := fun l t => t.keeps_foldl State.keeps_wake l
  exact ⟨(hwake _ _).device, (hwake _ _).parks⟩

/-! ### Writes at their ordering point -/

@[simp] theorem State.writeMasked_mem (cells : List Host.Cell) : (s.writeMasked cells).mem = (s.pokeAll cells).mem :=
  State.mem_foldl _ (fun s k => by split <;> rfl) _

theorem State.keeps_writeMasked (cells : List Host.Cell) : s.Keeps (s.writeMasked cells) :=
  (⟨rfl, rfl⟩ : s.Keeps (s.pokeAll cells)).trans
    (State.keeps_foldl _ (fun s k => by split <;> exact ⟨rfl, rfl⟩) _)

/-- A performed write puts its bytes in memory. -/
@[simp] theorem State.performNow_mem (id : Nat) (cells : List Host.Cell) :
    (s.performNow id cells).mem = (s.pokeAll cells).mem := by
  unfold State.performNow
  split
  · rfl
  · split
    · simp [State.performAt, State.stampWrite, State.pokeAll]
    · simp

theorem State.keeps_performNow (id : Nat) (cells : List Host.Cell) : s.Keeps (s.performNow id cells) := by
  unfold State.performNow
  split
  · exact .refl s
  · next pa b cells =>
    have hwrite : ∀ t : State, t.Keeps ((t.writeMasked ((pa, b) :: cells)).wakeLine pa) :=
      fun t => (t.keeps_writeMasked _).trans (State.keeps_wakeLine _ pa)
    split
    · next h _ =>
      have := hwrite (s.stampWrite h).2
      exact ⟨this.device, this.parks⟩
    · exact hwrite s

/-! ### Runs of lines -/

theorem flatten_splitBy (f : Nat → Nat) (l : List Host.Cell) : (splitBy f l).flatten = l := by
  induction l with
  | nil => rfl
  | cons c l ih =>
    simp only [splitBy]
    split
    · next d r rest h =>
      rw [h] at ih
      split
      · simpa using ih
      · simpa using ih
    · next h => simpa using ih

theorem Memory.writeAll_append (m l l' : List Host.Cell) :
    Memory.writeAll m (l ++ l') = Memory.writeAll (Memory.writeAll m l) l' := by
  induction l generalizing m with
  | nil => rfl
  | cons c l ih => exact ih _

/-- The bytes of cells, at the keys of their addresses. -/
def keyed (l : List Host.Cell) : List Host.Cell := l.map fun c => (memKey c.1, c.2)

theorem keyed_place_fst (pa : Nat) (bytes : List Byte) :
    (keyed (Machine.place pa bytes)).map (·.1) = (span pa bytes.length).map memKey := by
  rw [← place_map_fst, keyed, List.map_map, List.map_map]
  rfl

/-- Runs performed one after the other write all their bytes. -/
theorem State.mem_foldl_performNow (id : Nat) (ls : List (List Host.Cell)) :
    (ls.foldl (fun s l => s.performNow id l) s).mem = Memory.writeAll s.mem (keyed ls.flatten) := by
  induction ls generalizing s with
  | nil => rfl
  | cons l ls ih =>
    rw [List.foldl_cons, ih, State.performNow_mem, State.pokeAll_mem, ← keyed, List.flatten_cons, keyed, keyed, keyed, List.map_append,
      Memory.writeAll_append]

/-- Stores bytes at an address, a line at a time (R354). -/
def State.storeBytes (s : State) (id pa : Nat) (bytes : List Byte) : State :=
  (splitLines (Machine.place pa bytes)).foldl (fun s l => s.performNow id l) s

theorem State.storeBytes_mem (id pa : Nat) (bytes : List Byte) :
    (s.storeBytes id pa bytes).mem = Memory.writeAll s.mem (keyed (Machine.place pa bytes)) := by
  rw [State.storeBytes, State.mem_foldl_performNow, splitLines, flatten_splitBy]

theorem State.keeps_storeBytes (id pa : Nat) (bytes : List Byte) : s.Keeps (s.storeBytes id pa bytes) :=
  s.keeps_foldl (fun s l => s.keeps_performNow id l) _

variable {s}

/-- A place that none of the stores names keeps its byte. -/
theorem State.read_foldl_storeBytes (id : Nat) (l : List (Nat × List Byte)) {n : Nat} (hs : MemoryOk s)
    (hn : ∀ p ∈ l, n ∉ (span p.1 p.2.length).map memKey) :
    Memory.read (l.foldl (fun s p => s.storeBytes id p.1 p.2) s).mem n = Memory.read s.mem n := by
  induction l generalizing s with
  | nil => rfl
  | cons p l ih =>
    have hp : Memory.read (s.storeBytes id p.1 p.2).mem n = Memory.read s.mem n := by
      rw [State.storeBytes_mem]
      exact Memory.read_writeAll_other hs _ _ (by rw [keyed_place_fst]; exact hn p List.mem_cons_self)
    have hok : MemoryOk (s.storeBytes id p.1 p.2) := by
      rw [MemoryOk, State.storeBytes_mem]
      exact Memory.wf_writeAll hs _
    exact (ih hok fun q hq => hn q (List.mem_cons_of_mem _ hq)).trans hp

/-- Bytes that are stored at different places are read back. -/
theorem State.peek_storeBytes (id pa : Nat) (bytes : List Byte) (hs : MemoryOk s)
    (hn : ((span pa bytes.length).map memKey).Nodup) : (s.storeBytes id pa bytes).peek pa bytes.length = bytes := by
  refine List.ext_getElem (by simp [State.peek]) fun k hk hb => ?_
  have hmem : (memKey (pa + k), bytes[k]) ∈ keyed (Machine.place pa bytes) :=
    List.mem_map.mpr ⟨_, mem_place hb, rfl⟩
  have hread := Memory.read_writeAll_same hs _ (by rw [keyed_place_fst]; exact hn) _ hmem
  simpa [State.peek, span, State.storeBytes_mem] using hread

/-! ### Images (R15) -/

/-- The newest version number of a context's code; 0 with none. -/
def newestVersion (l : List CodeVersion) : Nat := l.foldl (fun m v => max m v.number) 0

theorem newestVersion_append (l : List CodeVersion) (v : CodeVersion) :
    newestVersion (l ++ [v]) = max (newestVersion l) v.number := by
  simp [newestVersion]

theorem number_le_newestVersion {l : List CodeVersion} {w : CodeVersion} (h : w ∈ l) : w.number ≤ newestVersion l := by
  induction l using List.reverseRecOn with
  | nil => simp at h
  | append_singleton l v ih =>
    rw [newestVersion_append]
    rcases List.mem_append.mp h with hl | hv
    · exact (ih hl).trans (le_max_left _ _)
    · rw [List.mem_singleton.mp hv]; exact le_max_right _ _

theorem newestVersion_lt {l : List CodeVersion} {b : Nat} (hb : 0 < b) (h : ∀ w ∈ l, w.number < b) : newestVersion l < b := by
  induction l using List.reverseRecOn with
  | nil => exact hb
  | append_singleton l v ih =>
    rw [newestVersion_append]
    exact max_lt (ih fun w hw => h w (by simp [hw])) (h v (by simp))

/-- The code versions that a context has; none where it is not made. -/
def State.versionsOf (s : State) (asid : Nat) : List CodeVersion :=
  ((s.device.contexts.find asid).map fun (c : Context) => c.versions).getD []

/-- The state once the contents of an image are stored. -/
def State.storeImage (s : State) (img : Image) : State :=
  img.contents.foldl (fun t p => t.storeBytes s.fresh.1 p.1 p.2) s.fresh.2

/-- The context with the code of an image as its next version. -/
def State.imageContext (s : State) (img : Image) : Context :=
  { revision := ((s.device.contexts.find img.asid).map fun (c : Context) => c.revision).getD img.mmr
    handlerEntry := .ofNat 57 img.trapEntry
    versions := s.versionsOf img.asid ++
      [{ number := newestVersion (s.versionsOf img.asid) + 1, pages := img.pages, exports := img.exports }] }

theorem State.keeps_storeImage (s : State) (img : Image) : s.Keeps (s.storeImage img) :=
  (⟨rfl, rfl⟩ : s.Keeps s.fresh.2).trans (State.keeps_foldl _ (fun t (p : Nat × List Byte) => t.keeps_storeBytes _ p.1 p.2) _)

/-- The state with an image's code (R15). -/
def State.withImage (s : State) (img : Image) : State :=
  { s.storeImage img with device := { (s.storeImage img).device with
    contexts := (s.storeImage img).device.contexts.set img.asid (s.imageContext img)
    imageDigests := (s.storeImage img).device.imageDigests ++ [Config.sha256 img.file] } }

/-- An image is stored and becomes the next version, until the numbers are used up. -/
theorem State.loadImage_eq (s : State) (img : Image) :
    (s.loadImage img : Option State) = if newestVersion (s.versionsOf img.asid) + 1 < 2 ^ 32 then
      some (s.withImage img) else none := rfl

theorem newestVersion_succ_lt {s : State} {img : Image}
    (h : ∀ o, s.device.contexts.find img.asid = some o → ∀ w ∈ o.versions, w.number < 2 ^ 32 - 1) :
    newestVersion (s.versionsOf img.asid) + 1 < 2 ^ 32 := by
  have hlt : newestVersion (s.versionsOf img.asid) < 2 ^ 32 - 1 := by
    refine newestVersion_lt (by norm_num) fun w hw => ?_
    unfold State.versionsOf at hw
    cases hf : s.device.contexts.find img.asid with
    | none => simp [hf] at hw
    | some o => exact h o hf w (by simpa [hf] using hw)
  omega

theorem imageLoad_adds {s : State} {img : Image} (hs : MemoryOk s) (hasid : img.asid < 8192) (hboot : s.device.boot ≠ .recovery)
    (hv : ∀ o, s.device.contexts.find img.asid = some o → ∀ w ∈ o.versions, w.number < 2 ^ 32 - 1) :
    ∃ u c v, exec (.imageLoad img) s = .next u ∧ u.device.contexts.find img.asid = some c ∧
      (∀ n, (∀ p ∈ img.contents, n ∉ (span p.1 p.2.length).map memKey) → Memory.read u.mem n = Memory.read s.mem n) ∧
      (∀ pa bytes, img.contents = [(pa, bytes)] → ((span pa bytes.length).map memKey).Nodup →
        u.peek pa bytes.length = bytes) ∧
      c.handlerEntry = .ofNat 57 img.trapEntry ∧ v ∈ c.versions ∧ v.pages = img.pages ∧ v.exports = img.exports ∧
      (∀ o, s.device.contexts.find img.asid = some o → c.revision = o.revision ∧ c.versions = o.versions ++ [v] ∧
        ∀ w ∈ o.versions, w.number < v.number) ∧
      (s.device.contexts.find img.asid = none → c.revision = img.mmr ∧ c.versions = [v]) := by
  have hload : exec (.imageLoad img) s = .next (s.withImage img) := by
    rw [exec_imageLoad, execImageLoad]
    refine eventStep_some ?_
    rw [if_pos ⟨hasid, hboot⟩, State.loadImage_eq, if_pos (newestVersion_succ_lt hv)]
  refine ⟨_, s.imageContext img, ⟨newestVersion (s.versionsOf img.asid) + 1, img.pages, img.exports⟩, hload,
    Tbl.find_set_same _ _ _, fun n hn => ?_, fun pa bytes hc hn => ?_, rfl, ?_, rfl, rfl, fun o ho => ?_, fun ho => ?_⟩
  · exact State.read_foldl_storeBytes (s := s.fresh.2) _ _ hs hn
  · have hstore : s.storeImage img = s.fresh.2.storeBytes s.fresh.1 pa bytes := by rw [State.storeImage, hc]; rfl
    have hpeek := State.peek_storeBytes (s := s.fresh.2) s.fresh.1 pa bytes hs hn
    rw [← hstore] at hpeek
    exact hpeek
  · exact List.mem_append_right _ List.mem_cons_self
  · have hvers : s.versionsOf img.asid = o.versions := by simp [State.versionsOf, ho]
    exact ⟨by simp [State.imageContext, ho], by simp [State.imageContext, hvers],
      fun w hw => Nat.lt_succ_of_le (number_le_newestVersion (hvers ▸ hw))⟩
  · have hvers : s.versionsOf img.asid = [] := by simp [State.versionsOf, ho]
    exact ⟨by simp [State.imageContext, ho], by simp [State.imageContext, hvers]⟩

theorem imageLoad_refused {s : State} {img : Image} {o : Context} {w : CodeVersion}
    (ho : s.device.contexts.find img.asid = some o) (hw : w ∈ o.versions) (hn : w.number = 2 ^ 32 - 1) :
    exec (.imageLoad img) s = .next s := by
  have hvers : s.versionsOf img.asid = o.versions := by simp [State.versionsOf, ho]
  have hle := number_le_newestVersion hw
  rw [exec_imageLoad, execImageLoad]
  refine eventStep_none ?_
  split
  · rw [State.loadImage_eq, if_neg (by rw [hvers]; omega)]
  · rfl

end Sys2Proof.Machine
end

section
/-!
PROOFS. Waves that the management path places and moves (R254, R328, R359): the strands that a placed wave has, and what
placing leaves alone.
-/

namespace Sys2Proof

/-! ### Tables -/

variable {α : Type}

theorem Tbl.find_mapVal (t : Tbl α) (f : Nat → α → α) (k : Nat) : (t.mapVal f).find k = (t.find k).map (f k) := by
  induction t with
  | nil => rfl
  | cons p t ih =>
    by_cases h : p.1 = k
    · simp [Tbl.mapVal, Tbl.find, h]
    · simpa [Tbl.mapVal, Tbl.find, h] using ih

theorem Tbl.mem_of_find {t : Tbl α} {k : Nat} {x : α} (h : t.find k = some x) : (k, x) ∈ t := by
  induction t with
  | nil => simp [Tbl.find] at h
  | cons p t ih =>
    obtain ⟨j, y⟩ := p
    by_cases hj : j = k
    · simp [Tbl.find, hj] at h
      simp [hj, h]
    · simp [Tbl.find, hj] at h
      exact List.mem_cons_of_mem _ (ih h)

theorem Tbl.find_eq_none {t : Tbl α} {k : Nat} (h : ∀ p ∈ t, p.1 ≠ k) : t.find k = none := by
  cases hf : t.find k with
  | none => rfl
  | some x => exact absurd rfl (h _ (Tbl.mem_of_find hf))

/-- An entry that is dropped from a table in key order is gone. -/
theorem Tbl.find_drop_same {t : Tbl α} (ht : (t.map (·.1)).Pairwise (· < ·)) (k : Nat) : (t.drop k).find k = none := by
  induction t with
  | nil => rfl
  | cons p t ih =>
    obtain ⟨j, y⟩ := p
    rw [List.map_cons, List.pairwise_cons] at ht
    obtain ⟨hlt, ht⟩ := ht
    by_cases hj : j = k
    · simp only [Tbl.drop, hj, if_true]
      exact Tbl.find_eq_none fun p hp e => absurd (hlt _ (List.mem_map_of_mem hp)) (by omega)
    · simpa [Tbl.drop, Tbl.find, hj] using ih ht

theorem Tbl.find_foldl_set_other (l : List (Nat × α)) (key : Nat → Nat) (t : Tbl α) {n : Nat} (hn : n ∉ l.map fun p => key p.1) :
    Tbl.find (l.foldl (fun (t : Tbl α) p => t.set (key p.1) p.2) t) n = t.find n := by
  induction l generalizing t with
  | nil => rfl
  | cons p l ih =>
    simp only [List.map_cons, List.mem_cons, not_or] at hn
    rw [List.foldl_cons, ih _ hn.2, Tbl.find_set_other _ _ hn.1]

/-- Entries set one after another at different keys are all there. -/
theorem Tbl.find_foldl_set (l : List (Nat × α)) (key : Nat → Nat) (t : Tbl α) (hl : (l.map fun p => key p.1).Nodup)
    {p : Nat × α} (hp : p ∈ l) : Tbl.find (l.foldl (fun (t : Tbl α) p => t.set (key p.1) p.2) t) (key p.1) = some p.2 := by
  induction l generalizing t with
  | nil => simp at hp
  | cons q l ih =>
    rw [List.map_cons, List.nodup_cons] at hl
    obtain ⟨hq, hl⟩ := hl
    rcases List.mem_cons.mp hp with rfl | hp
    · rw [List.foldl_cons, Tbl.find_foldl_set_other _ _ _ hq, Tbl.find_set_same]
    · exact ih _ hl hp

end Sys2Proof

namespace Sys2Proof.Machine

open Sys2Proof.Safety

/-! ### The numbers of strands and waves -/

theorem strandWave_strandNo (w : Nat) {k : Nat} (hk : k < 64) : strandWave (strandNo w k) = w := by
  simp only [strandWave, strandNo]; omega

theorem strandLane_strandNo (w : Nat) {k : Nat} (hk : k < 64) : strandLane (strandNo w k) = k := by
  simp only [strandLane, strandNo]; omega

theorem waveBank_waveNo (b : Nat) {n : Nat} (hn : n < 33) : waveBank (waveNo b n) = b := by
  simp only [waveBank, waveNo]; omega

/-! ### Placing a wave -/

variable (s : State)

/-- The lanes of a wave get their strands; nothing else changes. -/
theorem State.foldl_setStrand_rest (w : Nat) (g : State → Nat → Strand) (l : List Nat) :
    { l.foldl (fun (s : State) k => s.setStrand (strandNo w k) (g s k)) s with strands := s.strands } = s := by
  induction l generalizing s with
  | nil => rfl
  | cons k l ih =>
    have h := congrArg (fun t : State => { t with strands := s.strands }) (ih (s.setStrand (strandNo w k) (g s k)))
    exact h

/-- Lane `k` of a wave has the strand that it was given; the value depends on the park counts alone. -/
theorem State.find_foldl_setStrand (w n : Nat) (g : Tbl (BitVec 10) → Nat → Strand) {k : Nat} (hk : k < n) :
    ((List.range n).foldl (fun (s : State) k => s.setStrand (strandNo w k) (g s.parks k)) s).strands.find (strandNo w k) =
      some (g s.parks k) := by
  induction n with
  | zero => omega
  | succ n ih =>
    have hparks := congrArg State.parks (s.foldl_setStrand_rest w (fun s => g s.parks) (List.range n))
    rw [List.range_succ, List.foldl_append, List.foldl_cons, List.foldl_nil, State.setStrand_strands]
    by_cases hkn : k = n
    · subst hkn
      rw [Tbl.find_set_same]
      exact congrArg (fun p => some (g p k)) hparks
    · have hne : strandNo w k ≠ strandNo w n := by simp only [strandNo]; omega
      rw [Tbl.find_set_other _ _ hne]
      exact ih (by omega)

/-- Placing a wave changes strands, waves and banks. -/
theorem State.putWave_rest (w : Nat) (l : Launch) (waveId team grid : Nat) (trailing : Bool) (partner : Option Nat)
    (h : List HRec) (regs : Nat → Tbl Reg) :
    { s.putWave w l waveId team grid trailing partner h regs with strands := s.strands, waves := s.waves, banks := s.banks } = s := by
  have hfold := fun t : State => t.foldl_setStrand_rest w (fun s k =>
    { Strand.fresh l.entry (decide (k < l.live)) (s.parks.get (strandNo w k) 0) with regs := regs k }) (List.range l.width)
  unfold State.putWave
  have h' := congrArg (fun t : State => { t with strands := s.strands, waves := s.waves, banks := s.banks }) (hfold (s.setWave w
    { Wave.fresh l.width l.live waveId team grid l.budget with
      w := l.args.zipIdx.map fun p => (p.2, p.1), h := h.zipIdx.map fun p => (p.2, p.1)
      trailing := trailing, partner := partner }))
  exact h'

theorem State.putWave_strand (w : Nat) (l : Launch) (waveId team grid : Nat) (trailing : Bool) (partner : Option Nat)
    (h : List HRec) (regs : Nat → Tbl Reg) {k : Nat} (hk : k < l.width) :
    (s.putWave w l waveId team grid trailing partner h regs).strands.find (strandNo w k) =
      some { Strand.fresh l.entry (decide (k < l.live)) (s.parks.get (strandNo w k) 0) with regs := regs k } :=
  State.find_foldl_setStrand _ w l.width (fun p k =>
    { Strand.fresh l.entry (decide (k < l.live)) (p.get (strandNo w k) 0) with regs := regs k }) hk

/-- A live lane that is placed without registers has a fresh strand. -/
theorem State.putWave_freshStrand (w : Nat) (l : Launch) (waveId team grid : Nat) (trailing : Bool) (partner : Option Nat)
    (h : List HRec) {k : Nat} (hk : k < l.width) (hlive : k < l.live) :
    (s.putWave w l waveId team grid trailing partner h fun _ => []).strands.find (strandNo w k) =
      some (Strand.fresh l.entry true (s.parks.get (strandNo w k) 0)) := by
  rw [State.putWave_strand _ _ _ _ _ _ _ _ _ _ hk, decide_eq_true hlive]
  rfl

section
variable (w : Nat) (l : Launch) (waveId team grid : Nat) (trailing : Bool) (partner : Option Nat) (h : List HRec)
  (regs : Nat → Tbl Reg)

@[simp] theorem State.putWave_mem : (s.putWave w l waveId team grid trailing partner h regs).mem = s.mem := by
  have h' := congrArg State.mem (s.putWave_rest w l waveId team grid trailing partner h regs); exact h'
@[simp] theorem State.putWave_clusters : (s.putWave w l waveId team grid trailing partner h regs).clusters = s.clusters := by
  have h' := congrArg State.clusters (s.putWave_rest w l waveId team grid trailing partner h regs); exact h'
end

/-- A wake leaves a strand that is not asleep as it is. -/
theorem State.wake_ready {s : State} {k : Nat} {st : Strand} (core : Nat) (h : s.strands.find k = some st)
    (hl : st.life = .ready) : (s.wake core).strands.find k = some st := by
  have hr : ∀ t : State, (t.rouse core).strands = t.strands := fun t => by
    unfold State.rouse
    split <;> rfl
  rw [State.wake, hr, Tbl.find_mapVal, h]
  simp [hl]

/-! ### The management grid and the scribe wave -/

/-- The launch of the management grid, whose areas are its scratch alone (R254). -/
def managementLaunch (m : ManagementGrid) : Launch :=
  { placedLaunch with
    entry := .ofNat 57 m.entry, codeVer := 0, waves := m.waves, width := m.width, live := m.live, budget := m.budget,
    scratch := m.scratch, tiles := 0, was := 0, tags := 0, args := m.args.map (.ofNat 32 ·) }

theorem managementGridStart_starts {s : State} {m : ManagementGrid} (hboot : s.device.boot = .running)
    (hm : s.device.management = none) (hl : (managementLaunch m).limits = true) :
    ∃ u g, exec (.managementGridStart m) s = .next u ∧ u.mem = s.mem ∧
      u.device.management = some s.device.nextGrid ∧ u.grids.find s.device.nextGrid = some g ∧ g.level = 2 ∧ g.asid = 0 ∧
      g.launch.entry = .ofNat 57 m.entry ∧ g.nextTeam = 0 := by
  rw [exec_managementGridStart, execManagementGridStart]
  refine ⟨{ (s.ownGrid (managementLaunch m) 2).2 with
      device := { (s.ownGrid (managementLaunch m) 2).2.device with management := some s.device.nextGrid } }, _,
    eventStep_some ?_, rfl, rfl, Tbl.find_set_same _ _ _, rfl, rfl, rfl, rfl⟩
  rw [managementLaunch] at hl ⊢
  simp [hm, hboot, hl]
  rfl

/-- The state in which the scribe wave of a cluster has been placed, before its core is woken. -/
def State.seatScribe (s : State) (cl core : Nat) : State :=
  let bank := scribeBank core
  let w := waveNo bank 32
  let l := scribeLaunch (.ofNat 57 (fld (s.cluster cl).scribeEnt.toNat 4 53 * 16))
  let g := (s.ownGrid l 1).1
  let (no, t) := (s.ownGrid l 1).2.fresh
  let t := ((((t.modGrid g fun x => { x with nextTeam := 1 }).purgeWave w).setBank bank Bank.reset).takeContext bank 0)
  let t := t.setTeam no (Team.fresh g 0 bank [w] 0 [] (List.range 64))
  (t.putWave w l 0 no g false none [] fun _ => []).modCluster cl fun x =>
    { x with scribe := some w, scribeStart := false, scribeReady := [] }

theorem scribeentWrite_eq {s : State} {cl core : Nat} (hstart : (s.cluster cl).scribeStart = true)
    (hlive : s.scribeLive cl = false) (hcore : s.scribeCore cl = some core) :
    exec (.scribeentWrite cl) s = .next ((s.seatScribe cl core).wake core) := by
  rw [exec_scribeentWrite, execScribeentWrite]
  refine eventStep_some ?_
  simp [hstart, hlive, hcore]
  rfl

theorem scribeentWrite_starts {s : State} {cl core : Nat} (hstart : (s.cluster cl).scribeStart = true)
    (hlive : s.scribeLive cl = false) (hcore : s.scribeCore cl = some core) :
    ∃ u w, exec (.scribeentWrite cl) s = .next u ∧ u.mem = s.mem ∧ (u.cluster cl).scribe = some w ∧ waveBank w = 1024 + core ∧
      (u.cluster cl).scribeStart = false ∧ ∀ l < 64, u.strands.find (strandNo w l) =
        some (Strand.fresh (.ofNat 57 ((s.cluster cl).scribeEnt.toNat / 16 % 2 ^ 53 * 16)) true (s.parks.get (strandNo w l) 0)) := by
  have hcluster : ((s.seatScribe cl core).wake core).cluster cl =
      { s.cluster cl with scribe := some (waveNo (scribeBank core) 32), scribeStart := false, scribeReady := [] } := by
    simp only [State.cluster, State.wake_clusters, State.seatScribe, State.modCluster_clusters, Tbl.get_set_same,
      State.putWave_clusters]
    rfl
  refine ⟨_, waveNo (scribeBank core) 32, scribeentWrite_eq hstart hlive hcore, ?_, by rw [hcluster],
    waveBank_waveNo _ (by norm_num), by rw [hcluster], fun l hl => ?_⟩
  · simp only [State.wake_mem, State.seatScribe, State.modCluster_mem, State.putWave_mem]
    rfl
  · refine State.wake_ready core ?_ rfl
    simp only [State.seatScribe, State.modCluster_strands]
    rw [State.putWave_freshStrand _ _ _ _ _ _ _ _ _ (by exact hl) (by exact hl)]
    rfl

/-! ### The scribe wave moves (R328) -/

/-- The number that a strand has once wave `w` stands in the place of `w'`. -/
def movedKey (w w' k : Nat) : Nat := if strandWave k = w then strandNo w' (strandLane k) else k

theorem movedKey_strandNo (w w' : Nat) {l : Nat} (hl : l < 64) : movedKey w w' (strandNo w l) = strandNo w' l := by
  rw [movedKey, if_pos (strandWave_strandNo w hl), strandLane_strandNo w hl]

/-- The strands of one wave stay apart, and in order, when they move. -/
theorem movedKey_lt {w w' j k : Nat} (hj : strandWave j = w) (hk : strandWave k = w) (h : j < k) :
    movedKey w w' j < movedKey w w' k := by
  rw [movedKey, movedKey, if_pos hj, if_pos hk]
  simp only [strandWave, strandNo, strandLane] at *
  omega

/-- The strands of a wave. -/
def State.laneStrands (s : State) (w : Nat) : List (Nat × Strand) := s.strands.filter fun p => strandWave p.1 = w

/-- The state in which the scribe wave `w` of a cluster goes on in the slot of a core. -/
def State.moveScribe (s : State) (cl w core : Nat) (wave : Wave) : State :=
  let w' := waveNo (scribeBank core) 32
  let old := bankCore (waveBank w)
  let s := { s with
    parks := (s.laneStrands w).foldl (fun (t : Tbl (BitVec 10)) (p : Nat × Strand) => t.set (movedKey w w' p.1) p.2.seq) s.parks
    strands := (s.laneStrands w).foldl (fun (t : Tbl Strand) (p : Nat × Strand) => t.set (movedKey w w' p.1) p.2)
      (s.strands.filter fun p => strandWave p.1 ≠ w)
    waves := (s.waves.drop w).set w' wave
    teams := s.teams.change wave.team fun t => { t with bank := scribeBank core, waves := [w'] }
    watches := s.watches.map fun (x : Watch) =>
      if strandWave x.strand = w then { x with strand := movedKey w w' x.strand, written := true } else x
    banks := ((s.banks.drop (scribeBank old)).set (scribeBank core) (s.bank (scribeBank old))).mapVal
      fun _ (b : Bank) => { b with order := b.order.filter (·.wave ≠ w), current := b.current.filter (· ≠ w) } }
  s.modCluster cl fun x => { x with scribe := some w', scribeReady := [] }

theorem scribeMove_eq {s : State} {cl w core : Nat} {v : Wave} (hw : (s.cluster cl).scribe = some w)
    (hv : s.waves.find w = some v) (hlive : s.waveLive w = true) (hidle : s.allIdle w = true)
    (hbusy : s.bankBusy (waveBank w) = false)
    (hcore : (((List.range 8).map (8 * cl + ·)).find? fun c => decide (bankCore (waveBank w) < c) && !s.retiredCore c) = some core)
    (hdirty : ∀ x ∈ (s.core (bankCore (waveBank w))).l1, x.dirty = [])
    (hflights : ∀ f ∈ s.flights, f.core ≠ bankCore (waveBank w)) :
    exec (.scribeMove cl) s = .next (s.moveScribe cl w core v) := by
  have hd : ((s.core (bankCore (waveBank w))).l1.any fun x => !x.dirty.isEmpty) = false := by
    simpa using hdirty
  have hf : (s.flights.any fun f => f.core = bankCore (waveBank w)) = false := by simpa using hflights
  rw [exec_scribeMove, execScribeMove]
  refine eventStep_some ?_
  simp only [hw, hv, hlive, hidle, hbusy, hcore, hd, hf, Option.bind_eq_bind, Option.bind_some]
  rfl

theorem State.moveScribe_strand {s : State} {cl w core l : Nat} {v : Wave} {st : Strand} (hl : l < 64)
    (hs : (s.strands.map (·.1)).Pairwise (· < ·)) (h : s.strands.find (strandNo w l) = some st) :
    (s.moveScribe cl w core v).strands.find (strandNo (waveNo (scribeBank core) 32) l) = some st := by
  have hmem : (strandNo w l, st) ∈ s.laneStrands w :=
    List.mem_filter.mpr ⟨Tbl.mem_of_find h, decide_eq_true (strandWave_strandNo w hl)⟩
  have hkeys : ((s.laneStrands w).map fun p => movedKey w (waveNo (scribeBank core) 32) p.1).Nodup := by
    refine List.pairwise_map.mpr (List.Pairwise.imp_of_mem (R := fun p q : Nat × Strand => p.1 < q.1) ?_ ?_)
    · intro p q hp hq hlt
      exact (movedKey_lt (of_decide_eq_true (List.mem_filter.mp hp).2) (of_decide_eq_true (List.mem_filter.mp hq).2) hlt).ne
    · exact (List.pairwise_map.mp hs).filter _
  have hfind := Tbl.find_foldl_set (s.laneStrands w) (movedKey w (waveNo (scribeBank core) 32))
    (s.strands.filter fun p => strandWave p.1 ≠ w) hkeys hmem
  rw [movedKey_strandNo w _ hl] at hfind
  exact hfind

theorem State.moveScribe_wave {s : State} {cl w core : Nat} {v : Wave} (hs : (s.waves.map (·.1)).Pairwise (· < ·))
    (hne : waveNo (scribeBank core) 32 ≠ w) : (s.moveScribe cl w core v).waves.find w = none :=
  (Tbl.find_set_other _ _ hne.symm).trans (Tbl.find_drop_same hs w)

theorem scribeMove_moves {s : State} {cl w core : Nat} {v : Wave} (he : exec (.scribeMove cl) s = .next (s.moveScribe cl w core v))
    (hwaves : (s.waves.map (·.1)).Pairwise (· < ·)) (hstrands : (s.strands.map (·.1)).Pairwise (· < ·))
    (hne : waveNo (scribeBank core) 32 ≠ w) :
    ∃ u, exec (.scribeMove cl) s = .next u ∧ u.mem = s.mem ∧ (u.cluster cl).scribe = some (waveNo (scribeBank core) 32) ∧
      u.waves.find (waveNo (scribeBank core) 32) = some v ∧ u.waves.find w = none ∧
      ∀ l < 64, ∀ st, s.strands.find (strandNo w l) = some st →
        u.strands.find (strandNo (waveNo (scribeBank core) 32) l) = some st := by
  refine ⟨_, he, rfl, ?_, Tbl.find_set_same _ _ _, State.moveScribe_wave hwaves hne,
    fun l hl st h => State.moveScribe_strand hl hstrands h⟩
  simp only [State.moveScribe, State.cluster, State.modCluster_clusters, Tbl.get_set_same]

/-! ### The rubric program (R359) -/

/-- The launch of a rubric program. -/
def rubricLaunch (entry : VAddr) (args : List Word) : Launch :=
  { placedLaunch with entry := entry, codeVer := 0, width := 64, live := 64, budget := 128, scratch := 0,
                      tiles := 0, was := 0, tags := 64, prio := 3, args := args }

/-- The state in which a rubric program has been placed, before its core is woken. -/
def State.seatRubric (s : State) (die : Nat) (entry : VAddr) (digest : List Byte) (args : List Word) : State :=
  let l := rubricLaunch entry args
  let g := (s.ownGrid l 1).1
  let (no, t) := (s.ownGrid l 1).2.fresh
  let bank := bankNo (rubricCore die) 0
  let w := waveNo bank 0
  let t := (((t.modGrid g fun x => { x with nextTeam := 1 }).purgeWave w).takeContext bank 0)
  let t := t.setTeam no (Team.fresh g 0 bank [w] 0 [] (List.range 64))
  (t.putWave w l 0 no g false none [] fun _ => []).modDie die fun d => { d with rubric := some w, rubricDigest := digest }

theorem State.startRubric_eq (s : State) (die : Nat) (entry : VAddr) (digest : List Byte) (args : List Word) :
    s.startRubric die entry digest args = (s.seatRubric die entry digest args).wake (rubricCore die) := rfl

section
variable (s : State) (die : Nat) (entry : VAddr) (digest : List Byte) (args : List Word)

theorem State.startRubric_strand {l : Nat} (hl : l < 64) :
    (s.startRubric die entry digest args).strands.find (strandNo (waveNo (bankNo (rubricCore die) 0) 0) l) =
      some (Strand.fresh entry true (s.parks.get (strandNo (waveNo (bankNo (rubricCore die) 0) 0) l) 0)) := by
  rw [State.startRubric_eq]
  refine State.wake_ready _ ?_ rfl
  simp only [State.seatRubric, State.modDie_strands]
  rw [State.putWave_freshStrand _ _ _ _ _ _ _ _ _ (by exact hl) (by exact hl)]
  rfl

theorem State.startRubric_die :
    ((s.startRubric die entry digest args).die die).rubric = some (waveNo (bankNo (rubricCore die) 0) 0) ∧
    ((s.startRubric die entry digest args).die die).rubricDigest = digest := by
  rw [State.startRubric_eq]
  simp only [State.die, State.wake_dies, State.seatRubric, State.modDie_dies, Tbl.get_set_same, and_self]

theorem State.keeps_dropTeam (t : Nat) : s.Keeps (s.dropTeam t) := by
  unfold State.dropTeam
  split <;> exact ⟨rfl, rfl⟩

theorem State.keeps_releaseBank (b : Nat) : s.Keeps (s.releaseBank b) := by
  unfold State.releaseBank
  split
  · exact .refl s
  · split <;> exact ⟨rfl, rfl⟩

theorem State.keeps_endRubric : s.Keeps (s.endRubric die) := by
  unfold State.endRubric
  split
  · exact .refl s
  · next w _ =>
    split
    · exact .refl s
    · next wave _ =>
      have hdrop := s.keeps_dropTeam wave.team
      have hbank := State.keeps_releaseBank (({ s.dropTeam wave.team with
        teams := (s.dropTeam wave.team).teams.drop wave.team }).modGrid wave.grid fun g =>
          { g with retiredTeams := g.teamCount }) (waveBank w)
      exact ⟨hbank.device.trans hdrop.device, hbank.parks.trans hdrop.parks⟩

end

/-- The state in which a rubric program has replaced the one of its die. -/
def State.withRubric (s : State) (die : Nat) (img : Image) (entry : Nat) (streams : Dword) : State :=
  ((s.endRubric die).withImage img).startRubric die (.ofNat 57 entry) (Config.sha256 img.file) (rubricArgs streams)

theorem rubricReplace_eq {s : State} {die entry : Nat} {rest : List Nat} {img : Image} {sig key : List Byte} (streams : Dword)
    (hdie : die < 4) (hboot : s.device.boot ≠ .recovery) (hasid : img.asid = 0) (hexp : img.exports = entry :: rest)
    (hkey : s.device.ownerKey = some key)
    (hv : ∀ o, s.device.contexts.find 0 = some o → ∀ w ∈ o.versions, w.number < 2 ^ 32 - 1)
    (hidle : ∀ w, (s.die die).rubric = some w → s.allIdle w = true) :
    exec (.rubricReplace die img sig streams) s =
      .next (if Config.ecdsaVerify key (Config.sha256 img.file) sig then s.withRubric die img entry streams else s) := by
  have hsigned : s.ownerSigned img.file sig = Config.ecdsaVerify key (Config.sha256 img.file) sig := by
    simp only [State.ownerSigned, hkey]
  have hload : (s.endRubric die).loadImage img = some ((s.endRubric die).withImage img) := by
    rw [State.loadImage_eq, if_pos]
    refine newestVersion_succ_lt ?_
    rw [(s.keeps_endRubric die).device, hasid]
    exact hv
  have hall : (s.die die).rubric.all s.allIdle = true := by
    cases h : (s.die die).rubric with
    | none => rfl
    | some w => exact hidle w h
  rw [exec_rubricReplace, execRubricReplace]
  split
  · next hsig =>
    refine eventStep_some ?_
    simp [hsigned, hsig, hboot, hasid, hexp, hall, hload, Config.dies, hdie]
    rfl
  · next hsig =>
    refine eventStep_none ?_
    simp [hsigned, hsig]

theorem State.withRubric_strand (s : State) (die : Nat) (img : Image) (entry : Nat) (streams : Dword) {l : Nat} (hl : l < 64) :
    (s.withRubric die img entry streams).strands.find (strandNo (waveNo (bankNo (rubricCore die) 0) 0) l) =
      some (Strand.fresh (.ofNat 57 entry) true (s.parks.get (strandNo (waveNo (bankNo (rubricCore die) 0) 0) l) 0)) := by
  have hparks : ((s.endRubric die).withImage img).parks = s.parks :=
    ((s.endRubric die).keeps_storeImage img).parks.trans (s.keeps_endRubric die).parks
  rw [State.withRubric, State.startRubric_strand _ _ _ _ _ hl, hparks]

end Sys2Proof.Machine
end

section
/-!
PROOFS. The rubric program at a command stream (R360): it makes the writes that it owes, then carries out the next entry.
-/

namespace Sys2Proof.Machine

open Sys2Proof.Safety

/-! ### The next entry -/

/-- A program that owes no write carries out the stream's next entry, where that has the operation of the event. -/
theorem State.streamStep_entry {s v : State} {die stream base head : Nat} {b : List Byte} {op : Nat → Bool}
    (f : State → Nat → Nat → List Byte → Act State) (hout : (s.die die).rubricOut = []) (hstream : stream < 64)
    (hflights : ∀ g ∈ s.flights, g.core ≠ rubricCore die) (hstop : s.engineStopped (rubricCore die) = false)
    (he : s.streamEntry die stream = .ok (base, head, b, v)) (hop : op (bytesAt b 0 4) = true) :
    s.streamStep die stream op f = s.dispatch (rubricCore die) 0 (f v base head b) := by
  have hidle : s.rubricIdle die = true := by
    have hf : (s.flights.any fun g => g.core = rubricCore die) = false := by simpa using hflights
    simp [State.rubricIdle, hout, hf]
  have hstart : (decide (stream < 64) && s.rubricIdle die && !s.engineStopped (rubricCore die)) = true := by
    simp [hstream, hidle, hstop]
  simp only [State.streamStep, hout, hstart, he]
  simp [bind, Except.bind, require, hop]

section
variable {s v : State} {die stream base head : Nat} {b : List Byte} (hout : (s.die die).rubricOut = []) (hstream : stream < 64)
  (hflights : ∀ g ∈ s.flights, g.core ≠ rubricCore die) (hstop : s.engineStopped (rubricCore die) = false)
  (he : s.streamEntry die stream = .ok (base, head, b, v))
include hout hstream hflights hstop he

theorem streamLaunch_launches {status g : Nat} {t : State} (hop : bytesAt b 0 4 = 1)
    (hl : v.launchGrid { die := die, asid := 0, level := 1, prio := 3, depth := 0, team := none, grid := none } (b.drop 128) true =
      some (status, g, t)) :
    exec (.streamLaunch die stream) s = .next ((if status = 0 then
      t.modDie die fun d => { d with streams := d.streams.set stream (d.streams.get stream [] ++ [(head, g)]) }
      else t).streamDone die base head status (some g)) := by
  rw [exec_streamLaunch, execStreamLaunch]
  refine eventStep_some ?_
  rw [State.streamStep_entry _ hout hstream hflights hstop he (decide_eq_true hop)]
  simp only [hl]
  rfl

theorem streamLaunch_waits (hop : bytesAt b 0 4 = 1)
    (hl : v.launchGrid { die := die, asid := 0, level := 1, prio := 3, depth := 0, team := none, grid := none } (b.drop 128) true =
      none) :
    exec (.streamLaunch die stream) s = .next s := by
  rw [exec_streamLaunch, execStreamLaunch]
  refine eventStep_none ?_
  rw [State.streamStep_entry _ hout hstream hflights hstop he (decide_eq_true hop)]
  simp only [hl]
  rfl

/-- A wait of a stream for some of its grids, by the test of a grid that it waits for. -/
theorem streamStep_wait {op : Nat → Bool} (q : State → List Byte → Nat × Nat → Bool) (hop : op (bytesAt b 0 4) = true) :
    (s.streamStep die stream op fun s base head b => do
      require ((s.streamGrids die stream).all (q s b)) .hold
      pure (s.streamDone die base head 0 none)) =
    if (v.streamGrids die stream).all (q v b) then some (v.streamDone die base head 0 none) else none := by
  rw [State.streamStep_entry _ hout hstream hflights hstop he hop]
  split
  · next h => rw [h]; rfl
  · next h => rw [Bool.eq_false_iff.mpr h]; rfl

theorem streamWaitgrid_done (hop : bytesAt b 0 4 = 2)
    (h : ∀ p ∈ v.streamGrids die stream, p.1 = bytesAt b 8 8 → v.gridRetired p.2 = true) :
    exec (.streamWaitgrid die stream) s = .next (v.streamDone die base head 0 none) := by
  rw [exec_streamWaitgrid, execStreamWaitgrid]
  refine eventStep_some ?_
  rw [streamStep_wait hout hstream hflights hstop he (fun s b p => p.1 ≠ bytesAt b 8 8 || s.gridRetired p.2)
    (decide_eq_true hop), if_pos]
  refine List.all_eq_true.mpr fun p hp => ?_
  by_cases hb : p.1 = bytesAt b 8 8
  · simp [h p hp hb]
  · simp [hb]

theorem streamWaitgrid_waits (hop : bytesAt b 0 4 = 2)
    (h : ∃ p ∈ v.streamGrids die stream, p.1 = bytesAt b 8 8 ∧ v.gridRetired p.2 = false) :
    exec (.streamWaitgrid die stream) s = .next s := by
  obtain ⟨p, hp, hb, hr⟩ := h
  rw [exec_streamWaitgrid, execStreamWaitgrid]
  refine eventStep_none ?_
  rw [streamStep_wait hout hstream hflights hstop he (fun s b p => p.1 ≠ bytesAt b 8 8 || s.gridRetired p.2)
    (decide_eq_true hop), if_neg]
  intro hall
  have := List.all_eq_true.mp hall p hp
  simp [hb, hr] at this

theorem streamDrain_done (hop : bytesAt b 0 4 = 4) (h : ∀ p ∈ v.streamGrids die stream, v.gridRetired p.2 = true) :
    exec (.streamDrain die stream) s = .next (v.streamDone die base head 0 none) := by
  rw [exec_streamDrain, execStreamDrain]
  refine eventStep_some ?_
  rw [streamStep_wait hout hstream hflights hstop he (fun s _ p => s.gridRetired p.2) (decide_eq_true hop), if_pos]
  exact List.all_eq_true.mpr h

theorem streamDrain_waits (hop : bytesAt b 0 4 = 4) (h : ∃ p ∈ v.streamGrids die stream, v.gridRetired p.2 = false) :
    exec (.streamDrain die stream) s = .next s := by
  obtain ⟨p, hp, hr⟩ := h
  rw [exec_streamDrain, execStreamDrain]
  refine eventStep_none ?_
  rw [streamStep_wait hout hstream hflights hstop he (fun s _ p => s.gridRetired p.2) (decide_eq_true hop), if_neg]
  intro hall
  simp [List.all_eq_true.mp hall p hp] at hr

theorem streamWrite_done (hop : bytesAt b 0 4 = 3) :
    exec (.streamWrite die stream) s = .next ((v.modDie die fun d =>
      { d with rubricOut := d.rubricOut ++ [(bytesAt b 8 8 % 2 ^ 57, (b.drop 16).take 8)] }).streamDone die base head 0 none) := by
  rw [exec_streamWrite, execStreamWrite]
  refine eventStep_some ?_
  rw [State.streamStep_entry _ hout hstream hflights hstop he (decide_eq_true hop)]
  rfl

theorem streamBadOp_done (hop : bytesAt b 0 4 = 0 ∨ 4 < bytesAt b 0 4) :
    exec (.streamBadOp die stream) s = .next (v.streamDone die base head 0xFF none) := by
  rw [exec_streamBadOp, execStreamBadOp]
  refine eventStep_some ?_
  rw [State.streamStep_entry _ hout hstream hflights hstop he (by simpa using hop)]
  rfl

end

theorem State.streamDone_rubricOut (s : State) (die base head status : Nat) (grid : Option Nat) :
    ((s.streamDone die base head status grid).die die).rubricOut = (s.die die).rubricOut ++
      [((base + 512 + 256 * (head % Config.streamEntries) + 4) % 2 ^ 57, toBytes 4 status)] ++
      (match grid with
        | some g => [((base + 512 + 256 * (head % Config.streamEntries) + 8) % 2 ^ 57, toBytes 8 g)]
        | none => []) ++ [(base % 2 ^ 57, toBytes 8 (head + 1))] := by
  cases grid <;> simp [State.streamDone, State.die]

/-! ### The writes that the program owes -/

/-- The bytes of a write at the places that their addresses translate to. -/
theorem mapM_place {f : Nat → Act Nat} (va : Nat) (bytes : List Byte) (cells : List Host.Cell) (hb : cells.map (·.2) = bytes)
    (hpa : ∀ k pa, (cells.map (·.1))[k]? = some pa → f ((va + k) % 2 ^ 57) = .ok pa) :
    ((place va bytes).mapM fun c => do
      let pa ← f (c.1 % 2 ^ 57)
      pure (pa, c.2)) = Except.ok cells := by
  induction cells generalizing va bytes with
  | nil => subst hb; rfl
  | cons c cells ih =>
    subst hb
    have hfirst : f (va % 2 ^ 57) = .ok c.1 := hpa 0 c.1 rfl
    have hrest := ih (va + 1) _ rfl fun k pa hk => by
      have h := hpa (k + 1) pa (by simpa using hk)
      rwa [← Nat.add_assoc, Nat.add_right_comm] at h
    simp only [List.map_cons, place, List.mapM_cons, hfirst, hrest]
    rfl

/-- The number and the clock that a rubric program's next write waits for, as a release at system scope (R360). -/
def State.rubricOrders (s : State) (die : Nat) :=
  s.releaseIds [rubricCore die] (strandNo ((s.die die).rubric.getD 0) 0) 6 0 false

section
variable {s : State} {die va : Nat} {bytes : List Byte} {rest : List (Nat × List Byte)}
  (hout : (s.die die).rubricOut = (va, bytes) :: rest)
include hout

theorem State.rubricWrite_held (h : s.engineStopped (rubricCore die) = true ∨
    s.awaits (s.rubricOrders die).1 (s.rubricOrders die).2 = true) : s.rubricWrite die = none := by
  have hheld : (!s.engineStopped (rubricCore die) && !s.awaits (s.rubricOrders die).1 (s.rubricOrders die).2) = false := by
    rcases h with h | h <;> simp [h]
  rw [State.rubricOrders] at hheld
  simp only [State.rubricWrite, hout, List.head?_cons, Option.bind_eq_bind, Option.bind_some, hheld]
  rfl

theorem State.rubricWrite_leaves {cells : List Host.Cell} (hstop : s.engineStopped (rubricCore die) = false)
    (ha : s.awaits (s.rubricOrders die).1 (s.rubricOrders die).2 = false) (hb : cells.map (·.2) = bytes)
    (hpa : ∀ k pa, (cells.map (·.1))[k]? = some pa →
      s.translateNow (rubricCore die) 0 1 ((va + k) % 2 ^ 57) 1 kStore = .ok pa) :
    s.rubricWrite die = some ((splitSectors cells).foldl (fun s l => s.launchFlight (rubricCore die) none l false none)
      (s.modDie die fun d => { d with rubricOut := rest })) := by
  have hplace := mapM_place (f := fun a => s.translateNow (rubricCore die) 0 1 a 1 kStore) va bytes cells hb hpa
  have hdrop : (s.modDie die fun d => { d with rubricOut := d.rubricOut.drop 1 }) =
      s.modDie die fun d => { d with rubricOut := rest } := by
    simp only [State.modDie, hout, List.drop_one, List.tail_cons]
  rw [State.rubricOrders] at ha
  simp only [State.rubricWrite, hout, List.head?_cons, Option.bind_eq_bind, Option.bind_some, hstop, ha, hplace, hdrop]
  rfl

/-- While a write is owed, each event of the program's streams is that write. -/
theorem State.streamStep_owes (stream : Nat) (op : Nat → Bool) (f : State → Nat → Nat → List Byte → Act State) :
    s.streamStep die stream op f = s.rubricWrite die := by
  simp only [State.streamStep, hout, List.isEmpty_cons, Bool.not_false, if_true]

theorem exec_owes (stream : Nat) : ∀ i ∈ [Instr.streamLaunch die stream, .streamWaitgrid die stream, .streamWrite die stream,
    .streamDrain die stream, .streamBadOp die stream], exec i s = eventStep s fun s => s.rubricWrite die := by
  have hstep : ∀ op f, (eventStep s fun s => s.streamStep die stream op f) = eventStep s fun s => s.rubricWrite die := by
    intro op f
    simp only [eventStep, State.streamStep_owes hout]
  simp only [List.forall_mem_cons, List.not_mem_nil, false_imp_iff, implies_true, and_true]
  exact ⟨hstep _ _, hstep _ _, hstep _ _, hstep _ _, hstep _ _⟩

end

/-! ### The statement -/

/-- Settles O48: images, the management grid, the scribe wave, the rubric program, then the entries of a stream. -/
theorem managementEvents : Obligations.ManagementEvents := by
  unfold Obligations.ManagementEvents
  refine ⟨⟨fun s img hs ha hb hv => imageLoad_adds hs ha hb hv, fun s img o w ho hw hn => imageLoad_refused ho hw hn, ?_,
    fun s cl hstart hlive core hcore => scribeentWrite_starts hstart hlive hcore, ?_, ?_⟩, ?_,
    fun s die base head status grid => s.streamDone_rubricOut die base head status grid, ?_⟩
  · intro s m hboot hm hw hw' hwidth hlive hlive' hb hb' hb8 hsc hsc'
    refine managementGridStart_starts hboot hm ?_
    simp [Launch.limits, managementLaunch, placedLaunch, *]
  · intro s cl w core v hw hv hlive hidle hbusy hcore hdirty hflights hwaves hstrands hne
    exact scribeMove_moves (scribeMove_eq hw hv hlive hidle hbusy hcore hdirty hflights) hwaves hstrands hne
  · intro s die entry rest img sig key streams hdie hboot hasid hexp hkey hv hidle
    refine ⟨_, rubricReplace_eq streams hdie hboot hasid hexp hkey hv hidle, ?_⟩
    split
    · exact ⟨_, (State.startRubric_die _ die _ _ _).1, (State.startRubric_die _ die _ _ _).2,
        waveBank_waveNo _ (by norm_num), fun l hl => s.withRubric_strand die img entry streams hl⟩
    · rfl
  · intro s v die stream base head b hout hstream hflights hstop he op who
    exact ⟨fun status g t hop hl => streamLaunch_launches hout hstream hflights hstop he hop hl,
      streamLaunch_waits hout hstream hflights hstop he, streamWaitgrid_done hout hstream hflights hstop he,
      streamWaitgrid_waits hout hstream hflights hstop he, streamWrite_done hout hstream hflights hstop he,
      streamDrain_done hout hstream hflights hstop he, streamDrain_waits hout hstream hflights hstop he,
      streamBadOp_done hout hstream hflights hstop he⟩
  · intro s die stream va bytes rest hout core orders i hi
    rw [exec_owes hout stream i hi]
    exact ⟨fun h => eventStep_none (State.rubricWrite_held hout h),
      fun cells hstop ha hb hpa => eventStep_some (State.rubricWrite_leaves hout hstop ha hb hpa)⟩

end Sys2Proof.Machine
end

section
/-!
PROOFS. What leaves memory as it is: the functions on the machine that write no byte of memory, each with its equation. Memory
is written by `State.pokeAll` alone.
-/

namespace Sys2Proof.Machine

@[simp] theorem State.mem_ite (c : Prop) [Decidable c] (s t : State) :
    (if c then s else t).mem = if c then s.mem else t.mem := apply_ite State.mem c s t

/-! ### Wakes, and the parts of teams and banks that are dropped -/

@[simp] theorem State.rouse_mem (s : State) (core : Nat) : (s.rouse core).mem = s.mem := by
  unfold State.rouse
  split <;> rfl

@[simp] theorem State.wakeWatches_mem (s : State) (p : Watch → Bool) : (s.wakeWatches p).mem = s.mem :=
  State.mem_foldl _ (fun _ _ => by simp) _

/-! ### Folds over the strands, cores and dies that a list names -/

@[simp] theorem State.foldl_modStrand_mem {α : Type} (s : State) (l : List α) (k : α → Nat)
    (f : α → Strand → Strand) : (l.foldl (fun s x => s.modStrand (k x) (f x)) s).mem = s.mem :=
  State.mem_foldl _ (fun _ _ => by simp) _

@[simp] theorem State.foldl_modCore_mem {α : Type} (s : State) (l : List α) (k : α → Nat) (f : α → Core → Core) :
    (l.foldl (fun s x => s.modCore (k x) (f x)) s).mem = s.mem :=
  State.mem_foldl _ (fun _ _ => by simp) _

@[simp] theorem State.foldl_modDie_mem {α : Type} (s : State) (l : List α) (k : α → Nat) (f : α → Die → Die) :
    (l.foldl (fun s x => s.modDie (k x) (f x)) s).mem = s.mem :=
  State.mem_foldl _ (fun _ _ => by simp) _

/-! ### Sectors, teams and banks -/

@[simp] theorem State.poisonSector_mem (s : State) (pa : Nat) : (s.poisonSector pa).mem = s.mem := rfl

@[simp] theorem State.cleanSector_mem (s : State) (pa : Nat) : (s.cleanSector pa).mem = s.mem := rfl

@[simp] theorem State.cleanCovered_mem (s : State) (pa n : Nat) : (s.cleanCovered pa n).mem = s.mem :=
  State.mem_foldl _ (fun _ _ => by simp) _

@[simp] theorem State.dropTeam_mem (s : State) (t : Nat) : (s.dropTeam t).mem = s.mem := by
  unfold State.dropTeam
  split <;> rfl

@[simp] theorem State.releaseMapping_mem (s : State) (b : Nat) : (s.releaseMapping b).mem = s.mem := by
  unfold State.releaseMapping
  split <;> rfl

@[simp] theorem State.releaseBank_mem (s : State) (b : Nat) : (s.releaseBank b).mem = s.mem := by
  simp [State.releaseBank]

@[simp] theorem State.releaseBanks_mem (s : State) (banks : List Nat) : (s.releaseBanks banks).mem = s.mem :=
  State.mem_foldl _ (fun _ _ => by simp) _

/-! ### A strand that goes on or back -/

@[simp] theorem State.rollback_mem (s : State) (k n : Nat) : (s.rollback k n).mem = s.mem := rfl

@[simp] theorem Env.retire_mem (e : Env) (s : State) (st : Strand) : (e.retire s st).mem = s.mem := rfl

@[simp] theorem Env.retireRegion_mem (e : Env) (s : State) (st : Strand) : (e.retireRegion s st).mem = s.mem := rfl

/-! ### Stores on their way, and the caches -/

@[simp] theorem State.stampWrite_mem (s : State) (w : Nat) : (s.stampWrite w).2.mem = s.mem := rfl

@[simp] theorem State.setLink_mem (s : State) (p : Nat) (l : Link) : (s.setLink p l).mem = s.mem := rfl

@[simp] theorem State.countSent_mem (s : State) (pa : Nat) : (s.countSent pa).mem = s.mem := by
  unfold State.countSent
  split <;> rfl

@[simp] theorem State.wakeLocal_mem (s : State) (team off n : Nat) : (s.wakeLocal team off n).mem = s.mem := by
  simp [State.wakeLocal]

@[simp] theorem State.noteRequest_mem (s : State) (pa cluster : Nat) : (s.noteRequest pa cluster).mem = s.mem := by
  unfold State.noteRequest
  split <;> rfl

@[simp] theorem State.expose_mem (s : State) (t : Nat) : (s.expose t).mem = s.mem := rfl

@[simp] theorem State.exposeOf_mem (s : State) (t : Option Nat) : (s.exposeOf t).mem = s.mem := by
  unfold State.exposeOf
  split <;> rfl

@[simp] theorem State.launchFlight_mem (s : State) (core : Nat) (bank : Option Nat) (cells : List Host.Cell)
    (single : Bool) (exposes : Option Nat) : (s.launchFlight core bank cells single exposes).mem = s.mem := by
  unfold State.launchFlight
  split
  · rfl
  · cases homeDie _ with
    | none => rfl
    | some h => dsimp only; split <;> rfl

@[simp] theorem State.dropReplicas_mem (s : State) (line : Nat) : (s.dropReplicas line).mem = s.mem := rfl

@[simp] theorem State.joinHost_mem (s : State) (die : Nat) : (s.joinHost die).mem = s.mem := rfl

@[simp] theorem State.writeBack_mem (s : State) (core line : Nat) (drop : Bool) :
    (s.writeBack core line drop).mem = s.mem := by
  unfold State.writeBack
  split
  · rfl
  · simp [State.mem_foldl]

@[simp] theorem State.writeBackAll_mem (s : State) (cores : List Nat) : (s.writeBackAll cores).mem = s.mem := by
  simp [State.writeBackAll, State.mem_foldl]

@[simp] theorem State.l1Trim_mem (s : State) (core : Nat) : (s.l1Trim core).mem = s.mem := by
  unfold State.l1Trim
  split
  · split <;> simp
  · rfl

@[simp] theorem State.dropClean_mem (s : State) (cores : List Nat) : (s.dropClean cores).mem = s.mem :=
  State.mem_foldl _ (fun _ _ => by simp) _

@[simp] theorem State.l1Write_mem (s : State) (core : Nat) (cells : List Host.Cell) (strands : List Nat) (pol : Nat) :
    (s.l1Write core cells strands pol).mem = s.mem := by
  unfold State.l1Write
  split <;> simp

@[simp] theorem State.takeLine_mem (s : State) (cores : List Nat) (line : Nat) : (s.takeLine cores line).mem = s.mem :=
  State.mem_foldl _ (fun _ _ => by simp) _

@[simp] theorem State.sendStore_mem (s : State) (cores : List Nat) (core : Nat) (bank : Option Nat)
    (cells : List Host.Cell) (single : Bool) (exposes : Option Nat) :
    (s.sendStore cores core bank cells single exposes).mem = s.mem :=
  State.mem_foldl _ (fun t l => by split <;> simp [State.mem_foldl]) _

@[simp] theorem State.commit_mem (s : State) (t : Nat) : (s.commit t).mem = s.mem := by
  unfold State.commit
  split
  · rfl
  · split <;> simp

@[simp] theorem State.bufferStore_mem (s : State) (t pa : Nat) (bytes : List Byte) :
    (s.bufferStore t pa bytes).mem = s.mem := by
  unfold State.bufferStore
  split <;> simp

@[simp] theorem State.fillReplica_mem (s : State) (die pa : Nat) : (s.fillReplica die pa).mem = s.mem := rfl

@[simp] theorem State.l1Fill_mem (s : State) (core die pa : Nat) (cores : List Nat) (poison : Bool) (pol : Nat) :
    (s.l1Fill core die pa cores poison pol).mem = s.mem := by
  simp [State.l1Fill]

@[simp] theorem State.deliver_mem (s : State) (strand id d : Nat) (words : List (Word × Bool)) :
    (s.deliver strand id d words).mem = s.mem := rfl

/-! ### Translation and requests -/

@[simp] theorem State.tlbFill_mem (s : State) (core : Nat) (e : TlbEntry) : (s.tlbFill core e).mem = s.mem := rfl

theorem State.askWalk_mem {s t : State} {who : Walker} {core asid va : Nat} (h : s.askWalk who core asid va = some t) :
    t.mem = s.mem := by
  unfold State.askWalk at h
  split at h
  · cases h
  · cases h; rfl

/-- An answer that keeps memory, or the state where there is none, keeps memory. -/
theorem State.getD_mem {s : State} {o : Option State} (h : ∀ {t}, o = some t → t.mem = s.mem) : (o.getD s).mem = s.mem := by
  cases o with
  | none => rfl
  | some t => exact h rfl

@[simp] theorem State.takeEntry_mem (s : State) (core : Nat) (e : TlbEntry) : (s.takeEntry core e).mem = s.mem := rfl

@[simp] theorem State.request_mem (s : State) (l : Load) : (s.request l).2.mem = s.mem := rfl

@[simp] theorem State.prefetchLine_mem (s : State) (strand issue asid level pol va pa : Nat) :
    (s.prefetchLine strand issue asid level pol va pa).mem = s.mem := by
  simp only [State.prefetchLine]
  split
  · rfl
  · exact State.mem_foldl _ (fun _ _ => by rfl) _

/-! ### Lines that copies own -/

@[simp] theorem State.changeCopy_mem (s : State) (b id : Nat) (f : Copy → Copy) : (s.changeCopy b id f).mem = s.mem := rfl

@[simp] theorem State.ownLines_mem (s : State) (b : Nat) (c : Copy) : (s.ownLines b c).mem = s.mem :=
  State.mem_foldl _ (fun _ _ => by simp) _

@[simp] theorem State.claimLines_mem (s : State) (asid : Nat) : (s.claimLines asid).mem = s.mem :=
  State.mem_foldl _ (fun _ _ => by simp) _

/-! ### System registers, code, and the scribe -/

@[simp] theorem State.applySystem_mem (s : State) (k n : Nat) (v : Dword) : (s.applySystem k n v).mem = s.mem := by
  unfold State.applySystem
  split <;> simp

@[simp] theorem State.writeSystem_mem (s : State) (k n : Nat) (v : Dword) : (s.writeSystem k n v).mem = s.mem := by
  unfold State.writeSystem
  split <;> simp

@[simp] theorem State.fillCode_mem (s : State) (core asid version va pa : Nat) (sys : Bool) :
    (s.fillCode core asid version va pa sys).mem = s.mem := by
  simp [State.fillCode]

@[simp] theorem State.withRoom_mem (s : State) (k cls : Nat) : (s.withRoom k cls).mem = s.mem := by
  simp [State.withRoom]

@[simp] theorem State.scribeFront_mem (run : Run) (s : State) (core : Nat) :
    (State.scribeFront run s core).mem = s.mem := by
  simp only [State.scribeFront]
  split
  · rfl
  · split <;> simp

@[simp] theorem State.scribeKeep_mem (run : Run) (s : State) (wave : Nat) : (State.scribeKeep run s wave).mem = s.mem := by
  unfold State.scribeKeep
  split <;> rfl

@[simp] theorem State.resetWaits_mem (run : Run) (s : State) (wave : Nat) : (State.resetWaits run s wave).mem = s.mem := rfl

@[simp] theorem State.passedOver_mem (s : State) : s.passedOver.mem = s.mem := rfl

/-! ### What a lane's instruction gives, loads and stores -/

@[simp] theorem Env.give_mem (e : Env) (s : State) (st : Strand) (d : Nat) (words : List (Word × Bool)) :
    (e.give s st d words).mem = s.mem := rfl

@[simp] theorem Env.giveLater_mem (e : Env) (s : State) (st : Strand) (id d n : Nat) :
    (e.giveLater s st id d n).mem = s.mem := rfl

@[simp] theorem Env.enqueue_mem (e : Env) (st : Strand) (unit : Nat) (dst : List (Nat × Word)) (flags : Flags) :
    (e.enqueue st unit dst flags).1.mem = e.s.mem := rfl

@[simp] theorem State.setAreaByte_mem (s : State) (areas : List Area) (writer off : Nat) (x : Byte) (poison : Bool) :
    (s.setAreaByte areas writer off x poison).mem = s.mem := by
  unfold State.setAreaByte
  split
  · rfl
  · split <;> rfl

@[simp] theorem State.scratchWrite_mem (s : State) (team off : Nat) (l : Marked) :
    (s.scratchWrite team off l).mem = s.mem := by
  simp [State.scratchWrite]

@[simp] theorem State.localWrite_mem (s : State) (team : Nat) (trailing : Bool) (writer : Nat) (loc : Loc)
    (l : Marked) : (s.localWrite team trailing writer loc l).mem = s.mem := by
  unfold State.localWrite
  split <;> simp [State.mem_foldl]

@[simp] theorem State.mixed_mem (s : State) (place : Nat → WordAt) (off : Nat) (l : Marked) :
    (s.mixed place off l).2.mem = s.mem := by
  simp only [State.mixed]
  split <;> simp

@[simp] theorem Env.retireWaiting_mem (e : Env) (s : State) (st : Strand) (wait : Option Nat) :
    (e.retireWaiting s st wait).mem = s.mem := by
  unfold Env.retireWaiting
  split <;> rfl

@[simp] theorem Env.startLoad_mem (e : Env) (s : State) (core va pa size d acquire pol : Nat) (signed : Bool) :
    (e.startLoad s core va pa size d acquire pol signed).2.mem = s.mem := rfl

@[simp] theorem Env.loadGlobal_mem (e : Env) (va pa n d scope pol : Nat) (signed acquire : Bool) :
    (e.loadGlobal va pa n d scope pol signed acquire).mem = e.s.mem := by
  simp only [Env.loadGlobal]
  split <;> simp

@[simp] theorem State.addStore_mem (s : State) (n : PendStore) : (s.addStore n).mem = s.mem := by
  unfold State.addStore
  split
  · rfl
  · split <;> simp

@[simp] theorem Env.storeLocal_mem (e : Env) (loc : Loc) (data : Marked) : (e.storeLocal loc data).mem = e.s.mem := by
  simp [Env.storeLocal]

@[simp] theorem Env.atomicEnter_mem (e : Env) (s : State) (va pa : Nat) (a : AtomicOp) (after : List Nat)
    (applied inBuffer : Bool) : (e.atomicEnter s va pa a after applied inBuffer).mem = s.mem := rfl

@[simp] theorem Env.fenceEnd_mem (e : Env) (s : State) (kind scope : Nat) (told : Bool) :
    (e.fenceEnd s kind scope told).mem = s.mem := by
  simp [Env.fenceEnd]

@[simp] theorem Env.prefetch_mem (e : Env) (r : HRec) (i level : Nat) : (e.prefetch r i level).mem = e.s.mem := by
  unfold Env.prefetch
  split
  · split
    · simp
    · exact State.getD_mem State.askWalk_mem
    · rfl
  · rfl

/-! ### Meets -/

@[simp] theorem State.grantMeet_mem (s : State) (wk : Nat) (w : Wave) (m : Meet) (record : HRec) :
    (s.grantMeet wk w m record).mem = s.mem := by
  unfold State.grantMeet
  split
  · rfl
  · next lead _ _ =>
    exact State.mem_foldl (s.setWave wk (meetWave w m m.presenters lead record)) (fun _ _ => by rfl) _

@[simp] theorem State.offerAt_mem (s : State) (wk : Nat) (w : Wave) (p : Presenter) (words : List Word) :
    (s.offerAt wk w p words).mem = s.mem := by
  unfold State.offerAt
  split <;> rfl

@[simp] theorem State.requestParts_mem (s : State) (k : Nat) (use : Nat → LoadUse) (l : List (Nat × Nat × Nat × Nat)) :
    (s.requestParts k use l).mem = s.mem :=
  State.mem_foldl _ (fun _ _ => by simp) _

@[simp] theorem State.fencewEnd_mem (s : State) (wk : Nat) (w : Wave) (m : Meet) (cores : List Nat) (above : Bool) :
    (s.fencewEnd wk w m cores above).mem = s.mem := by
  simp [State.fencewEnd, State.mem_foldl]

/-! ### Clocks, grows and matrix accesses -/

@[simp] theorem State.clockTick_mem (s : State) (core : Nat) : (s.clockTick core).2.mem = s.mem := by
  unfold State.clockTick
  split <;> rfl

@[simp] theorem Env.requestGrow_mem (e : Env) (n : Nat) (lane : GrowLane) : (e.requestGrow n lane).mem = e.s.mem := by
  simp only [Env.requestGrow]
  split
  · split
    · rfl
    · split <;> rfl
  · rfl

@[simp] theorem State.mxLanes_mem (s : State) (core id : Nat) (l : List MxLane) : (s.mxLanes core id l).mem = s.mem := by
  induction l generalizing s with
  | nil => rfl
  | cons x l ih =>
    rw [State.mxLanes, ih]
    split <;> simp

/-! ### Copies and tags -/

@[simp] theorem State.overlapped_mem (s : State) (c : Copy) (l : List CopyByte) : (s.overlapped c l).2.mem = s.mem := by
  unfold State.overlapped
  split
  · split <;> rfl
  · rfl

@[simp] theorem State.landLocal_mem (s : State) (team : Nat) (l : List (Nat × Byte × Bool)) :
    (s.landLocal team l).mem = s.mem :=
  State.mem_foldl _ (fun t r => by split <;> simp) _

@[simp] theorem State.setTag_mem (s : State) (b n : Nat) (t : CopyTag) : (s.setTag b n t).mem = s.mem := rfl

@[simp] theorem State.wakeTags_mem (s : State) (team : Nat) : (s.wakeTags team).mem = s.mem := by
  unfold State.wakeTags
  split
  · rfl
  · refine (State.mem_foldl _ (fun t k => ?_) _).trans (State.wake_mem _ _)
    split
    · split
      · split <;> simp
      · rfl
    · rfl

@[simp] theorem State.leaveFor_mem (s : State) (c : Copy) (block line : Nat) (cells : List Host.Cell) (count : Nat)
    (flags : Flags) (bad : Bool) : (s.leaveFor c block line cells count flags bad).2.mem = s.mem := by
  simp only [State.leaveFor]
  cases homeDie _ with
  | none => rfl
  | some h => dsimp only; split <;> rfl

@[simp] theorem State.finishCopy_mem (s : State) (b id : Nat) : (s.finishCopy b id).mem = s.mem := rfl

@[simp] theorem Env.giveRegion_mem (e : Env) (s : State) (d : Nat) (ws : List Word) :
    (e.giveRegion s d ws).mem = s.mem := rfl

/-! ### Barriers, clusters and accumulators -/

@[simp] theorem State.arriveAt_mem (s : State) (team b k : Nat) : (s.arriveAt team b k).mem = s.mem := rfl

@[simp] theorem State.wakeCluster_mem (s : State) (cl : Nat) : (s.wakeCluster cl).mem = s.mem :=
  State.mem_foldl _ (fun _ _ => by simp) _

@[simp] theorem State.shrinkWave_mem (s : State) (w n : Nat) : (s.shrinkWave w n).mem = s.mem := rfl

@[simp] theorem State.setAcc_mem (s : State) (t n : Nat) (a : Acc) : (s.setAcc t n a).mem = s.mem := rfl

@[simp] theorem Env.waRetire_mem (e : Env) (minor : Nat) (s : State) (st : Strand) :
    (e.waRetire minor s st).mem = s.mem := by
  unfold Env.waRetire
  split <;> rfl

/-! ### Placement and bank swaps -/

@[simp] theorem State.purgeWave_mem (s : State) (w : Nat) : (s.purgeWave w).mem = s.mem := rfl

@[simp] theorem State.takeContext_mem (s : State) (bank asid : Nat) : (s.takeContext bank asid).mem = s.mem := rfl

@[simp] theorem State.freshAreas_mem (s : State) (f : Fit) : (s.freshAreas f).mem = s.mem :=
  State.mem_foldl _ (fun _ _ => by simp) _

@[simp] theorem State.putTeam_mem (s : State) (g : Nat) (grid : Grid) (l : Launch) (f : Fit)
    (no teamId relaunches : Nat) (tasks : Option Tasks) (h : List HRec) (regs : Nat → Tbl Reg) :
    (s.putTeam g grid l f no teamId relaunches tasks h regs).mem = s.mem := by
  have hpurge : ∀ (l : List Nat) (t : State), (l.foldl State.purgeWave t).mem = t.mem :=
    fun l t => t.mem_foldl State.purgeWave_mem l
  have htake : ∀ (l : List Nat) (t : State), (l.foldl (fun t b => t.takeContext b grid.asid) t).mem = t.mem :=
    fun l t => t.mem_foldl (fun t b => t.takeContext_mem b grid.asid) l
  simp [State.putTeam, State.mem_foldl, hpurge, htake]

@[simp] theorem State.requestSwap_mem (s : State) (core : Nat) (reply : Option Nat) :
    (s.requestSwap core reply).mem = s.mem := by
  simp [State.requestSwap]

@[simp] theorem State.swapBack_mem (s : State) (core : Nat) : (s.swapBack core).mem = s.mem := by
  simp [State.swapBack]

@[simp] theorem State.endGwaits_mem (s : State) (grid status : Nat) : (s.endGwaits grid status).mem = s.mem :=
  State.mem_foldl _ (fun _ _ => by simp) _

/-! ### Gatherers, grids and rubric programs -/

@[simp] theorem State.deliverItems_mem (s : State) (core : Nat) : (s.deliverItems core).mem = s.mem := by
  simp only [State.deliverItems]
  split
  · rfl
  · refine State.mem_foldl _ (fun t p => ?_) _
    split
    · split <;> simp
    · rfl

@[simp] theorem State.releaseRefill_mem (s : State) (core : Nat) : (s.releaseRefill core).mem = s.mem := by
  refine State.mem_foldl _ (fun t p => ?_) _
  split
  · rfl
  · split
    · simp
    · split <;> simp
    · exact State.getD_mem State.askWalk_mem
    · rfl

@[simp] theorem State.ownGrid_mem (s : State) (l : Launch) (level : Nat) : (s.ownGrid l level).2.mem = s.mem := rfl

@[simp] theorem State.startRubric_mem (s : State) (die : Nat) (entry : VAddr) (digest : List Byte) (args : List Word) :
    (s.startRubric die entry digest args).mem = s.mem := by
  simp [State.startRubric]

@[simp] theorem State.endRubric_mem (s : State) (die : Nat) : (s.endRubric die).mem = s.mem := by
  unfold State.endRubric
  split
  · rfl
  · split <;> simp

@[simp] theorem State.streamDone_mem (s : State) (die base head status : Nat) (grid : Option Nat) :
    (s.streamDone die base head status grid).mem = s.mem := rfl

/-! ### The command port and saved contexts -/

@[simp] theorem Env.status_mem (e : Env) (s : State) (d x : Nat) : (e.status s d x).mem = s.mem := rfl

@[simp] theorem Env.statusLater_mem (e : Env) (s : State) (d id : Nat) (p : Pending) :
    (e.statusLater s d id p).mem = s.mem := rfl

@[simp] theorem State.dropEntries_mem (s : State) (kind asid vmid va : Nat) :
    (s.dropEntries kind asid vmid va).mem = s.mem := rfl

@[simp] theorem State.answerSwap_mem (s : State) (reply : Option Nat) (code : Nat) :
    (s.answerSwap reply code).mem = s.mem := by
  unfold State.answerSwap
  split
  · rfl
  · split <;> simp

@[simp] theorem State.rearm_mem (s : State) (bank : Nat) : (s.rearm bank).mem = s.mem := rfl

@[simp] theorem State.freeBank_mem (s : State) (bank : Nat) (x : Saved) : (s.freeBank bank x).mem = s.mem := rfl

@[simp] theorem Saved.restoreTiles_mem (x : Saved) (s : State) (bank : Nat) : (x.restoreTiles s bank).mem = s.mem := rfl

@[simp] theorem State.resumeStrand_mem (s : State) (k : Nat) (st : Strand) : (s.resumeStrand k st).mem = s.mem := by
  unfold State.resumeStrand
  split
  · split <;> simp
  · split
    · split <;> simp
    · rfl
  · rfl

@[simp] theorem State.restore_mem (s : State) (x : Saved) (bank : Nat) : (s.restore x bank).mem = s.mem := by
  simp [State.restore, State.mem_foldl]

/-! ### Arrivals -/

@[simp] theorem State.waitlineRead_mem (s : State) (w : Watch) (st : Strand) (l : Marked) :
    (s.waitlineRead w st l).mem = s.mem := by
  simp [State.waitlineRead]

@[simp] theorem State.grantMiss_mem (s : State) (id : Nat) : (s.grantMiss id).mem = s.mem := rfl

@[simp] theorem State.finishAtomic_mem (s : State) (a : Atomic) (old : Dword) (poison : Bool) :
    (s.finishAtomic a old poison).mem = s.mem := by
  simp [State.finishAtomic]

@[simp] theorem State.settled_mem (s : State) : s.settled.mem = s.mem :=
  State.mem_foldl _ (fun t p => by
    split
    · split <;> simp
    · rfl) _

@[simp] theorem State.takeClean_mem (s : State) (cores : List Nat) (line : Nat) :
    (s.takeClean cores line).mem = s.mem :=
  State.mem_foldl _ (fun _ _ => by simp) _

@[simp] theorem State.changeAtomic_mem (s : State) (a : Atomic) : (s.changeAtomic a).mem = s.mem := rfl

@[simp] theorem State.fetchedFrom_mem (s t : State) (core : Nat) : (s.fetchedFrom t core).mem = t.mem := rfl

@[simp] theorem Env.startArgs_mem (e : Env) (s : State) (st : Strand) (record : Nat) (pas : List Nat) :
    (e.startArgs s st record pas).1.mem = s.mem := by
  unfold Env.startArgs
  generalize pas.zipIdx = l
  induction l generalizing s st with
  | nil => rfl
  | cons p l ih => exact ih _ _

@[simp] theorem State.writeEverywhere_mem (s : State) (pa : Nat) (bytes : List Byte) :
    (s.writeEverywhere pa bytes).mem = (s.poke pa bytes).mem := by
  simp [State.writeEverywhere, State.mem_foldl]

end Sys2Proof.Machine
end

section
/-!
PROOFS. Keeping memory in its canonical form (R29, R337): the conditions that an action, an optional answer and an outcome
may keep, and the shared functions that do write memory or call one that does: records, the stops of a lane, writes that are
performed, and reads at their ordering point.
-/

namespace Sys2Proof.Safety

open Sys2Proof.Machine

/-! ### Answers that keep a condition -/

/-- Every result of an action satisfies a condition. -/
def Act.Gives {α : Type} (P : α → Prop) (x : Act α) : Prop := ∀ a, x = .ok a → P a

/-- Every result that an optional answer holds satisfies a condition. -/
def Opt.Gives {α : Type} (P : α → Prop) (x : Option α) : Prop := ∀ a, x = some a → P a

/-- The machine goes on only in states with memory in its canonical form. -/
structure Keeps (x : Out) : Prop where
  of_eq : ∀ {t : State}, x = .next t → MemoryOk t

section
variable {α β : Type} {P : α → Prop} {Q : β → Prop}

theorem Act.Gives.ok {a : α} (h : P a) : Act.Gives P (.ok a) := fun _ e => Except.ok.inj e ▸ h

theorem Act.Gives.error {x : Stop} : Act.Gives P (.error x) := nofun

theorem Act.Gives.of_eq {x : Act α} {a : α} (h : x = .ok a) (hx : Act.Gives P x) : P a := hx a h

theorem Act.Gives.bind {x : Act α} {f : α → Act β} (hx : Act.Gives P x) (hf : ∀ a, P a → Act.Gives Q (f a)) :
    Act.Gives Q (x >>= f) := fun b hb => by
  obtain ⟨a, ha, hb⟩ := Act.bind_eq_ok.mp hb
  exact hf a (hx a ha) b hb

/-- A part whose result does not matter. -/
theorem Act.Gives.any {x : Act α} {f : α → Act β} (hf : ∀ a, Act.Gives Q (f a)) : Act.Gives Q (x >>= f) :=
  Act.Gives.bind (P := fun _ => True) (fun _ _ => trivial) fun a _ => hf a

theorem Act.Gives.ite {c : Prop} [Decidable c] {x y : Act β} (hx : Act.Gives Q x) (hy : Act.Gives Q y) :
    Act.Gives Q (if c then x else y) := by
  split <;> assumption

/-- A part that is done only sometimes, and whose result does not matter. -/
theorem Act.Gives.anyWhen {c : Prop} [Decidable c] {x : Act Unit} {f : Unit → Act β} (hf : ∀ a, Act.Gives Q (f a)) :
    Act.Gives Q (if c then x >>= f else f ()) := by
  split
  · exact .any hf
  · exact hf ()

/-- One of two parts. -/
theorem Act.Gives.bindIf {c : Prop} [Decidable c] {x y : Act α} {f : α → Act β} (hx : Act.Gives P x) (hy : Act.Gives P y)
    (hf : ∀ a, P a → Act.Gives Q (f a)) : Act.Gives Q (if c then x >>= f else y >>= f) :=
  .ite (hx.bind hf) (hy.bind hf)

/-- One of two parts, whose results do not matter. -/
theorem Act.Gives.anyOf {c : Prop} [Decidable c] {x y : Act α} {f : α → Act β} (hf : ∀ a, Act.Gives Q (f a)) :
    Act.Gives Q (if c then x >>= f else y >>= f) := by
  split <;> exact .any hf

theorem Act.Gives.map {x : Act α} {f : α → β} (hx : Act.Gives (fun a => Q (f a)) x) : Act.Gives Q (x.map f) := by
  cases x with
  | error p => exact .error
  | ok a => exact .ok (hx a rfl)

theorem Act.Gives.imp {R : α → Prop} {x : Act α} (hx : Act.Gives P x) (h : ∀ a, P a → R a) : Act.Gives R x :=
  fun a ha => h a (hx a ha)

/-- A fold of actions keeps what each of its steps keeps. -/
theorem Act.Gives.foldlM {f : α → β → Act α} (hf : ∀ a b, P a → Act.Gives P (f a b)) (l : List β) {a : α}
    (ha : P a) : Act.Gives P (l.foldlM f a) := by
  induction l generalizing a with
  | nil => exact .ok ha
  | cons b l ih => exact (hf a b ha).bind fun c hc => ih hc

theorem Opt.Gives.some {a : α} (h : P a) : Opt.Gives P (some a) := fun _ e => Option.some.inj e ▸ h

theorem Opt.Gives.none : Opt.Gives P none := nofun

theorem Opt.Gives.of_eq {x : Option α} {a : α} (h : x = Option.some a) (hx : Opt.Gives P x) : P a := hx a h

theorem Opt.Gives.bind {x : Option α} {f : α → Option β} (hx : Opt.Gives P x) (hf : ∀ a, P a → Opt.Gives Q (f a)) :
    Opt.Gives Q (x >>= f) := fun b hb => by
  obtain ⟨a, ha, hb⟩ := Option.bind_eq_some_iff.mp hb
  exact hf a (hx a ha) b hb

/-- A part whose result does not matter. -/
theorem Opt.Gives.any {x : Option α} {f : α → Option β} (hf : ∀ a, Opt.Gives Q (f a)) : Opt.Gives Q (x >>= f) :=
  Opt.Gives.bind (P := fun _ => True) (fun _ _ => trivial) fun a _ => hf a

theorem Opt.Gives.ite {c : Prop} [Decidable c] {x y : Option β} (hx : Opt.Gives Q x) (hy : Opt.Gives Q y) :
    Opt.Gives Q (if c then x else y) := by
  split <;> assumption

theorem Opt.Gives.map {x : Option α} {f : α → β} (hx : Opt.Gives (fun a => Q (f a)) x) : Opt.Gives Q (x.map f) := by
  cases x with
  | none => exact .none
  | some a => exact .some (hx a rfl)

theorem Opt.Gives.imp {R : α → Prop} {x : Option α} (hx : Opt.Gives P x) (h : ∀ a, P a → R a) : Opt.Gives R x :=
  fun a ha => h a (hx a ha)

theorem Opt.Gives.getD {x : Option α} {a : α} (hx : Opt.Gives P x) (ha : P a) : P (x.getD a) := by
  cases x with
  | none => exact ha
  | some b => exact hx b rfl

theorem Opt.Gives.findSome? {f : β → Option α} (hf : ∀ b, Opt.Gives P (f b)) (l : List β) :
    Opt.Gives P (l.findSome? f) := fun a ha => by
  obtain ⟨b, -, hb⟩ := List.exists_of_findSome?_eq_some ha
  exact hf b a hb

end

section
variable {s : State}

/-- The canonical form is one of memory alone. -/
theorem MemoryOk.same {t : State} (hs : MemoryOk s) (e : t.mem = s.mem) : MemoryOk t := MemoryOk.of_mem hs e

theorem MemoryOk.ite {c : Prop} [Decidable c] {t : State} (hs : MemoryOk s) (ht : MemoryOk t) :
    MemoryOk (if c then s else t) := by
  split <;> assumption

/-- A fold keeps the canonical form that each of its steps keeps. -/
theorem MemoryOk.foldl {α : Type} {f : State → α → State} (hs : MemoryOk s)
    (hf : ∀ t x, MemoryOk t → MemoryOk (f t x)) (l : List α) : MemoryOk (l.foldl f s) := by
  induction l generalizing s with
  | nil => exact hs
  | cons x l ih => exact ih (hf s x hs)

theorem Keeps.next (hs : MemoryOk s) : Keeps (.next s) := ⟨fun h => Host.Outcome.next.inj h ▸ hs⟩

theorem Keeps.fault {r : Fault} : Keeps (.fault r) := ⟨fun h => by cases h⟩

theorem eventStep_keeps {f : State → Option State} (hs : MemoryOk s) (hf : Opt.Gives MemoryOk (f s)) :
    Keeps (eventStep s f) := by
  unfold eventStep
  split
  · next t ht => exact .next (hf t ht)
  · exact .next hs

end

/-! ### Records, and the death of teams and grids -/

section
variable {s : State}

theorem MemoryOk.writeEverywhere {pa : Nat} {bytes : List Byte} (hs : MemoryOk s) :
    MemoryOk (s.writeEverywhere pa bytes) :=
  MemoryOk.of_mem (MemoryOk.poke hs pa bytes) (s.writeEverywhere_mem pa bytes)

theorem MemoryOk.ringPut {reg : Dword} {record : List Byte} (hs : MemoryOk s) : Opt.Gives MemoryOk (s.ringPut reg record) := by
  simp only [State.ringPut]
  split
  · exact .none
  · split
    · exact .some hs.writeEverywhere.writeEverywhere
    · exact .none

theorem MemoryOk.flushErrors {l : List ErrorRec} (hs : MemoryOk s) : MemoryOk (s.flushErrors l) := by
  induction l generalizing s with
  | nil => exact hs.same rfl
  | cons r l ih =>
    unfold State.flushErrors
    split
    · next t ht => exact ih ((hs.ringPut t ht).same rfl)
    · exact hs.same rfl

theorem MemoryOk.flushHeld (hs : MemoryOk s) : MemoryOk s.flushHeld := hs.flushErrors

theorem MemoryOk.withDevice {d : Device} (hs : MemoryOk s) : MemoryOk { s with device := d } := hs

theorem MemoryOk.wake {core : Nat} (hs : MemoryOk s) : MemoryOk (s.wake core) := hs.same (s.wake_mem core)

theorem MemoryOk.rouse {core : Nat} (hs : MemoryOk s) : MemoryOk (s.rouse core) := hs.same (s.rouse_mem core)

theorem MemoryOk.deliver {k id d : Nat} {words : List (Word × Bool)} (hs : MemoryOk s) :
    MemoryOk (s.deliver k id d words) := hs.same (by simp)

theorem MemoryOk.errorRecord {r : ErrorRec} (hs : MemoryOk s) : MemoryOk (s.errorRecord r) := by
  simp only [State.errorRecord]
  split
  · exact .flushErrors (.flushHeld (hs.same rfl))
  · exact .withDevice (.flushHeld (hs.same rfl))

theorem MemoryOk.abortGrid {g code : Nat} {r : ErrorRec} (hs : MemoryOk s) : MemoryOk (s.abortGrid g code r) := by
  unfold State.abortGrid
  refine MemoryOk.foldl (hs.same ?_) (fun t h ht => ht.errorRecord) _
  simp [State.mem_foldl]

theorem MemoryOk.killTeam {t code : Nat} {r : ErrorRec} (hs : MemoryOk s) : MemoryOk (s.killTeam t code r) := by
  unfold State.killTeam
  split
  · exact hs
  · dsimp only
    split
    · exact (hs.same (by simp)).errorRecord
    · exact hs.abortGrid

/-! ### The stops of a lane -/

theorem MemoryOk.sendFault {cl : Nat} {r : FaultRec} (hs : MemoryOk s) : Opt.Gives MemoryOk (s.sendFault cl r) := by
  unfold State.sendFault
  extract_lets c reg hold
  split
  · exact .none
  · split
    · exact .some (hs.same rfl)
    · exact .some (hs.ringPut.getD (hs.same rfl))

theorem MemoryOk.park {k grid code va kind reason stage level ipa vmid : Nat} (hs : MemoryOk s) :
    MemoryOk (s.park k grid code va kind reason stage level ipa vmid) := by
  unfold State.park
  split
  · exact hs
  · dsimp only
    split
    · next t ht => exact Opt.Gives.of_eq ht (MemoryOk.sendFault (hs.same rfl))
    · exact .abortGrid (hs.same rfl)

theorem MemoryOk.trap {k grid code arg : Nat} {va : Dword} {skip : VAddr} (hs : MemoryOk s) :
    MemoryOk (s.trap k grid code arg va skip) := by
  unfold State.trap
  split
  · exact hs
  · dsimp only
    split
    · exact hs.abortGrid
    · split
      · exact hs.abortGrid
      · split <;> exact hs.same rfl

theorem MemoryOk.parityError {k n : Nat} (hs : MemoryOk s) : MemoryOk (s.parityError k n) := by
  unfold State.parityError
  split
  · split
    · exact hs.killTeam
    · exact hs.same rfl
  · exact hs

theorem MemoryOk.walkError {asid : Nat} {r : ErrorRec} (hs : MemoryOk s) : MemoryOk (s.walkError asid r) :=
  hs.foldl (fun _ _ ht => ht.abortGrid) _

theorem MemoryOk.stop {e : Env} {x : Stop} (hs : MemoryOk s) : MemoryOk (s.stop e x) := by
  cases x with
  | fault code arg va => exact hs.trap
  | park code va kind reason stage level ipa vmid => exact hs.park
  | walkErr => exact hs.walkError
  | poison => exact hs.killTeam
  | parity n => exact hs.parityError
  | hold => exact hs
  | walk va =>
    simp only [State.stop]
    split <;> exact hs.same rfl

/-- A lane's instruction keeps the canonical form when its meaning does; its stops do. -/
theorem runLane_keeps {f : Env → Act State} (hs : MemoryOk s) (hf : ∀ e, MemoryOk e.s → Act.Gives MemoryOk (f e)) :
    Keeps (runLane s f) := by
  unfold runLane
  split
  · exact .fault
  · next e he =>
    split
    · next t ht => exact .next (hf e (env_s he ▸ hs) t ht)
    · exact .next hs.stop

/-- An instruction that changes its own strand alone keeps memory. -/
theorem laneStep_keeps {f : Env → Act Strand} (hs : MemoryOk s) : Keeps (laneStep s f) :=
  runLane_keeps hs fun _ he => .any fun _ => .ok (he.same rfl)

/-! ### Writes that are performed -/

theorem MemoryOk.writeMasked {cells : List Host.Cell} (hs : MemoryOk s) : MemoryOk (s.writeMasked cells) :=
  MemoryOk.of_mem (MemoryOk.pokeAll hs cells) (s.writeMasked_mem cells)

theorem MemoryOk.performAt {id home writer : Nat} {stamp : List Nat} {cells : List Host.Cell} (hs : MemoryOk s) :
    MemoryOk (s.performAt id home writer stamp cells) := by
  unfold State.performAt
  split
  · exact hs
  · next pa b l => exact (hs.writeMasked (cells := (pa, b) :: l)).same (by simp)

theorem MemoryOk.performNow {id : Nat} {cells : List Host.Cell} (hs : MemoryOk s) : MemoryOk (s.performNow id cells) :=
  MemoryOk.of_mem (MemoryOk.pokeAll hs cells) (s.performNow_mem id cells)

theorem MemoryOk.performAll (hs : MemoryOk s) {id : Nat} (l : List (List Host.Cell)) :
    MemoryOk (l.foldl (fun s c => s.performNow id c) s) :=
  hs.foldl (fun _ _ ht => ht.performNow) l

theorem MemoryOk.joinHost {die : Nat} (hs : MemoryOk s) : MemoryOk (s.joinHost die) := hs.same (s.joinHost_mem die)

theorem MemoryOk.performFlight {f : Flight} (hs : MemoryOk s) : Opt.Gives MemoryOk (s.performFlight f) := by
  unfold State.performFlight
  split
  · exact .none
  · extract_lets gone single rest
    have hr : MemoryOk rest := hs.same (by simp [rest, single, gone])
    split
    · refine .some ?_
      split
      · exact hr
      · exact .joinHost (.performNow (hr.same (by simp)))
    · split
      · exact .some hr.performNow
      · split
        · exact .some hr.performAt
        · exact .none

/-! ### Reads at their ordering point -/

/-- The state that a read leaves. -/
abbrev ReadOk (x : List Byte × Bool × State) : Prop := MemoryOk x.2.2

theorem MemoryOk.applyUpdate {home die : Nat} (hs : MemoryOk s) : Opt.Gives MemoryOk (s.applyUpdate home die) := by
  unfold State.applyUpdate
  split
  · exact .none
  · dsimp only
    split
    · refine .some ?_
      split <;> exact hs.same (by simp)
    · exact .none

theorem MemoryOk.serveBelow {die : Nat} {cluster : Option Nat} {pa n : Nat} {clock : List Nat} {point : Bool}
    (hs : MemoryOk s) : Opt.Gives ReadOk (s.serveBelow die cluster pa n clock point) := by
  have hcount : ∀ t, MemoryOk t →
      MemoryOk (match cluster with | some c => t.noteRequest pa c | none => t) := fun t ht => by
    split
    · exact ht.same (by simp)
    · exact ht
  simp only [State.serveBelow]
  split
  · split
    · exact .some hs
    · exact .none
  · split
    · exact .some (hcount s hs)
    · split
      · exact .some hs
      · split
        · exact .some (hcount _ (hs.same rfl))
        · exact .none

theorem MemoryOk.readFor {owned : Bool} {strand core pa n acquire pol : Nat} {clock : List Nat} {since : Nat}
    (hs : MemoryOk s) : Opt.Gives ReadOk (s.readFor owned strand core pa n acquire pol clock since) := by
  simp only [State.readFor]
  split
  · exact .none
  · split
    · exact .some (hs.same (by simp))
    · split
      · exact .none
      · next b p t ht =>
        exact .some ((hs.serveBelow _ ht).same (by simp))

theorem MemoryOk.globalRead {strand core pa n acquire pol : Nat} {clock : List Nat} {since : Nat} (hs : MemoryOk s) :
    Opt.Gives ReadOk (s.globalRead strand core pa n acquire pol clock since) :=
  hs.readFor

theorem MemoryOk.readLoad {l : Load} (hs : MemoryOk s) : Opt.Gives ReadOk (s.readLoad l) := by
  unfold State.readLoad
  dsimp only
  split
  · have hkeep : ∀ x : List Byte × Bool × State, ReadOk x → MemoryOk (if x.2.1 then s else x.2.2) := fun x hx => by
      split <;> assumption
    split
    · exact hs.globalRead.bind fun x hx => .some (hkeep x hx)
    · split
      · exact .none
      · exact hs.serveBelow.bind fun x hx => .some (hkeep x hx)
  · exact hs.globalRead

theorem MemoryOk.askWalk {who : Walker} {core asid va : Nat} (hs : MemoryOk s) :
    Opt.Gives MemoryOk (s.askWalk who core asid va) := fun _ ht => hs.same (State.askWalk_mem ht)

theorem MemoryOk.walked {w : Walk} (hs : MemoryOk s) : MemoryOk (s.walked w) := by
  simp only [State.walked]
  split
  · refine hs.same ?_
    split
    · split <;> simp [State.mem_foldl]
    · simp [State.mem_foldl]
  · exact hs.same (by simp [State.mem_foldl])
  · exact hs
  · split
    · exact hs.same (by simp [State.mem_foldl])
    · exact MemoryOk.walkError (hs.same (by simp [State.mem_foldl]))

end

end Sys2Proof.Safety
end

section
/-!
PROOFS. Instructions at a lane keep memory in its canonical form: redundant pairs, the units, loads, stores and atomics, groups,
control, the matrix and copy engines, teams, and work accumulators.
-/

namespace Sys2Proof.Safety

open Sys2Proof.Machine

/-! ### Redundant pairs -/

section
variable {s : State} {e : Env}

theorem MemoryOk.mismatchAt {ks : List Nat} (hs : MemoryOk s) : MemoryOk (s.mismatchAt ks) := by
  unfold State.mismatchAt
  split
  · exact hs
  · split
    · exact hs
    · exact .killTeam (hs.same rfl)

theorem MemoryOk.mismatch (hs : MemoryOk s) : MemoryOk (s.mismatch e) := by
  unfold State.mismatch
  split
  · exact hs.same rfl
  · exact hs.mismatchAt

theorem MemoryOk.shared {x : Act State} (hx : Act.Gives MemoryOk x) (he : MemoryOk e.s) :
    Act.Gives MemoryOk (e.shared x) := by
  unfold Env.shared
  split
  · split
    · exact .ok (.stop (he.same rfl))
    · exact hx
  · exact hx

theorem MemoryOk.takeValue {take : List (Word × Bool) → State → Act State}
    (ht : ∀ ws s, MemoryOk s → Act.Gives MemoryOk (take ws s)) (he : MemoryOk e.s) :
    Act.Gives MemoryOk (e.takeValue take) := by
  unfold Env.takeValue
  split
  · exact .error
  · split
    · exact .error
    · dsimp only
      split
      · exact .ok he.mismatch
      · split
        · exact .error
        · split
          · exact .ok (.stop (he.same rfl))
          · exact ht _ _ (he.same rfl)

theorem MemoryOk.follow {st : Strand} {d : Nat} (he : MemoryOk e.s) : Act.Gives MemoryOk (e.follow st d) :=
  .takeValue (fun _ _ hs => .ok (hs.same rfl)) he

theorem MemoryOk.once {req : List Word} {act : Env → Act State} {trail : List (Word × Bool) → State → Act State}
    (hact : ∀ e, MemoryOk e.s → Act.Gives MemoryOk (act e))
    (htrail : ∀ ws s, MemoryOk s → Act.Gives MemoryOk (trail ws s)) (he : MemoryOk e.s) :
    Act.Gives MemoryOk (e.once req act trail) := by
  unfold Env.once
  split
  · exact hact e he
  · split
    · split
      · exact .error
      · split
        · exact .takeValue htrail he
        · split
          · exact .ok he.mismatch
          · split
            · exact .error
            · exact .ok (he.same rfl)
        · exact .error
    · split
      · exact .shared (hact _ he) he
      · split
        · exact .error
        · split
          · exact .error
          · split
            · exact .error
            · exact .ok (he.same rfl)

theorem MemoryOk.compared {req : List Word} {act : Env → Act State} {trail : State → Act State}
    (hact : ∀ e, MemoryOk e.s → Act.Gives MemoryOk (act e)) (htrail : ∀ s, MemoryOk s → Act.Gives MemoryOk (trail s))
    (he : MemoryOk e.s) : Act.Gives MemoryOk (e.compared req act trail) := by
  unfold Env.compared
  split
  · exact hact e he
  · split
    · split
      · exact .error
      · split
        · exact .takeValue (fun _ _ hs => .ok hs) he
        · exact .error
        · split
          · exact .ok he.mismatch
          · exact htrail _ (he.same rfl)
    · exact hact _ he

end

/-! ### The queues of the units (R84, R111, R112) -/

section
variable {s : State}

theorem divide_keeps {d a b : BitVec 7} {f : Word → Word → Word} (hs : MemoryOk s) : Keeps (divide s d a b f) :=
  runLane_keeps hs fun _ he => .any fun _ => .any fun _ => .ok (he.same rfl)

theorem sfuOp_keeps {op : Nat} {d a b : BitVec 7} (hs : MemoryOk s) : Keeps (sfuOp s op d a b) := by
  refine runLane_keeps hs fun e he => .any fun _ => .any fun _ => ?_
  split <;> exact .any fun _ => .ok (he.same rfl)

theorem cvtOp_keeps {kind : Nat} {d a : BitVec 7} {y x : BitVec 3} (hs : MemoryOk s) : Keeps (cvtOp s kind d a y x) :=
  runLane_keeps hs fun _ he => .any fun _ => .any fun _ => .any fun _ => .ok (he.same rfl)

theorem execPack2_keeps {d a : BitVec 7} {k : BitVec 1} {y x : BitVec 3} (hs : MemoryOk s) : Keeps (execPack2 d a k y x s) :=
  runLane_keeps hs fun _ he => .any fun _ => .any fun _ => .any fun _ => .ok (he.same rfl)

theorem execUnpack2_keeps {d a : BitVec 7} {k : BitVec 1} {y x : BitVec 3} (hs : MemoryOk s) :
    Keeps (execUnpack2 d a k y x s) :=
  runLane_keeps hs fun _ he => .any fun _ => .any fun _ => .any fun _ => .ok (he.same rfl)

end

/-! ### Loads, stores and atomics -/

section
variable {s : State} {e : Env}

/-- A drain for a register area leaves the machine as it is. -/
theorem Env.areaDrained_s {r : HRec} : Act.Gives (fun e' : Env => e'.s = e.s) (e.areaDrained r) := by
  unfold Env.areaDrained
  split
  · split
    · exact .ok rfl
    · exact .error
  · exact .ok rfl

theorem MemoryOk.areaLoad {d n : Nat} {signed : Bool} {off : Nat} (he : MemoryOk e.s) :
    Act.Gives MemoryOk (e.areaLoad d n signed off) := by
  unfold Env.areaLoad
  dsimp only
  split
  · exact .error
  · exact .ok (he.same (by simp))

theorem load_keeps {d : BitVec 7} {h : BitVec 4} {a : BitVec 7} {field : BitVec 3} {signed acquire : Bool} (hs : MemoryOk s) :
    Keeps (load s d h a field signed acquire) := by
  refine runLane_keeps hs fun e he => .any fun _ => .any fun _ => .any fun r => .any fun _ => .any fun _ =>
    Env.areaDrained_s.bind fun e' heq => ?_
  replace he : MemoryOk e'.s := heq ▸ he
  split
  · exact he.follow
  · refine he.shared (.any fun _ => .any fun loc => ?_)
    split
    · exact .any fun _ => .ok (he.same rfl)
    · exact .any fun _ => .any fun _ => .ok (he.same (by simp))
    · dsimp only
      exact .any fun _ => .ok (he.same (by simp))
    · exact .any fun _ => .areaLoad (he.same rfl)

theorem MemoryOk.commitPoint (hs : MemoryOk s) : Act.Gives MemoryOk (e.commitPoint s) := by
  unfold Env.commitPoint
  split
  · exact .error
  · split
    · split
      · exact .ok (hs.same (by simp))
      · exact .error
    · exact .ok hs

/-- A commit point where one is needed, and what follows it. -/
theorem MemoryOk.commitPoint_then {c : Prop} [Decidable c] {f : State → Act State}
    (hf : ∀ t, MemoryOk t → Act.Gives MemoryOk (f t)) (hs : MemoryOk s) :
    Act.Gives MemoryOk (if c then e.commitPoint s >>= f else f s) := by
  split
  · exact hs.commitPoint.bind hf
  · exact hf s hs

theorem MemoryOk.storeGlobal {va pa : Nat} {bytes : List Byte} {scope pol : Nat} {release : Bool} (he : MemoryOk e.s) :
    Act.Gives MemoryOk (e.storeGlobal va pa bytes scope pol release) := by
  have hfin : ∀ t, MemoryOk t → MemoryOk (if scope = 6 then e.retireRegion t e.st else e.retire t e.st) := fun t ht =>
    ht.same (by simp)
  have hnote : MemoryOk (if pol = 3 then e.s else e.s.noteAccess e.lane 1 bytes.length va false) := he.same (by simp)
  unfold Env.storeGlobal
  dsimp only
  split
  · exact .any fun _ => .any fun _ => .ok (hfin _ (hnote.same (State.bufferStore_mem _ _ _ _)))
  · exact .commitPoint_then (fun t ht => .ok (hfin _ (ht.same (by simp)))) hnote

theorem store_keeps {x : BitVec 7} {h : BitVec 4} {a : BitVec 7} {field : BitVec 3} {release : Bool} (hs : MemoryOk s) :
    Keeps (store s x h a field release) := by
  refine runLane_keeps hs fun e he => .any fun _ => .any fun r => .any fun _ => .any fun _ =>
    Env.areaDrained_s.bind fun e' heq => .any fun _ => .any fun _ => .any fun loc => ?_
  replace he : MemoryOk e'.s := heq ▸ he
  dsimp only
  split
  · exact .any fun _ => he.compared (fun e he => .ok (he.same rfl)) fun s hs => .ok (hs.same rfl)
  · split
    · exact he.once (fun e he => .map (.any fun _ => .any fun _ => he.storeGlobal.imp fun _ ht => ht.same rfl))
        fun _ s hs => .ok (hs.same (by simp))
    · exact he.compared (fun e he => .any fun _ => .any fun _ => he.storeGlobal) fun s hs => .ok (hs.same (by simp))
  · refine .any fun _ => .any fun _ => he.compared (fun e he => .ok (he.same (by simp))) fun s hs => .ok ?_
    split
    · exact hs.same (Env.storeLocal_mem _ _ _)
    · exact hs.same rfl

theorem MemoryOk.laneAtomicDies {pa : Nat} (he : MemoryOk e.s) : MemoryOk (e.atomicDies pa) := he.killTeam

theorem MemoryOk.atomicSend {va pa : Nat} {a : AtomicOp} (he : MemoryOk e.s) : Act.Gives MemoryOk (e.atomicSend va pa a) := by
  unfold Env.atomicSend
  dsimp only
  exact .any fun _ => .any fun _ => .commitPoint_then (fun t ht => .ok (ht.same (by simp [State.mem_foldl]))) he

theorem MemoryOk.atomicBuffer {va pa : Nat} {a : AtomicOp} (he : MemoryOk e.s) : Act.Gives MemoryOk (e.atomicBuffer va pa a) :=
  .any fun _ => .ok (he.same rfl)

theorem atom_keeps {op : Nat} {rbit : BitVec 1} {d : BitVec 7} {h : BitVec 4} {a : BitVec 7} {field : BitVec 3}
    (hs : MemoryOk s) : Keeps (atom s op rbit d h a field) := by
  refine runLane_keeps hs fun e he => .any fun _ => .any fun r => .any fun _ => .any fun _ => .any fun _ =>
    .any fun _ => .any fun _ => .any fun loc => ?_
  dsimp only
  split
  · exact .any fun _ => he.once (fun e he => .ok (he.same rfl)) fun _ s hs => .ok (hs.same rfl)
  · refine he.once (fun e he => .any fun _ => .any fun _ => ?_) fun _ s hs => .ok (hs.same rfl)
    split
    · exact he.atomicBuffer
    · split
      · exact .ok he.laneAtomicDies
      · exact he.atomicSend
  · refine .any fun _ => .any fun _ => he.once (fun e he => ?_) fun _ s hs => .ok (hs.same rfl)
    split
    · exact .error
    · exact .ok (he.same (by simp [Env.atomicNow]))

/-! ### Fences and cache operations -/

theorem fence_keeps {kind : Nat} {scope : BitVec 3} (hs : MemoryOk s) : Keeps (fence s kind scope) := by
  refine runLane_keeps hs fun e he => ?_
  have hend : ∀ (e : Env) (t : State) (told : Bool), MemoryOk t → MemoryOk (e.fenceEnd t kind scope.toNat told) :=
    fun e t told ht => ht.same (by simp)
  extract_lets n above wait start
  have hstart : ∀ e, MemoryOk e.s → Act.Gives MemoryOk (start e) := fun e he => by
    simp only [start]
    split
    · exact .ok (hend _ _ _ he)
    · refine .commitPoint_then (fun t ht => ?_) he
      split
      · exact .ok (hend _ _ _ (ht.same (by simp)))
      · exact .ok (ht.same (by simp))
  clear_value start wait
  split
  · exact .any fun _ => .ok (hend _ _ _ he)
  · refine .any fun _ => ?_
    split
    · exact he.once hstart fun _ s hs => .ok (hs.same rfl)
    · exact hstart e he

theorem cacheOp_keeps {h : BitVec 4} {a : BitVec 7} {scope : BitVec 3} {drop : Bool} (hs : MemoryOk s) :
    Keeps (cacheOp s h a scope drop) := by
  refine runLane_keeps hs fun e he => .any fun _ => .any fun r => .any fun _ => .any fun _ => ?_
  dsimp only
  split
  · exact .ok (he.same rfl)
  · refine .any fun loc => ?_
    split
    · exact .any fun _ => .any fun _ => .any fun _ => .ok (he.same (by simp [State.mem_foldl]))
    · exact .any fun _ => .ok (he.same rfl)

end

/-! ### Group instructions (R179 to R194) -/

section
variable {s : State} {e : Env}

theorem MemoryOk.meetFault {wk : Nat} {w : Wave} {m : Meet} {x : Stop} (hs : MemoryOk s) :
    MemoryOk (s.meetFault wk w m x) := by
  unfold State.meetFault
  dsimp only
  refine MemoryOk.foldl (hs.same ?_) (fun t p ht => ?_) _
  · rfl
  split
  · exact .trap (ht.same (by simp))
  · exact .park (ht.same (by simp))
  · exact ht.same (by simp)

theorem MemoryOk.leadValue {wk : Nat} {w : Wave} {p : Presenter} (hs : MemoryOk s) :
    Opt.Gives (fun x => MemoryOk x.2) (s.leadValue wk w p) := by
  simp only [State.leadValue]
  split
  · split
    · split
      · exact .some hs.mismatchAt
      · split
        · exact .none
        · exact .some (hs.same rfl)
    · exact .none
  · exact .none

theorem MemoryOk.hldMeet {wk : Nat} {w : Wave} {m : Meet} (hs : MemoryOk s) : Opt.Gives MemoryOk (s.hldMeet wk w m) := by
  unfold State.hldMeet
  split
  · exact .none
  · extract_lets k dies i fault
    split
    · split
      · exact .none
      · next t ht => exact .some (hs.leadValue _ ht)
      · next t ht =>
        replace ht : MemoryOk t := hs.leadValue _ ht
        split
        · exact .some (ht.same (by simp))
        · exact .some ht.meetFault
    · have hfault : ∀ t x, MemoryOk t → Opt.Gives MemoryOk (fault t x) := fun t x ht =>
        .some (.meetFault (ht.same (by simp)))
      have hdies : MemoryOk (dies s) := hs.killTeam
      clear_value fault dies
      dsimp only
      split
      · exact hfault s _ hs
      · split
        · split
          · exact .none
          · split
            · exact hs.askWalk
            · exact .some hs.walkError
            · exact hfault s _ hs
            · exact .some (hs.same (State.requestParts_mem ..))
        · split
          · exact hfault s _ hs
          · split
            · exact .some hdies
            · exact .some (hs.same (by simp))

theorem MemoryOk.fencewFollow {wk : Nat} {w : Wave} {l : List Presenter} (hs : MemoryOk s) :
    Opt.Gives (fun x => MemoryOk x.2) (s.fencewFollow wk w l) := by
  induction l generalizing s with
  | nil => exact .some hs
  | cons p l ih =>
    unfold State.fencewFollow
    split
    · exact .none
    · next t ht => exact .some (hs.leadValue _ ht)
    · next t ht => exact ih (hs.leadValue _ ht)

theorem MemoryOk.fencewMeet {wk : Nat} {w : Wave} {m : Meet} (hs : MemoryOk s) :
    Opt.Gives MemoryOk (s.fencewMeet wk w m) := by
  unfold State.fencewMeet
  extract_lets core cores ks wide above met sent t revision asks applied
  have ht : MemoryOk t := hs.same (by simp [t, sent])
  clear_value met t
  split
  · split
    · exact .none
    · exact .some (hs.same (by simp))
  · split
    · exact .none
    · split
      · split
        · exact .none
        · next t ht => exact .some (hs.fencewFollow _ ht)
        · next t ht => exact .some ((hs.fencewFollow _ ht).same (by simp))
      · split
        · exact .none
        · split
          · exact .some (hs.same (by simp))
          · split <;> exact .some (ht.same (by simp))

theorem MemoryOk.finishMeet {wk : Nat} {w : Wave} {m : Meet} (hs : MemoryOk s) :
    Opt.Gives MemoryOk (s.finishMeet wk w m) := by
  unfold State.finishMeet
  split
  · exact hs.fencewMeet
  · split
    · exact hs.hldMeet
    · split
      · exact .none
      · dsimp only
        split
        · exact .some hs.meetFault
        · split
          · exact .some hs.killTeam
          · exact .some (hs.same (by simp))

theorem MemoryOk.tryMeet {wk id : Nat} (hs : MemoryOk s) : MemoryOk (s.tryMeet wk id) := by
  unfold State.tryMeet
  split
  · exact hs
  · split
    · exact hs
    · split
      · exact Opt.Gives.getD (MemoryOk.finishMeet (hs.same rfl)) (hs.same rfl)
      · exact hs

theorem MemoryOk.tryMeets {wk : Nat} (hs : MemoryOk s) : MemoryOk (s.tryMeets wk) := by
  unfold State.tryMeets
  split
  · exact hs
  · exact hs.foldl (fun _ _ ht => ht.tryMeet) _

theorem MemoryOk.firstMeet {wk : Nat} (hs : MemoryOk s) (l : List Meet) : Opt.Gives MemoryOk (firstMeet s wk l) := by
  induction l with
  | nil => exact .none
  | cons m l ih =>
    simp only [Machine.firstMeet]
    split
    · exact ih
    · exact .some hs.tryMeet

theorem execMeetComplete_keeps {wave : Nat} {key : List Byte} (hs : MemoryOk s) : Keeps (execMeetComplete wave key s) := by
  refine eventStep_keeps hs ?_
  split
  · exact .map (Opt.Gives.imp (hs.firstMeet _) fun _ ht => ht.same (by simp))
  · exact .none

theorem MemoryOk.groupFault {a : Ask} {code : Nat} (he : MemoryOk e.s) : MemoryOk (e.groupFault a code) :=
  .stop (he.same (by simp))

theorem present_keeps {a : Ask} {reads : Env → Act (List (Word × Bool) × Bool)} {eats : List (Word × Bool) → Bool}
    (hs : MemoryOk s) : Keeps (present s a reads eats) := by
  refine runLane_keeps hs fun e he => ?_
  dsimp only
  refine .anyWhen fun _ => .any fun _ => .anyOf fun kv => .any fun _ => .ite (.ok he.groupFault) (.ite (.ok he.groupFault)
    (.any fun _ => .ok (.tryMeet (he.same ?_))))
  cases (if e.st.handler.isSome = true then none else _ : Option Meet) <;> rfl

end

/-! ### Control, waits and exits -/

section
variable {s : State} {e : Env}

theorem execPref_keeps {h : BitVec 4} {a : BitVec 7} {y : BitVec 3} (hs : MemoryOk s) : Keeps (execPref h a y s) := by
  refine runLane_keeps hs fun e he => .any fun _ => .any fun r => .any fun _ => ?_
  split
  · exact .ok (he.same (by simp))
  · exact .ok (he.same (by simp))
  · exact .ok (he.same (by simp))
  · exact .error

theorem execWaitline_keeps {d : BitVec 7} {h : BitVec 4} {a : BitVec 7} {y : BitVec 3} (hs : MemoryOk s) :
    Keeps (execWaitline d h a y s) := by
  refine runLane_keeps hs fun e he => .any fun _ => .any fun _ => .any fun r => .any fun _ => .any fun _ => .any fun _ => ?_
  split
  · exact he.follow
  · refine he.shared (.any fun _ => .any fun _ => .any fun loc => ?_)
    dsimp only
    split
    · exact .any fun _ => .ok (he.same (by simp))
    · exact .any fun _ => .any fun _ => .ok (he.same rfl)
    · exact .any fun _ => .ite (.ok (he.same (by simp))) (.ok (he.same rfl))

theorem execWaitlineWake_keeps {strand : Nat} (hs : MemoryOk s) : Keeps (execWaitlineWake strand s) := by
  refine eventStep_keeps hs (.any fun w => .any fun st => ?_)
  dsimp only
  refine .any fun _ => .any fun _ => ?_
  split
  · exact .some (hs.same (by simp))
  · split
    · exact .some (hs.same (by simp))
    · exact .some (.park (hs.same rfl))
    · exact .some hs.walkError
    · exact hs.askWalk
    · exact .none

theorem execRdsr_keeps {t : BitVec 1} {d : BitVec 7} {n : BitVec 14} (hs : MemoryOk s) : Keeps (execRdsr t d n s) := by
  refine runLane_keeps hs fun e he => ?_
  dsimp only
  refine .any fun _ => .ite (.takeValue (fun _ _ ht => .ok (ht.same (by simp))) he) (.anyWhen fun _ => .ok (he.same ?_))
  split <;> simp

theorem MemoryOk.growLane {wave : Nat} {w : Wave} {issue : Nat} {ok : Bool} {l : GrowLane} (hs : MemoryOk s) :
    MemoryOk (s.growLane wave w issue ok l) := by
  unfold State.growLane
  dsimp only
  split
  · exact hs
  · split
    · exact hs.same rfl
    · refine .ite (hs.same rfl) (.trap (hs.same ?_))
      rfl

theorem MemoryOk.finishGrow {wave : Nat} {ok : Bool} (hs : MemoryOk s) : MemoryOk (s.finishGrow wave ok) := by
  unfold State.finishGrow
  split
  · exact hs
  · split
    · exact hs
    · refine MemoryOk.foldl (hs.same ?_) (fun t l ht => ht.growLane) _
      split <;> simp

theorem MemoryOk.call {l : BitVec 4} {t : VAddr} {use : Act Unit} (he : MemoryOk e.s) :
    Act.Gives MemoryOk (e.call l t use) := by
  unfold Env.call
  refine .any fun _ => .any fun need => .any fun _ => .any fun _ => .any fun _ => ?_
  refine .ite (.ok (he.same (by simp))) (he.once (fun e he => .ite (.ok (he.same (by simp))) (.ok (he.same (by simp))))
    fun ws s hs => .ite (.ok (hs.same (by simp))) (.ok (.trap (hs.same rfl))))

theorem MemoryOk.exitStrand {k : Nat} {st : Strand} (hs : MemoryOk s) : MemoryOk (s.exitStrand k st) :=
  .tryMeets (hs.same rfl)

theorem MemoryOk.takeWords {n : Nat} {f : List (Word × Bool) → State → Act State}
    (hf : ∀ ws t, MemoryOk t → Act.Gives MemoryOk (f ws t)) (he : MemoryOk e.s) :
    Act.Gives MemoryOk (e.takeWords n f) := by
  induction n generalizing e f with
  | zero => exact hf _ _ he
  | succ n ih => exact .takeValue (fun ws s hs => ih (fun l t ht => hf _ _ ht) hs) he

theorem MemoryOk.refillTrailing {head : VAddr} (he : MemoryOk e.s) : Act.Gives MemoryOk (e.refillTrailing head) := by
  refine .takeValue (fun ws s hs => ?_) he
  split
  · exact .takeWords (fun _ _ ht => .ok (ht.same rfl)) hs
  · exact .ok hs.exitStrand

theorem MemoryOk.takeItem {entry : VAddr} {record : Nat} {head : VAddr} (hs : MemoryOk s) :
    Act.Gives MemoryOk (e.takeItem s entry record head) := by
  unfold Env.takeItem
  dsimp only
  split
  · exact .ok (.stop (hs.same rfl))
  · exact .ok (hs.same (by simp))

theorem execRefill_keeps {o : BitVec 18} (hs : MemoryOk s) : Keeps (execRefill o s) := by
  refine runLane_keeps hs fun e he => .any fun _ => .any fun _ => ?_
  dsimp only
  refine .ite he.refillTrailing ?_
  split
  · exact he.takeItem
  · refine .any fun item => ?_
    split
    · exact .takeItem (he.same rfl)
    · exact .ite (.ok (he.same rfl)) (.ok he.exitStrand)

theorem execExit_keeps (hs : MemoryOk s) : Keeps (execExit s) :=
  runLane_keeps hs fun _ he => .any fun _ => .ok he.exitStrand

theorem execYield_keeps (hs : MemoryOk s) : Keeps (execYield s) :=
  runLane_keeps hs fun _ he => .ok (he.same (by simp))

theorem execTrap_keeps {c : BitVec 8} (hs : MemoryOk s) : Keeps (execTrap c s) := runLane_keeps hs fun _ _ => .error

theorem execBrk_keeps {c : BitVec 8} (hs : MemoryOk s) : Keeps (execBrk c s) := runLane_keeps hs fun _ _ => .error

theorem execRegion_keeps (hs : MemoryOk s) : Keeps (execRegion s) :=
  runLane_keeps hs fun _ he => .ok (he.same (by simp))

theorem execHs_keeps {n : BitVec 8} (hs : MemoryOk s) : Keeps (execHs n s) := runLane_keeps hs fun _ he => .ok (he.same rfl)

theorem execSleep_keeps (hs : MemoryOk s) : Keeps (execSleep s) := runLane_keeps hs fun _ he => .ok (he.same rfl)

theorem execCall_keeps {l : BitVec 4} {o : BitVec 18} (hs : MemoryOk s) : Keeps (execCall l o s) :=
  runLane_keeps hs fun _ he => he.call

theorem execCalli_keeps {l : BitVec 4} {a : BitVec 7} (hs : MemoryOk s) : Keeps (execCalli l a s) :=
  runLane_keeps hs fun _ he => .any fun _ => .any fun _ => he.call

end

/-! ### The matrix engine (R212 to R225) -/

section
variable {s : State} {e : Env}

theorem MemoryOk.command {op : MxOp} {tile : Nat} (he : MemoryOk e.s) : Act.Gives MemoryOk (e.command op tile) :=
  .any fun _ => .ok (he.same (by simp))

theorem MemoryOk.commandOnce {op : MxOp} {tile : Nat} {req : List Word} (he : MemoryOk e.s) :
    Act.Gives MemoryOk (e.commandOnce op tile req) :=
  he.once (fun _ he => he.command) fun _ _ hs => .ok (hs.same (by simp))

theorem mxmma_keeps {type : Nat} {r : BitVec 1} {t h j : BitVec 4} {a : BitVec 7} (hs : MemoryOk s) :
    Keeps (mxmma s type r t h j a) :=
  runLane_keeps hs fun _ he => .any fun _ => .any fun _ => .any fun _ => .any fun _ => .any fun _ => .any fun _ =>
    .any fun _ => .any fun _ => .any fun _ => he.commandOnce

theorem execMxz_keeps {t : BitVec 4} (hs : MemoryOk s) : Keeps (execMxz t s) :=
  runLane_keeps hs fun _ he => .any fun _ => .any fun _ => he.commandOnce

theorem execMxst_keeps {t h : BitVec 4} {a : BitVec 7} (hs : MemoryOk s) : Keeps (execMxst t h a s) :=
  runLane_keeps hs fun _ he => .any fun _ => .any fun _ => .any fun _ => .any fun _ => .any fun _ => .any fun _ =>
    .any fun _ => .any fun _ => he.commandOnce

theorem MemoryOk.mxAccess {tile element d : Nat} {word : Option Word} (he : MemoryOk e.s) :
    Act.Gives (fun x => MemoryOk x.2) (e.mxAccess tile element d word) := by
  unfold Env.mxAccess
  dsimp only
  split
  · exact .ok (he.same (by simp))
  · exact .any fun _ => .ok (he.same (by simp [State.fresh]))

theorem execMxrd_keeps {t : BitVec 4} {d a : BitVec 7} (hs : MemoryOk s) : Keeps (execMxrd t d a s) :=
  runLane_keeps hs fun _ he => .any fun _ => .any fun _ => .any fun _ => .any fun _ =>
    he.once (fun _ he => he.mxAccess.bind fun _ ht => .ok (MemoryOk.same ht (by simp)))
      fun _ _ hs => .ok (hs.same (by simp))

theorem execMxwr_keeps {t : BitVec 4} {a : BitVec 7} (hs : MemoryOk s) : Keeps (execMxwr t a s) :=
  runLane_keeps hs fun _ he => .any fun _ => .any fun _ => .any fun _ => .any fun _ =>
    he.once (fun _ he => he.mxAccess.bind fun _ ht => .ok (MemoryOk.same ht (by simp)))
      fun _ _ hs => .ok (hs.same (by simp))

theorem execMxcommit_keeps (hs : MemoryOk s) : Keeps (execMxcommit s) :=
  runLane_keeps hs fun _ he => .any fun _ =>
    he.once (fun _ he => .ok (he.same (by simp))) fun _ _ hs => .ok (hs.same (by simp))

theorem execMxwait_keeps {n : BitVec 7} (hs : MemoryOk s) : Keeps (execMxwait n s) :=
  runLane_keeps hs fun _ he =>
    he.once (fun _ he => .ite (.ok (he.same (by simp))) (.ok (he.same rfl))) fun _ _ hs => .ok (hs.same (by simp))

theorem execMxstat_keeps {d a : BitVec 7} (hs : MemoryOk s) : Keeps (execMxstat d a s) :=
  runLane_keeps hs fun _ he => .any fun _ => .any fun _ =>
    he.once (fun _ he => .ok (he.same (by simp))) fun _ _ hs => .ok (hs.same (by simp))

theorem MemoryOk.mxChunk {core : Nat} (hs : MemoryOk s) : Opt.Gives MemoryOk (s.mxChunk core) := by
  have hfree : ∀ (c : Prop) [Decidable c], (if c then s.free else (0, s)).2.mem = s.mem := fun c _ => by split <;> rfl
  unfold State.mxChunk
  dsimp only
  split
  · exact .none
  · split
    · exact .ite .none (.ite (.some (.killTeam (hs.same (by simp [hfree])))) (.ite
        (.some (.killTeam (hs.same (by simp [hfree])))) (.some (hs.same (by simp [hfree])))))
    · exact .none

theorem MemoryOk.mxCommand {core : Nat} (hs : MemoryOk s) : Opt.Gives MemoryOk (s.mxCommand core) := by
  unfold State.mxCommand
  dsimp only
  split
  · exact .none
  · refine .ite .none ?_
    split
    · exact .none
    · exact .some (hs.same (by simp))
    · exact .ite (.some (.killTeam (hs.same (by simp)))) (.some (hs.same (by simp)))
    · exact .ite (.some (.killTeam (hs.same (by simp)))) (.some (hs.same (by simp)))

theorem MemoryOk.mxReset {core : Nat} (hs : MemoryOk s) : Opt.Gives MemoryOk (s.mxReset core) := by
  unfold State.mxReset
  refine .ite .none (.some (MemoryOk.foldl (hs.same ?_) (fun t x ht => ht.killTeam) _))
  simp

theorem MemoryOk.groupDone {k group : Nat} (hs : MemoryOk s) : Opt.Gives MemoryOk (s.groupDone k group) := by
  unfold State.groupDone
  split
  · exact .none
  · split
    · exact .none
    · refine .ite .none ?_
      dsimp only
      split
      · exact .ite (.some (hs.same (by simp))) (.some (hs.same (by simp)))
      · exact .some (hs.same (by simp))
      · exact .some (hs.same (by simp))

end

/-! ### The copy engine (R292 to R305) -/

/-- A fold that carries a value beside the machine leaves memory as it is when each of its steps does. -/
theorem State.mem_foldl_snd {α β : Type} {f : β × State → α → β × State} (h : ∀ a x, (f a x).2.mem = a.2.mem)
    (l : List α) (a : β × State) : (l.foldl f a).2.mem = a.2.mem := by
  induction l generalizing a with
  | nil => rfl
  | cons x l ih => exact (ih _).trans (h a x)

section
variable {s : State} {e : Env} {c : Copy}

theorem MemoryOk.copyFrom {va n : Nat} {isLocal toWindow : Bool} (hs : MemoryOk s) :
    Act.Gives (fun x => MemoryOk x.2) (s.copyFrom c va n isLocal toWindow) := by
  unfold State.copyFrom
  refine .ite (.ok hs) (.any fun x => .ite (.any fun r => ?_) ?_)
  · split
    · exact .ite .error (.ok (hs.same rfl))
    · exact .error
  · dsimp only
    split
    · next b p t ht => exact .ok (hs.readFor _ ht)
    · exact .error

theorem MemoryOk.chainElement {src k st dt : Nat} {ops : List (Nat × Nat × Word × Word)} {input : Marked} (hs : MemoryOk s) :
    Act.Gives (fun x => MemoryOk x.2) (s.chainElement c src k st dt ops input) := by
  unfold State.chainElement
  dsimp only
  exact .bindIf hs.copyFrom (.ok hs) fun x hx => .bindIf (MemoryOk.copyFrom hx) (.ok hx) fun y hy => .ok hy

theorem MemoryOk.copyRead {l : List (Piece × Bool)} (hs : MemoryOk s) :
    Act.Gives (fun x => MemoryOk x.2) (s.copyRead c l) := by
  induction l generalizing s with
  | nil => exact .ok hs
  | cons p l ih =>
    unfold State.copyRead
    refine hs.copyFrom.bind fun x hx => ?_
    dsimp only
    split
    · exact (MemoryOk.chainElement hx).bind fun y hy => (ih hy).bind fun z hz => .ok hz
    · exact (ih hx).bind fun z hz => .ok hz

theorem MemoryOk.landBlock {block : Nat} (hs : MemoryOk s) :
    Act.Gives (fun x => MemoryOk x.1) (s.landBlock c block) := by
  unfold State.landBlock
  refine .any fun _ => .any fun dsts => hs.copyRead.bind fun x hx => ?_
  dsimp only
  refine .ite (.ok (MemoryOk.same hx (by simp))) (.any fun _ => .ok (MemoryOk.same hx ?_))
  exact (State.mem_foldl_snd (by simp) _ _).trans (by simp)

theorem MemoryOk.performWrite {w : CopyWrite} (hs : MemoryOk s) : Opt.Gives MemoryOk (s.performWrite c w) := by
  unfold State.performWrite
  dsimp only
  have hbad : ∀ t, MemoryOk t → MemoryOk (if w.bad then w.cells.foldl (fun s x => s.poisonSector x.1) t else t) :=
    fun t ht => .ite (MemoryOk.foldl ht (fun _ _ hu => hu.same (by simp)) _) ht
  refine .ite .none (.map (Opt.Gives.imp (P := MemoryOk) ?_ hbad))
  split
  · exact .some (.ite (hs.same (by simp)) (.joinHost (.performNow (hs.same (by simp)))))
  · split
    · exact .some (.performNow (hs.same (by simp)))
    · exact .ite (.some (.performAt (hs.same (by simp)))) .none

theorem MemoryOk.copyFault {b va kind reason stage level ipa vmid : Nat} (hs : MemoryOk s) :
    MemoryOk (s.copyFault b c va kind reason stage level ipa vmid) := by
  unfold State.copyFault
  dsimp only
  split
  · next t ht => exact Opt.Gives.of_eq ht (.sendFault (hs.same (by simp)))
  · exact .abortGrid (hs.same (by simp))

theorem MemoryOk.tagCount {b n : Nat} {flags : Flags} (hs : MemoryOk s) : MemoryOk (s.tagCount b c n flags) := by
  unfold State.tagCount
  exact .ite hs.killTeam (hs.same (by simp))

theorem MemoryOk.landBytes {b line n : Nat} {flags : Flags} (hs : MemoryOk s) :
    MemoryOk (s.landBytes b c line n flags) := by
  unfold State.landBytes
  exact .ite (hs.same (by simp)) (.tagCount (hs.same (by simp)))

theorem MemoryOk.landWrite {b : Nat} {w : CopyWrite} (hs : MemoryOk s) : Opt.Gives MemoryOk (s.landWrite b c w) :=
  .map (hs.performWrite.imp fun _ ht => .landBytes (ht.same (by simp)))

theorem MemoryOk.landWrites {b id : Nat} {l : List CopyWrite} (hs : MemoryOk s) : MemoryOk (s.landWrites b id l) := by
  induction l generalizing s with
  | nil => exact hs
  | cons w l ih =>
    unfold State.landWrites
    split
    · exact hs
    · exact ih (hs.landWrite.getD hs)

theorem MemoryOk.copyLand {b block : Nat} (hs : MemoryOk s) : Opt.Gives MemoryOk (s.copyLand b c block) := by
  unfold State.copyLand
  dsimp only
  refine .ite (.findSome? (fun w => hs.landWrite) _) (.ite .none (.ite (.some (hs.same (by simp))) ?_))
  split
  · next t l ht => exact .some (.landWrites (.landBytes ((hs.landBlock _ ht).same (by simp))))
  · exact .some hs.killTeam
  · exact .some hs.walkError
  · exact .some hs.copyFault
  · exact hs.askWalk
  · exact .none

theorem MemoryOk.enterCopy {op : CopyOp} {hsrc hdst : HRec} {tag : Nat} {arm : Bool} (he : MemoryOk e.s) :
    Act.Gives MemoryOk (e.enterCopy op hsrc hdst tag arm) := by
  unfold Env.enterCopy
  dsimp only
  refine .any fun _ => .bindIf (.ok he) he.commitPoint fun t ht => .ok (ht.same ?_)
  simp [State.mem_foldl]

theorem copy_keeps {kind : Nat} {g : BitVec 6} {d h : BitVec 4} {a : BitVec 7} {m : BitVec 1} (hs : MemoryOk s) :
    Keeps (copy s kind g d h a m) := by
  refine runLane_keeps hs fun e he => .any fun _ => .any fun _ => .any fun tag => .any fun _ => .any fun _ => .any fun _ =>
    .any fun words => .any fun _ => he.once (fun e he => ?_) fun _ _ hs => .ok (hs.same (by simp))
  dsimp only
  split <;> (refine .any fun desc => ?_; split <;> exact .any fun _ => .any fun _ => he.enterCopy)

theorem tagwait_keeps {a : BitVec 7} {all : Bool} (hs : MemoryOk s) : Keeps (tagwait s a all) :=
  runLane_keeps hs fun _ he => .any fun _ => .any fun _ =>
    he.once (fun _ he => .ite (.ok (he.same (by simp))) (.ok (he.same rfl))) fun _ _ hs => .ok (hs.same (by simp))

end

/-! ### Teams, barriers, launches and registers of a wave -/

section
variable {s : State} {e : Env}

theorem MemoryOk.releaseOnce {req : List Word} {scope : Nat} {check : Env → Act Unit} {act : Env → Act State}
    {trail : List (Word × Bool) → State → Act State} (hact : ∀ e, MemoryOk e.s → Act.Gives MemoryOk (act e))
    (htrail : ∀ ws s, MemoryOk s → Act.Gives MemoryOk (trail ws s)) (he : MemoryOk e.s) :
    Act.Gives MemoryOk (e.releaseOnce req scope check act trail) := by
  unfold Env.releaseOnce
  extract_lets wait
  clear_value wait
  split
  · exact .ite .error (hact e he)
  · refine he.once (fun e he => .any fun _ => .any fun _ => he.commitPoint.bind fun t ht => ?_) htrail
    dsimp only
    split
    · exact hact _ (ht.same (by simp))
    · exact .ok (ht.same (by simp))

theorem MemoryOk.launchGrid {w : Launcher} {record : List Byte} {top : Bool} (hs : MemoryOk s) :
    Opt.Gives (fun x => MemoryOk x.2.2) (s.launchGrid w record top) :=
  .ite .none (.ite (.some hs) (.some (hs.same rfl)))

theorem execLaunch_keeps {d a : BitVec 7} {h : BitVec 4} (hs : MemoryOk s) : Keeps (execLaunch d a h s) :=
  runLane_keeps hs fun _ he => .any fun _ => .any fun _ => .any fun _ => .any fun _ => .any fun _ => .any fun _ =>
    he.releaseOnce (fun _ he => .any fun _ => .ok (he.same (by simp))) fun _ _ hs => .ok (hs.same (by simp))

theorem execLaunchStatus_keeps {id : Nat} (hs : MemoryOk s) : Keeps (execLaunchStatus id s) := by
  refine eventStep_keeps hs (.any fun p => ?_)
  split
  · refine .ite .none (.ite (.some hs.killTeam) (Opt.Gives.bind (P := fun x => MemoryOk x.2.2) (.launchGrid ?_)
      fun x hx => .some ?_))
    · exact hs.same rfl
    · exact MemoryOk.same hx (by simp)
  · exact .none

theorem execGwait_keeps {d a : BitVec 7} (hs : MemoryOk s) : Keeps (execGwait d a s) := by
  refine runLane_keeps hs fun e he => .any fun _ => .any fun g =>
    he.once (fun e he => ?_) fun _ _ hs => .ok (hs.same (by simp))
  split
  · exact .ok (he.same (by simp))
  · exact .ite (.ok (he.same (by simp))) (.ite (.ok (he.same (by simp))) (.ok (he.same rfl)))

theorem execTaskpush_keeps {d a : BitVec 7} {h : BitVec 4} (hs : MemoryOk s) : Keeps (execTaskpush d a h s) :=
  runLane_keeps hs fun _ he => .any fun _ => .any fun _ => .any fun _ => .any fun _ => .any fun _ => .any fun _ =>
    .any fun _ => .any fun _ => .any fun _ =>
      he.releaseOnce (fun _ he => .ite (.ok (he.same (by simp))) (.ok (he.same rfl))) fun _ _ hs => .ok (hs.same (by simp))

theorem execTbar_keeps {n : BitVec 3} (hs : MemoryOk s) : Keeps (execTbar n s) :=
  runLane_keeps hs fun _ he => .any fun _ =>
    he.compared (fun _ he => .ok (he.same (by simp))) fun _ hs => .ok (hs.same (by simp))

theorem execTbara_keeps {d : BitVec 7} {n : BitVec 3} (hs : MemoryOk s) : Keeps (execTbara d n s) :=
  runLane_keeps hs fun _ he => .any fun _ => .any fun _ =>
    he.compared (fun _ he => .ok (he.same (by simp))) fun _ hs => .ok (hs.same (by simp))

theorem execTbarw_keeps {a : BitVec 7} {n : BitVec 3} (hs : MemoryOk s) : Keeps (execTbarw a n s) :=
  runLane_keeps hs fun _ he => .any fun _ => .any fun _ => .any fun _ =>
    he.compared (fun _ he => .ok (he.same (by simp))) fun _ hs => .ok (hs.same (by simp))

theorem execRgrow_keeps {d n : BitVec 7} (hs : MemoryOk s) : Keeps (execRgrow d n s) :=
  runLane_keeps hs fun _ he => .any fun _ =>
    he.once (fun _ he => .ite (.ok (he.same (by simp))) (.ok (he.same (by simp)))) fun _ _ hs => .ok (hs.same (by simp))

theorem execRshrink_keeps {n : BitVec 7} (hs : MemoryOk s) : Keeps (execRshrink n s) := by
  refine runLane_keeps hs fun e he =>
    he.once (fun e he => .ite (.ok (he.same rfl)) (.ite (.ok (he.same (by simp))) (.ok (he.same ?_))))
      fun _ _ hs => .ok (hs.same (by simp))
  split <;> simp

theorem execCommit_keeps (hs : MemoryOk s) : Keeps (execCommit s) :=
  runLane_keeps hs fun _ he =>
    he.once (fun _ he => .ite (.map (he.commitPoint.imp fun _ ht => ht.same (by simp))) (.ok (he.same (by simp))))
      fun _ _ hs => .ok (hs.same (by simp))

end

/-! ### Work accumulators (R232 to R246) -/

/-- The machine that a WA operation leaves. -/
def doneState : WaDone → State
  | .done s _ _ => s
  | .sent s _ => s
  | .late s => s

section
variable {s : State} {e : Env}

theorem Env.waEnd_mem {minor d : Nat} (x : WaDone) : (e.waEnd minor d x).mem = (doneState x).mem := by
  cases x <;> simp [Env.waEnd, doneState]

theorem Env.waSend_mem {op : WaOp} {k : Nat} : (doneState (e.waSend op k)).mem = e.s.mem := by
  simp only [Env.waSend]
  split <;> simp [doneState]

/-- The machine that a WA operation leaves keeps its memory in canonical form. -/
abbrev DoneOk (x : WaDone) : Prop := MemoryOk (doneState x)

theorem MemoryOk.saveImage {r : HRec} {i : Nat} {acc : Acc} {poison : Bool} (he : MemoryOk e.s) :
    Act.Gives MemoryOk (e.saveImage r i acc poison) :=
  .any fun _ => .any fun _ => .any fun _ => .ok (he.same (by simp))

theorem MemoryOk.loadAcc {r : HRec} {i n : Nat} {poison : Bool} (he : MemoryOk e.s) :
    Act.Gives MemoryOk (e.loadImage r i n poison) :=
  .any fun _ => .any fun _ => .any fun _ => .any fun _ => .any fun _ => .ok (he.same (by simp))

theorem MemoryOk.waTurn {op : WaOp} (he : MemoryOk e.s) : Act.Gives MemoryOk (e.waTurn op) := by
  have hend : ∀ x, DoneOk x → Act.Gives MemoryOk (.ok (e.waEnd op.minor op.d x)) := fun x hx =>
    .ok (MemoryOk.same hx (Env.waEnd_mem x))
  refine .any fun acc => ?_
  dsimp only
  split
  · exact Act.Gives.bind (P := DoneOk) (.map he.saveImage) hend
  · exact Act.Gives.bind (P := DoneOk) (.map he.loadAcc) hend
  · exact .any fun _ => .any fun _ => .ok (he.same ((Env.waEnd_mem _).trans (by simp [doneState])))

theorem MemoryOk.accOnce {minor n d : Nat} {req : List Word} {f : Env → Act WaDone}
    (hf : ∀ e, MemoryOk e.s → Act.Gives DoneOk (f e)) (he : MemoryOk e.s) :
    Act.Gives MemoryOk (e.accOnce minor n d req f) :=
  he.once (fun e he => .map ((hf e he).imp fun x hx => MemoryOk.same hx (Env.waEnd_mem x)))
    fun _ _ hs => .ok (hs.same (by simp))

theorem MemoryOk.accOp {minor n d k : Nat} {x : Word × Word} {req : List Word} (he : MemoryOk e.s) :
    Act.Gives MemoryOk (e.accOp minor n d k x req) :=
  he.accOnce fun _ he => .any fun _ => .ite (.ok (he.same Env.waSend_mem))
    (.any fun _ => .any fun _ => .ok (he.same (by simp [doneState])))

theorem MemoryOk.waApply {team : Nat} {op : WaOp} (hs : MemoryOk s) : MemoryOk (s.waApply team op) := by
  unfold State.waApply
  dsimp only
  split
  · split
    · exact hs
    · next e he =>
      replace he : MemoryOk e.s := env_s he ▸ hs
      split
      · next t ht => exact Act.Gives.of_eq ht (he.shared he.waTurn)
      · exact .stop (hs.same rfl)
  · split
    · exact hs
    · split
      · exact hs.killTeam
      · exact hs.same (by simp)

theorem MemoryOk.waArrive {team core : Nat} (hs : MemoryOk s) : MemoryOk (s.waArrive team core) := by
  unfold State.waArrive
  split
  · exact hs
  · split
    · exact hs
    · refine .ite hs (MemoryOk.foldl (hs.same ?_) (fun t x ht => ht.waApply) _)
      rfl

theorem accAccess_keeps {minor : Nat} {w : BitVec 4} {a d : Nat} (hs : MemoryOk s) : Keeps (accAccess s minor w a d) := by
  refine runLane_keeps hs fun e he => .any fun _ => .any fun arg => ?_
  split
  · exact he.accOp
  · exact .ite (.any fun _ => he.accOnce fun _ he => .ok (he.same Env.waSend_mem))
      (he.shared (.any fun _ => he.accOp))

theorem MemoryOk.imageOp {minor : Nat} {h w : BitVec 4} {a : BitVec 7} {perm : HRec → Bool} (he : MemoryOk e.s) :
    Act.Gives MemoryOk (e.imageOp minor h w a perm) :=
  .any fun _ => .any fun _ => .any fun _ => .any fun _ => .any fun _ => .any fun _ => he.accOnce fun _ he =>
    .any fun _ => .ite (.ok (he.same Env.waSend_mem)) (.ite (.map he.saveImage) (.any fun _ => .map he.loadAcc))

theorem execWacfg_keeps {w : BitVec 4} {a : BitVec 7} (hs : MemoryOk s) : Keeps (execWacfg w a s) :=
  runLane_keeps hs fun _ he => .any fun _ => .any fun _ => .any fun _ => .any fun _ => .any fun _ => he.accOp

theorem execWaclr_keeps {w : BitVec 4} (hs : MemoryOk s) : Keeps (execWaclr w s) :=
  runLane_keeps hs fun _ he => .any fun _ => he.accOp

theorem execWastat_keeps {d : BitVec 7} {w : BitVec 4} {a : BitVec 7} (hs : MemoryOk s) : Keeps (execWastat d w a s) :=
  runLane_keeps hs fun _ he => .any fun _ => .any fun _ => .any fun _ => he.accOp

theorem execWasave_keeps {h w : BitVec 4} {a : BitVec 7} (hs : MemoryOk s) : Keeps (execWasave h w a s) :=
  runLane_keeps hs fun _ he => .any fun _ => he.imageOp

theorem execWaload_keeps {h w : BitVec 4} {a : BitVec 7} (hs : MemoryOk s) : Keeps (execWaload h w a s) :=
  runLane_keeps hs fun _ he => he.imageOp

end

end Sys2Proof.Safety
end

section
/-!
PROOFS. Requests, events and the outside world keep memory in its canonical form: the dispatcher and the rubric's streams,
arrivals, the command port, power, and the platform.
-/

namespace Sys2Proof.Safety

open Sys2Proof.Machine

/-! ### The dispatcher, and the rubric's streams -/

section
variable {s : State}

theorem Act.Gives.needed {α : Type} {P : α → Prop} {x : Option α} (hx : Opt.Gives P x) : Act.Gives P (needed x) := by
  cases x with
  | none => exact .error
  | some a => exact .ok (hx a rfl)

theorem MemoryOk.dispatch {core asid : Nat} {x : Act State} (hx : Act.Gives MemoryOk x) (hs : MemoryOk s) :
    Opt.Gives MemoryOk (s.dispatch core asid x) := by
  unfold State.dispatch
  split
  · exact .some (hx.of_eq rfl)
  · exact hs.askWalk
  · exact .some hs.walkError
  · exact .none

theorem MemoryOk.dispatchRead {core asid level va n : Nat} (hs : MemoryOk s) :
    Act.Gives (fun x => MemoryOk x.2) (s.dispatchRead core asid level va n) := by
  refine Act.Gives.foldlM (P := fun x : Marked × State => MemoryOk x.2)
    (fun acc p hacc => .any fun pa => .any fun _ => ?_) _ hs
  split
  · exact .error
  · next b q t ht => exact .ok (MemoryOk.serveBelow hacc _ ht)

theorem MemoryOk.tableRecords {g : Grid} {core : Nat} (hs : MemoryOk s) :
    Act.Gives (fun x => MemoryOk x.2) (s.tableRecords g core) := by
  refine Act.Gives.foldlM (P := fun x : List HRec × State => MemoryOk x.2) (fun acc k hacc => ?_) _ hs
  exact .ite ((MemoryOk.dispatchRead hacc).bind fun _ hx => .ok hx) (.ok hacc)

theorem MemoryOk.taskWords {core : Nat} {g : Grid} {k : Option Tasks} (hs : MemoryOk s) :
    Act.Gives (fun x => MemoryOk x.2) (s.taskWords core g k) :=
  Act.Gives.foldlM (P := fun x : List Marked × State => MemoryOk x.2)
    (fun _ _ hacc => (MemoryOk.dispatchRead hacc).bind fun _ hx => .ok hx) _ hs

theorem MemoryOk.placeNext {g : Nat} {grid : Grid} {f : Fit} (hs : MemoryOk s) :
    Act.Gives MemoryOk (s.placeNext g grid f) :=
  hs.tableRecords.bind fun _ hx => .ok (MemoryOk.same hx (by simp))

theorem MemoryOk.placeAll {g n : Nat} (hs : MemoryOk s) : Act.Gives MemoryOk (s.placeAll g n) := by
  induction n generalizing s with
  | zero => exact .ok hs
  | succ n ih => exact .any fun _ => .any fun _ => hs.placeNext.bind fun _ ht => ih ht

theorem MemoryOk.placeAgain {grid : Grid} {team : Nat} {t : Team} {f : Fit} (hs : MemoryOk s) :
    Act.Gives MemoryOk (s.placeAgain grid team t f) :=
  hs.tableRecords.bind fun _ hx => (MemoryOk.taskWords hx).bind fun _ hy => .ok (MemoryOk.same hy (by simp))

theorem MemoryOk.losePin (hs : MemoryOk s) : MemoryOk s.losePin := hs.foldl (fun _ _ ht => ht.abortGrid) _

theorem MemoryOk.writeDone {core grid : Nat} {g : Grid} (hs : MemoryOk s) : Act.Gives MemoryOk (s.writeDone core grid g) := by
  refine .ite (.ok hs) (.any fun cells => ?_)
  split
  · refine .ok (MemoryOk.performAll (hs.same ?_) _)
    rfl
  · exact .ok (.errorRecord (hs.same rfl))

theorem MemoryOk.formWave {cl : Nat} {tasks : List Task} (hs : MemoryOk s) : Opt.Gives MemoryOk (s.formWave cl tasks) :=
  .any fun _ => .any fun _ => .any fun _ => .any fun _ => .any fun _ => .any fun _ => .any fun _ => .any fun _ =>
    hs.dispatch (hs.tableRecords.bind fun _ hx => (MemoryOk.taskWords hx).bind fun _ hy => .ok (MemoryOk.same hy (by simp)))

theorem MemoryOk.rubricWrite {die : Nat} (hs : MemoryOk s) : Opt.Gives MemoryOk (s.rubricWrite die) :=
  .any fun _ => .any fun _ => hs.dispatch (.any fun _ => .ok (hs.same (by simp [State.mem_foldl])))

theorem MemoryOk.streamEntry {die stream : Nat} (hs : MemoryOk s) :
    Act.Gives (fun x => MemoryOk x.2.2.2) (s.streamEntry die stream) :=
  .any fun _ => .any fun _ => hs.dispatchRead.bind fun _ hx => .any fun _ => (MemoryOk.dispatchRead hx).bind fun _ hy =>
    (MemoryOk.dispatchRead hy).bind fun _ hz => .any fun _ => (MemoryOk.dispatchRead hz).bind fun _ hw => .ok hw

theorem MemoryOk.streamStep {die stream : Nat} {op : Nat → Bool} {f : State → Nat → Nat → List Byte → Act State}
    (hf : ∀ t base head b, MemoryOk t → Act.Gives MemoryOk (f t base head b)) (hs : MemoryOk s) :
    Opt.Gives MemoryOk (s.streamStep die stream op f) :=
  .ite hs.rubricWrite (.any fun _ => hs.dispatch (hs.streamEntry.bind fun _ hx => .any fun _ => hf _ _ _ _ hx))

end

/-! ### Arrivals, the command port, and the platform -/

section
variable {s : State}

theorem MemoryOk.unpark {x : Nat} (hs : MemoryOk s) : MemoryOk (s.unpark x).2 := by
  simp only [State.unpark]
  split
  · exact hs
  · split
    · exact hs
    · split
      · exact .wake (hs.same rfl)
      · exact .wake (.trap (hs.same (by simp)))

theorem MemoryOk.writeLaneMap {x y : Nat} (hs : MemoryOk s) : MemoryOk (s.writeLaneMap x y).2 := by
  unfold State.writeLaneMap
  dsimp only
  split
  · exact hs
  · split
    · exact hs
    · exact .losePin (hs.same (by simp))

theorem trapret_keeps {next : Frame → VAddr} (hs : MemoryOk s) : Keeps (trapret s next) := by
  refine runLane_keeps hs fun e he => ?_
  split
  · exact .error
  · exact .any fun _ => .ok (he.same rfl)

theorem MemoryOk.freeBank {b : Nat} {x : Saved} (hs : MemoryOk s) : MemoryOk (s.freeBank b x) := hs.same (by simp)

theorem execCtxsaveComplete_keeps {id : Nat} (hs : MemoryOk s) : Keeps (execCtxsaveComplete id s) := by
  refine eventStep_keeps hs (.any fun p => ?_)
  split
  · refine .ite (.some (hs.same (by simp))) (.ite (.some (hs.same (by simp))) (.ite (.some (hs.same (by simp)))
      (.any fun _ => ?_)))
    split
    · exact .some hs.killTeam
    · refine .any fun _ => .some (.deliver (.freeBank (.withDevice (.writeEverywhere (hs.same ?_)))))
      rfl
  · exact .none

theorem MemoryOk.unitResult {unit id : Nat} (hs : MemoryOk s) : Opt.Gives MemoryOk (s.unitResult unit id) :=
  .any fun _ => .any fun _ => .some (hs.same (by simp))

theorem MemoryOk.returnLoad {l : Load} {b : List Byte} {p : Bool} (hs : MemoryOk s) : MemoryOk (s.returnLoad l b p) := by
  unfold State.returnLoad
  split
  · exact hs.same (by simp)
  · split
    · exact hs.same (by simp)
    · exact hs
  · exact .rouse (.tryMeet (hs.same (by simp)))
  · exact hs.same rfl
  · exact hs

/-- The state that an atomic leaves. -/
abbrev AtomicOk (x : Dword × Bool × List Nat × State) : Prop := MemoryOk x.2.2.2

theorem MemoryOk.performAtomic {a : Atomic} (hs : MemoryOk s) : Opt.Gives AtomicOk (s.performAtomic a) := by
  unfold State.performAtomic
  extract_lets line old bad new cells single s' w
  have hs' : MemoryOk s' := hs.same (by simp [s'])
  split
  · exact .ite (.some hs) (.some (.joinHost (.performNow (hs'.same (by simp)))))
  · dsimp only
    split
    · exact .some hs'.performNow
    · exact .ite (.some hs'.performAt) .none

theorem MemoryOk.atomicDies {a : Atomic} (hs : MemoryOk s) : MemoryOk (s.atomicDies a) := .killTeam (hs.same rfl)

theorem MemoryOk.atomicAtPoint {a : Atomic} (hs : MemoryOk s) : Opt.Gives MemoryOk (s.atomicAtPoint a) := by
  refine hs.performAtomic.bind fun x hx => .ite (.some (MemoryOk.same hx rfl)) (.ite (.some (.atomicDies (MemoryOk.same hx ?_)))
    (.ite (.some (MemoryOk.same hx ?_)) (.some (MemoryOk.same hx ?_))))
  all_goals simp

theorem MemoryOk.atomicInBuffer {a : Atomic} (hs : MemoryOk s) : Opt.Gives MemoryOk (s.atomicInBuffer a) :=
  .any fun _ => hs.globalRead.bind fun x hx => .ite (.some (MemoryOk.atomicDies hx))
    (.any fun _ => .some (MemoryOk.same hx (by simp)))

theorem MemoryOk.outsideWrite {agent pa : Nat} {bytes : List Byte} (hs : MemoryOk s) :
    MemoryOk (s.outsideWrite agent pa bytes) := by
  refine MemoryOk.same (s := List.foldl _ _ _) (MemoryOk.performAll (hs.same ?_) _) rfl
  exact State.cleanCovered_mem ..

theorem MemoryOk.outsideAccess {agent : Nat} {ordered : Bool} {x : Access} (hs : MemoryOk s) :
    Opt.Gives MemoryOk (s.outsideAccess agent ordered x) := by
  cases x with
  | load => exact .ite (.some hs) .none
  | store pa bytes => exact .ite (.some hs.outsideWrite) .none
  | cas pa expected new => exact .ite (.ite (.some hs.outsideWrite) (.some hs)) .none
  | add pa n value => exact .ite (.ite (.some hs) (.some hs.outsideWrite)) .none

theorem MemoryOk.loadImage {img : Image} (hs : MemoryOk s) : Opt.Gives MemoryOk (s.loadImage img) := by
  refine .ite (.some (MemoryOk.same (MemoryOk.foldl (hs.same ?_) (fun t p ht => ht.performAll _) _) rfl)) .none
  rfl

theorem MemoryOk.firmwareRuns {f : SignedBlob} (hs : MemoryOk s) : MemoryOk (s.firmwareRuns f) := by
  have hrun : MemoryOk (s.setDevice { s.device with boot := .running, firmwareDigest := Config.sha256 f.bytes }) := hs
  unfold State.firmwareRuns
  dsimp only
  split
  · exact hrun
  · split
    · exact hrun
    · split
      · split
        · next t ht => exact (Opt.Gives.of_eq ht hrun.loadImage).same (State.mem_foldl _ (fun _ _ => by simp) _)
        · exact hrun
      · exact hrun

theorem MemoryOk.upset {u : Upset} (hs : MemoryOk s) : MemoryOk (s.upset u) := by
  cases u with
  | waArrive team core => exact hs.waArrive
  | memory pa double =>
    simp only [State.upset]
    split
    · exact hs
    · exact hs.same (by simp)
  | peer pa bytes => exact .ite (hs.performAll _) hs
  | register | residue | tile | acc | crc | l1Evict | sliceEvict => exact hs.same (by simp [State.upset])

end

/-! ### Tags, system registers and the command port at a lane -/

section
variable {s : State} {e : Env}

theorem execTagarm_keeps {g : BitVec 6} {a : BitVec 7} (hs : MemoryOk s) : Keeps (execTagarm g a s) :=
  runLane_keeps hs fun _ he => .any fun _ => .any fun _ => .any fun _ =>
    he.once (fun _ he => .ok (he.same (by simp))) fun _ _ hs => .ok (hs.same (by simp))

theorem execTagff_keeps {a : BitVec 7} (hs : MemoryOk s) : Keeps (execTagff a s) :=
  runLane_keeps hs fun _ he => .any fun _ => .any fun _ =>
    he.once (fun _ he => .ok (he.same (by simp))) fun _ _ hs => .ok (hs.same (by simp))

theorem execTagclr_keeps {a : BitVec 7} (hs : MemoryOk s) : Keeps (execTagclr a s) :=
  runLane_keeps hs fun _ he => .any fun _ => .any fun _ =>
    he.once (fun _ he => .ok (he.same (by simp [State.mem_foldl]))) fun _ _ hs => .ok (hs.same (by simp))

theorem execTagrd_keeps {g : BitVec 6} {a : BitVec 7} (hs : MemoryOk s) : Keeps (execTagrd g a s) :=
  runLane_keeps hs fun _ he => .any fun _ => .any fun _ =>
    he.once (fun _ he => .ok (he.same (by simp))) fun _ _ hs => .ok (hs.same (by simp))

theorem execRds_keeps {d : BitVec 7} {n : BitVec 14} (hs : MemoryOk s) : Keeps (execRds d n s) :=
  runLane_keeps hs fun _ he => .any fun _ => .any fun _ => .any fun _ => .ite he.follow
    (.any fun _ => .ok (he.same (by simp)))

theorem execWrs_keeps {x : BitVec 7} {n : BitVec 14} (hs : MemoryOk s) : Keeps (execWrs x n s) := by
  refine runLane_keeps hs fun e he => .any fun _ => ?_
  split
  · exact .error
  · exact .any fun _ => .any fun _ => .any fun _ => .any fun _ => .any fun _ =>
      .ite (.ok (he.same (by simp))) (.ok (he.same (by simp)))

theorem MemoryOk.status {d code : Nat} (hs : MemoryOk s) : MemoryOk (e.status s d code) := hs.same (by simp)

theorem execUnpark_keeps {d a : BitVec 7} (hs : MemoryOk s) : Keeps (execUnpark d a s) :=
  runLane_keeps hs fun _ he => .any fun _ => .any fun _ => .any fun _ => .ite he.follow
    (.any fun _ => .ok (.status he.unpark))

theorem execSwapctx_keeps {d a : BitVec 7} (hs : MemoryOk s) : Keeps (execSwapctx d a s) :=
  runLane_keeps hs fun _ he => .any fun _ => .any fun _ => .any fun _ => .ite he.follow
    (.any fun _ => .ite (.ok he.status) (.ite (.ok he.status) (.ok (he.same (by simp)))))

theorem execLmapw_keeps {d a b : BitVec 7} (hs : MemoryOk s) : Keeps (execLmapw d a b s) :=
  runLane_keeps hs fun _ he => .any fun _ => .any fun _ => .any fun _ => .any fun _ => .any fun _ => .ite he.follow
    (.any fun _ => .ok (.status he.writeLaneMap))

theorem execTlbinv_keeps {a b : BitVec 7} (hs : MemoryOk s) : Keeps (execTlbinv a b s) :=
  runLane_keeps hs fun _ he => .any fun _ => .any fun _ => .any fun _ => .any fun _ => .any fun _ => .any fun _ =>
    he.releaseOnce (fun _ he => .ok (he.same (by simp))) fun _ _ hs => .ok (hs.same (by simp))

theorem execHalt_keeps (hs : MemoryOk s) : Keeps (execHalt s) :=
  runLane_keeps hs fun _ he => .any fun _ => .ok (.losePin (he.same (by simp)))

theorem execCtxsave_keeps {d a b : BitVec 7} (hs : MemoryOk s) : Keeps (execCtxsave d a b s) :=
  runLane_keeps hs fun _ he => .any fun _ => .any fun _ => .any fun _ => .any fun _ => .ite he.follow
    (.any fun _ => .ite (.ok he.status) (.ite (.ok he.status) (.ite (.ok he.status) (.ok (he.same (by simp))))))

theorem execCtxload_keeps {d a b : BitVec 7} (hs : MemoryOk s) : Keeps (execCtxload d a b s) :=
  runLane_keeps hs fun _ he => .any fun _ => .any fun _ => .any fun _ => .any fun _ => .ite he.follow
    (.any fun _ => .ite (.ok he.status) (.ite (.ok he.status) (.ite (.ok he.status) (.ok (he.same (by simp))))))

theorem execDeviceReset_keeps (hs : MemoryOk s) : Keeps (execDeviceReset s) := .next (hs.same rfl)

end

/-! ### Events of the units, the copies and the teams -/

section
variable {s : State}

theorem execCopyLand_keeps {id block : Nat} (hs : MemoryOk s) : Keeps (execCopyLand id block s) :=
  eventStep_keeps hs (.any fun _ => hs.copyLand)

theorem execCopyRetry_keeps {id : Nat} (hs : MemoryOk s) : Keeps (execCopyRetry id s) :=
  eventStep_keeps hs (.any fun _ => .ite (.some (hs.same (by simp))) .none)

theorem execDirectoryRecall_keeps {line : Nat} (hs : MemoryOk s) : Keeps (execDirectoryRecall line s) :=
  eventStep_keeps hs (.any fun _ => .any fun _ => hs.copyLand)

theorem execBarrierPhaseComplete_keeps {team bar : Nat} (hs : MemoryOk s) : Keeps (execBarrierPhaseComplete team bar s) :=
  eventStep_keeps hs (.any fun _ => .ite .none (.some (hs.same (by simp [State.mem_foldl]))))

theorem execTaskpushPoolFree_keeps {cluster : Nat} (hs : MemoryOk s) : Keeps (execTaskpushPoolFree cluster s) := by
  refine eventStep_keeps hs ?_
  dsimp only
  split
  · exact .none
  · refine .ite .none (.some ?_)
    split
    · split <;> exact hs.same (by simp)
    · exact hs.same (by simp)

theorem execGrowGrant_keeps {bank : Nat} (hs : MemoryOk s) : Keeps (execGrowGrant bank s) :=
  eventStep_keeps hs (.any fun _ => .any fun _ => .any fun _ => .ite (.some hs.finishGrow) .none)

theorem execGrowFail_keeps {bank : Nat} (hs : MemoryOk s) : Keeps (execGrowFail bank s) :=
  eventStep_keeps hs (.any fun _ => .ite .none (.some hs.finishGrow))

theorem execTeamPlace_keeps {grid : Nat} (hs : MemoryOk s) : Keeps (execTeamPlace grid s) :=
  eventStep_keeps hs (.any fun _ => .any fun _ => .ite (.some hs.abortGrid) (.any fun _ => hs.dispatch hs.placeAll))

theorem execTeamRelaunch_keeps {team : Nat} (hs : MemoryOk s) : Keeps (execTeamRelaunch team s) :=
  eventStep_keeps hs (.any fun _ => .any fun _ => .any fun _ => .ite (.some hs.abortGrid)
    (.any fun _ => .any fun _ => hs.dispatch hs.placeAgain))

theorem execPrio3Preempt_keeps {grid core : Nat} (hs : MemoryOk s) : Keeps (execPrio3Preempt grid core s) := by
  refine eventStep_keeps hs (.any fun x => .any fun q => .any fun _ => .any fun _ => .any fun _ =>
    .ite (.any fun f => hs.dispatch (.map ?_)) (.any fun _ => .some (hs.same (by simp))))
  refine Act.Gives.imp (P := MemoryOk) ?_ fun t ht => ht.same (by simp [State.mem_foldl])
  split
  · exact hs.placeNext
  · exact hs.placeAgain

theorem execTeamRetire_keeps {team : Nat} (hs : MemoryOk s) : Keeps (execTeamRetire team s) :=
  eventStep_keeps hs (.any fun _ => .any fun _ => .some (hs.same (by simp [State.mem_foldl])))

theorem execGridRetire_keeps {grid : Nat} (hs : MemoryOk s) : Keeps (execGridRetire grid s) :=
  eventStep_keeps hs (.any fun _ => .any fun _ => .ite (.some (hs.same (by simp)))
    (.any fun _ => hs.flushHeld.dispatch (.map (hs.flushHeld.writeDone.imp fun _ ht => ht.same (by simp [State.mem_foldl])))))

theorem MemoryOk.modCluster {c : Nat} {f : Cluster → Cluster} (hs : MemoryOk s) : MemoryOk (s.modCluster c f) := hs.same rfl

theorem execGatherTick_keeps {cluster : Nat} (hs : MemoryOk s) : Keeps (execGatherTick cluster s) := by
  refine eventStep_keeps hs (.some (.modCluster (MemoryOk.foldl (hs.same ?_) (fun t l ht => ht.formWave.getD ht) _)))
  simp [State.mem_foldl]

theorem execGatherWindowExpiry_keeps {cluster : Nat} (hs : MemoryOk s) : Keeps (execGatherWindowExpiry cluster s) := by
  refine eventStep_keeps hs (.findSome? (fun l => ?_) _)
  split
  · exact .ite hs.formWave .none
  · exact .none

theorem execScribeentWrite_keeps {cluster : Nat} (hs : MemoryOk s) : Keeps (execScribeentWrite cluster s) :=
  eventStep_keeps hs (.any fun _ => .any fun _ => .some (hs.same (by simp)))

theorem execScribeMove_keeps {cluster : Nat} (hs : MemoryOk s) : Keeps (execScribeMove cluster s) :=
  eventStep_keeps hs (.any fun _ => .any fun _ => .any fun _ => .ite (.some (hs.same (by simp)))
    (.any fun _ => .any fun _ => .some (hs.same (by simp))))

theorem execManagementGridStart_keeps {m : ManagementGrid} (hs : MemoryOk s) : Keeps (execManagementGridStart m s) :=
  eventStep_keeps hs (.any fun _ => .any fun _ => .any fun _ => .some (hs.same (by simp)))

theorem execImageLoad_keeps {img : Image} (hs : MemoryOk s) : Keeps (execImageLoad img s) :=
  eventStep_keeps hs (.ite hs.loadImage .none)

theorem execRubricReplace_keeps {die : Nat} {img : Image} {signature : List Byte} {streams : Dword} (hs : MemoryOk s) :
    Keeps (execRubricReplace die img signature streams s) :=
  eventStep_keeps hs (.any fun _ => .any fun _ => .any fun _ => (MemoryOk.loadImage (hs.same (by simp))).bind fun _ ht =>
    .some (ht.same (by simp)))

theorem execStreamLaunch_keeps {die stream : Nat} (hs : MemoryOk s) : Keeps (execStreamLaunch die stream s) := by
  refine eventStep_keeps hs (hs.streamStep fun t base head b ht => Act.Gives.bind (P := fun x => MemoryOk x.2.2) ?_
    fun x hx => .ok (MemoryOk.same hx (by simp)))
  exact .needed ht.launchGrid

theorem execStreamWaitgrid_keeps {die stream : Nat} (hs : MemoryOk s) : Keeps (execStreamWaitgrid die stream s) :=
  eventStep_keeps hs (hs.streamStep fun _ _ _ _ ht => .any fun _ => .ok (ht.same (by simp)))

theorem execStreamWrite_keeps {die stream : Nat} (hs : MemoryOk s) : Keeps (execStreamWrite die stream s) :=
  eventStep_keeps hs (hs.streamStep fun _ _ _ _ ht => .ok (ht.same (by simp)))

theorem execStreamDrain_keeps {die stream : Nat} (hs : MemoryOk s) : Keeps (execStreamDrain die stream s) :=
  eventStep_keeps hs (hs.streamStep fun _ _ _ _ ht => .any fun _ => .ok (ht.same (by simp)))

theorem execStreamBadOp_keeps {die stream : Nat} (hs : MemoryOk s) : Keeps (execStreamBadOp die stream s) :=
  eventStep_keeps hs (hs.streamStep fun _ _ _ _ ht => .ok (ht.same (by simp)))

theorem execTlbinvComplete_keeps {id : Nat} (hs : MemoryOk s) : Keeps (execTlbinvComplete id s) := by
  refine eventStep_keeps hs (.any fun p => ?_)
  split
  · exact .any fun _ => .ite (.some (hs.same (by simp))) (.any fun _ => .some (hs.same (by simp)))
  · exact .none

theorem execBankSwap_keeps {core : Nat} (hs : MemoryOk s) : Keeps (execBankSwap core s) :=
  eventStep_keeps hs (.any fun _ => .any fun _ => .any fun _ => .ite (.some (hs.same (by simp))) (.some (hs.same (by simp))))

theorem execCtxloadComplete_keeps {id : Nat} (hs : MemoryOk s) : Keeps (execCtxloadComplete id s) := by
  refine eventStep_keeps hs (.any fun p => ?_)
  split
  · dsimp only
    refine .ite (.some (hs.same (by simp))) (.ite (.some (hs.same (by simp))) (.ite (.some (hs.same (by simp))) ?_))
    split
    · exact .some (hs.same (by simp))
    · exact .ite (.some (hs.same (by simp))) (.some (hs.same (by simp)))
  · exact .none

end

/-! ### Events of memory, translation and the platform -/

section
variable {s : State}

theorem execHandlerEntry_keeps {strand : Nat} (hs : MemoryOk s) : Keeps (execHandlerEntry strand s) := by
  refine eventStep_keeps hs (.any fun st => ?_)
  split
  · exact .any fun _ => .some (hs.same rfl)
  · exact .none

theorem execParityRollback_keeps {strand reg : Nat} (hs : MemoryOk s) : Keeps (execParityRollback strand reg s) :=
  eventStep_keeps hs (.any fun _ => .any fun _ => .any fun _ => .some hs.parityError)

theorem execLoadReturn_keeps {id : Nat} (hs : MemoryOk s) : Keeps (execLoadReturn id s) :=
  eventStep_keeps hs (.any fun _ => .any fun _ => hs.readLoad.bind fun _ hx => .some (.returnLoad (MemoryOk.same hx rfl)))

theorem execMissRegisterGrant_keeps {core : Nat} (hs : MemoryOk s) : Keeps (execMissRegisterGrant core s) :=
  eventStep_keeps hs (.any fun _ => .some (hs.same (by simp)))

theorem execAtomicPerform_keeps {id : Nat} (hs : MemoryOk s) : Keeps (execAtomicPerform id s) := by
  refine eventStep_keeps hs (.any fun a => ?_)
  dsimp only
  split
  · exact .any fun _ => .some (hs.same (by simp))
  · exact .any fun _ => .ite hs.atomicInBuffer (.any fun _ => .ite (.some (hs.same (by simp)))
      (.any fun _ => hs.atomicAtPoint))

theorem execStorePerform_keeps {id : Nat} (hs : MemoryOk s) : Keeps (execStorePerform id s) := by
  refine eventStep_keeps hs ?_
  split
  · exact hs.performFlight
  · exact .any fun _ => .any fun _ => .any fun _ => .any fun _ => .ite (.some (hs.same (by simp))) (.some (hs.same (by simp)))

theorem execL1Writeback_keeps {core line : Nat} (hs : MemoryOk s) : Keeps (execL1Writeback core line s) :=
  eventStep_keeps hs (.any fun _ => .some (hs.same (by simp)))

theorem execCrossDieApply_keeps {home die : Nat} (hs : MemoryOk s) : Keeps (execCrossDieApply home die s) :=
  eventStep_keeps hs (.map (hs.applyUpdate.imp fun _ ht => ht.same (by simp)))

theorem execReplicaEvict_keeps {die line : Nat} (hs : MemoryOk s) : Keeps (execReplicaEvict die line s) :=
  eventStep_keeps hs (.any fun _ => .some (hs.same rfl))

theorem execLineMigrate_keeps {line cluster : Nat} (hs : MemoryOk s) : Keeps (execLineMigrate line cluster s) :=
  eventStep_keeps hs (.any fun _ => .any fun _ => .any fun _ => .any fun _ => .some (hs.same rfl))

theorem execFetchFill_keeps {strand : Nat} (hs : MemoryOk s) : Keeps (execFetchFill strand s) := by
  refine eventStep_keeps hs (.any fun st => .any fun _ => ?_)
  split
  · exact .none
  · dsimp only
    split
    · exact .any fun _ => .some (hs.same (by simp))
    · exact .some hs.park
    · exact hs.askWalk
    · exact .some hs.walkError
    · exact .none

theorem execTranslationWalk_keeps {id : Nat} (hs : MemoryOk s) : Keeps (execTranslationWalk id s) :=
  eventStep_keeps hs (.any fun _ => .any fun _ => .some hs.walked)

theorem execWalkLockReread_keeps {id : Nat} (hs : MemoryOk s) : Keeps (execWalkLockReread id s) :=
  eventStep_keeps hs (.any fun _ => .any fun _ => .some hs.walked)

theorem execFaultRecordDeliver_keeps {cluster : Nat} (hs : MemoryOk s) : Keeps (execFaultRecordDeliver cluster s) := by
  refine eventStep_keeps hs ?_
  dsimp only
  split
  · next r t ht =>
    refine .some (.modCluster (Opt.Gives.of_eq (P := fun x => MemoryOk x.2) ht (.findSome? (fun r => .map ?_) _)))
    exact hs.ringPut
  · exact .some hs.flushHeld

theorem execCoreGate_keeps {core : Nat} (hs : MemoryOk s) : Keeps (execCoreGate core s) :=
  eventStep_keeps hs (.any fun _ => .any fun _ => .some (hs.same rfl))

theorem execCoreWake_keeps {core : Nat} (hs : MemoryOk s) : Keeps (execCoreWake core s) :=
  eventStep_keeps hs (.any fun _ => .some (hs.same rfl))

theorem execHbmstatClear_keeps {stack : Nat} (hs : MemoryOk s) : Keeps (execHbmstatClear stack s) :=
  eventStep_keeps hs (.any fun _ => .some (hs.same rfl))

theorem execScrubPassEnd_keeps {stack ecs rowmax : Nat} (hs : MemoryOk s) : Keeps (execScrubPassEnd stack ecs rowmax s) :=
  eventStep_keeps hs (.any fun _ => .some (hs.same rfl))

theorem execLaneTest_keeps {core : Nat} {failed : List Nat} (hs : MemoryOk s) : Keeps (execLaneTest core failed s) :=
  eventStep_keeps hs (.any fun _ => .some (.losePin (hs.same rfl)))

theorem execFailLaneInject_keeps {core lane issue : Nat} (hs : MemoryOk s) : Keeps (execFailLaneInject core lane issue s) :=
  eventStep_keeps hs (.any fun _ => .some (hs.same rfl))

theorem execCoreReset_keeps {core : Nat} (hs : MemoryOk s) : Keeps (execCoreReset core s) :=
  eventStep_keeps hs (.any fun _ => .some (.losePin (hs.same (by simp))))

theorem execHostResumeCore_keeps {core : Nat} (hs : MemoryOk s) : Keeps (execHostResumeCore core s) :=
  eventStep_keeps hs (.ite (.some (hs.same rfl)) .none)

theorem execPowerState_keeps {p : Nat} (hs : MemoryOk s) : Keeps (execPowerState p s) :=
  eventStep_keeps hs (.ite (.some (hs.same rfl)) .none)

theorem execDieIdle_keeps {die : Nat} (hs : MemoryOk s) : Keeps (execDieIdle die s) :=
  eventStep_keeps hs (.any fun _ => .any fun _ => .any fun _ => .some (hs.same rfl))

theorem execDieResume_keeps {die : Nat} (hs : MemoryOk s) : Keeps (execDieResume die s) :=
  eventStep_keeps hs (.ite (.some (hs.same rfl)) .none)

theorem execThermalStop_keeps (hs : MemoryOk s) : Keeps (execThermalStop s) :=
  eventStep_keeps hs (.ite .none (.some (.errorRecord (hs.same rfl))))

theorem execThermalResume_keeps {celsius : Nat} (hs : MemoryOk s) : Keeps (execThermalResume celsius s) :=
  eventStep_keeps hs (.ite (.some (MemoryOk.foldl hs.withDevice (fun _ _ ht => ht.same (by simp)) _)) .none)

theorem execHostAccess_keeps {acc : Access} {release : Bool} (hs : MemoryOk s) : Keeps (execHostAccess acc release s) :=
  eventStep_keeps hs (.any fun _ => hs.outsideAccess)

theorem execPeerAccess_keeps {link seq : Nat} {acc : Access} (hs : MemoryOk s) : Keeps (execPeerAccess link seq acc s) :=
  eventStep_keeps hs (.any fun _ => hs.outsideAccess.bind fun _ ht => .some (ht.same (by simp)))

theorem execLinkdown_keeps {link : Nat} (hs : MemoryOk s) : Keeps (execLinkdown link s) :=
  eventStep_keeps hs (.any fun _ => .some (.errorRecord (hs.same (by simp))))

theorem execLuteLinkUp_keeps {link : Nat} (hs : MemoryOk s) : Keeps (execLuteLinkUp link s) :=
  eventStep_keeps hs (.any fun _ => .some (hs.same (by simp)))

theorem execNeterr_keeps {window : Nat} (hs : MemoryOk s) : Keeps (execNeterr window s) := by
  refine eventStep_keeps hs (.any fun _ => .any fun _ => .any fun _ => .some (MemoryOk.foldl ?_ (fun t x ht => ht.killTeam) _))
  refine .errorRecord (.performNow (hs.same ?_))
  rfl

theorem execInboundRdmaWrite_keeps {window offset : Nat} {bytes : List Byte} (hs : MemoryOk s) :
    Keeps (execInboundRdmaWrite window offset bytes s) :=
  eventStep_keeps hs (.any fun _ => .any fun _ => .any fun _ => .some hs.outsideWrite)

theorem execBoot_keeps {firmware : SignedBlob} {rubric : Image} {signature : List Byte} {streams : Dword} (hs : MemoryOk s) :
    Keeps (execBoot firmware rubric signature streams s) :=
  eventStep_keeps hs (.any fun _ => .ite (.some (.firmwareRuns (hs.same rfl))) (.some (hs.same rfl)))

theorem execFirmwareRecovery_keeps {firmware : SignedBlob} (hs : MemoryOk s) : Keeps (execFirmwareRecovery firmware s) :=
  eventStep_keeps hs (.ite (.some hs.firmwareRuns) .none)

theorem execAttestationReport_keeps {nonce : List Byte} (hs : MemoryOk s) : Keeps (execAttestationReport nonce s) :=
  eventStep_keeps hs (.ite (.some (hs.same rfl)) .none)

theorem execTestUnlock_keeps {signature : List Byte} (hs : MemoryOk s) : Keeps (execTestUnlock signature s) :=
  eventStep_keeps hs (.ite (.some (hs.same rfl)) .none)

theorem execOwnerKeyEnrol_keeps {key : List Byte} (hs : MemoryOk s) : Keeps (execOwnerKeyEnrol key s) :=
  eventStep_keeps hs (.ite (.some (hs.same rfl)) .none)

end

end Sys2Proof.Safety
end

section
/-!
PROOFS. One step keeps memory in its canonical form: every instruction and every event, the events that may be due, and each
way in which a step chooses one.
-/

namespace Sys2Proof.Safety

open Sys2Proof.Machine

/-! ### Every instruction and every event -/

theorem exec_keeps {s : State} {i : Instr} (hs : MemoryOk s) : Keeps (exec i s) := by
  cases i with dsimp only [exec]
  | hs => exact execHs_keeps hs
  | add | sub | and | or | xor | andn | min | max | minb | maxb | abs | addc | subb | adds | subs | neg | addImm |
    subImm | andImm | orImm | xorImm | andnImm | minImm | maxImm | minbImm | maxbImm | addcImm | subbImm | addsImm |
    subsImm | shl | shr | sar | rol | bfx | bfxb | bfi | clz | popc | brev | prmt | fshf | mul | mulhi | mulhib | mad
    | madhi | madhib | cmp | cmpi | mov | movi | rdw | rdk | movToFstat | movFromFstat | sel | pand | por | pxor |
    pnot | pset | pmov | lea | add64 | sub64 | shl64 | mulw | cmp64 | fadd | fsub | fmin | fmax | fmul | fscale | ffma
    | ffms | fnma | fnms | fcmp | fclass | frnd | fcpys | fabs | fneg | ffrac | hadd2 | hsub2 | hmul2 | hfma2 | hmin2
    | hmax2 | idot4 | fdot2 | f8dot4 | nqdec | nqdecf | nqdot | nx | nxc | nxi | ret =>
    exact laneStep_keeps hs
  | div | divb | rem | remb => exact divide_keeps hs
  | rdsr => exact execRdsr_keeps hs
  | frcp | frsq | fsqrt | fdiv | fexp2 | flog2 | fsinp | fcosp | ftanh => exact sfuOp_keeps hs
  | f2f | f2i | i2f | i2i => exact cvtOp_keeps hs
  | pack2 => exact execPack2_keeps hs
  | unpack2 => exact execUnpack2_keeps hs
  | ld | lds | lda => exact load_keeps hs
  | st | strel => exact store_keeps hs
  | aadd | afadd | amin | amax | aminb | amaxb | aand | aor | axor | axch | acas | ainc => exact atom_keeps hs
  | hld | hset | hrd | hcpy | meet | gvoteAny | gvoteAll | gvoteBallot | gbcast | gelect | fencew | gred | gscan |
    shflIdx | shflUp | shflDn | shflXor | cdet | gcombF32 | gcombS32 =>
    exact present_keeps hs
  | fenceAcq | fenceRel | fenceAr | fenceSc => exact fence_keeps hs
  | cwb | cinv => exact cacheOp_keeps hs
  | pref => exact execPref_keeps hs
  | waitline => exact execWaitline_keeps hs
  | call => exact execCall_keeps hs
  | calli => exact execCalli_keeps hs
  | exit => exact execExit_keeps hs
  | yield => exact execYield_keeps hs
  | refill => exact execRefill_keeps hs
  | region => exact execRegion_keeps hs
  | trap => exact execTrap_keeps hs
  | brk => exact execBrk_keeps hs
  | wacfg => exact execWacfg_keeps hs
  | wapush | ward | wapr => exact accAccess_keeps hs
  | waclr => exact execWaclr_keeps hs
  | wastat => exact execWastat_keeps hs
  | wasave => exact execWasave_keeps hs
  | waload => exact execWaload_keeps hs
  | mxmmaBf16 | mxmmaF16 | mxmmaE4m3 | mxmmaE5m2 | mxmmaS8 | mxmmaNq4 => exact mxmma_keeps hs
  | mxz => exact execMxz_keeps hs
  | mxst => exact execMxst_keeps hs
  | mxrd => exact execMxrd_keeps hs
  | mxwr => exact execMxwr_keeps hs
  | mxcommit => exact execMxcommit_keeps hs
  | mxwait => exact execMxwait_keeps hs
  | mxstat => exact execMxstat_keeps hs
  | cpy | tcpy | chain => exact copy_keeps hs
  | tagarm => exact execTagarm_keeps hs
  | tagwaitAny | tagwaitAll => exact tagwait_keeps hs
  | tagff => exact execTagff_keeps hs
  | tagclr => exact execTagclr_keeps hs
  | tagrd => exact execTagrd_keeps hs
  | tbar => exact execTbar_keeps hs
  | tbara => exact execTbara_keeps hs
  | tbarw => exact execTbarw_keeps hs
  | launch => exact execLaunch_keeps hs
  | gwait => exact execGwait_keeps hs
  | taskpush => exact execTaskpush_keeps hs
  | rgrow => exact execRgrow_keeps hs
  | rshrink => exact execRshrink_keeps hs
  | commit => exact execCommit_keeps hs
  | rds => exact execRds_keeps hs
  | wrs => exact execWrs_keeps hs
  | tlbinv => exact execTlbinv_keeps hs
  | unpark => exact execUnpark_keeps hs
  | swapctx => exact execSwapctx_keeps hs
  | ctxsave => exact execCtxsave_keeps hs
  | ctxload => exact execCtxload_keeps hs
  | trapret | trapretSkip => exact trapret_keeps hs
  | halt => exact execHalt_keeps hs
  | sleep => exact execSleep_keeps hs
  | lmapw => exact execLmapw_keeps hs
  | idivResult | sfuResult | cvtResult => exact eventStep_keeps hs hs.unitResult
  | loadReturn => exact execLoadReturn_keeps hs
  | atomicPerform => exact execAtomicPerform_keeps hs
  | waitlineWake => exact execWaitlineWake_keeps hs
  | meetComplete => exact execMeetComplete_keeps hs
  | mxChunk => exact eventStep_keeps hs hs.mxChunk
  | mxCommandComplete => exact eventStep_keeps hs hs.mxCommand
  | mxGroupComplete => exact eventStep_keeps hs hs.groupDone
  | mxwdFire => exact eventStep_keeps hs hs.mxReset
  | copyLand => exact execCopyLand_keeps hs
  | copyRetry => exact execCopyRetry_keeps hs
  | directoryRecall => exact execDirectoryRecall_keeps hs
  | barrierPhaseComplete => exact execBarrierPhaseComplete_keeps hs
  | launchStatus => exact execLaunchStatus_keeps hs
  | taskpushPoolFree => exact execTaskpushPoolFree_keeps hs
  | growGrant => exact execGrowGrant_keeps hs
  | growFail => exact execGrowFail_keeps hs
  | tlbinvComplete => exact execTlbinvComplete_keeps hs
  | ctxsaveComplete => exact execCtxsaveComplete_keeps hs
  | scribeentWrite => exact execScribeentWrite_keeps hs
  | hbmstatClear => exact execHbmstatClear_keeps hs
  | fetchFill => exact execFetchFill_keeps hs
  | missRegisterGrant => exact execMissRegisterGrant_keeps hs
  | translationWalk => exact execTranslationWalk_keeps hs
  | walkLockReread => exact execWalkLockReread_keeps hs
  | faultRecordDeliver => exact execFaultRecordDeliver_keeps hs
  | handlerEntry => exact execHandlerEntry_keeps hs
  | parityRollback => exact execParityRollback_keeps hs
  | teamRelaunch => exact execTeamRelaunch_keeps hs
  | teamPlace => exact execTeamPlace_keeps hs
  | prio3Preempt => exact execPrio3Preempt_keeps hs
  | bankSwap => exact execBankSwap_keeps hs
  | teamRetire => exact execTeamRetire_keeps hs
  | gridRetire => exact execGridRetire_keeps hs
  | coreGate => exact execCoreGate_keeps hs
  | coreWake => exact execCoreWake_keeps hs
  | gatherTick => exact execGatherTick_keeps hs
  | gatherWindowExpiry => exact execGatherWindowExpiry_keeps hs
  | laneTest => exact execLaneTest_keeps hs
  | scribeMove => exact execScribeMove_keeps hs
  | failLaneInject => exact execFailLaneInject_keeps hs
  | lineMigrate => exact execLineMigrate_keeps hs
  | crossDieApply => exact execCrossDieApply_keeps hs
  | replicaEvict => exact execReplicaEvict_keeps hs
  | scrubPassEnd => exact execScrubPassEnd_keeps hs
  | streamLaunch => exact execStreamLaunch_keeps hs
  | streamWaitgrid => exact execStreamWaitgrid_keeps hs
  | streamWrite => exact execStreamWrite_keeps hs
  | streamDrain => exact execStreamDrain_keeps hs
  | streamBadOp => exact execStreamBadOp_keeps hs
  | rubricReplace => exact execRubricReplace_keeps hs
  | hostResumeCore => exact execHostResumeCore_keeps hs
  | powerState => exact execPowerState_keeps hs
  | dieIdle => exact execDieIdle_keeps hs
  | dieResume => exact execDieResume_keeps hs
  | thermalStop => exact execThermalStop_keeps hs
  | thermalResume => exact execThermalResume_keeps hs
  | linkdown => exact execLinkdown_keeps hs
  | luteFlitRetransmit => exact .next hs
  | neterr => exact execNeterr_keeps hs
  | inboundRdmaWrite => exact execInboundRdmaWrite_keeps hs
  | boot => exact execBoot_keeps hs
  | firmwareRecovery => exact execFirmwareRecovery_keeps hs
  | attestationReport => exact execAttestationReport_keeps hs
  | testUnlock => exact execTestUnlock_keeps hs
  | deviceReset => exact execDeviceReset_keeps hs
  | storePerform => exact execStorePerform_keeps hs
  | l1Writeback => exact execL1Writeback_keeps hs
  | ctxloadComplete => exact execCtxloadComplete_keeps hs
  | hostAccess => exact execHostAccess_keeps hs
  | peerAccess => exact execPeerAccess_keeps hs
  | imageLoad => exact execImageLoad_keeps hs
  | coreReset => exact execCoreReset_keeps hs
  | luteLinkUp => exact execLuteLinkUp_keeps hs
  | managementGridStart => exact execManagementGridStart_keeps hs
  | ownerKeyEnrol => exact execOwnerKeyEnrol_keeps hs

/-! ### The events that may be due -/

/-- An event that keeps memory in its canonical form. -/
def EventKeeps (f : Event) : Prop := ∀ s, MemoryOk s → Keeps (f s)

/-- Events that all keep memory in its canonical form. -/
def EventsKeep (l : List Event) : Prop := ∀ f ∈ l, EventKeeps f

section
variable {α : Type}

theorem EventsKeep.nil : EventsKeep [] := nofun

theorem EventsKeep.cons {f : Event} {l : List Event} (hf : EventKeeps f) (hl : EventsKeep l) : EventsKeep (f :: l) :=
  List.forall_mem_cons.mpr ⟨hf, hl⟩

theorem EventsKeep.append {l l' : List Event} (h : EventsKeep l) (h' : EventsKeep l') : EventsKeep (l ++ l') :=
  List.forall_mem_append.mpr ⟨h, h'⟩

theorem EventsKeep.map {f : α → Event} {l : List α} (h : ∀ a, EventKeeps (f a)) : EventsKeep (l.map f) :=
  List.forall_mem_map.mpr fun a _ => h a

theorem EventsKeep.flatMap {f : α → List Event} {l : List α} (h : ∀ a, EventsKeep (f a)) : EventsKeep (l.flatMap f) :=
  fun g hg => by
    obtain ⟨a, -, ha⟩ := List.mem_flatMap.mp hg
    exact h a g ha

theorem EventsKeep.filterMap {f : α → Option Event} {l : List α} (h : ∀ a, Opt.Gives EventKeeps (f a)) :
    EventsKeep (l.filterMap f) := fun g hg => by
  obtain ⟨a, -, ha⟩ := List.mem_filterMap.mp hg
  exact h a g ha

end

section
variable {s : State}

theorem unitResult_keeps {unit id : Nat} (hs : MemoryOk s) : Keeps (eventStep s fun s => s.unitResult unit id) :=
  eventStep_keeps hs hs.unitResult

theorem memoryEvents_keep : EventsKeep (memoryEvents s) := by
  unfold memoryEvents
  refine .append (.append (.append (.append (.append (.append (.append (.append (.append (.append (.append ?_ ?_)
    (.map fun _ _ => execCrossDieApply_keeps)) (.map fun _ _ => execStorePerform_keeps))
    (.map fun _ _ => execStorePerform_keeps)) (.map fun _ _ => execAtomicPerform_keeps))
    (.map fun _ _ => execLoadReturn_keeps)) (.map fun _ _ => execMissRegisterGrant_keeps))
    (.flatMap fun _ => .map fun _ _ ht => .next ht.waArrive)) (.map fun w => ?_))
    (.map fun _ _ => execWaitlineWake_keeps)) (.filterMap fun p => ?_)
  · refine .flatMap fun p => .map fun r => ?_
    split <;> exact fun _ => unitResult_keeps
  · refine .filterMap fun p => ?_
    split
    · exact .some fun _ => execHandlerEntry_keeps
    · exact .none
  · split
    · exact fun _ => execTranslationWalk_keeps
    · exact fun _ => execWalkLockReread_keeps
  · refine .ite ?_ .none
    split
    · exact .some fun _ => execFetchFill_keeps
    · exact .none

theorem engineEvents_keep : EventsKeep (engineEvents s) := by
  unfold engineEvents
  refine .append (.append (.append (.append (.flatMap fun _ => .map fun _ _ => execMeetComplete_keeps)
    (.flatMap fun _ => .map fun _ _ => execBarrierPhaseComplete_keeps))
    (.flatMap fun _ => .flatMap fun _ => .cons (fun _ => execCopyRetry_keeps) (.map fun _ _ => execCopyLand_keeps)))
    (.flatMap fun c => .cons (fun t ht => ?_) (.cons (fun t ht => ?_) .nil))) (.flatMap fun _ => .map fun _ t ht => ?_)
  · exact eventStep_keeps ht ht.mxCommand
  · exact eventStep_keeps ht ht.mxChunk
  · exact eventStep_keeps ht ht.groupDone

theorem requestEvents_keep : EventsKeep (requestEvents s) := by
  unfold requestEvents
  refine .append (.append (.append (.append (.flatMap fun _ => .cons (fun _ => execBankSwap_keeps)
    (.cons (fun _ => execCoreWake_keeps) (.cons (fun _ => execLaneTest_keeps) .nil))) (.map fun p => ?_))
    (.flatMap fun _ => .cons (fun _ => execScribeentWrite_keeps) (.cons (fun _ => execFaultRecordDeliver_keeps)
    (.cons (fun _ => execTaskpushPoolFree_keeps) .nil)))) (.map fun _ _ => execHbmstatClear_keeps))
    (.map fun _ _ => execGrowGrant_keeps)
  split
  · exact fun _ => execLaunchStatus_keeps
  · exact fun _ => execTlbinvComplete_keeps
  · exact fun _ => execCtxloadComplete_keeps
  · exact fun _ => execCtxsaveComplete_keeps

theorem dispatchEvents_keep : EventsKeep (dispatchEvents s) :=
  .append (.append (.append (.append (.append
    (.flatMap fun _ => .cons (fun _ => execTeamRetire_keeps) (.cons (fun _ => execTeamRelaunch_keeps) .nil))
    (.flatMap fun _ => .cons (fun _ => execGridRetire_keeps) (.cons (fun _ => execTeamPlace_keeps) .nil)))
    (.flatMap fun _ => .map fun _ _ => execPrio3Preempt_keeps)) (.map fun _ _ => execGatherTick_keeps))
    (.map fun _ _ => execGatherWindowExpiry_keeps))
    (.flatMap fun _ => .flatMap fun _ => .cons (fun _ => execStreamLaunch_keeps) (.cons (fun _ => execStreamWaitgrid_keeps)
      (.cons (fun _ => execStreamWrite_keeps) (.cons (fun _ => execStreamDrain_keeps)
        (.cons (fun _ => execStreamBadOp_keeps) .nil)))))

theorem dueEvents_keep : EventsKeep (dueEvents s) :=
  .append (.append (.append (.append (.append memoryEvents_keep engineEvents_keep) requestEvents_keep) dispatchEvents_keep)
    (.flatMap fun _ => .map fun _ _ => execL1Writeback_keeps)) (.map fun _ _ => execGrowFail_keeps)

theorem idleEvents_keep : EventsKeep (idleEvents s) :=
  .append (.map fun _ _ => execGatherTick_keeps) (.map fun _ _ => execCoreGate_keeps)

end

/-! ### One step -/

section
variable {s : State}

theorem MemoryOk.chooseWave {run : Run} {core : Nat} (hs : MemoryOk s) :
    Opt.Gives (fun x => MemoryOk x.2) (s.chooseWave run core) := by
  unfold State.chooseWave
  dsimp only
  split
  · exact .some (hs.same (by simp))
  · split
    · exact .none
    · exact .some (hs.same (by simp))

theorem MemoryOk.startIssue {run : Run} {core : Nat} (hs : MemoryOk s) : Opt.Gives MemoryOk (s.startIssue run core) := by
  unfold State.startIssue
  refine .ite .none ?_
  split
  · exact .none
  · next w t ht =>
    refine .some (MemoryOk.same (s := t) (hs.chooseWave _ ht) ?_)
    rfl

theorem MemoryOk.resetWaits {run : Run} {wave : Nat} (hs : MemoryOk s) : MemoryOk (s.resetWaits run wave) :=
  hs.same (by simp)

theorem MemoryOk.scribeKeep {run : Run} {wave : Nat} (hs : MemoryOk s) : MemoryOk (s.scribeKeep run wave) :=
  hs.same (by simp)

theorem MemoryOk.endIssue {run : Run} {i : Issue} (hs : MemoryOk s) : MemoryOk (s.endIssue run i) := by
  unfold State.endIssue
  refine .scribeKeep (.resetWaits (.mismatchAt (MemoryOk.foldl (MemoryOk.foldl (hs.same ?_) (fun _ _ ht => ht.deliver) _)
    (fun _ _ ht => ht.same (by simp)) _)))
  rfl

theorem runNext_keeps {i : Issue} {k : Nat} {rest : List Nat} (hs : MemoryOk s) : Keeps (s.runNext exec i k rest) := by
  unfold State.runNext
  dsimp only
  split
  · exact .next (hs.same rfl)
  · split
    · exact .next (hs.same rfl)
    · split
      · exact .next (.trap (hs.same rfl))
      · split
        · exact .next (hs.same (by simp))
        · exact exec_keeps (hs.same rfl)

theorem continueIssue_keeps {i : Issue} (hs : MemoryOk s) : Keeps (s.continueIssue exec i) := by
  unfold State.continueIssue
  split
  · exact .next hs.endIssue
  · split
    · exact .next (.ite (hs.same (by simp)) hs.walked)
    · exact runNext_keeps hs

theorem takeInner_keeps {i : Issue} {x : Instr} {rest : List Turn} (hs : MemoryOk s) :
    Keeps (s.takeInner exec i x rest) := by
  unfold State.takeInner
  split
  · exact .next (hs.same rfl)
  · have hrun : Keeps (exec x { s with turns := rest }) := exec_keeps (hs.same rfl)
    split
    · next t ht => exact .next ((hrun.of_eq ht).same rfl)
    · exact hrun

theorem stepIssue_keeps {i : Issue} (hs : MemoryOk s) : Keeps (s.stepIssue exec i) := by
  unfold State.stepIssue
  split
  · exact takeInner_keeps hs
  · exact continueIssue_keeps hs

theorem takeTurn_keeps {t : Turn} {rest : List Turn} (hs : MemoryOk s) : Keeps (s.takeTurn exec State.upset t rest) := by
  replace hs : MemoryOk { s with turns := rest } := hs
  cases t with
  | event | inner => exact exec_keeps hs
  | upset => exact .next hs.upset
  | issue c =>
    unfold State.takeTurn
    dsimp only
    split
    · next t ht => exact .next (hs.startIssue t ht)
    · exact .next hs

theorem firstChange_keeps {l : List Event} (hs : MemoryOk s) (hl : EventsKeep l) : Opt.Gives Keeps (firstChange s l) := by
  induction l with
  | nil => exact .none
  | cons f l ih =>
    unfold firstChange
    exact .ite (ih fun g hg => hl g (.tail _ hg)) (.some (hl f (.head _) s hs))

theorem firstIssue_keeps {run : Run} {l : List Nat} (hs : MemoryOk s) : Opt.Gives MemoryOk (firstIssue run s l) := by
  induction l with
  | nil => exact .none
  | cons c l ih =>
    unfold firstIssue
    split
    · next t ht => exact .some (hs.startIssue t ht)
    · exact ih

theorem byDefault_keeps (hs : MemoryOk s) : Keeps (s.byDefault exec dueEvents idleEvents) := by
  unfold State.byDefault
  split
  · next r hr => exact firstChange_keeps hs dueEvents_keep r hr
  · split
    · next t ht => exact .next (firstIssue_keeps hs t ht)
    · exact (firstChange_keeps hs idleEvents_keep).getD (.next hs)

theorem step_keeps (hs : MemoryOk s) : Keeps (step s) := by
  cases hi : s.issue with
  | some i =>
    rw [step_inIssue hi]
    exact stepIssue_keeps hs
  | none =>
    cases ht : s.turns with
    | cons t rest =>
      rw [step_turn hi ht]
      exact takeTurn_keeps hs
    | nil =>
      rw [step_noTurn hi ht]
      exact byDefault_keeps hs

end

/-- Settles O60: memory is written by the pokes of performed writes and of records alone, and a poke keeps the canonical
form; each instruction and each event keeps it (`exec_keeps`), and so does each way in which a step chooses one. -/
theorem stepKeepsMemory : Obligations.StepKeepsMemory := by
  intro s t hs h
  exact (step_keeps hs).of_eq h

end Sys2Proof.Safety
end

section
/-!
PROOFS. Decode and encode agree (R54, R58, R71). From an instruction to its word there is one lemma per constructor
(`RoundTrip`). From a word to its instruction the fields of a format telescope: a field, placed where it was read, is what the
word loses when the bits from the field down are cleared and not only those below it.
-/

namespace Sys2Proof.Laws

/-! ### Words by their fields -/

/-- A word with its low `k` bits cleared. -/
def highPart (w k : Nat) : Int := w / 2 ^ k * 2 ^ k

section
variable {w : Nat}

@[simp] theorem highPart_zero : highPart w 0 = w := by simp [highPart]

/-- A word of `k` bits has none above them. -/
theorem highPart_eq_zero {k : Nat} (h : w < 2 ^ k) : highPart w k = 0 := by
  rw [highPart, Int.ediv_eq_zero_of_lt (by positivity) (by exact_mod_cast h), zero_mul]

/-- A word, cut at the lower end of a field. -/
theorem highPart_eq_field_add (w lo n : Nat) : highPart w lo = fld w lo n * 2 ^ lo + highPart w (lo + n) := by
  have h : 2 ^ n * (w / 2 ^ (lo + n)) + fld w lo n = w / 2 ^ lo := by
    rw [pow_add, ← Nat.div_div_eq_div_mul]
    exact Nat.div_add_mod _ _
  have h' : (2 : Int) ^ n * (w / 2 ^ (lo + n)) + fld w lo n = w / 2 ^ lo := by exact_mod_cast h
  simp only [highPart, ← h', pow_add]
  ring

/-- What the value of one field says about the word. -/
theorem fld_eq_iff (w lo n m : Nat) : fld w lo n = m ↔ highPart w lo = m * 2 ^ lo + highPart w (lo + n) := by
  rw [highPart_eq_field_add w lo n, add_left_inj, mul_left_inj' (by positivity)]
  exact Nat.cast_inj.symm

/-- A field of the word, placed again where it stood. -/
theorem put_field (u lo n : Nat) :
    (put u lo (BitVec.ofNat n (w / 2 ^ lo)) : Int) = u + (highPart w lo - highPart w (lo + n)) := by
  rw [highPart_eq_field_add w lo n, put, BitVec.toNat_ofNat]
  push_cast
  ring

/-! ### What a decoder answers -/

/-- What a decoder answers for the word `w` is no instruction, or one whose word is `w`. -/
def Encodes (w : Nat) : Except DecodeError Instr → Prop
  | .ok i => encode i = some w
  | .error _ => True

theorem Encodes.error (x : DecodeError) : Encodes w (.error x) := trivial

theorem Encodes.ok {i : Instr} {u : Nat} (h : encode i = some u) (hu : (u : Int) = w) : Encodes w (.ok i) := by
  obtain rfl : u = w := Int.ofNat_inj.mp hu
  exact h

/-- A row of a class: its condition may be used where it holds. -/
theorem Encodes.ite {c : Prop} [Decidable c] {x y : Except DecodeError Instr} (hx : c → Encodes w x) (hy : Encodes w y) :
    Encodes w (if c then x else y) := by
  split
  · next h => exact hx h
  · exact hy

/-- In every row the class, the minor, the reserved fields, which are 0, and the fields that the instruction keeps follow on each
other from bit 31 to bit 0, so that their sum is the word. -/
theorem encodes_decodeWord (hw : w < 2 ^ 32) : Encodes w (decodeWord w) := by
  have hhigh := highPart_eq_zero hw
  simp only [decodeWord,
    decodeHint, decodeIalu, decodeIalui, decodeShift, decodeImul, decodeIdiv, decodeIcmp, decodeMove, decodePred,
    decodeAddr, decodeFadd, decodeFmul, decodeFfma, decodeFcmp, decodeFmisc, decodeSfu, decodeCvt, decodePk16,
    decodeDot, decodeNq, decodeLd, decodeSt, decodeAtom, decodeHnd, decodeFence, decodeCtrl, decodeGrp, decodeXlane,
    decodeCdet, decodeWa, decodeMx, decodeCpe, decodeTeam, decodeSys]
  split
  repeat' with_reducible refine Encodes.ite (fun _ => ?_) ?_
  any_goals exact Encodes.error _
  all_goals
    refine Encodes.ok rfl ?_
    simp only [put_field, fld_eq_iff, Nat.reduceAdd, highPart_zero] at *
    omega

end

/-! ### The statement -/

/-- One lemma per constructor, in the order of the constructors. -/
theorem roundTrip_statement : ∀ i, RoundTrip.Statement i :=
  Instr.rec
    RoundTrip.hs RoundTrip.add RoundTrip.sub RoundTrip.and RoundTrip.or RoundTrip.xor RoundTrip.andn RoundTrip.min
    RoundTrip.max RoundTrip.minb RoundTrip.maxb RoundTrip.abs RoundTrip.addc RoundTrip.subb RoundTrip.adds
    RoundTrip.subs RoundTrip.neg RoundTrip.addImm RoundTrip.subImm RoundTrip.andImm RoundTrip.orImm RoundTrip.xorImm
    RoundTrip.andnImm RoundTrip.minImm RoundTrip.maxImm RoundTrip.minbImm RoundTrip.maxbImm RoundTrip.addcImm
    RoundTrip.subbImm RoundTrip.addsImm RoundTrip.subsImm RoundTrip.shl RoundTrip.shr RoundTrip.sar RoundTrip.rol
    RoundTrip.bfx RoundTrip.bfxb RoundTrip.bfi RoundTrip.clz RoundTrip.popc RoundTrip.brev RoundTrip.prmt
    RoundTrip.fshf RoundTrip.mul RoundTrip.mulhi RoundTrip.mulhib RoundTrip.mad RoundTrip.madhi RoundTrip.madhib
    RoundTrip.div RoundTrip.divb RoundTrip.rem RoundTrip.remb RoundTrip.cmp RoundTrip.cmpi RoundTrip.mov
    RoundTrip.movi RoundTrip.rdsr RoundTrip.rdw RoundTrip.rdk RoundTrip.movToFstat RoundTrip.movFromFstat
    RoundTrip.sel RoundTrip.pand RoundTrip.por RoundTrip.pxor RoundTrip.pnot RoundTrip.pset RoundTrip.pmov
    RoundTrip.lea RoundTrip.add64 RoundTrip.sub64 RoundTrip.shl64 RoundTrip.mulw RoundTrip.cmp64 RoundTrip.fadd
    RoundTrip.fsub RoundTrip.fmin RoundTrip.fmax RoundTrip.fmul RoundTrip.fscale RoundTrip.ffma RoundTrip.ffms
    RoundTrip.fnma RoundTrip.fnms RoundTrip.fcmp RoundTrip.fclass RoundTrip.frnd RoundTrip.fcpys RoundTrip.fabs
    RoundTrip.fneg RoundTrip.ffrac RoundTrip.frcp RoundTrip.frsq RoundTrip.fsqrt RoundTrip.fdiv RoundTrip.fexp2
    RoundTrip.flog2 RoundTrip.fsinp RoundTrip.fcosp RoundTrip.ftanh RoundTrip.f2f RoundTrip.f2i RoundTrip.i2f
    RoundTrip.i2i RoundTrip.pack2 RoundTrip.unpack2 RoundTrip.hadd2 RoundTrip.hsub2 RoundTrip.hmul2 RoundTrip.hfma2
    RoundTrip.hmin2 RoundTrip.hmax2 RoundTrip.idot4 RoundTrip.fdot2 RoundTrip.f8dot4 RoundTrip.nqdec RoundTrip.nqdecf
    RoundTrip.nqdot RoundTrip.ld RoundTrip.lds RoundTrip.lda RoundTrip.st RoundTrip.strel RoundTrip.aadd
    RoundTrip.afadd RoundTrip.amin RoundTrip.amax RoundTrip.aminb RoundTrip.amaxb RoundTrip.aand RoundTrip.aor
    RoundTrip.axor RoundTrip.axch RoundTrip.acas RoundTrip.ainc RoundTrip.hld RoundTrip.hset RoundTrip.hrd
    RoundTrip.hcpy RoundTrip.fenceAcq RoundTrip.fenceRel RoundTrip.fenceAr RoundTrip.fenceSc RoundTrip.cwb
    RoundTrip.cinv RoundTrip.pref RoundTrip.waitline RoundTrip.nx RoundTrip.nxc RoundTrip.nxi RoundTrip.call
    RoundTrip.calli RoundTrip.ret RoundTrip.exit RoundTrip.yield RoundTrip.refill RoundTrip.region RoundTrip.trap
    RoundTrip.brk RoundTrip.meet RoundTrip.gvoteAny RoundTrip.gvoteAll RoundTrip.gvoteBallot RoundTrip.gbcast
    RoundTrip.gelect RoundTrip.fencew RoundTrip.gred RoundTrip.gscan RoundTrip.shflIdx RoundTrip.shflUp
    RoundTrip.shflDn RoundTrip.shflXor RoundTrip.cdet RoundTrip.gcombF32 RoundTrip.gcombS32 RoundTrip.wacfg
    RoundTrip.wapush RoundTrip.ward RoundTrip.wapr RoundTrip.waclr RoundTrip.wastat RoundTrip.wasave RoundTrip.waload
    RoundTrip.mxmmaBf16 RoundTrip.mxmmaF16 RoundTrip.mxmmaE4m3 RoundTrip.mxmmaE5m2 RoundTrip.mxmmaS8
    RoundTrip.mxmmaNq4 RoundTrip.mxz RoundTrip.mxst RoundTrip.mxrd RoundTrip.mxwr RoundTrip.mxcommit RoundTrip.mxwait
    RoundTrip.mxstat RoundTrip.cpy RoundTrip.tcpy RoundTrip.chain RoundTrip.tagarm RoundTrip.tagwaitAny
    RoundTrip.tagwaitAll RoundTrip.tagff RoundTrip.tagclr RoundTrip.tagrd RoundTrip.tbar RoundTrip.tbara
    RoundTrip.tbarw RoundTrip.launch RoundTrip.gwait RoundTrip.taskpush RoundTrip.rgrow RoundTrip.rshrink
    RoundTrip.commit RoundTrip.rds RoundTrip.wrs RoundTrip.tlbinv RoundTrip.unpark RoundTrip.swapctx RoundTrip.ctxsave
    RoundTrip.ctxload RoundTrip.trapret RoundTrip.trapretSkip RoundTrip.halt RoundTrip.sleep RoundTrip.lmapw
    RoundTrip.idivResult RoundTrip.sfuResult RoundTrip.cvtResult RoundTrip.loadReturn RoundTrip.atomicPerform
    RoundTrip.waitlineWake RoundTrip.meetComplete RoundTrip.mxChunk RoundTrip.mxCommandComplete
    RoundTrip.mxGroupComplete RoundTrip.mxwdFire RoundTrip.copyLand RoundTrip.copyRetry RoundTrip.directoryRecall
    RoundTrip.barrierPhaseComplete RoundTrip.launchStatus RoundTrip.taskpushPoolFree RoundTrip.growGrant
    RoundTrip.growFail RoundTrip.tlbinvComplete RoundTrip.ctxsaveComplete RoundTrip.scribeentWrite
    RoundTrip.hbmstatClear RoundTrip.fetchFill RoundTrip.missRegisterGrant RoundTrip.translationWalk
    RoundTrip.walkLockReread RoundTrip.faultRecordDeliver RoundTrip.handlerEntry RoundTrip.parityRollback
    RoundTrip.teamRelaunch RoundTrip.teamPlace RoundTrip.prio3Preempt RoundTrip.bankSwap RoundTrip.teamRetire
    RoundTrip.gridRetire RoundTrip.coreGate RoundTrip.coreWake RoundTrip.gatherTick RoundTrip.gatherWindowExpiry
    RoundTrip.laneTest RoundTrip.scribeMove RoundTrip.failLaneInject RoundTrip.lineMigrate RoundTrip.crossDieApply
    RoundTrip.replicaEvict RoundTrip.scrubPassEnd RoundTrip.streamLaunch RoundTrip.streamWaitgrid
    RoundTrip.streamWrite RoundTrip.streamDrain RoundTrip.streamBadOp RoundTrip.rubricReplace RoundTrip.hostResumeCore
    RoundTrip.powerState RoundTrip.dieIdle RoundTrip.dieResume RoundTrip.thermalStop RoundTrip.thermalResume
    RoundTrip.linkdown RoundTrip.luteFlitRetransmit RoundTrip.neterr RoundTrip.inboundRdmaWrite RoundTrip.boot
    RoundTrip.firmwareRecovery RoundTrip.attestationReport RoundTrip.testUnlock RoundTrip.deviceReset
    RoundTrip.storePerform RoundTrip.l1Writeback RoundTrip.ctxloadComplete RoundTrip.hostAccess RoundTrip.peerAccess
    RoundTrip.imageLoad RoundTrip.coreReset RoundTrip.luteLinkUp RoundTrip.managementGridStart RoundTrip.ownerKeyEnrol

theorem decodeWord_of_encode {i : Instr} {w : Nat} (h : encode i = some w) : decodeWord w = .ok i :=
  (roundTrip_statement i w h).2

theorem encode_of_decodeWord {i : Instr} {w : Nat} (hw : w < 2 ^ 32) (h : decodeWord w = .ok i) : encode i = some w := by
  simpa only [h, Encodes] using encodes_decodeWord hw

/-- Settles O59: an instruction's word is read back field by field, and the fields of a word that decodes cover it. -/
theorem roundTrip : Obligations.RoundTrip :=
  ⟨roundTrip_statement, fun _ _ => encode_of_decodeWord⟩

end Sys2Proof.Laws
end

section
/-!
PROOFS. Words written out bit by bit (R58, R64, R69, R71, R74). A word decodes to an instruction because it is the instruction's
word; a minor from 6 on is free in the class PRED.
-/

namespace Sys2Proof.Laws

open Sys2Proof.Machine

section
variable {w : Nat}

theorem decodeWord_of_pred (h : fld w 26 6 = 8) : decodeWord w = decodePred w := by
  simp only [decodeWord, h]

/-- PRED has the minors 0 to 5 (R71). -/
theorem decodePred_unassigned (h : 6 ≤ fld w 22 4) : decodePred w = .error .unassignedMinor := by
  unfold decodePred
  iterate 6 rw [if_neg (by omega)]

end

/-- The instruction word rejects a hint in front of it, and that hint is the word that offends (R69). -/
theorem bundleOf_of_rejectedBy {pre : List Nat} {w k : Nat} (h : rejectedBy w (readHints pre 0 {}).2 = some k) :
    bundleOf pre w = ⟨pre.length + 1, .error k⟩ := by
  simp only [bundleOf, h]

/-- Settles O58: the words are those that `encode` gives, and ADD rejects the HM of a float in front of it. -/
theorem decodeWords : Obligations.DecodeWords := by
  have hfree (minor : Nat) (hlt : minor < 16) (hge : 6 ≤ minor) :
      decodeWord (0x20000000 + minor * 2 ^ 22) = .error .unassignedMinor := by
    have hclass : fld (0x20000000 + minor * 2 ^ 22) 26 6 = 8 := by simp only [fld]; omega
    have hminor : fld (0x20000000 + minor * 2 ^ 22) 22 4 = minor := by simp only [fld]; omega
    rw [decodeWord_of_pred hclass, decodePred_unassigned (hminor.symm ▸ hge)]
  exact ⟨decodeWord_of_encode rfl, decodeWord_of_encode rfl, decodeWord_of_encode rfl, decodeWord_of_encode rfl,
    decodeWord_of_encode rfl, rfl, bundleOf_of_rejectedBy rfl, bundleOf_nil_error (x := .unassignedClass) rfl, hfree⟩

end Sys2Proof.Laws
end

section
/-!
PROOFS. A register target that no instruction can stand at (R57): the check of the target comes before every other effect of NXI,
RET and CALLI, and the park record reaches its ring without touching the parked strand (R258, R326, R327).
-/

namespace Sys2Proof.Machine

open Sys2Proof.Safety

/-! ### A strand that a record's delivery leaves alone -/

/-- Strand `k` of the machine is `st`. -/
def StrandIs (k : Nat) (st : Strand) (s : State) : Prop := s.strands.find k = some st

section
variable {s : State} {k : Nat} {st : Strand}

theorem StrandIs.same {t : State} (hs : StrandIs k st s) (h : t.strands = s.strands) : StrandIs k st t := by
  rwa [StrandIs, h]

theorem StrandIs.foldl {α : Type} {f : State → α → State} (hf : ∀ t x, StrandIs k st t → StrandIs k st (f t x))
    (hs : StrandIs k st s) (l : List α) : StrandIs k st (l.foldl f s) := by
  induction l generalizing s with
  | nil => exact hs
  | cons x l ih => exact ih (hf s x hs)

theorem State.rouse_strands (s : State) (core : Nat) : (s.rouse core).strands = s.strands := by
  unfold State.rouse
  split <;> rfl

/-- A wake ends SLEEP alone (R178, R260). -/
theorem StrandIs.wake (core : Nat) (hl : st.life ≠ .blocked .sleep) (hs : StrandIs k st s) : StrandIs k st (s.wake core) := by
  have hs' : s.strands.find k = some st := hs
  rw [StrandIs, State.wake, State.rouse_strands, Tbl.find_mapVal, hs']
  simp [hl]

theorem StrandIs.wakeWatches (p : Watch → Bool) (hl : st.life ≠ .blocked .sleep) (hs : StrandIs k st s) :
    StrandIs k st (s.wakeWatches p) := by
  refine StrandIs.foldl (fun _ core => StrandIs.wake core hl) ?_ _
  exact hs.same rfl

theorem StrandIs.wakeLine (pa : Nat) (hl : st.life ≠ .blocked .sleep) (hs : StrandIs k st s) : StrandIs k st (s.wakeLine pa) :=
  (hs.wakeWatches _ hl).same rfl

theorem State.cleanCovered_strands (s : State) (pa n : Nat) : (s.cleanCovered pa n).strands = s.strands := by
  unfold State.cleanCovered
  induction coveredSectors pa n generalizing s with
  | nil => rfl
  | cons x l ih => exact ih _

theorem StrandIs.writeEverywhere (pa : Nat) (bytes : List Byte) (hl : st.life ≠ .blocked .sleep) (hs : StrandIs k st s) :
    StrandIs k st (s.writeEverywhere pa bytes) := by
  refine StrandIs.foldl (fun _ l => StrandIs.wakeLine (l * 256) hl) ?_ _
  exact hs.same (State.cleanCovered_strands (s.poke pa bytes) _ _)

theorem StrandIs.ringPut (reg : Dword) (record : List Byte) (hl : st.life ≠ .blocked .sleep) (hs : StrandIs k st s) :
    Opt.Gives (StrandIs k st) (s.ringPut reg record) := by
  unfold State.ringPut
  dsimp only
  split
  · exact .none
  · split
    · exact .some ((hs.writeEverywhere _ _ hl).writeEverywhere _ _ hl)
    · exact .none

/-- A record has its queue where the queue's register places a ring (R327). -/
theorem StrandIs.sendFault {cl : Nat} {r : FaultRec} (hl : st.life ≠ .blocked .sleep) (hs : StrandIs k st s)
    (hring : ringBase (if r.stage2 then (s.cluster cl).fqBase2 else (s.cluster cl).fqBase) ≠ 0) :
    ∃ t, s.sendFault cl r = some t ∧ StrandIs k st t := by
  unfold State.sendFault
  dsimp only
  rw [if_neg hring]
  split
  · exact ⟨_, rfl, hs.same rfl⟩
  · exact ⟨_, rfl, (hs.ringPut _ _ hl).getD (hs.same rfl)⟩

/-! ### Parking -/

/-- A strand as a park leaves it (R258, R326). -/
def Strand.parkedWith (st : Strand) (k : Nat) (seq : BitVec 10) (code va : Nat) : Strand :=
  { st with life := .parked, seq := seq, handles := none, solo := false, faultCode := faultWord (strandLane k) 0 code,
            faultPc := st.pc.setWidth 64, faultVa := .ofNat 64 va }

@[simp] theorem Strand.parkedWith_life (st : Strand) (k : Nat) (seq : BitVec 10) (code va : Nat) :
    (st.parkedWith k seq code va).life = .parked := rfl

/-- A strand that parks where its queue has a ring. -/
theorem StrandIs.park {grid code va kind reason stage level ipa vmid : Nat} (hs : StrandIs k st s)
    (hring : ringBase (if stage = 2 then (s.cluster (coreCluster (strandCore k))).fqBase2
      else (s.cluster (coreCluster (strandCore k))).fqBase) ≠ 0) :
    StrandIs k (st.parkedWith k (s.parks.get k 0 + 1) code va) (s.park k grid code va kind reason stage level ipa vmid) := by
  have hfind : s.strands.find k = some st := hs
  unfold State.park
  rw [hfind]
  dsimp only
  generalize faultBytes _ _ _ _ _ _ _ _ _ _ _ = bytes
  have hparked : StrandIs k (st.parkedWith k (s.parks.get k 0 + 1) code va)
      (({ s with parks := s.parks.set k (s.parks.get k 0 + 1) } : State).setStrand k
        (st.parkedWith k (s.parks.get k 0 + 1) code va)) := Tbl.find_set_same ..
  obtain ⟨t, ht, h⟩ := hparked.sendFault (cl := coreCluster (strandCore k)) (r := ⟨bytes, stage = 2⟩) (by simp)
    (by simpa only [decide_eq_true_eq, State.cluster, State.setStrand_clusters] using hring)
  rw [Strand.parkedWith] at ht
  rw [ht]
  exact h

end

/-! ### The target's check -/

/-- The stop of a register target that is no multiple of 4 or lies beyond the address range (R57). -/
def badTarget (x : Dword) : Stop := .park FETCH x.toNat 3 0 1 0 0 0

section
variable {s : State} {e : Env} {n : Nat} {x : Dword}

theorem env_coreKey (h : s.env = some e) : e.coreKey = strandCore e.key := by
  simp only [State.env] at h
  split at h
  · cases h
  · split at h
    · cases h
    · split at h
      · cases h
      · cases h; rfl

/-- A read that is not STALE gives the same value without the check of R19. -/
theorem Env.read_loose {r : Word × Bool} (h : e.read n = .ok r) : e.loose.read n = .ok r := by
  have hloose : e.loose.checks = false := by simp [Env.checks, Env.loose]
  unfold Env.read at h ⊢
  split at h
  · cases h
  · rw [hloose, Bool.false_and, if_neg Bool.false_ne_true]
    exact h

theorem readsPair_loose (h : ReadsPair e n x) : ReadsPair e.loose n x := by
  obtain ⟨⟨hasLow, low⟩, hasHigh, hi⟩ := h
  exact ⟨⟨hasLow, Env.read_loose low⟩, hasHigh, Env.read_loose hi⟩

theorem pairTarget_eq (h : ReadsPair e n x) : e.pairTarget n = checkTarget x := by
  simp [Env.pairTarget, readPair_ok (readsPair_loose h), bind, Except.bind]

theorem checkTarget_eq_error (h : x.toNat % 4 ≠ 0 ∨ 2 ^ 57 ≤ x.toNat) : checkTarget x = .error (badTarget x) :=
  if_neg (by omega)

/-- The target is checked before anything is done with it. -/
theorem registerTarget_error {α : Type} (f : VAddr → Act α) (hread : ReadsPair e n x)
    (hbad : x.toNat % 4 ≠ 0 ∨ 2 ^ 57 ≤ x.toNat) :
    (do e.exist [n, n + 1]; let t ← e.pairTarget n; f t) = .error (badTarget x) := by
  have hexist : e.exist [n, n + 1] = .ok () := by
    obtain ⟨⟨hlow, -⟩, hhigh, -⟩ := hread
    exact exist_ok (by simp [hlow, hhigh])
  rw [hexist, pairTarget_eq hread, checkTarget_eq_error hbad]
  rfl

end

theorem faultWord_strandLane (k code : Nat) (h : code < 256) :
    faultWord (strandLane k) 0 code = .ofNat 32 (strandLane k * 65536 + code) := by
  simp [faultWord, strandLane, Nat.mod_eq_of_lt h]

/-- The stop at a bad target parks the strand as it was, where its cluster's fault queue has a ring. -/
theorem stop_badTarget_parks {s : State} {e : Env} {st : Strand} (x : Dword) (hs : s.env = some e)
    (hst : s.strands.find e.key = some st) (hring : ringBase (s.cluster (coreCluster e.coreKey)).fqBase ≠ 0) :
    (s.stop e (badTarget x)).strands.find e.key =
      some (st.parkedWith e.key (s.parks.get e.key 0 + 1) FETCH x.toNat) := by
  rw [env_coreKey hs] at hring
  exact StrandIs.park hst (by rwa [if_neg (by decide)])

/-- Settles O15: the check of the target stops the instruction, and the stop parks the strand as it was. -/
theorem registerTargets : Obligations.RegisterTargets := by
  intro s e st l a x hs hst hpc hread _ _ hbad faults
  have hfaults (i : Instr) (hi : exec i s = .next (s.stop e (badTarget x))) : faults i :=
    ⟨hi, fun hring => ⟨_, _, hi, stop_badTarget_parks x hs hst hring, rfl, faultWord_strandLane _ _ (by decide),
      congrArg (BitVec.setWidth 64) hpc, (BitVec.ofNat_toNat 64 x).trans (BitVec.setWidth_eq x), hpc, rfl, rfl, rfl⟩⟩
  have hnxi : exec (.nxi a) s = .next (s.stop e (badTarget x)) := laneStep_error hs (registerTarget_error _ hread hbad)
  have hret : exec (.ret a) s = .next (s.stop e (badTarget x)) := laneStep_error hs (registerTarget_error _ hread hbad)
  have hcalli : exec (.calli l a) s = .next (s.stop e (badTarget x)) := runLane_error hs (registerTarget_error _ hread hbad)
  exact ⟨hfaults _ hnxi, hfaults _ hret, hfaults _ hcalli⟩

end Sys2Proof.Machine
end

section
/-!
PROOFS. The executing lane: where it stands, what it needs outside redundant mode (R266, R267), and the instructions that name
registers, read, and write.
-/

namespace Sys2Proof.Machine

open Sys2Proof.Safety

/-! ### The lane -/

section
variable {s : State} {e : Env}

/-- A lane that executes stands at the word after its instruction, in a wave that is listed. -/
theorem env_place (h : s.env = some e) :
    e.st.pc = e.here + 4 ∧ e.waveKey = strandWave e.key ∧ s.waves.find e.waveKey = some e.wave := by
  simp only [State.env] at h
  split at h
  · cases h
  · split at h
    · cases h
    · split at h
      · cases h
      · next hw _ => cases h; exact ⟨rfl, rfl, hw⟩

theorem env_pc (h : s.env = some e) : e.st.pc = e.here + 4 := (env_place h).1

theorem env_waveKey (h : s.env = some e) : e.waveKey = strandWave e.key := (env_place h).2.1

theorem env_wave (h : s.env = some e) : s.waves.find e.waveKey = some e.wave := (env_place h).2.2

theorem env_st_next (h : s.env = some e) : { e.st with pc := e.here + 4 } = e.st := by
  rw [← env_pc h]

theorem Env.trailing_of_alone (ha : Alone e) : e.trailing = false := by
  have hp : e.wave.partner = none := ha
  simp [Env.trailing, hp]

theorem Env.room_of_alone (ha : Alone e) : e.room = .ok () := by
  have hp : e.wave.partner = none := ha
  simp [Env.room, Env.leading, hp, require]

theorem Env.once_of_alone (ha : Alone e) (req : List Word) (act : Env → Act State)
    (trail : List (Word × Bool) → State → Act State) : e.once req act trail = act e := by
  have hp : e.wave.partner = none := ha
  simp only [Env.once, hp]

theorem State.modStrand_of_find {k : Nat} {st : Strand} (f : Strand → Strand) (h : s.strands.find k = some st) :
    s.modStrand k f = s.setStrand k (f st) := by
  simp only [State.modStrand, State.setStrand, Tbl.change, h]

end

/-! ### Operands -/

theorem has_of_reads {e : Env} {n : Nat} {x : Word} (h : Reads e n x) : Has e n := h.1

theorem has_of_readsPair {e : Env} {n : Nat} {x : Dword} (h : ReadsPair e n x) : Has e n ∧ Has e (n + 1) :=
  ⟨has_of_reads h.1, has_of_reads h.2⟩

theorem exist_pair {e : Env} {n : Nat} {x : Dword} (h : ReadsPair e n x) : e.exist [n, n + 1] = .ok () :=
  exist_ok (by simp [has_of_readsPair h])

theorem both_eq_ok {α β : Type} {x : Act α} {y : Act β} {a : α} {b : β} (hx : x = .ok a) (hy : y = .ok b) :
    both x y = .ok (a, b) := by
  rw [hx, hy, both_ok]

theorem use_poisoned {e : Env} {n : Nat} {x : Word} (h : e.read n = .ok (x, true)) : e.use n = .error .poison := by
  simp [Env.use, h, bind, Except.bind]

/-- A lane whose registers exist and whose operands can be read goes on with what it has read (R11, R250). -/
theorem laneStep_operands {α : Type} {s : State} {e : Env} {named : Env → List Nat} {reads : Env → Act α} {v : α}
    {f : Env → α → Act Strand} {st : Strand} (h : s.env = some e) (hnamed : ∀ n ∈ named e, Has e n) (hreads : reads e = .ok v)
    (hf : f e v = .ok st) : laneStep s (fun e => do e.exist (named e); let v ← reads e; f e v) = done e st :=
  laneStep_ok h (by simp only [exist_ok hnamed, hreads, bind, Except.bind, hf])

end Sys2Proof.Machine
end

section
/-!
PROOFS. The classes IALU, IALUI, SHIFT and IMUL (R80 to R83): the functions of the model on words are those of the statements, and
the shared forms write their results.
-/

namespace Sys2Proof.Machine

open Sys2Proof.Safety

/-! ### Functions of words -/

section
variable (x y c : Word)

theorem minS_eq : minS x y = if x.slt y then x else y := by
  simp only [minS, BitVec.slt_iff_toInt_lt]
  split_ifs with h h'
  · rfl
  · exact BitVec.eq_of_toInt_eq (by omega)
  · omega
  · rfl

theorem maxS_eq : maxS x y = if x.slt y then y else x := by
  simp only [maxS, BitVec.slt_iff_toInt_lt, ← not_lt, ite_not]

theorem minU_eq : minU x y = if x.ult y then x else y := by
  simp only [minU, BitVec.ult_iff_lt, BitVec.lt_def]
  split_ifs with h h'
  · rfl
  · exact BitVec.eq_of_toNat_eq (by omega)
  · omega
  · rfl

theorem maxU_eq : maxU x y = if x.ult y then y else x := by
  simp only [maxU, BitVec.ult_iff_lt, BitVec.lt_def, ← not_lt, ite_not]

theorem carry_eq : carry x y = if x.toNat + y.toNat < 2 ^ 32 then 0 else 1 := by
  simp only [carry, ← not_lt, ite_not]

theorem borrow_eq : borrow x y = if x.ult y then 1 else 0 := by
  simp only [borrow, BitVec.ult_iff_lt, BitVec.lt_def]

theorem clampS_eq (z : Int) : clampS z = .ofInt 32 (max (-2147483648) (min 2147483647 z)) := rfl

theorem absW_eq : absW x = if x.slt 0 then -x else x := by
  have hneg : x.slt 0 = true ↔ x.toInt < 0 := BitVec.slt_iff_toInt_lt
  by_cases h : x.toInt < 0
  · rw [if_pos (hneg.mpr h), absW, Int.ofNat_natAbs_of_nonpos h.le, BitVec.ofInt_neg, BitVec.ofInt_toInt]
  · rw [if_neg (mt hneg.mp h), absW, Int.natAbs_of_nonneg (not_lt.mp h), BitVec.ofInt_toInt]

theorem shiftL_eq : shiftL x y = x <<< (y.toNat % 64) :=
  BitVec.eq_of_toNat_eq (by simp [shiftL, fld, Nat.shiftLeft_eq])

theorem shiftR_eq : shiftR x y = x >>> (y.toNat % 64) :=
  BitVec.eq_of_toNat_eq (by
    have h := Nat.div_le_self x.toNat (2 ^ (y.toNat % 64))
    simp [shiftR, fld, Nat.shiftRight_eq_div_pow, Nat.mod_eq_of_lt (h.trans_lt x.isLt)])

theorem shiftA_eq : shiftA x y = x.sshiftRight (y.toNat % 64) := by
  simp [shiftA, fld, BitVec.sshiftRight_eq, Int.shiftRight_eq_div_pow]

theorem fieldPos_eq : fieldPos y = y.toNat % 32 := by simp [fieldPos, fld]

theorem fieldLen_eq : fieldLen y = min (y.toNat / 256 % 64) (32 - y.toNat % 32) := by
  rw [fieldLen, fieldPos_eq]
  rfl

theorem rotateL_eq : rotateL x y = x.rotateLeft (y.toNat % 32) := by
  have hlt : y.toNat % 32 < 32 := Nat.mod_lt _ (by decide)
  have hapart : x <<< (y.toNat % 32) &&& x >>> (32 - y.toNat % 32) = 0#32 := by
    ext i hi
    by_cases h : i < y.toNat % 32
    · simp [h]
    · simp [BitVec.getLsbD_of_ge x (32 - y.toNat % 32 + i) (by omega)]
  rw [BitVec.rotateLeft_def, Nat.mod_mod, ← BitVec.add_eq_or_of_and_eq_zero _ _ hapart]
  apply BitVec.eq_of_toNat_eq
  simp [rotateL, fld, Nat.shiftLeft_eq, Nat.shiftRight_eq_div_pow]

/-- The low `n` bits of a number as a signed number (R82). -/
theorem signExt_mod (m n : Nat) : signExt (m % 2 ^ n) n = (BitVec.ofNat n m).signExtend 32 := by
  cases n with
  | zero => simp [signExt, BitVec.eq_nil (BitVec.ofNat 0 m)]
  | succ n =>
    have hpow : 2 ^ (n + 1) = 2 * 2 ^ n := pow_succ' ..
    rw [BitVec.signExtend, signExt, if_neg n.succ_ne_zero, Nat.add_sub_cancel, BitVec.toInt_eq_toNat_cond, BitVec.toNat_ofNat]
    split_ifs with h h' h'
    · rw [BitVec.ofInt_natCast]
    · omega
    · omega
    · norm_num

theorem ofInt_high (z : Int) : (BitVec.ofInt 64 z >>> 32).setWidth 32 = BitVec.ofInt 32 (z / 2 ^ 32) := by
  apply BitVec.eq_of_toNat_eq
  simp only [BitVec.toNat_setWidth, BitVec.toNat_ushiftRight, BitVec.toNat_ofInt, Nat.shiftRight_eq_div_pow]
  omega

/-- The signed product of two words fills 64 bits. -/
theorem signExtend_mul_signExtend : x.signExtend 64 * y.signExtend 64 = BitVec.ofInt 64 (x.toInt * y.toInt) :=
  (BitVec.ofInt_mul ..).symm

theorem mulHi_signed : mulHi x y 0 true = ((x.signExtend 64 * y.signExtend 64) >>> 32).setWidth 32 := by
  rw [signExtend_mul_signExtend, ofInt_high, mulHi, if_pos rfl, show (0 : Word).toInt = 0 from rfl, add_zero]

theorem mulHi_unsigned : mulHi x y 0 false = ((x.setWidth 64 * y.setWidth 64) >>> 32).setWidth 32 := by
  apply BitVec.eq_of_toNat_eq
  simp [mulHi, Nat.shiftRight_eq_div_pow]
  omega

theorem toNat_append_words : (y ++ x : Dword).toNat = x.toNat + y.toNat * 2 ^ 32 := by
  rw [BitVec.toNat_append, ← Nat.shiftLeft_add_eq_or_of_lt x.isLt, Nat.shiftLeft_eq, Nat.add_comm]

theorem funnel_eq : funnel x y c = ((y ++ x : Dword) >>> (c.toNat % 32)).setWidth 32 := by
  apply BitVec.eq_of_toNat_eq
  rw [BitVec.toNat_setWidth, BitVec.toNat_ushiftRight, toNat_append_words, Nat.shiftRight_eq_div_pow]
  simp [funnel, fld]

end

/-! ### The instructions outside the shared forms -/

section
variable {s : State} {e : Env} {t u : BitVec 1} {d a b : BitVec 7} {x y z : Word}

theorem movi_result {i : BitVec 14} (h : s.env = some e) (hd : Has e d.toNat) :
    exec (.movi t d i) s = wrote e t d.toNat 1 (e.imm14 i) :=
  laneStep_ok h (by rw [exist_ok (by simp [hd])]; rfl)

theorem idot4_result (h : s.env = some e) (hd : Reads e d.toNat z) (ha : Reads e a.toNat x) (hb : Reads e b.toNat y) :
    exec (.idot4 u t d a b) s = wrote e t d.toNat 4 (intDot (u == 1) e.mode.2 x y z) :=
  laneStep_operands h (by simp [has_of_reads hd, has_of_reads ha, has_of_reads hb]) (both_eq_ok (use_ok ha) (use2_ok hb hd)) rfl

end

/-! ### The statements -/

/-- Settles O1: each operation has a shared form, and its function is the statement's. -/
theorem integerResults : Obligations.IntegerResults := by
  refine ⟨fun s e t d a b x y hs hd ha hb => ?_, fun s e t d a i x hs hd ha => ?_⟩
  · simp only [exec_add, exec_sub, exec_and, exec_or, exec_xor, exec_andn, exec_min, exec_max, exec_minb, exec_maxb,
      exec_addc, exec_subb, exec_adds, exec_subs, execAdd, execSub, execAnd, execOr, execXor, execAndn, execMin,
      execMax, execMinb, execMaxb, execAddc, execSubb, execAdds, execSubs, alu2_result hs hd ha hb, minS_eq, maxS_eq,
      minU_eq, maxU_eq, carry_eq, borrow_eq, clampS_eq, and_self]
  · intro r y
    have hy : y = e.imm7 i := rfl
    clear_value y
    subst hy
    simp only [exec_addImm, exec_subImm, exec_andImm, exec_orImm, exec_xorImm, exec_andnImm, exec_minImm, exec_maxImm,
      exec_minbImm, exec_maxbImm, exec_addcImm, exec_subbImm, exec_addsImm, exec_subsImm, execAddImm, execSubImm,
      execAndImm, execOrImm, execXorImm, execAndnImm, execMinImm, execMaxImm, execMinbImm, execMaxbImm, execAddcImm,
      execSubbImm, execAddsImm, execSubsImm, aluI_result hs hd ha, r, minS_eq, maxS_eq, minU_eq, maxU_eq,
      carry_eq, borrow_eq, clampS_eq, and_self]

/-- Settles O2: as O1, with the fields of R82 and the high halves of R83 for the functions that differ from the statement's. -/
theorem shiftAndProductResults : Obligations.ShiftAndProductResults := by
  refine ⟨fun s e t d a b i x y hs hd ha hb => ?_, fun s e u t d a b x y c hs hd ha hb => ?_⟩
  · simp only [exec_shl, exec_shr, exec_sar, exec_rol, exec_bfxb, exec_bfx, exec_clz, exec_popc, exec_brev, exec_abs, exec_neg,
      exec_mul, exec_mulhi, exec_mulhib, execShl, execShr, execSar, execRol, execBfxb, execBfx, execClz, execPopc, execBrev,
      execAbs, execNeg, execMul, execMulhi, execMulhib, alu1_result hs hd ha, alu2_result hs hd ha hb, movi_result hs hd,
      shiftL_eq, shiftR_eq, shiftA_eq, rotateL_eq, field, signExt_mod, fieldPos_eq, fieldLen_eq, leadingZeros, popCount,
      absW_eq, mulHi_signed, mulHi_unsigned, true_and]
    exact ⟨congrArg _ (BitVec.zero_sub x).symm, rfl⟩
  · simp only [exec_bfi, exec_prmt, exec_fshf, exec_mad, exec_madhi, exec_madhib, execBfi, execPrmt, execFshf, execMad,
      execMadhi, execMadhib, alu3_result hs hd ha hb, idot4_result hs hd ha hb, insertField, fieldPos_eq, fieldLen_eq,
      funnel_eq, mulHi, Bool.false_eq_true, if_true, if_false, and_self]

end Sys2Proof.Machine
end

section
/-!
PROOFS. The divide unit (R84), and the events by which the results of the units leave the core (R18, R111, R112).
-/

namespace Sys2Proof.Machine

open Sys2Proof.Safety

theorem divU_eq (x y : Word) : divU x y = if y = 0 then 0xFFFFFFFF else x.udiv y := by
  rw [divU]
  split_ifs
  · rfl
  · exact BitVec.eq_of_toNat_eq (by simp [Nat.mod_eq_of_lt ((Nat.div_le_self ..).trans_lt x.isLt)])

theorem remU_eq (x y : Word) : remU x y = if y = 0 then x else x.umod y := by
  rw [remU]
  split_ifs
  · rfl
  · exact BitVec.eq_of_toNat_eq (by simp [Nat.mod_eq_of_lt ((Nat.mod_le ..).trans_lt x.isLt)])

theorem find?_eq_some_of_unique {α : Type} {l : List α} {p : α → Bool} {a : α} (ha : a ∈ l) (hp : p a = true)
    (huniq : ∀ b ∈ l, p b = true → b = a) : l.find? p = some a := by
  obtain ⟨b, hb⟩ := Option.isSome_iff_exists.mp (List.find?_isSome.mpr ⟨a, ha, hp⟩)
  rw [hb, huniq b (List.mem_of_find?_eq_some hb) (List.find?_some hb)]

/-- The strand when the registers of a unit's result have arrived (R18). -/
def Strand.arriveAll (st : Strand) (r : Result) : Strand :=
  r.dst.foldl (fun (st : Strand) p => st.arrive r.id (.v p.1) p.2 false) st

/-- The only result of its number, in the first core that holds one, arrives with its flags (R18, R111). -/
theorem unitResult_arrives {s : State} {core unit : Nat} {c : Core} {r : Result} {before after : Tbl Core} {st : Strand}
    (hcores : s.cores = before ++ (core, c) :: after) (hbefore : ∀ p ∈ before, ∀ x ∈ p.2.results, x.id ≠ r.id)
    (huniq : ∀ x ∈ c.results, x.id = r.id → x = r) (hr : r ∈ c.results) (hst : s.strands.find r.strand = some st)
    (hunit : r.unit = unit) :
    eventStep s (fun s => s.unitResult unit r.id) =
      .next ((s.setCore core { c with results := c.results.filter (·.id ≠ r.id) }).setStrand r.strand
        { st.arriveAll r with fstat := (st.arriveAll r).fstat ||| r.flags }) := by
  have hcore : s.cores.find? (fun p => p.2.results.any fun x => x.id = r.id && x.unit = unit) = some (core, c) := by
    rw [hcores, List.find?_append, List.find?_eq_none.mpr, Option.none_or, List.find?_cons_of_pos]
    · simpa using ⟨r, hr, rfl, hunit⟩
    · intro p hp
      simpa using fun x hx hid => absurd hid (hbefore p hp x hx)
  have hresult : c.results.find? (fun x => x.id = r.id && x.unit = unit) = some r :=
    find?_eq_some_of_unique hr (by simp [hunit]) fun x hx h => huniq x hx (by simp at h; exact h.1)
  refine eventStep_some ?_
  simp only [State.unitResult, hcore, hresult, Option.bind_eq_bind, Option.bind_some]
  exact congrArg some (State.modStrand_of_find _ hst)

/-- Settles O3: the divides are one form, and the three events are one arrival. -/
theorem unitResults : Obligations.UnitResults := by
  refine ⟨fun s e d a b x y hs hd ha hb => ?_, fun s core c r before after st hcores hbefore huniq hr hst => ?_⟩
  · simp only [exec_div, exec_divb, exec_rem, exec_remb, execDiv, execDivb, execRem, execRemb, divide_result hs hd ha hb,
      divS, divU_eq, remS, remU_eq, and_self]
  · have arrives {unit : Nat} := unitResult_arrives (unit := unit) hcores hbefore huniq hr hst
    exact ⟨arrives, arrives, arrives⟩

end Sys2Proof.Machine
end

section
/-!
PROOFS. The class PRED (R88): what its minors write, and how its words decode.
-/

namespace Sys2Proof.Machine

open Sys2Proof.Safety
open Sys2Proof.Laws (decodeWord_of_encode decodeWord_of_pred decodePred_unassigned)

section
variable {s : State} {e : Env} {d a b : BitVec 3} {x y : Bool}

theorem pred2_result {f : Bool → Bool → Bool} (h : s.env = some e) (ha : e.pred a.toNat = .ok x)
    (hb : e.pred b.toNat = .ok y) : pred2 s d a b f = wrotePred e d.toNat 1 (f x y) :=
  laneStep_ok h (by simp [ha, hb, bind, Except.bind, pure, Except.pure])

theorem pset_result {a : BitVec 7} {x : Word} (h : s.env = some e) (ha : Reads e a.toNat x) :
    exec (.pset d a) s = wrotePred e d.toNat 1 (decide (x ≠ 0)) :=
  laneStep_operands h (by simp [has_of_reads ha]) (use_ok ha) rfl

theorem pset_poisoned {a : BitVec 7} {x : Word} (h : s.env = some e) (ha : Has e a.toNat)
    (hread : e.read a.toNat = .ok (x, true)) : exec (.pset d a) s = .next (s.stop e .poison) := by
  have hexist : e.exist [a.toNat] = .ok () := exist_ok (by simp [ha])
  exact laneStep_error h (by simp [hexist, use_poisoned hread, bind, Except.bind])

end

/-! ### The words of the class -/

/-- A field below bit 22 is one of the word's low part. -/
theorem fld_low (k f : Nat) {lo n : Nat} (h : lo + n ≤ 22) : fld (k * 2 ^ 22 + f) lo n = fld f lo n := by
  obtain ⟨m, hm⟩ : ∃ m, 22 = lo + n + m := ⟨22 - (lo + n), by omega⟩
  have hk : k * 2 ^ 22 + f = f + k * 2 ^ m * 2 ^ n * 2 ^ lo := by rw [hm]; ring
  rw [fld, hk, Nat.add_mul_div_right _ _ (by positivity), Nat.add_mul_mod_self_right]

theorem ofNat_low (k f : Nat) {lo n : Nat} (h : lo + n ≤ 22) :
    BitVec.ofNat n ((k * 2 ^ 22 + f) / 2 ^ lo) = BitVec.ofNat n (f / 2 ^ lo) :=
  BitVec.eq_of_toNat_eq (by simpa only [BitVec.toNat_ofNat] using fld_low k f h)

/-- Settles O4: the minors are one form on predicates; below its class and minor a word is its low 22 bits, of which each minor
checks the reserved ones. -/
theorem predicateResults : Obligations.PredicateResults := by
  refine ⟨fun s e d a b x y hs ha hb => ?_, fun s e d a x hs => ⟨pset_result hs, pset_poisoned hs⟩, fun _ _ => rfl,
    fun minor f hminor hf => ?_, decodeWord_of_encode rfl⟩
  · exact ⟨pred2_result hs ha hb, pred2_result hs ha hb, pred2_result hs ha hb,
      pred2_result (f := fun x _ => !x) hs ha ha, pred2_result (f := fun x _ => x) hs ha ha⟩
  · have hclass : fld ((128 + minor) * 2 ^ 22 + f) 26 6 = 8 := by simp only [fld]; omega
    have hfield : fld ((128 + minor) * 2 ^ 22 + f) 22 4 = minor := by simp only [fld]; omega
    rw [show 0x20000000 + minor * 2 ^ 22 + f = (128 + minor) * 2 ^ 22 + f by omega, decodeWord_of_pred hclass]
    by_cases h6 : 6 ≤ minor
    · rw [decodePred_unassigned (hfield.symm ▸ h6), if_pos h6]
    · rw [if_neg h6]
      simp only [decodePred, hfield, fld_low, ofNat_low, Nat.reduceAdd, Nat.reduceLeDiff]
      clear hclass hfield hminor
      interval_cases minor <;>
        simp only [Nat.pow_zero, Nat.div_one, reduceIte, OfNat.ofNat_ne_zero, OfNat.zero_ne_ofNat, OfNat.one_ne_ofNat,
          Nat.reduceEqDiff] <;>
        exact (ite_not ..).symm.trans (if_congr (by simp only [fld]; omega) rfl rfl)

end Sys2Proof.Machine
end

section
/-!
PROOFS. Compares, SEL and the pairs of ADDR (R85, R86, R89, R90): the conditions of R62 are the orders of the bit vectors.
-/

namespace Sys2Proof.Machine

open Sys2Proof.Safety

section
variable {s : State} {e : Env} {c : BitVec 4} {p : BitVec 3} {t : BitVec 1} {d a b : BitVec 7}

theorem cmp_result {x y : Word} (h : s.env = some e) (ha : Reads e a.toNat x) (hb : Reads e b.toNat y) :
    exec (.cmp c p a b) s = wrotePred e p.toNat 1 (icond c.toNat x y) :=
  laneStep_operands h (by simp [has_of_reads ha, has_of_reads hb]) (use2_ok ha hb) rfl

theorem cmpi_result {x : Word} {i : BitVec 7} (h : s.env = some e) (ha : Reads e a.toNat x) :
    exec (.cmpi c p a i) s = wrotePred e p.toNat 1 (icond c.toNat x (e.imm7 i)) :=
  laneStep_operands h (by simp [has_of_reads ha]) (use_ok ha) rfl

theorem cmp64_result {x y : Dword} (h : s.env = some e) (ha : ReadsPair e a.toNat x) (hb : ReadsPair e b.toNat y) :
    exec (.cmp64 c p a b) s = wrotePred e p.toNat 3 (icond c.toNat x y) :=
  laneStep_operands h (by simp [has_of_readsPair ha, has_of_readsPair hb])
    (both_eq_ok (usePair_ok ha) (usePair_ok hb)) rfl

theorem sel_result {n : BitVec 3} {c p q : Bool} {x y : Word} (h : s.env = some e) (hc : e.pred n.toNat = .ok c)
    (hd : Has e d.toNat) (ha : Has e a.toNat) (hb : Has e b.toNat) (hx : e.read a.toNat = .ok (x, p))
    (hy : e.read b.toNat = .ok (y, q)) :
    exec (.sel n t d a b) s = done e (e.write e.st d.toNat (if c then x else y) (if c then p else q) 1 t) :=
  laneStep_operands h (by simp [hd, ha, hb]) (both_eq_ok hc (both_eq_ok hx hy)) rfl

variable (hd : Has e d.toNat) (hd' : Has e (d.toNat + 1))
include hd hd'

theorem pairAlu_result {x y : Dword} {f : Dword → Dword → Dword} (h : s.env = some e) (ha : ReadsPair e a.toNat x)
    (hb : ReadsPair e b.toNat y) : pairAlu s t d a b f = wrotePair e t d.toNat 3 (f x y) :=
  laneStep_operands h (by simp [hd, hd', has_of_readsPair ha, has_of_readsPair hb])
    (both_eq_ok (usePair_ok ha) (usePair_ok hb)) rfl

theorem shl64_result {x : Dword} {y : Word} (h : s.env = some e) (ha : ReadsPair e a.toNat x) (hb : Reads e b.toNat y) :
    exec (.shl64 t d a b) s = wrotePair e t d.toNat 3 (x <<< (y.toNat % 128)) := by
  have hshift : x <<< (y.toNat % 128) = BitVec.ofNat 64 (x.toNat * 2 ^ fld y.toNat 0 7) :=
    BitVec.eq_of_toNat_eq (by simp [fld, Nat.shiftLeft_eq])
  rw [hshift]
  exact laneStep_operands h (by simp [hd, hd', has_of_readsPair ha, has_of_reads hb])
    (both_eq_ok (usePair_ok ha) (use_ok hb)) rfl

theorem mulw_result {x y : Word} (h : s.env = some e) (ha : Reads e a.toNat x) (hb : Reads e b.toNat y) :
    exec (.mulw t d a b) s = wrotePair e t d.toNat 3 (x.signExtend 64 * y.signExtend 64) := by
  rw [signExtend_mul_signExtend]
  exact laneStep_operands h (by simp [hd, hd', has_of_reads ha, has_of_reads hb]) (use2_ok ha hb) rfl

theorem lea_result {h : BitVec 4} {r : HRec} {x : Word} (hs : s.env = some e) (hr : e.hReg h.toNat = .ok r)
    (ha : Reads e a.toNat x) : exec (.lea t d a h) s = wrotePair e t d.toNat 3 (leaAddress r x.toNat) :=
  laneStep_operands hs (by simp [hd, hd', has_of_reads ha]) hr (by rw [use_ok ha]; rfl)

theorem rdk_result {n : BitVec 3} {k : Dword} (h : s.env = some e) (hk : e.kReg n.toNat = .ok k) :
    exec (.rdk t d n) s = wrotePair e t d.toNat 1 (.ofNat 64 (k.toNat % 2 ^ e.wave.width)) :=
  laneStep_operands h (by simp [hd, hd']) hk rfl

end

/-- The conditions of R62 are the signed and the unsigned order. -/
theorem icond_words (x y : Word) :
    icond 0 x y = (x == y) ∧ icond 1 x y = (x != y) ∧ icond 2 x y = x.slt y ∧ icond 3 x y = x.sle y ∧
    icond 4 x y = y.slt x ∧ icond 5 x y = y.sle x ∧ icond 6 x y = x.ult y ∧ icond 7 x y = x.ule y ∧
    icond 8 x y = y.ult x ∧ icond 9 x y = y.ule x :=
  ⟨rfl, rfl, rfl, rfl, rfl, rfl, rfl, rfl, rfl, rfl⟩

/-- Settles O5: each instruction asks for its registers, reads them together and writes. -/
theorem compareAndPairResults : Obligations.CompareAndPairResults := by
  refine ⟨⟨fun s e c p a b i x y hs ha hb => ⟨cmp_result hs ha hb, cmpi_result hs ha⟩,
    fun s e c p a b x y hs ha hb => cmp64_result hs ha hb, fun s e n t d a b c p q x y hs hc hd ha hb hx hy => ?_⟩, icond_words,
    fun s e t d a b x y hs hd hd' ha hb => ⟨pairAlu_result hd hd' hs ha hb, pairAlu_result hd hd' hs ha hb⟩,
    fun s e t d a b x y hs hd hd' ha hb => shl64_result hd hd' hs ha hb,
    fun s e t d a b x y hs hd hd' ha hb => mulw_result hd hd' hs ha hb,
    fun s e t d a h r x hs hd hd' hr ha => lea_result hd hd' hs hr ha,
    fun s e t d n k hs hd hd' hk => rdk_result hd hd' hs hk⟩
  rw [sel_result hs hc hd ha hb hx hy]
  cases c <;> rfl

end Sys2Proof.Machine
end

section
/-!
PROOFS. MOV, RDW, the FSTAT moves, RDSR and HS (R16, R86, R87).
-/

namespace Sys2Proof.Machine

open Sys2Proof.Safety

section
variable {s : State} {e : Env} {t : BitVec 1} {d a : BitVec 7} {x : Word}

theorem mov_result {p : Bool} (h : s.env = some e) (hd : Has e d.toNat) (ha : Has e a.toNat) (hx : e.read a.toNat = .ok (x, p)) :
    exec (.mov t d a) s = done e (e.write e.st d.toNat x p 1 t) :=
  laneStep_operands h (by simp [hd, ha]) hx rfl

theorem rdw_result {n : BitVec 4} (h : s.env = some e) (hd : Has e d.toNat) (hx : e.wReg n.toNat = .ok x) :
    exec (.rdw t d n) s = wrote e t d.toNat 1 x :=
  laneStep_operands h (by simp [hd]) hx rfl

theorem movToFstat_result (h : s.env = some e) (hf : FlagsIn s e) (ha : Reads e a.toNat x) :
    exec (.movToFstat a) s = done e { e.st with fstat := x &&& 0x7F } :=
  laneStep_operands h (by simp [has_of_reads ha]) (flagsDelivered_ok h hf) (by rw [use_ok ha]; rfl)

theorem movFromFstat_result (h : s.env = some e) (hf : FlagsIn s e) (hd : Has e d.toNat) :
    exec (.movFromFstat t d) s = wrote e t d.toNat 1 e.st.fstat :=
  laneStep_operands h (by simp [hd]) (flagsDelivered_ok h hf) rfl

/-- RDSR outside redundant mode: the words read, and the state that CLOCK may have moved in (R87). -/
theorem rdsr_result {n : BitVec 14} (h : s.env = some e) (hal : Alone e)
    (hd : ∀ m ∈ if specialWide n.toNat then [d.toNat, d.toNat + 1] else [d.toNat], Has e m) :
    exec (.rdsr t d n) s = .next (if specialWide n.toNat
      then e.retire (s.clockTick e.coreKey).2 (e.writePair e.st d.toNat (s.clockTick e.coreKey).1 1 t)
      else e.retire s (e.write e.st d.toNat (e.special n.toNat) false 1 t)) := by
  refine runLane_ok h ?_
  simp only [exist_ok hd, Env.trailing_of_alone hal, Env.room_of_alone hal, Env.offer_of_alone hal, Bool.and_false,
    Bool.false_eq_true, if_false, ite_self, bind, Except.bind, pure, Except.pure, env_s h]
  cases specialWide n.toNat <;> rfl

end

/-- Settles O6: RDSR reads CLOCK through the sample that its issue holds or makes. -/
theorem moveResults : Obligations.MoveResults := by
  refine ⟨fun s e t d a x p hs hd ha hx => mov_result hs hd ha hx, fun s e t d n x hs hd hx => rdw_result hs hd hx,
    fun s e t d a x hs hf hd ha => ⟨movToFstat_result hs hf ha, movFromFstat_result hs hf hd⟩,
    fun s e t d n hs hal hd => ⟨fun hwide => ?_, fun hn hd' => ?_⟩, fun s e n hs => ?_⟩
  · rw [rdsr_result hs hal (by simpa [hwide] using hd)]
    simp [hwide, wrote, done, Env.retire, env_s hs]
  · subst hn
    have hresult := rdsr_result (t := t) (n := 6) hs hal (by simpa [specialWide] using ⟨hd, hd'⟩)
    rw [if_pos (show specialWide (6 : BitVec 14).toNat = true from rfl)] at hresult
    exact ⟨fun x hclock => hresult.trans (by rw [State.clockTick, hclock]),
      fun hclock => hresult.trans (by rw [State.clockTick, hclock]; rfl)⟩
  · rw [exec_hs, execHs, runLane_ok hs rfl, env_s hs]

end Sys2Proof.Machine
end

section
/-!
PROOFS. Branches and calls (R57, R92 to R94): a target that R57 admits is where the strand goes on, and a call grows first
where its entry needs more registers (R93, R289).
-/

namespace Sys2Proof.Machine

open Sys2Proof.Safety

/-! ### Branches -/

theorem checkTarget_ok {x : Dword} (h4 : x.toNat % 4 = 0) (hlt : x.toNat < 2 ^ 57) : checkTarget x = .ok (x.setWidth 57) :=
  if_pos ⟨h4, hlt⟩

/-- NXI and RET (R92, R94). -/
theorem registerTarget_goes {s : State} {e : Env} {a : BitVec 7} {x : Dword} (h : s.env = some e) (hx : ReadsPair e a.toNat x)
    (h4 : x.toNat % 4 = 0) (hlt : x.toNat < 2 ^ 57) :
    exec (.nxi a) s = done e { e.st with pc := x.setWidth 57 } :=
  laneStep_ok h (by rw [exist_pair hx, pairTarget_eq hx, checkTarget_ok h4 hlt, usePair_ok hx]; rfl)

theorem nx_result {s : State} {e : Env} {o : BitVec 18} (h : s.env = some e) :
    exec (.nx o) s = done e { e.st with pc := e.target o } := by
  rw [exec_nx, execNx, laneStep_ok h rfl]

theorem nxc_result {s : State} {e : Env} {neg : BitVec 1} {p : BitVec 3} {o : BitVec 18} {c : Bool} (h : s.env = some e)
    (hc : e.pred p.toNat = .ok c) :
    exec (.nxc neg p o) s =
      done e (if c ^^ (neg == 1) then { e.st with pc := e.target o } else { e.st with pc := e.here + 4 }) := by
  rw [env_st_next h]
  exact laneStep_ok h (by rw [hc]; rfl)

/-- Settles O14: each target is where the strand goes on, and NXC that is not taken leaves it at the next word. -/
theorem branchResults : Obligations.BranchResults :=
  ⟨fun _ _ _ hs => ⟨nx_result hs, fun _ _ _ hc => nxc_result hs hc⟩,
    fun _ _ _ _ hs hx h4 hlt => ⟨registerTarget_goes hs hx h4 hlt, registerTarget_goes hs hx h4 hlt⟩⟩

/-! ### Calls -/

/-- What a lane asks for that must grow for its call (R93, R289). -/
def Env.callLane (e : Env) (l : BitVec 4) (t : VAddr) : GrowLane :=
  { lane := e.lane, dst := none, link := l.toNat, ret := e.here + 4, target := t, pc := e.bundle }

section
variable {s : State} {e : Env} {l : BitVec 4} {t : VAddr} {need : Nat} {use : Act Unit} (ha : Alone e)
  (hlink : e.exist [2 * l.toNat, 2 * l.toNat + 1] = .ok ()) (hneed : e.codeWord (budgetAt t) = .ok need)
include ha hlink hneed

theorem call_badBudget (hbad : budgetOk need = false) : e.call l t use = .error (.fault BUDGET 0 0) := by
  simp [Env.call, Env.room_of_alone ha, hneed, hlink, hbad, require, bind, Except.bind]

variable (hgood : budgetOk need = true)
include hgood

theorem call_goes (hfits : need ≤ e.wave.alloc) : e.call l t (.ok ()) = .ok (e.retire e.s (e.linked l t)) := by
  simp [Env.call, Env.room_of_alone ha, hneed, hlink, hgood, require, hfits, Env.once_of_alone ha, Env.offer_of_alone ha,
    bind, Except.bind, pure, Except.pure]

theorem call_grows (hgrow : e.wave.alloc < need) : e.call l t (.ok ()) = .ok (e.requestGrow need (e.callLane l t)) := by
  simp [Env.call, Env.room_of_alone ha, hneed, hlink, hgood, require, hgrow.not_ge, Env.once_of_alone ha, Env.callLane,
    bind, Except.bind, pure, Except.pure]

end

/-- CALLI with a target that R57 admits is a call to it. -/
theorem calli_calls {e : Env} {l : BitVec 4} {a : BitVec 7} {x : Dword} {t : VAddr} (hx : ReadsPair e a.toNat x)
    (ht : checkTarget x = .ok t) :
    (do e.exist [a.toNat, a.toNat + 1]
        let t ← e.pairTarget a.toNat
        e.call l t ((e.usePair a.toNat).map fun _ => ())) = e.call l t (.ok ()) := by
  rw [exist_pair hx, pairTarget_eq hx, ht, usePair_ok hx]
  rfl

/-- Settles O16: CALL and CALLI come to one call, which stops, goes or grows. -/
theorem callResults : Obligations.CallResults := by
  intro s e l t need hs ha hlow hhigh hneed both
  have hlink : e.exist [2 * l.toNat, 2 * l.toNat + 1] = .ok () := exist_ok (by simp [hlow, hhigh])
  have reaches (r : Out) (hr : ∀ f : Env → Act State, f e = e.call l t (.ok ()) → runLane s f = r) : both r :=
    ⟨fun o ho => hr _ (by rw [ho]), fun a x hx ht => hr _ (calli_calls hx ht)⟩
  refine ⟨fun hbad => ?_, fun hgood hfits => ?_, fun hgood hgrow hnone => ?_⟩ <;> refine reaches _ fun f hf => ?_
  · rw [runLane_error hs (hf.trans (call_badBudget ha hlink hneed hbad)), faulted, env_s hs]
    rfl
  · exact runLane_ok hs (hf.trans (call_goes ha hlink hneed hgood hfits))
  · rw [runLane_ok hs (hf.trans (call_grows ha hlink hneed hgood hgrow)), Env.requestGrow, hnone, env_s hs]
    rfl

end Sys2Proof.Machine
end

section
/-!
PROOFS. The drain that begins a region (R21, R24, R97): it leaves the results that have not arrived and keeps the newest value of
every destination that has one.
-/

namespace Sys2Proof.Machine

open Sys2Proof.Safety

theorem Strand.pc_of_rest {a b : Strand} (h : a.rest = b.rest) : a.pc = b.pc := (congrArg Strand.pc h :)

theorem Strand.fstat_of_rest {a b : Strand} (h : a.rest = b.rest) : a.fstat = b.fstat := (congrArg Strand.fstat h :)

section
variable (st : Strand)

theorem Strand.rest_drain : st.drain.rest = st.rest := Strand.rest_foldl_commit (settleWindow true st.window [] []).2.1 st

theorem Strand.count_drain : st.drain.count = st.count := Strand.count_foldl_commit (settleWindow true st.window [] []).2.1 st

theorem Strand.entriesOf_drain (d : Dst) : entriesOf st.drain.window d = keptOf true (entriesOf st.window d) := by
  have h := (entriesOf_settleWindow true d st.window [] []).1
  rwa [if_neg List.not_mem_nil] at h

theorem Strand.reg_drain (n : Nat) :
    st.drain.reg n = ((committedOf true (entriesOf st.window (.v n))).map Went.reg).getD (st.reg n) := by
  have h := (entriesOf_settleWindow true (.v n) st.window [] []).2
  rw [if_neg List.not_mem_nil] at h
  have hfold := Strand.reg_foldl_commit (settleWindow true st.window [] []).2.1 st n
  rw [h] at hfold
  cases hc : committedOf true (entriesOf st.window (.v n)) <;> rw [hc] at hfold <;> exact hfold

theorem Strand.preds_drain {n : Nat} (h0 : 0 < n) (h8 : n < 8) :
    st.drain.preds.getLsbD n =
      ((committedOf true (entriesOf st.window (.p n))).map fun e => e.val.getLsbD 0).getD (st.preds.getLsbD n) := by
  have h := (entriesOf_settleWindow true (.p n) st.window [] []).2
  rw [if_neg List.not_mem_nil] at h
  have hfold := Strand.preds_foldl_commit (settleWindow true st.window [] []).2.1 st n h0 h8
  rw [h] at hfold
  cases hc : committedOf true (entriesOf st.window (.p n)) <;> rw [hc] at hfold <;> exact hfold

end

/-- A drain leaves only results that have not arrived (R21). -/
theorem awaited_of_mem_keptOf {l : List Went} {w : Went} (h : w ∈ keptOf true l) : w.tag ≠ none ∧ w.transient = false := by
  induction l with
  | nil => cases h
  | cons f l ih =>
    by_cases ht : f.transient = true
    · exact ih (by simpa [keptOf, ht] using h)
    · by_cases htag : f.tag = none
      · simp [keptOf, ht, htag] at h
      · have hv : f.visible = false := by simp [Went.visible, htag]
        simp only [keptOf, ht, hv, Bool.false_eq_true, if_false, Bool.true_and, Bool.false_or, Option.isNone_iff_eq_none, htag,
          List.mem_cons] at h
        obtain rfl | h := h
        · exact ⟨htag, by simpa using ht⟩
        · exact ih h

theorem awaited_of_mem_drain {st : Strand} {w : Went} (h : w ∈ st.drain.window) : w.tag ≠ none ∧ w.transient = false := by
  have hw : w ∈ entriesOf st.drain.window w.dst := by simpa [entriesOf] using h
  rw [st.entriesOf_drain] at hw
  exact awaited_of_mem_keptOf hw

theorem all_isNone_of_awaited {l : List Went} (h : ∀ w ∈ l, w.tag ≠ none) : l.all (·.tag.isNone) = l.isEmpty := by
  cases l with
  | nil => rfl
  | cons w l => simp [h w List.mem_cons_self]

/-- A drain keeps the newest value: it goes to the bank before any older one of its destination (R21). -/
theorem newest_drain {st : Strand} {d : Dst} {x : Word} (hd : writable d = true) (h : newest st d = some x) :
    newest st.drain d = some x := by
  rw [newest_eq] at h ⊢
  rw [st.entriesOf_drain]
  cases hw : entriesOf st.window d with
  | nil =>
    rw [hw] at h
    cases d with
    | v n => simpa [newestOf, keptOf, st.reg_drain, hw, committedOf] using h
    | p n =>
      obtain ⟨h0, h8⟩ : 0 < n ∧ n < 8 := by simpa [writable] using hd
      simpa [newestOf, keptOf, st.preds_drain h0 h8, hw, committedOf] using h
  | cons f w =>
    rw [hw] at h
    obtain ⟨ht, htag⟩ : f.transient = false ∧ f.tag = none := by
      cases d <;> simp [newestOf] at h <;> exact h.1
    cases d with
    | v n => simpa [newestOf, keptOf, st.reg_drain, hw, committedOf, ht, htag, Went.reg, Reg.of] using h
    | p n =>
      obtain ⟨h0, h8⟩ : 0 < n ∧ n < 8 := by simpa [writable] using hd
      simpa [newestOf, keptOf, st.preds_drain h0 h8, hw, committedOf, ht, htag] using h

/-- Settles O17: REGION counts, drains and begins its region at the next word. -/
theorem regionResults : Obligations.RegionResults := by
  intro s e hs
  have hrest : (e.st.tick 1).drain.rest = e.st.rest := (Strand.rest_drain _).trans (e.st.rest_tick 1)
  have hpc : (e.st.tick 1).pc = e.here + 4 := (Strand.pc_of_rest (e.st.rest_tick 1)).trans (env_pc hs)
  have hwaits : ∀ w ∈ (e.st.tick 1).drain.window, w.tag ≠ none ∧ w.transient = false := fun _ => awaited_of_mem_drain
  refine ⟨(e.st.tick 1).startRegion (e.st.tick 1).pc, ?_, ?_, hpc, rfl, hwaits, ?_, ?_, ?_, ?_⟩
  · rw [exec_region, execRegion, runLane_ok hs rfl, Env.retireRegion, env_s hs]
  · exact ((Strand.pc_of_rest hrest).trans (env_pc hs) :)
  · exact congrArg not (all_isNone_of_awaited fun w hw => (hwaits w hw).1)
  · exact fun d x hd h => newest_drain hd (newest_tick hd h 1)
  · exact (Strand.fstat_of_rest hrest :)
  · exact (Strand.count_drain _).trans (e.st.count_tick 1)

end Sys2Proof.Machine
end

section
/-!
PROOFS. EXIT, YIELD, SLEEP and REFILL (R95, R96, R98): an exit leaves no window behind, and an item's argument record is
four loads for which the strand waits (R286, R287).
-/

namespace Sys2Proof.Machine

open Sys2Proof.Safety

/-! ### Exits -/

section
variable {s : State} {e : Env}

theorem Strand.closeGroup_life (st : Strand) : st.closeGroup.life = st.life := by
  unfold Strand.closeGroup
  split <;> rfl

theorem Strand.closeGroup_window (st : Strand) : st.closeGroup.window = st.window := by
  unfold Strand.closeGroup
  split <;> rfl

theorem State.tryMeets_of_no_meets {wk : Nat} {w : Wave} (hw : s.waves.find wk = some w) (hm : w.meets = []) :
    s.tryMeets wk = s := by
  simp only [State.tryMeets, hw, hm, List.map_nil, List.foldl_nil]

theorem exit_leaves (h : s.env = some e) (hd : e.st.drained = true) :
    exec .exit s = .next ((s.setStrand e.key (e.st.tick 1).leave.closeGroup).tryMeets e.waveKey) := by
  rw [env_waveKey h]
  exact runLane_ok h (by rw [hd, env_s h]; rfl)

theorem exit_waits (h : s.env = some e) (hd : e.st.drained = false) : exec .exit s = .next s :=
  runLane_error h (x := .hold) (by rw [hd]; rfl)

end

/-! ### The argument record of an item (R98, R287) -/

theorem Env.length_argLoads {e : Env} {record n : Nat} {pas : List Nat} (h : e.argLoads record n = .ok pas) : pas.length = n := by
  induction n generalizing pas with
  | zero => cases h; rfl
  | succ n ih =>
    obtain ⟨l, hl, h⟩ := Act.bind_eq_ok.mp h
    obtain ⟨pa, -, h⟩ := Act.bind_eq_ok.mp h
    cases h
    simp [ih hl]

/-- What a request for an argument record's part shows: its strand, address, size, register and acquire scope. -/
def Load.part (l : Load) : Nat × Nat × Nat × Nat × Nat := (l.strand, l.pa, l.size, l.d, l.acquire)

@[simp] theorem Env.startArgs_cores (e : Env) (s : State) (st : Strand) (record : Nat) (pas : List Nat) :
    (e.startArgs s st record pas).1.cores = s.cores := by
  unfold Env.startArgs
  generalize pas.zipIdx = l
  induction l generalizing s st with
  | nil => rfl
  | cons p l ih => exact ih _ _

theorem Env.startArgs_loads (e : Env) (s : State) (st : Strand) (record : Nat) (pas : List Nat) :
    (e.startArgs s st record pas).1.loads.map Load.part =
      s.loads.map Load.part ++ pas.zipIdx.map fun p => (e.key, p.1, 16, 4 * p.2, 3) := by
  unfold Env.startArgs
  generalize pas.zipIdx = l
  induction l generalizing s st with
  | nil => simp
  | cons p l ih =>
    rw [List.foldl_cons, ih]
    simp [State.request, State.fresh, Load.part]

theorem Strand.awaitMany_rest (st : Strand) (id n k : Nat) : (st.awaitMany id n k).rest = st.rest := by
  induction k generalizing st n with
  | zero => rfl
  | succ k ih => exact (ih (st.await n id) (n + 1)).trans (st.rest_push _)

theorem Strand.awaitMany_preds (st : Strand) (id n k : Nat) : (st.awaitMany id n k).preds = st.preds := by
  induction k generalizing st n with
  | zero => rfl
  | succ k ih => exact (ih (st.await n id) (n + 1)).trans (st.preds_push _)

/-- The strand's registers wait for the record, and nothing else of it changes. -/
theorem Env.startArgs_strand {e : Env} (ha : Alone e) (s : State) (st : Strand) (record : Nat) (pas : List Nat) :
    (e.startArgs s st record pas).2.rest = st.rest ∧ (e.startArgs s st record pas).2.preds = st.preds := by
  unfold Env.startArgs
  generalize pas.zipIdx = l
  induction l generalizing s st with
  | nil => exact ⟨rfl, rfl⟩
  | cons p l ih =>
    rw [List.foldl_cons]
    obtain ⟨hrest, hpreds⟩ := ih _ _
    rw [hrest, hpreds]
    simp only [Env.offer_of_alone ha, Strand.awaitMany_rest, Strand.awaitMany_preds, and_self]

/-! ### REFILL (R98) -/

/-- The state without an item that a lane of a core takes. -/
def State.withoutItem (s : State) (core : Nat) (t : Task) : State :=
  s.modCore core fun c => { c with items := c.items.erase t }

theorem State.withoutItem_items (s : State) (core : Nat) (t : Task) :
    ((s.withoutItem core t).core core).items = (s.core core).items.erase t := by
  rw [State.withoutItem, State.core_modCore, if_pos rfl]

section
variable {s : State} {e : Env} {o : BitVec 18} (h : s.env = some e) (ha : Alone e) (hitem : e.st.item = none)
  (hd : e.st.drained = true)
include h ha hitem hd

theorem refill_exits (hfit : e.fitting e.codeWord (s.core e.coreKey).items = .ok none) (hpool : e.poolHolds = false) :
    exec (.refill o) s = .next ((s.setStrand e.key (e.st.tick 1).leave.closeGroup).tryMeets e.waveKey) := by
  rw [env_waveKey h]
  exact runLane_ok h
    (by simp [Env.room_of_alone ha, Env.trailing_of_alone ha, Env.offer_of_alone ha, hd, hitem, require, env_s h, hfit, hpool,
      State.exitStrand, bind, Except.bind, pure, Except.pure])

theorem refill_takes {t : Task} {u : State} (hfit : e.fitting e.codeWord (s.core e.coreKey).items = .ok (some t))
    (hu : e.takeItem (s.withoutItem e.coreKey t) t.entry t.record (e.target o) = .ok u) :
    exec (.refill o) s = .next u := by
  rw [State.withoutItem] at hu
  exact runLane_ok h
    (by simp [Env.room_of_alone ha, Env.trailing_of_alone ha, hd, hitem, require, env_s h, hfit, hu, bind, Except.bind])

end

/-- The lane with the item that it has taken, and the state that notes it. -/
def Env.holding (e : Env) (s : State) (entry : VAddr) (record : Nat) : Env :=
  { e with st := { e.st with item := some (entry.toNat, record) },
           s := s.modStrand e.key fun st => { st with item := some (entry.toNat, record) } }

/-- What a lane and its state are when the record of its item is on the way. -/
def Env.loading (e : Env) (s : State) (entry : VAddr) (record : Nat) (head : VAddr) (pas : List Nat) : State × Strand :=
  let e := e.holding s entry record
  e.startArgs e.s (e.itemStrand entry head) record pas

section
variable {s : State} {e : Env} {entry head : VAddr} {record : Nat} {pas : List Nat} (ha : Alone e)

@[simp] theorem Env.loading_cores : (e.loading s entry record head pas).1.cores = s.cores := Env.startArgs_cores ..

theorem argParts_eq (hlen : pas.length = 4) (k : Nat) :
    (pas.zipIdx.map fun p => (k, p.1, 16, 4 * p.2, 3)) = (List.range 4).map fun j => (k, pas.getD j 0, 16, 4 * j, 3) := by
  apply List.ext_getElem
  · simp [hlen]
  · intro j hj _
    have hj' : j < pas.length := by simpa using hj
    simp [hj']

/-- The four parts of the record are the requests that are new (R98, R287). -/
theorem Env.loading_loads (hlen : pas.length = 4) :
    ((e.loading s entry record head pas).1.loads.drop s.loads.length).map Load.part =
      (List.range 4).map fun j => (e.key, pas.getD j 0, 16, 4 * j, 3) := by
  have hloads : (e.loading s entry record head pas).1.loads.map Load.part =
      s.loads.map Load.part ++ pas.zipIdx.map fun p => (e.key, p.1, 16, 4 * p.2, 3) := Env.startArgs_loads ..
  rw [List.map_drop, hloads, List.drop_left' (List.length_map _), argParts_eq hlen]

include ha

theorem Env.loading_strand :
    (e.loading s entry record head pas).2.rest = ((e.holding s entry record).itemStrand entry head).rest ∧
      (e.loading s entry record head pas).2.preds = 1 :=
  Env.startArgs_strand (e := e.holding s entry record) ha ..

theorem takeItem_ok (hpas : (e.holding s entry record).argLoads record 4 = .ok pas) :
    e.takeItem s entry record head = .ok ((e.loading s entry record head pas).1.setStrand e.key
      { (e.loading s entry record head pas).2 with draining := true }) := by
  have ha' : Alone (e.holding s entry record) := ha
  unfold Env.holding at hpas ha'
  simp only [Env.takeItem, hpas, Env.offer_of_alone ha']
  rfl

end

/-! ### The statement -/

/-- Settles O18: EXIT leaves by the exit that REFILL without work takes too, and a taken item sets the strand up. -/
theorem strandEnds : Obligations.StrandEnds := by
  refine ⟨fun s e hs => ⟨⟨exit_leaves hs, exit_waits hs, State.tryMeets_of_no_meets (env_wave hs :), Strand.closeGroup_life _,
    Strand.closeGroup_window _⟩, ?_, ?_⟩, fun s e o hs ha hitem hd => ⟨fun t pas hfit hpas => ?_, refill_exits hs ha hitem hd⟩⟩
  · rw [exec_yield, execYield, runLane_ok hs rfl, Env.retire, env_s hs]
  · rw [exec_sleep, execSleep, runLane_ok hs rfl, env_s hs]
  · have htake := takeItem_ok (s := s.withoutItem e.coreKey t) (head := e.target o) ha hpas
    obtain ⟨hrest, hpreds⟩ := Env.loading_strand (s := s.withoutItem e.coreKey t) (entry := t.entry) (record := t.record)
      (head := e.target o) (pas := pas) ha
    have hpc := congrArg Strand.pc hrest
    have hregion := congrArg Strand.regionPc hrest
    have hentry := congrArg Strand.entry hrest
    have hitem' := congrArg Strand.item hrest
    refine ⟨_, _, refill_takes hs ha hitem hd hfit htake, Tbl.find_set_same .., ?_⟩
    refine ⟨hpc, hregion.trans hpc.symm, hentry, hpreds, hitem', rfl, ?_, ?_⟩
    · rw [State.core, State.setStrand_cores, Env.loading_cores]
      exact s.withoutItem_items e.coreKey t
    · exact Env.loading_loads (s := s.withoutItem e.coreKey t) (Env.length_argLoads hpas)

end Sys2Proof.Machine
end

section
/-!
PROOFS. The float, packed, dot and NQ instructions (R100 to R108, R114 to R117): each has a shared form, and its function is the
statement's.
-/

namespace Sys2Proof.Machine

open Sys2Proof.Safety

/-! ### Functions of words -/

/-- A word with its top bit flipped keeps its low 31 bits (R108). -/
theorem toNat_flipSign (x : Word) : (x ^^^ 0x80000000).toNat = x.toNat % 2 ^ 31 + if x.msb then 0 else 2 ^ 31 := by
  have hflip : x ^^^ 0x80000000 = BitVec.cons (!x.msb) (x.setWidth 31) := by
    calc x ^^^ 0x80000000 = BitVec.cons x.msb (x.setWidth 31) ^^^ BitVec.cons true 0 := by
          rw [BitVec.cons_msb_setWidth]; rfl
      _ = _ := by rw [BitVec.cons_xor_cons, Bool.xor_true]; exact congrArg _ BitVec.xor_zero
  rw [hflip, BitVec.toNat_cons', BitVec.toNat_setWidth, Nat.add_comm]
  cases x.msb <;> rfl

/-- The sign that FCPYS copies from a NaN is + (R108). -/
theorem copiedSign_eq (nan neg : Bool) (n : Nat) :
    (if !nan && neg then n else 0) = if nan then 0 else if neg then n else 0 := by
  cases nan <;> rfl

/-! ### The instructions outside the shared forms -/

section
variable {s : State} {e : Env} {sel : BitVec 2} {t : BitVec 1} {d a b : BitVec 7}

theorem fcmp_result {c p : BitVec 3} {x y : Word} (h : s.env = some e) (ha : Reads e a.toNat x) (hb : Reads e b.toNat y) :
    exec (.fcmp c p a b) s = done e ((e.writePred e.st p.toNat (fcond c.toNat (f32v x) (f32v y)) 4).raise
      (e.loud (if (f32v x).isSNaN || (f32v y).isSNaN then fIV else 0))) :=
  laneStep_operands h (by simp [has_of_reads ha, has_of_reads hb]) (use2_ok ha hb) rfl

variable {code scales sup : Word} (h : s.env = some e) (hcode : Reads e a.toNat code) (hscales : Reads e (a.toNat + 1) scales)
  (hsup : Reads e b.toNat sup)
include h hcode hscales hsup

theorem nqdec_result (hd : Has e d.toNat) (hd' : Has e (d.toNat + 1)) :
    let lo := (nq4Term (code.toNat % 16) (e.blockScale sel scales) (f32v sup)).round .f32 e.mode.1 e.mode.2
    let hi := (nq4Term (code.toNat / 16 % 16) (e.blockScale sel scales) (f32v sup)).round .f32 e.mode.1 e.mode.2
    exec (.nqdec sel t d a b) s =
      done e ((e.write (e.write e.st d.toNat (.ofNat 32 lo.1) false 4 t) (d.toNat + 1) (.ofNat 32 hi.1) false 4 t).raise
        (e.loud (lo.2 ||| hi.2))) :=
  laneStep_operands h (by simp [hd, hd', has_of_reads hcode, has_of_reads hscales, has_of_reads hsup])
    (both_eq_ok (use2_ok hcode hscales) (use_ok hsup)) rfl

theorem nqdecf_result (hd : Has e d.toNat) :
    let lo := (nq4Term (code.toNat % 16) (e.blockScale sel scales) (f32v sup)).round .f16 e.mode.1 e.mode.2
    let hi := (nq4Term (code.toNat / 16 % 16) (e.blockScale sel scales) (f32v sup)).round .f16 e.mode.1 e.mode.2
    exec (.nqdecf sel t d a b) s = floated e t d.toNat (lo.1 + hi.1 * 65536, lo.2 ||| hi.2) :=
  laneStep_operands h (by simp [hd, has_of_reads hcode, has_of_reads hscales, has_of_reads hsup])
    (both_eq_ok (use2_ok hcode hscales) (use_ok hsup)) rfl

theorem nqdot_result {act c : Word} (hc : Reads e d.toNat c) (hact : Reads e (b.toNat + 1) act) :
    exec (.nqdot sel t d a b) s =
      floated e t d.toNat (nqDot e.mode.1 e.mode.2 code.toNat (e.blockScale sel scales) (f32v sup) act c) :=
  laneStep_operands h
    (by simp [has_of_reads hc, has_of_reads hcode, has_of_reads hscales, has_of_reads hsup, has_of_reads hact])
    (both_eq_ok (use2_ok hcode hscales) (both_eq_ok (use2_ok hsup hact) (use_ok hc))) rfl

end

/-! ### The statements -/

/-- Settles O7: each instruction is a form of one or two operands; FNEG and FCPYS make the sign from the top bit. -/
theorem floatResults : Obligations.FloatResults := by
  intro s e f t d a b x y hs hd ha hb
  simp only [exec_fadd, exec_fsub, exec_fmul, exec_fmin, exec_fmax, exec_fscale, exec_fcpys, exec_fabs, exec_fneg, exec_fclass,
    exec_frnd, exec_ffrac, exec_hadd2, exec_hsub2, exec_hmul2, exec_hmin2, exec_hmax2, execFadd, execFsub, execFmul, execFmin,
    execFmax, execFscale, execFcpys, execFabs, execFneg, execFclass, execFrnd, execFfrac, execHadd2, execHsub2, execHmul2,
    execHmin2, execHmax2, float1_result hs hd ha, float2_result hs hd ha hb, copiedSign_eq, toNat_flipSign, and_self]

/-- Settles O8: the fused and the dot forms read the old destination as a third operand; FCMP and the NQ instructions read
together what they name. -/
theorem fusedResults : Obligations.FusedResults := by
  refine ⟨fun s e f t d a b x y c hs hd ha hb => ?_, fun s e c p a b x y hs ha hb => fcmp_result hs ha hb,
    fun s e sel t d a b code scales sup act c hs hcode hscales hsup =>
      ⟨nqdec_result hs hcode hscales hsup, nqdecf_result hs hcode hscales hsup, nqdot_result hs hcode hscales hsup⟩⟩
  simp only [exec_ffma, exec_ffms, exec_fnma, exec_fnms, exec_hfma2, exec_fdot2, exec_f8dot4, execFfma, execFfms, execFnma,
    execFnms, execHfma2, execFdot2, execF8dot4, float3_result hs hd ha hb, fused, Bool.false_eq_true, if_true, if_false,
    and_self]

end Sys2Proof.Machine
end

section
/-!
PROOFS. The sum rule (R102): a NaN among the values decides the result, and a sum of two values is the same in either order.
-/

namespace Sys2Proof.Machine

/-! ### Exact products -/

/-- A product is a NaN where a factor is one (R102). -/
theorem FVal.isNaN_mul (x y : FVal) : (x.mul y).isNaN = (x.isNaN || y.isNaN) := by
  cases x <;> cases y <;> rfl

@[simp] theorem FVal.one_mul (x : FVal) : FVal.mul (.fin false 1 0) x = x := by
  cases x <;> simp [FVal.mul, FVal.neg]

theorem FVal.isNaN_product (l : List FVal) (x : FVal) :
    (l.foldl FVal.mul x).isNaN = (x.isNaN || l.any FVal.isNaN) := by
  induction l generalizing x with
  | nil => simp
  | cons y l ih => rw [List.foldl_cons, ih, FVal.isNaN_mul, List.any_cons, Bool.or_assoc]

theorem isNaN_term (l : List FVal) : (term l).value.isNaN = l.any FVal.isNaN :=
  FVal.isNaN_product l _

/-- A term of one factor is its value; 0 x infinity takes two. -/
theorem term_single (x : FVal) : term [x] = { value := x, signalling := x.isSNaN, invalid := false } := by
  have hinvalid : (x.isInf && x.isZero && !x.isNaN) = false := by cases x <;> rfl
  simp [term, Term.of, hinvalid]

/-! ### NaN operands -/

/-- A NaN addend or a NaN term decides the result (R102). -/
theorem sumRule_of_isNaN {c : Option FVal} {terms : List Term} {f : Fmt} {m : Nat} {sat : Bool}
    (h : (c.any FVal.isNaN || terms.any fun t => t.value.isNaN) = true) :
    (sumRule c terms f m sat).1 = f.canonicalNaN := by
  cases c with
  | none =>
    rw [Option.any_none, Bool.false_or] at h
    simp only [sumRule, List.nil_append, List.any_map, Function.comp_def, h, Bool.true_or, if_true]
  | some v =>
    rw [Option.any_some] at h
    simp only [sumRule, List.singleton_append, List.any_cons, List.any_map, Function.comp_def, h, Bool.true_or, if_true]

/-! ### The order of the operands -/

theorem exactSum_swap (x y : FVal) : exactSum [x, y] = exactSum [y, x] := by
  cases x with
  | nan | inf => cases y <;> rfl
  | fin s m e =>
    cases y with
    | nan | inf => rfl
    | fin t n g =>
      have hscale : min (min 0 e) g = min (min 0 g) e := min_right_comm 0 e g
      by_cases hm : m = 0
      · simp [exactSum, hm]
      · by_cases hn : n = 0
        · simp [exactSum, hn]
        · simp only [exactSum, List.foldl_cons, List.foldl_nil, if_neg hm, if_neg hn, hscale]
          congr 1
          cases s <;> cases t <;> simp <;> ring

/-- A sum of two zeros keeps their sign where it is one (R102). -/
theorem sameZero_swap (x y : FVal) (f : Fmt) (other : Nat × Flags) :
    (if ([y].all (fun w => w.isZero && w.neg == x.neg) && x.isZero) = true then (f.signBit x.neg, 0) else other) =
      if ([x].all (fun w => w.isZero && w.neg == y.neg) && y.isZero) = true then (f.signBit y.neg, 0) else other := by
  have hcond : ([y].all (fun w => w.isZero && w.neg == x.neg) && x.isZero) =
      ([x].all (fun w => w.isZero && w.neg == y.neg) && y.isZero) := by
    simp only [List.all_cons, List.all_nil, Bool.and_true, Bool.beq_comm (a := y.neg)]
    ac_rfl
  rw [hcond]
  refine ite_congr rfl (fun h => ?_) fun _ => rfl
  obtain ⟨⟨-, hneg⟩, -⟩ : (x.isZero ∧ x.neg = y.neg) ∧ y.isZero := by simpa using h
  rw [hneg]

/-- Two values have the same sum in either order: a NaN gives the canonical NaN, two infinities of one sign or an infinity and a
number the infinity, and two numbers their exact sum, rounded, or a zero (R102). -/
theorem sumRule_swap (x y : FVal) (f : Fmt) (m : Nat) (sat : Bool) :
    sumRule (some x) [term [y]] f m sat = sumRule (some y) [term [x]] f m sat := by
  cases x with
  | nan => cases y <;> simp [sumRule, term_single, FVal.isNaN, FVal.isInf, FVal.isSNaN, Bool.or_comm]
  | inf s =>
    cases y with
    | nan | fin => simp [sumRule, term_single, List.filter_cons, FVal.isNaN, FVal.isInf, FVal.isSNaN]
    | inf t => cases s <;> cases t <;> rfl
  | fin s q e =>
    cases y with
    | nan | inf => simp [sumRule, term_single, List.filter_cons, FVal.isNaN, FVal.isInf, FVal.isSNaN]
    | fin =>
      simp only [sumRule, term_single, List.map_cons, List.map_nil, List.singleton_append, exactSum_swap (.fin s q e),
        sameZero_swap (.fin s q e)]
      rfl

/-- Settles O9: a NaN among the values of the rule decides it; otherwise the infinities, the signs of zeros and the exact sum are
the same in either order. -/
theorem sumRules : Obligations.SumRules := by
  refine ⟨fun x y c m sat h => ⟨sumRule_of_isNaN ?_, fun h => sumRule_of_isNaN ?_, fun h => sumRule_of_isNaN ?_⟩,
    fun x y m sat => sumRule_swap _ _ _ _ _⟩
  all_goals simpa [isNaN_term, or_assoc, or_comm, or_left_comm] using h

end Sys2Proof.Machine
end

section
/-!
PROOFS. The queues of the SFU and of the conversions (R110 to R113): an instruction that finds room enters its result, and one that
finds the queue full of other issues waits.
-/

namespace Sys2Proof.Machine

open Sys2Proof.Safety

/-! ### A full queue -/

section
variable {s : State} {e : Env} {d a b : BitVec 7} {k : BitVec 1} {y x : BitVec 3}

/-- An issue that is not yet in a full queue holds and changes nothing (R111, R112). -/
theorem runLane_full {unit limit : Nat} {f : Env → Unit → Act State} (h : s.env = some e)
    (hfull : limit ≤ (s.unitIssues e.waveKey unit).length) (hother : e.issueNo ∉ s.unitIssues e.waveKey unit) :
    runLane s (fun e => e.queueRoom unit limit >>= f e) = .next s :=
  runLane_error (x := .hold) h
    (by simp [Env.queueRoom, require, env_s h, hfull.not_gt, hother, bind, Except.bind])

theorem sfuOp_full {op : Nat} (h : s.env = some e) (hfull : 4 ≤ (s.unitIssues e.waveKey 1).length)
    (hother : e.issueNo ∉ s.unitIssues e.waveKey 1) : sfuOp s op d a b = .next s :=
  runLane_full h hfull hother

variable (h : s.env = some e) (hfull : 8 ≤ (s.unitIssues e.waveKey 2).length) (hother : e.issueNo ∉ s.unitIssues e.waveKey 2)
include h hfull hother

theorem cvtOp_full {kind : Nat} : cvtOp s kind d a y x = .next s := runLane_full h hfull hother

theorem pack2_full : execPack2 d a k y x s = .next s := runLane_full h hfull hother

theorem unpack2_full : execUnpack2 d a k y x s = .next s := runLane_full h hfull hother

end

/-! ### Room in the queue -/

/-- An instruction whose queue has room goes on with its registers and operands (R11, R111, R112). -/
theorem runLane_operands {α : Type} {s : State} {e : Env} {unit limit : Nat} {named : Env → List Nat} {reads : Env → Act α}
    {v : α} {f : Env → α → Act State} {t : State} (h : s.env = some e) (hq : (s.unitIssues e.waveKey unit).length < limit)
    (hnamed : ∀ n ∈ named e, Has e n) (hreads : reads e = .ok v) (hf : f e v = .ok t) :
    runLane s (fun e => do e.queueRoom unit limit; e.exist (named e); let v ← reads e; f e v) = .next t :=
  runLane_ok h (by simp only [queueRoom_ok h hq, exist_ok hnamed, hreads, bind, Except.bind, hf])

section
variable {s : State} {e : Env} {d a : BitVec 7} {k : BitVec 1} {y x : BitVec 3} {v w : Word}
variable (h : s.env = some e) (hd : Has e d.toNat) (ha : Reads e a.toNat v) (hq : (s.unitIssues e.waveKey 2).length < 8)
include h hd ha hq

/-- PACK2 joins the converted words of Pair(a) in one register (R113). -/
theorem pack2_result (hw : Reads e (a.toNat + 1) w) :
    let c := fun (n : Nat) => convert (packKind k) y.toNat x.toNat e.mode.1 e.mode.2 n
    let n := codeWidth k y.toNat
    exec (.pack2 d a k y x) s = queued e 2
      [(d.toNat, .ofNat 32 ((c v.toNat).1.toNat % 2 ^ n + (c w.toNat).1.toNat % 2 ^ n * 2 ^ n))]
      (e.loud ((c v.toNat).2 ||| (c w.toNat).2)) :=
  runLane_operands h hq (by simp [hd, has_of_reads ha, has_of_reads hw]) (use2_ok ha hw) rfl

/-- UNPACK2 converts the two low fields of a register into Pair(d) (R113). -/
theorem unpack2_result (hd' : Has e (d.toNat + 1)) :
    let c := fun (n : Nat) => convert (packKind k) y.toNat x.toNat e.mode.1 e.mode.2 n
    let n := codeWidth k x.toNat
    exec (.unpack2 d a k y x) s = queued e 2
      [(d.toNat, (c (v.toNat % 2 ^ n)).1), (d.toNat + 1, (c (v.toNat / 2 ^ n % 2 ^ n)).1)]
      (e.loud ((c (v.toNat % 2 ^ n)).2 ||| (c (v.toNat / 2 ^ n % 2 ^ n)).2)) :=
  runLane_operands h hq (by simp [hd, hd', has_of_reads ha]) (use_ok ha) rfl

end

/-! ### Special operands of the SFU -/

/-- A NaN operand gives the canonical NaN, and a signalling one sets IV (R110). -/
theorem sfu_of_isNaN {op : Nat} {x : Word} (hop : op ≠ 3) (h : (f32v x).isNaN = true) :
    sfu op x 0 = (0x7FC00000, if (f32v x).isSNaN then fIV else 0) := by
  rw [f32v] at h
  simp only [sfu, h, if_true, hop, decide_false, Bool.false_and, Bool.or_false]
  rfl

/-! ### The statement -/

/-- Settles O10: the SFU instructions and the conversions of one element are one form each, and a full queue holds every form. The
special operands come to their rows of R110 without a quotient or a root. -/
theorem queuedFloatResults : Obligations.QueuedFloatResults := by
  refine ⟨fun s e d a b x y hs hd ha hb hq => ?_, ⟨fun op x hop _ hnan => sfu_of_isNaN hop hnan, by decide⟩,
    fun s e d a k y x v w hs hd ha hq => ?_, fun s e d a b k y x hs => ⟨fun hfull hother => ?_, fun hfull hother => ?_⟩⟩
  · have hsfu {op : Nat} (hop : op ≠ 3) := sfu1_result (op := op) (b := 0) hs hop hd ha hq
    simp (disch := decide) only [exec_frcp, exec_frsq, exec_fsqrt, exec_fdiv, exec_fexp2, exec_flog2, exec_fsinp, exec_fcosp,
      exec_ftanh, execFrcp, execFrsq, execFsqrt, execFdiv, execFexp2, execFlog2, execFsinp, execFcosp, execFtanh, hsfu,
      sfu2_result hs hd ha hb hq, and_self]
  · simp only [exec_f2f, exec_f2i, exec_i2f, exec_i2i, execF2f, execF2i, execI2f, execI2i, cvt_result hs hd ha hq, true_and]
    exact ⟨pack2_result hs hd ha hq, unpack2_result hs hd ha hq⟩
  · simp only [List.forall_mem_cons, exec_frcp, exec_frsq, exec_fsqrt, exec_fdiv, exec_fexp2, exec_flog2, exec_fsinp, exec_fcosp,
      exec_ftanh, execFrcp, execFrsq, execFsqrt, execFdiv, execFexp2, execFlog2, execFsinp, execFcosp, execFtanh,
      sfuOp_full hs hfull hother, true_and, List.not_mem_nil, false_imp_iff, implies_true]
  · simp only [List.forall_mem_cons, exec_f2f, exec_f2i, exec_i2f, exec_i2i, exec_pack2, exec_unpack2, execF2f, execF2i, execI2f,
      execI2i, cvtOp_full hs hfull hother, pack2_full hs hfull hother, unpack2_full hs hfull hother, true_and,
      List.not_mem_nil, false_imp_iff, implies_true]

end Sys2Proof.Machine
end

section
/-!
PROOFS. Where an access through a handle goes (R119, R124).
-/

namespace Sys2Proof.Machine

section
variable {h : HRec} {i need scratch areas : Nat}

/-- What Bounds makes of an element out of range (R119). -/
def outOfBounds (h : HRec) : Act Loc := if hBnd h then .ok .clamped else oor

theorem locate_beyond (hi : hExtent h ≤ i) : locate h i need scratch areas = outOfBounds h := if_pos hi

theorem locate_refused (hi : i < hExtent h) (hg : hGrants h need = false) : locate h i need scratch areas = oor := by
  simp only [locate, Nat.not_le.mpr hi, if_false, hg, Bool.not_false, if_true]

/-- A local element has its place in scratch, where the grant holds it whole. -/
theorem locate_local (hi : i < hExtent h) (hg : hGrants h need = true) (hk : hKind h = 1) :
    locate h i need scratch areas =
      if hBase0 h + hOffset h i < 0 ∨ (scratch : Int) < hBase0 h + hOffset h i + hEsize h then outOfBounds h
      else .ok (.scratch (hBase0 h + hOffset h i).toNat) := by
  simp [locate, Nat.not_le.mpr hi, hg, hk, kGlobal, kQuant, kLocal, outOfBounds]

end

/-- Settles O11: the extent is checked before the permission, and the permission before the grant. -/
theorem locateRules : Obligations.LocateRules := by
  intro h i need scratch areas out
  refine ⟨locate_beyond, locate_refused, fun hi hg hk => ?_⟩
  intro off
  refine ⟨fun hout => ?_, fun hlow hhigh => ?_⟩
  · rw [locate_local hi hg hk, if_pos hout]
    rfl
  · rw [locate_local hi hg hk, if_neg (by omega)]

end Sys2Proof.Machine
end

section
/-!
PROOFS. A FENCEW of a wave that counts as a trailing one and has no partner (R190, R266).
-/

namespace Sys2Proof.Machine

/-- A wave with the mark of a trailing wave and no leading one, which no placement makes. -/
def lonelyWave : Wave :=
  { width := 1, live := 1, waveId := 0, team := 0, grid := 0, alloc := 8, w := [], k := [], h := [], issues := 0, censusWait := 0,
    bsPass := 0, gstat := 0, mxFlags := 0, corr := 0, meets := [], grow := none, partner := none, trailing := true }

/-- A contained team. -/
def containedTeam : Team :=
  { grid := 0, teamId := 0, bank := 0, waves := [0], freed := [], scratchSize := 0, scratch := [], poisonWords := [], accs := [],
    waOps := [], barriers := [], tiles := [], tags := [], buffer := [], contained := true, redundant := false, exposed := false,
    relaunches := 0, waiting := false, sameCore := none, avoid := none, tasks := none, killed := 0 }

/-- A FENCEW of order 2 and scope 3 that one lane has presented. -/
def presentedFence : Meet :=
  { id := 1, closed := true, cls := 0x1A, tag := 0, own := none, minor := 6, op := 0, order := 2, scope := 3, kEnable := false,
    kValue := 0, dst := 0, src := 0, acks := none, asked := false, parts := [], members := [0]
    presenters := [{ lane := 0, words := [], pred := false, d := 0, arg := 0, quiet := 0, next := 0 }] }

/-- The machine with that team, and nothing on its way. -/
def lonelyState : State := { State.reset with teams := [(0, containedTeam)] }

/-- The fence waits for the word of a leading strand that there is not. -/
theorem lonelyFence_waits : lonelyState.finishMeet 0 lonelyWave presentedFence = none := rfl

/-- Refutes O27: the clause of FENCEW asks for a wave without a partner and not for one that leads. The wave of the counterexample
has the mark of a trailing wave; its FENCEW at cluster scope in a contained team waits for its partner's word, where the clause
has it end at once, as nothing is on its way. -/
theorem not_meetsComplete : ¬ Obligations.MeetsComplete := by
  rintro ⟨⟨-, hfence, -⟩, -⟩
  obtain ⟨hends, -⟩ := (hfence lonelyState 0 lonelyWave presentedFence rfl rfl rfl).1 rfl
    (fun p hp => by obtain rfl : p = _ := List.mem_singleton.mp hp; exact ⟨rfl, fun _ _ => rfl⟩)
  have hsome := hends (.inr rfl)
  rw [lonelyFence_waits] at hsome
  cases hsome

end Sys2Proof.Machine
end

section
/-!
PROOFS. A load, a store or an atomic of a lane that runs alone, where its operands are there (R124, R125, R129): what is left of
it once the place of its element is known.
-/

namespace Sys2Proof.Machine

open Sys2Proof.Safety

section
variable {s : State} {e f : Env} {h : BitVec 4} {a d : BitVec 7} {y : BitVec 3} {r : HRec} {i : Word}

@[simp] theorem require_true (x : Stop) : require true x = .ok () := rfl

theorem exist_span {n k : Nat} (hh : ∀ j < k, Has e (n + j)) : e.exist (span n k) = .ok () :=
  exist_ok fun m hm => by
    simp only [span, List.mem_map, List.mem_range] at hm
    obtain ⟨j, hj, rfl⟩ := hm
    exact hh j hj

theorem exist_one {n : Nat} {x : Word} (hr : Reads e n x) : e.exist [n] = .ok () :=
  exist_ok fun m hm => by rw [List.mem_singleton.mp hm]; exact hr.1

theorem Env.shared_of_alone (ha : Alone e) (x : Act State) : e.shared x = x := by
  have hp : e.wave.partner = none := ha
  unfold Env.shared
  split <;> simp [Env.leading, hp]

theorem Env.compared_of_alone (ha : Alone e) (req : List Word) (act : Env → Act State) (trail : State → Act State) :
    e.compared req act trail = act e := by
  have hp : e.wave.partner = none := ha
  simp only [Env.compared, hp]

theorem Env.told_of_alone (ha : Alone e) (st : Strand) : e.told st = st := Env.offer_of_alone ha st 0 [] []

theorem Env.give_of_alone (ha : Alone e) (t : State) (st : Strand) (n : Nat) (l : List (Word × Bool)) :
    e.give t st n l = e.retire t (e.put st n l) := by rw [Env.give, Env.offer_of_alone ha]

/-- The drain of an access through a register area changes the strand alone. -/
theorem areaDrained_strand (hd : e.areaDrained r = .ok f) : ∃ st, f = { e with st := st } := by
  unfold Env.areaDrained at hd
  split at hd
  · split at hd
    · exact ⟨e.st.drain, (Except.ok.inj hd).symm⟩
    · cases hd
  · exact ⟨e.st, (Except.ok.inj hd).symm⟩

theorem areaDrained_other (hk : hKind r ≠ 2) : e.areaDrained r = .ok e := if_neg hk

theorem areaDrained_waits (hk : hKind r = 2) (hd : e.st.drained = false) : e.areaDrained r = .error .hold := by
  simp [Env.areaDrained, hk, kArea, hd]

/-! ### Where an element lies -/

/-- Where `locate` puts an element, by the kind of its handle. -/
theorem locate_kind {need scratch areas : Nat} {l : Loc} (hl : Machine.locate r i.toNat need scratch areas = .ok l) :
    (∀ va, l = .glob va → hKind r ≠ 2) ∧ ∀ off, l = .area off → hKind r = 2 := by
  have hlt : hKind r < 4 := Nat.mod_lt _ (by decide)
  have cases_of : ∀ {c : Bool} {l : Loc}, (if c then .ok .clamped else oor : Act Loc) = .ok l → l = .clamped := by
    intro c l hc
    cases c <;> cases hc
    rfl
  unfold Machine.locate at hl
  dsimp only at hl
  split at hl
  · cases cases_of hl
    simp
  split at hl
  · cases hl
  split at hl
  next hg =>
    cases hl
    simp only [kGlobal, kQuant] at hg
    simp
    omega
  by_cases hloc : hKind r = kLocal
  · simp only [hloc, if_true] at hl
    split at hl
    · cases cases_of hl
      simp
    · cases hl
      simp [hloc, kLocal]
  · simp only [hloc, if_false] at hl
    split at hl
    · cases cases_of hl
      simp
    · cases hl
      simp only [kGlobal, kQuant, kLocal] at *
      simp
      omega

theorem located_global {need va : Nat} (hl : e.locate r i.toNat need = .ok (.glob va)) : hKind r ≠ 2 :=
  (locate_kind hl).1 va rfl

theorem located_area {need off : Nat} (hl : e.locate r i.toNat need = .ok (.area off)) : hKind r = 2 :=
  (locate_kind hl).2 off rfl

/-! ### Loads -/

/-- What the checks of an access find of the operands of an element, before the drain and after it. -/
theorem element_opens (hd : e.areaDrained r = .ok f) (hel : Element f h a d r i) :
    e.exist [a.toNat] = .ok () ∧ e.hReg h.toNat = .ok r ∧ e.exist (span d.toNat (elementRegs (hEsize r))) = .ok () := by
  obtain ⟨st, rfl⟩ := areaDrained_strand hd
  obtain ⟨hh, hi, -, hds⟩ := hel
  exact ⟨exist_one (e := { e with st := st }) hi, hh, exist_span (e := { e with st := st }) hds⟩

theorem areaDrained_alone (hd : e.areaDrained r = .ok f) (ha : Alone e) : Alone f := by
  obtain ⟨st, rfl⟩ := areaDrained_strand hd
  exact ha

section
variable {signed acquire : Bool} {out : Act State} (he : s.env = some e) (ha : Alone e) (hd : e.areaDrained r = .ok f)
  (hel : Element f h a d r i)
include he ha hd hel

theorem load_clamped (hl : f.locate r i.toNat 0 = .ok .clamped) :
    load s d h a y signed acquire =
      .next (f.give f.s f.st d.toNat (markedWords (clean (List.replicate (hEsize r) 0))
        (loadWords (hEsize r) signed (clean (List.replicate (hEsize r) 0)).bytes))) := by
  obtain ⟨hx, hh, hs⟩ := element_opens hd hel
  obtain ⟨-, hi, hal, -⟩ := hel
  have hf := areaDrained_alone hd ha
  exact runLane_ok he (by
    simp [Env.room_of_alone ha, hx, hh, hal, hs, hd, Env.trailing_of_alone hf, Env.shared_of_alone hf, hi.2, hl, bind,
      Except.bind, pure, Except.pure])

theorem load_scratch {off : Nat} (hl : f.locate r i.toNat 0 = .ok (.scratch off)) :
    let m := (f.s.noteAccess f.lane 0 (hEsize r) off false).mixed (.scratch f.wave.team) off
      ((f.s.noteAccess f.lane 0 (hEsize r) off false).scratchRead f.wave.team off (hEsize r))
    load s d h a y signed acquire =
      .next (f.give m.2 f.st d.toNat (markedWords m.1 (loadWords (hEsize r) signed m.1.bytes))) := by
  obtain ⟨hx, hh, hs⟩ := element_opens hd hel
  obtain ⟨-, hi, hal, -⟩ := hel
  have hf := areaDrained_alone hd ha
  exact runLane_ok he (by
    simp [Env.room_of_alone ha, hx, hh, hal, hs, hd, Env.trailing_of_alone hf, Env.shared_of_alone hf, hi.2, hl, bind,
      Except.bind, pure, Except.pure, Loc.counted])

theorem load_area {off : Nat} (hl : f.locate r i.toNat 0 = .ok (.area off)) :
    load s d h a y signed acquire = runLane s fun _ =>
      { f with s := f.s.noteAccess f.lane 0 (hEsize r) (off + 2 ^ 40) false }.areaLoad d.toNat (hEsize r) signed off := by
  obtain ⟨hx, hh, hs⟩ := element_opens hd hel
  obtain ⟨-, hi, hal, -⟩ := hel
  have hf := areaDrained_alone hd ha
  simp [load, runLane, he, Env.room_of_alone ha, hx, hh, hal, hs, hd, Env.trailing_of_alone hf, Env.shared_of_alone hf, hi.2,
    hl, bind, Except.bind, Loc.counted]

theorem load_global {va pa : Nat} (hl : f.locate r i.toNat 0 = .ok (.glob va)) (ht : f.translate va 0 kLoad = .ok pa) :
    load s d h a y signed acquire = .next (f.loadGlobal va pa (hEsize r) d.toNat
      (if acquire then accessScope y.toNat r else 0) (f.policy r) signed acquire) := by
  obtain ⟨hx, hh, hs⟩ := element_opens hd hel
  obtain ⟨-, hi, hal, -⟩ := hel
  have hf := areaDrained_alone hd ha
  exact runLane_ok he (by
    simp [Env.room_of_alone ha, hx, hh, hal, hs, hd, Env.trailing_of_alone hf, Env.shared_of_alone hf, hi.2, hl, ht, bind,
      Except.bind, pure, Except.pure])

end

/-! ### Stores -/

/-- Bytes of words without poison have none. -/
theorem storeBytes_clean (n : Nat) {words : List (Word × Bool)} (hp : words.any (·.2) = false) (g : Word → Word) :
    (storeBytes n (words.map fun w => (g w.1, w.2))).poisoned = false := by
  rw [Marked.poisoned, List.any_eq_false]
  intro b hb
  have hb := List.mem_of_mem_take hb
  simp only [List.mem_flatMap, List.mem_map] at hb
  obtain ⟨-, ⟨w, hw, rfl⟩, c, -, rfl⟩ := hb
  exact List.any_eq_false.mp hp w hw

@[simp] theorem State.setStrand_setStrand (s : State) (k : Nat) (x z : Strand) :
    (s.setStrand k x).setStrand k z = s.setStrand k z := by simp [State.setStrand]

section
variable {x : BitVec 7} {release : Bool} {words : List (Word × Bool)} (he : s.env = some e) (ha : Alone e)
  (hd : e.areaDrained r = .ok f) (hel : Element f h a x r i) (hw : f.readMany x.toNat (elementRegs (hEsize r)) = .ok words)
  (hr : f.s.readsOutstanding f.key = false)
include he ha hd hel hw hr

theorem store_clamped (hl : f.locate r i.toNat 1 = .ok .clamped) :
    store s x h a y release = .next (f.retire f.s f.st) := by
  obtain ⟨hx, hh, hs⟩ := element_opens hd hel
  obtain ⟨-, hi, hal, -⟩ := hel
  have hf := areaDrained_alone hd ha
  exact runLane_ok he (by
    simp [hx, hh, hal, hs, hd, hi.2, both_eq_ok rfl hw, hr, hl, Env.compared_of_alone hf, bind, Except.bind, pure, Except.pure])

theorem store_local {l : Loc} (hl : f.locate r i.toNat 1 = .ok l) (hloc : (∃ off, l = .scratch off) ∨ ∃ off, l = .area off)
    (hrel : release = true → f.s.ownOutstanding f.key = false) :
    store s x h a y release =
      .next (f.storeLocal l (storeBytes (hEsize r) (words.map fun w => (f.produce w.1, w.2)))) := by
  obtain ⟨hx, hh, hs⟩ := element_opens hd hel
  obtain ⟨-, hi, hal, -⟩ := hel
  have hf := areaDrained_alone hd ha
  have hwait : (!(release && f.s.ownOutstanding f.key)) = true := by cases release <;> simp_all
  obtain ⟨off, rfl⟩ | ⟨off, rfl⟩ := hloc <;> exact runLane_ok he (by
    simp [hx, hh, hal, hs, hd, hi.2, both_eq_ok rfl hw, hr, hl, hwait, Env.compared_of_alone hf, bind, Except.bind, pure,
      Except.pure])

/-- A store through a global handle, where the bytes of its words are sent or buffered. -/
theorem store_global {va pa : Nat} {t : State} {st : Strand} (hp : words.any (·.2) = false)
    (hl : f.locate r i.toNat 1 = .ok (.glob va)) (ht : f.translate va 1 kStore = .ok pa)
    (hst : f.storeGlobal va pa (storeBytes (hEsize r) (words.map fun w => (f.produce w.1, w.2))).bytes
      (accessScope y.toNat r) (f.policy r) release = .ok (t.setStrand f.key st)) :
    store s x h a y release = .next (t.setStrand f.key st) := by
  obtain ⟨hx, hh, hs⟩ := element_opens hd hel
  obtain ⟨-, hi, hal, -⟩ := hel
  have hf := areaDrained_alone hd ha
  have hclean := storeBytes_clean (hEsize r) hp f.produce
  have htold : (t.setStrand f.key st).modStrand f.key (fun st => f.told st) = t.setStrand f.key st := by
    rw [State.modStrand_of_find (st := st) _ (by simp), Env.told_of_alone hf, State.setStrand_setStrand]
  refine runLane_ok he ?_
  simp [hx, hh, hal, hs, hd, hi.2, both_eq_ok rfl hw, hr, hl, ht, hclean, hst, htold, Env.compared_of_alone hf,
    Env.once_of_alone hf, bind, Except.bind, pure, Except.pure, Except.map]

end

end

end Sys2Proof.Machine
end

section
/-!
PROOFS. The atomic operations, and atomics on scratch (R129, R130, R24).
-/

namespace Sys2Proof.Machine

open Sys2Proof.Safety

/-! ### New values -/

/-- A word that was widened. -/
theorem narrow_widen (w : Word) : (w.setWidth 64).setWidth 32 = w := by
  rw [BitVec.setWidth_setWidth_of_le _ (by decide), BitVec.setWidth_eq]

theorem widen_toNat (w : Word) : (w.setWidth 64).toNat = w.toNat := by
  rw [BitVec.toNat_setWidth_of_le (by decide)]

theorem widen_inj {x c : Word} : (x.setWidth 64 = c.setWidth 64) ↔ x = c := by
  rw [← BitVec.toNat_inj, widen_toNat, widen_toNat, BitVec.toNat_inj]

/-- A choice between two widened words. -/
theorem narrow_choice (p : Prop) [Decidable p] (x m : Word) :
    (if p then x.setWidth 64 else m.setWidth 64 : Dword).setWidth 32 = if p then x else m := by
  split <;> exact narrow_widen _

/-- The new value of an element of four bytes, by operation. -/
theorem atomicNew_word (m x c : Word) :
    let z := fun (w : Word) => w.setWidth 64
    let f := fun (op : Nat) (isF : Bool) => (atomicNew op isF 4 (z m) (z x) (z c)).setWidth 32
    (∀ b, f 0 b = m + x) ∧
    (∀ b, f 1 b = .ofNat 32 (sumRule (some (f32v m)) [term [f32v x]] .f32 0 false).1) ∧
    f 2 false = (if x.slt m then x else m) ∧ f 3 false = (if m.slt x then x else m) ∧
    f 2 true = .ofNat 32 (minMax .f32 false m.toNat x.toNat).1 ∧
    f 3 true = .ofNat 32 (minMax .f32 true m.toNat x.toNat).1 ∧
    (∀ b, f 4 b = if x.ult m then x else m) ∧ (∀ b, f 5 b = if m.ult x then x else m) ∧
    (∀ b, f 6 b = m &&& x) ∧ (∀ b, f 7 b = m ||| x) ∧ (∀ b, f 8 b = m ^^^ x) ∧ (∀ b, f 9 b = x) ∧
    (∀ b, f 10 b = if m = c then x else m) ∧ (∀ b, f 11 b = if x.ule m then 0 else m + 1) := by
  intro z f
  refine ⟨fun b => ?_, fun b => ?_, ?_, ?_, ?_, ?_, fun b => ?_, fun b => ?_, fun b => ?_, fun b => ?_, fun b => ?_, fun b => ?_,
    fun b => ?_, fun b => ?_⟩
  · simp only [f, z, atomicNew, if_true, narrow_widen]
    rw [BitVec.setWidth_add _ _ (by decide), narrow_widen, narrow_widen]
  · simp only [f, z, atomicNew, narrow_widen]
    rfl
  all_goals simp only [f, z, atomicNew, narrow_widen, narrow_choice, widen_toNat, widen_inj, BitVec.slt, BitVec.ult, BitVec.ule,
    decide_eq_true_eq, if_true, Bool.false_eq_true, if_false]
  · rw [BitVec.setWidth_and, narrow_widen, narrow_widen]
  · rw [BitVec.setWidth_or, narrow_widen, narrow_widen]
  · rw [BitVec.setWidth_xor, narrow_widen, narrow_widen]
  · split
    · rfl
    · exact narrow_widen _

/-- The same of an element of eight bytes. -/
theorem atomicNew_dword (m x c : Dword) (b : Bool) :
    atomicNew 0 b 8 m x c = m + x ∧ atomicNew 4 b 8 m x c = (if x.ult m then x else m) ∧
    atomicNew 5 b 8 m x c = (if m.ult x then x else m) ∧ atomicNew 6 b 8 m x c = m &&& x ∧
    atomicNew 7 b 8 m x c = m ||| x ∧ atomicNew 8 b 8 m x c = m ^^^ x ∧ atomicNew 9 b 8 m x c = x ∧
    atomicNew 10 b 8 m x c = if m = c then x else m := by
  simp [atomicNew, BitVec.ult]

/-! ### Atomics of a lane -/

/-- The atomic of an operation number. -/
theorem exec_atomicInstr {op : Nat} (hop : op < 12) (q : BitVec 1) (d : BitVec 7) (h : BitVec 4) (a : BitVec 7) (y : BitVec 3)
    (s : State) : exec (atomicInstr op q d h a y) s = atom s op q d h a y := by
  interval_cases op <;> rfl

/-- The operation of an atomic as its lane reads it. -/
def Env.atomicOp (e : Env) (op : Nat) (q : BitVec 1) (d : BitVec 7) (y : BitVec 3) (r : HRec) (words : List (Word × Bool)) : AtomicOp :=
  { op := op, size := hEsize r, isFloat := hNumT r = 1, ret := q == 1, d := d.toNat, x := atomicX op r words,
    cmp := atomicCmp r words, order := e.order, scope := accessScope y.toNat r }

/-- The kinds of handle that an atomic takes. -/
theorem atomic_kind {r : HRec} (hk : hKind r = 0 ∨ hKind r = 1) : (decide (hKind r = kGlobal) || decide (hKind r = kLocal)) = true := by
  obtain hk | hk := hk <;> simp [hk, kGlobal, kLocal]

section
variable {s : State} {e : Env} {op : Nat} {q : BitVec 1} {d : BitVec 7} {h : BitVec 4} {a : BitVec 7} {y : BitVec 3} {r : HRec}
  {i : Word} {words : List (Word × Bool)} (he : s.env = some e) (ha : Alone e) (hel : AtomicElement e op h a d r i words)
  (hk : hKind r = 0 ∨ hKind r = 1)
include he ha hel hk

theorem atom_clamped (hl : e.locate r i.toNat 2 = .ok .clamped) :
    atom s op q d h a y = .next (e.retireRegion s
      (e.put e.st d.toNat (if q = 1 then List.replicate (hEsize r / 4) (0, false) else []))) := by
  obtain ⟨-, hh, hi, hsz, hal, hds, hw, hp, hr⟩ := hel
  have hkk := atomic_kind hk
  rw [env_s he] at hr
  exact runLane_ok he (by
    simp [exist_one hi, hh, hkk, hsz, hal, exist_span hds, hi.2, both_eq_ok rfl hw, hr, hl, hp, Env.once_of_alone ha,
      Env.offer_of_alone ha, env_s he, bind, Except.bind, pure, Except.pure])

theorem atom_scratch {off : Nat} {team : Team} (hl : e.locate r i.toNat 2 = .ok (.scratch off))
    (ho : e.order < 2 ∨ s.ownOutstanding e.key = false) (ht : s.teams.find e.wave.team = some team)
    (hc : (team.scratchRead off (hEsize r)).poisoned = false) :
    atom s op q d h a y = .next (e.atomicNow (s.noteAccess e.lane 0 (hEsize r) off true)
      (.ofNat 64 (fromBytes (team.scratchRead off (hEsize r)).bytes)) op (hEsize r) (hNumT r = 1) (q == 1) d.toNat
      (atomicX op r words) (atomicCmp r words) fun t w => t.scratchWrite e.wave.team off (clean w)) := by
  obtain ⟨-, hh, hi, hsz, hal, hds, hw, hp, hr⟩ := hel
  have hkk := atomic_kind hk
  have hread : s.localRead e.wave.team false (.scratch off) (hEsize r) = team.scratchRead off (hEsize r) := by
    simp [State.localRead, State.scratchRead, ht]
  have hown : (!(decide (2 ≤ e.order) && s.ownOutstanding e.key)) = true := by
    obtain ho | ho := ho
    · simp [Nat.not_le.mpr ho]
    · simp [ho]
  rw [env_s he] at hr
  exact runLane_ok he (by
    simp [exist_one hi, hh, hkk, hsz, hal, exist_span hds, hi.2, both_eq_ok rfl hw, hr, hl, hp, hown, hread, hc,
      Env.once_of_alone ha, env_s he, bind, Except.bind, pure, Except.pure, Loc.counted, State.localWrite, atomicX, atomicCmp])

/-- An atomic through a global handle acts on the store buffer, or kills the team, or is sent. -/
theorem atom_global {va pa : Nat} {t : State} (hl : e.locate r i.toNat 2 = .ok (.glob va))
    (ht : e.translate va 2 kAtomic = .ok pa)
    (hgo : (if e.isContained && decide (accessScope y.toNat r ≤ 2) then e.atomicBuffer va pa (e.atomicOp op q d y r words)
      else if e.isContained && e.atomicPoisoned pa then .ok (e.atomicDies pa)
      else e.atomicSend va pa (e.atomicOp op q d y r words)) = .ok t) :
    atom s op q d h a y = .next t := by
  obtain ⟨-, hh, hi, hsz, hal, hds, hw, hp, hr⟩ := hel
  have hkk := atomic_kind hk
  rw [env_s he] at hr
  exact runLane_ok he (by
    simp only [exist_one hi, hh, hkk, hsz, hal, exist_span hds, hi.2, both_eq_ok rfl hw, hr, hl, hp, ht,
      Env.once_of_alone ha, env_s he, bind, Except.bind, pure, Except.pure, require_true, Bool.and_self, Bool.not_false, Bool.or_self]
    exact hgo)

end

/-- Settles O13: an atomic on scratch is performed where it stands; a clamped one has nothing to perform. -/
theorem atomicResults : Obligations.AtomicResults := by
  refine ⟨⟨atomicNew_word, atomicNew_dword⟩, ?_⟩
  intro s e op q d h a y r i words he ha hel hk n gives
  have hexec := exec_atomicInstr hel.1 q d h a y s
  refine ⟨fun off team hl ho ht hc => ?_, fun hl => ?_⟩
  · intro old new
    rw [hexec, atom_scratch he ha hel hk hl ho ht hc, Env.atomicNow, Env.offer_of_alone ha]
    by_cases hq : q = 1 <;> simp [hq, gives, new, old, n]
  · rw [hexec, atom_clamped he ha hel hk hl]
    simp only [gives]
    split <;> rfl

end Sys2Proof.Machine
end

section
/-!
PROOFS. WAITLINE and its wake (R135).
-/

namespace Sys2Proof.Machine

open Sys2Proof.Safety

/-! ### The instruction -/

section
variable {s : State} {e : Env} {d : BitVec 7} {h : BitVec 4} {a : BitVec 7} {y : BitVec 3} {r : HRec} {i : Word}
  {words : List (Word × Bool)}

/-- A strand that no request names has no load outstanding. -/
theorem loadsOf_isEmpty {k : Nat} (hl : ∀ l ∈ s.loads, l.strand ≠ k) : (s.loadsOf k).isEmpty = true := by
  rw [List.isEmpty_iff, State.loadsOf, List.filter_eq_nil_iff]
  intro l hm
  simp [hl l hm]

theorem waitline_size {n m : Nat} (hn : n = 4 ∨ (n = 8 ∧ m % 2 = 0)) :
    (decide (n = 4) || (decide (n = 8) && decide (m % 2 = 0))) = true := by
  obtain rfl | ⟨rfl, hm⟩ := hn <;> simp [*]

/-- The watch that a WAITLINE arms. -/
def Env.watch (e : Env) (r : HRec) (d : BitVec 7) (y : BitVec 3) (words : List (Word × Bool)) (id : Nat) (isLocal written : Bool)
    (va line off : Nat) : Watch :=
  { id := id, strand := e.key, isLocal := isLocal, team := e.wave.team, line := line, issue := e.issueNo, va := va, offset := off,
    size := hEsize r, expected := wordsValue words, d := d.toNat, scope := accessScope y.toNat r, pol := e.policy r,
    written := written, next := e.here + 4 }

variable (he : s.env = some e) (ha : Alone e) (hh : e.hReg h.toNat = .ok r) (hi : Reads e a.toNat i)
  (hk : hKind r = 0 ∨ hKind r = 1) (hn : hEsize r = 4 ∨ (hEsize r = 8 ∧ d.toNat % 2 = 0))
  (hds : ∀ k < hEsize r / 4, Has e (d.toNat + k)) (hw : e.readMany d.toNat (hEsize r / 4) = .ok words)
  (hp : words.any (·.2) = false) (hl : ∀ l ∈ s.loads, l.strand ≠ e.key)
include he ha hh hi hk hn hds hw hp hl

theorem waitline_clamped (hloc : e.locate r i.toNat 2 = .ok .clamped) :
    exec (.waitline d h a y) s =
      .next (e.retire s (e.put e.st d.toNat (waitWords (hEsize r) (clean (List.replicate (hEsize r) 0))))) := by
  exact runLane_ok he (by
    simp [Env.room_of_alone ha, exist_one hi, hh, atomic_kind hk, waitline_size hn, exist_span hds, Env.trailing_of_alone ha,
      Env.shared_of_alone ha, hi.2, both_eq_ok rfl hw, env_s he, loadsOf_isEmpty hl, hloc, hp, Env.give_of_alone ha, bind,
      Except.bind, pure, Except.pure])

theorem waitline_global {va pa : Nat} (hloc : e.locate r i.toNat 2 = .ok (.glob va)) (ht : e.translate va 2 kAtomic = .ok pa) :
    exec (.waitline d h a y) s = .next
      (({ s with nextId := s.nextId + 1
                 watches := s.watches ++ [e.watch r d y words s.nextId false true va (memKey pa / 256) 0] } : State).setStrand e.key
        { e.st with pc := e.bundle, life := .waiting (.reply s.nextId) }) := by
  exact runLane_ok he (by
    simp [Env.room_of_alone ha, exist_one hi, hh, atomic_kind hk, waitline_size hn, exist_span hds, Env.trailing_of_alone ha,
      Env.shared_of_alone ha, hi.2, both_eq_ok rfl hw, env_s he, loadsOf_isEmpty hl, hloc, hp, ht, Env.watch, State.fresh, bind,
      Except.bind, pure, Except.pure])

theorem waitline_differs {off : Nat} {team : Team} (hloc : e.locate r i.toNat 2 = .ok (.scratch off))
    (ht : s.teams.find e.wave.team = some team)
    (hdiff : ¬(fromBytes (team.scratchRead off (hEsize r)).bytes = (wordsValue words).toNat ∧
      (team.scratchRead off (hEsize r)).poisoned = false)) :
    exec (.waitline d h a y) s =
      .next (e.retire s (e.put e.st d.toNat (waitWords (hEsize r) (team.scratchRead off (hEsize r))))) := by
  have hread : s.localRead e.wave.team false (.scratch off) (hEsize r) = team.scratchRead off (hEsize r) := by
    simp [State.localRead, State.scratchRead, ht]
  have hgive : fromBytes (team.scratchRead off (hEsize r)).bytes ≠ (wordsValue words).toNat ∨
      (team.scratchRead off (hEsize r)).poisoned = true := by
    rwa [not_and_or, Bool.not_eq_false] at hdiff
  exact runLane_ok he (by
    simp [Env.room_of_alone ha, exist_one hi, hh, atomic_kind hk, waitline_size hn, exist_span hds, Env.trailing_of_alone ha,
      Env.shared_of_alone ha, hi.2, both_eq_ok rfl hw, env_s he, loadsOf_isEmpty hl, hloc, hp, hread, hgive,
      Env.give_of_alone ha, bind, Except.bind, pure, Except.pure])

theorem waitline_blocks {off : Nat} {team : Team} (hloc : e.locate r i.toNat 2 = .ok (.scratch off))
    (ht : s.teams.find e.wave.team = some team)
    (hsame : fromBytes (team.scratchRead off (hEsize r)).bytes = (wordsValue words).toNat ∧
      (team.scratchRead off (hEsize r)).poisoned = false) :
    exec (.waitline d h a y) s = .next
      (({ s with nextId := s.nextId + 1
                 watches := s.watches ++ [e.watch r d y words s.nextId true false 0 (off / 256) off] } : State).setStrand e.key
        { e.st with pc := e.bundle, life := .blocked (.line s.nextId) }) := by
  have hread : s.localRead e.wave.team false (.scratch off) (hEsize r) = team.scratchRead off (hEsize r) := by
    simp [State.localRead, State.scratchRead, ht]
  exact runLane_ok he (by
    simp [Env.room_of_alone ha, exist_one hi, hh, atomic_kind hk, waitline_size hn, exist_span hds, Env.trailing_of_alone ha,
      Env.shared_of_alone ha, hi.2, both_eq_ok rfl hw, env_s he, loadsOf_isEmpty hl, hloc, hp, hread, hsame, Env.watch, State.fresh,
      Loc.counted, bind, Except.bind, pure, Except.pure])

end

/-- The words of an element of zeros. -/
theorem waitWords_zero {n m : Nat} (hn : n = 4 ∨ (n = 8 ∧ m % 2 = 0)) :
    waitWords n (clean (List.replicate n 0)) = List.replicate (n / 4) (0, false) := by
  obtain rfl | ⟨rfl, -⟩ := hn <;> rfl

/-! ### What a read of the watched element does -/

/-- A result that is there at once, in the window (R17). -/
def givenAt (d : Nat) (p : (Word × Bool) × Nat) : Went :=
  { dst := .v (d + p.2), val := p.1.1, poison := p.1.2, lat := 0, age := 0, transient := false, tag := none }

theorem newest_push_givenAt (st : Strand) (d : Nat) (p : (Word × Bool) × Nat) :
    newest (st.push (givenAt d p)) (.v (d + p.2)) = some p.1.1 := by
  simp [newest, givenAt]

theorem rest_foldl_push {α : Type} (g : α → Went) (l : List α) (st : Strand) :
    (l.foldl (fun st p => st.push (g p)) st).rest = st.rest := by
  induction l generalizing st with
  | nil => rfl
  | cons p l ih => exact (ih (st.push (g p))).trans (st.rest_push _)

theorem newest_foldl_push_other {α : Type} {g : α → Went} {d : Dst} {l : List α} (hl : ∀ p ∈ l, (g p).dst ≠ d) (st : Strand) :
    newest (l.foldl (fun st p => st.push (g p)) st) d = newest st d := by
  induction l generalizing st with
  | nil => rfl
  | cons p l ih =>
    rw [List.forall_mem_cons] at hl
    exact (ih hl.2 (st.push (g p))).trans (newest_push hl.1)

/-- Registers written one after the other each hold their word. -/
theorem newest_foldl_givenAt (d n k : Nat) (l : List (Word × Bool)) (st : Strand) (hk : k < l.length) :
    newest ((l.zipIdx n).foldl (fun st p => st.push (givenAt d p)) st) (.v (d + (n + k))) = some (l[k]).1 := by
  induction l generalizing n k st with
  | nil => simp at hk
  | cons x l ih =>
    rw [List.zipIdx_cons, List.foldl_cons]
    cases k with
    | zero =>
      rw [newest_foldl_push_other]
      · exact newest_push_givenAt st d (x, n)
      intro p hp
      have := List.le_snd_of_mem_zipIdx hp
      simp only [givenAt, ne_eq, Dst.v.injEq]
      omega
    | succ k =>
      rw [show n + (k + 1) = (n + 1) + k by omega]
      exact ih (n + 1) k _ (by simpa using hk)

theorem State.produced_length (s : State) (k : Nat) (l : List Word) : (s.produced k l).length = l.length := by
  unfold State.produced
  split
  · rfl
  · dsimp only
    split
    · exact List.length_map ..
    · rfl

theorem markedWords_map_fst (l : Marked) (ws : List Word) : (markedWords l ws).map (·.1) = ws := by
  apply List.ext_getElem <;> simp [markedWords]

/-- The words that WAITLINE gives are those of the element. -/
theorem waitWords_map_fst (n : Nat) (l : Marked) :
    (waitWords n l).map (·.1) = valueWords n (.ofNat 64 (fromBytes l.bytes)) := markedWords_map_fst l _

section
variable {s : State} {w : Watch} {st : Strand} {l : Marked}

/-- The words that WAITLINE gives, as the strand's lane produces them. -/
def State.watchedWords (s : State) (w : Watch) (l : Marked) : List (Word × Bool) :=
  (s.produced w.strand ((waitWords w.size l).map (·.1))).zip ((waitWords w.size l).map (·.2))

/-- The strand at the word after its WAITLINE, with the element in its registers. -/
def Strand.watched (st : Strand) (w : Watch) (ws : List (Word × Bool)) : Strand :=
  ws.zipIdx.foldl (fun st p => st.push (givenAt w.d p)) { st with pc := w.next, life := .ready, wait := 0 }

theorem State.watchedWords_length :
    (s.watchedWords w l).length = (s.produced w.strand (valueWords w.size (.ofNat 64 (fromBytes l.bytes)))).length := by
  rw [← waitWords_map_fst, State.watchedWords, List.length_zip, State.produced_length, List.length_map, List.length_map,
    Nat.min_self]

theorem State.watchedWords_getElem {k : Nat} (hk : k < (s.watchedWords w l).length) :
    ((s.watchedWords w l)[k]).1 = (s.produced w.strand (valueWords w.size (.ofNat 64 (fromBytes l.bytes)))).getD k 0 := by
  have hk' := hk
  rw [State.watchedWords_length] at hk'
  simp [State.watchedWords, waitWords_map_fst, List.getElem?_eq_getElem hk']

/-- An element that differs or is poisoned is given. -/
theorem waitlineRead_gives (hlead : ∀ v, s.waves.find (strandWave w.strand) = some v → v.partner = none)
    (hdiff : ¬(l.poisoned = false ∧ fromBytes l.bytes = w.expected.toNat % 2 ^ (8 * w.size))) :
    s.waitlineRead w st l =
      (({ s with watches := s.watches.filter (·.id ≠ w.id) } : State).setStrand w.strand
        ((st.watched w (s.watchedWords w l)).tick 1)).rouse (strandCore w.strand) := by
  have hgo : (l.poisoned || decide (fromBytes l.bytes ≠ w.expected.toNat % 2 ^ (8 * w.size))) = true := by
    cases hp : l.poisoned <;> simp_all
  unfold State.waitlineRead
  rw [if_pos hgo]
  cases hv : s.waves.find (strandWave w.strand) with
  | none => rfl
  | some v =>
    simp only [hlead v hv]
    rfl

/-- On an element that is equal the strand is blocked again. -/
theorem waitlineRead_blocks (hsame : l.poisoned = false ∧ fromBytes l.bytes = w.expected.toNat % 2 ^ (8 * w.size)) :
    s.waitlineRead w st l = s.setStrand w.strand { st with life := .blocked (.line w.id), wait := 0 } := by
  unfold State.waitlineRead
  rw [if_neg (by simp [hsame])]

theorem Strand.watched_rest (ws : List (Word × Bool)) :
    (st.watched w ws).rest = ({ st with pc := w.next, life := .ready, wait := 0 } : Strand).rest := rest_foldl_push _ _ _

end

/-! ### The wake -/

section
variable {s : State} {w : Watch} {st : Strand} (hw : s.watches.find? (·.strand = w.strand) = some w)
  (hst : s.strands.find w.strand = some st) (hwr : w.written = true)
  (hb : s.activeBank (strandCore w.strand) = waveBank (strandWave w.strand)) (hl : ∀ l ∈ s.loads, l.use ≠ .watch w.id)
include hw hst hwr hb hl

/-- The watch as WAITLINE_WAKE arms it again. -/
def State.rearmed (s : State) (w : Watch) (line : Nat) : State :=
  { s with watches := s.watches.map fun x => if x.id = w.id then { x with line := line, written := false } else x }

theorem wake_local {team : Team} (hloc : w.isLocal = true) (ht : s.teams.find w.team = some team) :
    exec (.waitlineWake w.strand) s = .next ((s.rearmed w w.line).waitlineRead w st (team.scratchRead w.offset w.size)) := by
  have hread : (s.rearmed w w.line).scratchRead w.team w.offset w.size = team.scratchRead w.offset w.size := by
    simp [State.scratchRead, State.rearmed, ht]
  replace hb : s.activeBank (bankCore (waveBank (strandWave w.strand))) = waveBank (strandWave w.strand) := hb
  rw [exec_waitlineWake, execWaitlineWake]
  exact eventStep_some (by simp [hw, hst, hwr, hb, if_pos hl, hloc, ← hread, State.rearmed, guard])

/-- The read that a wake requests. -/
def State.watchLoad (s : State) (w : Watch) (pa : Nat) : Load :=
  { id := 0, strand := w.strand, use := .watch w.id, core := l1Core (strandCore w.strand) (s.fusedOf (s.gridOf w.strand)) w.va,
    asid := s.asidOf w.strand, va := w.va, pa := pa, size := w.size, signed := false, d := 0, acquire := w.scope, pol := w.pol,
    granted := false, clock := [] }

theorem wake_global {pa : Nat} (hloc : w.isLocal = false)
    (ht : s.translateNow (strandCore w.strand) (s.asidOf w.strand) (s.levelOf w.strand) w.va 2 kAtomic = .ok pa) :
    exec (.waitlineWake w.strand) s = .next ((s.rearmed w (memKey pa / 256)).request (s.watchLoad w pa)).2 := by
  replace hb : s.activeBank (bankCore (waveBank (strandWave w.strand))) = waveBank (strandWave w.strand) := hb
  rw [exec_waitlineWake, execWaitlineWake]
  exact eventStep_some (by simp [hw, hst, hwr, hb, if_pos hl, hloc, ht, State.rearmed, State.watchLoad, guard])

theorem wake_parks {code va kind reason stage level ipa vmid : Nat} (hloc : w.isLocal = false)
    (ht : s.translateNow (strandCore w.strand) (s.asidOf w.strand) (s.levelOf w.strand) w.va 2 kAtomic =
      .error (.park code va kind reason stage level ipa vmid)) :
    exec (.waitlineWake w.strand) s = .next (({ s with watches := s.watches.filter (·.id ≠ w.id) } : State).park w.strand
      (s.gridOf w.strand) code va kind reason stage level ipa vmid) := by
  replace hb : s.activeBank (bankCore (waveBank (strandWave w.strand))) = waveBank (strandWave w.strand) := hb
  rw [exec_waitlineWake, execWaitlineWake]
  exact eventStep_some (by simp [hw, hst, hwr, hb, if_pos hl, hloc, ht, guard])

end

/-- The request of a wake is a load of the strand; nothing else of the machine changes but its number. -/
theorem request_watchLoad (s : State) (w : Watch) (line pa : Nat) :
    ∃ l, ((s.rearmed w line).request (s.watchLoad w pa)).2.loads = s.loads ++ [l] ∧ l.id = s.nextId ∧ l.strand = w.strand ∧
      l.use = .watch w.id ∧ l.pa = pa ∧ l.size = w.size ∧ l.acquire = w.scope ∧
      l.granted = s.missGrant (strandCore w.strand) pa :=
  ⟨_, rfl, rfl, rfl, rfl, rfl, rfl, rfl, rfl⟩

/-- A load that returns for a watch lets WAITLINE read. -/
theorem loadReturn_watch {s u : State} {w : Watch} {st : Strand} {l : Load} {b : List Byte} {p : Bool}
    (hf : s.loads.find? (·.id = l.id) = some l) (hg : l.granted = true)
    (hs : (s.loadStands l && s.olderAtSlice l.pa l.id) = false) (hu : l.use = .watch w.id)
    (hr : s.globalRead l.strand l.core l.pa l.size l.acquire l.pol l.clock l.id = some (b, p, u))
    (hw : u.watches.find? (·.id = w.id) = some w) (hst : u.strands.find l.strand = some st) :
    exec (.loadReturn l.id) s = .next
      (({ u with loads := u.loads.filter (·.id ≠ l.id) } : State).waitlineRead w st (b.map fun x => (x, p))) := by
  rw [exec_loadReturn, execLoadReturn]
  have hs := Bool.and_eq_false_iff.mp hs
  exact eventStep_some (by simp [hf, hg, hs, State.readLoad, hu, hr, State.returnLoad, hw, hst, guard])

theorem State.rouse_watches (s : State) (core : Nat) : (s.rouse core).watches = s.watches := by
  unfold State.rouse
  split <;> rfl

/-- Settles O25: a WAITLINE reads, is blocked on an equal element, and its wake reads again. -/
theorem waitlineResults : Obligations.WaitlineResults := by
  refine ⟨?_, ?_, ?_, ?_⟩
  · intro s e d h a y r i words he ha hh hi hk hn hds hw hp hl
    refine ⟨fun off team hloc ht => ⟨fun hdiff => ?_, fun hsame => ?_⟩, fun hloc => ?_, fun va pa hloc ht => ?_⟩
    · rw [waitline_differs he ha hh hi hk hn hds hw hp hl hloc ht hdiff, done, env_s he]
      rfl
    · exact ⟨_, _, waitline_blocks he ha hh hi hk hn hds hw hp hl hloc ht hsame, rfl, rfl, rfl, rfl, rfl, rfl, rfl, rfl, rfl, rfl,
        rfl, rfl⟩
    · rw [waitline_clamped he ha hh hi hk hn hds hw hp hl hloc, waitWords_zero hn, done, env_s he]
      rfl
    · exact ⟨_, _, waitline_global he ha hh hi hk hn hds hw hp hl hloc ht, rfl, rfl, rfl, rfl, rfl, rfl, rfl, rfl⟩
  · intro s w st v l hv hlead value same
    refine ⟨fun hdiff => ?_, waitlineRead_blocks⟩
    have hall : ∀ v, s.waves.find (strandWave w.strand) = some v → v.partner = none := fun v' hv' => by
      rw [hv] at hv'
      exact Option.some.inj hv' ▸ hlead
    have hrest := Strand.watched_rest (st := st) (w := w) (s.watchedWords w l)
    refine ⟨st.watched w (s.watchedWords w l), ?_, ?_, congrArg Strand.pc hrest, congrArg Strand.life hrest, fun k hk => ?_⟩
    · rw [waitlineRead_gives hall hdiff, State.rouse_strands]
      rfl
    · rw [waitlineRead_gives hall hdiff, State.rouse_watches]
      rfl
    · rw [← State.watchedWords_length] at hk
      have hnew := newest_foldl_givenAt w.d 0 k (s.watchedWords w l) { st with pc := w.next, life := .ready, wait := 0 } hk
      rw [Nat.zero_add, State.watchedWords_getElem hk] at hnew
      exact hnew
  · intro s w st hw hst hwr hb _ hl core armed
    refine ⟨fun team hloc ht => wake_local hw hst hwr hb hl hloc ht, fun pa hloc ht => ?_, fun code va kind reason stage level ipa
      vmid hloc ht => wake_parks hw hst hwr hb hl hloc ht⟩
    obtain ⟨l, hload⟩ := request_watchLoad s w (memKey pa / 256) pa
    exact ⟨_, l, wake_global hw hst hwr hb hl hloc ht, rfl, rfl, hload⟩
  · intro s u w st l b p hf hg hs hu hr hw hst
    exact loadReturn_watch hf hg hs hu hr hw hst

end Sys2Proof.Machine
end

section
/-!
PROOFS. What the operations of the L1 areas, of the writes on their way and of the dies' clocks leave as it is: everything beside
the caches, the writes and the request numbers (R314, R337, R348, R354).
-/

namespace Sys2Proof.Machine

/-- The machine without its cores, its dies, the writes and updates on their way, and the next request number. -/
def State.besideCaches (s : State) : State := { s with cores := [], dies := [], flights := [], updates := [], nextId := 0 }

/-- A fold keeps what each of its steps keeps. -/
theorem foldl_keeps {σ α β : Type} (g : σ → β) {f : σ → α → σ} (hf : ∀ t x, g (f t x) = g t) (l : List α) (s : σ) :
    g (l.foldl f s) = g s := by
  induction l generalizing s with
  | nil => rfl
  | cons x l ih => exact (ih (f s x)).trans (hf s x)

/-- A fold in which each step brings about at its own number what the other steps keep. -/
theorem foldl_establishes {P : State → Nat → Prop} {f : State → Nat → State} (hsame : ∀ t c, P (f t c) c)
    (hkeep : ∀ t c n, P t n → P (f t c) n) {l : List Nat} {n : Nat} {s : State} (h : P s n ∨ n ∈ l) : P (l.foldl f s) n := by
  induction l generalizing s with
  | nil => exact h.resolve_right List.not_mem_nil
  | cons c l ih =>
    refine ih ?_
    obtain h | h := h
    · exact .inl (hkeep s c n h)
    · obtain rfl | h := List.mem_cons.mp h
      · exact .inl (hsame s n)
      · exact .inr h

/-- What does not look at the caches is the same in two machines that differ there alone. -/
theorem State.of_besideCaches {β : Type} {s t : State} (h : t.besideCaches = s.besideCaches) (g : State → β)
    (hg : ∀ u : State, g u.besideCaches = g u) : g t = g s := by
  rw [← hg t, h, hg]

section
variable (s : State)

@[simp] theorem State.modCore_besideCaches (c : Nat) (f : Core → Core) : (s.modCore c f).besideCaches = s.besideCaches := rfl

@[simp] theorem State.modDie_besideCaches (d : Nat) (f : Die → Die) : (s.modDie d f).besideCaches = s.besideCaches := rfl

@[simp] theorem State.dropReplicas_besideCaches (line : Nat) : (s.dropReplicas line).besideCaches = s.besideCaches := rfl

@[simp] theorem State.noteRequest_besideCaches (pa cluster : Nat) : (s.noteRequest pa cluster).besideCaches = s.besideCaches := by
  unfold State.noteRequest
  split <;> rfl

@[simp] theorem State.launchFlight_besideCaches (core : Nat) (bank : Option Nat) (cells : List Host.Cell) (single : Bool)
    (exposes : Option Nat) : (s.launchFlight core bank cells single exposes).besideCaches = s.besideCaches := by
  unfold State.launchFlight
  split
  · rfl
  · cases homeDie _ with
    | none => rfl
    | some h => dsimp only; split <;> rfl

@[simp] theorem State.writeBack_besideCaches (core line : Nat) (drop : Bool) :
    (s.writeBack core line drop).besideCaches = s.besideCaches := by
  unfold State.writeBack
  split
  · rfl
  · exact (foldl_keeps State.besideCaches (fun t l => t.launchFlight_besideCaches ..) _ _).trans rfl

@[simp] theorem State.writeBackAll_besideCaches (cores : List Nat) : (s.writeBackAll cores).besideCaches = s.besideCaches :=
  foldl_keeps _ (fun t _ => foldl_keeps _ (fun t _ => t.writeBack_besideCaches ..) _ t) _ _

@[simp] theorem State.dropClean_besideCaches (cores : List Nat) : (s.dropClean cores).besideCaches = s.besideCaches :=
  foldl_keeps _ (fun t c => t.modCore_besideCaches c _) _ _

@[simp] theorem State.takeClean_besideCaches (cores : List Nat) (line : Nat) :
    (s.takeClean cores line).besideCaches = s.besideCaches :=
  foldl_keeps _ (fun t c => t.modCore_besideCaches c _) _ _

@[simp] theorem State.l1Trim_besideCaches (core : Nat) : (s.l1Trim core).besideCaches = s.besideCaches := by
  unfold State.l1Trim
  split
  · split
    · exact s.writeBack_besideCaches ..
    · rfl
  · rfl

@[simp] theorem State.l1Fill_besideCaches (core die pa : Nat) (cores : List Nat) (poison : Bool) (pol : Nat) :
    (s.l1Fill core die pa cores poison pol).besideCaches = s.besideCaches := by
  unfold State.l1Fill
  split
  · rfl
  · exact State.l1Trim_besideCaches ..

/-! ### The core of a write-back -/

@[simp] theorem State.launchFlight_cores (core : Nat) (bank : Option Nat) (cells : List Host.Cell) (single : Bool)
    (exposes : Option Nat) : (s.launchFlight core bank cells single exposes).cores = s.cores := by
  unfold State.launchFlight
  split
  · rfl
  · cases homeDie _ with
    | none => rfl
    | some h => dsimp only; split <;> rfl

variable {s} {core line : Nat} {drop : Bool}

theorem State.writeBack_cores {x : L1Line} (h : (s.core core).line line = some x) :
    (s.writeBack core line drop).cores = (s.modCore core fun c =>
      if drop then c.dropLine line else c.setLine { x with dirty := [] }).cores := by
  unfold State.writeBack
  rw [h]
  exact foldl_keeps State.cores (fun t l => t.launchFlight_cores ..) _ _

theorem State.writeBack_of_none (h : (s.core core).line line = none) : s.writeBack core line drop = s := by
  unfold State.writeBack
  rw [h]

theorem State.core_congr {t : State} (h : t.cores = s.cores) (n : Nat) : t.core n = s.core n := by
  rw [State.core, State.core, h]

theorem State.writeBack_core_other {n : Nat} (hn : n ≠ core) : (s.writeBack core line drop).core n = s.core n := by
  cases h : (s.core core).line line with
  | none => rw [State.writeBack_of_none h]
  | some x =>
    rw [State.core_congr (State.writeBack_cores h)]
    exact Tbl.get_set_other _ _ _ hn

theorem State.writeBack_core_same {x : L1Line} (h : (s.core core).line line = some x) :
    (s.writeBack core line drop).core core =
      if drop then (s.core core).dropLine line else (s.core core).setLine { x with dirty := [] } := by
  rw [State.core_congr (State.writeBack_cores h)]
  exact Tbl.get_set_same ..

theorem Core.line_dropLine (c : Core) (l : Nat) : (c.dropLine l).line l = none := by
  simp [Core.line, Core.dropLine]

theorem Core.line_setLine (c : Core) (x : L1Line) : (c.setLine x).line x.line = some x := by
  simp [Core.line, Core.setLine]

theorem Core.line_number {c : Core} {l : Nat} {x : L1Line} (h : c.line l = some x) : x.line = l := by
  simpa using List.find?_some h

/-- A line that was written back and dropped is not there. -/
theorem State.writeBack_dropped (s : State) (core line : Nat) : ((s.writeBack core line true).core core).line line = none := by
  cases h : (s.core core).line line with
  | none => rw [State.writeBack_of_none h, h]
  | some x => rw [State.writeBack_core_same h, if_pos rfl, Core.line_dropLine]

/-- A line that was written back has no dirty byte. -/
theorem State.writeBack_clean {x : L1Line} (h : ((s.writeBack core line false).core core).line line = some x) : x.dirty = [] := by
  cases hx : (s.core core).line line with
  | none =>
    rw [State.writeBack_of_none hx, hx] at h
    cases h
  | some y =>
    rw [State.writeBack_core_same hx, if_neg Bool.false_ne_true, ← Core.line_number hx] at h
    have heq := Core.line_setLine (s.core core) { y with dirty := [] }
    rw [heq] at h
    exact Option.some.inj h ▸ rfl

end

end Sys2Proof.Machine
end

section
/-!
PROOFS. Fences and cache operations (R133, R134, R290, R343, R348).
-/

namespace Sys2Proof.Machine

open Sys2Proof.Safety

/-! ### Fences -/

theorem exec_fenceInstr {kind : Nat} (hkind : kind < 4) (y : BitVec 3) (s : State) :
    exec (fenceInstr kind y) s = fence s kind y := by
  interval_cases kind <;> rfl

/-- A strand without a read outstanding has no atomic on the store buffer. -/
theorem noBufferAtomic {s : State} {k : Nat} (hr : s.readsOutstanding k = false) :
    (s.atomics.any fun a => a.strand = k && a.inBuffer) = false := by
  have hnone := (Bool.or_eq_false_iff.mp hr).2
  rw [List.any_eq_false] at hnone ⊢
  intro a ha
  simpa using fun h => absurd h (by simpa using hnone a ha)

/-- The commit point of a strand with nothing of its own to perform (R290). -/
theorem commitPoint_ok {s : State} {e : Env} (hr : s.readsOutstanding e.key = false) (hs : s.storesOf e.key = [])
    (hc : e.isContained = true → s.allCompared e.wave.team = true) :
    e.commitPoint s = .ok (if e.isContained then s.commit e.wave.team else s) := by
  unfold Env.commitPoint
  rw [noBufferAtomic hr, hs, if_neg (by simp)]
  split
  · rw [if_pos (hc ‹_›)]
  · rfl

section
variable {s : State} {e : Env} {kind : Nat} {y : BitVec 3} {st : Strand}

/-- What a release above team scope of a contained team is. -/
def Env.above (e : Env) (kind : Nat) (y : BitVec 3) : Bool := kind ≠ 0 && decide (3 ≤ y.toNat) && e.isContained

theorem Env.above_iff : e.above kind y = true ↔ kind ≠ 0 ∧ 3 ≤ y.toNat ∧ e.isContained = true := by
  simp [Env.above, and_assoc]

/-- What a fence above team scope has sent before it looks for what it orders: the store buffer of a contained team and the dirty
bytes of its L1 areas (R290, R348). -/
def Env.fenceSent (e : Env) (s : State) (kind : Nat) (y : BitVec 3) : State :=
  let c := if kind ≠ 0 ∧ 3 ≤ y.toNat ∧ e.isContained = true then s.commit e.wave.team else s
  if 3 ≤ y.toNat then c.writeBackAll e.cores else c

/-- The requests that a fence orders. -/
def Env.fenceAsks (e : Env) (t : State) (kind : Nat) (y : BitVec 3) : List Nat × Bool :=
  t.releaseIds e.cores e.key y.toNat e.revision (kind = 3)

/-- A fence that has sent what it sends ends, or waits for what it orders. -/
def Env.fenceAnswer (e : Env) (t : State) (kind : Nat) (y : BitVec 3) : State :=
  match t.stillOut (e.fenceAsks t kind y).1 (e.fenceAsks t kind y).2 with
  | [] => e.fenceEnd t kind y.toNat (e.above kind y)
  | out => t.setStrand e.key { e.st with pc := e.bundle, life := .waiting (.acks out (e.fenceAsks t kind y).2) }

theorem Env.fenceAnswer_ends {t : State} (h : t.stillOut (e.fenceAsks t kind y).1 (e.fenceAsks t kind y).2 = []) :
    e.fenceAnswer t kind y = e.fenceEnd t kind y.toNat (e.above kind y) := by
  rw [Env.fenceAnswer, h]

theorem Env.fenceAnswer_waits {t : State} (h : t.stillOut (e.fenceAsks t kind y).1 (e.fenceAsks t kind y).2 ≠ []) :
    let asks := e.fenceAsks t kind y
    e.fenceAnswer t kind y =
      t.setStrand e.key { e.st with pc := e.bundle, life := .waiting (.acks (t.stillOut asks.1 asks.2) asks.2) } := by
  unfold Env.fenceAnswer
  split
  · exact absurd ‹_› h
  · rfl

section
variable (he : s.env = some e) (hst : s.strands.find e.key = some st)
include he hst

/-- The end of a fence that has waited. -/
theorem fence_waited {ids : List Nat} {ap : Bool} (hlife : st.life = .waiting (.acks ids ap)) (hw : s.awaits ids ap = false) :
    fence s kind y = .next (e.fenceEnd s kind y.toNat (e.above kind y)) :=
  runLane_ok he (by simp [env_s he, hst, hlife, hw, Env.above, bind, Except.bind, pure, Except.pure])

variable (hlife : ∀ ids ap, st.life ≠ .waiting (.acks ids ap)) (hr : s.readsOutstanding e.key = false)
include hlife hr

theorem fence_acquire : fence s 0 y = .next (e.fenceEnd s 0 y.toNat false) :=
  runLane_ok he (by simp [env_s he, hst, hr, bind, Except.bind, pure, Except.pure])

theorem fence_releases (ha : Alone e) (hk : kind ≠ 0) (hs : 3 ≤ y.toNat → s.storesOf e.key = [])
    (hc : e.above kind y = true → s.allCompared e.wave.team = true) :
    fence s kind y = .next (e.fenceAnswer (e.fenceSent s kind y) kind y) := by
  simp only [fence, runLane, he, env_s he, hst, hr, Env.once_of_alone ha, hk, ite_self, bind, Except.bind, pure, Except.pure,
    Bool.not_false, require_true, if_false]
  unfold Env.fenceAnswer Env.fenceSent Env.fenceAsks
  by_cases h3 : 3 ≤ y.toNat
  · have hsent := commitPoint_ok hr (hs h3) fun hcon => hc (Env.above_iff.mpr ⟨hk, h3, hcon⟩)
    rw [if_pos h3, hsent]
    simp only [h3, hk, ne_eq, not_false_eq_true, true_and, if_true]
    generalize ((if e.isContained = true then s.commit e.wave.team else s).writeBackAll e.cores).stillOut _ _ = out
    cases out <;> simp [Env.above, hk, h3]
  · rw [if_neg h3]
    simp only [h3, false_and, and_false, if_false]
    generalize s.stillOut _ _ = out
    cases out <;> simp [Env.above, h3]

end

end

/-- The end of a fence (R291, R348). -/
theorem fenceEnd_eq {e : Env} (ha : Alone e) (t : State) (kind : Nat) (y : BitVec 3) :
    e.fenceEnd t kind y.toNat (e.above kind y) =
      let t := if kind ≠ 0 ∧ 3 ≤ y.toNat ∧ e.isContained = true then t.expose e.wave.team else t
      e.retire (if kind ≠ 1 ∧ 3 ≤ y.toNat then t.dropClean e.cores else t) e.st := by
  unfold Env.fenceEnd
  rw [Env.told_of_alone ha, ite_self]
  simp only [Env.above_iff]

/-! ### Cache operations -/

section
variable {s : State} {e : Env} {h : BitVec 4} {a : BitVec 7} {y : BitVec 3} {r : HRec} {i : Word} {drop : Bool}
  (he : s.env = some e) (hh : e.hReg h.toNat = .ok r) (hi : Reads e a.toNat i) (hk : hKind r ≠ 2)
include he hh hi hk

/-- Where nothing is addressed, CWB and CINV do nothing. -/
theorem cacheOp_done (hloc : hKind r = 1 ∨ e.locate r i.toNat 0 = .ok .clamped) : cacheOp s h a y drop = done e e.st := by
  refine runLane_ok he ?_
  by_cases hkl : hKind r = 1
  · simp [exist_one hi, hh, hi.2, hkl, kArea, kLocal, bind, Except.bind, pure, Except.pure, Env.retire]
  · simp [exist_one hi, hh, hi.2, hk, hkl, hloc.resolve_left hkl, kArea, kLocal, bind, Except.bind, pure, Except.pure, Env.retire]

/-- The L1 areas below a scope's level that hold a line. -/
def Env.holders (e : Env) (y : BitVec 3) (line : Nat) : List Nat :=
  (scopeCores e.coreKey y.toNat).filter fun c => ((e.s.core c).line line).isSome

/-- The caches after CWB or CINV of a line. -/
def Env.cacheDone (e : Env) (s : State) (y : BitVec 3) (line : Nat) (drop : Bool) : State :=
  let t := (e.holders y line).foldl (fun s c => s.writeBack c line drop) s
  if drop && decide (5 ≤ y.toNat) then t.dropReplicas line else t

theorem cacheOp_global {va pa : Nat} (hkl : hKind r ≠ 1) (hloc : e.locate r i.toNat 0 = .ok (.glob va))
    (ht : e.translate va 0 kLoad = .ok pa) (hown : s.ownHeld e.key (lineOf pa * 256) 256 s.nextId = false) :
    cacheOp s h a y drop = .next (e.retire (e.cacheDone s y (lineOf pa) drop) e.st) := by
  refine runLane_ok he ?_
  simp [exist_one hi, hh, hi.2, hk, hkl, hloc, ht, hown, env_s he, Env.holders, Env.cacheDone, kArea, kLocal, bind, Except.bind, pure, Except.pure]

end

/-- A core that holds a line below a scope's level, or holds none of it. -/
theorem Env.holders_or {s : State} {e : Env} (he : s.env = some e) {y : BitVec 3} {line c : Nat}
    (hc : c ∈ scopeCores e.coreKey y.toNat) : (s.core c).line line = none ∨ c ∈ e.holders y line := by
  cases hl : (s.core c).line line with
  | none => exact .inl rfl
  | some x => exact .inr (List.mem_filter.mpr ⟨hc, by rw [env_s he, hl]; rfl⟩)

/-- After CINV no L1 area below its level holds the line. -/
theorem writeBack_each_dropped {s : State} {l : List Nat} {c line : Nat} (h : (s.core c).line line = none ∨ c ∈ l) :
    ((l.foldl (fun s c => s.writeBack c line true) s).core c).line line = none := by
  refine foldl_establishes (P := fun t c => (t.core c).line line = none) (fun t c => t.writeBack_dropped c line) ?_ h
  intro t c n hn
  by_cases hcn : n = c
  · rw [hcn, State.writeBack_dropped]
  · rwa [State.writeBack_core_other hcn]

/-- After CWB no L1 area below its level holds a dirty byte of the line. -/
theorem writeBack_each_clean {s : State} {l : List Nat} {c line : Nat} (h : (s.core c).line line = none ∨ c ∈ l) :
    ∀ x, ((l.foldl (fun s c => s.writeBack c line false) s).core c).line line = some x → x.dirty = [] := by
  refine foldl_establishes (P := fun t c => ∀ x, (t.core c).line line = some x → x.dirty = [])
    (fun t c x => State.writeBack_clean) ?_ (h.imp_left fun hn x hx => ?_)
  · intro t c n hn
    by_cases hcn : n = c
    · exact hcn ▸ fun x => State.writeBack_clean
    · rwa [State.writeBack_core_other hcn]
  · rw [hn] at hx
    cases hx

theorem writeBack_each_besideCaches (s : State) (l : List Nat) (line : Nat) (drop : Bool) :
    (l.foldl (fun s c => s.writeBack c line drop) s).besideCaches = s.besideCaches :=
  foldl_keeps State.besideCaches (fun t c => t.writeBack_besideCaches c line drop) l s

theorem Env.cacheDone_besideCaches (e : Env) (s : State) (y : BitVec 3) (line : Nat) (drop : Bool) :
    (e.cacheDone s y line drop).besideCaches = s.besideCaches := by
  rw [← writeBack_each_besideCaches s (e.holders y line) line drop, Env.cacheDone]
  split
  · exact State.dropReplicas_besideCaches ..
  · rfl

theorem Env.cacheDone_core (e : Env) (s : State) (y : BitVec 3) (line : Nat) (drop : Bool) (c : Nat) :
    (e.cacheDone s y line drop).core c = ((e.holders y line).foldl (fun s c => s.writeBack c line drop) s).core c := by
  unfold Env.cacheDone
  split <;> rfl

/-- After `dropReplicas` no die holds a replica of the line. -/
theorem State.replica_dropReplicas (s : State) (d line : Nat) : ((s.dropReplicas line).die d).replica line = none := by
  unfold State.die State.dropReplicas Tbl.get
  rw [Tbl.find_mapVal]
  cases Tbl.find s.dies d with
  | none => rfl
  | some x => simp [Die.replica]

/-! ### PREF -/

@[simp] theorem State.askWalk_strands {s t : State} {who : Walker} {core asid va : Nat} (h : s.askWalk who core asid va = some t) :
    t.strands = s.strands := by
  unfold State.askWalk at h
  split at h
  · cases h
  · cases h; rfl

@[simp] theorem State.request_strands (s : State) (l : Load) : (s.request l).2.strands = s.strands := rfl

@[simp] theorem State.prefetchLine_strands (s : State) (k issue asid level pol va pa : Nat) :
    (s.prefetchLine k issue asid level pol va pa).strands = s.strands := by
  unfold State.prefetchLine
  dsimp only
  split
  · rfl
  · exact foldl_keeps State.strands (fun t j => t.request_strands _) _ _

theorem Env.prefetch_strands (e : Env) (r : HRec) (i level : Nat) : (e.prefetch r i level).strands = e.s.strands := by
  unfold Env.prefetch
  split
  · split
    · exact State.prefetchLine_strands ..
    · cases hw : e.s.askWalk _ _ _ _ with
      | none => rfl
      | some t => exact State.askWalk_strands hw
    · rfl
  · rfl

/-- What a request asks for. -/
def Load.asks (l : Load) : Nat × LoadUse × Nat × Nat := (l.strand, l.use, l.pa, l.size)

theorem State.request_loads (s : State) (l : Load) : ∃ x, (s.request l).2.loads = s.loads ++ [x] ∧ x.asks = l.asks := ⟨_, rfl, rfl⟩

/-- The requests of a list are loads behind the others, in its order. -/
theorem request_each_loads {α : Type} {g : State → α → Load} {p : α → Nat × LoadUse × Nat × Nat} (hg : ∀ s j, (g s j).asks = p j)
    (l : List α) (s : State) :
    ∃ ls, (l.foldl (fun s j => (s.request (g s j)).2) s).loads = s.loads ++ ls ∧ ls.map Load.asks = l.map p := by
  induction l generalizing s with
  | nil => exact ⟨[], by simp⟩
  | cons j l ih =>
    obtain ⟨x, hx, hasks⟩ := s.request_loads (g s j)
    obtain ⟨ls, hls, hmap⟩ := ih (s.request (g s j)).2
    refine ⟨x :: ls, ?_, ?_⟩
    · rw [List.foldl_cons, hls, hx, List.append_assoc, List.singleton_append]
    · rw [List.map_cons, hmap, hasks, hg, List.map_cons]

/-- PREF's request for a sector of its line. -/
def State.sectorLoad (s : State) (k issue asid level pol va pa j : Nat) : Load :=
  { id := 0, strand := k, use := .prefetch level issue, core := l1Core (strandCore k) (s.fusedOf (s.gridOf k)) va, asid := asid,
    va := va / 256 * 256 + 64 * j, pa := lineOf pa * 256 + 64 * j, size := 64, signed := false, d := 0, acquire := 0, pol := pol,
    granted := false, clock := [] }

/-- PREF asks for the four sectors of a line, once for an issue. -/
theorem prefetchLine_loads {s : State} {k issue asid level pol va pa : Nat} (hlevel : level = 4 ∨ (level = 0 ∧ pol ≠ 3))
    (hone : ∀ l ∈ s.loads, ¬(l.use = .prefetch level issue ∧ strandCore l.strand = strandCore k ∧ lineOf l.pa = lineOf pa)) :
    ∃ ls, (s.prefetchLine k issue asid level pol va pa).loads = s.loads ++ ls ∧
      ls.map Load.asks = (List.range 4).map fun j => (k, .prefetch level issue, lineOf pa * 256 + 64 * j, 64) := by
  have hnone : (s.loads.any fun l => l.use = .prefetch level issue && strandCore l.strand = strandCore k && lineOf l.pa = lineOf pa)
      = false := by
    rw [List.any_eq_false]
    intro l hl
    simpa [and_assoc] using hone l hl
  have hask : ¬((s.loads.any fun l => l.use = .prefetch level issue && strandCore l.strand = strandCore k
      && lineOf l.pa = lineOf pa) = true ∨ (level ≠ 0 ∧ level ≠ 4) ∨ (level = 0 ∧ pol = 3)) := by
    rw [hnone, or_iff_right Bool.false_ne_true]
    omega
  unfold State.prefetchLine
  dsimp only
  rw [if_neg hask]
  exact request_each_loads (g := fun s j => s.sectorLoad k issue asid level pol va pa j) (fun _ _ => rfl) _ _

section
variable {s : State} {e : Env} {h : BitVec 4} {a : BitVec 7} {y : BitVec 3} {r : HRec} {i : Word}

theorem pref_goes_on (he : s.env = some e) (hh : e.hReg h.toNat = .ok r) (hi : Reads e a.toNat i) (hk : hKind r ≠ 2) :
    exec (.pref h a y) s = .next (e.retire (e.prefetch r i.toNat y.toNat) e.st) :=
  runLane_ok he (by simp [exist_one hi, hh, hi.2, hk, kArea, bind, Except.bind, pure, Except.pure])

theorem prefetch_line {va pa : Nat} (hl : e.locate r i.toNat 0 = .ok (.glob va)) (ht : e.translate va 0 kLoad = .ok pa) :
    e.prefetch r i.toNat y.toNat = e.s.prefetchLine e.key e.issueNo e.asid y.toNat (e.policy r) va pa := by
  simp only [Env.prefetch, hl, ht]

end

/-- A sector that PREF asked for returns. -/
theorem loadReturn_prefetch {s u : State} {l : Load} {issue : Nat} {b : List Byte} {bad : Bool}
    (hf : s.loads.find? (·.id = l.id) = some l) (hg : l.granted = true)
    (hs : (s.loadStands l && s.olderAtSlice l.pa l.id) = false) (hu : l.use = .prefetch 0 issue)
    (hr : s.globalRead l.strand l.core l.pa l.size 0 l.pol l.clock l.id = some (b, bad, u)) :
    exec (.loadReturn l.id) s =
      .next { (if bad then s else u) with loads := (if bad then s else u).loads.filter (·.id ≠ l.id) } := by
  have hs := Bool.and_eq_false_iff.mp hs
  rw [exec_loadReturn, execLoadReturn]
  exact eventStep_some (by simp [hf, hg, hs, State.readLoad, hu, hr, State.returnLoad, guard])

/-- Settles O24: a fence ends or waits for what it orders; cache operations touch the caches alone. -/
theorem fenceAndCache : Obligations.FenceAndCache := by
  refine ⟨?_, ?_, ?_⟩
  · intro s e kind y st he ha hkind hst n above ends
    rw [exec_fenceInstr hkind]
    have hends (t : State) : .next (e.fenceEnd t kind y.toNat (e.above kind y)) = ends t := by rw [fenceEnd_eq ha]
    refine ⟨fun hlife hr => ⟨?_, fun hk hs hc => ?_⟩, fun ids ap hlife hw => ?_⟩
    · rintro rfl
      rw [← hends]
      exact fence_acquire he hst hlife hr
    · have hgo := fence_releases he hst hlife hr ha hk hs fun hab => hc (Env.above_iff.mp hab)
      refine ⟨fun hnil => ?_, fun hne => ?_⟩
      · rw [← hends, hgo]
        exact congrArg Safety.next (Env.fenceAnswer_ends hnil)
      · rw [hgo]
        exact congrArg Safety.next (Env.fenceAnswer_waits hne)
    · rw [← hends]
      exact fence_waited he hst hlife hw
  · intro s e h a y r i he hh hi hk
    refine ⟨⟨_, pref_goes_on he hh hi hk, ?_, ?_⟩, ?_, ?_, ?_⟩
    · simp [Env.retire, env_s he]
    · simp [Env.retire, Env.prefetch_strands, env_s he]
    · intro va pa hl ht hy hone
      have hone' : ∀ l ∈ s.loads, ¬(l.use = .prefetch y.toNat e.issueNo ∧ strandCore l.strand = strandCore e.key ∧
          lineOf l.pa = lineOf pa) := env_coreKey he ▸ hone
      have hlevel : y.toNat = 4 ∨ (y.toNat = 0 ∧ e.policy r ≠ 3) := by
        obtain rfl | ⟨rfl, hpol⟩ := hy
        · exact .inl rfl
        · exact .inr ⟨rfl, hpol⟩
      obtain ⟨ls, hls, hasks⟩ := prefetchLine_loads (asid := e.asid) (va := va) hlevel hone'
      refine ⟨_, ls, pref_goes_on he hh hi hk, ?_, hasks⟩
      rw [prefetch_line hl ht, env_s he]
      exact hls
    · intro va pa hkl hl ht hown
      have hmem (drop : Bool) : (e.retire (e.cacheDone s y (lineOf pa) drop) e.st).mem = s.mem :=
        State.of_besideCaches (e.cacheDone_besideCaches ..) State.mem fun _ => rfl
      have hstrands (drop : Bool) : (e.retire (e.cacheDone s y (lineOf pa) drop) e.st).strands = s.strands.set e.key (e.st.tick 1) :=
        congrArg (Tbl.set · e.key _) (State.of_besideCaches (e.cacheDone_besideCaches ..) State.strands fun _ => rfl)
      refine ⟨⟨_, cacheOp_global he hh hi hk hkl hl ht hown, hmem false, hstrands false, fun c hc x hx => ?_⟩,
        ⟨_, cacheOp_global he hh hi hk hkl hl ht hown, hmem true, hstrands true, fun c hc => ?_, fun h5 d => ?_⟩⟩
      · replace hx : ((e.cacheDone s y (lineOf pa) false).core c).line (lineOf pa) = some x := hx
        rw [Env.cacheDone_core] at hx
        exact writeBack_each_clean (Env.holders_or he hc) x hx
      · exact (congrArg (Core.line · _) (e.cacheDone_core ..)).trans (writeBack_each_dropped (Env.holders_or he hc))
      · rw [Env.cacheDone, if_pos (by simp [h5])]
        exact State.replica_dropReplicas ..
    · exact fun hloc => ⟨cacheOp_done he hh hi hk hloc, cacheOp_done he hh hi hk hloc⟩
  · intro s u l issue b bad hf hg hs hu hr
    exact loadReturn_prefetch hf hg hs hu hr

end Sys2Proof.Machine
end

section
/-!
PROOFS. What a core is beside its L1 area: the caches' operations keep it, and with it the words that the physical lanes of its strands
produce (R171, R272).
-/

namespace Sys2Proof.Machine

/-- A core without its L1 area and its wake mark. -/
def Core.besideL1 (c : Core) : Core := { c with l1 := [], woken := false }

/-- Every core without its L1 area. -/
def State.units (s : State) (n : Nat) : Core := (s.core n).besideL1

theorem State.modCore_units (s : State) (c : Nat) {f : Core → Core} (hf : ∀ x, (f x).besideL1 = x.besideL1) :
    (s.modCore c f).units = s.units := by
  funext n
  rw [State.units, State.core_modCore]
  split
  · next h => rw [hf, h, State.units]
  · rfl

theorem State.units_congr {s t : State} (h : t.cores = s.cores) : t.units = s.units := by
  funext n
  rw [State.units, State.core_congr h, State.units]

section
variable (s : State)

@[simp] theorem State.launchFlight_units (core : Nat) (bank : Option Nat) (cells : List Host.Cell) (single : Bool)
    (exposes : Option Nat) : (s.launchFlight core bank cells single exposes).units = s.units :=
  State.units_congr (s.launchFlight_cores ..)

@[simp] theorem State.noteRequest_units (pa cluster : Nat) : (s.noteRequest pa cluster).units = s.units := by
  unfold State.noteRequest
  split <;> rfl

@[simp] theorem State.writeBack_units (core line : Nat) (drop : Bool) : (s.writeBack core line drop).units = s.units := by
  unfold State.writeBack
  split
  · rfl
  · refine (foldl_keeps State.units (fun t l => t.launchFlight_units ..) _ _).trans (State.modCore_units _ _ fun x => ?_)
    cases drop <;> rfl

@[simp] theorem State.dropClean_units (cores : List Nat) : (s.dropClean cores).units = s.units := by
  refine foldl_keeps State.units (fun t c => ?_) cores s
  exact t.modCore_units c fun _ => rfl

@[simp] theorem State.takeClean_units (cores : List Nat) (line : Nat) : (s.takeClean cores line).units = s.units := by
  refine foldl_keeps State.units (fun t c => ?_) cores s
  exact t.modCore_units c fun _ => rfl

@[simp] theorem State.l1Trim_units (core : Nat) : (s.l1Trim core).units = s.units := by
  unfold State.l1Trim
  split
  · split
    · exact s.writeBack_units ..
    · rfl
  · rfl

@[simp] theorem State.l1Fill_units (core die pa : Nat) (cores : List Nat) (poison : Bool) (pol : Nat) :
    (s.l1Fill core die pa cores poison pol).units = s.units := by
  unfold State.l1Fill
  split
  · rfl
  · exact (State.l1Trim_units _ _).trans (s.modCore_units _ fun _ => rfl)

@[simp] theorem State.rouse_units (core : Nat) : (s.rouse core).units = s.units := by
  unfold State.rouse
  split
  · exact s.modCore_units _ fun _ => rfl
  · rfl

end

/-- The words that a lane produces depend on its wave and on its core beside the L1 area. -/
theorem State.produced_congr {s t : State} (hw : t.waves = s.waves) (hu : t.units = s.units) (k : Nat) (l : List Word) :
    t.produced k l = s.produced k l := by
  have hcore (u : State) (w : Wave) (n : Nat) : (u.core n).injects w (strandLane k) ((u.core n).issueCount - 1) =
      (u.units n).injects w (strandLane k) ((u.units n).issueCount - 1) := rfl
  unfold State.produced
  rw [hw]
  cases s.waves.find (strandWave k) with
  | none => rfl
  | some w => simp only [hcore, hu]

theorem State.modStrand_strands_congr {s t : State} (hs : t.strands = s.strands) (k : Nat) (f : Strand → Strand) :
    (t.modStrand k f).strands = (s.modStrand k f).strands :=
  congrArg (Tbl.change · k f) hs

/-- What a result's arrival makes of the strands. -/
theorem State.deliver_strands_congr {s t : State} (hs : t.strands = s.strands) (hw : t.waves = s.waves) (hu : t.units = s.units)
    (k id d : Nat) (words : List (Word × Bool)) : (t.deliver k id d words).strands = (s.deliver k id d words).strands := by
  unfold State.deliver
  rw [State.produced_congr hw hu]
  exact State.modStrand_strands_congr hs k _

end Sys2Proof.Machine
end

section
/-!
PROOFS. Loads of global memory (R121, R125, R317, R318).
-/

namespace Sys2Proof.Machine

open Sys2Proof.Safety

/-! ### What events between the lanes leave a load to find -/

section
variable {s : State}

/-- Where no other access has come between the lanes of an issue, a load finds what is there. -/
theorem mixed_noteAccess (h : ∀ x, s.issue = some x → x.before = []) (lane space size addr : Nat) (atomic : Bool)
    (place : Nat → WordAt) (off : Nat) (l : Marked) :
    (s.noteAccess lane space size addr atomic).mixed place off l = (l, s.noteAccess lane space size addr atomic) := by
  have hnone : ((s.noteAccess lane space size addr atomic).issue.map fun (i : Issue) => i.before).getD [] = [] := by
    cases hi : s.issue with
    | none => simp [State.noteAccess, hi]
    | some x => simp [State.noteAccess, hi, h x hi]
  unfold State.mixed
  rw [hnone, if_pos (.inr rfl)]

/-- A mixed read uses free values alone. -/
theorem mixed_state (place : Nat → WordAt) (off : Nat) (l : Marked) : ∃ n, (s.mixed place off l).2 = { s with freeCount := n } := by
  unfold State.mixed
  dsimp only
  split
  · exact ⟨s.freeCount, rfl⟩
  · exact ⟨s.freeCount + 4, rfl⟩

@[simp] theorem State.mixed_strands (place : Nat → WordAt) (off : Nat) (l : Marked) :
    (s.mixed place off l).2.strands = s.strands := by
  obtain ⟨n, hn⟩ := mixed_state (s := s) place off l
  rw [hn]

@[simp] theorem State.mixed_loads (place : Nat → WordAt) (off : Nat) (l : Marked) : (s.mixed place off l).2.loads = s.loads := by
  obtain ⟨n, hn⟩ := mixed_state (s := s) place off l
  rw [hn]

@[simp] theorem State.dropClean_strands (cores : List Nat) : (s.dropClean cores).strands = s.strands :=
  State.of_besideCaches (s.dropClean_besideCaches cores) State.strands fun _ => rfl

@[simp] theorem State.dropClean_loads (cores : List Nat) : (s.dropClean cores).loads = s.loads :=
  State.of_besideCaches (s.dropClean_besideCaches cores) State.loads fun _ => rfl

end

/-! ### A load of a lane -/

section
variable {e : Env} {va pa n d scope pol : Nat} {signed acquire : Bool}

/-- The bytes that the L1 area serves, as events between the lanes of the issue leave them. -/
def Env.servedRead (e : Env) (va pa n : Nat) (b : List Byte) (p : Bool) : Marked × State :=
  (e.s.noteAccess e.lane 1 n va false).mixed (.l1 (e.homeCore va)) pa (b.map fun x => (x, p))

/-- A load that the L1 area serves has its result at once. -/
theorem loadGlobal_hit (ha : Alone e) {b : List Byte} {p : Bool} (h : e.served (e.homeCore va) pa n scope = some (b, p)) :
    let m := e.servedRead va pa n b p
    let u := e.loadGlobal va pa n d scope pol signed acquire
    u.mem = e.s.mem ∧ u.loads = e.s.loads ∧
      u.strands = e.s.strands.set e.key ((e.put e.st d (markedWords m.1 (loadWords n signed m.1.bytes))).tick 1) := by
  intro m u
  have hu : u = e.retire (if 3 ≤ scope then m.2.dropClean e.cores else m.2)
      (e.put e.st d (markedWords m.1 (loadWords n signed m.1.bytes))) := by
    simp only [u, m, Env.loadGlobal, h, Env.give_of_alone ha, Env.servedRead]
  rw [hu]
  unfold m Env.servedRead Env.retire
  split <;> simp [State.setStrand, State.noteAccess]

/-- A load that misses is a request, and its registers wait for it; LDA waits in place. -/
theorem loadGlobal_miss (ha : Alone e) (hcore : e.coreKey = strandCore e.key)
    (h : e.served (e.homeCore va) pa n scope = none) :
    let u := e.loadGlobal va pa n d scope pol signed acquire
    ∃ l, u.mem = e.s.mem ∧ u.loads = e.s.loads ++ [l] ∧ l.id = e.s.nextId ∧ l.strand = e.key ∧ l.use = .register ∧ l.va = va ∧
      l.pa = pa ∧ l.size = n ∧ l.signed = signed ∧ l.d = d ∧ l.acquire = scope ∧ l.pol = pol ∧
      l.granted = e.s.missGrant e.coreKey pa ∧
      (let st := (e.st.awaitMany e.s.nextId d (elementRegs n)).tick 1
       u.strands = e.s.strands.set e.key { st with life := if acquire then .waiting (.reply e.s.nextId) else st.life }) := by
  intro u
  have hu : u = e.retireWaiting (e.startLoad e.s (e.homeCore va) va pa n d scope pol signed).2
      (e.st.awaitMany e.s.nextId d (elementRegs n)) (if acquire then some e.s.nextId else none) := by
    simp only [u, Env.loadGlobal, h, Env.offer_of_alone ha]
    rfl
  rw [hu, hcore]
  cases acquire <;> exact ⟨_, rfl, rfl, rfl, rfl, rfl, rfl, rfl, rfl, rfl, rfl, rfl, rfl, rfl, rfl⟩

end

/-! ### The return of a load -/

@[simp] theorem overBuffer_nil (pa : Nat) (b : List Byte) : overBuffer [] pa b = b := by
  unfold overBuffer
  induction b generalizing pa with
  | nil => rfl
  | cons x b ih => exact congrArg (x :: ·) (ih (pa + 1))

@[simp] theorem bufferCovers_nil (pa : Nat) : bufferCovers [] pa = false := by
  rfl

theorem place_map_snd (pa : Nat) (b : List Byte) : (place pa b).map (·.2) = b := by
  induction b generalizing pa with
  | nil => rfl
  | cons x b ih => exact congrArg (x :: ·) (ih (pa + 1))

section
variable {s : State} {k core pa n acquire pol since : Nat} {clock : List Nat}

theorem overL1_of_none {own rev : Nat} (h : (s.core core).line (lineOf pa) = none) (b : List Byte) :
    s.overL1 core own pa rev b = b := by
  simp only [State.overL1, h]

/-- With no write of the line on its way from some cores, nothing lies over the bytes. -/
theorem overFlights_of_none {cores : List Nat} (h : ∀ f ∈ s.flights, f.line = lineOf pa → f.core ∉ cores) (b : List Byte) :
    s.overFlights cores since pa b = b := by
  have hnone : (s.flights.filter fun f => cores.contains f.core && decide (since ≤ f.id) && decide (f.line = lineOf pa)) = [] := by
    rw [List.filter_eq_nil_iff]
    intro f hf
    have := h f hf
    simp
    tauto
  unfold State.overFlights
  rw [hnone]
  exact place_map_snd pa b

@[simp] theorem State.noteRequest_cores (s : State) (pa cluster : Nat) : (s.noteRequest pa cluster).cores = s.cores := by
  unfold State.noteRequest
  split <;> rfl

@[simp] theorem State.noteRequest_flights (s : State) (pa cluster : Nat) : (s.noteRequest pa cluster).flights = s.flights := by
  unfold State.noteRequest
  split <;> rfl

/-- A read of a line of the own die that no cache holds, with nothing of the strand's own before it, is served by memory. -/
theorem globalRead_memory (hold : s.olderLoad k pa n since = false) (hhome : homeDie pa = some (coreDie (strandCore k)))
    (hline : (s.core core).line (lineOf pa) = none) (hbuf : s.bufferOf k = [])
    (hfl : ∀ f ∈ s.flights, f.line = lineOf pa → f.core ∉ s.l1Of k) (hown : s.ownHeld k pa n since = false)
    (hcopy : s.ownedByCopy (lineOf pa) = false) :
    ∃ u, s.globalRead k core pa n acquire pol clock since = some (s.peek pa n, s.poisonedAt pa, u) ∧
      u.besideCaches = s.besideCaches ∧ u.units = s.units := by
  have hnone : (s.flights.any fun f => (s.l1Of k).contains f.core && decide (f.line = lineOf pa) &&
      (decide (s.revisionOf k = 1) && decide (5 ≤ acquire) || decide (s.revisionOf k = 1) && decide (1 < (s.l1Of k).length) ||
        decide (f.id < since))) = false := by
    rw [List.any_eq_false]
    intro f hf
    have := hfl f hf
    simp
    tauto
  have hmiss : s.l1Hit core (strandCore k) pa n (s.revisionOf k) (decide (3 ≤ acquire)) = none := by
    simp only [State.l1Hit, hline]
  have hl1 (b : List Byte) : (s.noteRequest pa (coreCluster (strandCore k))).overL1 core (strandCore k) pa (s.revisionOf k) b = b :=
    overL1_of_none (by rw [State.core_congr (State.noteRequest_cores ..), hline]) b
  have hover (b : List Byte) : (s.noteRequest pa (coreCluster (strandCore k))).overFlights (s.l1Of k) since pa b = b :=
    overFlights_of_none (by rwa [State.noteRequest_flights]) b
  unfold State.globalRead State.readFor
  simp only [hold, hown, hcopy, hnone, hline, hmiss, State.serveBelow, hhome, hbuf, hl1, hover, Bool.or_self, Option.any_none,
    Bool.and_false, Bool.false_eq_true, if_false, ite_self, if_true, overBuffer_nil, bufferCovers_nil, Bool.not_false, Bool.and_true]
  refine ⟨_, rfl, ?_, ?_⟩
  · split <;> split <;> simp
  · split <;> split <;> simp

/-- A load of registers returns what it is served. -/
theorem loadReturn_register {u : State} {l : Load} {b : List Byte} {p : Bool} (hf : s.loads.find? (·.id = l.id) = some l)
    (hg : l.granted = true) (hs : (s.loadStands l && s.olderAtSlice l.pa l.id) = false) (hu : l.use = .register)
    (hr : s.globalRead l.strand l.core l.pa l.size l.acquire l.pol l.clock l.id = some (b, p, u)) :
    exec (.loadReturn l.id) s = .next (({ u with loads := u.loads.filter (·.id ≠ l.id) } : State).deliver l.strand l.id l.d
      ((loadWords l.size l.signed b).map fun w => (w, p))) := by
  have hs := Bool.and_eq_false_iff.mp hs
  rw [exec_loadReturn, execLoadReturn]
  exact eventStep_some (by simp [hf, hg, hs, State.readLoad, hu, hr, State.returnLoad, guard])

theorem missGrant_event {core id pa : Nat}
    (h : (s.missWaiting core).find? (fun p => s.missFree core p.2 || s.requestHits p.1) = some (id, pa)) :
    exec (.missRegisterGrant core) s = .next (s.grantMiss id) := by
  rw [exec_missRegisterGrant, execMissRegisterGrant]
  exact eventStep_some (by simp only [h]; rfl)

end

/-- Settles O20: what serves a load, what a miss leaves, and what its return brings. -/
theorem globalLoads : Obligations.GlobalLoads := by
  refine ⟨?_, ?_, ?_⟩
  · intro s e d h a y r i va pa he ha hel hl ht n core hit miss
    have hd : e.areaDrained r = .ok e := areaDrained_other (located_global hl)
    have hexec (signed acquire : Bool) := load_global (y := y) (signed := signed) (acquire := acquire) he ha hd hel hl ht
    have hhit (instr : Instr) (signed acquire : Bool) (b : List Byte) (p : Bool)
        (hi : exec instr s = load s d h a y signed acquire)
        (hb : e.served core pa n (if acquire then accessScope y.toNat r else 0) = some (b, p)) : hit instr signed b p := by
      refine ⟨fun hq => congrArg Prod.fst (mixed_noteAccess hq ..), _, hi.trans (hexec signed acquire), ?_⟩
      have hgo := loadGlobal_hit (d := d.toNat) (pol := e.policy r) (signed := signed) (acquire := acquire) ha hb
      rw [Env.servedRead, env_s he] at hgo
      exact hgo
    have hmiss (instr : Instr) (signed acquire : Bool) (hi : exec instr s = load s d h a y signed acquire)
        (hb : e.served core pa n (if acquire then accessScope y.toNat r else 0) = none) :
        miss instr signed (if acquire then accessScope y.toNat r else 0) fun st =>
          if acquire then .waiting (.reply s.nextId) else st.life := by
      obtain ⟨l, hgo⟩ := loadGlobal_miss (d := d.toNat) (pol := e.policy r) (signed := signed) (acquire := acquire) ha
        (env_coreKey he) hb
      rw [env_s he] at hgo
      exact ⟨_, l, hi.trans (hexec signed acquire), hgo⟩
    exact ⟨fun b p hb => ⟨hhit _ false false b p rfl hb, hhit _ true false b p rfl hb⟩, fun b p hb => hhit _ false true b p rfl hb,
      fun hb => ⟨hmiss _ false false rfl hb, hmiss _ true false rfl hb⟩, fun hb => hmiss _ false true rfl hb⟩
  · intro s l hf hg hu hs hold hhome hline hbuf hfl hown hcopy
    obtain ⟨u, hr, hbeside, hunits⟩ := globalRead_memory (acquire := l.acquire) (pol := l.pol) (clock := l.clock) hold hhome hline hbuf
      hfl hown hcopy
    refine ⟨_, loadReturn_register hf hg hs hu hr, ?_, ?_, ?_⟩
    · exact State.of_besideCaches hbeside State.mem fun _ => rfl
    · exact congrArg (List.filter _) (State.of_besideCaches hbeside State.loads fun _ => rfl)
    · exact State.deliver_strands_congr (State.of_besideCaches hbeside State.strands fun _ => rfl)
        (State.of_besideCaches hbeside State.waves fun _ => rfl) hunits ..
  · intro s core id pa h
    exact missGrant_event h

end Sys2Proof.Machine
end

section
/-!
PROOFS. What a wake and a write that is seen by watches leave as it is: everything beside the strands' life, the watches and the walks,
and what the caches' operations may change besides (R135, R178, R260).
-/

namespace Sys2Proof.Machine

/-- A strand without its life and its wait count. -/
def Strand.beyondLife (st : Strand) : Strand := { st with life := .ready, wait := 0 }

/-- The machine without what wakes and the caches' operations may change. -/
def State.beneath (s : State) : State :=
  { s.besideCaches with strands := s.strands.mapVal fun _ st => st.beyondLife, watches := [], walks := [] }

theorem Tbl.mapVal_mapVal {α : Type} (t : Tbl α) (f g : Nat → α → α) :
    (t.mapVal f).mapVal g = t.mapVal fun k x => g k (f k x) := by
  simp [Tbl.mapVal, Function.comp_def]

/-- What neither life, caches, watches nor walks touch is the same in two machines that differ there alone. -/
theorem State.of_beneath {β : Type} {s t : State} (h : t.beneath = s.beneath) (g : State → β)
    (hg : ∀ u : State, g u.beneath = g u) : g t = g s := by
  rw [← hg t, h, hg]

theorem State.beneath_of_besideCaches {s t : State} (h : t.besideCaches = s.besideCaches) : t.beneath = s.beneath := by
  have hs : t.strands = s.strands := State.of_besideCaches h State.strands fun _ => rfl
  unfold State.beneath
  rw [h, hs]

section
variable (s : State)

@[simp] theorem State.rouse_besideCaches (core : Nat) : (s.rouse core).besideCaches = s.besideCaches := by
  unfold State.rouse
  split <;> rfl

@[simp] theorem State.wake_beneath (core : Nat) : (s.wake core).beneath = s.beneath := by
  unfold State.wake
  rw [State.beneath_of_besideCaches (State.rouse_besideCaches ..)]
  have hlife (p : Prop) [Decidable p] (st : Strand) :
      (if p then { st with life := .ready, wait := 0 } else st : Strand).beyondLife = st.beyondLife := by split <;> rfl
  simp only [State.beneath, Tbl.mapVal_mapVal, hlife]
  rfl

@[simp] theorem State.wakeWatches_beneath (p : Watch → Bool) : (s.wakeWatches p).beneath = s.beneath :=
  (foldl_keeps _ (fun t c => t.wake_beneath c) _ _).trans rfl

@[simp] theorem State.wakeLine_beneath (pa : Nat) : (s.wakeLine pa).beneath = s.beneath :=
  (show (s.wakeLine pa).beneath = (s.wakeWatches _).beneath from rfl).trans (s.wakeWatches_beneath _)

@[simp] theorem State.wakeLocal_beneath (team off n : Nat) : (s.wakeLocal team off n).beneath = s.beneath :=
  s.wakeWatches_beneath _

@[simp] theorem State.l1Write_beneath (core : Nat) (cells : List Host.Cell) (strands : List Nat) (pol : Nat) :
    (s.l1Write core cells strands pol).beneath = s.beneath := by
  unfold State.l1Write
  split
  · rfl
  · rw [State.wakeLine_beneath, State.beneath_of_besideCaches (State.l1Trim_besideCaches ..)]
    rfl

@[simp] theorem State.sendStore_beneath (cores : List Nat) (core : Nat) (bank : Option Nat) (cells : List Host.Cell) (single : Bool)
    (exposes : Option Nat) : (s.sendStore cores core bank cells single exposes).beneath = s.beneath := by
  refine foldl_keeps State.beneath (fun t l => ?_) _ _
  split
  · rfl
  · rw [State.wakeLine_beneath, State.beneath_of_besideCaches (State.launchFlight_besideCaches ..)]
    exact State.beneath_of_besideCaches (writeBack_each_besideCaches ..)

/-! ### Units through wakes -/

@[simp] theorem State.wake_units (core : Nat) : (s.wake core).units = s.units :=
  (State.rouse_units _ core).trans rfl

@[simp] theorem State.wakeLine_units (pa : Nat) : (s.wakeLine pa).units = s.units := by
  show (s.wakeWatches _).units = s.units
  exact (foldl_keeps State.units (fun t c => t.wake_units c) _ _).trans rfl

end

end Sys2Proof.Machine
end

section
/-!
PROOFS. Stores of global memory: sent, joined and buffered (R121, R125, R290, R317, R335, R348).
-/

namespace Sys2Proof.Machine

open Sys2Proof.Safety

/-! ### A store of a lane -/

section
variable {s : State} {e : Env} {va pa scope pol : Nat} {bytes : List Byte} {release : Bool}

/-- The store as the passes count it (R203); BYPASS goes past the L1 area. -/
def Env.storeNoted (e : Env) (va n pol : Nat) : State := if pol = 3 then e.s else e.s.noteAccess e.lane 1 n va false

/-- The strand behind its store: at system scope a region begins (R24). -/
def Env.storeFin (e : Env) (scope : Nat) (t : State) : State :=
  if scope = 6 then e.retireRegion t e.st else e.retire t e.st

/-- A store without a release, as it is to be performed. -/
def Env.plainStore (e : Env) (va pa : Nat) (bytes : List Byte) (pol : Nat) : PendStore :=
  { id := 0, issue := e.issueNo, home := e.coreKey, core := e.homeCore va, bytes := place pa bytes
    strands := List.replicate bytes.length e.key, asid := e.asid, va := va, release := false, after := [], applied := false
    bypass := decide (pol = 3), pol := pol, single := false, granted := false, exposes := none }

/-- A store with a release, which comes after what its release orders. -/
def Env.releaseStore (e : Env) (t : State) (va pa : Nat) (bytes : List Byte) (scope pol : Nat) (exposes : Option Nat) : PendStore :=
  let single := decide (e.revision = 1) && decide (scope = 5)
  let asks := t.releaseIds e.cores e.key scope e.revision false
  { e.plainStore va pa bytes pol with
    release := true, after := t.stillOut asks.1 asks.2, applied := asks.2, bypass := decide (pol = 3) || single, single := single,
    exposes := exposes }

theorem Env.storeFin_eq (e : Env) (scope : Nat) (t : State) : ∃ st, e.storeFin scope t = t.setStrand e.key st := by
  unfold Env.storeFin
  split
  · exact ⟨_, rfl⟩
  · exact ⟨_, rfl⟩

/-- What is noted of a store is a mark of its issue. -/
theorem storeNoted_issue (e : Env) (va n pol : Nat) : ∃ i, e.storeNoted va n pol = { e.s with issue := i } := by
  unfold Env.storeNoted
  split
  · exact ⟨_, rfl⟩
  · exact ⟨_, rfl⟩

theorem storeGlobal_plain (hc : e.isContained = false) :
    e.storeGlobal va pa bytes scope pol false =
      .ok (e.storeFin scope ((e.storeNoted va bytes.length pol).addStore (e.plainStore va pa bytes pol))) := by
  simp [Env.storeGlobal, hc, Env.storeFin, Env.storeNoted, Env.plainStore, State.stillOut, bind, Except.bind, pure, Except.pure]

theorem storeGlobal_release (hc : e.isContained = false) (hs : ¬3 ≤ scope) :
    e.storeGlobal va pa bytes scope pol true =
      .ok (e.storeFin scope ((e.storeNoted va bytes.length pol).addStore
        (e.releaseStore (e.storeNoted va bytes.length pol) va pa bytes scope pol none))) := by
  simp [Env.storeGlobal, hc, hs, Env.storeFin, Env.storeNoted, Env.plainStore, Env.releaseStore, bind, Except.bind, pure, Except.pure]

/-- A contained team's store goes into its store buffer, but for a release above team scope. -/
theorem storeGlobal_buffered (hc : e.isContained = true) (hs : release = true → ¬3 ≤ scope)
    (hown : e.s.ownHeld e.key pa bytes.length e.s.nextId = false) (hcopy : e.s.ownedByCopy (lineOf pa) = false)
    (hroom : e.bufferRoom pa bytes.length = true) (hr : e.s.readsOutstanding e.key = false) :
    e.storeGlobal va pa bytes scope pol release =
      .ok (e.storeFin scope ((e.storeNoted va bytes.length pol).bufferStore e.wave.team pa bytes)) := by
  have hat := (Bool.or_eq_false_iff.mp hr).2
  have hnarrow : (release && decide (3 ≤ scope)) = false := by cases release <;> simp_all
  simp [Env.storeGlobal, hc, hnarrow, hown, hcopy, hroom, hat, Env.storeFin, Env.storeNoted, bind, Except.bind, pure, Except.pure]

/-- A release above team scope commits the store buffer and sends the dirty bytes of its L1 areas before it. -/
theorem storeGlobal_wide (hs : 3 ≤ scope) (hr : e.s.readsOutstanding e.key = false) (hst : e.s.storesOf e.key = [])
    (hc : e.isContained = true → e.s.allCompared e.wave.team = true) :
    let noted := e.storeNoted va bytes.length pol
    let t := (if e.isContained then noted.commit e.wave.team else noted).writeBackAll e.cores
    e.storeGlobal va pa bytes scope pol true =
      .ok (e.storeFin scope (t.addStore (e.releaseStore t va pa bytes scope pol e.exposing))) := by
  intro noted t
  have hcommit : e.commitPoint noted = .ok (if e.isContained then noted.commit e.wave.team else noted) := by
    obtain ⟨i, hi⟩ := storeNoted_issue e va bytes.length pol
    unfold noted
    rw [hi]
    exact commitPoint_ok hr hst hc
  unfold noted Env.storeNoted at hcommit
  simp only [Env.storeGlobal, hs, bind, Except.bind, pure, Except.pure, decide_true, Bool.and_true, Bool.not_true, Bool.and_false,
    Bool.false_eq_true, if_false, if_true, hcommit]
  simp [t, noted, Env.storeNoted, Env.storeFin, Env.plainStore, Env.releaseStore]

end

/-! ### The write that a store joins -/

section
variable {s : State} {n r : PendStore} {c : Host.Cell} {l : List Host.Cell}

/-- A write of the issue of a store to its sector. -/
def PendStore.near (r n : PendStore) (c : Host.Cell) : Prop :=
  r.issue = n.issue ∧ r.home = n.home ∧ ∃ d m, r.bytes = d :: m ∧ sectorOf d.1 = sectorOf c.1

/-- A write of the kind of a store. -/
def PendStore.like (r n : PendStore) : Prop :=
  r.core = n.core ∧ r.release = n.release ∧ r.bypass = n.bypass ∧ r.single = n.single

theorem near_iff : r.near n c ↔ (decide (r.issue = n.issue) && decide (r.home = n.home)
    && r.bytes.head?.any fun d => sectorOf d.1 = sectorOf c.1) = true := by
  unfold PendStore.near
  cases r.bytes <;> simp [and_assoc]

/-- The last near write of the stores. -/
theorem joinTarget_eq (hi : s.issue ≠ none) :
    s.joinTarget n c.1 = (s.stores.reverse.find? fun r => decide (r.issue = n.issue) && decide (r.home = n.home)
      && r.bytes.head?.any fun d => sectorOf d.1 = sectorOf c.1).filter fun r =>
        decide (r.core = n.core) && decide (r.release = n.release) && decide (r.bypass = n.bypass) && decide (r.single = n.single) := by
  unfold State.joinTarget
  rw [if_neg (by simpa using hi)]

theorem joinTarget_none_of_far (h : s.issue = none ∨ ∀ r ∈ s.stores, ¬r.near n c) : s.joinTarget n c.1 = none := by
  by_cases hi : s.issue = none
  · simp [State.joinTarget, hi]
  · have hfar := h.resolve_left hi
    rw [joinTarget_eq hi, List.find?_eq_none.mpr, Option.filter_none]
    intro r hr hnear
    exact hfar r (List.mem_reverse.mp hr) (near_iff.mpr hnear)

variable {before after : List PendStore}

/-- The near write behind which no other stands, where it is of the store's kind. -/
theorem joinTarget_last (hi : s.issue ≠ none) (hs : s.stores = before ++ r :: after) (hafter : ∀ x ∈ after, ¬x.near n c)
    (hr : r.near n c) :
    (r.like n → s.joinTarget n c.1 = some r) ∧ (¬r.like n → s.joinTarget n c.1 = none) := by
  have hfind : (s.stores.reverse.find? fun r => decide (r.issue = n.issue) && decide (r.home = n.home)
      && r.bytes.head?.any fun d => sectorOf d.1 = sectorOf c.1) = some r := by
    have hnone := List.find?_eq_none.mpr fun x (hx : x ∈ after.reverse) hnear =>
      hafter x (List.mem_reverse.mp hx) (near_iff.mpr hnear)
    rw [hs, List.reverse_append, List.reverse_cons, List.append_assoc, List.find?_append, hnone, Option.none_or,
      List.singleton_append]
    exact List.find?_cons_of_pos (near_iff.mp hr)
  rw [joinTarget_eq hi, hfind]
  unfold PendStore.like
  constructor
  · rintro ⟨h1, h2, h3, h4⟩
    simp [h1, h2, h3, h4]
  · intro hk
    simp only [Option.filter_some, ite_eq_right_iff, reduceCtorEq, imp_false, Bool.and_eq_true, decide_eq_true_eq, and_assoc]
    exact hk

/-- A store that joins none is a new one, with a miss register where its line is in the L1 area or a register is free. -/
theorem addStore_new (hb : n.bytes = c :: l) (hj : s.joinTarget n c.1 = none) :
    s.addStore n = { s with nextId := s.nextId + 1, stores := s.stores ++ [{ n with
      id := s.nextId, granted := ((s.core n.core).line (lineOf c.1)).isSome || s.missGrant n.home c.1 }] } := by
  obtain ⟨pa, b⟩ := c
  simp only [State.addStore, hb, hj]
  rfl

/-- One that joins changes the write that it joins. -/
theorem addStore_joins (hb : n.bytes = c :: l) (hj : s.joinTarget n c.1 = some r) (hs : s.stores = before ++ r :: after)
    (hid : ∀ x ∈ before ++ after, x.id ≠ r.id) :
    s.addStore n = { s with stores := before ++ r.join n :: after } := by
  obtain ⟨pa, b⟩ := c
  have hsame (l : List PendStore) (hl : ∀ x ∈ l, x.id ≠ r.id) : (l.map fun x => if x.id = r.id then x.join n else x) = l := by
    conv_rhs => rw [← List.map_id l]
    exact List.map_congr_left fun x hx => if_neg (hl x hx)
  simp only [State.addStore, hb, hj]
  rw [hs, List.map_append, List.map_cons, if_pos rfl, hsame before fun x hx => hid x (List.mem_append_left _ hx),
    hsame after fun x hx => hid x (List.mem_append_right _ hx)]

/-- The bytes of the two writes, those of the later store in the place of the earlier one's. -/
theorem mem_join_bytes (hlen : r.strands.length = r.bytes.length) (b : Host.Cell) :
    b ∈ (r.join n).bytes ↔ b ∈ n.bytes ∨ (b ∈ r.bytes ∧ ∀ z ∈ n.bytes, z.1 ≠ b.1) := by
  have hzip : (r.bytes.zip r.strands).map (·.1) = r.bytes := List.map_fst_zip (by omega)
  have hold : ((r.bytes.zip r.strands).filter fun b => !(n.bytes.any fun c => c.1 = b.1.1)).map (·.1) =
      r.bytes.filter fun b => !(n.bytes.any fun c => c.1 = b.1) := by
    conv_rhs => rw [← hzip, List.filter_map]
    rfl
  unfold PendStore.join
  dsimp only
  rw [hold, List.mem_append, or_comm]
  simp

end

/-! ### The store buffer -/

section
variable {s : State} {t pa : Nat} {bytes : List Byte} {team : Team}

theorem sendStore_teams (cores : List Nat) (core : Nat) (bank : Option Nat) (cells : List Host.Cell) (single : Bool)
    (exposes : Option Nat) : (s.sendStore cores core bank cells single exposes).teams = s.teams :=
  State.of_beneath (s.sendStore_beneath ..) State.teams fun _ => rfl

/-- A commit leaves the team. -/
theorem commit_team (ht : s.teams.find t = some team) : ∃ x, (s.commit t).teams.find t = some x := by
  unfold State.commit
  rw [ht]
  dsimp only
  split
  · exact ⟨team, ht⟩
  · rw [sendStore_teams]
    exact ⟨_, Tbl.find_set_same ..⟩

/-- The team once its buffer has made room for a store. -/
theorem bufferStore_team (ht : s.teams.find t = some team) :
    ∃ x : Team, (s.bufferStore t pa bytes).teams.find t =
        some { x with buffer := (place pa bytes).foldl (fun b c => Tbl.set b c.1 c.2) x.buffer } ∧
      ((sectorsOf (team.buffer ++ place pa bytes)).length ≤ 1024 → x = team) := by
  have hroom : ∃ x, ((if Config.storeBufferSectors < (sectorsOf (team.buffer ++ place pa bytes)).length then s.commit t
      else s).teams.find t) = some x ∧ ((sectorsOf (team.buffer ++ place pa bytes)).length ≤ 1024 → x = team) := by
    split
    · next hbig =>
      obtain ⟨x, hx⟩ := commit_team ht
      exact ⟨x, hx, fun h => absurd hbig (Nat.not_lt.mpr h)⟩
    · exact ⟨team, ht, fun _ => rfl⟩
  obtain ⟨x, hx, hkeep⟩ := hroom
  refine ⟨x, ?_, hkeep⟩
  unfold State.bufferStore
  rw [ht]
  dsimp only
  rw [State.of_beneath (State.wakeLine_beneath ..) State.teams fun _ => rfl]
  show Tbl.find (Tbl.change _ _ _) _ = _
  rw [Tbl.find_change_same, hx]
  rfl

theorem span_nodup (a n : Nat) : (span a n).Nodup :=
  List.Nodup.map (fun _ _ h => Nat.add_left_cancel h) List.nodup_range

theorem mem_span {a n x : Nat} : x ∈ span a n ↔ a ≤ x ∧ x < a + n := by
  simp only [span, List.mem_map, List.mem_range]
  constructor
  · rintro ⟨k, hk, rfl⟩
    omega
  · exact fun h => ⟨x - a, by omega, by omega⟩

theorem place_mem {k : Nat} (hk : k < bytes.length) : (pa + k, bytes[k]) ∈ place pa bytes := by
  induction bytes generalizing pa k with
  | nil => simp at hk
  | cons b l ih =>
    cases k with
    | zero => exact List.mem_cons_self
    | succ k =>
      rw [show pa + (k + 1) = pa + 1 + k by omega]
      exact List.mem_cons_of_mem _ (ih (by simpa using hk))

/-- What a buffer holds after a run of bytes was put into it. -/
theorem find_foldl_place (buffer : Tbl Byte) {k : Nat} (hk : k < bytes.length) :
    Tbl.find ((place pa bytes).foldl (fun b c => Tbl.set b c.1 c.2) buffer) (pa + k) = bytes[k]? := by
  rw [List.getElem?_eq_getElem hk]
  exact Tbl.find_foldl_set (place pa bytes) id buffer
    (by rw [show ((place pa bytes).map fun p => id p.1) = _ from place_map_fst ..]; exact span_nodup ..) (place_mem hk)

theorem find_foldl_place_other (buffer : Tbl Byte) {a : Nat} (ha : a < pa ∨ pa + bytes.length ≤ a) :
    Tbl.find ((place pa bytes).foldl (fun b c => Tbl.set b c.1 c.2) buffer) a = buffer.find a :=
  Tbl.find_foldl_set_other (place pa bytes) id buffer
    (by rw [show ((place pa bytes).map fun p => id p.1) = _ from place_map_fst .., mem_span]; omega)

end

/-- Settles O21: a store is a new write, or joins one of its issue, or goes into the buffer of its team. -/
theorem globalStores : Obligations.GlobalStores := by
  refine ⟨?_, ?_, ?_⟩
  · intro s e x h a y r i words va pa he ha hel hw hp hl ht hr scope wide bytes bypass fin noted plain single releases
    have hd : e.areaDrained r = .ok e := areaDrained_other (located_global hl)
    have hr' : e.s.readsOutstanding e.key = false := by rwa [env_s he]
    have hstore (release : Bool) (t : State)
        (hst : e.storeGlobal va pa bytes scope (e.policy r) release = .ok (e.storeFin scope t)) :
        store s x h a y release = .next (fin t) := by
      obtain ⟨st, hfin⟩ := e.storeFin_eq scope t
      rw [hfin] at hst
      rw [store_global he ha hd hel hw hr' hp hl ht hst, ← hfin]
      rfl
    have hnoted : e.storeNoted va bytes.length (e.policy r) = noted := by
      rw [Env.storeNoted, env_s he]
    refine ⟨fun hc => ⟨?_, fun hs => ?_⟩, fun hc hown hcopy hroom => ⟨?_, fun hs => ?_⟩, fun hs hst hc => ?_⟩
    · rw [← hnoted]
      exact hstore false _ (storeGlobal_plain hc)
    · rw [← hnoted]
      exact hstore true _ (storeGlobal_release hc (of_decide_eq_false hs))
    · rw [← hnoted]
      exact hstore false _ (storeGlobal_buffered hc (fun h => nomatch h) (by rwa [env_s he]) (by rwa [env_s he]) hroom hr')
    · rw [← hnoted]
      exact hstore true _ (storeGlobal_buffered hc (fun _ => of_decide_eq_false hs) (by rwa [env_s he]) (by rwa [env_s he]) hroom hr')
    · intro t
      have hwide := storeGlobal_wide (va := va) (pa := pa) (bytes := bytes) (pol := e.policy r) (of_decide_eq_true hs) hr'
        (by rwa [env_s he]) (by rwa [env_s he])
      rw [hnoted] at hwide
      exact hstore true _ hwide
  · intro s n c l hb near kind alone
    refine ⟨fun hfar => addStore_new hb (joinTarget_none_of_far hfar), fun before after r hi hs hafter hr =>
      ⟨fun hk => ?_, fun hk hid hlen => ?_⟩⟩
    · exact addStore_new hb ((joinTarget_last hi hs hafter hr).2 hk)
    · exact ⟨_, addStore_joins hb ((joinTarget_last hi hs hafter hr).1 hk) hs hid, rfl, rfl, rfl, mem_join_bytes hlen⟩
  · intro s t pa bytes team ht
    obtain ⟨x, hx, hroom⟩ := bufferStore_team (pa := pa) (bytes := bytes) ht
    refine ⟨_, hx, by simp, fun k hk => find_foldl_place _ hk, fun hfit a ha => ?_⟩
    rw [← hroom hfit]
    exact find_foldl_place_other _ ha

end Sys2Proof.Machine
end

section
/-!
PROOFS. Stores are performed, into the L1 area and at their ordering point; lines leave an L1 area (R121, R315, R318, R337, R354).
-/

namespace Sys2Proof.Machine

open Sys2Proof.Safety

/-! ### Runs of one sector -/

/-- The runs that `splitBy` gives are not empty, and its function does not tell the bytes of a run apart. -/
theorem splitBy_run (f : Nat → Nat) (l : List Host.Cell) :
    ∀ p ∈ splitBy f l, p ≠ [] ∧ ∀ b ∈ p, ∀ c ∈ p, f b.1 = f c.1 := by
  have hone (c : Host.Cell) : [c] ≠ [] ∧ ∀ a ∈ [c], ∀ b ∈ [c], f a.1 = f b.1 := by simp
  induction l with
  | nil => simp [splitBy]
  | cons c l ih =>
    simp only [splitBy]
    split
    · next d r rest h =>
      rw [h, List.forall_mem_cons] at ih
      obtain ⟨⟨-, hrun⟩, hrest⟩ := ih
      split
      · next hcd =>
        refine List.forall_mem_cons.mpr ⟨⟨List.cons_ne_nil _ _, ?_⟩, hrest⟩
        have hd : ∀ b ∈ c :: d :: r, f b.1 = f d.1 := List.forall_mem_cons.mpr ⟨hcd, fun b hb => hrun b hb d List.mem_cons_self⟩
        exact fun a ha b hb => (hd a ha).trans (hd b hb).symm
      · exact List.forall_mem_cons.mpr ⟨hone c, List.forall_mem_cons.mpr ⟨⟨List.cons_ne_nil _ _, hrun⟩, hrest⟩⟩
    · exact List.forall_mem_cons.mpr ⟨hone c, ih⟩

/-! ### A line that leaves -/

section
variable {s : State} {core line : Nat}

/-- A write that is sent goes behind the others on their way. -/
theorem launchFlight_flights (bank : Option Nat) (single : Bool) (exposes : Option Nat) {cells : List Host.Cell} (h : cells ≠ []) :
    ∃ f, (s.launchFlight core bank cells single exposes).flights = s.flights ++ [f] ∧ f.bytes = cells ∧ f.core = core ∧
      f.single = single ∧ f.exposes = exposes := by
  obtain ⟨⟨pa, b⟩, l, rfl⟩ := List.exists_cons_of_ne_nil h
  unfold State.launchFlight
  dsimp only
  cases homeDie pa with
  | none => exact ⟨_, rfl, rfl, rfl, rfl, rfl⟩
  | some d =>
    dsimp only
    split <;> exact ⟨_, rfl, rfl, rfl, rfl, rfl⟩

/-- The writes of a list of runs go behind the others in its order. -/
theorem launchFlight_each_flights (ls : List (List Host.Cell)) (h : ∀ l ∈ ls, l ≠ []) (s : State) :
    ∃ fs, (ls.foldl (fun s l => s.launchFlight core none l false none) s).flights = s.flights ++ fs ∧ fs.map (·.bytes) = ls ∧
      ∀ f ∈ fs, f.core = core ∧ f.single = false ∧ f.exposes = none := by
  induction ls generalizing s with
  | nil => exact ⟨[], by simp⟩
  | cons l ls ih =>
    rw [List.forall_mem_cons] at h
    obtain ⟨f, hf, hbytes, hcore, hsingle, hexp⟩ := launchFlight_flights (s := s) (core := core) none false none h.1
    obtain ⟨fs, hfs, hmap, hall⟩ := ih h.2 (s.launchFlight core none l false none)
    refine ⟨f :: fs, ?_, by rw [List.map_cons, hbytes, hmap], List.forall_mem_cons.mpr ⟨⟨hcore, hsingle, hexp⟩, hall⟩⟩
    rw [List.foldl_cons, hfs, hf, List.append_assoc, List.singleton_append]

/-- The dirty bytes of a line that is written back are on their way, a write for each sector's. -/
theorem writeBack_flights {x : L1Line} (drop : Bool) (h : (s.core core).line line = some x) :
    ∃ fs, (s.writeBack core line drop).flights = s.flights ++ fs ∧
      fs.map (·.bytes) = splitSectors (x.dirty.map fun p => (line * 256 + p.1, x.bytes.get p.1 0)) ∧
      ∀ f ∈ fs, f.core = core ∧ f.single = false ∧ f.exposes = none := by
  unfold State.writeBack
  rw [h]
  exact launchFlight_each_flights _ (fun l hl => (splitBy_run sectorOf _ l hl).1) _

theorem l1Writeback_leaves {x : L1Line} (h : (s.core core).line line = some x) :
    exec (.l1Writeback core line) s = .next (s.writeBack core line true) := by
  rw [exec_l1Writeback, execL1Writeback]
  exact eventStep_some (by rw [h]; rfl)

end

/-! ### A write into a line of an L1 area -/

/-- The line of every L1 area by number. -/
def State.lines (s : State) (n : Nat) : List L1Line := (s.core n).l1

@[simp] theorem State.wakeLine_lines (s : State) (pa : Nat) : (s.wakeLine pa).lines = s.lines := by
  have hrouse (t : State) (c : Nat) : (t.rouse c).lines = t.lines := by
    funext n
    unfold State.rouse
    split
    · unfold State.lines
      rw [State.core_modCore]
      split
      · next h => rw [h]
      · rfl
    · rfl
  have hwake (t : State) (c : Nat) : (t.wake c).lines = t.lines := (hrouse _ c).trans rfl
  show (s.wakeWatches _).lines = s.lines
  exact (foldl_keeps State.lines hwake _ _).trans rfl

theorem State.line_of_lines {s t : State} (h : t.lines = s.lines) (n l : Nat) : (t.core n).line l = (s.core n).line l :=
  congrArg (List.find? _) (congrFun h n)

theorem Core.line_dropLine_other (c : Core) {l k : Nat} (h : l ≠ k) : (c.dropLine k).line l = c.line l := by
  unfold Core.line Core.dropLine
  rw [List.find?_filter]
  congr 1
  funext x
  by_cases hx : x.line = l <;> simp [hx, h]

/-- The line that leaves is not the newest. -/
theorem l1Victim_mem {l : List L1Line} {x : L1Line} (h : l1Victim l = some x) : x ∈ l.drop 1 := by
  have either {a b : Option L1Line} (h : a.or b = some x) : a = some x ∨ b = some x := by
    cases a with
    | none => exact .inr h
    | some y => exact .inl h
  rw [← List.mem_reverse]
  obtain h | h := either h
  · obtain h | h := either h
    · exact List.mem_of_find?_eq_some h
    · exact List.mem_of_find?_eq_some h
  · exact List.mem_of_mem_head? h

/-- A line that was just put in an L1 area stays when another makes room. -/
theorem l1Trim_line {s : State} {core : Nat} (c : Core) {x : L1Line} (hc : s.core core = c.setLine x) :
    ((s.l1Trim core).core core).line x.line = some x := by
  have hx : (s.core core).line x.line = some x := by rw [hc, Core.line_setLine]
  unfold State.l1Trim
  split
  · split
    · next v hv =>
      have hne : x.line ≠ v.line := by
        have hmem := l1Victim_mem hv
        rw [hc] at hmem
        exact Ne.symm (of_decide_eq_true (List.mem_filter.mp hmem).2)
      cases hl : (s.core core).line v.line with
      | none => rw [State.writeBack_of_none hl, hx]
      | some y => rw [State.writeBack_core_same hl, if_pos rfl, Core.line_dropLine_other _ hne, hx]
    · exact hx
  · exact hx

/-- One write of bytes, each with the strand that wrote it, into a line. -/
def L1Line.written (x : L1Line) (l : List (Host.Cell × Nat)) : L1Line :=
  l.foldl (fun x p => { x with bytes := x.bytes.set (p.1.1 % 256) p.1.2, dirty := x.dirty.set (p.1.1 % 256) p.2 }) x

theorem L1Line.written_eq (x : L1Line) (l : List (Host.Cell × Nat)) :
    x.written l = { x with
      bytes := (l.map (·.1)).foldl (fun t c => t.set (c.1 % 256) c.2) x.bytes
      dirty := (l.map fun p => (p.1.1, p.2)).foldl (fun t c => t.set (c.1 % 256) c.2) x.dirty } := by
  induction l generalizing x with
  | nil => rfl
  | cons p l ih => exact ih _

/-- The bytes that were written stand in the line and are dirty there. -/
theorem L1Line.written_holds {x : L1Line} {cells : List Host.Cell} {strands : List Nat} (hlen : strands.length = cells.length)
    (hn : (cells.map (·.1 % 256)).Nodup) {b : Host.Cell} (hb : b ∈ cells) :
    (x.written (cells.zip strands)).bytes.get (b.1 % 256) 0 = b.2 ∧ (x.written (cells.zip strands)).dirty.has (b.1 % 256) = true := by
  have hfst : (cells.zip strands).map (·.1) = cells := List.map_fst_zip (by omega)
  have hkeys : ((cells.zip strands).map fun p => (p.1.1, p.2)).map (fun c => c.1 % 256) = cells.map (·.1 % 256) := by
    conv_rhs => rw [← hfst]
    simp only [List.map_map]
    rfl
  rw [L1Line.written_eq, hfst]
  constructor
  · rw [Tbl.get, Tbl.find_foldl_set cells (· % 256) x.bytes hn hb]
    rfl
  · obtain ⟨p, hp, rfl⟩ : ∃ p ∈ cells.zip strands, p.1 = b := by
      rw [← List.mem_map, hfst]
      exact hb
    have hmem := List.mem_map_of_mem (f := fun p : Host.Cell × Nat => (p.1.1, p.2)) hp
    rw [Tbl.has, Tbl.find_foldl_set _ (· % 256) x.dirty (hkeys ▸ hn) hmem]
    rfl

/-- A write into a line of an L1 area is found there. -/
theorem l1Write_line {s : State} {core pol : Nat} {c : Host.Cell} {l : List Host.Cell} {strands : List Nat}
    (hlen : strands.length = (c :: l).length) (hn : ((c :: l).map (·.1 % 256)).Nodup) :
    ∃ x, ((s.l1Write core (c :: l) strands pol).core core).line (lineOf c.1) = some x ∧
      ∀ b ∈ c :: l, x.bytes.get (b.1 % 256) 0 = b.2 ∧ x.dirty.has (b.1 % 256) = true := by
  obtain ⟨pa, byte⟩ := c
  let x0 : L1Line := { ((s.core core).line (lineOf pa)).getD (.empty (lineOf pa)) with pol := pol }
  let x1 : L1Line := x0.written (((pa, byte) :: l).zip strands)
  let x : L1Line := { x1 with poison := x1.poison.filter fun k => !((List.range 64).all fun b => ((pa, byte) :: l).any (·.1 % 256 = k * 64 + b)) }
  have hline : x.line = lineOf pa := by
    have h0 : x0.line = lineOf pa := by
      cases h : (s.core core).line (lineOf pa) with
      | none => simp [x0, h, L1Line.empty]
      | some y => simp [x0, h, Core.line_number h]
    simpa [x, x1, L1Line.written_eq] using h0
  refine ⟨x, ?_, fun b hb => L1Line.written_holds hlen hn hb⟩
  have hcore : (s.modCore core fun c => c.setLine x).core core = (s.core core).setLine x := by
    rw [State.core_modCore, if_pos rfl]
  have hkept := l1Trim_line (s.core core) hcore
  rw [hline] at hkept
  rw [← hkept]
  exact State.line_of_lines (State.wakeLine_lines ..) _ _

section
variable {s : State} {r : PendStore} {c : Host.Cell} {l : List Host.Cell} {k : Nat} {ks : List Nat}

/-- A store of a strand that may be performed is no write on its way, and leaves the list. -/
theorem storePerform_store (hfl : ∀ f ∈ s.flights, f.id ≠ r.id) (hf : s.stores.find? (·.id = r.id) = some r) (hb : r.bytes = c :: l)
    (hk : r.strands = k :: ks) (hmay : s.storeMay r c.1 = true) :
    let t : State := { s with stores := s.stores.filter (·.id ≠ r.id) }
    exec (.storePerform r.id) s = .next (if r.bypass then
        t.sendStore (t.l1Of k) r.home (some (waveBank (strandWave k))) r.bytes r.single r.exposes
      else (t.l1Write r.core r.bytes r.strands r.pol).exposeOf r.exposes) := by
  have hnone : s.flights.find? (·.id = r.id) = none := by
    rw [List.find?_eq_none]
    simpa using hfl
  rw [exec_storePerform, execStorePerform]
  refine eventStep_some ?_
  rw [hnone]
  cases hby : r.bypass <;> simp [hf, hb, hk, hmay, hby, guard]

end

/-! ### A write at its ordering point -/

section
variable {s : State}

@[simp] theorem State.wakeLine_flights (s : State) (pa : Nat) : (s.wakeLine pa).flights = s.flights := by
  have hwake (t : State) (c : Nat) : (t.wake c).flights = t.flights := by
    have h := congrArg State.flights (t.wake_rest c)
    exact h
  show (s.wakeWatches _).flights = s.flights
  exact (foldl_keeps State.flights hwake _ _).trans rfl

@[simp] theorem State.writeMasked_flights (s : State) (cells : List Host.Cell) : (s.writeMasked cells).flights = s.flights := by
  refine foldl_keeps State.flights (fun t k => ?_) _ _
  split <;> rfl

@[simp] theorem State.exposeOf_flights (s : State) (t : Option Nat) : (s.exposeOf t).flights = s.flights := by
  cases t <;> rfl

@[simp] theorem State.exposeOf_stores (s : State) (t : Option Nat) : (s.exposeOf t).stores = s.stores := by
  cases t <;> rfl

@[simp] theorem State.exposeOf_cores (s : State) (t : Option Nat) : (s.exposeOf t).cores = s.cores := by
  cases t <;> rfl

theorem performAt_writes (id home writer : Nat) (stamp : List Nat) (cells : List Host.Cell) :
    (s.performAt id home writer stamp cells).flights = s.flights ∧
      (s.performAt id home writer stamp cells).mem = Memory.writeAll s.mem (keyed cells) := by
  unfold State.performAt
  split
  · exact ⟨rfl, rfl⟩
  · constructor
    · simp [State.modDie, State.setDie]
    · simp [State.modDie, State.setDie, keyed]

theorem performNow_writes (id : Nat) (cells : List Host.Cell) :
    (s.performNow id cells).flights = s.flights ∧ (s.performNow id cells).mem = Memory.writeAll s.mem (keyed cells) := by
  refine ⟨?_, by rw [State.performNow_mem, State.pokeAll_mem, keyed]⟩
  unfold State.performNow
  split
  · rfl
  · split
    · exact (performAt_writes ..).1
    · simp

/-- A write that the order of its slice holds back. -/
theorem performFlight_held {f : Flight} (h : (s.olderFlight f || s.recalled f.line f.id f.core || s.olderAtSlice f.pa f.id) = true) :
    s.performFlight f = none := by
  unfold State.performFlight
  rw [if_pos h]

/-- One that nothing holds back leaves the list and writes its bytes. -/
theorem performFlight_writes {f : Flight} {home : Nat} (hhome : homeDie f.pa = some home)
    (h : (s.olderFlight f || s.recalled f.line f.id f.core || s.olderAtSlice f.pa f.id) = false)
    (hstamp : ∀ v, f.stamp = some v → applicable (s.die home).clock v (coreDie f.core) = true) :
    ∃ u, s.performFlight f = some u ∧ u.flights = s.flights.filter (·.id ≠ f.id) ∧
      u.mem = Memory.writeAll s.mem (keyed f.bytes) := by
  have hrest : ∃ t : State, t.flights = s.flights.filter (·.id ≠ f.id) ∧ t.mem = s.mem ∧
      s.performFlight f = match f.stamp with
        | none => some (t.performNow f.id f.bytes)
        | some v => if applicable (s.die home).clock v (coreDie f.core) then
            some (t.performAt f.id home (coreDie f.core) v f.bytes) else none := by
    refine ⟨((if f.single then ({ s with flights := s.flights.filter (·.id ≠ f.id) } : State).dropReplicas f.line
      else { s with flights := s.flights.filter (·.id ≠ f.id) }).noteRequest f.pa (coreCluster f.core)).exposeOf f.exposes, ?_, ?_, ?_⟩
    · rw [State.exposeOf_flights, State.noteRequest_flights]
      split <;> rfl
    · rw [State.exposeOf_mem, State.noteRequest_mem]
      split <;> rfl
    · unfold State.performFlight
      rw [if_neg (by rw [h]; exact Bool.false_ne_true), hhome] <;> rfl
  obtain ⟨t, htf, htm, hperf⟩ := hrest
  rw [hperf, ← htf, ← htm]
  cases hst : f.stamp with
  | none => exact ⟨_, rfl, performNow_writes ..⟩
  | some v => exact ⟨_, if_pos (hstamp v hst), performAt_writes ..⟩

end

theorem exec_storePerform_flight {s : State} {f : Flight} (hf : s.flights.find? (·.id = f.id) = some f) :
    exec (.storePerform f.id) s = eventStep s fun s => s.performFlight f := by
  rw [exec_storePerform, execStorePerform, eventStep, eventStep]
  simp only [hf]

/-- Settles O22: stores reach an L1 area or their ordering point, and lines leave. -/
theorem storesArrive : Obligations.StoresArrive := by
  refine ⟨⟨?_, ?_⟩, ?_, ?_⟩
  · intro s r c l k ks hfl hf hb hk hmay t
    have hgo := storePerform_store hfl hf hb hk hmay
    refine ⟨fun hby => by rw [hgo, if_pos hby], fun hby => ?_⟩
    intro u
    refine ⟨by rw [hgo, if_neg (by rw [hby]; exact Bool.false_ne_true)], ?_, ?_, fun hlen hn => ?_⟩
    · simp [u, t]
    · rw [State.exposeOf_stores]
      exact State.of_beneath (State.l1Write_beneath ..) State.stores fun _ => rfl
    · rw [hb] at hlen hn ⊢
      obtain ⟨x, hx, hall⟩ := l1Write_line (s := t) (core := r.core) (pol := r.pol) hlen hn
      refine ⟨x, ?_, hall⟩
      rw [State.core_congr (State.exposeOf_cores ..), hb]
      exact hx
  · intro s f home hf hne hhome held
    refine ⟨fun h => ?_, fun h hm hstamp => ?_⟩
    · rw [exec_storePerform_flight hf]
      exact eventStep_none (performFlight_held h)
    · obtain ⟨u, hu, hflights, hmem⟩ := performFlight_writes hhome h hstamp
      refine ⟨u, ?_, hflights, fun hn c hc => ?_, fun n hn => ?_⟩
      · rw [exec_storePerform_flight hf]
        exact eventStep_some hu
      · rw [hmem]
        have hkeys : (keyed f.bytes).map (·.1) = f.bytes.map (memKey ·.1) := by simp [keyed]
        exact Memory.read_writeAll_same hm (keyed f.bytes) (hkeys ▸ hn) (memKey c.1, c.2) (List.mem_map_of_mem hc)
      · rw [hmem]
        exact Memory.read_writeAll_other hm (keyed f.bytes) n (by simpa [keyed] using hn)
  · intro s core line x hx
    obtain ⟨fs, hfs, hbytes, hall⟩ := writeBack_flights true hx
    exact ⟨_, fs, l1Writeback_leaves hx, s.writeBack_dropped core line, s.writeBack_mem .., hfs, hbytes, hall⟩
  · exact fun l => ⟨flatten_splitBy sectorOf l, splitBy_run sectorOf l⟩

end Sys2Proof.Machine
end

section
/-!
PROOFS. Atomics of global memory: sent, on the store buffer, and at their ordering point (R129, R130, R290, R342, R347, R348).
-/

namespace Sys2Proof.Machine

open Sys2Proof.Safety

/-! ### An atomic of a lane -/

section
variable {s : State} {e : Env} {va pa : Nat} {op : AtomicOp} {after : List Nat} {applied inBuffer : Bool}

/-- What a request for an atomic says. -/
def AtomicOp.Asks (o : AtomicOp) (e : Env) (pa : Nat) (inBuffer : Bool) (x : Atomic) : Prop :=
  x.strand = e.key ∧ x.op = o.op ∧ x.size = o.size ∧ x.pa = pa ∧ x.x = o.x ∧ x.cmp = o.cmp ∧ x.ret = o.ret ∧ x.d = o.d ∧
  x.order = o.order ∧ x.scope = o.scope ∧ x.inBuffer = inBuffer ∧ x.orphan = false ∧ x.stamp = none ∧ x.done = none ∧
  x.exposes = if 3 ≤ o.scope then e.exposing else none

/-- The strand behind its atomic: its registers wait for the old value, a region begins, and an acquire waits in place. -/
def Env.atomicStrand (e : Env) (op : AtomicOp) (id : Nat) : Strand :=
  let st := (if op.ret then e.st.awaitMany id op.d (op.size / 4) else e.st).tick 1
  { st.startRegion st.pc with life := if op.order = 0 ∨ op.order = 2 then .ready else .waiting (.reply id) }

/-- An atomic that is entered is a request behind the others. -/
theorem atomicEnter_request (ha : Alone e) :
    ∃ x, op.Asks e pa inBuffer x ∧ x.after = after ∧ (e.atomicEnter s va pa op after applied inBuffer).mem = s.mem ∧
      (e.atomicEnter s va pa op after applied inBuffer).atomics = s.atomics ++ [x] ∧
      (e.atomicEnter s va pa op after applied inBuffer).strands = s.strands.set e.key (e.atomicStrand op x.id) := by
  refine ⟨_, ⟨rfl, rfl, rfl, rfl, rfl, rfl, rfl, rfl, rfl, rfl, rfl, rfl, rfl, rfl, rfl⟩, rfl, rfl, rfl, ?_⟩
  simp only [Env.atomicEnter, Env.atomicStrand, Env.offer_of_alone ha, Env.told_of_alone ha, ite_self]
  rfl

/-- The atomics stay where they are while the caches and the store buffer send what they hold. -/
theorem commit_atomics (s : State) (t : Nat) : (s.commit t).atomics = s.atomics := by
  unfold State.commit
  split
  · rfl
  · dsimp only
    split
    · rfl
    · exact State.of_beneath (State.sendStore_beneath ..) State.atomics fun _ => rfl

/-- What an atomic sends before it, after a contained team's commit (R290, R342, R348). -/
def Env.atomicSent (e : Env) (s : State) (op : AtomicOp) (pa : Nat) : State :=
  let c := if decide (3 ≤ op.scope) && e.isContained then s.commit e.wave.team else s
  let c := if decide (2 ≤ op.order) && decide (3 ≤ op.scope) then c.writeBackAll e.cores else c
  e.cores.foldl (fun s c => s.writeBack c (lineOf pa) true) c

theorem atomicSent_keeps (s : State) : (e.atomicSent s op pa).atomics = s.atomics ∧ (e.atomicSent s op pa).mem = s.mem := by
  have hat (t : State) (l : List Nat) : (t.writeBackAll l).atomics = t.atomics :=
    State.of_besideCaches (t.writeBackAll_besideCaches l) State.atomics fun _ => rfl
  have hbeside := writeBack_each_besideCaches
    (if decide (2 ≤ op.order) && decide (3 ≤ op.scope) then
      (if decide (3 ≤ op.scope) && e.isContained then s.commit e.wave.team else s).writeBackAll e.cores
      else if decide (3 ≤ op.scope) && e.isContained then s.commit e.wave.team else s) e.cores (lineOf pa) true
  unfold Env.atomicSent
  dsimp only
  rw [State.of_besideCaches hbeside State.atomics fun _ => rfl, State.of_besideCaches hbeside State.mem fun _ => rfl]
  constructor
  · split <;> split <;> simp [hat, commit_atomics]
  · split <;> split <;> simp

/-- An atomic whose own earlier accesses are out is sent behind what it orders and what its cores have sent of the line. -/
theorem atomicSend_enters (hown : e.s.ownHeld e.key pa op.size e.s.nextId = false) (hcopy : e.s.ownedByCopy (lineOf pa) = false)
    (hrel : 2 ≤ op.order → 3 ≤ op.scope → e.s.storesOf e.key = []) (hr : e.s.readsOutstanding e.key = false)
    (hc : e.isContained = true → 3 ≤ op.scope → e.s.storesOf e.key = [] ∧ e.s.allCompared e.wave.team = true) :
    ∃ after applied, e.atomicSend va pa op = .ok (e.atomicEnter (e.atomicSent e.s op pa) va pa op after applied false) := by
  have hwait : (!(decide (2 ≤ op.order) && decide (3 ≤ op.scope)) || decide (e.s.storesOf e.key = [])) = true := by
    by_cases h2 : 2 ≤ op.order <;> by_cases h3 : 3 ≤ op.scope <;> simp [h2, h3]
    exact hrel h2 h3
  by_cases hcon : (decide (3 ≤ op.scope) && e.isContained) = true
  · obtain ⟨h3, hcont⟩ : 3 ≤ op.scope ∧ e.isContained = true := by simpa using hcon
    obtain ⟨hst, hcomp⟩ := hc hcont h3
    have hpoint := commitPoint_ok hr hst fun _ => hcomp
    rw [if_pos hcont] at hpoint
    simp only [Env.atomicSend, hown, hcopy, hwait, hcon, hpoint, Env.atomicSent, bind, Except.bind, pure, Except.pure, require_true,
      Bool.not_false, Bool.and_self, if_true]
    exact ⟨_, _, rfl⟩
  · simp only [Env.atomicSend, hown, hcopy, hwait, hcon, Env.atomicSent, bind, Except.bind, pure, Except.pure, require_true,
      Bool.not_false, Bool.and_self]
    exact ⟨_, _, rfl⟩

/-- An atomic of a contained team at team scope or narrower acts on the store buffer. -/
theorem atomicBuffer_enters (hown : 2 ≤ op.order → e.s.ownOutstanding e.key = false) :
    e.atomicBuffer va pa op = .ok (e.atomicEnter e.s va pa op [] false true) := by
  have hwait : (!(decide (2 ≤ op.order) && e.s.ownOutstanding e.key)) = true := by
    by_cases h2 : 2 ≤ op.order <;> simp [h2]
    exact hown h2
  simp only [Env.atomicBuffer, hwait, bind, Except.bind, pure, Except.pure, require_true]

end

section
variable {s : State} {e : Env} {op : Nat} {q : BitVec 1} {d : BitVec 7} {h : BitVec 4} {a : BitVec 7} {y : BitVec 3} {r : HRec}
  {i : Word} {words : List (Word × Bool)} {va pa : Nat} (he : s.env = some e) (ha : Alone e)
  (hel : AtomicElement e op h a d r i words) (hk : hKind r = 0) (hl : e.locate r i.toNat 2 = .ok (.glob va))
  (ht : e.translate va 2 kAtomic = .ok pa)
include he ha hel hk hl ht

/-- An atomic that is sent. -/
theorem atomic_sent (hrel : 2 ≤ e.order → 3 ≤ accessScope y.toNat r → s.storesOf e.key = [])
    (hown : s.ownHeld e.key pa (hEsize r) s.nextId = false) (hcopy : s.ownedByCopy (lineOf pa) = false)
    (hc : e.isContained = true → 3 ≤ accessScope y.toNat r ∧ e.atomicPoisoned pa = false ∧ s.storesOf e.key = [] ∧
      s.allCompared e.wave.team = true) :
    ∃ after applied, exec (atomicInstr op q d h a y) s =
      .next (e.atomicEnter (e.atomicSent s (e.atomicOp op q d y r words) pa) va pa (e.atomicOp op q d y r words) after applied false) := by
  have hs := env_s he
  have hr : e.s.readsOutstanding e.key = false := hel.2.2.2.2.2.2.2.2
  obtain ⟨after, applied, hsend⟩ := atomicSend_enters (va := va) (op := e.atomicOp op q d y r words) (hs ▸ hown) (hs ▸ hcopy)
    (hs ▸ hrel) hr fun hcon _ => hs ▸ (hc hcon).2.2
  refine ⟨after, applied, ?_⟩
  rw [exec_atomicInstr hel.1]
  refine atom_global he ha hel (.inl hk) hl ht ?_
  rw [hs] at hsend
  cases hcon : e.isContained with
  | false => simpa using hsend
  | true =>
    obtain ⟨hwide, hclean, -⟩ := hc hcon
    simpa [hclean, Nat.not_le.mpr hwide] using hsend

/-- An atomic that acts on the store buffer. -/
theorem atomic_buffered (hcon : e.isContained = true) (hsc : accessScope y.toNat r ≤ 2)
    (hown : 2 ≤ e.order → s.ownOutstanding e.key = false) :
    exec (atomicInstr op q d h a y) s =
      .next (e.atomicEnter s va pa (e.atomicOp op q d y r words) [] false true) := by
  have hs := env_s he
  have henter := atomicBuffer_enters (va := va) (pa := pa) (op := e.atomicOp op q d y r words) (hs ▸ hown)
  rw [hs] at henter
  rw [exec_atomicInstr hel.1]
  refine atom_global he ha hel (.inl hk) hl ht ?_
  simpa [hcon, hsc] using henter

/-- An atomic that meets a poisoned element kills its contained team. -/
theorem atomic_dies (hcon : e.isContained = true) (hsc : 3 ≤ accessScope y.toNat r) (hp : e.atomicPoisoned pa = true) :
    exec (atomicInstr op q d h a y) s = .next (e.atomicDies pa) := by
  rw [exec_atomicInstr hel.1]
  refine atom_global he ha hel (.inl hk) hl ht ?_
  simp [hcon, Nat.not_le.mpr hsc, hp]

end

/-! ### The performance of a write -/

section
variable {P : State → Prop}

/-- What keeps a property in the performance of a write: that the wakes keep it, and that memory, poison and the dies' clocks and
updates do not matter to it. -/
structure PerformKeeps (P : State → Prop) : Prop where
  wakes : ∀ t pa, P t → P (t.wakeLine pa)
  bytes : ∀ t m p, P t → P { t with mem := m, poison := p }
  clocks : ∀ t d u, P t → P { t with dies := d, updates := u }

theorem writeMasked_eq (s : State) (cells : List Host.Cell) : ∃ m p, s.writeMasked cells = { s with mem := m, poison := p } := by
  have hclean (l : List Nat) (t : State) : ∃ p, (l.foldl (fun s k =>
      if (span (k * 64) 64).all fun a => cells.any (·.1 = a) then s.cleanSector (k * 64) else s) t) = { t with poison := p } := by
    induction l generalizing t with
    | nil => exact ⟨t.poison, rfl⟩
    | cons k l ih =>
      rw [List.foldl_cons]
      obtain ⟨p, hp⟩ := ih (if (span (k * 64) 64).all fun a => cells.any (·.1 = a) then t.cleanSector (k * 64) else t)
      refine ⟨p, hp.trans ?_⟩
      split <;> rfl
  obtain ⟨p, hp⟩ := hclean (dedup (cells.map fun c => sectorOf c.1)) (s.pokeAll cells)
  exact ⟨_, p, hp⟩

theorem PerformKeeps.performNow (h : PerformKeeps P) {s : State} (hs : P s) (id : Nat) (cells : List Host.Cell) :
    P (s.performNow id cells) := by
  have hwrite (t : State) (ht : P t) (pa : Nat) : P ((t.writeMasked cells).wakeLine pa) := by
    obtain ⟨m, p, hw⟩ := writeMasked_eq t cells
    rw [hw]
    exact h.wakes _ _ (h.bytes _ _ _ ht)
  unfold State.performNow
  cases cells with
  | nil => exact hs
  | cons c l =>
    dsimp only
    cases homeDie c.1 with
    | none => exact hwrite s hs _
    | some d =>
      have hstamped : P (s.stampWrite d).2 := h.clocks s _ s.updates hs
      exact h.clocks (((s.stampWrite d).2.writeMasked (c :: l)).wakeLine c.1) _ _ (hwrite _ hstamped c.1)

end

theorem performNow_strandIs {s : State} {k : Nat} {st : Strand} (hl : st.life ≠ .blocked .sleep) (hs : StrandIs k st s) (id : Nat)
    (cells : List Host.Cell) : StrandIs k st (s.performNow id cells) :=
  PerformKeeps.performNow (P := StrandIs k st) ⟨fun _ pa h => h.wakeLine pa hl, fun _ _ _ h => h, fun _ _ _ h => h⟩ hs id cells

@[simp] theorem performNow_units (s : State) (id : Nat) (cells : List Host.Cell) : (s.performNow id cells).units = s.units :=
  PerformKeeps.performNow (P := fun t => t.units = s.units)
    ⟨fun t pa h => (t.wakeLine_units pa).trans h, fun _ _ _ h => h, fun _ _ _ h => h⟩ rfl id cells

@[simp] theorem performNow_waves (s : State) (id : Nat) (cells : List Host.Cell) : (s.performNow id cells).waves = s.waves :=
  PerformKeeps.performNow (P := fun t => t.waves = s.waves)
    ⟨fun t pa h => (State.of_beneath (t.wakeLine_beneath pa) State.waves fun _ => rfl).trans h, fun _ _ _ h => h, fun _ _ _ h => h⟩
    rfl id cells

@[simp] theorem performNow_atomics (s : State) (id : Nat) (cells : List Host.Cell) : (s.performNow id cells).atomics = s.atomics :=
  PerformKeeps.performNow (P := fun t => t.atomics = s.atomics)
    ⟨fun t pa h => (State.of_beneath (t.wakeLine_beneath pa) State.atomics fun _ => rfl).trans h, fun _ _ _ h => h, fun _ _ _ h => h⟩
    rfl id cells

theorem clockGe_refl (v : List Nat) : clockGe v v = true := by
  simp [clockGe]

/-- An atomic's leaving, with what its acquire drops. -/
def State.atomicLeaves (t : State) (x : Atomic) : State :=
  let t : State := { t with atomics := t.atomics.filter (·.id ≠ x.id) }
  if (decide (x.order = 1) || decide (3 ≤ x.order)) && decide (3 ≤ x.scope) then t.dropClean (t.l1Of x.strand) else t

/-- The words that an atomic brings back. -/
def Atomic.answer (x : Atomic) (old : Dword) (poison : Bool) : List (Word × Bool) :=
  if x.ret then (valueWords x.size old).map fun w => (w, poison) else []

section
variable {s t : State} {x : Atomic} {old : Dword} {poison : Bool}

theorem finishAtomic_eq : t.finishAtomic x old poison =
    let u := (t.atomicLeaves x).deliver x.strand x.id x.d (x.answer old poison)
    if decide (x.order = 4) && decide (3 ≤ x.scope) && u.awaits (u.updates.map (·.id)) true then
      u.modStrand x.strand fun st => { st with life := .waiting (.settle (u.updates.map (·.id))) }
    else u := rfl

theorem atomicLeaves_besideCaches (t : State) (x : Atomic) :
    (t.atomicLeaves x).besideCaches = ({ t with atomics := t.atomics.filter (·.id ≠ x.id) } : State).besideCaches := by
  unfold State.atomicLeaves
  dsimp only
  split
  · exact State.dropClean_besideCaches ..
  · rfl

theorem atomicLeaves_units (t : State) (x : Atomic) : (t.atomicLeaves x).units = t.units := by
  unfold State.atomicLeaves
  dsimp only
  split
  · exact State.dropClean_units ..
  · rfl

/-- Beside its strand, an atomic that finishes has only left. -/
theorem finishAtomic_rest : ∃ l, t.finishAtomic x old poison = { t.atomicLeaves x with strands := l } := by
  rw [finishAtomic_eq]
  dsimp only
  split <;> exact ⟨_, rfl⟩

theorem finishAtomic_mem : (t.finishAtomic x old poison).mem = t.mem := by
  obtain ⟨l, hl⟩ := finishAtomic_rest (t := t) (x := x) (old := old) (poison := poison)
  rw [hl]
  exact State.of_besideCaches (atomicLeaves_besideCaches t x) State.mem fun _ => rfl

theorem finishAtomic_atomics : (t.finishAtomic x old poison).atomics = t.atomics.filter (·.id ≠ x.id) := by
  obtain ⟨l, hl⟩ := finishAtomic_rest (t := t) (x := x) (old := old) (poison := poison)
  rw [hl]
  exact State.of_besideCaches (atomicLeaves_besideCaches t x) State.atomics fun _ => rfl

/-- Something waits for the updates on their way where there is one. -/
theorem awaits_updates (u : State) :
    u.awaits (u.updates.map (·.id)) true = true ↔ u.updates ≠ [] := by
  cases hu : u.updates with
  | nil => simp [State.awaits, hu]
  | cons v l => simp [State.awaits, hu]

theorem deliver_find {k id d : Nat} {words : List (Word × Bool)} (hu : t.units = s.units) (hw : t.waves = s.waves)
    (hst : t.strands.find k = s.strands.find k) : (t.deliver k id d words).strands.find k = (s.deliver k id d words).strands.find k := by
  unfold State.deliver
  rw [State.produced_congr hw hu, State.modStrand, State.modStrand, Tbl.find_change_same, Tbl.find_change_same, hst]

/-- The strand of an atomic when its old value arrives, and, behind one of order .sc, waits for the updates on their way. -/
theorem finishAtomic_strand (hu : t.units = s.units) (hw : t.waves = s.waves) (hst : t.strands.find x.strand = s.strands.find x.strand) :
    let u := t.finishAtomic x old poison
    let got := (s.deliver x.strand x.id x.d (x.answer old poison)).strands.find x.strand
    u.strands.find x.strand = if x.order = 4 ∧ 3 ≤ x.scope ∧ u.updates ≠ [] then
      got.map fun st => { st with life := .waiting (.settle (u.updates.map (·.id))) } else got := by
  intro u got
  have hbeside := atomicLeaves_besideCaches t x
  have hgot : ((t.atomicLeaves x).deliver x.strand x.id x.d (x.answer old poison)).strands.find x.strand = got :=
    deliver_find ((atomicLeaves_units t x).trans hu) ((State.of_besideCaches hbeside State.waves fun _ => rfl).trans hw)
      ((congrArg (Tbl.find · x.strand) (State.of_besideCaches hbeside State.strands fun _ => rfl)).trans hst)
  have heq : u = _ := finishAtomic_eq
  revert heq hgot
  generalize (t.atomicLeaves x).deliver x.strand x.id x.d (x.answer old poison) = v
  intro hgot heq
  simp only [Bool.and_eq_true, decide_eq_true_eq, awaits_updates v, and_assoc] at heq
  rw [heq]
  by_cases hsc : x.order = 4 ∧ 3 ≤ x.scope ∧ v.updates ≠ []
  · simp only [if_pos hsc, State.modStrand, Tbl.find_change_same, hgot]
  · simp only [if_neg hsc, hgot]

end

/-! ### An atomic at its ordering point -/

@[simp] theorem State.takeClean_dies (s : State) (cores : List Nat) (line : Nat) : (s.takeClean cores line).dies = s.dies :=
  foldl_keeps State.dies (fun t c => (rfl : (t.modCore c _).dies = t.dies)) _ _

@[simp] theorem State.exposeOf_dies (s : State) (t : Option Nat) : (s.exposeOf t).dies = s.dies := by
  cases t <;> rfl

/-- What the exposure of a team leaves of the machine. -/
theorem State.exposeOf_rest (s : State) (t : Option Nat) : ∃ l, s.exposeOf t = { s with teams := l } := by
  cases t with
  | none => exact ⟨s.teams, rfl⟩
  | some n => exact ⟨_, rfl⟩

/-- Bytes that stand in memory as written are read back. -/
theorem peek_written {s u : State} {pa n : Nat} {bytes : List Byte} (hs : MemoryOk s)
    (hu : u.mem = Memory.writeAll s.mem (keyed (Machine.place pa bytes))) (hlen : bytes.length = n)
    (hn : ((span pa n).map memKey).Nodup) : u.peek pa n = bytes := by
  subst hlen
  have hmem : u.mem = (s.storeBytes 0 pa bytes).mem := hu.trans (State.storeBytes_mem ..).symm
  rw [State.peek, hmem]
  exact State.peek_storeBytes 0 pa bytes hs hn

section
variable {s : State} {x : Atomic}

theorem exec_atomicPerform_sent {u : State} (hf : s.atomics.find? (·.id = x.id) = some x) (hd : x.done = none)
    (hb : x.inBuffer = false) (hhome : homeDie x.pa = some (coreDie x.core)) (haw : s.awaits x.after x.applied = false)
    (hg : x.granted = true) (hrec : s.recalled (lineOf x.pa) x.id x.core = false) (hold : s.olderAtSlice x.pa x.id = false)
    (hu : s.atomicAtPoint x = some u) : exec (.atomicPerform x.id) s = .next u := by
  rw [exec_atomicPerform, execAtomicPerform]
  exact eventStep_some (by simp [hf, hd, hb, hhome, haw, hg, hrec, hold, hu, guard])

/-- The bytes that an atomic writes. -/
def Atomic.cells (x : Atomic) (old : Dword) : List Host.Cell :=
  Machine.place x.pa (toBytes x.size (atomicNew x.op x.isFloat x.size old x.x x.cmp).toNat)

/-- A clean element at its own die's ordering point: the bytes are written, and the atomic finishes with the old value. -/
theorem atomicAtPoint_own (hst : x.stamp = none) (ho : x.orphan = false) (hhome : homeDie x.pa = some (coreDie x.core))
    (hp : s.poisonedAt x.pa = false) :
    let old : Dword := .ofNat 64 (s.peekNum x.pa x.size)
    ∃ t : State, t.besideCaches = s.besideCaches ∧ t.units = s.units ∧
      let w := t.performNow x.id (x.cells old)
      s.atomicAtPoint x = some (((w.takeClean (w.l1Of x.strand) (lineOf x.pa)).exposeOf x.exposes).finishAtomic x old false) := by
  refine ⟨(if s.revisionOf x.strand = 1 && 2 ≤ x.order && x.scope = 5 then s.dropReplicas (lineOf x.pa) else s).noteRequest x.pa
    (coreCluster x.core), ?_, ?_, ?_⟩
  · rw [State.noteRequest_besideCaches]
    split
    · rfl
    · rfl
  · rw [State.noteRequest_units]
    split
    · rfl
    · rfl
  · unfold State.atomicAtPoint State.performAtomic
    simp only [hst, ho, hhome, hp, bind, Option.bind, Bool.false_and, Bool.false_eq_true, if_false]
    rw [if_pos]
    · rfl
    · rw [State.die, State.exposeOf_dies, State.takeClean_dies]
      exact clockGe_refl _

/-- What the performance of a clean element leaves: its atomic gone, its bytes written, its strand answered. -/
theorem atomicAtPoint_leaves {t : State} (hbeside : t.besideCaches = s.besideCaches) (hunits : t.units = s.units) (old : Dword) :
    let w := t.performNow x.id (x.cells old)
    let v := (w.takeClean (w.l1Of x.strand) (lineOf x.pa)).exposeOf x.exposes
    v.atomics = s.atomics ∧ v.mem = Memory.writeAll s.mem (keyed (x.cells old)) ∧ v.waves = s.waves ∧ v.units = s.units ∧
      ∀ st, s.strands.find x.strand = some st → st.life ≠ .blocked .sleep → v.strands.find x.strand = some st := by
  intro w v
  obtain ⟨l, hl⟩ := State.exposeOf_rest (w.takeClean (w.l1Of x.strand) (lineOf x.pa)) x.exposes
  have hclean := w.takeClean_besideCaches (w.l1Of x.strand) (lineOf x.pa)
  have hcaches {β : Type} (g : State → β) (hg : ∀ u : State, g u.besideCaches = g u) : g t = g s := State.of_besideCaches hbeside g hg
  unfold v
  rw [hl]
  refine ⟨?_, ?_, ?_, ?_, fun st hst hlife => ?_⟩
  · exact (State.of_besideCaches hclean State.atomics fun _ => rfl).trans ((performNow_atomics ..).trans (hcaches State.atomics fun _ => rfl))
  · refine (State.of_besideCaches hclean State.mem fun _ => rfl).trans ((performNow_writes ..).2.trans ?_)
    rw [hcaches State.mem fun _ => rfl]
  · exact (State.of_besideCaches hclean State.waves fun _ => rfl).trans ((performNow_waves ..).trans (hcaches State.waves fun _ => rfl))
  · exact (w.takeClean_units ..).trans ((performNow_units ..).trans hunits)
  · have hstrands := State.of_besideCaches hclean State.strands fun _ => rfl
    have hst' : StrandIs x.strand st t := (congrArg (Tbl.find · x.strand) (hcaches State.strands fun _ => rfl)).trans hst
    exact (performNow_strandIs hlife hst' x.id (x.cells old)).same hstrands

end

/-- Settles O23: an atomic is sent, acts on the store buffer or kills its team, and is performed at its ordering point. -/
theorem globalAtomics : Obligations.GlobalAtomics := by
  refine ⟨?_, ?_, ?_⟩
  · intro s e op q d h a y r i words va pa he ha hel hk hl ht scope enters
    have hent {inBuffer : Bool} {t : State} {after : List Nat} {applied : Bool} (ht : t.atomics = s.atomics ∧ t.mem = s.mem)
        (hafter : inBuffer = true → after = [])
        (hexec : exec (atomicInstr op q d h a y) s =
          .next (e.atomicEnter t va pa (e.atomicOp op q d y r words) after applied inBuffer)) : enters inBuffer := by
      obtain ⟨x, ⟨h1, h2, h3, h4, h5, h6, h7, h8, h9, h10, h11, h12, h13, h14, h15⟩, hxafter, hmem, hatomics, hstrands⟩ :=
        atomicEnter_request (s := t) (va := va) (pa := pa) (op := e.atomicOp op q d y r words) (after := after)
          (applied := applied) (inBuffer := inBuffer) ha
      refine ⟨_, x, hexec, hmem.trans ht.2, by rw [hatomics, ht.1], h1, h2, h3, h4, h5, h6, h7, h8, h9, h10, h11, h12, h13, h14,
        h15, fun hb => hxafter.trans (hafter hb), ?_⟩
      rw [hstrands, Tbl.find_set_same]
      simp [Env.atomicStrand, Env.atomicOp]
      rfl
    refine ⟨fun hrel hown hcopy hc => ?_, fun hcon hsc hown => ?_, atomic_dies he ha hel hk hl ht⟩
    · obtain ⟨after, applied, hexec⟩ := atomic_sent he ha hel hk hl ht hrel hown hcopy hc
      exact hent (atomicSent_keeps s) (fun h => absurd h Bool.false_ne_true) hexec
    · exact hent ⟨rfl, rfl⟩ (fun _ => rfl) (atomic_buffered he ha hel hk hl ht hcon hsc hown)
  · intro s x hm hf hd hst hb ho hhome haw hg hrec hold hp hn old
    obtain ⟨t, hbeside, hunits, hpoint⟩ := atomicAtPoint_own hst ho hhome hp
    obtain ⟨hatomics, hmem, hwaves, hvunits, hstrand⟩ := atomicAtPoint_leaves (x := x) hbeside hunits old
    refine ⟨_, exec_atomicPerform_sent hf hd hb hhome haw hg hrec hold hpoint, ?_, ?_, fun n hn => ?_, fun st hst hlife => ?_⟩
    · rw [finishAtomic_atomics, hatomics]
    · exact peek_written hm (finishAtomic_mem.trans hmem) (length_toBytes ..) hn
    · rw [finishAtomic_mem, hmem]
      exact Memory.read_writeAll_other hm _ n (by rwa [Atomic.cells, keyed_place_fst, length_toBytes])
    · exact finishAtomic_strand hvunits hwaves ((hstrand st hst hlife).trans hst.symm)
  · intro s t x b hf hd hb hg haw hold hread hfits old
    rw [exec_atomicPerform, execAtomicPerform]
    exact eventStep_some (by simp [hf, hd, hb, hg, haw, hold, hread, hfits, State.atomicInBuffer, old, guard])

end Sys2Proof.Machine
end

section
/-!
PROOFS. What stores, fences, cache operations, copies and COMMIT leave unchanged: memory, every other strand, and the newest values
of their own (R125, R133, R134, R290, R292).
-/

namespace Sys2Proof.Machine

open Sys2Proof.Safety

/-! ### Memory, and the strands but for their life -/

/-- Memory, and the strands without what wakes may change of them. -/
def State.lasting (s : State) : List Host.Cell × Tbl Strand := (s.mem, s.strands.mapVal fun _ st => st.beyondLife)

section
variable (s : State)

theorem State.lasting_of_beneath {s t : State} (h : t.beneath = s.beneath) : t.lasting = s.lasting :=
  congrArg (fun u : State => (u.mem, u.strands)) h

theorem State.lasting_of_besideCaches {s t : State} (h : t.besideCaches = s.besideCaches) : t.lasting = s.lasting :=
  State.lasting_of_beneath (State.beneath_of_besideCaches h)

@[simp] theorem State.commit_lasting (t : Nat) : (s.commit t).lasting = s.lasting := by
  unfold State.commit
  split
  · rfl
  · split
    · rfl
    · exact (State.lasting_of_beneath (State.sendStore_beneath ..)).trans rfl

@[simp] theorem State.bufferStore_lasting (t pa : Nat) (bytes : List Byte) : (s.bufferStore t pa bytes).lasting = s.lasting := by
  unfold State.bufferStore
  split
  · rfl
  · refine (State.lasting_of_beneath (State.wakeLine_beneath ..)).trans ?_
    split
    · exact s.commit_lasting t
    · rfl

@[simp] theorem State.addStore_lasting (n : PendStore) : (s.addStore n).lasting = s.lasting := by
  unfold State.addStore
  split
  · rfl
  · split <;> rfl

@[simp] theorem State.scratchWrite_lasting (team off : Nat) (l : Marked) : (s.scratchWrite team off l).lasting = s.lasting :=
  (State.lasting_of_beneath (State.wakeLocal_beneath ..)).trans rfl

@[simp] theorem State.prefetchLine_lasting (strand issue asid level pol va pa : Nat) :
    (s.prefetchLine strand issue asid level pol va pa).lasting = s.lasting := by
  unfold State.prefetchLine
  dsimp only
  split
  · rfl
  · refine foldl_keeps State.lasting (fun t j => ?_) _ _
    rfl

@[simp] theorem State.takeLine_lasting (cores : List Nat) (line : Nat) : (s.takeLine cores line).lasting = s.lasting :=
  State.lasting_of_besideCaches (writeBack_each_besideCaches ..)

/-- A copy's entry in the queue of its engine, and the arm of its tag. -/
theorem State.copyQueued_lasting (arm : Bool) (b n : Nat) (f : Bank → Bank) (x : CopyTag) :
    (if arm = true then (s.fresh.2.modBank b f).setTag b n x else s.fresh.2.modBank b f).lasting = s.lasting := by
  split <;> rfl

theorem commitPoint_lasting {e : Env} : Act.Gives (fun t => t.lasting = s.lasting) (e.commitPoint s) := by
  unfold Env.commitPoint
  split
  · exact .error
  · split
    · split
      · exact .ok (s.commit_lasting _)
      · exact .error
    · exact .ok rfl

/-- A commit point where one is needed, and what follows it. -/
theorem commitPoint_lasting_then {e : Env} {P : State → Prop} {c : Prop} [Decidable c] {f : State → Act State}
    (hf : ∀ t, t.lasting = s.lasting → Act.Gives P (f t)) :
    Act.Gives P (if c then e.commitPoint s >>= f else f s) := by
  split
  · exact (commitPoint_lasting s).bind hf
  · exact hf s rfl

end

/-! ### The frame of a lane -/

/-- What an access keeps of its own strand. -/
structure Strand.Steady (st t : Strand) : Prop where
  fstat : t.fstat = st.fstat
  faultCode : t.faultCode = st.faultCode
  faultPc : t.faultPc = st.faultPc
  faultVa : t.faultVa = st.faultVa
  newest : ∀ d x, writable d = true → newest st d = some x → newest t d = some x

theorem Strand.Steady.trans {a b c : Strand} (h : a.Steady b) (k : b.Steady c) : a.Steady c :=
  ⟨k.fstat.trans h.fstat, k.faultCode.trans h.faultCode, k.faultPc.trans h.faultPc, k.faultVa.trans h.faultVa,
    fun d x hd hx => k.newest d x hd (h.newest d x hd hx)⟩

theorem Strand.steady_tick (st : Strand) (k : Nat) : st.Steady (st.tick k) :=
  have h := st.rest_tick k
  ⟨(congrArg Strand.fstat h :), (congrArg Strand.faultCode h :), (congrArg Strand.faultPc h :), (congrArg Strand.faultVa h :),
    fun _ _ hd hx => newest_tick hd hx k⟩

theorem Strand.steady_drain (st : Strand) : st.Steady st.drain :=
  have h := st.rest_drain
  ⟨(congrArg Strand.fstat h :), (congrArg Strand.faultCode h :), (congrArg Strand.faultPc h :), (congrArg Strand.faultVa h :),
    fun _ _ hd hx => newest_drain hd hx⟩

/-- The start of a region drains. -/
theorem Strand.steady_startRegion (st : Strand) (pc : VAddr) : st.Steady (st.startRegion pc) :=
  st.steady_drain.trans ⟨rfl, rfl, rfl, rfl, fun _ _ _ h => h⟩

theorem Strand.steady_of_beyondLife {st t : Strand} (h : t.beyondLife = st.beyondLife) : st.Steady t :=
  ⟨(congrArg Strand.fstat h :), (congrArg Strand.faultCode h :), (congrArg Strand.faultPc h :), (congrArg Strand.faultVa h :),
    fun d _ _ hx => (congrArg (newest · d) h :).trans hx⟩

/-- The frame of an access: memory, every other strand but for its life, and its own strand's values. -/
structure Env.Framed (e : Env) (s u : State) : Prop where
  mem : u.mem = s.mem
  others : ∀ k, k ≠ e.key → (u.strands.find k).map Strand.beyondLife = (s.strands.find k).map Strand.beyondLife
  own : ∃ t, u.strands.find e.key = some t ∧ e.st.Steady t

section
variable {s t u : State} {e : Env}

theorem find_of_lasting (h : t.lasting = s.lasting) (k : Nat) :
    (t.strands.find k).map Strand.beyondLife = (s.strands.find k).map Strand.beyondLife := by
  have := congrArg (fun p : List Host.Cell × Tbl Strand => p.2.find k) h
  simpa [State.lasting, Tbl.find_mapVal] using this

/-- A lane that puts its strand back over what keeps memory and the strands. -/
theorem Env.Framed.put {st : Strand} (h : t.lasting = s.lasting) (hst : e.st.Steady st) : e.Framed s (t.setStrand e.key st) where
  mem := congrArg Prod.fst h
  others k hk := (congrArg (Option.map _) (Tbl.find_set_other _ _ hk)).trans (find_of_lasting h k)
  own := ⟨st, Tbl.find_set_same .., hst⟩

theorem Env.Framed.retire (h : t.lasting = s.lasting) : e.Framed s (e.retire t e.st) := .put h (e.st.steady_tick 1)

theorem Env.Framed.retireRegion (h : t.lasting = s.lasting) : e.Framed s (e.retireRegion t e.st) :=
  .put h ((e.st.steady_tick 1).trans (Strand.steady_startRegion _ _))

/-- What wakes strands keeps the frame. -/
theorem Env.Framed.then (hf : e.Framed s t) (h : u.lasting = t.lasting) : e.Framed s u where
  mem := (congrArg Prod.fst h).trans hf.mem
  others k hk := (find_of_lasting h k).trans (hf.others k hk)
  own := by
    obtain ⟨x, hx, hst⟩ := hf.own
    have hfind := find_of_lasting h e.key
    rw [hx] at hfind
    obtain ⟨y, hy, hlife⟩ := Option.map_eq_some_iff.mp hfind
    exact ⟨y, hy, hst.trans (Strand.steady_of_beyondLife hlife)⟩

theorem Env.Framed.same (hf : e.Framed s t) : e.Framed s (t.modStrand e.key fun st => st) where
  mem := hf.mem
  others k hk := (congrArg (Option.map _) (Tbl.find_change_other _ _ hk)).trans (hf.others k hk)
  own := by
    obtain ⟨x, hx, hst⟩ := hf.own
    exact ⟨x, (Tbl.find_change_same ..).trans (congrArg (Option.map _) hx), hst⟩

/-- What the frame says of a strand that is not the lane's own. -/
theorem Env.Framed.strand {k : Nat} {st : Strand} (hf : e.Framed s u) (hk : k ≠ e.key) (hs : s.strands.find k = some st) :
    ∃ t, u.strands.find k = some t ∧ t.beyondLife = st.beyondLife := by
  have h := hf.others k hk
  rw [hs] at h
  exact Option.map_eq_some_iff.mp h

end

/-- A lane's instruction stops, or gives what its meaning gives. -/
theorem runLane_gives {s u : State} {e : Env} {f : Env → Act State} {P : State → Prop} (he : s.env = some e) (hf : Act.Gives P (f e))
    (h : runLane s f = .next u) : (∃ x, u = s.stop e x) ∨ P u := by
  unfold runLane at h
  simp only [he] at h
  split at h
  · next t ht =>
    cases h
    exact .inr (hf _ ht)
  · next x _ =>
    cases h
    exact .inl ⟨x, rfl⟩

/-! ### The instructions -/

section
variable {s : State} {e : Env} (he : e.s = s) (ha : Alone e)
include he

theorem storeGlobal_framed {va pa : Nat} {bytes : List Byte} {scope pol : Nat} {release : Bool} :
    Act.Gives (e.Framed s) (e.storeGlobal va pa bytes scope pol release) := by
  have hfin : ∀ t : State, t.lasting = s.lasting → e.Framed s (if scope = 6 then e.retireRegion t e.st else e.retire t e.st) := by
    intro t ht
    split
    · exact .retireRegion ht
    · exact .retire ht
  have hnote : (if pol = 3 then e.s else e.s.noteAccess e.lane 1 bytes.length va false).lasting = s.lasting := by
    rw [he]
    split <;> rfl
  unfold Env.storeGlobal
  dsimp only
  split
  · exact .any fun _ => .any fun _ => .ok (hfin _ ((State.bufferStore_lasting ..).trans hnote))
  · refine commitPoint_lasting_then _ fun t ht => .ok (hfin _ ((State.addStore_lasting ..).trans ?_))
    split
    · exact (State.lasting_of_besideCaches (State.writeBackAll_besideCaches ..)).trans (ht.trans hnote)
    · exact ht.trans hnote

/-- A store into local space that reaches no register area. -/
theorem storeLocal_framed {loc : Loc} (hloc : ∀ off, loc ≠ .area off) (data : Marked) : e.Framed s (e.storeLocal loc data) := by
  have hput : e.Framed s ((e.s.noteAccess e.lane 0 data.length loc.counted false).setStrand e.key (e.st.tick 1)) :=
    .put (by rw [he]; rfl) (e.st.steady_tick 1)
  unfold Env.storeLocal
  cases loc with
  | area off => exact absurd rfl (hloc off)
  | scratch off => exact hput.then (State.scratchWrite_lasting ..)
  | clamped => exact hput
  | glob va => exact hput

theorem cacheOp_framed {h : BitVec 4} {a : BitVec 7} {scope : BitVec 3} {drop : Bool} {u : State} (hs : s.env = some e)
    (hu : cacheOp s h a scope drop = .next u) : (∃ x, u = s.stop e x) ∨ e.Framed s u := by
  refine runLane_gives hs (.any fun _ => .any fun r => .any fun _ => .any fun _ => ?_) hu
  dsimp only
  split
  · exact .ok (.retire (congrArg State.lasting he))
  · refine .any fun loc => ?_
    split
    · refine .any fun _ => .any fun _ => .any fun _ => .ok (.retire ?_)
      split
      · exact (State.lasting_of_besideCaches (writeBack_each_besideCaches ..)).trans (congrArg State.lasting he)
      · exact (State.lasting_of_besideCaches (writeBack_each_besideCaches ..)).trans (congrArg State.lasting he)
    · exact .any fun _ => .ok (.retire (congrArg State.lasting he))

theorem prefetch_lasting (r : HRec) (i level : Nat) : (e.prefetch r i level).lasting = s.lasting := by
  unfold Env.prefetch
  subst he
  split
  · split
    · exact State.prefetchLine_lasting ..
    · unfold State.askWalk
      split <;> rfl
    · rfl
  · rfl

theorem pref_framed {h : BitVec 4} {a : BitVec 7} {y : BitVec 3} {u : State} (hs : s.env = some e)
    (hu : execPref h a y s = .next u) : (∃ x, u = s.stop e x) ∨ e.Framed s u := by
  refine runLane_gives hs (.any fun _ => .any fun r => .any fun _ => ?_) hu
  split
  · exact .ok (.retire (prefetch_lasting he _ _ _))
  · exact .ok (.retire (congrArg State.lasting he))
  · exact .ok (.retire (congrArg State.lasting he))
  · exact .error

include ha

theorem store_framed {x : BitVec 7} {h : BitVec 4} {a : BitVec 7} {field : BitVec 3} {release : Bool} {u : State}
    (hs : s.env = some e) (hkind : ∀ n r, e.hReg n = .ok r → hKind r ≠ 2) (hu : store s x h a field release = .next u) :
    (∃ x, u = s.stop e x) ∨ e.Framed s u := by
  refine runLane_gives hs (.any fun _ => ?_) hu
  refine Act.Gives.bind (P := fun r => hKind r ≠ 2) (fun r hr => hkind _ r hr) fun r hr => .any fun _ => .any fun _ => ?_
  refine Act.Gives.bind (P := (· = e)) (fun f hf => (Except.ok.inj ((areaDrained_other hr).symm.trans hf)).symm) fun f hf => ?_
  subst hf
  refine .any fun p => .any fun _ => Act.Gives.bind (P := fun l => f.locate r p.1.1.toNat 1 = .ok l) (fun _ h => h) fun loc hloc => ?_
  dsimp only
  simp only [Env.once_of_alone ha, Env.compared_of_alone ha, Env.told_of_alone ha]
  split
  · exact .any fun _ => .ok (.retire (congrArg State.lasting he))
  · split
    · refine .map (.any fun _ => .any fun _ => (storeGlobal_framed he).imp fun t ht => ht.same)
    · exact .any fun _ => .any fun _ => storeGlobal_framed he
  · exact .any fun _ => .any fun _ => .ok (storeLocal_framed he (fun off h => hr (located_area (h ▸ hloc))) _)

theorem fence_framed {kind : Nat} {scope : BitVec 3} {u : State} (hs : s.env = some e) (hu : fence s kind scope = .next u) :
    (∃ x, u = s.stop e x) ∨ e.Framed s u := by
  have hend : ∀ (t : State) (told : Bool), t.lasting = s.lasting → e.Framed s (e.fenceEnd t kind scope.toNat told) := by
    intro t told ht
    unfold Env.fenceEnd
    simp only [Env.told_of_alone ha, ite_self]
    refine .retire ?_
    split
    · refine (State.lasting_of_besideCaches (State.dropClean_besideCaches ..)).trans ?_
      split
      · exact ht
      · exact ht
    · split
      · exact ht
      · exact ht
  refine runLane_gives hs ?_ hu
  dsimp only
  simp only [Env.once_of_alone ha]
  split
  · exact .any fun _ => .ok (hend _ _ (congrArg State.lasting he))
  · rw [ite_self]
    refine .any fun _ => ?_
    split
    · exact .ok (hend _ _ (congrArg State.lasting he))
    · refine commitPoint_lasting_then _ fun t ht => ?_
      have hsent : (if 3 ≤ scope.toNat then t.writeBackAll e.cores else t).lasting = s.lasting := by
        rw [← he]
        split
        · exact (State.lasting_of_besideCaches (State.writeBackAll_besideCaches ..)).trans ht
        · exact ht
      split
      · exact .ok (hend _ _ hsent)
      · exact .ok (.put hsent ⟨rfl, rfl, rfl, rfl, fun _ _ _ h => h⟩)

theorem enterCopy_framed {op : CopyOp} {hs hd : HRec} {tag : Nat} {arm : Bool} :
    Act.Gives (e.Framed s) (e.enterCopy op hs hd tag arm) := by
  unfold Env.enterCopy
  dsimp only
  rw [Env.told_of_alone ha]
  have hlines (t : State) (l : List (Nat × Nat)) : (l.foldl (fun s x => s.takeLine e.cores x.1) t).lasting = t.lasting :=
    foldl_keeps State.lasting (fun t x => t.takeLine_lasting e.cores x.1) l t
  refine .any fun _ => .bindIf (P := fun t => t.lasting = s.lasting) (.ok (congrArg State.lasting he))
    ((commitPoint_lasting _).imp fun t ht => ht.trans (congrArg State.lasting he)) fun t ht => .ok (.retireRegion ?_)
  have hexpose : (if (!decide (hKind hd = kLocal) && e.isContained) = true then t.expose e.wave.team else t).lasting = s.lasting := by
    split
    · exact ht
    · exact ht
  exact (State.copyQueued_lasting ..).trans ((hlines _ _).trans hexpose)

theorem copy_framed {kind : Nat} {g : BitVec 6} {d h : BitVec 4} {a : BitVec 7} {m : BitVec 1} {u : State} (hs : s.env = some e)
    (hu : copy s kind g d h a m = .next u) : (∃ x, u = s.stop e x) ∨ e.Framed s u := by
  refine runLane_gives hs (.any fun _ => .any fun _ => .any fun tag => .any fun _ => .any fun _ => .any fun _ => .any fun words =>
    .any fun _ => ?_) hu
  rw [Env.once_of_alone ha]
  dsimp only
  split <;> (refine .any fun desc => ?_; split <;> exact .any fun _ => .any fun _ => enterCopy_framed he ha)

theorem commit_framed {u : State} (hs : s.env = some e) (hu : execCommit s = .next u) : (∃ x, u = s.stop e x) ∨ e.Framed s u := by
  refine runLane_gives hs ?_ hu
  simp only [Env.once_of_alone ha, Env.told_of_alone ha]
  split
  · exact .map ((commitPoint_lasting _).imp fun t ht => .retire (ht.trans (congrArg State.lasting he)))
  · exact .ok (.retire (congrArg State.lasting he))

end

/-- An access runs as the operation of its kind. -/
theorem accesses_framed {s u : State} {e : Env} {i : Instr} (hs : s.env = some e) (ha : Alone e) (hi : accesses i = true)
    (hkind : ∀ n r, e.hReg n = .ok r → hKind r ≠ 2) (hu : exec i s = .next u) : (∃ x, u = s.stop e x) ∨ e.Framed s u := by
  have he := env_s hs
  cases i with
  | st => exact store_framed he ha hs hkind hu
  | strel => exact store_framed he ha hs hkind hu
  | fenceAcq => exact fence_framed he ha hs hu
  | fenceRel => exact fence_framed he ha hs hu
  | fenceAr => exact fence_framed he ha hs hu
  | fenceSc => exact fence_framed he ha hs hu
  | cwb => exact cacheOp_framed he hs hu
  | cinv => exact cacheOp_framed he hs hu
  | pref => exact pref_framed he hs hu
  | cpy => exact copy_framed he ha hs hu
  | tcpy => exact copy_framed he ha hs hu
  | chain => exact copy_framed he ha hs hu
  | commit => exact commit_framed he ha hs hu
  | _ => cases hi

/-- Settles O53: an access puts its strand back over what it sends, and sends nothing to memory. -/
theorem memoryFrame : Obligations.MemoryFrame := by
  intro s u e i hs ha hi hkind hu
  obtain hstop | hf := accesses_framed hs ha hi hkind hu
  · exact .inl hstop
  · refine .inr ⟨fun n => by rw [hf.mem], fun k st hk hst => ?_, ?_⟩
    · obtain ⟨t, ht, hlife⟩ := hf.strand hk hst
      exact ⟨t, ht, (congrArg Strand.regs hlife :), (congrArg Strand.preds hlife :), (congrArg Strand.window hlife :), (congrArg Strand.pc hlife :),
        (congrArg Strand.fstat hlife :), (congrArg Strand.handler hlife :)⟩
    · obtain ⟨t, ht, h⟩ := hf.own
      exact ⟨t, ht, h.fstat, h.faultCode, h.faultPc, h.faultVa, h.newest⟩

end Sys2Proof.Machine
end

section
/-!
PROOFS. A team's scratch, and what a write of it leaves to be read (R120, R125, R127, R201).
-/

namespace Sys2Proof.Machine

open Sys2Proof.Safety

/-! ### Tables with a default -/

/-- A table in key order. -/
def KeyOrdered {α : Type} (t : Tbl α) : Prop := (t.map (·.1)).Pairwise (· < ·)

section
variable {α : Type} {t : Tbl α}

theorem Tbl.mem_set {k : Nat} {x : α} {p : Nat × α} (h : p ∈ t.set k x) : p = (k, x) ∨ p ∈ t := by
  induction t with
  | nil => simpa [Tbl.set] using h
  | cons q t ih =>
    obtain ⟨j, y⟩ := q
    unfold Tbl.set at h
    split at h
    · simpa using h
    · split at h
      · obtain rfl | h := List.mem_cons.mp h
        · exact .inl rfl
        · exact .inr (List.mem_cons_of_mem _ h)
      · obtain rfl | h := List.mem_cons.mp h
        · exact .inr List.mem_cons_self
        · exact (ih h).imp_right (List.mem_cons_of_mem _)

theorem Tbl.drop_sublist (t : Tbl α) (k : Nat) : (t.drop k).Sublist t := by
  induction t with
  | nil => exact .slnil
  | cons q t ih =>
    unfold Tbl.drop
    split
    · exact List.sublist_cons_self _ _
    · exact ih.cons_cons _

theorem KeyOrdered.drop (h : KeyOrdered t) (k : Nat) : KeyOrdered (t.drop k) :=
  List.Pairwise.sublist ((Tbl.drop_sublist t k).map _) h

theorem KeyOrdered.set (h : KeyOrdered t) (k : Nat) (x : α) : KeyOrdered (t.set k x) := by
  induction t with
  | nil => exact List.pairwise_singleton _ _
  | cons q t ih =>
    obtain ⟨j, y⟩ := q
    unfold KeyOrdered at h
    rw [List.map_cons, List.pairwise_cons] at h
    obtain ⟨hlt, ht⟩ := h
    unfold Tbl.set KeyOrdered
    split
    · next hk =>
      rw [List.map_cons, List.pairwise_cons]
      refine ⟨fun n hn => ?_, List.pairwise_cons.mpr ⟨hlt, ht⟩⟩
      obtain rfl | hn := List.mem_cons.mp hn
      · exact hk
      · exact Nat.lt_trans hk (hlt n hn)
    · next hk =>
      split
      · next hj =>
        subst hj
        exact List.pairwise_cons.mpr ⟨hlt, ht⟩
      · next hj =>
        refine List.pairwise_cons.mpr ⟨fun n hn => ?_, ih ht⟩
        obtain ⟨p, hp, rfl⟩ := List.mem_map.mp hn
        obtain rfl | hp := Tbl.mem_set hp
        · show j < k
          omega
        · exact hlt _ (List.mem_map_of_mem hp)

theorem Tbl.find_drop_other {k n : Nat} (h : n ≠ k) : (t.drop k).find n = t.find n := by
  induction t with
  | nil => rfl
  | cons q t ih =>
    obtain ⟨j, y⟩ := q
    unfold Tbl.drop
    split
    · next hj => simp [Tbl.find, hj, Ne.symm h]
    · simp only [Tbl.find, ih]

end

/-! ### The bytes of a scratch -/

/-- A byte of a scratch: zero is not listed. -/
def putByte (m : Tbl Byte) (a : Nat) (x : Byte) : Tbl Byte := if x = 0 then m.drop a else m.set a x

section
variable {m : Tbl Byte}

theorem KeyOrdered.putByte (h : KeyOrdered m) (a : Nat) (x : Byte) : KeyOrdered (putByte m a x) := by
  unfold Machine.putByte
  split
  · exact h.drop a
  · exact h.set a x

theorem get_putByte_same (h : KeyOrdered m) (a : Nat) (x : Byte) : (putByte m a x).get a 0 = x := by
  unfold putByte
  split
  · next hx => rw [Tbl.get, Tbl.find_drop_same h, hx]; rfl
  · rw [Tbl.get, Tbl.find_set_same]; rfl

theorem get_putByte_other {a n : Nat} (h : n ≠ a) (x : Byte) : (putByte m a x).get n 0 = m.get n 0 := by
  unfold putByte
  split
  · rw [Tbl.get, Tbl.find_drop_other h, Tbl.get]
  · rw [Tbl.get, Tbl.find_set_other _ _ h, Tbl.get]

/-- The bytes of a run that is written stand in the table, and the others as they were. -/
theorem get_foldl_putByte (l : List (Nat × Byte × Bool)) (hn : (l.map (·.1)).Nodup) (h : KeyOrdered m) :
    (∀ c ∈ l, (l.foldl (fun m c => putByte m c.1 c.2.1) m).get c.1 0 = c.2.1) ∧
      ∀ a, a ∉ l.map (·.1) → (l.foldl (fun m c => putByte m c.1 c.2.1) m).get a 0 = m.get a 0 := by
  induction l generalizing m with
  | nil => exact ⟨nofun, fun _ _ => rfl⟩
  | cons c l ih =>
    rw [List.map_cons, List.nodup_cons] at hn
    obtain ⟨hc, hn⟩ := hn
    obtain ⟨hin, hout⟩ := ih hn (h.putByte c.1 c.2.1)
    refine ⟨fun d hd => ?_, fun a ha => ?_⟩
    · obtain rfl | hd := List.mem_cons.mp hd
      · exact (hout _ hc).trans (get_putByte_same h ..)
      · exact hin d hd
    · rw [List.map_cons, List.mem_cons, not_or] at ha
      exact (hout a ha.2).trans (get_putByte_other ha.1 _)

end

/-! ### The poison of its words -/

theorem mem_insertNat (l : List Nat) (k n : Nat) : n ∈ insertNat l k ↔ n = k ∨ n ∈ l := by
  induction l with
  | nil => simp [insertNat]
  | cons j t ih =>
    unfold insertNat
    split
    · simp
    · split
      · next hj => simp [hj]
      · simp only [List.mem_cons, ih]
        tauto

/-- Sets the mark of a word. -/
def markWord (ps : List Nat) (w : Nat) (p : Bool) : List Nat := if p then insertNat ps w else ps.filter (· ≠ w)

theorem contains_markWord (ps : List Nat) (w v : Nat) (p : Bool) :
    (markWord ps w p).contains v = if v = w then p else ps.contains v := by
  rw [Bool.eq_iff_iff]
  cases p <;> by_cases hv : v = w <;> simp [markWord, mem_insertNat, hv]

theorem mem_dedup (l : List Nat) (n : Nat) : n ∈ dedup l ↔ n ∈ l := by
  induction l with
  | nil => simp [dedup]
  | cons x l ih =>
    simp only [dedup, List.mem_cons, List.mem_filter, ih]
    by_cases h : n = x <;> simp [h]

theorem nodup_dedup (l : List Nat) : (dedup l).Nodup := by
  induction l with
  | nil => exact List.nodup_nil
  | cons x l ih => exact List.nodup_cons.mpr ⟨by simp, ih.filter _⟩

/-- Marks that are set for distinct words, each from its own mark before. -/
theorem contains_foldl_markWord (f : Nat → Bool → Bool) (ws : List Nat) (hn : ws.Nodup) (ps : List Nat) (v : Nat) :
    (ws.foldl (fun ps w => markWord ps w (f w (ps.contains w))) ps).contains v =
      if v ∈ ws then f v (ps.contains v) else ps.contains v := by
  induction ws generalizing ps with
  | nil => rfl
  | cons w ws ih =>
    rw [List.nodup_cons] at hn
    rw [List.foldl_cons, ih hn.2, contains_markWord]
    by_cases hv : v = w
    · subst hv
      simp [hn.1]
    · simp [hv]

/-! ### A write of scratch -/

/-- The bytes of a run with their addresses. -/
def runCells (off : Nat) (l : Marked) : List (Nat × Byte × Bool) := (span off l.length).zip l

section
variable {t : Team} {off : Nat} {l : Marked}

theorem runCells_fst (off : Nat) (l : Marked) : (runCells off l).map (·.1) = span off l.length :=
  List.map_fst_zip (by simp [span])

theorem scratchWrite_scratch (t : Team) (off : Nat) (l : Marked) :
    (t.scratchWrite off l).scratch = (runCells off l).foldl (fun m c => putByte m c.1 c.2.1) t.scratch := rfl

theorem scratchWrite_poisonWords (t : Team) (off : Nat) (l : Marked) :
    (t.scratchWrite off l).poisonWords = (dedup ((runCells off l).map fun c => c.1 / 4)).foldl
      (fun ps w => markWord ps w (wordPoison (ps.contains w) (((runCells off l).filter fun c => c.1 / 4 = w).any fun c => c.2.2)
        ((runCells off l).filter fun c => c.1 / 4 = w).length)) t.poisonWords := rfl

/-- A read of what was written gives the bytes written. -/
theorem scratchRead_written (h : KeyOrdered t.scratch) : ((t.scratchWrite off l).scratchRead off l.length).bytes = l.bytes := by
  obtain ⟨hin, -⟩ := get_foldl_putByte (runCells off l) (runCells_fst off l ▸ span_nodup _ _) h
  rw [← scratchWrite_scratch] at hin
  refine List.ext_getElem (by simp [Marked.bytes, Team.scratchRead, span]) fun k hk hl => ?_
  have hk : k < l.length := by simpa [Marked.bytes] using hl
  have hmem : (off + k, l[k]) ∈ runCells off l := by
    refine List.mem_iff_getElem.mpr ⟨k, by simpa [runCells, span] using hk, ?_⟩
    simp [runCells, span]
  simpa [Marked.bytes, Team.scratchRead, span] using hin _ hmem

theorem scratch_unwritten (h : KeyOrdered t.scratch) {a : Nat} (ha : a < off ∨ off + l.length ≤ a) :
    (t.scratchWrite off l).scratch.get a 0 = t.scratch.get a 0 := by
  obtain ⟨-, hout⟩ := get_foldl_putByte (runCells off l) (runCells_fst off l ▸ span_nodup _ _) h
  refine hout a fun hmem => ?_
  rw [runCells_fst] at hmem
  simp only [span, List.mem_map, List.mem_range] at hmem
  omega

/-- The poison of a word that a write touches is the rule's for the bytes it writes there. -/
theorem scratchWrite_poison (w : Nat) :
    let mine := (runCells off l).filter fun c => c.1 / 4 = w
    (t.scratchWrite off l).poisonWords.contains w =
      if mine.length = 0 then t.poisonWords.contains w
      else wordPoison (t.poisonWords.contains w) (mine.any fun c => c.2.2) mine.length := by
  intro mine
  have hmine : w ∈ dedup ((runCells off l).map fun c => c.1 / 4) ↔ mine.length ≠ 0 := by
    rw [mem_dedup, ← Nat.pos_iff_ne_zero, List.length_pos_iff_exists_mem]
    simp only [mine, List.mem_map, List.mem_filter, decide_eq_true_eq]
  rw [scratchWrite_poisonWords, contains_foldl_markWord (fun w p => wordPoison p (((runCells off l).filter fun c => c.1 / 4 = w).any
    fun c => c.2.2) ((runCells off l).filter fun c => c.1 / 4 = w).length) _ (nodup_dedup _)]
  by_cases h0 : mine.length = 0
  · rw [if_pos h0, if_neg fun h => hmine.mp h h0]
  · rw [if_neg h0, if_pos (hmine.mpr h0)]

end

/-! ### A byte of a register area -/

/-- A byte of a word that is replaced, and the others beside it. -/
theorem fld_replaced {r x b j : Nat} (hr : r < 2 ^ 32) (hx : x < 256) (hb : b < 4) (hj : j < 4) :
    fld ((r - fld r (8 * b) 8 * 2 ^ (8 * b) + x * 2 ^ (8 * b)) % 2 ^ 32) (8 * j) 8 = if j = b then x else fld r (8 * j) 8 := by
  unfold fld
  interval_cases b <;> interval_cases j <;> norm_num <;> omega

/-- A store of a byte of a register area writes it in its strand's register. -/
theorem setAreaByte_writes {s : State} {areas : List Area} {writer off k n b : Nat} {x : Byte} {poison : Bool} {st : Strand}
    (hp : areaPlace areas off = some { strand := some k, n := n, byte := b }) (hs : s.strands.find k = some st) :
    ∃ u : Strand, (s.setAreaByte areas writer off x poison).strands.find k = some u ∧
      u.regs = st.regs.set n (Reg.of (.ofNat 32 ((st.regs.get n Reg.zero).val.toNat
        - fld (st.regs.get n Reg.zero).val.toNat (8 * b) 8 * 2 ^ (8 * b) + x.toNat * 2 ^ (8 * b))) poison) := by
  unfold State.setAreaByte
  simp only [hp, State.modStrand, Tbl.find_change_same, hs, Option.map_some]
  refine ⟨_, rfl, ?_⟩
  split
  · rfl
  · split
    · rfl
    · split <;> rfl

end Sys2Proof.Machine
end

section
/-!
PROOFS. Loads and stores of scratch and of register areas (R125, R127, R21, R24, R204).
-/

namespace Sys2Proof.Machine

open Sys2Proof.Safety

/-! ### Words of bytes -/

theorem fromBytes_zeros (n : Nat) : fromBytes (List.replicate n 0) = 0 := by
  induction n with
  | zero => rfl
  | succ n ih =>
    rw [List.replicate_succ, fromBytes, ih]
    rfl

theorem poisoned_clean (l : List Byte) (j k : Nat) : Marked.poisoned (((clean l).drop j).take k) = false := by
  rw [Marked.poisoned, List.any_eq_false]
  intro b hb
  obtain ⟨x, -, rfl⟩ := List.mem_map.mp (List.mem_of_mem_drop (List.mem_of_mem_take hb))
  exact Bool.false_ne_true

/-- The sizes of elements. -/
theorem hEsize_cases (r : HRec) : hEsize r = 1 ∨ hEsize r = 2 ∨ ∃ m, hEsize r = 4 * (m + 1) := by
  unfold hEsize
  match hEsizeCode r with
  | 0 => exact .inl rfl
  | 1 => exact .inr (.inl rfl)
  | k + 2 =>
    have hpos : 0 < 2 ^ k := Nat.two_pow_pos k
    exact .inr (.inr ⟨2 ^ k - 1, by rw [Nat.sub_add_cancel hpos, Nat.pow_add, Nat.mul_comm]⟩)

/-- Words of zero bytes are zeros, one for each register of the element. -/
theorem loadWords_zeros (r : HRec) (signed : Bool) :
    loadWords (hEsize r) signed (List.replicate (hEsize r) 0) = List.replicate (elementRegs (hEsize r)) 0 := by
  unfold loadWords
  rw [fromBytes_zeros]
  obtain h | h | ⟨m, h⟩ := hEsize_cases r
  · rw [h]; cases signed <;> rfl
  · rw [h]; cases signed <;> rfl
  · rw [h]
    have hregs : elementRegs (4 * (m + 1)) = m + 1 := by
      unfold elementRegs
      split
      · omega
      · omega
    split
    · omega
    · omega
    · rw [hregs, Nat.mul_div_cancel_left _ (by decide)]
      simp [List.map_const']

theorem markedWords_zeros (r : HRec) (signed : Bool) :
    markedWords (clean (List.replicate (hEsize r) 0)) (loadWords (hEsize r) signed (clean (List.replicate (hEsize r) 0)).bytes) =
      List.replicate (elementRegs (hEsize r)) (0, false) := by
  have hbytes : (clean (List.replicate (hEsize r) 0)).bytes = List.replicate (hEsize r) 0 := by simp [Marked.bytes, clean]
  rw [hbytes, loadWords_zeros, markedWords]
  simp only [poisoned_clean]
  exact List.ext_getElem (by simp) fun k _ _ => by simp

theorem readMany_length {e : Env} {n k : Nat} {words : List (Word × Bool)} (h : e.readMany n k = .ok words) : words.length = k := by
  induction k generalizing n words with
  | zero =>
    cases h
    rfl
  | succ k ih =>
    obtain ⟨x, l, hl, rfl⟩ : ∃ x l, e.readMany (n + 1) k = .ok l ∧ words = x :: l := by
      rw [Env.readMany] at h
      cases hx : e.read n with
      | error p => cases hl : e.readMany (n + 1) k <;> simp [hx, hl, both, bind, Except.bind] at h
      | ok x =>
        cases hl : e.readMany (n + 1) k with
        | error p => simp [hx, hl, both, bind, Except.bind] at h
        | ok l => exact ⟨x, l, rfl, by simpa [hx, hl, both, bind, Except.bind, pure, Except.pure, eq_comm] using h⟩
    rw [List.length_cons, ih hl]

/-- The bytes of an element that its registers hold. -/
theorem length_storeBytes {r : HRec} {words : List (Word × Bool)} (h : words.length = elementRegs (hEsize r)) (g : Word → Word) :
    (storeBytes (hEsize r) (words.map fun w => (g w.1, w.2))).length = hEsize r := by
  have hregs : hEsize r ≤ 4 * elementRegs (hEsize r) := by
    obtain h | h | ⟨m, h⟩ := hEsize_cases r <;> rw [h, elementRegs]
    · decide
    · decide
    · split <;> omega
  have hfour : ∀ l : List (Word × Bool), (l.flatMap fun w => (toBytes 4 w.1.toNat).map fun b => (b, w.2)).length = 4 * l.length := by
    intro l
    induction l with
    | nil => rfl
    | cons w l ih => rw [List.flatMap_cons, List.length_append, ih, List.length_map, length_toBytes, List.length_cons]; omega
  rw [storeBytes, List.length_take, hfour, List.length_map, h]
  omega

/-! ### A lane at its register areas -/

section
variable {s : State} {e : Env} {h : BitVec 4} {a d : BitVec 7} {y : BitVec 3} {r : HRec}

/-- An access through a register area waits for the strand's results. -/
theorem access_waits (he : s.env = some e) (ha : Alone e) (hh : e.hReg h.toNat = .ok r) (hk : hKind r = 2) (hi : Has e a.toNat)
    (hal : elementAligned (hEsize r) d.toNat = true) (hds : ∀ k < elementRegs (hEsize r), Has e (d.toNat + k))
    (hw : e.st.drained = false) (signed acquire release : Bool) :
    load s d h a y signed acquire = .next s ∧ store s d h a y release = .next s := by
  have hone : e.exist [a.toNat] = .ok () := exist_ok fun m hm => List.mem_singleton.mp hm ▸ hi
  have hspan := exist_span hds
  have hwait := areaDrained_waits hk hw
  constructor
  · simp [load, runLane, he, Env.room_of_alone ha, hone, hh, hal, hspan, hwait, bind, Except.bind, State.stop]
  · simp [store, runLane, he, hone, hh, hal, hspan, hwait, bind, Except.bind, State.stop]

/-- A load of an element of a team's scratch. -/
theorem load_scratch_of_team {f : Env} {i : Word} {off : Nat} {team : Team} {signed acquire : Bool} (he : s.env = some e)
    (ha : Alone e) (hd : e.areaDrained r = .ok f) (hel : Element f h a d r i) (hl : f.locate r i.toNat 0 = .ok (.scratch off))
    (ht : f.s.teams.find f.wave.team = some team) :
    let m := (f.s.noteAccess f.lane 0 (hEsize r) off false).mixed (.scratch f.wave.team) off (team.scratchRead off (hEsize r))
    load s d h a y signed acquire =
      .next (m.2.setStrand f.key ((f.put f.st d.toNat (markedWords m.1 (loadWords (hEsize r) signed m.1.bytes))).tick 1)) := by
  have hread : (f.s.noteAccess f.lane 0 (hEsize r) off false).scratchRead f.wave.team off (hEsize r) = team.scratchRead off (hEsize r) := by
    rw [State.scratchRead, show (f.s.noteAccess f.lane 0 (hEsize r) off false).teams = f.s.teams from rfl, ht]
  refine (load_scratch he ha hd hel hl).trans ?_
  rw [hread, Env.give_of_alone (areaDrained_alone hd ha)]
  rfl

/-- A load from a register area meets a wrong parity, or arrives with the end of its issue. -/
theorem areaLoad_parity {n off k x : Nat} {signed : Bool}
    (h : (e.s.setStrand e.key e.st).areaError e.wave.team e.wave.trailing (.area off) n = some (k, x)) :
    e.areaLoad d.toNat n signed off = .error (.parity (e.errorMark k x)) := by
  simp only [Env.areaLoad, h]

theorem areaLoad_late {n off : Nat} {signed : Bool} (ha : Alone e)
    (h : (e.s.setStrand e.key e.st).areaError e.wave.team e.wave.trailing (.area off) n = none) :
    let g := e.s.setStrand e.key e.st
    let m := g.mixed (areaWord (g.areasFor e.wave.team e.wave.trailing)) off (g.localRead e.wave.team e.wave.trailing (.area off) n)
    let u := m.2.free.2.fresh.2
    e.areaLoad d.toNat n signed off = .ok (({ u with issue := u.issue.map fun (j : Issue) =>
      { j with late := j.late ++ [{ strand := e.key, id := e.s.nextId, d := d.toNat
                                    words := markedWords m.1 (loadWords n signed m.1.bytes) }] } } : State).setStrand e.key
      ((e.st.awaitMany e.s.nextId d.toNat (elementRegs n)).tick 1)) := by
  intro g m u
  have hid : m.2.free.2.nextId = e.s.nextId := by
    obtain ⟨j, hj⟩ := mixed_state (s := g) (areaWord (g.areasFor e.wave.team e.wave.trailing)) off
      (g.localRead e.wave.team e.wave.trailing (.area off) n)
    show (m.2.free.2).nextId = _
    unfold m
    rw [hj]
    rfl
  simp only [Env.areaLoad, h, Env.giveLater, Env.offer_of_alone ha]
  rw [← hid]
  rfl

end

/-! ### The end of an issue -/

/-- A strand's registers and window. -/
def Strand.bank (st : Strand) : Tbl Reg × List Went := (st.regs, st.window)

theorem resetWaits_bank (run : Run) (s : State) (w k : Nat) :
    ((s.resetWaits run w).strands.find k).map Strand.bank = (s.strands.find k).map Strand.bank := by
  refine foldl_keeps (fun t : Tbl Strand => (t.find k).map Strand.bank) (fun t p => ?_) _ s.strands
  split
  · by_cases hp : k = p.1
    · subst hp
      rw [Tbl.find_change_same, Option.map_map]
      rfl
    · rw [Tbl.find_change_other _ _ hp]
  · rfl

theorem scribeKeep_strands (run : Run) (s : State) (w : Nat) : (s.scribeKeep run w).strands = s.strands := by
  unfold State.scribeKeep
  split <;> rfl

/-- Counting an issue changes nothing of what a lane produces. -/
theorem produced_modWave (s : State) (w k : Nat) (l : List Word) (f : Wave → Wave)
    (hf : ∀ x, (f x).width = x.width ∧ (f x).trailing = x.trailing) : (s.modWave w f).produced k l = s.produced k l := by
  have hinj (c : Core) (x : Wave) (lane n : Nat) : c.injects (f x) lane n = c.injects x lane n := by
    simp only [Core.injects, hf x]
  by_cases hk : strandWave k = w
  · subst hk
    unfold State.produced
    rw [State.modWave, Tbl.find_change_same]
    cases s.waves.find (strandWave k) with
    | none => rfl
    | some x =>
      simp only [Option.map_some, hinj]
      rfl
  · unfold State.produced
    rw [State.modWave, Tbl.find_change_other _ _ hk]
    rfl

/-- A load that waits for the end of its issue arrives there (R125). -/
theorem endIssue_late (run : Run) (s : State) {i : Issue} {l : Late} (hl : i.late = [l]) (hw : i.writes = []) (hd : i.differ = []) :
    ((s.endIssue run i).strands.find l.strand).map Strand.bank =
      ((s.deliver l.strand l.id l.d l.words).strands.find l.strand).map Strand.bank := by
  unfold State.endIssue
  rw [scribeKeep_strands, resetWaits_bank, hl, hw, hd]
  have hproduced (f : Wave → Wave) (hf : ∀ x, (f x).width = x.width ∧ (f x).trailing = x.trailing) :
      (({ s.modWave i.wave f with issue := none } : State).deliver l.strand l.id l.d l.words).strands =
        (s.deliver l.strand l.id l.d l.words).strands := by
    have hp : ({ s.modWave i.wave f with issue := none } : State).produced l.strand (l.words.map (·.1)) =
        s.produced l.strand (l.words.map (·.1)) := produced_modWave s i.wave l.strand _ f hf
    unfold State.deliver
    rw [hp]
    rfl
  exact congrArg (fun t : Tbl Strand => (t.find l.strand).map Strand.bank) (hproduced _ fun x => ⟨rfl, rfl⟩)

/-- Settles O12: a local element is read and written where it lies, and what was written is read back. -/
theorem localAccesses : Obligations.LocalAccesses := by
  refine ⟨⟨?_, ?_, ?_⟩, ⟨?_, ?_⟩, ?_⟩
  · intro s e f d h a y r i he ha hdr hel n
    have hexec {t : Bool → Host.Outcome State Fault Refusal} (hload : ∀ signed acquire, load s d h a y signed acquire = t signed) :
        exec (.ld d h a y) s = t false ∧ exec (.lds d h a y) s = t true ∧ exec (.lda d h a y) s = t false :=
      ⟨hload false false, hload true false, hload false true⟩
    have hf := areaDrained_alone hdr ha
    obtain ⟨st, rfl⟩ := areaDrained_strand hdr
    obtain rfl := env_s he
    refine ⟨fun off team hl ht => ?_, fun off hl => ?_, fun hl => ?_⟩
    · intro got noted m t
      obtain ⟨hld, hlds, hlda⟩ := hexec (t := t) fun signed acquire => load_scratch_of_team he ha hdr hel hl ht
      exact ⟨hld, hlds, hlda, fun hi => mixed_noteAccess hi ..⟩
    · intro team back g
      refine ⟨fun hnone => ?_, fun k x hsome => ?_⟩
      · intro m t
        refine hexec fun signed acquire => (load_area he ha hdr hel hl).trans ?_
        exact runLane_ok he (areaLoad_late (e := { e with st := st, s := e.s.noteAccess e.lane 0 n (off + 2 ^ 40) false }) ha hnone)
      · intro t
        refine hexec (t := fun _ => t) fun signed acquire => (load_area he ha hdr hel hl).trans ?_
        exact runLane_error he
          (areaLoad_parity (e := { e with st := st, s := e.s.noteAccess e.lane 0 n (off + 2 ^ 40) false }) hsome)
    · intro t
      refine hexec (t := fun _ => t) fun signed acquire => ?_
      rw [load_clamped he ha hdr hel hl, markedWords_zeros, Env.give_of_alone hf]
      rfl
  · intro s e d h a y r he ha hh hk hi hal hds hw
    have hwait := access_waits (y := y) he ha hh hk hi hal hds hw
    exact ⟨(hwait false false false).1, (hwait true false false).1, (hwait false true false).1, (hwait false false false).2,
      (hwait false false true).2⟩
  · exact fun run s i l hl hw hd => endIssue_late run s hl hw hd
  · intro s e f x h a y r i words he ha hdr hel hw hr data both
    have hf := areaDrained_alone hdr ha
    obtain ⟨st, rfl⟩ := areaDrained_strand hdr
    obtain rfl := env_s he
    have hlen : data.length = hEsize r := length_storeBytes (readMany_length hw) e.produce
    have hboth (l : Loc) (hl : e.locate r i.toNat 1 = .ok l) (hloc : (∃ off, l = .scratch off) ∨ ∃ off, l = .area off) :
        both (.next (({ e with st := st } : Env).storeLocal l data)) :=
      ⟨store_local he ha hdr hel hw hr hl hloc nofun, fun ho => store_local he ha hdr hel hw hr hl hloc fun _ => ho⟩
    refine ⟨hlen, fun off hl => hboth _ hl (.inl ⟨off, rfl⟩), fun off hl => hboth _ hl (.inr ⟨off, rfl⟩), fun hl =>
      ⟨store_clamped he ha hdr hel hw hr hl, store_clamped he ha hdr hel hw hr hl⟩⟩
  · intro s areas writer off x poison k n b st hp hb hst
    obtain ⟨u, hu, hregs⟩ := setAreaByte_writes (writer := writer) (x := x) (poison := poison) hp hst
    refine ⟨u, hu, ?_, fun j hj => ?_, fun m hm => ?_⟩
    · rw [hregs, Tbl.get_set_same]
      rfl
    · rw [hregs, Tbl.get_set_same]
      exact (congrArg (fld · (8 * j) 8) (BitVec.toNat_ofNat ..)).trans (fld_replaced (BitVec.isLt _) (BitVec.isLt _) hb hj)
    · rw [hregs, Tbl.get_set_other _ _ _ hm]
  · intro t off l h u mine
    have hord : KeyOrdered t.scratch := List.pairwise_map.mpr h
    have hpoison (w : Nat) : u.poisonWords.contains w = if (mine w).length = 0 then t.poisonWords.contains w
        else wordPoison (t.poisonWords.contains w) ((mine w).any fun c => c.2.2) (mine w).length := scratchWrite_poison w
    refine ⟨scratchRead_written hord, fun a ha => scratch_unwritten hord ha, fun w hw => ?_, fun w h0 h4 => ?_, fun w h0 => ?_⟩
    · rw [hpoison, if_neg (by omega), wordPoison, if_pos hw]
    · rw [hpoison, if_neg h0, wordPoison, if_neg h4]
    · rw [hpoison, if_pos h0]

end Sys2Proof.Machine
end

section
/-!
PROOFS. What becomes of the teams, and of the cores beside their L1 areas, under error records, freed banks, aborts and kills
(R231, R249, R284, R291, R366).
-/

namespace Sys2Proof

/-- An entry of a table whose keys are filtered is there where its key stays. -/
theorem Tbl.find_filter_key {α : Type} (t : Tbl α) (p : Nat → Bool) (k : Nat) :
    Tbl.find (t.filter fun x => p x.1) k = if p k then t.find k else none := by
  induction t with
  | nil => exact (ite_self none).symm
  | cons q t ih =>
    obtain ⟨j, y⟩ := q
    by_cases hj : j = k
    · subst hj
      cases hp : p j with
      | false => rw [List.filter_cons_of_neg (by simp [hp]), ih, hp]; rfl
      | true => simp [hp, Tbl.find]
    · cases hp : p j <;> simp [hp, Tbl.find, hj, ih]

end Sys2Proof

namespace Sys2Proof.Machine

/-- The teams, and every core beside its L1 area. -/
def State.crew (s : State) : Tbl Team × (Nat → Core) := (s.teams, s.units)

theorem State.teams_of_crew {s t : State} (h : t.crew = s.crew) : t.teams = s.teams := congrArg Prod.fst h

theorem State.units_of_crew {s t : State} (h : t.crew = s.crew) : t.units = s.units := congrArg Prod.snd h

section
variable (s : State)

@[simp] theorem State.wakeLine_crew (pa : Nat) : (s.wakeLine pa).crew = s.crew :=
  Prod.ext (State.of_beneath (s.wakeLine_beneath pa) State.teams fun _ => rfl) (s.wakeLine_units pa)

@[simp] theorem State.writeEverywhere_crew (pa : Nat) (bytes : List Byte) : (s.writeEverywhere pa bytes).crew = s.crew := by
  refine (foldl_keeps State.crew (fun t l => t.wakeLine_crew (l * 256)) _ _).trans ?_
  exact foldl_keeps State.crew (f := fun t k => t.cleanSector (k * 64)) (fun t k => rfl) _ (s.poke pa bytes)

variable {s} in
theorem State.ringPut_crew {t : State} {reg : Dword} {record : List Byte} (h : s.ringPut reg record = some t) :
    t.crew = s.crew := by
  simp only [State.ringPut, Option.ite_none_left_eq_some, Option.ite_none_right_eq_some, Option.some.injEq] at h
  obtain ⟨-, -, rfl⟩ := h
  simp

/-! ### Error records and freed banks -/

@[simp] theorem State.flushErrors_crew (l : List ErrorRec) : (s.flushErrors l).crew = s.crew := by
  induction l generalizing s with
  | nil => rfl
  | cons r l ih =>
    unfold State.flushErrors
    split
    · next t ht =>
      have hput : t.crew = s.crew := State.ringPut_crew ht
      exact (ih _).trans hput
    · rfl

@[simp] theorem State.errorRecord_crew (r : ErrorRec) : (s.errorRecord r).crew = s.crew := by
  have hheld (t : State) : t.flushHeld.crew = t.crew := t.flushErrors_crew t.device.errors
  unfold State.errorRecord
  dsimp only
  split
  · exact (State.flushErrors_crew ..).trans (hheld _)
  · exact hheld _

@[simp] theorem State.releaseMapping_crew (b : Nat) : (s.releaseMapping b).crew = s.crew := by
  unfold State.releaseMapping
  split <;> rfl

@[simp] theorem State.releaseBank_crew (b : Nat) : (s.releaseBank b).crew = s.crew := by
  unfold State.releaseBank
  split
  · rfl
  · split <;> rfl

@[simp] theorem State.releaseBanks_crew (banks : List Nat) : (s.releaseBanks banks).crew = s.crew :=
  foldl_keeps State.crew (fun _ _ => by simp) banks s

/-! ### The teams of an abort and of a kill -/

@[simp] theorem State.dropTeam_teams (t : Nat) : (s.dropTeam t).teams = s.teams := by
  unfold State.dropTeam
  split <;> rfl

/-- The teams that die with a grid: its own and those of the grids below it. -/
def State.teamsBelow (g : Nat) : List Nat :=
  (s.teams.filter fun p => (s.descendants 12 [g]).contains p.2.grid).map (·.1)

theorem State.abortGrid_teams (g code : Nat) (r : ErrorRec) :
    (s.abortGrid g code r).teams = s.teams.filter fun p => !(s.teamsBelow g).contains p.1 := by
  have hdrop : ((s.teamsBelow g).foldl (fun s t => s.dropTeam t) s).teams = s.teams :=
    foldl_keeps State.teams (fun t k => t.dropTeam_teams k) _ s
  unfold State.abortGrid
  rw [State.teams_of_crew (foldl_keeps State.crew (fun _ _ => by simp) _ _), State.teams_of_crew (State.releaseBanks_crew ..)]
  exact congrArg (List.filter fun p => !(s.teamsBelow g).contains p.1) hdrop

/-- A team that outlives an abort is the team that it was. -/
theorem State.find_abortGrid {g code n : Nat} {r : ErrorRec} {x : Team} (h : (s.abortGrid g code r).teams.find n = some x) :
    n ∉ s.teamsBelow g ∧ s.teams.find n = some x := by
  rw [State.abortGrid_teams, Tbl.find_filter_key s.teams fun k => !(s.teamsBelow g).contains k] at h
  simpa using h

theorem State.mem_descendants (n : Nat) {l : List Nat} {g : Nat} (h : g ∈ l) : g ∈ s.descendants n l := by
  induction n generalizing l with
  | zero => exact h
  | succ n ih =>
    unfold State.descendants
    dsimp only
    split
    · exact h
    · exact ih (List.mem_append_left _ h)

theorem State.mem_teamsBelow {k : Nat} {team : Team} (h : s.teams.find k = some team) : k ∈ s.teamsBelow team.grid := by
  refine List.mem_map.mpr ⟨(k, team), List.mem_filter.mpr ⟨Tbl.mem_of_find h, ?_⟩, rfl⟩
  exact List.contains_iff_mem.mpr (s.mem_descendants 12 List.mem_cons_self)

end

section
variable {s : State} {k n code : Nat} {r : ErrorRec}

/-- Team `k` is gone, or it waits to be placed again after a kill with `code` (R291). -/
def State.Slain (s : State) (code k : Nat) : Prop := ∀ x, s.teams.find k = some x → x.waiting = true ∧ x.killed = code

/-- A kill makes its team wait or aborts its grid (R291). -/
theorem State.killTeam_teams {team : Team} (h : s.teams.find k = some team) :
    (∃ x : Team, x.waiting = true ∧ x.killed = code ∧ (s.killTeam k code r).teams = s.teams.set k x) ∨
    ∃ q, s.killTeam k code r = s.abortGrid team.grid code q := by
  unfold State.killTeam
  rw [h]
  dsimp only
  split
  · refine .inl ⟨_, ?_, ?_, (State.teams_of_crew ((State.errorRecord_crew ..).trans (State.releaseBanks_crew ..))).trans
      (congrArg (Tbl.set · k _) (s.dropTeam_teams k))⟩ <;> rfl
  · exact .inr ⟨_, rfl⟩

theorem State.killTeam_of_none (h : s.teams.find k = none) : s.killTeam k code r = s := by
  unfold State.killTeam
  rw [h]

theorem State.killTeam_slain (s : State) (k code : Nat) (r : ErrorRec) : (s.killTeam k code r).Slain code k := by
  intro x hx
  cases h : s.teams.find k with
  | none =>
    rw [State.killTeam_of_none h, h] at hx
    cases hx
  | some team =>
    obtain ⟨y, hwait, hcode, hteams⟩ | ⟨q, habort⟩ := State.killTeam_teams (code := code) (r := r) h
    · rw [hteams, Tbl.find_set_same] at hx
      cases hx
      exact ⟨hwait, hcode⟩
    · rw [habort] at hx
      exact absurd (s.mem_teamsBelow h) (s.find_abortGrid hx).1

/-- A later kill with the same code leaves a killed team killed. -/
theorem State.Slain.killTeam (hs : s.Slain code n) : (s.killTeam k code r).Slain code n := by
  by_cases hn : n = k
  · exact hn ▸ s.killTeam_slain k code r
  · intro x hx
    cases h : s.teams.find k with
    | none => exact hs x (State.killTeam_of_none (code := code) (r := r) h ▸ hx)
    | some team =>
      obtain ⟨y, -, -, hteams⟩ | ⟨q, habort⟩ := State.killTeam_teams (code := code) (r := r) h
      · rw [hteams, Tbl.find_set_other _ _ hn] at hx
        exact hs x hx
      · rw [habort] at hx
        exact hs x (s.find_abortGrid hx).2

end

/-! ### The engine of a core through kills -/

section
variable {s t : State} {core : Nat}

/-- The engine of a core holds no latched panel and no tile word. -/
def State.EngineEmpty (s : State) (core : Nat) : Prop := (s.core core).latch = none ∧ (s.core core).tiles = []

theorem State.EngineEmpty.of_units (hs : s.EngineEmpty core) (h : t.units = s.units) : t.EngineEmpty core := by
  have hcore : (t.core core).besideL1 = (s.core core).besideL1 := congrFun h core
  exact ⟨(congrArg Core.latch hcore).trans hs.1, (congrArg Core.tiles hcore).trans hs.2⟩

/-- A change of every listed core that fills no engine. -/
theorem State.EngineEmpty.mapCores {f : Nat → Core → Core} (hs : s.EngineEmpty core) (h : t.cores = s.cores.mapVal f)
    (hf : ∀ x : Core, x.latch = none → (f core x).latch = none ∧ (f core x).tiles = x.tiles) : t.EngineEmpty core := by
  unfold State.EngineEmpty State.core Tbl.get at *
  rw [h, Tbl.find_mapVal]
  cases hx : s.cores.find core with
  | none => exact ⟨rfl, rfl⟩
  | some x =>
    rw [hx] at hs
    obtain ⟨hlatch, htiles⟩ := hs
    exact ⟨(hf x hlatch).1, (hf x hlatch).2.trans htiles⟩

theorem State.EngineEmpty.dropTeam (hs : s.EngineEmpty core) (k : Nat) : (s.dropTeam k).EngineEmpty core := by
  unfold State.dropTeam
  split
  · exact hs
  · refine hs.mapCores (by dsimp only) ?_
    intro x hx
    exact ⟨(ite_congr rfl (fun _ => rfl) fun _ => hx).trans (ite_self none), rfl⟩

theorem State.EngineEmpty.abortGrid (hs : s.EngineEmpty core) (g code : Nat) (r : ErrorRec) :
    (s.abortGrid g code r).EngineEmpty core := by
  have hdrop : ((s.teamsBelow g).foldl (fun s t => s.dropTeam t) s).EngineEmpty core :=
    List.foldlRecOn (motive := fun t => State.EngineEmpty t core) _ _ hs fun _ ht k _ => ht.dropTeam k
  unfold State.abortGrid
  refine .of_units ?_ (State.units_of_crew (foldl_keeps State.crew (fun _ _ => by simp) _ _))
  refine .of_units ?_ (State.units_of_crew (State.releaseBanks_crew ..))
  refine hdrop.mapCores (by dsimp only; rfl) ?_
  exact fun x hx => ⟨hx, rfl⟩

theorem State.EngineEmpty.killTeam (hs : s.EngineEmpty core) (k code : Nat) (r : ErrorRec) :
    (s.killTeam k code r).EngineEmpty core := by
  unfold State.killTeam
  split
  · exact hs
  · dsimp only
    split
    · exact (hs.dropTeam k).of_units ((State.units_of_crew ((State.errorRecord_crew ..).trans
        (State.releaseBanks_crew ..))).trans rfl)
    · exact hs.abortGrid ..

end

end Sys2Proof.Machine
end

section
/-!
PROOFS. The lane map as physical lanes leave use (R171, R270): a lost lane stays lost, and a lane that carries or may carry a
logical lane stays in use until it is itself lost.
-/

namespace Sys2Proof.Machine

section
variable {c : Core} {n m : Nat}

theorem lmapState_of_lt {x : Nat} (h : x < 256) : lmapState (.ofNat 32 x) = x / 64 := by
  rw [lmapState, BitVec.toNat_ofNat, Nat.mod_eq_of_lt (by omega)]
  show x / 64 % 4 = x / 64
  omega

/-- A core whose lane n has been taken out of use, before its logical lane has moved. -/
def Core.without (c : Core) (n state : Nat) : Core := { c with lmap := c.lmap.set n (.ofNat 32 (state * 64)) }

@[simp] theorem Core.without_lmapReg_same (c : Core) (n state : Nat) : (c.without n state).lmapReg n = .ofNat 32 (state * 64) :=
  Tbl.get_set_same ..

theorem Core.without_lmapReg_other (c : Core) (state : Nat) (h : m ≠ n) : (c.without n state).lmapReg m = c.lmapReg m :=
  Tbl.get_set_other _ _ _ h

theorem Core.lose_of_lost (state : Nat) (h : 2 ≤ lmapState (c.lmapReg n)) : c.lose n state = c := if_pos h

/-- Where a lane that carries a logical lane leaves use, that one moves to the idle spare, or the good lanes are numbered anew (R171). -/
theorem Core.lose_cases (state : Nat) (h : lmapState (c.lmapReg n) ≤ 1) :
    c.lose n state = c.without n state ∨
    (n ≠ 64 ∧ lmapState (c.lmapReg 64) = 1 ∧ c.lose n state = { c.without n state with
      lmap := (c.without n state).lmap.set 64 (.ofNat 32 (lmapLane (c.lmapReg n))) }) ∨
    ∃ f : Nat × Nat → Word, (∀ p, lmapState (f p) ≤ 1) ∧ c.lose n state = { c.without n state with
      lmap := (c.without n state).goodLanes.zipIdx.foldl (fun t p => t.set p.1 (f p)) (c.without n state).lmap } := by
  unfold Core.lose
  dsimp only
  rw [if_neg (by omega)]
  split
  · exact .inl rfl
  · split
    · next hspare => exact .inr (.inl ⟨hspare.2.1, hspare.2.2, rfl⟩)
    · refine .inr (.inr ⟨_, fun p => ?_, rfl⟩)
      split
      · rw [lmapState_of_lt (by omega)]
        omega
      · decide

/-- What a change of the entries of some lanes leaves of the entry of a lane, where each change leaves it. -/
theorem lmapReg_foldl_set (P : Word → Prop) {l : List (Nat × Nat)} {f : Nat × Nat → Word} (hc : P (c.lmapReg m))
    (hf : ∀ p ∈ l, p.1 = m → P (f p)) : P (({ c with lmap := l.foldl (fun t p => t.set p.1 (f p)) c.lmap } : Core).lmapReg m) := by
  refine List.foldlRecOn (motive := fun t : Tbl Word => P (t.get m (.ofNat 32 m))) l _ hc fun t ht p hp => ?_
  by_cases h : p.1 = m
  · subst h
    rw [Tbl.get_set_same]
    exact hf p hp rfl
  · rwa [Tbl.get_set_other _ _ _ (Ne.symm h)]

/-- Whatever moves when a lane leaves use, no lane that is then out of use does. -/
theorem Core.lose_lmapReg_of_without (state : Nat) (h : lmapState (c.lmapReg n) ≤ 1)
    (hm : 2 ≤ lmapState ((c.without n state).lmapReg m)) : (c.lose n state).lmapReg m = (c.without n state).lmapReg m := by
  obtain hl | ⟨hn, hspare, hl⟩ | ⟨f, -, hl⟩ := Core.lose_cases state h
  · rw [hl]
  · rw [hl]
    refine Tbl.get_set_other _ _ _ fun h64 => ?_
    rw [h64, c.without_lmapReg_other state (Ne.symm hn), hspare] at hm
    omega
  · rw [hl]
    refine lmapReg_foldl_set (· = (c.without n state).lmapReg m) rfl fun p hp hpm => ?_
    have hgood : p.1 ∈ (c.without n state).goodLanes := (List.mem_zipIdx' hp).2 ▸ List.getElem_mem _
    have hle := of_decide_eq_true (List.mem_filter.mp hgood).2
    rw [hpm] at hle
    omega

/-- A lane that is out of use stays as it is when another leaves use. -/
theorem Core.lose_lmapReg_of_lost (n state : Nat) (hm : 2 ≤ lmapState (c.lmapReg m)) :
    (c.lose n state).lmapReg m = c.lmapReg m := by
  by_cases hn : 2 ≤ lmapState (c.lmapReg n)
  · rw [Core.lose_of_lost state hn]
  · have hreg := c.without_lmapReg_other state (m := m) (n := n) fun h => hn (h ▸ hm)
    rw [Core.lose_lmapReg_of_without state (by omega) (hreg ▸ hm), hreg]

theorem Core.lmapState_lose_self {state : Nat} (h : lmapState (c.lmapReg n) ≤ 1) (h2 : 2 ≤ state) (h4 : state < 4) :
    lmapState ((c.lose n state).lmapReg n) = state := by
  have hstate : lmapState ((c.without n state).lmapReg n) = state := by
    rw [Core.without_lmapReg_same, lmapState_of_lt (by omega)]
    omega
  rw [Core.lose_lmapReg_of_without state h (by rw [hstate]; exact h2), hstate]

/-- A lane in use, or good and idle, is so still when another leaves use. -/
theorem Core.lmapState_lose_other (state : Nat) (hmn : m ≠ n) (hm : lmapState (c.lmapReg m) ≤ 1) :
    lmapState ((c.lose n state).lmapReg m) ≤ 1 := by
  by_cases hn : 2 ≤ lmapState (c.lmapReg n)
  · rwa [Core.lose_of_lost state hn]
  · rw [← c.without_lmapReg_other state hmn] at hm
    obtain hl | ⟨-, -, hl⟩ | ⟨f, hf, hl⟩ := Core.lose_cases state (by omega : lmapState (c.lmapReg n) ≤ 1)
    · rwa [hl]
    · rw [hl]
      by_cases h64 : m = 64
      · subst h64
        refine le_of_eq_of_le (congrArg lmapState (Tbl.get_set_same ..)) ?_
        have hlane : lmapLane (c.lmapReg n) < 64 := Nat.mod_lt _ (by decide)
        rw [lmapState_of_lt (by omega)]
        omega
      · exact le_of_eq_of_le (congrArg lmapState (Tbl.get_set_other _ _ _ h64)) hm
    · rw [hl]
      exact lmapReg_foldl_set (lmapState · ≤ 1) hm fun p _ _ => hf p

/-- A lane of a list that is taken out of use for good is so at the end, unless a fuse or LMAPW had taken it before. -/
theorem lmapState_foldl_lose {l : List Nat} (hm : lmapState (c.lmapReg m) ≠ 2) (h : lmapState (c.lmapReg m) = 3 ∨ m ∈ l) :
    lmapState ((l.foldl (fun c n => c.lose n 3) c).lmapReg m) = 3 := by
  have hlt (c : Core) : lmapState (c.lmapReg m) < 4 := Nat.mod_lt _ (by decide)
  have hlost (c : Core) (n : Nat) (h3 : lmapState (c.lmapReg m) = 3) : lmapState ((c.lose n 3).lmapReg m) = 3 := by
    rw [Core.lose_lmapReg_of_lost n 3 (h3 ▸ by decide), h3]
  induction l generalizing c with
  | nil => exact h.resolve_right List.not_mem_nil
  | cons n l ih =>
    by_cases h3 : lmapState (c.lmapReg m) = 3
    · have hn := hlost c n h3
      exact ih (c := c.lose n 3) (by omega) (.inl hn)
    · have hle : lmapState (c.lmapReg m) ≤ 1 := by
        have := hlt c
        omega
      by_cases hmn : m = n
      · subst hmn
        have hm := Core.lmapState_lose_self hle (by decide : 2 ≤ 3) (by decide)
        exact ih (c := c.lose m 3) (by omega) (.inl hm)
      · have hm := Core.lmapState_lose_other 3 hmn hle
        exact ih (c := c.lose n 3) (by omega) (.inr ((List.mem_cons.mp (h.resolve_left h3)).resolve_left hmn))

theorem Core.lose_mismatches (c : Core) (n state : Nat) : (c.lose n state).mismatches = c.mismatches := by
  by_cases h : 2 ≤ lmapState (c.lmapReg n)
  · rw [Core.lose_of_lost state h]
  · obtain hl | ⟨-, -, hl⟩ | ⟨f, -, hl⟩ := Core.lose_cases state (by omega : lmapState (c.lmapReg n) ≤ 1) <;> rw [hl] <;> rfl

end

end Sys2Proof.Machine
end

section
/-!
PROOFS. The events of a core (R158, R171, R177, R178, R229 to R231, R260, R270, R272): the clock gate, CORE_RESET, LANE_TEST, the
injected failure, the host's resume and the matrix watchdog. What reset leaves (R166, R252 to R254, R288, R354, R364).
-/

namespace Sys2Proof.Machine

section
variable (s : State) (core : Nat)

/-! ### The clock gate -/

/-- A core that does not issue and whose strands of the active bank and of the scribe slot do not run gates its clock. -/
theorem coreGate_idle (hissue : ∀ i, s.issue = some i → i.core ≠ core) (hg : (s.core core).gated = false)
    (hidle : ∀ p ∈ s.strands, (waveBank (strandWave p.1) = s.activeBank core ∨ waveBank (strandWave p.1) = 1024 + core) →
      s.running p.1 p.2 = false) :
    exec (.coreGate core) s = .next (s.modCore core fun c => { c with gated := true, woken := false }) := by
  have hnone : (s.strands.any fun p => (waveBank (strandWave p.1) = s.activeBank core ||
      waveBank (strandWave p.1) = scribeBank core) && s.running p.1 p.2) = false := by
    simp only [List.any_eq_false, Bool.and_eq_true, Bool.or_eq_true, decide_eq_true_eq, not_and]
    intro p hp hb
    exact Bool.eq_false_iff.mp (hidle p hp hb)
  have hall : (s.issue.all fun i => i.core ≠ core) = true := by
    simpa [Option.all_eq_true] using hissue
  rw [exec_coreGate]
  refine eventStep_some ?_
  dsimp only
  rw [hg, hall, hnone]
  rfl

theorem coreWake_woken (hg : (s.core core).gated = true) (hw : (s.core core).woken = true) :
    exec (.coreWake core) s = .next (s.modCore core fun c => { c with gated := false, woken := false }) := by
  rw [exec_coreWake]
  exact eventStep_some (by simp [hg, hw, guard])

/-! ### CORE_RESET -/

@[simp] theorem State.writeBackAll_units (cores : List Nat) : (s.writeBackAll cores).units = s.units :=
  foldl_keeps State.units (fun t _ => foldl_keeps State.units (fun t _ => t.writeBack_units ..) _ t) cores s

/-- What CORE_RESET leaves of a core whose lane map and management fields are those of `c`. -/
def Core.afterReset (c : Core) : Core :=
  { Core.reset with
    active := c.active, lmap := c.fuseMap, items := c.items, halted := c.halted, held := c.held,
    mismatches := c.mismatches, inject := c.inject, issueCount := c.issueCount }

/-- The machine that a CORE_RESET leaves, before grids lose the core. -/
def State.afterCoreReset : State :=
  ((((s.writeBackAll [core]).modCore core Core.afterReset).modBank (bankNo core 0) Bank.atReset).modBank (bankNo core 1)
    Bank.atReset)

theorem coreReset_result (hlt : core < 512) (hholds : s.coreHolds core = false) (hscribe : s.scribeToMove core = false)
    (hswaps : (s.core core).swaps = []) (hissue : ∀ i, s.issue = some i → i.core ≠ core) :
    exec (.coreReset core) s = .next (s.afterCoreReset core).losePin := by
  have hall : (s.issue.all fun i => i.core ≠ core) = true := by
    simpa [Option.all_eq_true] using hissue
  rw [exec_coreReset]
  refine eventStep_some ?_
  dsimp only
  rw [decide_eq_true (show core < Config.cores from hlt), hholds, hscribe, hswaps, hall]
  rfl

theorem State.afterCoreReset_core :
    (s.afterCoreReset core).core core = ((s.writeBackAll [core]).core core).afterReset :=
  Tbl.get_set_same ..

theorem State.writeBackAll_fuseMap : ((s.writeBackAll [core]).core core).fuseMap = (s.core core).fuseMap := by
  have hunit : ((s.writeBackAll [core]).core core).besideL1 = (s.core core).besideL1 :=
    congrFun (s.writeBackAll_units [core]) core
  show ((s.writeBackAll [core]).core core).besideL1.fuseMap = (s.core core).besideL1.fuseMap
  rw [hunit]

theorem State.afterCoreReset_bank {b : Nat} (hb : b < 2) :
    ∃ x : Bank, (s.afterCoreReset core).bank (bankNo core b) = x.atReset := by
  have hne : bankNo core 0 ≠ bankNo core 1 := by
    unfold bankNo
    omega
  have hcase : b = 0 ∨ b = 1 := by omega
  obtain rfl | rfl := hcase
  · exact ⟨_, (Tbl.get_set_other _ _ _ hne).trans (Tbl.get_set_same ..)⟩
  · exact ⟨_, Tbl.get_set_same ..⟩

/-! ### LANE_TEST -/

/-- An injected fault acts on the logical lane that a physical lane carries (R272). -/
def Core.faultActs (c : Core) (n : Nat) : Bool :=
  match c.inject with
  | some (p, start) => p = n && decide (start < c.issueCount) && lmapState (c.lmapReg n) = 0
  | none => false

/-- The lanes that LANE_TEST takes out of use (R270): those of a record that fail, by themselves or by an injected fault; else those
that two records name. -/
def Core.condemned (c : Core) (failed : List Nat) : List Nat :=
  let named := dedup (c.mismatches.flatMap Mismatch.physical)
  let bad := named.filter fun n => failed.contains n || c.faultActs n
  if bad.isEmpty then named.filter fun n => 2 ≤ (c.mismatches.filter fun m => m.physical.contains n).length else bad

/-- A core after LANE_TEST. -/
def Core.tested (c : Core) (failed : List Nat) : Core :=
  { (c.condemned failed).foldl (fun c n => c.lose n 3) c with held := false }

theorem laneTest_result (failed : List Nat) (htest : s.device.testAccess = true) (hheld : (s.core core).held = true)
    (hholds : s.coreHolds core = false) (hscribe : s.scribeToMove core = false) :
    exec (.laneTest core failed) s = .next (s.modCore core (Core.tested · failed)).losePin := by
  rw [exec_laneTest]
  refine eventStep_some ?_
  dsimp only
  rw [htest, hheld, hholds, hscribe]
  rfl

variable {s core}

theorem Core.mem_condemned_of_failed {c : Core} {failed : List Nat} {n : Nat} (hn : n ∈ c.mismatches.flatMap Mismatch.physical)
    (hf : n ∈ failed) : n ∈ c.condemned failed := by
  unfold Core.condemned
  dsimp only
  split
  · next hbad =>
    rw [List.isEmpty_iff, List.filter_eq_nil_iff] at hbad
    exact absurd (by simp [hf]) (hbad n ((mem_dedup ..).mpr hn))
  · exact List.mem_filter.mpr ⟨(mem_dedup ..).mpr hn, by simp [hf]⟩

theorem Core.mem_condemned_of_two {c : Core} {failed : List Nat} {n : Nat} (hi : c.inject = none)
    (hnone : ∀ n ∈ c.mismatches.flatMap Mismatch.physical, n ∉ failed)
    (h2 : 2 ≤ (c.mismatches.filter fun m => m.physical.contains n).length) : n ∈ c.condemned failed := by
  have hnamed : n ∈ c.mismatches.flatMap Mismatch.physical := by
    obtain ⟨m, hm⟩ := List.exists_mem_of_length_pos (Nat.lt_of_lt_of_le Nat.zero_lt_two h2)
    rw [List.mem_filter, List.contains_iff_mem] at hm
    exact List.mem_flatMap.mpr ⟨m, hm⟩
  have hbad : ((dedup (c.mismatches.flatMap Mismatch.physical)).filter fun n => failed.contains n || c.faultActs n) = [] := by
    rw [List.filter_eq_nil_iff]
    intro k hk
    simpa [Core.faultActs, hi] using hnone k ((mem_dedup ..).mp hk)
  unfold Core.condemned
  dsimp only
  rw [hbad]
  exact List.mem_filter.mpr ⟨(mem_dedup ..).mpr hnamed, decide_eq_true h2⟩

/-- A lane that LANE_TEST condemns and that was good is quarantined. -/
theorem Core.tested_lost {c : Core} {failed : List Nat} {n : Nat} (hn : n ∈ c.condemned failed)
    (hgood : lmapState (c.lmapReg n) ≤ 1) : lmapState ((c.tested failed).lmapReg n) = 3 :=
  lmapState_foldl_lose (by omega) (.inr hn)

theorem Core.tested_mismatches (c : Core) (failed : List Nat) : (c.tested failed).mismatches = c.mismatches :=
  foldl_keeps Core.mismatches (fun c n => c.lose_mismatches n 3) _ c

/-! ### The injected failure and the host's resume -/

theorem failLaneInject_result {lane issue : Nat} (htest : s.device.testAccess = true) (hlt : core < 512) (hlane : lane ≤ 64) :
    exec (.failLaneInject core lane issue) s =
      .next (s.modCore core fun c => { c with inject := some (lane, c.issueCount + issue - 1) }) := by
  rw [exec_failLaneInject]
  exact eventStep_some (by simp [htest, hlt, hlane, Config.cores, guard])

theorem hostResumeCore_result (hh : (s.core core).halted = true) (hboot : s.device.boot ≠ .recovery) :
    exec (.hostResumeCore core) s = .next (s.modCore core fun c => { c with halted := false }) := by
  rw [exec_hostResumeCore]
  exact eventStep_some (by simp [State.accepts, hh, hboot])

/-! ### The matrix watchdog -/

variable (s core) in
/-- The teams that MXWD kills: those placed on the core with tiles, or with a command in a queue of it (R231). -/
def State.engineTeams : List Nat :=
  let banks := [bankNo core 0, bankNo core 1]
  let queued := banks.flatMap fun b => (s.bank b).mxQueue.map (·.team)
  (s.teams.filter fun p =>
    banks.contains p.2.bank && !p.2.waiting && (!p.2.tiles.isEmpty || queued.contains p.1)).map (·.1)

variable (s core) in
/-- The machine with the engine of a core reset: queues, latch and tiles are empty (R230). -/
def State.engineReset : State :=
  ([bankNo core 0, bankNo core 1].foldl (fun s b => s.modBank b fun y => { y with mxQueue := [] }) s).setCore core
    { s.core core with latch := none, tiles := [], tileBad := [] }

theorem mxwdFire_kills {x : MxEntry} {rest : List MxEntry} (hq : (s.bank (s.activeBank core)).mxQueue = x :: rest)
    (hheld : s.engineHeld core = false) (hwd : (s.core core).mxwd.msb = true) :
    exec (.mxwdFire core) s = .next ((s.engineTeams core).foldl
      (fun s t => s.killTeam t MXRESET { ErrorRec.blank with core := core }) (s.engineReset core)) := by
  rw [exec_mxwdFire]
  refine eventStep_some (if_neg ?_)
  rw [BitVec.msb_eq_getLsbD_last] at hwd
  simp [hq, hheld, hwd]

theorem State.engineEmpty_engineReset : (s.engineReset core).EngineEmpty core := by
  have hcore : (s.engineReset core).core core = { s.core core with latch := none, tiles := [], tileBad := [] } :=
    Tbl.get_set_same ..
  exact ⟨congrArg Core.latch hcore, congrArg Core.tiles hcore⟩

theorem State.mem_engineTeams {k : Nat} {t : Team} (ht : s.teams.find k = some t)
    (hb : t.bank = bankNo core 0 ∨ t.bank = bankNo core 1) (hw : t.waiting = false) (htiles : t.tiles ≠ []) :
    k ∈ s.engineTeams core :=
  List.mem_map.mpr ⟨(k, t), List.mem_filter.mpr ⟨Tbl.mem_of_find ht, by simp [hb, hw, htiles]⟩, rfl⟩

end

/-! ### The statements -/

/-- Settles O46: each event is enabled, and what a core reset, a lane test and the watchdog leave is read off the state that each
makes. -/
theorem coreEvents : Obligations.CoreEvents := by
  refine ⟨coreGate_idle, coreWake_woken, ?_, ?_, fun s core lane issue => failLaneInject_result,
    fun s core => hostResumeCore_result, ?_⟩
  · intro s core hlt hholds hscribe hswaps hissue
    refine ⟨s.afterCoreReset core, coreReset_result s core hlt hholds hscribe hswaps hissue, s.writeBackAll_mem [core], ?_⟩
    rw [State.afterCoreReset_core]
    refine ⟨rfl, s.writeBackAll_fuseMap core, rfl, rfl, rfl, rfl, rfl, fun b hb => ?_⟩
    obtain ⟨x, hx⟩ := s.afterCoreReset_bank core hb
    rw [hx]
    exact ⟨rfl, rfl, rfl⟩
  · intro s core failed htest hheld hholds hscribe c named
    have hcore : (s.modCore core (Core.tested · failed)).core core = c.tested failed := Tbl.get_set_same ..
    refine ⟨_, laneTest_result s core failed htest hheld hholds hscribe, rfl, ?_⟩
    rw [hcore]
    exact ⟨rfl, c.tested_mismatches failed,
      fun n _ hn hf hgood => Core.tested_lost (Core.mem_condemned_of_failed hn hf) hgood,
      fun hi hnone n _ h2 hgood => Core.tested_lost (Core.mem_condemned_of_two hi hnone h2) hgood⟩
  · intro s core x rest hq hheld hwd
    obtain ⟨hlatch, htiles⟩ := List.foldlRecOn (motive := fun t => State.EngineEmpty t core) (s.engineTeams core)
      (fun s t => s.killTeam t MXRESET { ErrorRec.blank with core := core }) State.engineEmpty_engineReset
      fun _ ht k _ => ht.killTeam k _ _
    refine ⟨_, mxwdFire_kills hq hheld hwd, hlatch, htiles, fun k t ht hb hw htl => ?_⟩
    exact foldl_establishes (P := fun s k => s.Slain MXRESET k) (fun s k => s.killTeam_slain k _ _) (fun _ _ _ hs => hs.killTeam)
      (.inr (State.mem_engineTeams ht hb hw htl))

/-- Settles O56: no table of the machine lists anything, so that each bank, core, cluster and die reads as at its reset. -/
theorem resetState : Obligations.ResetState := by
  have hbank (b : Nat) : State.reset.bank b = Bank.reset := rfl
  have hcore (c : Nat) : State.reset.core c = Core.reset := rfl
  have hcluster (c : Nat) : State.reset.cluster c = Cluster.reset := rfl
  have hdie (d : Nat) : State.reset.die d = Die.reset := rfl
  refine ⟨rfl, rfl, rfl, rfl, rfl, rfl, rfl, rfl, rfl, rfl, rfl, rfl, rfl, rfl, ?_, ?_, ?_, ?_, rfl, rfl, rfl, fun _ => rfl⟩
  · exact fun b => hbank b ▸ ⟨rfl, rfl, rfl, rfl, rfl, rfl, rfl⟩
  · exact fun c => hcore c ▸ ⟨rfl, rfl, rfl, rfl, rfl⟩
  · exact fun c => hcluster c ▸ ⟨rfl, rfl, rfl, rfl⟩
  · exact fun d => hdie d ▸ rfl

end Sys2Proof.Machine
end

section
/-!
PROOFS. A lane at its meet (R179 to R184): what each group instruction presents, the meet that the lane joins, and what becomes of
that meet.
-/

namespace Sys2Proof.Machine

open Sys2Proof.Safety

/-! ### The group instructions -/

/-- Which of the words that a lane brings are consumed where it presents (R13, R191 to R194). -/
def eaten : Instr → List (Word × Bool) → Bool
  | .gred .. | .gscan .. | .cdet .. | .gcombF32 .. | .gcombS32 .. => anyPoison
  | .shflIdx .. => fun l => (l.drop 1).any (·.2)
  | _ => noPoison

/-- Words without poison are consumed without harm. -/
theorem eaten_clean (i : Instr) {words : List (Word × Bool)} (hw : words.any (·.2) = false) : eaten i words = false := by
  unfold eaten
  split
  case h_6 =>
    rw [List.any_eq_false] at hw ⊢
    exact fun x hx => hw x (List.mem_of_mem_drop hx)
  case h_7 => rfl
  all_goals exact hw

/-- Every group instruction presents what it asks for. -/
theorem exec_asked {i : Instr} {q : Asked} (s : State) (hq : asked i = some q) :
    exec i s = present s q.ask q.reads (eaten i) := by
  unfold asked at hq
  split at hq <;> cases hq <;> rfl

/-! ### The lane before its meet -/

section
variable {s : State} {e : Env} {a : Ask}

/-- The lane that executes is a live strand. -/
theorem env_live (hs : s.env = some e) : ∃ st, s.strands.find e.key = some st ∧ st.life ≠ .exited := by
  simp only [State.env] at hs
  split at hs
  · cases hs
  · next st hst =>
    split at hs
    · cases hs
    · split at hs
      · cases hs
      · next hlife => cases hs; exact ⟨st, hst, hlife⟩

/-- The number of a lane's strand in its wave. -/
theorem env_strandNo (hs : s.env = some e) : strandNo e.waveKey e.lane = e.key := by
  rw [env_waveKey hs]
  simp only [strandNo, strandWave, Env.lane, strandLane]
  omega

theorem Env.mem_liveLanes (hs : s.env = some e) (hl : e.lane < e.wave.width) : e.lane ∈ e.liveLanes := by
  obtain ⟨st, hst, hlife⟩ := env_live hs
  refine List.mem_filter.mpr ⟨List.mem_range.mpr hl, ?_⟩
  rw [env_strandNo hs, env_s hs, hst]
  exact decide_eq_true hlife

/-- The lane with its wave as it reads it at its meet: it does not interlock on the meet that it is to join (log 30). -/
def Env.atMeet (e : Env) (a : Ask) : Env := { e with wave := e.wave.without a.cls a.tag }

/-- Where no meet of the key is open there is nothing to leave out. -/
theorem Env.atMeet_of_none (h : openMeet e a = none) : e.atMeet a = e := by
  have hmeets : (e.wave.without a.cls a.tag).meets = e.wave.meets :=
    List.filter_eq_self.mpr fun m hm => by rw [Bool.eq_false_iff.mpr (List.find?_eq_none.mp h m hm)]; rfl
  show { e with wave := { e.wave with meets := (e.wave.without a.cls a.tag).meets } } = e
  rw [hmeets]

/-! ### The meet that the lane joins -/

section
variable {kv : Dword} {words : List (Word × Bool)} {p : Bool}

theorem joined_of_some {m : Meet} (h : openMeet e a = some m) :
    joined e a kv words p = { m with presenters := insertPresenter (brought e a words p) m.presenters } := by
  rw [joined, h]

theorem joined_of_none (h : openMeet e a = none) :
    joined e a kv words p =
      { id := e.s.nextId, closed := false, cls := a.cls, tag := a.tag, own := none, minor := a.minor, op := a.op,
        order := a.order, scope := a.scope, kEnable := a.e = 1, kValue := kv, dst := a.dst, src := a.src,
        presenters := [brought e a words p], members := e.liveLanes.filter fun l => a.e = 0 || kv.getLsbD l,
        acks := none, asked := false, parts := [] } := by
  rw [joined, h]

/-- A lane is a participant of the meet that it joins. -/
theorem lane_mem_joined (hs : s.env = some e) (hopen : ∀ m, openMeet e a = some m → e.lane ∈ m.members)
    (hnew : openMeet e a = none → a.e = 1 → kv.getLsbD e.lane = true) (hl : e.lane < e.wave.width) :
    e.lane ∈ (joined e a kv words p).members := by
  unfold joined
  split
  · next m h => exact hopen m h
  · next h =>
    refine List.mem_filter.mpr ⟨Env.mem_liveLanes hs hl, ?_⟩
    rcases BitVec.eq_zero_or_eq_one a.e with he | he
    · simp [he]
    · simp [hnew h he]

/-- The machine once the lane stands Blocked in its meet (R180). -/
def Env.presented (e : Env) (a : Ask) (m : Meet) : State :=
  (({ e.s with nextId := if openMeet e a = none then e.s.nextId + 1 else e.s.nextId } : State).setWave e.waveKey
    { e.wave with meets := e.wave.meets.filter (·.id ≠ m.id) ++ [m] }).setStrand e.key
    { e.st with pc := e.bundle, life := .blocked (.meet a.cls a.tag false) }

/-- A lane outside a handler that reads clean words and agrees with its meet joins it, and the meet is tried. -/
theorem present_joins {reads : Env → Act (List (Word × Bool) × Bool)} {eats : List (Word × Bool) → Bool}
    (hs : s.env = some e) (ha : Alone e) (hh : e.st.handler = none) (hregs : ∀ n ∈ a.regs, Has e n)
    (hk : (if a.e = 1 then (e.atMeet a).kReg a.k.toNat else .ok 0) = .ok kv) (hreads : reads (e.atMeet a) = .ok (words, p))
    (hclean : words.any (·.2) = false) (heats : eats words = false)
    (hopen : ∀ m, openMeet e a = some m → e.lane ∈ m.members ∧ m.agrees a kv = true)
    (hnew : openMeet e a = none → a.e = 1 → kv.getLsbD e.lane = true) (hl : e.lane < e.wave.width) :
    present s a reads eats = .next ((e.presented a (joined e a kv words p)).tryMeet e.waveKey (joined e a kv words p).id) := by
  have hmem : e.lane ∈ (joined e a kv words p).members := lane_mem_joined hs (fun m h => (hopen m h).1) hnew hl
  have hroom := Env.room_of_alone ha
  have hown : e.st.handler.isSome = false := by rw [hh]; rfl
  have hkv (f : Dword → Act State) :
      (if a.e = 1 then (e.atMeet a).kReg a.k.toNat >>= f else (Except.ok 0 : Act Dword) >>= f) = f kv := by
    rw [← apply_ite (· >>= f), hk]
    rfl
  have hfree : (eats words || (a.leads && e.liveLanes.find? (joined e a kv words p).members.contains == some e.lane &&
      words.any (·.2))) = false := by
    rw [heats, hclean, Bool.and_false, Bool.or_false]
  have hok {α β : Type} (x : α) (f : α → Act β) : ((Except.ok x : Act α) >>= f) = f x := rfl
  refine runLane_ok hs ?_
  cases h : openMeet e a with
  | none =>
    rw [joined_of_none h] at hmem hfree ⊢
    rw [Env.atMeet_of_none h] at hkv hreads
    have hin := List.contains_iff_mem.mpr hmem
    unfold openMeet at h
    simp only [h, hown, hroom, hok, exist_ok hregs, Bool.false_eq_true, if_false, Option.any_none, ite_self]
    refine (hkv _).trans ?_
    simp only [hreads, hok, hin, hfree, Bool.not_true, Bool.not_false, Bool.false_eq_true, if_false, require, if_true,
      Env.presented, openMeet, h]
    rfl
  | some m =>
    have hagrees := (hopen m h).2
    rw [joined_of_some h] at hmem hfree ⊢
    have hin := List.contains_iff_mem.mpr hmem
    unfold openMeet at h
    simp only [h, hown, hroom, hok, exist_ok hregs, Bool.false_eq_true, if_false, Option.any_some, ite_self, hin, if_true]
    refine (hkv _).trans ?_
    unfold Env.atMeet at hreads
    simp only [hreads, hok, hagrees, hfree, Bool.not_true, Bool.not_false, Bool.false_eq_true, if_false, require, if_true,
      Env.presented, openMeet, h, reduceCtorEq]
    rfl

end

end

/-! ### What becomes of a meet -/

section
variable {s : State} {wk : Nat} {w : Wave} {m : Meet}

/-- A meet that some live participant has not reached goes on waiting (R180). -/
theorem State.tryMeet_waits (hw : s.waves.find wk = some w) (hm : w.meets.find? (·.id = m.id) = some m)
    (hwait : ∃ l ∈ s.meetLive wk m, ∀ x ∈ m.presenters, x.lane ≠ l) : s.tryMeet wk m.id = s := by
  have hnot : ¬ ((s.meetLive wk m).all fun l => m.presenters.any (·.lane = l)) = true := by simpa using hwait
  simp only [State.tryMeet, hw, hm, if_neg hnot]

/-- A meet that every live participant has reached closes and does what its operation does (R180). -/
theorem State.tryMeet_closes (hw : s.waves.find wk = some w) (hm : w.meets.find? (·.id = m.id) = some m)
    (hall : ∀ l ∈ s.meetLive wk m, ∃ x ∈ m.presenters, x.lane = l) :
    s.tryMeet wk m.id =
      let c := { m with closed := true }
      let w' := { w with meets := w.meets.map fun y => if y.id = m.id then c else y }
      ((s.setWave wk w').finishMeet wk w' c).getD (s.setWave wk w') := by
  have hyes : ((s.meetLive wk m).all fun l => m.presenters.any (·.lane = l)) = true := by simpa using hall
  simp only [State.tryMeet, hw, hm, if_pos hyes]

/-- The meet put behind the others is the one of its number. -/
theorem find_meet_put (l : List Meet) (m : Meet) : (l.filter (·.id ≠ m.id) ++ [m]).find? (·.id = m.id) = some m := by
  have hnone : (l.filter (·.id ≠ m.id)).find? (·.id = m.id) = none := by simp
  rw [List.find?_append, hnone]
  simp

end

/-! ### The statement -/

/-- Settles O26: the lane joins its meet, which is tried at once: it waits for a live participant, or closes. -/
theorem groupPresents : Obligations.GroupPresents := by
  intro s e i q kv words p hs ha hq hh hregs hk hreads hclean hopen hnew hl m w base t
  have hjoins : exec i s = .next (t.tryMeet e.waveKey m.id) := by
    obtain rfl : e.s = s := env_s hs
    rw [exec_asked _ hq]
    exact present_joins hs ha hh hregs hk hreads hclean (eaten_clean i hclean) hopen hnew hl
  have hw : t.waves.find e.waveKey = some w := Tbl.find_set_same ..
  have hm : w.meets.find? (·.id = m.id) = some m := find_meet_put ..
  rw [hjoins]
  refine ⟨fun hwait => ?_, fun hall => ?_⟩
  · rw [State.tryMeet_waits hw hm hwait]
  · rw [State.tryMeet_closes hw hm hall]

end Sys2Proof.Machine
end

section
/-!
PROOFS. What a completed meet gives (R50 to R53, R131, R187, R189 to R194): the ballot's bits, shuffles and groups by lane, and the
tree and the sequential fold of reductions and scans as one fold in lane order.
-/

namespace Sys2Proof.Machine

/-! ### Presenters in lane order -/

/-- The presenters stand in ascending lane order. -/
abbrev LaneOrdered (ps : List Presenter) : Prop := ps.Pairwise fun a b => a.lane < b.lane

section
variable {ps : List Presenter} {p q : Presenter}

/-- Two presenters of one lane are the same. -/
theorem LaneOrdered.eq_of_lane (ho : LaneOrdered ps) (hp : p ∈ ps) (hq : q ∈ ps) (h : p.lane = q.lane) : p = q := by
  have hlanes : (ps.map (·.lane)).Nodup := List.pairwise_map.mpr (ho.imp Nat.ne_of_lt)
  exact List.inj_on_of_nodup_map hlanes hp hq h

theorem LaneOrdered.find_lane (ho : LaneOrdered ps) (hp : p ∈ ps) : ps.find? (·.lane = p.lane) = some p := by
  cases h : ps.find? (·.lane = p.lane) with
  | none => exact absurd (List.find?_eq_none.mp h p hp) (by simp)
  | some q => rw [ho.eq_of_lane (List.mem_of_find?_eq_some h) hp (by simpa using List.find?_some h)]

/-- The presenters are found lane by lane. -/
theorem LaneOrdered.filterMap_range (ho : LaneOrdered ps) {width : Nat} (hw : ∀ p ∈ ps, p.lane < width) :
    (List.range width).filterMap (fun l => ps.find? (·.lane = l)) = ps := by
  have hfind {l : Nat} {q : Presenter} : ps.find? (·.lane = l) = some q ↔ q ∈ ps ∧ q.lane = l := by
    constructor
    · intro h
      exact ⟨List.mem_of_find?_eq_some h, by simpa using List.find?_some h⟩
    · rintro ⟨hq, rfl⟩
      exact ho.find_lane hq
  have hordered : LaneOrdered ((List.range width).filterMap fun l => ps.find? (·.lane = l)) := by
    refine List.pairwise_filterMap.mpr (List.pairwise_lt_range.imp fun hlt b hb b' hb' => ?_)
    rw [(hfind.mp hb).2, (hfind.mp hb').2]
    exact hlt
  have hperm : ((List.range width).filterMap fun l => ps.find? (·.lane = l)).Perm ps := by
    refine (List.perm_ext_iff_of_nodup (hordered.imp fun h => ?_) (ho.imp fun h => ?_)).mpr fun q => ?_
    · rintro rfl; exact Nat.lt_irrefl _ h
    · rintro rfl; exact Nat.lt_irrefl _ h
    · simp only [List.mem_filterMap, List.mem_range, hfind]
      exact ⟨fun ⟨_, _, hq, _⟩ => hq, fun hq => ⟨_, hw q hq, hq, rfl⟩⟩
  exact hperm.eq_of_pairwise (fun a b _ _ h h' => absurd h (Nat.lt_asymm h')) hordered ho

end

/-! ### The ballot -/

theorem sum_ite_two_pow (ps : List Presenter) :
    (ps.map fun p => if p.pred then 2 ^ p.lane else 0).sum = (((ps.filter (·.pred)).map (·.lane)).map (2 ^ ·)).sum := by
  induction ps with
  | nil => rfl
  | cons p ps ih => cases h : p.pred <;> simp [h, ih]

/-- A bit of the ballot is the predicate of its lane (R189). -/
theorem getLsbD_ballot {ps : List Presenter} (ho : LaneOrdered ps) {l : Nat} (hl : l < 64) :
    (ballot ps).getLsbD l = ps.any fun p => p.lane = l && p.pred := by
  have hlanes : ((ps.filter (·.pred)).map (·.lane)).Pairwise (· < ·) := List.pairwise_map.mpr (ho.filter _)
  rw [ballot, BitVec.getLsbD_ofNat, sum_ite_two_pow, Bool.eq_iff_iff, Bool.and_eq_true, ← Nat.mem_bitIndices,
    Nat.bitIndices_sum_map_two_pow hlanes.sortedLT]
  simp only [hl, decide_true, true_and, List.mem_map, List.mem_filter, List.any_eq_true, Bool.and_eq_true, decide_eq_true_eq]
  exact exists_congr fun p => by tauto

/-! ### Reductions and scans -/

section
variable (o : Op)

/-- Two values combined, where each may be missing (R51, R52). -/
def Op.merge : Option Word → Option Word → Option Word := Option.merge fun x y => (o.apply x y).1

/-- The values of presenters combined in their order with what has been gathered before (R52). -/
def Op.gather (x : Option Word) (ps : List Presenter) : Option Word := ps.foldl (fun x q => o.merge x (some (q.word 0))) x

theorem Op.gather_some (x : Word) (ps : List Presenter) :
    o.gather (some x) ps = some (ps.foldl (fun x q => (o.apply x (q.word 0)).1) x) := by
  induction ps generalizing x with
  | nil => rfl
  | cons q ps ih => exact ih _

theorem Op.gather_cons (q : Presenter) (ps : List Presenter) :
    o.gather none (q :: ps) = some (ps.foldl (fun x q => (o.apply x (q.word 0)).1) (q.word 0)) :=
  o.gather_some (q.word 0) ps

/-- The sequential fold gives a lane what the presenters up to and with it gather (R52). -/
theorem find_scanFold {ps : List Presenter} (ho : LaneOrdered ps) {p : Presenter} (hp : p ∈ ps) (acc : Option (Word × Flags)) :
    ∃ x f, (scanFold o acc (ps.map fun q => (q.lane, q.word 0))).find? (·.1 = p.lane) = some (p.lane, x, f) ∧
      o.gather (acc.map (·.1)) (ps.filter (·.lane ≤ p.lane)) = some x := by
  induction ps generalizing acc with
  | nil => cases hp
  | cons q ps ih =>
    obtain ⟨hq, ho⟩ := List.pairwise_cons.mp ho
    obtain ⟨y, g, hscan, hy⟩ : ∃ y g, scanFold o acc ((q :: ps).map fun q => (q.lane, q.word 0)) =
        (q.lane, y, g) :: scanFold o (some (y, g)) (ps.map fun q => (q.lane, q.word 0)) ∧
        o.merge (acc.map (·.1)) (some (q.word 0)) = some y := by
      cases acc <;> exact ⟨_, _, rfl, rfl⟩
    have hgather (l : List Presenter) : o.gather (acc.map (·.1)) (q :: l) = o.gather (some y) l :=
      congrArg (o.gather · l) hy
    rw [hscan]
    rcases List.mem_cons.mp hp with rfl | hp
    · have hlater : ps.filter (·.lane ≤ p.lane) = [] :=
        List.filter_eq_nil_iff.mpr fun r hr => by have := hq r hr; simp; omega
      refine ⟨y, g, by simp, ?_⟩
      rw [List.filter_cons_of_pos (by simp), hgather, hlater]
      rfl
    · have hlt := hq p hp
      rw [List.filter_cons_of_pos (by simpa using hlt.le), hgather, List.find?_cons_of_neg (by simpa using hlt.ne)]
      exact ih ho hp _

/-- Every operation but those on floats is associative (R50): a tie of two values keeps the older, which is the same word. -/
theorem Op.apply_assoc (ho : o ∉ [.addF, .mulF, .minF, .maxF]) (x y z : Word) :
    (o.apply (o.apply x y).1 z).1 = (o.apply x (o.apply y z).1).1 := by
  cases o with
  | addF | mulF | minF | maxF => simp at ho
  | add => exact BitVec.add_assoc x y z
  | and => exact BitVec.and_assoc x y z
  | or => exact BitVec.or_assoc x y z
  | xor => exact BitVec.xor_assoc x y z
  | minS | maxS | minU | maxU => simp only [Op.apply]; grind

theorem Op.merge_assoc (ho : o ∉ [.addF, .mulF, .minF, .maxF]) (x y z : Option Word) :
    o.merge (o.merge x y) z = o.merge x (o.merge y z) :=
  have : Std.Associative fun x y => (o.apply x y).1 := ⟨o.apply_assoc ho⟩
  Std.Associative.assoc (op := Option.merge fun x y => (o.apply x y).1) x y z

theorem treeLevel_cons_cons (x y : Option Word) (l : List (Option Word)) :
    (treeLevel o (x :: y :: l)).1 = o.merge x y :: (treeLevel o l).1 := by
  cases x <;> cases y <;> rfl

/-- A level of the tree halves the positions and keeps what they combine to. -/
theorem treeLevel_keeps (ho : o ∉ [.addF, .mulF, .minF, .maxF]) :
    ∀ (n : Nat) (l : List (Option Word)) (x : Option Word), l.length = 2 * n →
      (treeLevel o l).1.length = n ∧ (treeLevel o l).1.foldl o.merge x = l.foldl o.merge x
  | 0, l, x, hl => by
    obtain rfl := List.eq_nil_of_length_eq_zero hl
    exact ⟨rfl, rfl⟩
  | n + 1, [], _, hl => by simp at hl
  | n + 1, [_], _, hl => by rw [List.length_singleton] at hl; omega
  | n + 1, y :: z :: l, x, hl => by
    obtain ⟨hlen, hfold⟩ := treeLevel_keeps ho n l (o.merge x (o.merge y z)) (by simp only [List.length_cons] at hl; omega)
    rw [treeLevel_cons_cons, List.length_cons, List.foldl_cons, hlen, hfold, ← o.merge_assoc ho]
    exact ⟨rfl, rfl⟩

/-- The tree over 2^n positions gives what they combine to in their order. -/
theorem treeReduce_eq_foldl (ho : o ∉ [.addF, .mulF, .minF, .maxF]) (n : Nat) (l : List (Option Word)) (f : Flags)
    (hl : l.length = 2 ^ n) : (treeReduce o n l f).1 = l.foldl o.merge none := by
  induction n generalizing l f with
  | zero =>
    obtain ⟨x, rfl⟩ := List.length_eq_one_iff.mp hl
    cases x <;> rfl
  | succ n ih =>
    obtain ⟨hlen, hfold⟩ := treeLevel_keeps o ho (2 ^ n) l none (by omega)
    exact (ih _ _ hlen).trans hfold

/-- What the lanes of a wave combine to, those that are absent left out, is what its presenters gather. -/
theorem foldl_range_eq_gather {ps : List Presenter} (ho : LaneOrdered ps) {width : Nat} (hw : ∀ p ∈ ps, p.lane < width) :
    ((List.range width).map fun l => (ps.find? (·.lane = l)).map (·.word 0)).foldl o.merge none = o.gather none ps := by
  conv_rhs => rw [← ho.filterMap_range hw]
  rw [Op.gather, List.foldl_filterMap, List.foldl_map]
  congr
  funext x l
  cases ps.find? (·.lane = l) with
  | none => exact Option.merge_none_right
  | some q => rfl

end

/-! ### The results of one presenter -/

section
variable {w : Wave} {m : Meet} {ps : List Presenter} {p : Presenter}

/-- A scan gives what the presenters up to the lane gather (R52, R191). -/
theorem groupFold_scan (hm : m.minor = 8) (ho : LaneOrdered ps) (hp : p ∈ ps) {x : Word}
    (hx : (Op.ofGroup m.op).gather none (ps.filter (·.lane ≤ p.lane)) = some x) :
    (groupFold w m ps p).v = [(p.d, x, false)] := by
  obtain ⟨y, f, hfind, hy⟩ := find_scanFold (Op.ofGroup m.op) ho hp none
  obtain rfl : y = x := Option.some.inj (hy.symm.trans hx)
  simp [groupFold, hm, hfind]

/-- A reduction by an operation that is associative gives what all presenters gather (R51, R191). -/
theorem groupFold_reduce (hm : m.minor = 7) (hop : Op.ofGroup m.op ∉ [.addF, .mulF, .minF, .maxF]) (ho : LaneOrdered ps)
    (hw : ∀ q ∈ ps, q.lane < w.width) (hwidth : w.width = 2 ^ Nat.log2 w.width) {x : Word}
    (hx : (Op.ofGroup m.op).gather none ps = some x) : (groupFold w m ps p).v = [(p.d, x, false)] := by
  have htree := treeReduce_eq_foldl _ hop (Nat.log2 w.width)
    ((List.range w.width).map fun l => (ps.find? (·.lane = l)).map (·.word 0)) 0 (by simpa using hwidth)
  rw [foldl_range_eq_gather _ ho hw, hx] at htree
  simp only [groupFold, hm, if_true, htree, Option.getD_some]

/-- What a shuffle finds at a lane (R192). -/
def laneValue (ps : List Presenter) (p : Presenter) (l : Nat) : List (Nat × Word × Bool) :=
  match ps.find? (·.lane = l) with
  | some q => [(p.d, q.word 0, q.poisoned 0)]
  | none => [(p.d, 0, false)]

theorem laneValue_own (ho : LaneOrdered ps) (hp : p ∈ ps) : laneValue ps p p.lane = [(p.d, p.word 0, p.poisoned 0)] := by
  rw [laneValue, ho.find_lane hp]

theorem shuffle_idx (hm : m.minor = 0) : (shuffle w m ps p).v = laneValue ps p ((p.word 1).toNat % w.width) := by
  rw [shuffle, hm]
  rfl

theorem shuffle_up (hm : m.minor = 1) (ho : LaneOrdered ps) (hp : p ∈ ps) :
    (shuffle w m ps p).v = laneValue ps p (if p.lane < p.arg then p.lane else p.lane - p.arg) := by
  rw [apply_ite (laneValue ps p), laneValue_own ho hp, shuffle, hm]
  rfl

theorem shuffle_dn (hm : m.minor = 2) (ho : LaneOrdered ps) (hp : p ∈ ps) :
    (shuffle w m ps p).v = laneValue ps p (if w.width ≤ p.lane + p.arg then p.lane else p.lane + p.arg) := by
  rw [apply_ite (laneValue ps p), laneValue_own ho hp, shuffle, hm]
  rfl

theorem shuffle_xor (hm : m.minor = 3) : (shuffle w m ps p).v = laneValue ps p ((p.lane ^^^ p.arg) % w.width) := by
  rw [shuffle, hm]
  rfl

/-- The flags that a fold gathers leave its values alone. -/
theorem foldl_apply_fst (o : Op) (ps : List Presenter) (x : Word) (f : Flags) :
    (ps.foldl (fun (acc : Word × Flags) q => ((o.apply acc.1 (q.word 1)).1, acc.2 ||| (o.apply acc.1 (q.word 1)).2)) (x, f)).1 =
      ps.foldl (fun x q => (o.apply x (q.word 1)).1) x := by
  induction ps generalizing x f with
  | nil => rfl
  | cons q ps ih => exact ih _ _

section
variable {g : Presenter} {gs : List Presenter} (hg : ps.filter (fun q => q.word 0 = p.word 0) = g :: gs)
include hg

/-- CDET gives the leader of the lane's group (R193). -/
theorem combine_leader (hm : m.minor = 0) : (combine m ps p).v = [(p.d, .ofNat 32 g.lane, false)] := by
  rw [combine, hg]
  simp [hm]

/-- GCOMB gives the leader of a group the combination of the group in lane order (R194). -/
theorem combine_sum (hm : m.minor ≠ 0) (ho : LaneOrdered ps) (hp : p ∈ ps) :
    (combine m ps p).v = if g.lane = p.lane then
      [(p.d, gs.foldl (fun x q => ((if m.minor = 1 then Op.addF else .add).apply x (q.word 1)).1) (g.word 1), false)] else [] := by
  have hgp : g ∈ ps := List.mem_of_mem_filter (hg ▸ List.mem_cons_self)
  rw [combine, hg]
  by_cases hl : g.lane = p.lane
  · obtain rfl := ho.eq_of_lane hgp hp hl
    simp [hm, foldl_apply_fst]
  · simp [hm, hl]

end
end

/-! ### What a meet gives by its class -/

section
variable {w : Wave} {m : Meet} {ps : List Presenter} {p lead : Presenter} {record : HRec}

theorem meetGives_xlane (hc : m.cls = 0x1B) : meetGives w m ps p = shuffle w m ps p := by simp [meetGives, hc]

theorem meetGives_cdet (hc : m.cls = 0x1C) : meetGives w m ps p = combine m ps p := by simp [meetGives, hc]

theorem meetGives_hrd (hc : m.cls = 0x17) (hm : m.minor = 2) :
    (meetGives w m ps p).v = (List.range 8).map fun j => (p.d + j, p.word j, false) := by simp [meetGives, hc, hm]

theorem meetGives_any (hc : m.cls = 0x1A) (hm : m.minor = 1) : (meetGives w m ps p).p = some (p.d, ps.any (·.pred)) := by
  simp [meetGives, hc, hm]

theorem meetGives_all (hc : m.cls = 0x1A) (hm : m.minor = 2) : (meetGives w m ps p).p = some (p.d, ps.all (·.pred)) := by
  simp [meetGives, hc, hm]

theorem meetGives_elect {rest : List Presenter} (hc : m.cls = 0x1A) (hm : m.minor = 5) :
    (meetGives w m (lead :: rest) p).p = some (p.d, decide (p.lane = lead.lane)) := by
  simp [meetGives, hc, hm, Bool.beq_eq_decide_eq, eq_comm]

theorem meetGives_fold (hc : m.cls = 0x1A) (hm : m.minor = 7 ∨ m.minor = 8) : meetGives w m ps p = groupFold w m ps p := by
  rcases hm with hm | hm <;> simp [meetGives, hc, hm]

theorem meetWave_ballot (hc : m.cls = 0x1A) (hm : m.minor = 3) : (meetWave w m ps lead record).k.get m.dst 0 = ballot ps := by
  simp [meetWave, hc, hm]

theorem meetWave_bcast (hc : m.cls = 0x1A) (hm : m.minor = 4) :
    (meetWave w m ps lead record).w.get m.dst 0 = lead.word 0 := by
  simp [meetWave, hc, hm]

theorem meetWave_handle (hc : m.cls = 0x17) (hm : m.minor ≠ 2) : (meetWave w m ps lead record).h.get m.dst 0 = record := by
  simp [meetWave, hc, hm]

end

/-! ### The statement -/

/-- Settles O28: each class has its function; a reduction's tree and a scan's sequence gather the same presenters in lane order. -/
theorem groupResults : Obligations.GroupResults := by
  refine ⟨fun w m lead rest record => ?_, fun w m ps p hc _ hp ho hw hwidth => ?_⟩
  · intro ps ho hw hwidth at'
    have hat (p : Presenter) (l : Nat) : at' p l = laneValue ps p l := rfl
    simp only [hat]
    refine ⟨fun p hp => ⟨fun hc => ⟨meetGives_any hc, meetGives_all hc, meetGives_elect hc⟩, fun hc => ?_,
      fun hc g gs hg => ?_, meetGives_hrd⟩, fun hc hm l hl => ?_, meetWave_bcast, meetWave_handle⟩
    · rw [meetGives_xlane hc]
      exact ⟨shuffle_idx, fun hm => shuffle_up hm ho hp, fun hm => shuffle_dn hm ho hp, shuffle_xor⟩
    · rw [meetGives_cdet hc]
      refine ⟨combine_leader hg, fun hm => ?_, fun hm => ?_⟩
      · have hm1 : m.minor ≠ 1 := by omega
        rw [combine_sum hg (by omega) ho hp, if_neg hm1]
        rfl
      · rw [combine_sum hg (by omega) ho hp, if_pos hm]
    · rw [meetWave_ballot hc hm]
      exact getLsbD_ballot ho hl
  · intro o fold
    have hgather {l : List Presenter} (hne : l ≠ []) : o.gather none l = some (fold l) := by
      obtain ⟨q, l, rfl⟩ := List.exists_cons_of_ne_nil hne
      exact o.gather_cons q l
    refine ⟨fun hm hop => ?_, fun hm => ?_⟩
    · have hlog : w.width = 2 ^ Nat.log2 w.width := by
        rcases hwidth with h | h | h <;> rw [h] <;> decide
      rw [meetGives_fold hc (.inl hm)]
      exact groupFold_reduce hm hop ho hw hlog (hgather (List.ne_nil_of_mem hp))
    · rw [meetGives_fold hc (.inr hm)]
      exact groupFold_scan hm ho hp (hgather (List.ne_nil_of_mem (List.mem_filter.mpr ⟨hp, by simp⟩)))

end Sys2Proof.Machine
end

section
/-!
PROOFS. Matrix commands at their issue (R212 to R218, R223, R224): what enters the queue of an engine, and what each command checks.
-/

namespace Sys2Proof.Machine

open Sys2Proof.Safety

/-! ### The queue of the engine -/

/-- The entry that the lane makes of an operation (R212). -/
def Env.mxEntry (e : Env) (op : MxOp) (tile : Nat) : MxEntry :=
  { id := e.s.nextId, issue := some e.issueNo, op := op, tile := tile, team := e.wave.team, wave := e.waveKey, lane := e.lane,
    progress := 0, residue := 0 }

/-- The machine with the lane's operation as the newest entry of its engine's queue (R212). -/
def Env.mxEntered (e : Env) (op : MxOp) (tile : Nat) : State :=
  ({ e.s with nextId := e.s.nextId + 1 } : State).modBank e.engine fun b => { b with mxQueue := b.mxQueue ++ [e.mxEntry op tile] }

/-- The strand once its newest command is counted in its open group, which a full group has made room for (R221). -/
def Env.mxCounted (e : Env) : Strand :=
  let st := if 32 ≤ e.st.openGroup.length then e.st.closeGroup else e.st
  { st with openGroup := st.openGroup ++ [e.s.nextId] }

section
variable {s : State} {e : Env} {op : MxOp} {tile : Nat}

theorem Env.mxRoom_ok (hs : s.env = some e) (hroom : (s.bank e.engine).mxQueue.length < 64) : e.mxRoom = .ok () := by
  simp [Env.mxRoom, env_s hs, hroom, Config.mxQueue]

theorem Env.commandRoom_ok (hs : s.env = some e) (hroom : (s.bank e.engine).mxQueue.length < 64)
    (hmay : 32 ≤ e.st.openGroup.length → s.waveGroups e.waveKey < 8) : e.commandRoom = .ok () := by
  have hgroups : (!(decide (Config.openCommands ≤ e.st.openGroup.length)
      && decide (Config.closedGroups ≤ s.waveGroups e.waveKey))) = true := by
    by_cases hfull : 32 ≤ e.st.openGroup.length
    · simp [Config.closedGroups, Nat.not_le.mpr (hmay hfull)]
    · simp [Config.openCommands, hfull]
  simp only [Env.commandRoom, Env.mxRoom_ok hs hroom, env_s hs, hgroups, require_true, bind, Except.bind]

/-- A command that joins a group enters the queue and begins a region. -/
theorem Env.commandOnce_enters (hs : s.env = some e) (ha : Alone e) (hroom : (s.bank e.engine).mxQueue.length < 64)
    (hmay : 32 ≤ e.st.openGroup.length → s.waveGroups e.waveKey < 8) (req : List Word) :
    e.commandOnce op tile req = .ok (e.retireRegion (e.mxEntered op tile) e.mxCounted) := by
  rw [Env.commandOnce, Env.once_of_alone ha, Env.command, Env.commandRoom_ok hs hroom hmay]
  exact congrArg (fun st => Except.ok (e.retireRegion (e.mxEntered op tile) st)) (Env.told_of_alone ha _)

/-! ### Commands that join a group -/

/-- Where a lane finds room for a command, and the tile that it names. -/
structure MxReady (s : State) (e : Env) (t : BitVec 4) (tile : Nat) : Prop where
  env : s.env = some e
  alone : Alone e
  tile : e.tile t.toNat = .ok tile
  room : (s.bank e.engine).mxQueue.length < 64
  may : 32 ≤ e.st.openGroup.length → s.waveGroups e.waveKey < 8

variable {t : BitVec 4} {a : BitVec 7} {v : Word}

theorem MxReady.commandRoom (h : MxReady s e t tile) : e.commandRoom = .ok () := Env.commandRoom_ok h.env h.room h.may

theorem MxReady.enters (h : MxReady s e t tile) (op : MxOp) (req : List Word) :
    e.commandOnce op tile req = .ok (e.retireRegion (e.mxEntered op tile) e.mxCounted) :=
  Env.commandOnce_enters h.env h.alone h.room h.may req

theorem mxz_enters (h : MxReady s e t tile) :
    exec (.mxz t) s = .next (e.retireRegion (e.mxEntered .zero tile) e.mxCounted) :=
  runLane_ok h.env (by simp only [h.commandRoom, h.tile, h.enters, bind, Except.bind])

theorem exec_mxmmaInstr {type : Nat} (htype : type < 6) (q : BitVec 1) (t h j : BitVec 4) (a : BitVec 7) (s : State) :
    exec (mxmmaInstr type q t h j a) s = mxmma s type q t h j a := by
  match type, htype with
  | 0, _ | 1, _ | 2, _ | 3, _ | 4, _ | 5, _ => rfl

theorem mxmma_enters {type : Nat} {q : BitVec 1} {h j : BitVec 4} {hA hB : HRec} (hr : MxReady s e t tile)
    (hhA : e.hReg h.toNat = .ok hA) (hhB : e.hReg j.toNat = .ok hB) (hv : Reads e a.toNat v)
    (hok : (mxHandleOk (mxSize type) hA && mxHandleOk (mxSize type) hB) = true)
    (hfits : let k := v.toNat % 65536
      let koff := v.toNat / 65536
      (decide (mxDepth type ≤ k ∧ k % mxDepth type = 0 ∧ koff % mxDepth type = 0 ∧ koff + k ≤ 4096) && hPermR hA && hPermR hB
        && mxFits hA (mxSpanA (koff + k)) (mxSize type) e.scratchGrant
        && mxFits hB (mxSpanB type (koff + k)) (mxSize type) e.scratchGrant) = true) :
    mxmma s type q t h j a = .next (e.retireRegion
      (e.mxEntered (.mma type (q == 1) hA hB (v.toNat / 65536) (v.toNat % 65536)) tile) e.mxCounted) := by
  have hk : fld v.toNat 0 16 = v.toNat % 65536 := by simp [fld]
  have hkoff : fld v.toNat 16 16 = v.toNat / 65536 := Nat.mod_eq_of_lt (Nat.div_lt_of_lt_mul v.isLt)
  refine runLane_ok hr.env ?_
  simp only [hr.commandRoom, exist_one hv, hr.tile, hhA, hhB, hok, hv.2, hk, hkoff, hfits, hr.enters, Bool.not_false, require_true,
    bind, Except.bind]

theorem mxst_enters {h : BitVec 4} {r : HRec} (hr : MxReady s e t tile) (hh : e.hReg h.toNat = .ok r) (hv : Reads e a.toNat v)
    (hok : mxHandleOk 4 r = true)
    (hfits : let row := v.toNat % 64
      let rows := v.toNat / 256 % 128
      (decide (1 ≤ rows ∧ row + rows ≤ 64) && hPermW r && mxFits r (64 * rows) 4 e.scratchGrant) = true) :
    exec (.mxst t h a) s = .next (e.retireRegion
      (e.mxEntered (.store r (v.toNat % 64) (v.toNat / 256 % 128)) tile) e.mxCounted) := by
  have hrow : fld v.toNat 0 6 = v.toNat % 64 := by simp [fld]
  have hrows : fld v.toNat 8 7 = v.toNat / 256 % 128 := rfl
  refine runLane_ok hr.env ?_
  simp only [hr.commandRoom, exist_one hv, hr.tile, hh, hok, hv.2, hrow, hrows, hfits, hr.enters, Bool.not_false, require_true,
    bind, Except.bind]

/-! ### MXRD and MXWR -/

/-- What a lane of MXRD or MXWR asks for: register `d` for an MXRD, a word for an MXWR (R224). -/
def Env.mxLane (e : Env) (tile element d : Nat) (word : Option Word) : MxLane :=
  { strand := e.key, tile := tile, element := element, d := d, word := word }

/-- The machine with one more lane in the entry `y`, whose lanes so far are `l`. -/
def Env.mxJoined (e : Env) (y : MxEntry) (l : List MxLane) (z : MxLane) : State :=
  e.s.modBank e.engine fun b =>
    { b with mxQueue := b.mxQueue.map fun u => if u.id = y.id then { u with op := .access (l ++ [z]) } else u }

theorem Env.mxAccess_enters (hroom : e.mxRoom = .ok ()) (hnone : e.issueEntry = none) (element d : Nat) (word : Option Word) :
    e.mxAccess tile element d word = .ok (e.s.nextId, e.mxEntered (.access [e.mxLane tile element d word]) tile) := by
  simp only [Env.mxAccess, hnone, hroom, bind, Except.bind]
  rfl

/-- The entry of the lane's issue is the only one of its number, so that the lane joins that entry alone. -/
theorem Env.mxAccess_joins {y : MxEntry} {l : List MxLane} (hy : e.issueEntry = some y) (hop : y.op = .access l)
    (huniq : ∀ z ∈ (e.s.bank e.engine).mxQueue, z.id = y.id → z = y) (element d : Nat) (word : Option Word) :
    e.mxAccess tile element d word = .ok (y.id, e.mxJoined y l (e.mxLane tile element d word)) := by
  simp only [Env.mxAccess, hy, Env.mxJoined, State.modBank]
  refine congrArg (fun q => Except.ok (y.id, e.s.setBank e.engine { e.s.bank e.engine with mxQueue := q }))
    (List.map_congr_left fun z hz => ?_)
  by_cases hid : z.id = y.id
  · rw [huniq z hz hid, hop]
    simp only [if_true, Env.mxLane]
  · simp only [hid, if_false]
    split <;> rfl

theorem exist_two {m n : Nat} (hm : Has e m) (hn : Has e n) : e.exist [m, n] = .ok () := exist_ok (by simp [hm, hn])

theorem mxrd_waits {d : BitVec 7} {id : Nat} {u : State} (hs : s.env = some e) (ha : Alone e) (ht : e.tile t.toNat = .ok tile)
    (hroom : e.accessRoom = .ok ()) (hd : Has e d.toNat) (hv : Reads e a.toNat v)
    (hacc : e.mxAccess tile (v.toNat % 4096) d.toNat none = .ok (id, u)) :
    exec (.mxrd t d a) s = .next (e.retireRegion u (e.st.await d.toNat id)) := by
  have hel : fld v.toNat 0 12 = v.toNat % 4096 := by simp [fld]
  refine runLane_ok hs ?_
  simp only [hroom, exist_two hd hv.1, ht, use_ok hv, Env.once_of_alone ha, hel, hacc,
    Env.offer_of_alone ha, bind, Except.bind, pure, Except.pure]

theorem mxwr_goes_on {id : Nat} {x : Word} {u : State} (hs : s.env = some e) (ha : Alone e) (ht : e.tile t.toNat = .ok tile)
    (hroom : e.accessRoom = .ok ()) (hv : Reads e a.toNat v) (hx : Reads e (a.toNat + 1) x)
    (hacc : e.mxAccess tile (v.toNat % 4096) 0 (some x) = .ok (id, u)) :
    exec (.mxwr t a) s = .next (e.retireRegion u e.st) := by
  have hel : fld v.toNat 0 12 = v.toNat % 4096 := by simp [fld]
  refine runLane_ok hs ?_
  simp only [hroom, exist_two hv.1 hx.1, ht, use2_ok hv hx, Env.once_of_alone ha, hel,
    hacc, Env.told_of_alone ha, bind, Except.bind, pure, Except.pure]

end

/-- Settles O31: each command passes its checks in order and enters its engine's queue; a lane of MXRD or MXWR whose issue has its
entry joins it. -/
theorem matrixCommands : Obligations.MatrixCommands := by
  intro s e t tile hs ha ht hroom
  have hready (hmay : decide (32 ≤ e.st.openGroup.length) = true → s.waveGroups e.waveKey < 8) : MxReady s e t tile :=
    ⟨hs, ha, ht, hroom, fun h => hmay (decide_eq_true h)⟩
  obtain rfl : e.s = s := env_s hs
  refine ⟨fun hmay => ?_, fun type q h j a hA hB v hmay htype hhA hhB hv hokA hokB hk hkd hko hkt hrA hrB hfA hfB => ?_,
    fun h a r v hmay hh hv hok hw hrows hrow hfits => ?_, fun a d v x hv => ⟨fun hnone => ?_, fun y l hy hop huniq => ?_⟩⟩
  · simpa [Env.mxEntered, Env.mxEntry, Env.mxCounted] using mxz_enters (hready hmay)
  · rw [exec_mxmmaInstr htype, mxmma_enters (hready hmay) hhA hhB hv (by simp [hokA, hokB])
      (by simp [mxSpanA, hk, hkd, hko, hkt, hrA, hrB, hfA, hfB])]
    simp [Env.mxEntered, Env.mxEntry, Env.mxCounted]
  · rw [mxst_enters (hready hmay) hh hv hok (by simp [hrows, hrow, hw, hfits])]
    simp [Env.mxEntered, Env.mxEntry, Env.mxCounted]
  · have hmx := Env.mxRoom_ok hs hroom
    have hacc : e.accessRoom = .ok () := by simp [Env.accessRoom, hnone, hmx]
    exact ⟨fun hd => mxrd_waits hs ha ht hacc hd hv (Env.mxAccess_enters hmx hnone ..),
      fun hx => mxwr_goes_on hs ha ht hacc hv hx (Env.mxAccess_enters hmx hnone ..)⟩
  · have hacc : e.accessRoom = .ok () := by simp [Env.accessRoom, hy]
    exact ⟨fun hd => mxrd_waits hs ha ht hacc hd hv (Env.mxAccess_joins hy hop huniq ..),
      fun hx => mxwr_goes_on hs ha ht hacc hv hx (Env.mxAccess_joins hy hop huniq ..)⟩

end Sys2Proof.Machine
end

section
/-!
PROOFS. The matrix engine at the head of its queue (R45 to R47, R218, R223, R224), commit groups, waits and status (R220 to R222, R225).
-/

namespace Sys2Proof.Machine

open Sys2Proof.Safety

theorem State.bank_modBank (s : State) (k b : Nat) (f : Bank → Bank) :
    (s.modBank k f).bank b = if b = k then f (s.bank k) else s.bank b := by
  show (s.banks.set k (f (s.bank k))).get b Bank.reset = _
  by_cases h : b = k
  · subst h; simp
  · rw [Tbl.get_set_other _ _ _ h, if_neg h]; rfl

theorem State.bank_modBank_same (s : State) (b : Nat) (f : Bank → Bank) : (s.modBank b f).bank b = f (s.bank b) := by
  rw [State.bank_modBank, if_pos rfl]

theorem State.core_modCore_same (s : State) (c : Nat) (f : Core → Core) : (s.modCore c f).core c = f (s.core c) := by
  rw [State.core_modCore, if_pos rfl]

theorem State.core_setCore_same (s : State) (c : Nat) (x : Core) : (s.setCore c x).core c = x := Tbl.get_set_same ..

/-! ### The engine's events -/

theorem mxChunk_event {s u : State} {core : Nat} (h : s.mxChunk core = some u) : exec (.mxChunk core) s = .next u :=
  eventStep_some (f := fun s => s.mxChunk core) h

theorem mxCommand_event {s u : State} {core : Nat} (h : s.mxCommand core = some u) :
    exec (.mxCommandComplete core) s = .next u :=
  eventStep_some (f := fun s => s.mxCommand core) h

theorem groupDone_event {s u : State} {k n : Nat} (h : s.groupDone k n = some u) : exec (.mxGroupComplete k n) s = .next u :=
  eventStep_some (f := fun s => s.groupDone k n) h

/-! ### A chunk of an MXMMA -/

section
variable {s : State} {core : Nat} {x : MxEntry} {rest : List MxEntry}

/-- The products of a chunk added to a tile by the type of the command (R45 to R47): `a` are the bytes of A, `b` what was read of B. -/
def chunkOf (type : Nat) (a : List Byte) (b : List Byte × List Byte × List Byte × Bool) (old : List Word) : List Word × Flags :=
  match type with
  | 4 => chunkInt a b.1 old
  | 5 => chunkNq4 a b.1 b.2.1 (Fmt.f32.decode (fromBytes b.2.2.1)) old
  | _ => chunkFloat type a b.1 old

theorem chunkOf_eq (type : Nat) (a : List Byte) (b : List Byte × List Byte × List Byte × Bool) (old : List Word) :
    chunkOf type a b old = if type = 4 then chunkInt a b.1 old
      else if type = 5 then chunkNq4 a b.1 b.2.1 (Fmt.f32.decode (fromBytes b.2.2.1)) old
      else chunkFloat type a b.1 old := by
  match type with
  | 4 | 5 | 0 | 1 | 2 | 3 | _ + 6 => rfl

/-- The queue once the chunk of its head has been performed (R218). -/
def chunkLeaves (x : MxEntry) (rest : List MxEntry) (d k : Nat) : List MxEntry :=
  if (x.progress + 1) * d = k then rest else { x with progress := x.progress + 1 } :: rest

/-- The A operand of a chunk (R215). -/
def Team.snapshotA (t : Team) (type : Nat) (h : HRec) (koff c : Nat) : Marked :=
  let d := mxDepth type
  t.scratchRead (hBase0 h + (koff / d + c) * 64 * d * mxSize type) (64 * d * mxSize type)

/-- A chunk changes the tile, the latch, its wave's status and the queue. -/
theorem State.mxChunk_performs {type koff k : Nat} {hA hB : HRec} {team : Team}
    (hq : (s.bank (s.activeBank core)).mxQueue = x :: rest) (hheld : s.engineHeld core = false)
    (hbad : (s.core core).tileBad = []) (hop : x.op = .mma type false hA hB koff k) (hteam : s.teams.find x.team = some team)
    (hres : x.residue = 0) (hpa : (team.snapshotA type hA koff x.progress).poisoned = false)
    (hpb : (team.snapshotB type hB koff k x.progress).2.2.2 = false) :
    let out := chunkOf type (team.snapshotA type hA koff x.progress).bytes (team.snapshotB type hB koff k x.progress)
      ((s.core core).tile x.tile)
    ∃ latch status, s.mxChunk core = some (((s.setCore core { (s.core core).setTile x.tile out.1 with latch := latch }).modWave
      x.wave status).modBank (s.activeBank core) fun y => { y with mxQueue := chunkLeaves x rest (mxDepth type) k }) := by
  have hleaves : chunkLeaves x rest (mxDepth type) k = if (x.progress + 1) * mxDepth type = k then rest
      else { x with progress := x.progress + 1, residue := 0 } :: rest := by
    rw [chunkLeaves, ← hres]
  have hsound : ¬(2 ≤ x.residue ∨ (s.core core).tileFaulty x.tile = true) := by
    simp [hres, Core.tileFaulty, hbad]
  have hclean : ((team.snapshotA type hA koff x.progress).poisoned || (team.snapshotB type hB koff k x.progress).2.2.2) = false := by
    rw [hpa, hpb]; rfl
  rw [hleaves]
  unfold Team.snapshotA at hclean ⊢
  simp only [State.mxChunk, hq, hop, hteam, hheld, hclean, hsound, Bool.false_eq_true, if_false, Bool.false_and]
  exact ⟨_, _, rfl⟩

/-! ### Commands that are performed at their turn -/

/-- The machine once the command at the head of a queue has left it and released the latched A (R219). -/
def State.mxLeft (s : State) (core b : Nat) (rest : List MxEntry) : State :=
  (s.modCore core fun c => { c with latch := none }).modBank b fun y => { y with mxQueue := rest }

@[simp] theorem State.mxLeft_strands (s : State) (core b : Nat) (rest : List MxEntry) :
    (s.mxLeft core b rest).strands = s.strands := rfl

@[simp] theorem State.mxLeft_teams (s : State) (core b : Nat) (rest : List MxEntry) : (s.mxLeft core b rest).teams = s.teams := rfl

@[simp] theorem State.mxLeft_queue (s : State) (core b : Nat) (rest : List MxEntry) :
    ((s.mxLeft core b rest).bank b).mxQueue = rest := by
  rw [State.mxLeft, State.bank_modBank_same]

@[simp] theorem State.mxLeft_tiles (s : State) (core b : Nat) (rest : List MxEntry) :
    ((s.mxLeft core b rest).core core).tiles = (s.core core).tiles := by
  show ((s.modCore core fun c => { c with latch := none }).core core).tiles = _
  rw [State.core_modCore_same]

/-- A tile that is cleared has no element listed. -/
theorem Core.element_setTile_nil (c : Core) (m : Nat) {i : Nat} (hi : i < 4096) :
    (c.setTile m []).tiles.get (4096 * m + i) 0 = 0 := by
  have hnone : (c.setTile m []).tiles.find (4096 * m + i) = none := by
    refine Tbl.find_eq_none fun p hp hkey => ?_
    simp only [Core.setTile, tileEntries, List.append_nil, List.mem_append, List.mem_filter, decide_eq_true_eq] at hp
    omega
  rw [Tbl.get, hnone]
  rfl

/-- The machine with the next row of an MXST written to scratch (R223). -/
def State.mxRowStored (s : State) (core : Nat) (x : MxEntry) (h : HRec) (row : Nat) : State :=
  s.scratchWrite x.team (hBase0 h + 256 * x.progress) (clean (rowBytes ((s.core core).tile x.tile) (row + x.progress)))

section
variable (hq : (s.bank (s.activeBank core)).mxQueue = x :: rest) (hheld : s.engineHeld core = false)
  (hent : s.entering core x = false)
include hq hheld hent

theorem mxZero_performs (hop : x.op = .zero) :
    s.mxCommand core = some ((s.setCore core { (s.core core).setTile x.tile [] with
      tileBad := (s.core core).tileBad.filter fun p => p / 2048 ≠ x.tile }).mxLeft core (s.activeBank core) rest) := by
  simp only [State.mxCommand, hq, hheld, hent, hop, Bool.or_self, Bool.false_eq_true, if_false]
  rfl

theorem mxStore_performs (hbad : (s.core core).tileBad = []) {h : HRec} {row rows : Nat} (hop : x.op = .store h row rows) :
    s.mxCommand core = some (if x.progress + 1 < rows then
        (s.mxRowStored core x h row).modBank (s.activeBank core) fun y =>
          { y with mxQueue := { x with progress := x.progress + 1 } :: rest }
      else (s.mxRowStored core x h row).mxLeft core (s.activeBank core) rest) := by
  have hrow : (s.core core).rowFaulty x.tile (row + x.progress) = false := by simp [Core.rowFaulty, hbad]
  simp only [State.mxCommand, hq, hheld, hent, hop, hrow, Bool.or_self, Bool.false_eq_true, if_false]
  rfl

theorem mxAccess_performs (hbad : (s.core core).tileBad = []) {lanes : List MxLane} (hop : x.op = .access lanes) :
    s.mxCommand core = some ((s.mxLanes core x.id lanes).mxLeft core (s.activeBank core) rest) := by
  have hsound : (lanes.any fun l => l.word.isNone && (s.core core).tileBad.contains ((4096 * l.tile + l.element) / 2)) = false := by
    simp [hbad]
  simp only [State.mxCommand, hq, hheld, hent, hop, hsound, Bool.or_self, Bool.false_eq_true, if_false]
  rfl

end

end

/-! ### Groups, waits and status -/

section
variable {s : State} {e : Env}

theorem mxcommit_closes (hs : s.env = some e) (ha : Alone e) (hroom : s.waveGroups e.waveKey < 8) :
    exec .mxcommit s = .next (e.retireRegion s e.st.closeGroup) := by
  refine runLane_ok hs ?_
  simp [env_s hs, hroom, Config.closedGroups, Env.once_of_alone ha, Env.told_of_alone ha, bind, Except.bind, pure, Except.pure]

theorem mxwait_goes_on (hs : s.env = some e) (ha : Alone e) {n : BitVec 7} (hn : e.st.closed.length ≤ n.toNat) :
    exec (.mxwait n) s = .next (e.retireRegion s e.st) := by
  refine runLane_ok hs ?_
  simp only [Env.once_of_alone ha, hn, if_true, Env.told_of_alone ha, env_s hs, pure, Except.pure]

theorem Strand.startRegion_pc (st : Strand) (pc : VAddr) : (st.startRegion pc).pc = st.pc :=
  (Strand.pc_of_rest (Strand.rest_drain st) : st.drain.pc = st.pc)

theorem mxwait_blocks (hs : s.env = some e) (ha : Alone e) {n : BitVec 7} (hn : n.toNat < e.st.closed.length) :
    exec (.mxwait n) s = .next (s.fresh.2.setStrand e.key
      { (e.st.tick 1).startRegion (e.st.tick 1).pc with life := .blocked (.groups n.toNat s.nextId) }) := by
  refine runLane_ok hs ?_
  simp only [Env.once_of_alone ha, Nat.not_le.mpr hn, if_false, Env.offer_of_alone ha, env_s hs, pure, Except.pure]
  rfl

theorem mxstat_reads (hs : s.env = some e) (ha : Alone e) {d a : BitVec 7} {v : Word} (hd : Has e d.toNat) (hv : Reads e a.toNat v) :
    exec (.mxstat d a) s = .next (e.retireRegion (s.setWave e.waveKey
      { e.wave with mxFlags := e.wave.mxFlags &&& ~~~(v.setWidth 5), corr := if v.getLsbD 8 then 0 else e.wave.corr })
      (e.put e.st d.toNat [(.ofNat 32 (e.wave.corr.toNat * 2 ^ 16 + min e.st.closed.length 8 * 2 ^ 12
        + e.st.openGroup.length * 2 ^ 6 + e.wave.mxFlags.toNat), false)])) := by
  refine runLane_ok hs ?_
  simp only [exist_two hd hv.1, use_ok hv, Env.once_of_alone ha, Env.offer_of_alone ha, env_s hs, bind, Except.bind,
    pure, Except.pure]

end

/-! ### The end of a group -/

theorem State.produced_nil (s : State) (k : Nat) : s.produced k [] = [] := List.length_eq_zero_iff.mp (s.produced_length k [])

/-- An answer without words leaves the strand but for its life, and the answer that it waits for ends the wait. -/
theorem State.deliver_nothing {s : State} {k : Nat} {st : Strand} (id d : Nat) (h : s.strands.find k = some st) :
    ∃ t, (s.deliver k id d []).strands.find k = some t ∧ t.closed = st.closed ∧ t.pc = st.pc ∧
      t.life = if st.life = .waiting (.reply id) then .ready else st.life := by
  have hmade : s.produced k (([] : List (Word × Bool)).map (·.1)) = [] := s.produced_nil k
  rw [State.deliver, hmade, State.modStrand_of_find _ h]
  refine ⟨_, Tbl.find_set_same .., ?_⟩
  simp only [List.length_nil, List.range_zero, List.foldl_nil]
  split
  · next n hn =>
    by_cases hid : n = id
    · simp [hid, hn]
    · simp [hid, hn]
  · next hother => exact ⟨rfl, rfl, (if_neg (hother id)).symm⟩

theorem mxGroupComplete_ends {s : State} {k : Nat} {st : Strand} {g : Group} (hst : s.strands.find k = some st)
    (hg : st.closed.find? (·.number = g.number) = some g) (hlife : st.life ≠ .blocked .sleep)
    (hleft : ∀ id ∈ g.commands, ∀ x ∈ (s.bank (s.engineBank k)).mxQueue, x.id ≠ id) :
    ∃ u t, s.groupDone k g.number = some u ∧ u.strands.find k = some t ∧ t.closed = st.closed.filter (·.number ≠ g.number) ∧
      ∀ n id, st.life = .blocked (.groups n id) →
        (t.closed.length ≤ n → t.life = .ready) ∧ (n < t.closed.length → t.life = st.life) := by
  have hdone : (g.commands.any fun id => (s.bank (s.engineBank k)).mxQueue.any (·.id = id)) = false := by
    simpa using hleft
  simp only [State.groupDone, hst, hg, hdone, Bool.false_eq_true, if_false]
  split
  · next n id hwaits =>
    split
    · next hfew =>
      obtain ⟨t, ht, hclosed, -, hready⟩ := State.deliver_nothing id 0 (s := (s.wake (strandCore k)).setStrand k
        { st with closed := st.closed.filter (·.number ≠ g.number), life := .ready, wait := 0 }) (Tbl.find_set_same ..)
      have hkept : t.closed = st.closed.filter (·.number ≠ g.number) := hclosed
      refine ⟨_, t, rfl, ht, hkept, fun m _ hm => ?_⟩
      cases hwaits.symm.trans hm
      exact ⟨fun _ => hready, fun hmany => absurd (hkept ▸ hfew) (Nat.not_le.mpr hmany)⟩
    · next hmany =>
      refine ⟨_, _, rfl, Tbl.find_set_same .., rfl, fun m _ hm => ?_⟩
      cases hwaits.symm.trans hm
      exact ⟨fun hfew => absurd hfew hmany, fun _ => rfl⟩
  · next hsleep => exact absurd hsleep hlife
  · next hother _ => exact ⟨_, _, rfl, Tbl.find_set_same .., rfl, fun m id hm => absurd hm (hother m id)⟩

/-- Settles O32: the command at the head of the queue by its operation, the instructions of groups and status, and the end of a group. -/
theorem matrixEngine : Obligations.MatrixEngine := by
  refine ⟨fun s core x rest => ?_, fun s e n d a v hs ha => ⟨mxcommit_closes hs ha, mxwait_goes_on hs ha, fun hn => ?_,
    fun hd hv => mxstat_reads hs ha hd hv⟩, fun s k st g hst hg hlife hleft => ?_⟩
  · intro b hq hheld hbad
    refine ⟨fun type hA hB koff k team hop hteam hres => ?_, fun hop hent => ?_, fun h row rows hop hent => ?_,
      fun lanes hop hent => ?_⟩
    · intro d pa pb hpa hpb old out
      obtain ⟨latch, status, hperforms⟩ := State.mxChunk_performs hq hheld hbad hop hteam hres hpa hpb
      refine ⟨_, mxChunk_event hperforms, ?_, congrArg Bank.mxQueue (State.bank_modBank_same ..), rfl, rfl⟩
      rw [chunkOf_eq]
      show ((s.setCore core _).core core).tiles = _
      rw [State.core_setCore_same]
      rfl
    · refine ⟨_, mxCommand_event (mxZero_performs hq hheld hent hop), State.mxLeft_queue .., fun i hi => ?_⟩
      rw [State.mxLeft_tiles, State.core_setCore_same]
      exact (s.core core).element_setTile_nil x.tile hi
    · refine ⟨_, mxCommand_event (mxStore_performs hq hheld hent hbad hop), ?_, ?_⟩
      · split
        · exact congrArg Bank.mxQueue (State.bank_modBank_same ..)
        · exact State.mxLeft_queue ..
      · split
        · rfl
        · exact State.mxLeft_teams ..
    · exact ⟨_, mxCommand_event (mxAccess_performs hq hheld hent hbad hop), State.mxLeft_queue .., State.mxLeft_strands ..,
        State.mxLeft_tiles ..⟩
  · have hpc : (e.st.tick 1).pc = e.st.pc := Strand.pc_of_rest (Strand.rest_tick ..)
    exact ⟨_, mxwait_blocks hs ha hn, _, rfl, rfl, ((e.st.tick 1).startRegion_pc (e.st.tick 1).pc).trans hpc⟩
  · obtain ⟨u, t, hu, ht, hclosed, hwaits⟩ := mxGroupComplete_ends hst hg hlife hleft
    exact ⟨u, t, groupDone_event hu, ht, hclosed, hwaits⟩

end Sys2Proof.Machine
end

section
/-!
PROOFS. What ends a TLBINV, a bank swap, a CTXSAVE and a CTXLOAD (R259 to R265, R324, R325, R362).
-/

namespace Sys2Proof.Machine

open Sys2Proof.Safety

/-! ### Requests and answers -/

/-- The machine once a request is taken. -/
def State.taken (s : State) (id : Nat) : State := { s with pending := s.pending.drop id }

@[simp] theorem State.deliver_device (s : State) (k id d : Nat) (words : List (Word × Bool)) :
    (s.deliver k id d words).device = s.device := rfl

@[simp] theorem State.deliver_waves (s : State) (k id d : Nat) (words : List (Word × Bool)) :
    (s.deliver k id d words).waves = s.waves := rfl

@[simp] theorem State.deliver_bank (s : State) (k id d : Nat) (words : List (Word × Bool)) (b : Nat) :
    (s.deliver k id d words).bank b = s.bank b := rfl

/-- A result's arrival lists no strand anew. -/
theorem State.mem_deliver_strands {s : State} {k id d : Nat} {words : List (Word × Bool)} {p : Nat × Strand}
    (hp : p ∈ (s.deliver k id d words).strands) : ∃ q ∈ s.strands, q.1 = p.1 := by
  change p ∈ s.strands.change k _ at hp
  unfold Tbl.change at hp
  split at hp
  · next st hst =>
    obtain rfl | hp := Tbl.mem_set hp
    · exact ⟨_, Tbl.mem_of_find hst, rfl⟩
    · exact ⟨p, hp, rfl⟩
  · exact ⟨p, hp, rfl⟩

/-! ### TLBINV -/

theorem Tbl.get_mapVal {α : Type} (t : Tbl α) (f : Nat → α → α) (k : Nat) {d : α} (hd : f k d = d) :
    (t.mapVal f).get k d = f k (t.get k d) := by
  rw [Tbl.get, Tbl.find_mapVal, Tbl.get]
  cases t.find k with
  | none => exact hd.symm
  | some x => rfl

section
variable (s : State) (kind asid vmid va : Nat)

theorem State.dropEntries_coreTlb (c : Nat) : ((s.dropEntries kind asid vmid va).core c).tlb =
    (s.core c).tlb.filter fun t => !t.matches kind asid vmid va :=
  congrArg Core.tlb (Tbl.get_mapVal s.cores
    (fun _ (c : Core) => { c with tlb := c.tlb.filter fun t => !t.matches kind asid vmid va }) c (d := Core.reset) rfl)

theorem State.dropEntries_clusterTlb (c : Nat) : ((s.dropEntries kind asid vmid va).cluster c).tlb =
    (s.cluster c).tlb.filter fun t => !t.matches kind asid vmid va :=
  congrArg Cluster.tlb (Tbl.get_mapVal s.clusters
    (fun _ (c : Cluster) => { c with tlb := c.tlb.filter fun t => !t.matches kind asid vmid va }) c (d := Cluster.reset) rfl)

/-- A copy that has stopped may try again (R307). -/
theorem State.dropEntries_retry {b : Nat} {c : Copy} (hc : c ∈ ((s.dropEntries kind asid vmid va).bank b).copies)
    (hstop : c.stopped ≠ none) : c.retry = true := by
  have hbank : ((s.dropEntries kind asid vmid va).bank b).copies =
      (s.bank b).copies.map fun (c : Copy) => { c with retry := c.retry || c.stopped.isSome } :=
    congrArg Bank.copies (Tbl.get_mapVal s.banks (fun _ (b : Bank) =>
      { b with copies := b.copies.map fun (c : Copy) => { c with retry := c.retry || c.stopped.isSome } }) b (d := Bank.reset) rfl)
  rw [hbank] at hc
  obtain ⟨c', -, rfl⟩ := List.mem_map.mp hc
  simp [Option.isSome_iff_ne_none.mpr hstop]

variable {s kind asid vmid va} {id k : Nat} {accesses walks : List Nat}
  (hp : s.pending.find id = some (.tlbinv k kind asid vmid va accesses walks))

/-- No walk is left that was under way when the TLBINV began or that waits at a locked descriptor of what it names (R325). -/
def State.walksClear (s : State) (kind asid vmid : Nat) (walks : List Nat) : Prop :=
  ∀ w ∈ s.walks, w.id ∉ walks ∧ s.walkOverlaps w kind asid vmid = false

theorem State.walksClear_iff : (!(s.walks.any fun w => walks.contains w.id || s.walkOverlaps w kind asid vmid)) = true ↔
    s.walksClear kind asid vmid walks := by
  simp [State.walksClear]

include hp

theorem tlbinvComplete_waits (hclear : ¬s.walksClear kind asid vmid walks) : exec (.tlbinvComplete id) s = .next s := by
  rw [← State.walksClear_iff] at hclear
  rw [exec_tlbinvComplete, execTlbinvComplete]
  exact eventStep_none (by simp only [hp, Option.bind_eq_bind, Option.bind_some, guard, hclear]; rfl)

theorem tlbinvComplete_dropsAgain (hclear : s.walksClear kind asid vmid walks) (hw : walks ≠ []) :
    exec (.tlbinvComplete id) s = .next { s.dropEntries kind asid vmid va with
      pending := s.pending.set id (.tlbinv k kind asid vmid va
        (accesses ++ (s.dropEntries kind asid vmid va).accessIds kind asid vmid va) []) } := by
  rw [← State.walksClear_iff] at hclear
  have hsome : (!walks.isEmpty) = true := by simpa using hw
  rw [exec_tlbinvComplete, execTlbinvComplete]
  exact eventStep_some (by simp only [hp, Option.bind_eq_bind, Option.bind_some, guard, hclear, hsome, if_true]; rfl)

theorem tlbinvComplete_ends (hclear : s.walksClear kind asid vmid walks) (hw : walks = []) (haw : s.awaits accesses false = false) :
    exec (.tlbinvComplete id) s = .next
      (((s.dropEntries kind asid vmid va).taken id).deliver k id 0 []) := by
  rw [← State.walksClear_iff] at hclear
  subst hw
  have haw' : (!(s.dropEntries kind asid vmid va).awaits accesses false) = true := by
    rw [show (s.dropEntries kind asid vmid va).awaits accesses false = s.awaits accesses false from rfl, haw]; rfl
  rw [exec_tlbinvComplete, execTlbinvComplete]
  exact eventStep_some (by
    simp only [hp, Option.bind_eq_bind, Option.bind_some, guard, hclear, List.isEmpty_nil, Bool.not_true, Bool.false_eq_true,
      if_false, haw', if_true]
    rfl)

end

/-! ### The bank swap -/

section
variable (s : State)

/-- An answer changes its strand and ends its request. -/
theorem State.answerSwap_rest (reply : Option Nat) (code : Nat) :
    { s.answerSwap reply code with strands := s.strands, pending := s.pending } = s := by
  unfold State.answerSwap
  split
  · rfl
  · split <;> rfl

@[simp] theorem State.answerSwap_cores (reply : Option Nat) (code : Nat) : (s.answerSwap reply code).cores = s.cores := by
  have h := congrArg State.cores (s.answerSwap_rest reply code); exact h

@[simp] theorem State.answerSwap_banks (reply : Option Nat) (code : Nat) : (s.answerSwap reply code).banks = s.banks := by
  have h := congrArg State.banks (s.answerSwap_rest reply code); exact h

@[simp] theorem State.answerSwap_watches (reply : Option Nat) (code : Nat) : (s.answerSwap reply code).watches = s.watches := by
  have h := congrArg State.watches (s.answerSwap_rest reply code); exact h

@[simp] theorem State.answerSwap_teams (reply : Option Nat) (code : Nat) : (s.answerSwap reply code).teams = s.teams := by
  have h := congrArg State.teams (s.answerSwap_rest reply code); exact h

@[simp] theorem State.answerSwap_grids (reply : Option Nat) (code : Nat) : (s.answerSwap reply code).grids = s.grids := by
  have h := congrArg State.grids (s.answerSwap_rest reply code); exact h

@[simp] theorem State.wake_banks (core : Nat) : (s.wake core).banks = s.banks := by
  have h := congrArg State.banks (s.wake_rest core); exact h

@[simp] theorem State.wake_watches (core : Nat) : (s.wake core).watches = s.watches := by
  have h := congrArg State.watches (s.wake_rest core); exact h

@[simp] theorem State.wake_teams (core : Nat) : (s.wake core).teams = s.teams := by
  have h := congrArg State.teams (s.wake_rest core); exact h

@[simp] theorem State.wake_grids (core : Nat) : (s.wake core).grids = s.grids := by
  have h := congrArg State.grids (s.wake_rest core); exact h

theorem State.wake_besideL1 (core c : Nat) : ((s.wake core).core c).besideL1 = (s.core c).besideL1 :=
  congrFun (s.wake_units core) c

@[simp] theorem State.swapBack_banks (core : Nat) : (s.swapBack core).banks = s.banks := by
  unfold State.swapBack State.requestSwap
  split
  · exact State.wake_banks ..
  · rfl

@[simp] theorem State.swapBack_watches (core : Nat) : (s.swapBack core).watches = s.watches := by
  unfold State.swapBack State.requestSwap
  split
  · exact State.wake_watches ..
  · rfl

/-- A swap back is asked for where priority 3 needs its swap no more (R362). -/
theorem State.swapBack_core (core : Nat) : ((s.swapBack core).core core).active = (s.core core).active ∧
    ((s.swapBack core).core core).latch = (s.core core).latch ∧
    ((s.swapBack core).core core).swaps = if (s.core core).prio3 = true ∧ (s.core core).swaps = [] ∧
      s.hasPrio3 (s.activeBank core) = false then [none] else (s.core core).swaps := by
  unfold State.swapBack
  by_cases hback : ((s.core core).prio3 && (s.core core).swaps.isEmpty && !s.hasPrio3 (s.activeBank core)) = true
  · rw [if_pos hback]
    simp only [Bool.and_eq_true, List.isEmpty_iff, Bool.not_eq_true'] at hback
    obtain ⟨⟨hprio, hempty⟩, hgone⟩ := hback
    have hcore : (((s.modCore core fun c => { c with prio3 := false }).requestSwap core none).core core).besideL1 =
        ({ s.core core with prio3 := false, swaps := (s.core core).swaps ++ [none] } : Core).besideL1 := by
      rw [State.requestSwap, State.wake_besideL1, State.core_modCore_same, State.core_modCore_same]
    rw [if_pos ⟨hprio, hempty, hgone⟩]
    have hswaps : (((s.modCore core fun c => { c with prio3 := false }).requestSwap core none).core core).swaps =
        (s.core core).swaps ++ [none] := (congrArg Core.swaps hcore :)
    exact ⟨(congrArg Core.active hcore :), (congrArg Core.latch hcore :), by rw [hswaps, hempty]; rfl⟩
  · rw [if_neg hback, if_neg]
    · exact ⟨rfl, rfl, rfl⟩
    · simpa using hback

end

section
variable {s : State} {core : Nat} {reply : Option Nat} {rest : List (Option Nat)}

/-- The machine once the head of a core's swap requests is taken. -/
def State.swapTaken (s : State) (core : Nat) (rest : List (Option Nat)) : State := s.setCore core { s.core core with swaps := rest }

/-- The machine once its banks have changed roles (R162, R219, R261, R262). -/
def State.swapped (s : State) (core : Nat) (rest : List (Option Nat)) : State :=
  (((s.swapTaken core rest).modBank (s.activeBank core) Bank.endRun).modCore core fun c =>
    { c with active := 1 - c.active, latch := none }).rearm (bankNo core (1 - (s.core core).active))

/-- The same once the request is answered and the core told (R178). -/
def State.swapAnswered (s : State) (core : Nat) (reply : Option Nat) (rest : List (Option Nat)) : State :=
  ((s.swapped core rest).answerSwap reply 0).wake core

theorem bankSwap_answers (hswaps : (s.core core).swaps = reply :: rest) (hissue : ∀ i, s.issue = some i → i.core ≠ core)
    (hres : ∀ r ∈ (s.core core).results, waveBank (strandWave r.strand) = s.activeBank core → r.unit = 0) :
    exec (.bankSwap core) s = .next
      (if (s.bank (bankNo core (1 - (s.core core).active))).asid = none ∨ (s.core core).halted = true then
        (s.swapTaken core rest).answerSwap reply 2
      else (s.swapAnswered core reply rest).swapBack core) := by
  have hidle : (s.issue.all fun i => i.core ≠ core) = true := by
    cases hi : s.issue with
    | none => rfl
    | some i => simpa using hissue i hi
  have hdrained : (!((s.core core).results.any fun r =>
      waveBank (strandWave r.strand) = s.activeBank core && r.unit ≠ 0)) = true := by simpa using hres
  rw [exec_bankSwap, execBankSwap]
  refine eventStep_some ?_
  simp only [hswaps, List.head?_cons, Option.bind_eq_bind, Option.bind_some, guard, hidle, hdrained, if_true, Option.pure_def]
  have hasid : (((s.swapTaken core rest).bank (bankNo core (1 - (s.core core).active))).asid.isNone || (s.core core).halted) = true ↔
      (s.bank (bankNo core (1 - (s.core core).active))).asid = none ∨ (s.core core).halted = true := by
    rw [Bool.or_eq_true, Option.isNone_iff_eq_none]
    rfl
  split
  · next hrefuses => rw [if_pos (hasid.mp hrefuses)]; rfl
  · next hgoes => rw [if_neg (fun h => hgoes (hasid.mpr h))]; rfl

/-- The core as the other bank comes in. -/
theorem State.swapped_core : (s.swapped core rest).core core =
    { s.core core with swaps := rest, active := 1 - (s.core core).active, latch := none } := by
  have htaken : ((s.swapTaken core rest).modBank (s.activeBank core) Bank.endRun).core core = { s.core core with swaps := rest } :=
    State.core_setCore_same s core _
  have hmod := State.core_modCore_same ((s.swapTaken core rest).modBank (s.activeBank core) Bank.endRun) core
    fun c => { c with active := 1 - c.active, latch := none }
  rw [htaken] at hmod
  exact hmod

/-- What becomes of the core where the other bank comes in (R162, R219, R261, R362). -/
theorem State.swapEnd_core (reply : Option Nat) :
    let u := (s.swapAnswered core reply rest).swapBack core
    (u.core core).active = 1 - (s.core core).active ∧ (u.core core).latch = none ∧
      (u.core core).swaps = if (s.core core).prio3 = true ∧ rest = [] ∧
        s.hasPrio3 (bankNo core (1 - (s.core core).active)) = false then [none] else rest := by
  intro u
  obtain ⟨hactive, hlatch, hswaps⟩ := (s.swapAnswered core reply rest).swapBack_core core
  have hcore : ((s.swapAnswered core reply rest).core core).besideL1 =
      ({ s.core core with swaps := rest, active := 1 - (s.core core).active, latch := none } : Core).besideL1 := by
    rw [State.swapAnswered, State.wake_besideL1, State.core_congr (State.answerSwap_cores ..), State.swapped_core]
  have hact : ((s.swapAnswered core reply rest).core core).active = 1 - (s.core core).active := (congrArg Core.active hcore :)
  have hlat : ((s.swapAnswered core reply rest).core core).latch = none := (congrArg Core.latch hcore :)
  have hprio : ((s.swapAnswered core reply rest).core core).prio3 = (s.core core).prio3 := (congrArg Core.prio3 hcore :)
  have hrest : ((s.swapAnswered core reply rest).core core).swaps = rest := (congrArg Core.swaps hcore :)
  have hres (b : Nat) : (s.swapAnswered core reply rest).hasPrio3 b = s.hasPrio3 b := by
    unfold State.hasPrio3 State.swapAnswered
    simp only [State.wake_teams, State.wake_grids, State.answerSwap_teams, State.answerSwap_grids]
    rfl
  rw [State.activeBank, hact, hprio, hrest, hres] at hswaps
  exact ⟨hactive.trans hact, hlatch.trans hlat, hswaps⟩

theorem bankSwap_ends (hswaps : (s.core core).swaps = reply :: rest) (hissue : ∀ i, s.issue = some i → i.core ≠ core)
    (hres : ∀ r ∈ (s.core core).results, waveBank (strandWave r.strand) = s.activeBank core → r.unit = 0) :
    let other := bankNo core (1 - (s.core core).active)
    let refuses := (s.bank other).asid = none ∨ (s.core core).halted = true
    ∃ u, exec (.bankSwap core) s = .next u ∧ u.mem = s.mem ∧
      (refuses → (u.core core).active = (s.core core).active ∧ (u.core core).swaps = rest) ∧
      (¬refuses → (u.core core).active = 1 - (s.core core).active ∧ (u.core core).latch = none ∧
        (u.core core).swaps = (if (s.core core).prio3 = true ∧ rest = [] ∧ s.hasPrio3 other = false then [none] else rest) ∧
        u.bank (s.activeBank core) = (s.bank (s.activeBank core)).endRun ∧
        ∀ w ∈ s.watches, waveBank (strandWave w.strand) = other → { w with written := true } ∈ u.watches) := by
  intro other refuses
  have hexec := bankSwap_answers hswaps hissue hres
  by_cases hr : refuses
  · refine ⟨_, hexec.trans (congrArg Host.Outcome.next (if_pos hr)), by rw [State.answerSwap_mem]; rfl, fun _ => ?_,
      fun hn => absurd hr hn⟩
    have hcore : ((s.swapTaken core rest).answerSwap reply 2).core core = { s.core core with swaps := rest } :=
      (State.core_congr (State.answerSwap_cores ..) core).trans (State.core_setCore_same ..)
    rw [hcore]
    exact ⟨rfl, rfl⟩
  · obtain ⟨hactive, hlatch, hrest⟩ := State.swapEnd_core (s := s) (core := core) (rest := rest) reply
    refine ⟨_, hexec.trans (congrArg Host.Outcome.next (if_neg hr)), ?_, fun h => absurd h hr,
      fun _ => ⟨hactive, hlatch, hrest, ?_, fun w hw hbank => ?_⟩⟩
    · simp only [State.swapBack_mem, State.swapAnswered, State.wake_mem, State.answerSwap_mem]
      rfl
    · have hbanks : ((s.swapAnswered core reply rest).swapBack core).banks = (s.swapped core rest).banks := by
        simp only [State.swapBack_banks, State.swapAnswered, State.wake_banks, State.answerSwap_banks]
      rw [State.bank, hbanks]
      exact State.bank_modBank_same (s.swapTaken core rest) (s.activeBank core) Bank.endRun
    · simp only [State.swapBack_watches, State.swapAnswered, State.wake_watches, State.answerSwap_watches]
      exact List.mem_map.mpr ⟨w, hw, if_pos hbank⟩

end

/-! ### CTXSAVE -/

/-- The bytes of a run that is shorter than host memory have places of their own (R370). -/
theorem nodup_memKey_span (pa : Nat) {n : Nat} (hn : n < 2 ^ 50) : ((span pa n).map memKey).Nodup := by
  refine (span_nodup pa n).map_on fun a ha b hb hkey => ?_
  obtain ⟨i, hi, rfl⟩ := List.mem_map.mp ha
  obtain ⟨j, hj, rfl⟩ := List.mem_map.mp hb
  rw [List.mem_range] at hi hj
  unfold memKey at hkey
  split at hkey <;> split at hkey <;> omega

@[simp] theorem State.writeEverywhere_device (s : State) (pa : Nat) (bytes : List Byte) :
    (s.writeEverywhere pa bytes).device = s.device := by
  refine (foldl_keeps State.device (fun t l => (t.keeps_wakeLine (l * 256)).device) _ _).trans ?_
  exact foldl_keeps State.device (f := fun t k => t.cleanSector (k * 64)) (fun t k => rfl) _ (s.poke pa bytes)

/-- The machine once a bank is saved as `x` and freed (R263). -/
def State.bankSaved (s : State) (id bank pa : Nat) (x : Saved) : State :=
  let w := (s.taken id).writeEverywhere pa x.area
  ({ w with device := { w.device with saved := x :: w.device.saved.filter (·.pa ≠ pa) } } : State).freeBank bank x

section
variable {s : State} {id k d bank pa : Nat} (hp : s.pending.find id = some (.ctxsave k d bank pa))
  (hactive : s.activeBank (bankCore bank) ≠ bank) (hasid : (s.bank bank).asid ≠ none)
  (hclean : ∀ x ∈ (s.core (bankCore bank)).l1, x.dirty = []) (hbusy : s.saveBusy bank = false)
include hp hactive hasid hclean hbusy

theorem ctxsaveComplete_kills {t : Nat} (ht : s.faultyTiles bank = some t) :
    exec (.ctxsaveComplete id) s = .next (s.killTeam t MXCHK { ErrorRec.blank with core := bankCore bank }) := by
  have hl1 : ((s.core (bankCore bank)).l1.any fun x => !x.dirty.isEmpty) = false := by simpa using hclean
  have hsome : (s.bank bank).asid.isNone = false := Option.isNone_eq_false_iff.mpr (Option.isSome_iff_ne_none.mpr hasid)
  rw [exec_ctxsaveComplete, execCtxsaveComplete]
  refine eventStep_some ?_
  simp only [hp, Option.bind_eq_bind, Option.bind_some, hactive, hsome, hl1, hbusy, ht, guard, Bool.not_false, Bool.false_eq_true,
    if_false, if_true, Option.pure_def]

theorem ctxsaveComplete_saves (ht : s.faultyTiles bank = none)
    (howned : s.runOwned pa (slotsSize (s.saveImage id bank pa).slots) = false) :
    exec (.ctxsaveComplete id) s = .next ((s.bankSaved id bank pa (s.saveImage id bank pa)).deliver k id d [(0, false)]) := by
  have hl1 : ((s.core (bankCore bank)).l1.any fun x => !x.dirty.isEmpty) = false := by simpa using hclean
  have hsome : (s.bank bank).asid.isNone = false := Option.isNone_eq_false_iff.mpr (Option.isSome_iff_ne_none.mpr hasid)
  rw [exec_ctxsaveComplete, execCtxsaveComplete]
  refine eventStep_some ?_
  simp only [hp, Option.bind_eq_bind, Option.bind_some, hactive, hsome, hl1, hbusy, ht, howned, guard, Bool.not_false,
    Bool.false_eq_true, if_false, if_true, Option.pure_def]
  rfl

end

section
variable (s : State) (id bank pa : Nat) (x : Saved)

theorem State.bankSaved_mem : (s.bankSaved id bank pa x).mem = Memory.writeAll s.mem (keyed (Machine.place pa x.area)) := by
  rw [State.bankSaved, State.freeBank_mem]
  show (State.writeEverywhere _ pa x.area).mem = _
  rw [State.writeEverywhere_mem, State.poke, State.pokeAll_mem, keyed]
  rfl

theorem State.bankSaved_saved : (s.bankSaved id bank pa x).device.saved = x :: s.device.saved.filter (·.pa ≠ pa) := by
  have hdevice := State.writeEverywhere_device (s.taken id) pa x.area
  exact congrArg (fun d : Device => x :: d.saved.filter (·.pa ≠ pa)) hdevice

theorem State.bankSaved_bank : (s.bankSaved id bank pa x).bank bank = Bank.reset := Tbl.get_set_same ..

theorem State.waveBank_bankSaved {p : Nat × Wave} (hp : p ∈ (s.bankSaved id bank pa x).waves) : waveBank p.1 ≠ bank := by
  simpa using (List.mem_filter.mp hp).2

theorem State.strandBank_bankSaved {p : Nat × Strand} (hp : p ∈ (s.bankSaved id bank pa x).strands) :
    waveBank (strandWave p.1) ≠ bank := by
  simpa using (List.mem_filter.mp hp).2

end

/-! ### CTXLOAD -/

/-- The other bank of a core. -/
def otherBank (bank : Nat) : Nat := if bank % 2 = 0 then bank + 1 else bank - 1

/-- A saved context does not fit in a bank, by its areas or by the tiles beside those of the other bank (R209, R264). -/
def State.tooFull (s : State) (bank : Nat) (x : Saved) : Bool :=
  let other := (s.bank (otherBank bank)).mapping
  !x.areasFit || (x.bank.mapping = 16 && other ≠ 0) || (x.bank.mapping ≠ 0 && other = 16)

theorem State.tooFull_iff {s : State} {bank : Nat} {x : Saved} : s.tooFull bank x = true ↔
    x.areasFit = false ∨ (x.bank.mapping = 16 ∧ (s.bank (otherBank bank)).mapping ≠ 0) ∨
      (x.bank.mapping ≠ 0 ∧ (s.bank (otherBank bank)).mapping = 16) := by
  simp [State.tooFull, or_assoc]

section
variable {s : State} {id k d bank pa : Nat} (hp : s.pending.find id = some (.ctxload k d bank pa))
include hp

theorem ctxloadComplete_active (h : s.activeBank (bankCore bank) = bank) :
    exec (.ctxloadComplete id) s = .next ((s.taken id).deliver k id d [(1, false)]) := by
  rw [exec_ctxloadComplete, execCtxloadComplete]
  refine eventStep_some ?_
  simp only [hp, Option.bind_eq_bind, Option.bind_some]
  exact if_pos h

variable (hactive : s.activeBank (bankCore bank) ≠ bank)
include hactive

theorem ctxloadComplete_occupied (h : (s.bank bank).asid ≠ none) :
    exec (.ctxloadComplete id) s = .next ((s.taken id).deliver k id d [(2, false)]) := by
  rw [exec_ctxloadComplete, execCtxloadComplete]
  refine eventStep_some ?_
  simp only [hp, Option.bind_eq_bind, Option.bind_some]
  exact (if_neg hactive).trans (if_pos (Option.isSome_iff_ne_none.mpr h))

variable (hempty : (s.bank bank).asid = none)
include hempty

theorem ctxloadComplete_headless (h : s.peekNum pa 4 ≠ 0x53564143 ∨ s.peekNum (pa + 4) 2 ≠ 1) :
    exec (.ctxloadComplete id) s = .next ((s.taken id).deliver k id d [(4, false)]) := by
  have hnone : ¬(s.bank bank).asid.isSome = true := by rw [hempty]; exact Bool.false_ne_true
  rw [exec_ctxloadComplete, execCtxloadComplete]
  refine eventStep_some ?_
  simp only [hp, Option.bind_eq_bind, Option.bind_some]
  exact (if_neg hactive).trans ((if_neg hnone).trans (if_pos h))

variable (hmagic : s.peekNum pa 4 = 0x53564143) (hversion : s.peekNum (pa + 4) 2 = 1)
include hmagic hversion

theorem ctxloadComplete_unreadable (h : (s.taken id).savedAt pa = none) :
    exec (.ctxloadComplete id) s = .next ((s.taken id).deliver k id d [(4, false)]) := by
  have hnone : ¬(s.bank bank).asid.isSome = true := by rw [hempty]; exact Bool.false_ne_true
  have hhead : ¬(s.peekNum pa 4 ≠ 0x53564143 ∨ s.peekNum (pa + 4) 2 ≠ 1) := by simp [hmagic, hversion]
  rw [exec_ctxloadComplete, execCtxloadComplete]
  refine eventStep_some ?_
  unfold State.taken at h
  simp only [hp, Option.bind_eq_bind, Option.bind_some, h]
  exact (if_neg hactive).trans ((if_neg hnone).trans (if_neg hhead))

theorem ctxloadComplete_loads {x : Saved} (h : (s.taken id).savedAt pa = some x) :
    exec (.ctxloadComplete id) s = .next (if s.tooFull bank x = true then (s.taken id).deliver k id d [(5, false)]
      else ((s.taken id).restore x bank).deliver k id d [(0, false)]) := by
  have hnone : ¬(s.bank bank).asid.isSome = true := by rw [hempty]; exact Bool.false_ne_true
  have hhead : ¬(s.peekNum pa 4 ≠ 0x53564143 ∨ s.peekNum (pa + 4) 2 ≠ 1) := by simp [hmagic, hversion]
  rw [exec_ctxloadComplete, execCtxloadComplete]
  refine eventStep_some ?_
  unfold State.taken at h ⊢
  simp only [hp, Option.bind_eq_bind, Option.bind_some, h]
  refine (if_neg hactive).trans ((if_neg hnone).trans ((if_neg hhead).trans ?_))
  cases hfull : s.tooFull bank x with
  | true => exact if_pos hfull
  | false => exact if_neg (Bool.not_eq_true _ ▸ hfull)

end

/-- Settles O42: each request's event under the conditions that the statement names. -/
theorem systemCompletions : Obligations.SystemCompletions := by
  refine ⟨fun s id k kind asid vmid va accesses walks hp => ?_, fun s core reply rest hswaps hissue _ hres =>
    bankSwap_ends hswaps hissue hres, fun s id k d bank pa hp hactive hasid hclean hbusy => ?_, fun s id k d bank pa hp => ?_⟩
  · refine ⟨tlbinvComplete_waits hp, tlbinvComplete_dropsAgain hp, fun hclear hw haw =>
      ⟨_, tlbinvComplete_ends hp hclear hw haw, State.dropEntries_mem s kind asid vmid va, rfl,
        State.dropEntries_coreTlb s kind asid vmid va, State.dropEntries_clusterTlb s kind asid vmid va,
        fun b c hc => State.dropEntries_retry s kind asid vmid va hc, fun st hst hlife => ?_⟩⟩
    obtain ⟨t, ht, -, hpc, hready⟩ := State.deliver_nothing
      (s := (s.dropEntries kind asid vmid va).taken id) id 0 hst
    exact ⟨t, ht, hready.trans (if_pos hlife), hpc⟩
  · refine ⟨fun t ht => ctxsaveComplete_kills hp hactive hasid hclean hbusy ht, fun ht => ?_⟩
    intro image howned
    refine ⟨_, ctxsaveComplete_saves hp hactive hasid hclean hbusy ht howned, ?_, fun hs hlen => ?_, rfl, rfl, rfl, ?_, ?_, ?_⟩
    · rw [State.deliver_device, State.bankSaved_saved]
    · exact peek_written hs ((State.deliver_mem ..).trans (State.bankSaved_mem ..)) rfl (nodup_memKey_span pa hlen)
    · rw [State.deliver_bank, State.bankSaved_bank]
    · rw [State.deliver_waves]
      exact fun p hp => State.waveBank_bankSaved _ _ _ _ _ hp
    · intro p hp
      obtain ⟨q, hq, hkey⟩ := State.mem_deliver_strands hp
      rw [← hkey]
      exact State.strandBank_bankSaved _ _ _ _ _ hq
  · refine ⟨ctxloadComplete_active hp, fun hactive => ⟨ctxloadComplete_occupied hp hactive, fun hempty => ⟨fun h => ?_,
      fun x hmagic hversion hx => ?_⟩⟩⟩
    · by_cases hhead : s.peekNum pa 4 ≠ 0x53564143 ∨ s.peekNum (pa + 4) 2 ≠ 1
      · exact ctxloadComplete_headless hp hactive hempty hhead
      · obtain ⟨hmagic, hversion⟩ := not_or.mp hhead
        exact ctxloadComplete_unreadable hp hactive hempty (not_not.mp hmagic) (not_not.mp hversion)
          ((or_assoc.mpr h).resolve_left hhead)
    · have hloads := ctxloadComplete_loads hp hactive hempty hmagic hversion hx
      exact ⟨fun hfull => hloads.trans (congrArg Host.Outcome.next (if_pos (State.tooFull_iff.mpr hfull))),
        fun hfits => hloads.trans (congrArg Host.Outcome.next (if_neg fun h => hfits (State.tooFull_iff.mp h)))⟩

end Sys2Proof.Machine
end

section
/-!
PROOFS. The window accumulator as a fold of its newest values (R234, R236, R238), and its image (R244).
-/

namespace Sys2Proof.Machine

open Sys2Proof.Safety

/-! ### The total of a list of values -/

/-- The operator over a list of values, the oldest first (R234); the identity for none (R50). -/
def Op.total (o : Op) (l : List Word) : Word := l.foldl (fun y x => (o.apply y x).1) o.identity

/-- The totals of a list's nonempty suffixes, the longest first: what F holds of its entries (R236). -/
def Op.suffixTotals (o : Op) : List Word → List Word
  | [] => []
  | x :: l => o.total (x :: l) :: o.suffixTotals l

section
variable {o : Op} (ho : o ∉ [.addF, .mulF, .minF, .maxF])
include ho

/-- A minimum's identity is the largest value, a maximum's the smallest (R50). -/
theorem Op.identity_apply (x : Word) : (o.apply o.identity x).1 = x := by
  have hsigned : -2 ^ 31 ≤ x.toInt ∧ x.toInt < 2 ^ 31 := ⟨BitVec.le_toInt x, BitVec.toInt_lt⟩
  have hunsigned : x.toNat < 2 ^ 32 := x.isLt
  cases o with
  | addF | mulF | minF | maxF => simp at ho
  | add => exact BitVec.zero_add x
  | and => exact BitVec.allOnes_and
  | or => exact BitVec.zero_or
  | xor => exact BitVec.zero_xor
  | minS => exact ite_eq_left_iff.mpr fun h => BitVec.eq_of_toInt_eq (by simp [Op.identity] at h ⊢; omega)
  | maxS => exact ite_eq_left_iff.mpr fun h => BitVec.eq_of_toInt_eq (by simp [Op.identity] at h ⊢; omega)
  | minU => exact ite_eq_left_iff.mpr fun h => BitVec.eq_of_toNat_eq (by simp [Op.identity] at h ⊢; omega)
  | maxU => exact ite_eq_left_iff.mpr fun h => BitVec.eq_of_toNat_eq (by simp [Op.identity] at h ⊢; omega)

theorem Op.apply_identity (x : Word) : (o.apply x o.identity).1 = x := by
  have hsigned : -2 ^ 31 ≤ x.toInt ∧ x.toInt < 2 ^ 31 := ⟨BitVec.le_toInt x, BitVec.toInt_lt⟩
  have hunsigned : x.toNat < 2 ^ 32 := x.isLt
  cases o with
  | addF | mulF | minF | maxF => simp at ho
  | add => exact BitVec.add_zero x
  | and => exact BitVec.and_allOnes
  | or => exact BitVec.or_zero
  | xor => exact BitVec.xor_zero
  | minS | maxS | minU => exact if_neg (by simp [Op.identity]; omega)
  | maxU => exact if_neg (c := x.toNat < 0) (t := (0 : Word)) (Nat.not_lt_zero x.toNat)

theorem Op.total_singleton (x : Word) : o.total [x] = x := Op.identity_apply ho x

theorem Op.total_append (l m : List Word) : o.total (l ++ m) = (o.apply (o.total l) (o.total m)).1 := by
  have hassoc : Std.Associative fun y x => (o.apply y x).1 := ⟨o.apply_assoc ho⟩
  calc o.total (l ++ m) = m.foldl (fun y x => (o.apply y x).1) (o.total l) := List.foldl_append
    _ = m.foldl (fun y x => (o.apply y x).1) (o.apply (o.total l) o.identity).1 := by rw [Op.apply_identity ho]
    _ = (o.apply (o.total l) (o.total m)).1 := List.foldl_assoc

theorem Op.total_cons (x : Word) (l : List Word) : o.total (x :: l) = (o.apply x (o.total l)).1 := by
  rw [← List.singleton_append, Op.total_append ho, Op.total_singleton ho]

end

@[simp] theorem Op.length_suffixTotals (o : Op) (l : List Word) : (o.suffixTotals l).length = l.length := by
  induction l with
  | nil => rfl
  | cons x l ih => simp [Op.suffixTotals, ih]

theorem Op.suffixTotals_drop_one (o : Op) (l : List Word) : (o.suffixTotals l).drop 1 = o.suffixTotals (l.drop 1) := by
  cases l <;> rfl

/-! ### The two stacks -/

/-- The operator of a configuration is one on plain values, and no operator on floats (R235). -/
structure IntegerCfg (cfg : Word) (o : Op) : Prop where
  isInteger : o ∉ [.addF, .mulF, .minF, .maxF]
  step : ∀ x y, (accStep (cfgOp cfg) x y).1.1 = (o.apply x.1 y.1).1
  identity : (accIdentity (cfgOp cfg)).1 = o.identity

/-- An accumulator holds values, the oldest first: those of `fs` in F by their suffix totals, those of `bs` in B with their
total (R236). -/
structure Acc.Holds (a : Acc) (o : Op) (fs bs : List Word) : Prop where
  front : a.front.map (·.1) = o.suffixTotals fs
  back : a.back.map (·.1) = bs.reverse
  agg : bs ≠ [] → a.agg.1 = o.total bs

theorem integerCfg_ofGroup {cfg : Word} (h : cfgOp cfg = 1 ∨ cfgOp cfg = 2 ∨ (5 ≤ cfgOp cfg ∧ cfgOp cfg ≤ 11)) :
    IntegerCfg cfg (Op.ofGroup (cfgOp cfg)) := by
  have hplain : ¬(cfgOp cfg = 13 ∨ cfgOp cfg = 14) ∧ cfgOp cfg ≠ 12 := by omega
  refine ⟨?_, fun x y => by simp [accStep, hplain], by simp [accIdentity, hplain, not_or.mp hplain.1]⟩
  generalize cfgOp cfg = n at h
  rcases h with rfl | rfl | ⟨h5, h11⟩
  · decide
  · decide
  · interval_cases n <;> decide

section
variable {o : Op} {cfg : Word} {a : Acc} {fs bs : List Word}

theorem Acc.holds_empty (o : Op) (cfg : Word) : (Acc.empty cfg).Holds o [] [] := ⟨rfl, rfl, fun h => absurd rfl h⟩

theorem Acc.Holds.count_eq (h : a.Holds o fs bs) : a.count = (fs ++ bs).length := by
  have hf := congrArg List.length h.front
  have hb := congrArg List.length h.back
  simp only [List.length_map, Op.length_suffixTotals, List.length_reverse] at hf hb
  simp [Acc.count, hf, hb]

theorem Acc.Holds.front_eq_nil (h : a.Holds o fs bs) : a.front = [] ↔ fs = [] := by
  rw [← List.length_eq_zero_iff, ← List.length_map (f := (·.1)), h.front, Op.length_suffixTotals, List.length_eq_zero_iff]

theorem Acc.Holds.top {t : Word × Word} {f : List (Word × Word)} (h : a.Holds o fs bs) (hf : a.front = t :: f) :
    fs ≠ [] ∧ t.1 = o.total fs := by
  have hfront := h.front
  rw [hf] at hfront
  cases fs with
  | nil => cases hfront
  | cons x fs => exact ⟨List.cons_ne_nil x fs, (List.cons.inj hfront).1⟩

theorem Acc.Holds.back_eq_nil (h : a.Holds o fs bs) : a.back = [] ↔ bs = [] := by
  rw [← List.map_eq_nil_iff (f := (·.1)), h.back, List.reverse_eq_nil_iff]

theorem flipStack_cons_cons (op : Nat) (x : Word × Word) (b : List (Word × Word)) (t : Word × Word) (f : List (Word × Word))
    (fl : Flags) : flipStack op (x :: b) (t :: f) fl =
      flipStack op b ((accStep op x t).1 :: t :: f) (fl ||| (accStep op x t).2) := rfl

/-- A flip moves the values of B to F (R236). -/
theorem flipStack_suffixTotals (hc : IntegerCfg cfg o) (b f : List (Word × Word)) (fl : Flags) {l : List Word}
    (hf : f.map (·.1) = o.suffixTotals l) :
    (flipStack (cfgOp cfg) b f fl).1.map (·.1) = o.suffixTotals ((b.map (·.1)).reverse ++ l) := by
  induction b generalizing f fl l with
  | nil => exact hf
  | cons x b ih =>
    rw [List.map_cons, List.reverse_cons, List.append_assoc, List.singleton_append]
    cases l with
    | nil =>
      obtain rfl := List.map_eq_nil_iff.mp hf
      exact ih [x] fl (congrArg (· :: []) (Op.total_singleton hc.isInteger x.1).symm)
    | cons y l =>
      cases f with
      | nil => cases hf
      | cons t f =>
        obtain ⟨ht, -⟩ := List.cons.inj hf
        rw [flipStack_cons_cons]
        refine ih _ _ (congrArg₂ List.cons ?_ hf)
        show (accStep (cfgOp cfg) x t).1.1 = _
        rw [hc.step, Op.total_cons hc.isInteger, ← ht]

/-- A push that finds the window full lets the oldest value go (R236, R238). -/
theorem Acc.Holds.expire (hc : IntegerCfg a.cfg o) (h : a.Holds o fs bs) :
    ∃ fs' bs', a.expire.1.Holds o fs' bs' ∧
      fs' ++ bs' = (fs ++ bs).drop (if (fs ++ bs).length = cfgLen a.cfg then 1 else 0) := by
  rw [Acc.expire, h.count_eq]
  by_cases hfull : (fs ++ bs).length = cfgLen a.cfg
  · rw [if_pos hfull, if_pos hfull]
    cases fs with
    | cons x fs =>
      have hfront := h.front
      cases hcons : a.front with
      | nil => rw [hcons] at hfront; cases hfront
      | cons t f =>
        rw [hcons] at hfront
        exact ⟨fs, bs, ⟨(List.cons.inj hfront).2, h.back, h.agg⟩, rfl⟩
    | nil =>
      rw [h.front_eq_nil.mpr rfl]
      have hflip := flipStack_suffixTotals hc a.back [] 0 (l := []) rfl
      rw [h.back, List.reverse_reverse, List.append_nil] at hflip
      refine ⟨bs.drop 1, [], ⟨?_, rfl, fun hne => absurd rfl hne⟩, List.append_nil _⟩
      rw [← Op.suffixTotals_drop_one, ← hflip, List.map_drop]
  · rw [if_neg hfull, if_neg hfull]
    exact ⟨fs, bs, h, rfl⟩

@[simp] theorem Acc.expire_cfg (a : Acc) : a.expire.1.cfg = a.cfg := by
  unfold Acc.expire
  split
  · split <;> rfl
  · rfl

/-- A push into an empty B (R236). -/
theorem Acc.push_of_nil {x : Word × Word} (h : a.expire.1.back = []) : (a.push x).1 =
    { a.expire.1 with agg := x, back := [x], bad := a.expire.1.marked.filter (· ≠ 8192) } := by
  simp only [Acc.push, h]

/-- A push onto values of B (R236). -/
theorem Acc.push_of_cons {x : Word × Word} (h : a.expire.1.back ≠ []) : (a.push x).1 =
    { a.expire.1 with
      agg := (accStep (cfgOp a.expire.1.cfg) a.expire.1.agg x).1, back := x :: a.expire.1.back
      bad := a.expire.1.marked.filter (· ≠ 8192) } := by
  unfold Acc.push
  generalize a.expire = p at h ⊢
  obtain ⟨b, fl⟩ := p
  cases hb : b.back with
  | nil => exact absurd hb h
  | cons y l => simp only [hb]

@[simp] theorem Acc.push_cfg (a : Acc) (x : Word × Word) : (a.push x).1.cfg = a.cfg := by
  by_cases h : a.expire.1.back = []
  · rw [Acc.push_of_nil h, Acc.expire_cfg]
  · rw [Acc.push_of_cons h, Acc.expire_cfg]

/-- A push enters its value as the newest one of B (R236). -/
theorem Acc.Holds.push (hc : IntegerCfg a.cfg o) (h : a.Holds o fs bs) (x : Word) :
    ∃ fs' bs', (a.push (x, 0)).1.Holds o fs' bs' ∧
      fs' ++ bs' = (fs ++ bs).drop (if (fs ++ bs).length = cfgLen a.cfg then 1 else 0) ++ [x] := by
  obtain ⟨fs', bs', hexp, heq⟩ := h.expire hc
  have hback : ((x, (0 : Word)) :: a.expire.1.back).map (·.1) = (bs' ++ [x]).reverse := by
    rw [List.map_cons, hexp.back, List.reverse_append]
    rfl
  refine ⟨fs', bs' ++ [x], ?_, by rw [← List.append_assoc, heq]⟩
  by_cases hnil : a.expire.1.back = []
  · obtain rfl := hexp.back_eq_nil.mp hnil
    rw [Acc.push_of_nil hnil]
    rw [hnil] at hback
    exact ⟨hexp.front, hback, fun _ => (Op.total_singleton hc.isInteger x).symm⟩
  · rw [Acc.push_of_cons hnil, Acc.expire_cfg]
    refine ⟨hexp.front, hback, fun _ => ?_⟩
    rw [Op.total_append hc.isInteger, ← hexp.agg (hexp.back_eq_nil.not.mp hnil), Op.total_singleton hc.isInteger]
    exact hc.step _ _

end

/-- The newest values of a list that is as long as the window, and one more (R234). -/
theorem newest_append_singleton {α : Type} {n : Nat} (hn : 1 ≤ n) (l : List α) (x : α) :
    (l.drop (l.length - n)).drop (if (l.drop (l.length - n)).length = n then 1 else 0) ++ [x] =
      (l ++ [x]).drop ((l ++ [x]).length - n) := by
  rw [List.drop_drop, List.length_drop, List.length_append, List.length_singleton, List.drop_append_of_le_length (by omega)]
  congr 2
  split <;> omega

/-- After any pushes, an accumulator that was empty holds its newest values (R234, R236). -/
theorem Acc.holds_pushes {o : Op} {cfg : Word} (hc : IntegerCfg cfg o) (hlen : 1 ≤ cfgLen cfg) (xs : List Word) :
    let a := xs.foldl (fun a x => (Acc.push a (x, 0)).1) (Acc.empty cfg)
    a.cfg = cfg ∧ ∃ fs bs, a.Holds o fs bs ∧ fs ++ bs = xs.drop (xs.length - cfgLen cfg) := by
  induction xs using List.reverseRecOn with
  | nil => exact ⟨rfl, [], [], Acc.holds_empty o cfg, (List.drop_nil).symm⟩
  | append_singleton xs x ih =>
    rw [List.foldl_append]
    generalize xs.foldl (fun a x => (Acc.push a (x, 0)).1) (Acc.empty cfg) = a at ih
    obtain ⟨rfl, fs, bs, hholds, hnewest⟩ := ih
    obtain ⟨fs', bs', hpush, heq⟩ := hholds.push hc x
    exact ⟨a.push_cfg (x, 0), fs', bs', hpush, by rw [heq, hnewest, newest_append_singleton hlen]⟩

/-- A read gives the total of the values, and says whether there are none (R236). -/
theorem Acc.Holds.readValue {o : Op} {a : Acc} {fs bs : List Word} (hc : IntegerCfg a.cfg o) (h : a.Holds o fs bs) :
    a.readValue.1.1 = o.total (fs ++ bs) ∧ a.readValue.2.2 = (fs ++ bs).isEmpty := by
  unfold Acc.readValue
  split
  · next hf hb =>
    obtain rfl := h.front_eq_nil.mp hf
    obtain rfl := h.back_eq_nil.mp hb
    exact ⟨hc.identity, rfl⟩
  · next hf hb =>
    obtain rfl := h.front_eq_nil.mp hf
    have hne : bs ≠ [] := fun hnil => hb (h.back_eq_nil.mpr hnil)
    exact ⟨h.agg hne, (List.isEmpty_eq_false_iff.mpr hne).symm⟩
  · next t f hf hb =>
    obtain rfl := h.back_eq_nil.mp hb
    obtain ⟨hne, htop⟩ := h.top hf
    rw [List.append_nil]
    exact ⟨htop, (List.isEmpty_eq_false_iff.mpr hne).symm⟩
  · next t f hf hb =>
    obtain ⟨hne, htop⟩ := h.top hf
    have hbs : bs ≠ [] := fun hnil => hb (h.back_eq_nil.mpr hnil)
    rw [Op.total_append hc.isInteger, ← htop, ← h.agg hbs]
    exact ⟨hc.step t a.agg, (List.isEmpty_eq_false_iff.mpr (List.append_ne_nil_of_left_ne_nil hne bs)).symm⟩

/-! ### Images -/

theorem wordAt_toBytes_append (x : Word) (b : List Byte) : wordAt (toBytes 4 x.toNat ++ b) 0 = x := by
  have hlen : (toBytes 4 x.toNat).length = 4 := length_toBytes 4 x.toNat
  rw [wordAt, List.drop_zero, List.take_left' hlen, fromBytes_toBytes]
  exact BitVec.eq_of_toNat_eq (by rw [BitVec.toNat_ofNat]; omega)

theorem wordAt_append_add (p b : List Byte) (n : Nat) : wordAt (p ++ b) (p.length + n) = wordAt b n := by
  rw [wordAt, List.drop_length_add_append, wordAt]

/-- A word behind the first one. -/
theorem wordAt_toBytes_add (x : Nat) (b : List Byte) (n : Nat) : wordAt (toBytes 4 x ++ b) (4 + n) = wordAt b n := by
  simpa using wordAt_append_add (toBytes 4 x) b n

@[simp] theorem length_entryBytes (arg : Bool) (x : Word × Word) :
    (entryBytes arg x).length = if arg then 8 else 4 := by
  cases arg <;> simp [entryBytes]

theorem length_entries (arg : Bool) (l : List (Word × Word)) :
    (l.flatMap (entryBytes arg)).length = l.length * (if arg then 8 else 4) := by
  simp [List.length_flatMap]

/-- The entry that stands at a byte of an image (R244). -/
def entryAt (b : List Byte) (arg : Bool) (n : Nat) : Word × Word := (wordAt b n, if arg then wordAt b (n + 4) else 0)

/-- The entries of an image behind what stands before them. -/
theorem entryAt_entries (arg : Bool) (p : List Byte) (l : List (Word × Word)) (hplain : arg = false → ∀ x ∈ l, x.2 = 0)
    {i : Nat} (hi : i < l.length) :
    entryAt (p ++ l.flatMap (entryBytes arg)) arg (p.length + (if arg then 8 else 4) * i) = l[i] := by
  induction l generalizing p i with
  | nil => cases hi
  | cons x l ih =>
    cases i with
    | zero =>
      obtain ⟨y, z⟩ := x
      rw [Nat.mul_zero, entryAt, Nat.add_assoc, wordAt_append_add, wordAt_append_add, List.flatMap_cons, entryBytes,
        List.append_assoc, wordAt_toBytes_append]
      cases arg with
      | true => simp [wordAt_toBytes_add _ _ 0, wordAt_toBytes_append]
      | false => simp [(hplain rfl (y, z) List.mem_cons_self).symm]
    | succ i =>
      have hrest := ih (p ++ entryBytes arg x) (fun h y hy => hplain h y (List.mem_cons_of_mem x hy)) (Nat.lt_of_succ_lt_succ hi)
      rw [List.length_append, length_entryBytes, List.append_assoc, ← List.flatMap_cons] at hrest
      rw [Nat.mul_succ, List.getElem_cons_succ, ← hrest]
      congr 1
      omega

/-- The fields of the status word (R243). -/
theorem Acc.status_fields {a : Acc} (hcount : a.count < 2 ^ 13) :
    fld a.status.toNat 0 13 = a.count ∧ fld a.status.toNat 13 13 = a.front.length ∧ fld a.status.toNat 26 5 = a.flags.toNat := by
  have hflags : a.flags.toNat < 32 := a.flags.isLt
  have hfront : a.front.length ≤ a.count := Nat.le_add_right ..
  have hstatus : a.status.toNat = a.flags.toNat * 2 ^ 26 + a.front.length * 2 ^ 13 + a.count := by
    rw [Acc.status, BitVec.toNat_ofNat, Nat.mod_eq_of_lt (by omega)]
  rw [hstatus]
  simp only [fld]
  omega

theorem cfgLen_le {cfg : Word} (h : cfgOk cfg = true) : 1 ≤ cfgLen cfg ∧ cfgLen cfg ≤ 4096 := by
  obtain ⟨-, -, -, hpos, hmax⟩ := of_decide_eq_true h
  exact ⟨hpos, hmax.trans (by split <;> omega)⟩

/-- The entries of an accumulator in the order of its image: F from the bottom, then B from the oldest (R244). -/
def Acc.entries (a : Acc) : List (Word × Word) := a.front.reverse ++ a.back.reverse

theorem Acc.length_entries (a : Acc) : a.entries.length = a.count := by simp [Acc.entries, Acc.count]

theorem Acc.mem_entries {a : Acc} {x : Word × Word} : x ∈ a.entries ↔ x ∈ a.front ++ a.back := by simp [Acc.entries]

/-- The aggregate's word pair in the image (R244). -/
def Acc.imageAgg (a : Acc) : Word × Word := if a.back.isEmpty then (0, 0) else a.agg

/-- The first 16 bytes of an image (R244). -/
def Acc.imageHead (a : Acc) : List Byte :=
  toBytes 4 a.cfg.toNat ++ (toBytes 4 a.status.toNat ++ (toBytes 4 a.imageAgg.1.toNat
    ++ toBytes 4 (if cfgArg a.cfg then a.imageAgg.2 else 0).toNat))

theorem Acc.image_eq (a : Acc) : a.image = a.imageHead ++ a.entries.flatMap (entryBytes (cfgArg a.cfg)) := by
  simp only [Acc.image, Acc.imageHead, Acc.imageAgg, Acc.entries, List.append_assoc]
  cases cfgArg a.cfg <;> rfl

@[simp] theorem Acc.length_imageHead (a : Acc) : a.imageHead.length = 16 := by simp [Acc.imageHead]

theorem Acc.length_image (a : Acc) : a.image.length = imageBytes a.cfg a.count := by
  rw [Acc.image_eq, List.length_append, Acc.length_imageHead, Machine.length_entries, Acc.length_entries, imageBytes]

/-- The four words of an image's head (R244). -/
theorem Acc.image_words (a : Acc) : wordAt a.image 0 = a.cfg ∧ wordAt a.image 4 = a.status ∧ wordAt a.image 8 = a.imageAgg.1 ∧
    wordAt a.image 12 = if cfgArg a.cfg then a.imageAgg.2 else 0 := by
  rw [Acc.image_eq, Acc.imageHead]
  simp only [List.append_assoc]
  refine ⟨wordAt_toBytes_append .., ?_, ?_, ?_⟩
  · exact (wordAt_toBytes_add _ _ 0).trans (wordAt_toBytes_append ..)
  · exact (wordAt_toBytes_add _ _ 4).trans ((wordAt_toBytes_add _ _ 0).trans (wordAt_toBytes_append ..))
  · exact (wordAt_toBytes_add _ _ 8).trans ((wordAt_toBytes_add _ _ 4).trans ((wordAt_toBytes_add _ _ 0).trans
      (wordAt_toBytes_append ..)))

theorem Acc.entriesOf_image {a : Acc} (hplain : cfgArg a.cfg = false → ∀ x ∈ a.entries, x.2 = 0) :
    ((List.range a.count).map fun i => entryAt a.image (cfgArg a.cfg) (16 + (if cfgArg a.cfg then 8 else 4) * i)) = a.entries := by
  refine List.ext_getElem (by simp [Acc.length_entries]) fun i _ hi => ?_
  rw [List.getElem_map, List.getElem_range, Acc.image_eq, ← a.length_imageHead]
  exact entryAt_entries (cfgArg a.cfg) a.imageHead a.entries hplain hi

/-- What an image gives, by its words and its entries (R244). -/
theorem Acc.ofImage_eq (b : List Byte) :
    let cfg := wordAt b 0
    let st := (wordAt b 4).toNat
    let entries := (List.range (fld st 0 13)).map fun i => entryAt b (cfgArg cfg) (16 + (if cfgArg cfg then 8 else 4) * i)
    Acc.ofImage b = { cfg := cfg, flags := .ofNat 5 (fld st 26 5), front := (entries.take (fld st 13 13)).reverse,
                      back := (entries.drop (fld st 13 13)).reverse, agg := (wordAt b 8, if cfgArg cfg then wordAt b 12 else 0)
                      bad := [] } := by
  intro cfg st entries
  have hentries : entries = (List.range (fld st 0 13)).map fun i =>
      if cfgArg cfg then (wordAt b (16 + 8 * i), wordAt b (20 + 8 * i)) else (wordAt b (16 + 4 * i), (0 : Word)) := by
    refine List.map_congr_left fun i _ => ?_
    cases cfgArg cfg with
    | true => simp only [entryAt, if_true, Nat.add_right_comm]
    | false => rfl
  rw [hentries]
  rfl

/-- The image of an accumulator gives the accumulator again (R244). -/
theorem Acc.ofImage_image {a : Acc} (hcount : a.count < 2 ^ 13) (hbad : a.bad = [])
    (hplain : cfgArg a.cfg = false → (∀ x ∈ a.entries, x.2 = 0) ∧ a.agg.2 = 0) (hagg : a.back = [] → a.agg = (0, 0)) :
    Acc.ofImage a.image = a := by
  obtain ⟨hcfg, hstatus, hfirst, hsecond⟩ := a.image_words
  obtain ⟨hn, hnf, hflags⟩ := Acc.status_fields hcount
  have himageAgg : a.imageAgg = a.agg := by
    unfold Acc.imageAgg
    split
    · next hnil => exact (hagg (List.isEmpty_iff.mp hnil)).symm
    · rfl
  have hpair : (a.imageAgg.1, if cfgArg a.cfg then (if cfgArg a.cfg then a.imageAgg.2 else 0) else 0) = a.agg := by
    rw [himageAgg]
    cases harg : cfgArg a.cfg with
    | true => rfl
    | false => exact Prod.ext rfl (hplain harg).2.symm
  have hfront : (a.entries.take a.front.length).reverse = a.front := by
    rw [Acc.entries, List.take_left' List.length_reverse, List.reverse_reverse]
  have hback : (a.entries.drop a.front.length).reverse = a.back := by
    rw [Acc.entries, List.drop_left' List.length_reverse, List.reverse_reverse]
  rw [Acc.ofImage_eq, hcfg, hstatus, hfirst, hsecond, hn, hnf, hflags, Acc.entriesOf_image fun h => (hplain h).1, hpair, hfront,
    hback, BitVec.ofNat_toNat, BitVec.setWidth_eq, ← hbad]

/-- Settles O30: an accumulator holds the newest values of its window between its two stacks, the image keeps every field. -/
theorem windowAggregates : Obligations.WindowAggregates := by
  refine ⟨fun cfg xs hok hop => ?_, fun a hok hcount hbad hplain hagg => ⟨?_, a.length_image⟩⟩
  · intro a o
    have hc : IntegerCfg cfg o := integerCfg_ofGroup hop
    obtain ⟨hcfg, fs, bs, hholds, hnewest⟩ := Acc.holds_pushes hc (cfgLen_le hok).1 xs
    obtain ⟨hread, hempty⟩ := hholds.readValue (hcfg.symm ▸ hc)
    rw [hnewest] at hread hempty
    refine ⟨hread, ?_, hempty.trans ?_⟩
    · rw [hholds.count_eq, hnewest, List.length_drop]
      omega
    · have hlen := (cfgLen_le hok).1
      rw [Bool.eq_iff_iff, List.isEmpty_iff, List.isEmpty_iff, List.drop_eq_nil_iff, ← List.length_eq_zero_iff]
      omega
  · have hlen := (cfgLen_le hok).2
    exact Acc.ofImage_image (by omega) hbad (fun h => (hplain h).imp_left fun hz x hx => hz x (Acc.mem_entries.mp hx)) hagg

end Sys2Proof.Machine
end

section
/-!
PROOFS. The WA class at its lane's issue (R239 to R245): an operation that is performed, that is on its way to another core, or that
waits there for its turn.
-/

namespace Sys2Proof.Machine

open Sys2Proof.Safety

/-! ### An operation on a sound accumulator -/

section
variable {a : Acc} (hbad : a.bad = [])
include hbad

theorem Acc.marked_eq_nil : a.marked = [] := by rw [Acc.marked, hbad, List.filter_nil]

theorem Acc.sound_ok (words : List Nat) : a.sound words = .ok () := by
  have hnone : words.any a.marked.contains = false := by simp [Acc.marked_eq_nil hbad]
  rw [Acc.sound, hnone]
  rfl

theorem Acc.expire_bad : a.expire.1.bad = [] := by
  unfold Acc.expire
  split
  · split
    · exact hbad
    · rfl
  · exact hbad

theorem Acc.push_bad (x : Word × Word) : (a.push x).1.bad = [] := by
  have hmarked : a.expire.1.marked.filter (· ≠ 8192) = [] := by rw [Acc.marked_eq_nil (Acc.expire_bad hbad), List.filter_nil]
  by_cases h : a.expire.1.back = []
  · rw [Acc.push_of_nil h]; exact hmarked
  · rw [Acc.push_of_cons h]; exact hmarked

end

theorem Acc.push_back_ne_nil (a : Acc) (x : Word × Word) : (a.push x).1.back ≠ [] := by
  by_cases h : a.expire.1.back = []
  · rw [Acc.push_of_nil h]; exact List.cons_ne_nil x []
  · rw [Acc.push_of_cons h]; exact List.cons_ne_nil x _

/-- An accumulator that has just been pushed into is not empty. -/
theorem Acc.push_readValue (a : Acc) (x : Word × Word) : (a.push x).1.readValue.2.2 = false := by
  have hback := a.push_back_ne_nil x
  unfold Acc.readValue
  split
  · next hnil => exact absurd hnil hback
  · rfl
  · rfl
  · rfl

/-- The words that a value takes (R242). -/
def accWords (arg : Bool) (r : Word × Word) : List Word := if arg then [r.1, r.2] else [r.1]

section
variable {a : Acc} (hbad : a.bad = []) (x : Word × Word)
include hbad

theorem Acc.perform_push : a.perform 1 x =
    .ok ((a.push x).1.raise (a.push x).2 false, [], accFstat (a.push x).2 false) := by
  simp only [Acc.perform, Acc.sound_ok hbad, bind, Except.bind, pure, Except.pure]

theorem Acc.perform_read : a.perform 2 x = .ok (a.raise a.readValue.2.1 a.readValue.2.2, accWords (cfgArg a.cfg) a.readValue.1,
    accFstat a.readValue.2.1 a.readValue.2.2) := by
  simp only [Acc.perform, Acc.sound_ok hbad, bind, Except.bind, pure, Except.pure, accWords]

theorem Acc.perform_pushRead :
    let p := a.push x
    let r := p.1.readValue
    a.perform 3 x = .ok (p.1.raise (p.2 ||| r.2.1) r.2.2, accWords (cfgArg a.cfg) r.1, accFstat (p.2 ||| r.2.1) r.2.2) := by
  simp only [Acc.perform, Acc.sound_ok hbad, Acc.sound_ok (Acc.push_bad hbad x), bind, Except.bind, pure, Except.pure, accWords,
    Acc.push_readValue]

end

theorem Acc.perform_status (a : Acc) (x : Word × Word) : a.perform 5 x =
    .ok ({ a with flags := a.flags &&& ~~~(BitVec.ofNat 5 (x.1.toNat / 2 ^ 26 % 32)) }, [a.cfg, a.status], 0) := rfl

/-! ### Where an operation ends -/

/-- The lane finds the accumulator `n` with every word sound. -/
structure WaReady (s : State) (e : Env) (n : Nat) (acc : Acc) : Prop where
  env : s.env = some e
  alone : Alone e
  found : e.acc n = .ok acc
  bad : acc.bad = []

/-- The machine with an operation on its way to the core that holds the accumulators (R240). -/
def Env.waEntered (e : Env) (op : WaOp) : State :=
  ({ e.s with nextId := e.s.nextId + 1 } : State).modTeam e.wave.team fun t =>
    { t with waOps := t.waOps ++ [{ op with id := e.s.nextId }] }

/-- The machine with an operation on its way at which its strand waits (R242, R244). -/
def Env.waLater (e : Env) (op : WaOp) : State :=
  (e.waEntered { op with late := true }).setStrand e.key { e.st with pc := e.bundle, life := .waiting (.reply e.s.nextId) }

/-- The machine once the strand has gone on behind an operation on its way, `k` registers from d waiting for it (R240). -/
def Env.waSent (e : Env) (minor n d k : Nat) (x : Word × Word) (turns : Bool) : State :=
  e.waRetire minor (e.waEntered { e.waOp minor n d x with turns := turns }) (e.st.awaitMany e.s.nextId d k)

/-- The strand with an operation's words from d and its flags. -/
def Env.waGiven (e : Env) (d : Nat) (ws : List Word) (fl : Word) : Strand :=
  let st := e.put e.st d (ws.map fun z => (z, false))
  { st with fstat := st.fstat ||| fl }

/-- Where an operation ends that gives the accumulator `b`, words and flags: on its way to another core, or performed. -/
def Env.waEnds (e : Env) (minor n d k : Nat) (x : Word × Word) (b : Acc) (ws : List Word) (fl : Word) : State :=
  if e.remoteAccs then e.waSent minor n d k x false
  else e.waRetire minor (e.s.setAcc e.wave.team n b) (e.waGiven d ws fl)

/-- Words without flags leave FSTAT as it is. -/
theorem Env.waGiven_zero (e : Env) (d : Nat) (ws : List Word) : e.waGiven d ws 0 = e.put e.st d (ws.map fun z => (z, false)) := by
  simp [Env.waGiven]

theorem Env.waGiven_nil (e : Env) (d : Nat) : e.waGiven d [] 0 = e.st := e.waGiven_zero d []

theorem Env.next_waEnds (e : Env) (minor n d k : Nat) (x : Word × Word) (b : Acc) (ws : List Word) (fl : Word) :
    (.next (e.waEnds minor n d k x b ws fl) : Out) = if e.remoteAccs then .next (e.waSent minor n d k x false)
      else .next (e.waRetire minor (e.s.setAcc e.wave.team n b) (e.waGiven d ws fl)) := apply_ite ..

theorem Env.waSend_late (e : Env) {op : WaOp} (h : op.late = true) (k : Nat) : e.waSend op k = .late (e.waLater op) := by
  have hop : op = { op with late := true } := by rw [← h]
  rw [hop]
  rfl

section
variable {s : State} {e : Env} {n : Nat} {acc : Acc}

theorem Env.waEnd_done (ha : Alone e) (minor d : Nat) (t : State) (ws : List Word) (fl : Word) :
    e.waEnd minor d (.done t ws fl) = e.waRetire minor t (e.waGiven d ws fl) := by
  simp [Env.waEnd, Env.offer_of_alone ha, Env.accOut, Env.waGiven]

theorem Env.waEnd_sent (ha : Alone e) (minor n d k : Nat) (x : Word × Word) (turns : Bool) :
    e.waEnd minor d (e.waSend { e.waOp minor n d x with turns := turns } k) = e.waSent minor n d k x turns :=
  congrArg (fun st => e.waRetire minor (e.waEntered { e.waOp minor n d x with turns := turns }) st)
    (Env.offer_of_alone ha (e.st.awaitMany e.s.nextId d k) e.s.nextId [] [])

theorem Env.accOnce_of_alone (ha : Alone e) (minor n d : Nat) (req : List Word) (f : Env → Act WaDone) :
    e.accOnce minor n d req f = (f e).map (e.waEnd minor d) := by
  rw [Env.accOnce, Env.once_of_alone ha]

/-- An operation on an accumulator of another core is on its way there, behind the others where it turns it (R240). -/
theorem WaReady.accOp_sent (hr : WaReady s e n acc) (hremote : e.remoteAccs = true) (minor d k : Nat) (x : Word × Word)
    (req : List Word) : e.accOp minor n d k x req =
      .ok (e.waSent minor n d k x (minor = 0 && (e.unsettled n || cfgArg x.1 ≠ cfgArg acc.cfg))) := by
  rw [Env.accOp, Env.accOnce_of_alone hr.alone]
  simp only [hr.found, hremote, if_true, bind, Except.bind, pure, Except.pure, Except.map, Env.waEnd_sent hr.alone]

/-- An operation on an accumulator of the own core is performed (R239). -/
theorem WaReady.accOp_done (hr : WaReady s e n acc) (hlocal : e.remoteAccs = false) {minor : Nat} {x : Word × Word}
    (hturns : minor = 0 → (e.unsettled n || decide (cfgArg x.1 ≠ cfgArg acc.cfg)) = true → e.waQueued n = false)
    {b : Acc} {ws : List Word} {fl : Word} (hp : acc.perform minor x = .ok (b, ws, fl)) (d k : Nat) (req : List Word) :
    e.accOp minor n d k x req = .ok (e.waRetire minor (e.s.setAcc e.wave.team n b) (e.waGiven d ws fl)) := by
  have hroom : (!((decide (minor = 0) && (e.unsettled n || decide (cfgArg x.1 ≠ cfgArg acc.cfg))) && e.waQueued n)) = true := by
    by_cases hm : minor = 0
    · cases ht : e.unsettled n || decide (cfgArg x.1 ≠ cfgArg acc.cfg) with
      | true => simp [hturns hm ht]
      | false => simp
    · simp [hm]
  rw [Env.accOp, Env.accOnce_of_alone hr.alone]
  simp only [hr.found, hlocal, Bool.false_eq_true, if_false, hroom, require_true, hp, bind, Except.bind, pure, Except.pure, Except.map,
    Env.waEnd_done hr.alone]

/-- An operation that does not configure its accumulator ends on its way or performed. -/
theorem WaReady.accOp_ends (hr : WaReady s e n acc) {minor : Nat} (hminor : minor ≠ 0) {x : Word × Word} {b : Acc}
    {ws : List Word} {fl : Word} (hp : acc.perform minor x = .ok (b, ws, fl)) (d k : Nat) (req : List Word) :
    e.accOp minor n d k x req = .ok (e.waEnds minor n d k x b ws fl) := by
  rw [Env.waEnds]
  cases hremote : e.remoteAccs with
  | true => simp [hr.accOp_sent hremote, hminor]
  | false => exact hr.accOp_done hremote (fun h => absurd h hminor) hp d k req

/-! ### WACFG, WACLR and WASTAT -/

variable {w : BitVec 4} {a d : BitVec 7} {x y : Word}

theorem wacfg_ends (hr : WaReady s e w.toNat acc) (hx : Reads e a.toNat x) (hok : cfgOk x = true) {t : State}
    (hop : e.accOp 0 w.toNat 0 0 (x, 0) [x] = .ok t) : exec (.wacfg w a) s = .next t :=
  runLane_ok hr.env (by simp only [exist_one hx, hr.found, hx.2, hok, Bool.not_false, require_true, bind, Except.bind, hop])

theorem waclr_ends (hr : WaReady s e w.toNat acc) :
    exec (.waclr w) s = .next (e.waEnds 4 w.toNat 0 0 (0, 0) (Acc.empty acc.cfg) [] 0) :=
  runLane_ok hr.env (by simp only [hr.found, hr.accOp_ends (minor := 4) (by decide) rfl, bind, Except.bind])

theorem wastat_ends (hr : WaReady s e w.toNat acc) (hx : Reads e a.toNat x) (hd : Has e d.toNat) (hd1 : Has e (d.toNat + 1)) :
    exec (.wastat d w a) s = .next (e.waEnds 5 w.toNat d.toNat 2 (x, 0)
      { acc with flags := acc.flags &&& ~~~(BitVec.ofNat 5 (x.toNat / 2 ^ 26 % 32)) } [acc.cfg, acc.status] 0) := by
  have hexist : e.exist [a.toNat, d.toNat, d.toNat + 1] = .ok () := exist_ok (by simp [hx.1, hd, hd1])
  exact runLane_ok hr.env
    (by simp only [hexist, hr.found, use_ok hx, hr.accOp_ends (by decide) (acc.perform_status (x, 0)), bind, Except.bind])

/-! ### WAPUSH, WARD and WAPR -/

/-- Registers for a value or a pair, as an accumulator holds them, are there (R242). -/
def PairHas (e : Env) (arg : Bool) (r : Nat) : Prop := Has e r ∧ (arg = true → r % 2 = 0 ∧ Has e (r + 1))

theorem Env.pairOk_ok {arg : Bool} {r : Nat} (h : PairHas e arg r) : e.pairOk arg r = .ok () := by
  obtain ⟨hr, hpair⟩ := h
  cases arg with
  | false => exact exist_span (k := 1) fun j hj => by rw [Nat.lt_one_iff.mp hj]; exact hr
  | true =>
    obtain ⟨heven, hnext⟩ := hpair rfl
    simp only [Env.pairOk, heven, decide_true, Bool.or_true, require_true, if_true, bind, Except.bind]
    exact exist_span (k := 2) fun j hj => by
      obtain rfl | rfl : j = 0 ∨ j = 1 := by omega
      · exact hr
      · exact hnext

/-- Registers hold the value or the pair `v` that a push takes (R242). -/
def Pushes (e : Env) (arg : Bool) (r : Nat) (v : Word × Word) : Prop :=
  Reads e r v.1 ∧ if arg = true then r % 2 = 0 ∧ Reads e (r + 1) v.2 else v.2 = 0

theorem pushes_of_reads {arg : Bool} {r : Nat} {v : Word × Word} (hx : Reads e r x) (hv : v.1 = x)
    (hpair : if arg = true then r % 2 = 0 ∧ Reads e (r + 1) y ∧ v.2 = y else v.2 = 0) : Pushes e arg r v := by
  subst hv
  refine ⟨hx, ?_⟩
  split at hpair
  · next harg =>
    obtain ⟨heven, hy, rfl⟩ := hpair
    exact (if_pos harg).mpr ⟨heven, hy⟩
  · next harg => exact (if_neg harg).mpr hpair

theorem Pushes.pairHas {arg : Bool} {r : Nat} {v : Word × Word} (h : Pushes e arg r v) : PairHas e arg r :=
  ⟨h.1.1, fun harg => by obtain ⟨heven, hnext⟩ := (if_pos harg).mp h.2; exact ⟨heven, hnext.1⟩⟩

theorem Pushes.pushed {arg : Bool} {r : Nat} {v : Word × Word} (h : Pushes e arg r v) : e.pushed arg r = .ok v := by
  obtain ⟨hfirst, hsecond⟩ := h
  refine both_eq_ok (use_ok hfirst) ?_
  cases arg with
  | true => exact use_ok hsecond.2
  | false => exact congrArg Except.ok hsecond.symm

theorem accOperand_push {arg : Bool} {r d : Nat} {v : Word × Word} (h : Pushes e arg r v) : e.accOperand 1 arg r d = .ok v := by
  simp [Env.accOperand, Env.pairOk_ok h.pairHas, h.pushed, bind, Except.bind]

theorem accOperand_pushRead {arg : Bool} {r d : Nat} {v : Word × Word} (h : Pushes e arg r v) (hd : PairHas e arg d) :
    e.accOperand 3 arg r d = .ok v := by
  simp [Env.accOperand, Env.pairOk_ok h.pairHas, Env.pairOk_ok hd, h.pushed, bind, Except.bind]

theorem accOperand_read {arg : Bool} {r d : Nat} (hd : PairHas e arg d) : e.accOperand 2 arg r d = .ok (0, 0) := by
  simp [Env.accOperand, Env.pairOk_ok hd, bind, Except.bind, pure, Except.pure]

theorem WaReady.argNow (hr : WaReady s e n acc) : e.argNow n = .ok (some (cfgArg acc.cfg)) := by
  simp [Env.argNow, hr.found, Env.trailing_of_alone hr.alone, bind, Except.bind]

/-- A pair of reads of which neither interlocks does not interlock. -/
theorem interlocks_both_ok {α β : Type} (x : α) {y : Act β} (hy : y ≠ .error .hold) : interlocks (both (.ok x) y) = false := by
  cases y with
  | ok y => rfl
  | error q =>
    cases q with
    | hold => exact absurd rfl hy
    | _ => rfl

/-- An access whose kind of accumulator is not yet known waits at it for its turn (R242). -/
theorem accAccess_waits {minor a d : Nat} (hr : WaReady s e w.toNat acc) (hremote : e.remoteAccs = true)
    (hunsettled : e.unsettled w.toNat = true) (hreads : minor = 2 ∨ interlocks (both (e.read a) (e.read (a + 1))) = false) :
    accAccess s minor w a d = .next (e.waLater { e.waOp minor w.toNat d (0, 0) with a := a }) := by
  have hreads : (decide (minor = 2) || !interlocks (both (e.read a) (e.read (a + 1)))) = true := by
    simpa using hreads
  refine runLane_ok hr.env ?_
  simp only [Env.room_of_alone hr.alone, hr.argNow, hremote, hunsettled, Env.trailing_of_alone hr.alone, hreads, Bool.not_false,
    Bool.and_true, if_true, require_true, Env.accOnce_of_alone hr.alone, bind, Except.bind, pure, Except.pure, Except.map]
  exact congrArg Except.ok (congrArg (e.waEnd minor d) (e.waSend_late rfl 0))

/-- An access whose operand is there ends on its way or performed. -/
theorem accAccess_ends {minor a d : Nat} {x : Word × Word} (hr : WaReady s e w.toNat acc)
    (hsettled : e.remoteAccs = true → e.unsettled w.toNat = false) (hminor : minor ≠ 0)
    (hoperand : e.accOperand minor (cfgArg acc.cfg) a d = .ok x) {b : Acc} {ws : List Word} {fl : Word}
    (hp : acc.perform minor x = .ok (b, ws, fl)) :
    accAccess s minor w a d = .next (e.waEnds minor w.toNat d (accRegs minor (cfgArg acc.cfg)) x b ws fl) := by
  have hknown : (e.remoteAccs && !e.trailing && e.unsettled w.toNat) = false := by
    cases hremote : e.remoteAccs with
    | true => simp [hsettled hremote]
    | false => rfl
  refine runLane_ok hr.env ?_
  simp only [Env.room_of_alone hr.alone, hr.argNow, hknown, Bool.false_eq_true, if_false, Env.shared_of_alone hr.alone, hoperand,
    hr.accOp_ends hminor hp, bind, Except.bind]

/-! ### WASAVE and WALOAD -/

variable {h : BitVec 4} {r : HRec}

/-- The lane finds the accumulator and a handle for images, and reads the image's index (R244). -/
structure ImageReady (s : State) (e : Env) (w h : BitVec 4) (a : BitVec 7) (acc : Acc) (r : HRec) (x : Word) : Prop
    extends WaReady s e w.toNat acc where
  handle : e.hReg h.toNat = .ok r
  image : imageHandle r = true
  index : Reads e a.toNat x

/-- What WASAVE and WALOAD do once the handle has passed its checks (R244). -/
theorem ImageReady.imageOp_eq (hr : ImageReady s e w h a acc r x) (minor : Nat) {perm : HRec → Bool} (hperm : perm r = true) :
    e.imageOp minor h w a perm = Except.map (e.waEnd minor 0) (
      if e.remoteAccs then
        pure (e.waSend { e.waOp minor w.toNat 0 (x, 0) with turns := minor = 7, late := true, h := r } 0)
      else if minor = 6 then (e.saveImage r x.toNat acc false).map fun s => .done s [] 0
      else do
        require (!e.waQueued w.toNat) .hold
        (e.loadImage r x.toNat w.toNat false).map fun s => .done s [] 0) := by
  simp only [Env.imageOp, exist_one hr.index, hr.found, hr.handle, hr.image, hr.index.2, hperm, require_true,
    Env.accOnce_of_alone hr.alone, bind, Except.bind]
  rfl

/-- From another core an image has its turn there (R240, R244). -/
theorem ImageReady.imageOp_waits (hr : ImageReady s e w h a acc r x) (hremote : e.remoteAccs = true) (minor : Nat)
    {perm : HRec → Bool} (hperm : perm r = true) : e.imageOp minor h w a perm =
      .ok (e.waLater { e.waOp minor w.toNat 0 (x, 0) with turns := decide (minor = 7), h := r }) := by
  rw [hr.imageOp_eq minor hperm, if_pos hremote]
  exact congrArg Except.ok (congrArg (e.waEnd minor 0) (e.waSend_late rfl 0))

/-- WASAVE waits for the strand's reads (R335). -/
theorem wasave_ends (hs : s.env = some e) (hreads : s.readsOutstanding e.key = false) {t : State}
    (hop : e.imageOp 6 h w a hPermW = .ok t) : exec (.wasave h w a) s = .next t :=
  runLane_ok hs (by simp only [env_s hs, hreads, Bool.not_false, require_true, bind, Except.bind, hop])

/-- On the own core WASAVE writes the image to scratch (R244). -/
theorem ImageReady.imageOp_saves (hr : ImageReady s e w h a acc r x) (hlocal : e.remoteAccs = false) {perm : HRec → Bool}
    (hperm : perm r = true) {off : Nat} (hoff : e.imageAt r x.toNat ((imageBytes acc.cfg acc.count + 15) / 16) = .ok off) :
    e.imageOp 6 h w a perm = .ok (e.retire (e.s.scratchWrite e.wave.team off (clean acc.image)) e.st) := by
  have hsave : e.saveImage r x.toNat acc false = .ok (e.s.scratchWrite e.wave.team off (clean acc.image)) := by
    simp only [Env.saveImage, hoff, Acc.sound_ok hr.bad, Bool.not_false, require_true, bind, Except.bind, pure, Except.pure]
  have hend := Env.waEnd_done hr.alone 6 0 (e.s.scratchWrite e.wave.team off (clean acc.image)) [] 0
  rw [Env.waGiven_nil] at hend
  rw [hr.imageOp_eq 6 hperm, if_neg (Bool.not_eq_true _ ▸ hlocal), if_pos rfl, hsave]
  exact congrArg Except.ok hend

/-- On the own core WALOAD makes the accumulator of the image in scratch (R244). -/
theorem ImageReady.imageOp_loads (hr : ImageReady s e w h a acc r x) (hlocal : e.remoteAccs = false) {perm : HRec → Bool}
    (hperm : perm r = true) (hqueue : e.waQueued w.toNat = false) {off : Nat} (hoff : e.imageAt r x.toNat 1 = .ok off)
    (hhead : let head := (e.s.scratchRead e.wave.team off 16).bytes
      let len := imageBytes (wordAt head 0) (fld (wordAt head 4).toNat 0 13)
      headerOk (wordAt head 0) (wordAt head 4) = true ∧ e.imageAt r x.toNat ((len + 15) / 16) = .ok off ∧
        (e.s.scratchRead e.wave.team off len).poisoned = false) :
    let head := (e.s.scratchRead e.wave.team off 16).bytes
    let len := imageBytes (wordAt head 0) (fld (wordAt head 4).toNat 0 13)
    e.imageOp 7 h w a perm = .ok (e.retireRegion
      (e.s.setAcc e.wave.team w.toNat (Acc.ofImage (e.s.scratchRead e.wave.team off len).bytes)) e.st) := by
  obtain ⟨hheader, hfits, hclean⟩ := hhead
  intro head len
  have hload : e.loadImage r x.toNat w.toNat false =
      .ok (e.s.setAcc e.wave.team w.toNat (Acc.ofImage (e.s.scratchRead e.wave.team off len).bytes)) := by
    simp only [Env.loadImage, hoff, hheader, hfits, hclean, Bool.not_false, require_true, bind, Except.bind, pure, Except.pure]
    rfl
  have hend := Env.waEnd_done hr.alone 7 0
    (e.s.setAcc e.wave.team w.toNat (Acc.ofImage (e.s.scratchRead e.wave.team off len).bytes)) [] 0
  rw [Env.waGiven_nil] at hend
  rw [hr.imageOp_eq 7 hperm, if_neg (Bool.not_eq_true _ ▸ hlocal), if_neg (by decide), hqueue, hload]
  exact congrArg Except.ok hend

end

end Sys2Proof.Machine
end

section
/-!
PROOFS. The arrival of WA operations at the core that holds the accumulators (R240): the results in the strand's window, the unit that
arrives, and the turn of a strand that waits.
-/

namespace Sys2Proof.Machine

open Sys2Proof.Safety

/-! ### A result arrives in the window -/

theorem keptOf_subset (all : Bool) (w : List Went) : keptOf all w ⊆ w := by
  induction w with
  | nil => exact List.Subset.refl []
  | cons e w ih =>
    have hlater : keptOf all w ⊆ e :: w := List.subset_cons_of_subset e ih
    have hkept : e :: keptOf all w ⊆ e :: w := List.cons_subset_cons e ih
    unfold keptOf
    split
    · split
      · exact hlater
      · exact hkept
    · split
      · exact List.nil_subset _
      · exact hkept

/-- A settle adds nothing to the window. -/
theorem Strand.mem_of_mem_settle {st : Strand} {all : Bool} {x : Went} (h : x ∈ (st.settle all).window) : x ∈ st.window := by
  have hentry : x ∈ entriesOf (settleWindow all st.window [] []).1 x.dst := List.mem_filter.mpr ⟨h, decide_eq_true rfl⟩
  rw [(entriesOf_settleWindow all x.dst st.window [] []).1, if_neg List.not_mem_nil] at hentry
  exact (List.mem_filter.mp (keptOf_subset all _ hentry)).1

theorem Strand.window_commit (st : Strand) (e : Went) : (st.commit e).window = st.window := by
  unfold Strand.commit Strand.setReg Strand.setPred
  cases e.dst with
  | v n => cases st.handler <;> by_cases hn : n < 8 <;> simp [hn]
  | p n => by_cases hn : n = 0 <;> simp [hn]

theorem Strand.window_foldl_commit (l : List Went) (st : Strand) : (l.foldl Strand.commit st).window = st.window := by
  induction l generalizing st with
  | nil => rfl
  | cons e l ih => exact (ih (st.commit e)).trans (st.window_commit e)

theorem Strand.window_settleFrozen (st : Strand) : st.settleFrozen.window = st.window := by
  unfold Strand.settleFrozen
  split
  · rfl
  · exact Strand.window_foldl_commit _ _

theorem Strand.rest_settleFrozen (st : Strand) : st.settleFrozen.rest = st.rest := by
  unfold Strand.settleFrozen
  split
  · rfl
  · next f _ =>
    exact Strand.rest_foldl_commit ((settleWindow false f.frozen [] []).2.1.filter fun e => !f.wrote.contains e.dst)
      { st with handler := none, parityErrors := f.parityErrors }

/-- The strand whose entries of a request hold its result, before they settle (R18, R22). -/
def Strand.answered (st : Strand) (id : Nat) (d : Dst) (x : Word) (poison : Bool) : Strand :=
  { st with
    window := st.window.map (Machine.arrive id x poison d)
    handler := st.handler.map fun (f : Frame) => { f with frozen := f.frozen.map (Machine.arrive id x poison d) } }

section
variable (st : Strand) (id : Nat) (d : Dst) (x : Word) (poison : Bool)

/-- An arrival changes what results change, and whether a drain waits. -/
theorem Strand.rest_settle_answered : ((st.answered id d x poison).settle st.draining).settleFrozen.rest = st.rest :=
  (Strand.rest_settleFrozen _).trans
    (Strand.rest_foldl_commit (settleWindow st.draining (st.answered id d x poison).window [] []).2.1 (st.answered id d x poison))

theorem Strand.pc_arrive : (st.arrive id d x poison).pc = st.pc :=
  (Strand.pc_of_rest (st.rest_settle_answered id d x poison) :)

theorem Strand.fstat_arrive : (st.arrive id d x poison).fstat = st.fstat :=
  (Strand.fstat_of_rest (st.rest_settle_answered id d x poison) :)

/-- Every entry that is left was there before, with the request's result in it. -/
theorem Strand.mem_arrive_window {w : Went} (h : w ∈ (st.arrive id d x poison).window) :
    ∃ y ∈ st.window, w = Machine.arrive id x poison d y := by
  have hsettled : w ∈ ((st.answered id d x poison).settle st.draining).window := by
    rw [← Strand.window_settleFrozen]
    exact h
  obtain ⟨y, hy, rfl⟩ := List.mem_map.mp (Strand.mem_of_mem_settle hsettled)
  exact ⟨y, hy, rfl⟩

end

/-- A destination of the strand still waits for a request. -/
def Strand.Awaits (st : Strand) (id : Nat) (d : Dst) : Prop := ∃ x ∈ st.window, x.dst = d ∧ x.tag = some id

theorem arrive_dst (id : Nat) (x : Word) (poison : Bool) (d : Dst) (y : Went) : (Machine.arrive id x poison d y).dst = y.dst := by
  unfold Machine.arrive
  split <;> rfl

section
variable {st : Strand} {id : Nat} {d : Dst} {x : Word} {poison : Bool}

/-- What has arrived is no longer waited for (R18). -/
theorem Strand.not_awaits_arrive : ¬ (st.arrive id d x poison).Awaits id d := by
  rintro ⟨w, hw, hdst, htag⟩
  obtain ⟨y, -, rfl⟩ := st.mem_arrive_window id d x poison hw
  rw [arrive_dst] at hdst
  unfold Machine.arrive at htag
  split at htag
  · cases htag
  · next hnot => exact hnot ⟨htag, hdst⟩

theorem Strand.awaits_of_arrive {id' : Nat} {d' : Dst} (h : (st.arrive id' d' x poison).Awaits id d) : st.Awaits id d := by
  obtain ⟨w, hw, hdst, htag⟩ := h
  obtain ⟨y, hy, rfl⟩ := st.mem_arrive_window id' d' x poison hw
  rw [arrive_dst] at hdst
  unfold Machine.arrive at htag
  split at htag
  · cases htag
  · exact ⟨y, hy, hdst, htag⟩

end

/-- The strand once the words of a request have arrived at the registers from `d` whose distances `l` lists. -/
def Strand.arriveWords (st : Strand) (id d : Nat) (val : Nat → Word) (poison : Nat → Bool) (l : List Nat) : Strand :=
  l.foldl (fun st k => st.arrive id (.v (d + k)) (val k) (poison k)) st

section
variable (id d : Nat) (val : Nat → Word) (poison : Nat → Bool)

theorem Strand.arriveWords_pc_fstat (st : Strand) (l : List Nat) :
    (st.arriveWords id d val poison l).pc = st.pc ∧ (st.arriveWords id d val poison l).fstat = st.fstat := by
  induction l generalizing st with
  | nil => exact ⟨rfl, rfl⟩
  | cons k l ih =>
    obtain ⟨hpc, hfstat⟩ := ih (st.arrive id (.v (d + k)) (val k) (poison k))
    exact ⟨hpc.trans (Strand.pc_arrive ..), hfstat.trans (Strand.fstat_arrive ..)⟩

theorem Strand.awaits_of_arriveWords {st : Strand} {l : List Nat} {n : Nat} {r : Dst}
    (h : (st.arriveWords id d val poison l).Awaits n r) : st.Awaits n r := by
  induction l generalizing st with
  | nil => exact h
  | cons k l ih => exact Strand.awaits_of_arrive (ih h)

theorem Strand.not_awaits_arriveWords (st : Strand) {l : List Nat} {k : Nat} (hk : k ∈ l) :
    ¬ (st.arriveWords id d val poison l).Awaits id (.v (d + k)) := by
  induction l generalizing st with
  | nil => cases hk
  | cons j l ih =>
    rcases List.mem_cons.mp hk with rfl | hk
    · exact fun h => Strand.not_awaits_arrive (Strand.awaits_of_arriveWords id d val poison h)
    · exact ih _ hk

end

/-- A request's answer leaves the strand where it is with its FSTAT, and its registers wait no more. -/
theorem State.deliver_arrives {s : State} {k : Nat} {st : Strand} (id d : Nat) (words : List (Word × Bool))
    (h : s.strands.find k = some st) :
    ∃ v, (s.deliver k id d words).strands.find k = some v ∧ v.fstat = st.fstat ∧ v.pc = st.pc ∧
      ∀ j < words.length, ¬ v.Awaits id (.v (d + j)) := by
  have hlen : (s.produced k (words.map (·.1))).length = words.length := by rw [State.produced_length, List.length_map]
  rw [State.deliver, State.modStrand_of_find _ h, hlen]
  refine ⟨_, Tbl.find_set_same .., ?_⟩
  obtain ⟨hpc, hfstat⟩ := Strand.arriveWords_pc_fstat id d (fun j => (s.produced k (words.map (·.1))).getD j 0)
    (fun j => (words.map (·.2)).getD j false) st (List.range words.length)
  dsimp only
  have hwait (j : Nat) (hj : j < words.length) := Strand.not_awaits_arriveWords id d
    (fun j => (s.produced k (words.map (·.1))).getD j 0) (fun j => (words.map (·.2)).getD j false) st (List.mem_range.mpr hj)
  split
  · split <;> exact ⟨hfstat, hpc, hwait⟩
  · exact ⟨hfstat, hpc, hwait⟩

/-! ### The unit of one operation arrives -/

/-- The operations that an issue of a core leaves on their way when its unit has arrived (R240). -/
def Team.waKept (t : Team) (op : WaOp) : List WaOp := t.waOps.filter fun o => !(o.core = op.core && o.issue = op.issue)

section
variable {s : State} {team : Nat} {t : Team} {op : WaOp}

/-- The oldest issue of a core arrives where it has ended and no earlier operation that it would turn is on its way. -/
theorem State.waArrive_one (hissue : s.issue = none) (ht : s.teams.find team = some t)
    (hfirst : t.waOps.find? (·.core = op.core) = some op)
    (hunit : (t.waOps.filter fun o => o.core = op.core && o.issue = op.issue) = [op])
    (hturns : op.turns = true → ∀ o ∈ t.waOps, o.acc = op.acc → o.late = true ∨ o = op) :
    s.waArrive team op.core = (s.setTeam team { t with waOps := t.waKept op }).waApply team op := by
  have hfree : ((t.waOps.filter fun o => (o.core = op.core && o.issue = op.issue) && o.turns).any fun o =>
      ((t.waOps.takeWhile fun o => !(o.core = op.core && o.issue = op.issue)).filter fun o => !o.late).any fun x =>
        x.acc = o.acc) = false := by
    refine List.any_eq_false.mpr fun o ho => ?_
    obtain ⟨hmem, hboth⟩ := List.mem_filter.mp ho
    obtain ⟨hin, hturning⟩ := Bool.and_eq_true_iff.mp hboth
    obtain rfl : o = op := List.mem_singleton.mp (hunit ▸ List.mem_filter.mpr ⟨hmem, hin⟩)
    refine Bool.not_eq_true _ ▸ List.any_eq_false.mpr fun x hx hacc => ?_
    obtain ⟨hbefore, hprompt⟩ := List.mem_filter.mp hx
    rcases hturns hturning x ((List.takeWhile_subset _) hbefore) (of_decide_eq_true hacc) with hlate | rfl
    · simp [hlate] at hprompt
    · have hother := List.mem_takeWhile_imp hbefore
      simp at hother
  simp only [State.waArrive, ht, hfirst, hissue, Option.any_none, Bool.false_or, hfree, Bool.false_eq_true, if_false, hunit,
    List.foldl_cons, List.foldl_nil]
  rfl

/-- The schedule's entry brings the unit of one operation (R240). -/
theorem step_waArrive {rest : List Turn} (hissue : s.issue = none) (hentry : s.turns = .upset (.waArrive team op.core) :: rest)
    (ht : s.teams.find team = some t) (hfirst : t.waOps.find? (·.core = op.core) = some op)
    (hunit : (t.waOps.filter fun o => o.core = op.core && o.issue = op.issue) = [op])
    (hturns : op.turns = true → ∀ o ∈ t.waOps, o.acc = op.acc → o.late = true ∨ o = op) :
    step s = .next ((({ s with turns := rest } : State).setTeam team { t with waOps := t.waKept op }).waApply team op) :=
  (step_turn hissue hentry).trans
    (congrArg Host.Outcome.next (State.waArrive_one (s := { s with turns := rest }) hissue ht hfirst hunit hturns))

/-- A strand that waits at its operation has its turn (R242, R244). -/
def State.waTurning (s : State) (op : WaOp) : State :=
  { s.modStrand op.strand fun st => { st with life := .ready } with
    cur := { strand := op.strand, bundle := op.here, word := op.here, hints := {} } }

section
variable (hlate : op.late = true) {e : Env} (he : (s.waTurning op).env = some e) (ha : Alone e)
include hlate he ha

theorem State.waApply_turns {u : State} (hturn : e.waTurn op = .ok u) : s.waApply team op = u := by
  unfold State.waTurning at he
  simp only [State.waApply, hlate, if_true, he, Env.shared_of_alone ha, hturn]

theorem State.waApply_stops {x : Stop} (hturn : e.waTurn op = .error x) : s.waApply team op = (s.waTurning op).stop e x := by
  unfold State.waTurning at he ⊢
  simp only [State.waApply, hlate, if_true, he, Env.shared_of_alone ha, hturn]

end

section
variable (hprompt : op.late = false) {a : Acc} (hteam : s.teams.find team = some t) (hacc : t.accs.find op.acc = some a)
include hprompt hteam hacc

/-- An operation that reads a faulty entry kills the team (R245). -/
theorem State.waApply_error {p : Stop} (hp : a.perform op.minor op.x = .error p) :
    s.waApply team op = s.killTeam team POISON (laneError s op.strand 0) := by
  simp only [State.waApply, hprompt, Bool.false_eq_true, if_false, hteam, Option.bind_some, hacc, hp]

/-- An operation is applied to the accumulator as it stands, and its results go to its strand (R240). -/
theorem State.waApply_ok {b : Acc} {ws : List Word} {fl : Word} {st : Strand} (hp : a.perform op.minor op.x = .ok (b, ws, fl))
    (hst : s.strands.find op.strand = some st) :
    ∃ v, (s.waApply team op).mem = s.mem ∧ (s.waApply team op).turns = s.turns ∧
      (s.waApply team op).teams.find team = some { t with accs := t.accs.set op.acc b } ∧
      (s.waApply team op).strands.find op.strand = some v ∧ v.fstat = st.fstat ||| fl ∧ v.pc = st.pc ∧
      ∀ k < ws.length, ¬ v.Awaits op.id (.v (op.d + k)) := by
  simp only [State.waApply, hprompt, Bool.false_eq_true, if_false, hteam, Option.bind_some, hacc, hp]
  have hstrand : (s.setAcc team op.acc b).strands.find op.strand = some st := hst
  rw [State.modStrand_of_find _ hstrand]
  obtain ⟨v, hv, hfstat, hpc, hwait⟩ := State.deliver_arrives op.id op.d (ws.map fun w => (w, false))
    (s := (s.setAcc team op.acc b).setStrand op.strand _) (Tbl.find_set_same ..)
  refine ⟨v, rfl, rfl, ?_, hv, hfstat, hpc, fun k hk => hwait k (by simpa using hk)⟩
  show (s.teams.change team _).find team = _
  rw [Tbl.find_change_same, hteam]
  rfl

end

end

/-- Settles O29: each instruction checks its operands and ends performed or on its way; a unit that arrives is one operation, applied
or given its turn. -/
theorem windowInstructions : Obligations.WindowInstructions := by
  refine ⟨?_, ?_⟩
  · intro s e w a d x y acc hs ha hacc hbad hx put arg flagged words noted fin n entered sent later ends settled k
    obtain rfl : e.s = s := env_s hs
    have hr : WaReady e.s e w.toNat acc := ⟨hs, ha, hacc, hbad⟩
    refine ⟨fun hok => ?_, fun hremote hunsettled => ⟨?_, fun hreads => ?_⟩, fun v hsettled hv hv2 => ?_,
      fun hsettled hd hpair => ?_, ?_, fun hd hd1 => ?_, fun h r hh himage => ?_⟩
    · exact ⟨fun hremote => wacfg_ends hr hx hok (hr.accOp_sent hremote 0 0 0 (x, 0) [x]), fun hlocal hqueue => by
        rw [wacfg_ends hr hx hok (hr.accOp_done hlocal (fun _ => hqueue) rfl 0 0 [x]), Env.waGiven_nil]
        rfl⟩
    · exact accAccess_waits hr hremote hunsettled (.inl rfl)
    · have hreads : interlocks (both (e.read a.toNat) (e.read (a.toNat + 1))) = false := by
        rw [hx.2]
        exact interlocks_both_ok _ hreads
      exact ⟨accAccess_waits hr hremote hunsettled (.inr hreads), accAccess_waits hr hremote hunsettled (.inr hreads)⟩
    · have hpush : Pushes e (cfgArg acc.cfg) a.toNat v := pushes_of_reads hx hv hv2
      refine ⟨?_, fun hd hpair => ?_⟩
      · rw [exec_wapush, execWapush, accAccess_ends hr hsettled (by decide) (accOperand_push hpush) (Acc.perform_push hbad v),
          Env.next_waEnds]
        rfl
      · intro r
        rw [exec_wapr, execWapr, accAccess_ends hr hsettled (by decide) (accOperand_pushRead hpush ⟨hd, hpair⟩)
          (Acc.perform_pushRead hbad v), Env.next_waEnds]
        rfl
    · intro r
      rw [exec_ward, execWard, accAccess_ends hr hsettled (by decide) (accOperand_read ⟨hd, hpair⟩) (Acc.perform_read hbad (0, 0)),
        Env.next_waEnds]
      rfl
    · rw [waclr_ends hr, Env.next_waEnds, Env.waGiven_nil]
      rfl
    · rw [wastat_ends hr hx hd hd1, Env.next_waEnds, Env.waGiven_zero]
      rfl
    · have hi : ImageReady e.s e w h a acc r x := ⟨hr, hh, himage, hx⟩
      refine ⟨fun hperm hout => ⟨fun hremote => ?_, fun off hlocal hoff => ?_⟩,
        fun hperm => ⟨fun hremote => ?_, fun off hlocal hqueue hoff => ?_⟩⟩
      · exact wasave_ends hr.env hout (hi.imageOp_waits hremote 6 hperm)
      · exact wasave_ends hr.env hout (hi.imageOp_saves hlocal hperm hoff)
      · exact runLane_ok hr.env (hi.imageOp_waits hremote 7 hperm)
      · intro head len hheader hfits hclean
        exact runLane_ok hr.env (hi.imageOp_loads hlocal hperm hqueue hoff ⟨hheader, hfits, hclean⟩)
  · intro s team t op a rest hissue hentry ht hfirst hunit hturns hacc kept mid
    have hstep : step s = .next (mid.waApply team op) := step_waArrive hissue hentry ht hfirst hunit hturns
    have hteam : mid.teams.find team = some { t with waOps := kept } := Tbl.find_set_same ..
    refine ⟨fun hlate => ?_, fun p hprompt hp => ?_, fun b ws fl st hprompt hp hst => ?_⟩
    · intro at' e he ha
      exact ⟨fun u hu => hstep.trans (congrArg Host.Outcome.next (State.waApply_turns hlate he ha hu)),
        fun x hx => hstep.trans (congrArg Host.Outcome.next (State.waApply_stops hlate he ha hx))⟩
    · rw [hstep, State.waApply_error hprompt hteam hacc hp]
      rfl
    · obtain ⟨v, hmem, hrest, hteam', hv, hfstat, hpc, hwait⟩ := State.waApply_ok hprompt hteam hacc hp hst
      exact ⟨_, v, hstep, hmem, hrest, hteam', hv, hfstat, hpc, fun x hx k hk hdst htag => hwait k hk ⟨x, hx, hdst, htag⟩⟩

end Sys2Proof.Machine
end

section
/-!
PROOFS. Reads of the tables of clusters, dies and banks after a change of them.
-/

namespace Sys2Proof.Machine

section
variable (s : State)

theorem State.bank_setBank_same (b : Nat) (x : Bank) : (s.setBank b x).bank b = x := Tbl.get_set_same ..

theorem State.cluster_setCluster (k c : Nat) (x : Cluster) :
    (s.setCluster k x).cluster c = if c = k then x else s.cluster c := by
  show (s.clusters.set k x).get c Cluster.reset = _
  by_cases h : c = k
  · subst h; simp
  · rw [Tbl.get_set_other _ _ _ h, if_neg h]; rfl

theorem State.cluster_setCluster_same (c : Nat) (x : Cluster) : (s.setCluster c x).cluster c = x := Tbl.get_set_same ..

theorem State.cluster_modCluster (k c : Nat) (f : Cluster → Cluster) :
    (s.modCluster k f).cluster c = if c = k then f (s.cluster k) else s.cluster c := s.cluster_setCluster k c _

theorem State.cluster_modCluster_same (c : Nat) (f : Cluster → Cluster) :
    (s.modCluster c f).cluster c = f (s.cluster c) := s.cluster_setCluster_same c _

theorem State.die_modDie (k d : Nat) (f : Die → Die) :
    (s.modDie k f).die d = if d = k then f (s.die k) else s.die d := by
  show (s.dies.set k (f (s.die k))).get d Die.reset = _
  by_cases h : d = k
  · subst h; simp
  · rw [Tbl.get_set_other _ _ _ h, if_neg h]; rfl

theorem State.die_modDie_same (d : Nat) (f : Die → Die) : (s.modDie d f).die d = f (s.die d) := Tbl.get_set_same ..

end

end Sys2Proof.Machine
end
section
/-!
PROOFS. The levels of the SYS class (R254, R255, R271): an instruction below its level, and one that names a register of a fault
outside a handler, is ILLOP.
-/

namespace Sys2Proof.Machine

open Sys2Proof.Safety

section
variable {s : State} {e : Env} {d a b : BitVec 7} {n : BitVec 14}

theorem needLevel_ok {n : Nat} (h : n ≤ e.level) : e.needLevel n = .ok () := by simp [Env.needLevel, require, h]

theorem needLevel_below {n : Nat} (h : e.level < n) : e.needLevel n = .error (.fault ILLOP 0 0) := by
  simp [Env.needLevel, require, Nat.not_le.mpr h]

theorem runLane_illop {f : Env → Act State} (hs : s.env = some e) (hf : f e = .error (.fault ILLOP 0 0)) :
    runLane s f = faulted e ILLOP 0 := by
  rw [runLane_error hs hf, faulted, env_s hs]

/-- An instruction whose registers exist is ILLOP where what follows their check is (R11, R254). -/
theorem runLane_illop_after_exist {named : Env → List Nat} {f : Env → Act State} (hs : s.env = some e)
    (hnamed : ∀ n ∈ named e, Has e n) (hf : f e = .error (.fault ILLOP 0 0)) :
    (runLane s fun e => do e.exist (named e); f e) = faulted e ILLOP 0 :=
  runLane_illop hs (by simp only [exist_ok hnamed, bind, Except.bind, hf])

/-- The same below the level that the instruction needs. -/
theorem runLane_below_level {named : Env → List Nat} {level : Nat} {f : Env → Act State} (hs : s.env = some e)
    (hnamed : ∀ n ∈ named e, Has e n) (hlevel : e.level < level) :
    (runLane s fun e => do e.exist (named e); e.needLevel level; f e) = faulted e ILLOP 0 :=
  runLane_illop_after_exist hs hnamed (by simp only [needLevel_below hlevel, bind, Except.bind])

theorem halt_below_level (hs : s.env = some e) (hlevel : e.level < 1) : exec .halt s = faulted e ILLOP 0 :=
  runLane_illop hs (by simp only [needLevel_below hlevel, bind, Except.bind])

/-- The level of TLBINV's kind is checked behind the level of the instruction (R259). -/
theorem tlbinv_below_kind {x : Dword} {y : Word} (hs : s.env = some e) (hlevel : e.level < tlbinvLevel y.toNat)
    (hx : ReadsPair e a.toNat x) (hy : Reads e b.toNat y) : exec (.tlbinv a b) s = faulted e ILLOP 0 := by
  obtain ⟨ha, ha'⟩ := has_of_readsPair hx
  refine runLane_illop_after_exist (named := fun _ => [a.toNat, a.toNat + 1, b.toNat]) hs
    (by simp [ha, ha', has_of_reads hy]) ?_
  by_cases h : 1 ≤ e.level
  · simp only [needLevel_ok h, Env.read_loose hy.2, needLevel_below hlevel, bind, Except.bind]
  · simp only [needLevel_below (Nat.not_le.mp h), bind, Except.bind]

theorem systemRegs_exist (hd : Has e d.toNat) (hd' : systemWide n.toNat = true → Has e (d.toNat + 1)) :
    ∀ m ∈ systemRegs n.toNat d.toNat, Has e m := by
  unfold systemRegs
  cases hw : systemWide n.toNat with
  | true => simp [hd, hd' hw]
  | false => simp [hd]

section
variable (hs : s.env = some e) (hregs : ∀ m ∈ systemRegs n.toNat d.toNat, Has e m)
include hs hregs

theorem rds_outside_handler (hfault : isFaultReg n.toNat = true) (hhandler : e.st.handler = none) :
    exec (.rds d n) s = faulted e ILLOP 0 := by
  refine runLane_illop_after_exist (named := fun _ => systemRegs n.toNat d.toNat) hs hregs ?_
  by_cases h : systemReadLevel n.toNat ≤ e.level
  · simp [needLevel_ok h, require, hfault, hhandler, bind, Except.bind]
  · simp only [needLevel_below (Nat.not_le.mp h), bind, Except.bind]

theorem wrs_unwritable (h : systemWriteLevel n.toNat = none) : exec (.wrs d n) s = faulted e ILLOP 0 :=
  runLane_illop_after_exist (named := fun _ => systemRegs n.toNat d.toNat) hs hregs (by simp only [h]; rfl)

theorem wrs_below_level {level : Nat} (h : systemWriteLevel n.toNat = some level) (hlevel : e.level < level) :
    exec (.wrs d n) s = faulted e ILLOP 0 :=
  runLane_illop_after_exist (named := fun _ => systemRegs n.toNat d.toNat) hs hregs
    (by simp only [h, needLevel_below hlevel, bind, Except.bind])

end
end

/-- Settles O40: each instruction's check of its level, behind the check of its registers. -/
theorem privilegeRules : Obligations.PrivilegeRules := by
  intro s e d a b n hs hd ha ha' hb
  refine ⟨fun h0 => ?_, fun h2 => ⟨?_, fun x y hx hy hkind => ?_⟩, fun hwide => ?_⟩
  · have h1 : e.level < 1 := by omega
    refine ⟨halt_below_level hs h1, ?_, ?_, ?_, ?_, ?_⟩
    · exact runLane_below_level (named := fun _ => [d.toNat, a.toNat]) hs (by simp [hd, ha]) h1
    · exact runLane_below_level (named := fun _ => [d.toNat, a.toNat]) hs (by simp [hd, ha]) h1
    · exact runLane_below_level (named := fun _ => [a.toNat, a.toNat + 1, b.toNat]) hs (by simp [ha, ha', hb]) h1
    · exact runLane_below_level (named := fun _ => [d.toNat, a.toNat, a.toNat + 1, b.toNat]) hs (by simp [hd, ha, ha', hb]) h1
    · exact runLane_below_level (named := fun _ => [d.toNat, a.toNat, a.toNat + 1, b.toNat]) hs (by simp [hd, ha, ha', hb]) h1
  · exact runLane_below_level (named := fun _ => [d.toNat, a.toNat, b.toNat]) hs (by simp [hd, ha, hb]) h2
  · have hlevel : tlbinvLevel y.toNat = 2 := if_pos hkind
    exact tlbinv_below_kind hs (hlevel ▸ h2) hx hy
  · have hregs := systemRegs_exist hd hwide
    refine ⟨fun h => ?_, fun hn hhandler => ?_, wrs_unwritable hs hregs, fun level => wrs_below_level hs hregs⟩
    · exact runLane_below_level (named := fun _ => systemRegs n.toNat d.toNat) hs hregs h
    · refine rds_outside_handler hs hregs ?_ hhandler
      rcases hn with rfl | rfl | rfl <;> rfl

end Sys2Proof.Machine
end
section
/-!
PROOFS. Handler-kind faults and the return from a handler (R22, R25, R249, R251, R252, R257).
-/

namespace Sys2Proof.Machine

open Sys2Proof.Safety

/-! ### Entering a handler -/

section
variable {s : State} {k grid code arg : Nat} {va : Dword} {skip : VAddr} {st : Strand}

theorem faultWord_of_lane (k arg code : Nat) :
    faultWord (strandLane k) arg code = .ofNat 32 (strandLane k * 65536 + arg % 256 * 256 + code % 256) := by
  simp [faultWord, strandLane]

variable (hst : s.strands.find k = some st)
include hst

theorem State.trap_in_handler (hh : st.handler ≠ none) :
    s.trap k grid code arg va skip = s.abortGrid grid DBLFAULT (laneError s k va.toNat) := by
  simp only [State.trap, hst, Option.isSome_iff_ne_none.mpr hh, if_true]

theorem State.trap_without_handler (hh : st.handler = none) (hbase : (s.bank (waveBank (strandWave k))).trapBase = 0) :
    s.trap k grid code arg va skip = s.abortGrid grid code (laneError s k va.toNat) := by
  simp only [State.trap, hst, hh, Option.isSome_none, Bool.false_eq_true, if_false, hbase, if_true]

theorem State.trap_enters (hh : st.handler = none) (hqueued : s.queued k = false)
    (hbase : (s.bank (waveBank (strandWave k))).trapBase ≠ 0) :
    s.trap k grid code arg va skip = s.setStrand k (st.enterHandler
      ((s.bank (waveBank (strandWave k))).trapBase.setWidth 57) (strandLane k) (faultWord (strandLane k) arg code)
      (st.pc.setWidth 64) va (if code = TRAPCODE ∨ code = BRKCODE then skip else st.pc) skip (code = BRKCODE)) := by
  simp only [State.trap, hst, hh, Option.isSome_none, Bool.false_eq_true, if_false, hbase, hqueued]

end

/-- The names v0 to v7 of a handler that has just begun (R252). -/
theorem Strand.enterHandler_regs (st : Strand) (base : VAddr) (lane : Nat) (code : Word) (pc va : Dword) (again skip : VAddr)
    (brk : Bool) : (List.range 8).map (fun n => ((st.enterHandler base lane code pc va again skip brk).reg n).val) =
      [code, .ofNat 32 lane, pc.setWidth 32, (pc >>> 32).setWidth 32, va.setWidth 32, (va >>> 32).setWidth 32, 0, 0] := rfl

/-! ### Leaving a handler -/

/-- The marks of parity errors that a handler keeps for its strand: those of registers that no commit of it has written (R25). -/
theorem Strand.marks_commit {st : Strand} {f : Frame} (h : st.handler = some f) (e : Went) :
    ∃ g, (st.commit e).handler = some g ∧
      ∀ n, n ∈ g.parityErrors ↔ n ∈ f.parityErrors ∧ ¬(8 ≤ n ∧ e.dst = .v n) := by
  unfold Strand.commit Strand.setReg Strand.setPred
  cases e.dst with
  | v m =>
    by_cases hm : m < 8
    · refine ⟨_, by simp only [h, if_pos hm]; rfl, fun n => ?_⟩
      have hother : ¬(8 ≤ n ∧ Dst.v m = .v n) := by
        rintro ⟨h8, hn⟩
        cases hn
        omega
      exact (and_iff_left hother).symm
    · refine ⟨_, by simp only [h, if_neg hm]; rfl, fun n => ?_⟩
      simp only [without, List.mem_filter, decide_eq_true_eq, Dst.v.injEq]
      exact and_congr_right fun _ => ⟨fun hn hw => hn hw.2.symm, fun hn hw => hn ⟨by omega, hw.symm⟩⟩
  | p m =>
    refine ⟨f, ?_, fun n => by simp⟩
    by_cases hm : m = 0 <;> simp [hm, h]

theorem Strand.marks_foldl_commit (l : List Went) {st : Strand} {f : Frame} (h : st.handler = some f) :
    ∃ g, (l.foldl Strand.commit st).handler = some g ∧
      ∀ n, n ∈ g.parityErrors ↔ n ∈ f.parityErrors ∧ ∀ e ∈ l, ¬(8 ≤ n ∧ e.dst = .v n) := by
  induction l generalizing st f with
  | nil => exact ⟨f, h, by simp⟩
  | cons e l ih =>
    obtain ⟨f', hf', hmem⟩ := Strand.marks_commit h e
    obtain ⟨g, hg, hrest⟩ := ih hf'
    exact ⟨g, hg, fun n => by rw [hrest, hmem, List.forall_mem_cons, and_assoc]⟩

/-- Whether a settle writes a register to the bank. -/
theorem committed_settleWindow (all : Bool) (w : List Went) (d : Dst) :
    (∀ e ∈ (settleWindow all w [] []).2.1, e.dst ≠ d) ↔ committedOf all (entriesOf w d) = none := by
  have h := (entriesOf_settleWindow all d w [] []).2
  rw [if_neg List.not_mem_nil] at h
  rw [← Option.toList_eq_nil_iff, ← h, entriesOf, List.filter_eq_nil_iff]
  simp

/-- A settle ends the marks of the registers that it writes. -/
theorem Strand.marks_settle {st : Strand} {f : Frame} (h : st.handler = some f) (all : Bool) :
    ∃ g, (st.settle all).handler = some g ∧
      ∀ n, n ∈ g.parityErrors ↔ n ∈ f.parityErrors ∧ (8 ≤ n → committedOf all (entriesOf st.window (.v n)) = none) := by
  obtain ⟨g, hg, hmem⟩ := Strand.marks_foldl_commit (settleWindow all st.window [] []).2.1 h
  refine ⟨g, hg, fun n => (hmem n).trans (and_congr_right fun _ => ?_)⟩
  rw [← committed_settleWindow]
  exact ⟨fun hn h8 e he hd => hn e he ⟨h8, hd⟩, fun hn e he hw => hn hw.1 e he hw.2⟩

/-- An arrived entry that is no transient is written by a drain, at the latest (R21). -/
theorem committedOf_drain {l : List Went} (harrived : ∀ w ∈ l, w.tag = none) {w : Went} (hw : w ∈ l) (ht : w.transient = false) :
    committedOf true l ≠ none := by
  induction l with
  | nil => cases hw
  | cons e l ih =>
    rw [List.forall_mem_cons] at harrived
    obtain ⟨he, hl⟩ := harrived
    by_cases htrans : e.transient = true
    · obtain rfl | hw := List.mem_cons.mp hw
      · simp [ht] at htrans
      · simpa [committedOf, htrans] using ih hl hw
    · simp [committedOf, htrans, he]

theorem committedOf_tick_or_kept {l : List Went} {w : Went} (hw : w ∈ l) (ht : w.transient = false)
    (hnone : committedOf false l = none) : w ∈ keptOf false l := by
  induction l with
  | nil => cases hw
  | cons e l ih =>
    by_cases htrans : e.transient = true
    · obtain rfl | hw := List.mem_cons.mp hw
      · simp [ht] at htrans
      · have hrest := ih hw (by simpa [committedOf, htrans] using hnone)
        simp only [keptOf, htrans, if_true]
        split
        · exact hrest
        · exact List.mem_cons_of_mem _ hrest
    · by_cases hv : e.visible = true
      · simp [committedOf, htrans, hv] at hnone
      · obtain rfl | hw := List.mem_cons.mp hw
        · simp [keptOf, htrans, hv]
        · have hrest := ih hw (by simpa [committedOf, htrans, hv] using hnone)
          simp [keptOf, htrans, hv, hrest]

theorem mem_of_mem_keptOf {all : Bool} {l : List Went} {w : Went} (h : w ∈ keptOf all l) : w ∈ l := by
  induction l with
  | nil => cases h
  | cons e l ih =>
    unfold keptOf at h
    split at h
    · split at h
      · exact List.mem_cons_of_mem _ (ih h)
      · exact (List.mem_cons.mp h).elim (fun h => h ▸ List.mem_cons_self) fun h => List.mem_cons_of_mem _ (ih h)
    · split at h
      · cases h
      · exact (List.mem_cons.mp h).elim (fun h => h ▸ List.mem_cons_self) fun h => List.mem_cons_of_mem _ (ih h)

theorem committedOf_eq_none_of_nil {all : Bool} {w : List Went} {d : Dst} (h : ∀ e ∈ w, e.dst ≠ d) :
    committedOf all (entriesOf w d) = none := by
  rw [show entriesOf w d = [] by simpa [entriesOf] using h]
  rfl

section
variable {s : State} {e : Env} {st : Strand} {f : Frame} (hh : st.handler = some f)
include hh

/-- The marks that a handler's return gives back: of the registers that neither the last count nor the drain writes (R25, R257). -/
theorem Strand.marks_return : ∃ g, (st.tick 1).drain.handler = some g ∧ ∀ n, n ∈ g.parityErrors ↔ n ∈ f.parityErrors ∧
    (8 ≤ n → committedOf false (st.agedEntries 1 (.v n)) = none ∧
      committedOf true (keptOf false (st.agedEntries 1 (.v n))) = none) := by
  obtain ⟨g, hg, hticked⟩ := Strand.marks_settle
    (st := { st with count := st.count + 1, window := st.window.map (Went.aged 1) }) hh false
  obtain ⟨g', hg', hdrained⟩ := Strand.marks_settle (st := st.tick 1) hg true
  refine ⟨g', hg', fun n => ?_⟩
  rw [hdrained, hticked, and_assoc, Strand.entriesOf_tick]
  simp only [entriesOf_map_aged]
  exact and_congr_right fun _ => ⟨fun ⟨ha, hb⟩ h8 => ⟨ha h8, hb h8⟩, fun h => ⟨fun h8 => (h h8).1, fun h8 => (h h8).2⟩⟩

/-- What a handler leaves behind once its window is drained. -/
theorem Strand.leaveHandler_left (hd : st.drained = true) (pc : VAddr) :
    LeftHandler st f pc ((st.tick 1).leaveHandler f pc) := by
  obtain ⟨g, hg, hmarks⟩ := Strand.marks_return hh
  have hback : ((st.tick 1).leaveHandler f pc).parityErrors = g.parityErrors := by
    simp only [Strand.leaveHandler, hg, Option.map_some, Option.getD_some]
  have harrived : ∀ w ∈ st.window, w.tag = none := by simpa [Strand.drained] using hd
  refine ⟨rfl, rfl, rfl, rfl, fun n hn => ?_, fun n hn hnone => ?_, fun w hw n h8 hdst ht hn => ?_⟩
  · rw [hback, hmarks] at hn
    exact hn.1
  · rw [hback, hmarks]
    have hempty : st.agedEntries 1 (.v n) = [] := by
      rw [Strand.agedEntries, show entriesOf st.window (.v n) = [] by simpa [entriesOf] using hnone]
      rfl
    exact ⟨hn, fun _ => by rw [hempty]; exact ⟨rfl, rfl⟩⟩
  · rw [hback, hmarks] at hn
    obtain ⟨hticked, hdrained⟩ := hn.2 h8
    have hmem : w.aged 1 ∈ st.agedEntries 1 (.v n) :=
      List.mem_map_of_mem (List.mem_filter.mpr ⟨hw, by simpa using hdst⟩)
    refine committedOf_drain (fun x hx => ?_) (committedOf_tick_or_kept hmem ht hticked) ht hdrained
    obtain ⟨y, hy, rfl⟩ := List.mem_map.mp (mem_of_mem_keptOf hx)
    exact harrived y (List.mem_filter.mp hy).1

end

section
variable {s : State} {e : Env} (hs : s.env = some e) (next : Frame → VAddr)
include hs

theorem trapret_waits (hh : ∃ f, e.st.handler = some f) (hd : e.st.drained = false) : trapret s next = .next s := by
  obtain ⟨f, hf⟩ := hh
  exact runLane_error hs (x := .hold) (by simp only [hf, hd, require, bind, Except.bind]; rfl)

theorem trapret_leaves {f : Frame} (hf : e.st.handler = some f) (hd : e.st.drained = true) :
    ∃ t, trapret s next = .next (s.setStrand e.key t) ∧ LeftHandler e.st f (next f) t :=
  ⟨_, runLane_ok hs (by simp only [hf, hd, require, bind, Except.bind, env_s hs]; rfl),
    Strand.leaveHandler_left hf hd (next f)⟩

theorem trapret_outside (hh : e.st.handler = none) : trapret s next = faulted e ILLOP 0 :=
  runLane_illop hs (by simp only [hh]; rfl)

end

/-- Settles O19: the entry into a handler, TRAP and BRK, the faults that abort, and the return. -/
theorem trapEntry : Obligations.TrapEntry := by
  refine ⟨fun s k grid code arg va skip st hst hh hqueued => ?_, ⟨fun s e c hs => ⟨?_, ?_⟩,
    fun s k grid code arg va skip st hst => ⟨State.trap_in_handler hst, State.trap_without_handler hst⟩⟩, fun s e hs => ?_⟩
  · intro base hbase
    exact ⟨_, _, State.trap_enters hst hh hqueued hbase, rfl, rfl, rfl, rfl, rfl, faultWord_of_lane k arg code, rfl, rfl, rfl,
      rfl, rfl, rfl, rfl, rfl, Strand.enterHandler_regs .., rfl, rfl, rfl, rfl⟩
  · exact runLane_error (f := fun _ => .error (.fault TRAPCODE c.toNat 0)) hs rfl
  · exact runLane_error (f := fun _ => .error (.fault BRKCODE c.toNat 0)) hs rfl
  · exact ⟨fun hh hd => ⟨trapret_waits hs _ hh hd, trapret_waits hs _ hh hd⟩,
      fun f hf hd => ⟨trapret_leaves hs _ hf hd, trapret_leaves hs _ hf hd⟩,
      fun hh => ⟨trapret_outside hs _ hh, trapret_outside hs _ hh⟩⟩

end Sys2Proof.Machine
end
section
/-!
PROOFS. RDS and WRS, the end of the issue at which writes of system registers take effect, and what the registers then read
(R125, R167, R254, R256, R270).
-/

namespace Sys2Proof.Machine

open Sys2Proof.Safety

section
variable {s : State} {e : Env} {d : BitVec 7} {n : BitVec 14}

/-- The words of a register's value, as RDS gives them. -/
def systemWords (n : Nat) (v : Dword) : List (Word × Bool) :=
  if systemWide n then [(v.setWidth 32, false), ((v >>> 32).setWidth 32, false)] else [(v.setWidth 32, false)]

theorem rds_reads (hs : s.env = some e) (ha : Alone e) (hregs : ∀ m ∈ systemRegs n.toNat d.toNat, Has e m)
    (hlevel : systemReadLevel n.toNat ≤ e.level) (hfault : isFaultReg n.toNat = true → e.st.handler ≠ none) :
    exec (.rds d n) s = .next (e.retire s (e.put e.st d.toNat (systemWords n.toNat (s.readSystem e.key n.toNat)))) := by
  have hreadable : (!isFaultReg n.toNat || e.st.handler.isSome) = true := by
    cases hf : isFaultReg n.toNat with
    | false => rfl
    | true => simpa [Option.isSome_iff_ne_none] using hfault hf
  rw [exec_rds, execRds]
  refine runLane_ok hs ?_
  simp only [exist_ok hregs, needLevel_ok hlevel, hreadable, require, Env.trailing_of_alone ha, Env.room_of_alone ha,
    Env.give_of_alone ha, env_s hs, bind, Except.bind, if_true, Bool.false_eq_true, if_false, pure, Except.pure, systemWords]
  cases systemWide n.toNat <;> rfl

/-- What WRS reads for a register, with and without the check of R19. -/
theorem systemOperand_ok {e : Env} {n r : Nat} {v : Dword}
    (h : if systemWide n then ReadsPair e r v else ∃ w, Reads e r w ∧ v = w.setWidth 64) :
    e.systemOperand n r = .ok (v, false) ∧ e.loose.systemOperand n r = .ok (v, false) ∧ ∀ m ∈ systemRegs n r, Has e m := by
  unfold Env.systemOperand systemRegs
  cases hw : systemWide n with
  | true =>
    rw [hw] at h
    have hpair : ReadsPair e r v := h
    have hhas := has_of_readsPair hpair
    exact ⟨readPair_ok hpair, readPair_ok (readsPair_loose hpair), by simp [hhas.1, hhas.2]⟩
  | false =>
    rw [hw] at h
    obtain ⟨w, hr, rfl⟩ : ∃ w, Reads e r w ∧ v = w.setWidth 64 := h
    exact ⟨by simp [hr.2, bind, Except.bind, pure, Except.pure],
      by simp [Env.read_loose hr.2, bind, Except.bind, pure, Except.pure], by simp [has_of_reads hr]⟩

theorem wrs_notes {x : BitVec 7} {i : Issue} {v : Dword} {level : Nat} (hs : s.env = some e) (ha : Alone e)
    (hwrite : systemWriteLevel n.toNat = some level) (hlevel : level ≤ e.level) (hi : s.issue = some i)
    (hread : if systemWide n.toNat then ReadsPair e x.toNat v else ∃ w, Reads e x.toNat w ∧ v = w.setWidth 64)
    (hok : systemValueOk n.toNat v = true) (hscribe : n = 0x23 → e.scribeWriteOk v = true) :
    exec (.wrs x n) s =
      .next (e.retire { s with issue := some { i with writes := i.writes ++ [(e.key, n.toNat, v)] } } e.st) := by
  obtain ⟨hop, hloose, hregs⟩ := systemOperand_ok hread
  have hmap : (systemValueOk n.toNat v && (decide (n.toNat ≠ 0x23) || e.scribeWriteOk v)) = true := by
    by_cases hn : n.toNat = 0x23
    · simp [hok, hscribe (BitVec.eq_of_toNat_eq hn)]
    · simp [hok, hn]
  rw [exec_wrs, execWrs]
  refine runLane_ok hs ?_
  simp only [exist_ok hregs, hwrite, needLevel_ok hlevel, hloose, hmap, hop, require, Env.trailing_of_alone ha, env_s hs,
    State.writeSystem, hi, bind, Except.bind, Bool.not_false, if_true, Bool.false_and, Bool.false_eq_true, if_false, pure,
    Except.pure]

end

/-- The last step of an issue (R125, R167, R205, R256, R270). -/
theorem step_endIssue {s : State} {i : Issue} {w : Wave} (hi : s.issue = some i) (hdone : i.remaining = [])
    (hinner : ∀ x l, s.turns ≠ .inner x :: l) (hw : s.waves.find i.wave = some w) :
    let counted : Wave := { w with issues := w.issues + 1, censusWait := w.censusWait + .ofNat 32 i.unserved,
                                   bsPass := w.bsPass + .ofNat 32 (issuePasses i.accesses) }
    let arrived := i.late.foldl (fun (s : State) l => s.deliver l.strand l.id l.d l.words)
      { s with issue := none, waves := s.waves.set i.wave counted }
    step s = .next ((((i.writes.foldl (fun (s : State) x => s.applySystem x.1 x.2.1 x.2.2) arrived).mismatchAt
      i.differ).resetWaits exec i.wave).scribeKeep exec i.wave) := by
  intro counted arrived
  have hcounted : s.modWave i.wave (fun w => { w with
      issues := w.issues + 1, censusWait := w.censusWait + .ofNat 32 i.unserved,
      bsPass := w.bsPass + .ofNat 32 (issuePasses i.accesses) }) = { s with waves := s.waves.set i.wave counted } := by
    simp only [State.modWave, Tbl.change, hw]
    rfl
  rw [step_nextLane hi hinner, State.continueIssue, hdone]
  simp only [State.endIssue, hcounted]
  rfl

section
variable (s : State) (k : Nat) (v : Dword)

theorem State.readSystem_applySystem_narrow {n : Nat} (hn : n ∈ [0x00, 0x01, 0x02, 0x04, 0x05]) :
    (s.applySystem k n v).readSystem k n = (v.setWidth 32).setWidth 64 := by
  simp only [List.mem_cons, List.not_mem_nil, or_false] at hn
  rcases hn with rfl | rfl | rfl | rfl | rfl
  · exact congrArg (fun b : Bank => b.patience.setWidth 64) (s.bank_modBank_same ..)
  · exact congrArg (fun b : Bank => b.greed.setWidth 64) (s.bank_modBank_same ..)
  · exact congrArg (fun b : Bank => b.chksb.setWidth 64) (s.bank_modBank_same ..)
  · exact congrArg (fun c : Core => c.mxwd.setWidth 64) (s.core_modCore_same ..)
  · exact congrArg (fun c : Cluster => c.gatherWin.setWidth 64) (s.cluster_modCluster_same ..)

theorem State.readSystem_applySystem_wide {n : Nat} (hn : n ∈ [0x06, 0x20, 0x21, 0x22, 0x23, 0x24, 0x25]) :
    (s.applySystem k n v).readSystem k n = v := by
  simp only [List.mem_cons, List.not_mem_nil, or_false] at hn
  rcases hn with rfl | rfl | rfl | rfl | rfl | rfl | rfl
  · exact congrArg Bank.trapBase (s.bank_modBank_same ..)
  · rfl
  · exact congrArg Cluster.fqBase (s.cluster_modCluster_same ..)
  · exact congrArg Cluster.fqBase2 (s.cluster_modCluster_same ..)
  · exact congrArg Cluster.scribeEnt (s.cluster_modCluster_same ..)
  · rfl
  · rfl

theorem State.readSystem_applySystem_gstat {w : Wave} (hw : s.waves.find (strandWave k) = some w) :
    (s.applySystem k 0x10 v).readSystem k 0x10 = ((v.setWidth 32 : Word) &&& 0xFFC7).setWidth 64 := by
  have hfound : (s.applySystem k 0x10 v).waves.find (strandWave k) = some { w with gstat := v.setWidth 32 &&& 0xFFC7 } := by
    show (s.waves.change _ _).find _ = _
    rw [Tbl.find_change_same, hw]
    rfl
  simp only [State.readSystem, hfound]
  rfl

end

/-- Settles O39: RDS, WRS, the end of the issue, and each register after its write. -/
theorem systemRegisters : Obligations.SystemRegisters := by
  refine ⟨fun s e d n hs ha hd hlevel hfault => ?_, fun s e x n i v level hs ha hwrite hlevel hi => wrs_notes hs ha hwrite hlevel hi,
    fun s i w hi hdone hinner hw => step_endIssue hi hdone hinner hw, fun s k v =>
      ⟨fun n hn => s.readSystem_applySystem_narrow k v hn, fun n hn => s.readSystem_applySystem_wide k v hn,
        fun w hw => s.readSystem_applySystem_gstat k v hw⟩⟩
  intro v
  have hexec := fun hregs => rds_reads (d := d) hs ha hregs hlevel hfault
  refine ⟨fun hw => ?_, fun hw hd' => ?_⟩
  · simpa only [systemWords, hw, Bool.false_eq_true, if_false] using hexec (systemRegs_exist hd (by simp [hw]))
  · simpa only [systemWords, hw, if_true] using hexec (systemRegs_exist hd fun _ => hd')

end Sys2Proof.Machine
end
section
/-!
PROOFS. A release at a scope above team that an instruction makes before it acts (R268, R290, R348): what it sends, and that the
instruction acts at once where nothing is left to order, and waits at its own word otherwise.
-/

namespace Sys2Proof.Machine

open Sys2Proof.Safety

/-! ### What the release sends -/

/-- The machine once a release has sent the stores of a contained team's buffer and the dirty bytes of the L1 areas (R290, R348). -/
def Env.released (e : Env) (s : State) : State :=
  (if e.isContained then s.commit e.wave.team else s).writeBackAll e.cores

theorem State.commit_beneath_teams (s : State) (t : Nat) : ∃ l, (s.commit t).beneath = ({ s with teams := l } : State).beneath ∧
    ∀ n, (Tbl.find l n).map Team.contained = (s.teams.find n).map Team.contained := by
  unfold State.commit
  split
  · exact ⟨s.teams, rfl, fun _ => rfl⟩
  · next team hteam =>
    split
    · exact ⟨s.teams, rfl, fun _ => rfl⟩
    · refine ⟨_, State.sendStore_beneath .., fun n => ?_⟩
      by_cases hn : n = t
      · subst hn
        rw [Tbl.find_set_same, hteam]
        rfl
      · rw [Tbl.find_set_other _ _ hn]

section
variable (e : Env) (s : State)

/-- A release leaves the machine beneath the caches as it is but for its teams' buffers and exposure. -/
theorem Env.released_beneath : ∃ l, (e.released s).beneath = ({ s with teams := l } : State).beneath ∧
    ∀ n, (Tbl.find l n).map Team.contained = (s.teams.find n).map Team.contained := by
  unfold Env.released
  rw [State.beneath_of_besideCaches (State.writeBackAll_besideCaches ..)]
  split
  · exact s.commit_beneath_teams e.wave.team
  · exact ⟨s.teams, rfl, fun _ => rfl⟩

/-- What neither life, caches, watches, walks nor teams touch is the same after a release. -/
theorem Env.of_released {β : Type} (g : State → β) (hg : ∀ u : State, g u.beneath = g u)
    (hteams : ∀ l, g { s with teams := l } = g s) : g (e.released s) = g s := by
  obtain ⟨l, hl, -⟩ := e.released_beneath s
  exact (State.of_beneath hl g hg).trans (hteams l)

@[simp] theorem Env.released_mem : (e.released s).mem = s.mem := e.of_released s State.mem (fun _ => rfl) fun _ => rfl

@[simp] theorem Env.released_pending : (e.released s).pending = s.pending :=
  e.of_released s State.pending (fun _ => rfl) fun _ => rfl

@[simp] theorem Env.released_loads : (e.released s).loads = s.loads := e.of_released s State.loads (fun _ => rfl) fun _ => rfl

@[simp] theorem Env.released_clusters : (e.released s).clusters = s.clusters :=
  e.of_released s State.clusters (fun _ => rfl) fun _ => rfl

theorem Env.released_contained (n : Nat) : (e.released s).contained n = s.contained n := by
  obtain ⟨l, hl, hcontained⟩ := e.released_beneath s
  have hteams : (e.released s).teams = l := State.of_beneath hl State.teams fun _ => rfl
  rw [State.contained, hteams, hcontained]
  rfl

end

/-! ### The instruction that makes it -/

section
variable {s : State} {e : Env} {st : Strand} (hs : s.env = some e) (ha : Alone e) (hst : s.strands.find e.key = some st)
  {req : List Word} {scope : Nat} {check : Env → Act Unit} {act : Env → Act State}
  {trail : List (Word × Bool) → State → Act State}
include hs hst

/-- An instruction whose release has been ordered acts (R348). -/
theorem releaseOnce_ordered {ids : List Nat} {ap : Bool} (hlife : st.life = .waiting (.acks ids ap))
    (hawaits : s.awaits ids ap = false) : e.releaseOnce req scope check act trail = act e := by
  simp only [Env.releaseOnce, env_s hs, hst, hlife, hawaits, Bool.false_eq_true, if_false]

include ha
variable (hlife : ∀ ids ap, st.life ≠ .waiting (.acks ids ap)) (hown : s.ownOutstanding e.key = false)
  (hcompared : e.isContained = true → s.allCompared e.wave.team = true) (hcheck : check e = .ok ())
include hlife hown hcompared hcheck

theorem releaseOnce_eq : e.releaseOnce req scope check act trail =
    (let t := e.released s
     let asks := t.releaseIds e.cores e.key scope e.revision false
     match t.stillOut asks.1 asks.2 with
     | [] => act { e with s := t }
     | out => pure (t.setStrand e.key { e.st with pc := e.bundle, life := .waiting (.acks out asks.2), handles := e.keepHandles })) := by
  obtain ⟨hstores, hreads⟩ : s.storesOf e.key = [] ∧ s.readsOutstanding e.key = false := by
    simpa [State.ownOutstanding] using hown
  simp only [Env.releaseOnce, env_s hs, hst, Env.once_of_alone ha, hcheck, hown, bind, Except.bind, Bool.not_false,
    require_true, commitPoint_ok hreads hstores hcompared]
  rfl

/-- Where nothing is left to order the instruction acts at once. -/
theorem releaseOnce_acts
    (hnone : (e.released s).stillOut ((e.released s).releaseIds e.cores e.key scope e.revision false).1
      ((e.released s).releaseIds e.cores e.key scope e.revision false).2 = []) :
    e.releaseOnce req scope check act trail = act { e with s := e.released s } := by
  rw [releaseOnce_eq hs ha hst hlife hown hcompared hcheck]
  dsimp only
  rw [hnone]

end

end Sys2Proof.Machine
end
section
/-!
PROOFS. The instructions that command the system (R128, R158, R252, R255, R258, R259, R261, R263, R264, R267, R271, R323).
-/

namespace Sys2Proof.Machine

open Sys2Proof.Safety

/-! ### A status that is there, and one that comes later -/

section
variable {s : State} {e : Env} (ha : Alone e)
include ha

theorem Env.status_of_alone (t : State) (d x : Nat) :
    e.status t d x = e.retire t (e.put e.st d [(.ofNat 32 x, false)]) := Env.give_of_alone ha ..

theorem Env.statusLater_of_alone (t : State) (d id : Nat) (p : Pending) : e.statusLater t d id p =
    { t with pending := t.pending.set id p }.setStrand e.key { (e.st.await d id).tick 1 with life := .waiting (.reply id) } := by
  simp only [Env.statusLater, Env.offer_of_alone ha]

end

/-- What an instruction leaves that asks for a status (R255): a request under the next number, for which its strand waits. -/
def Env.Asks (e : Env) (s : State) (d : Nat) (p : Pending) (u : State) : Prop :=
  u.mem = s.mem ∧ u.pending = s.pending.set s.nextId p ∧
    u.strands.find e.key = some { (e.st.await d s.nextId).tick 1 with life := .waiting (.reply s.nextId) }

theorem Env.asks_statusLater {s : State} {e : Env} (ha : Alone e) (d : Nat) (p : Pending) :
    e.Asks s d p (e.statusLater s.fresh.2 d s.nextId p) := by
  rw [Env.statusLater_of_alone ha]
  exact ⟨rfl, rfl, Tbl.find_set_same ..⟩

/-- A wake leaves a strand that waits for a status as it is. -/
theorem Env.Asks.wake {s u : State} {e : Env} {d : Nat} {p : Pending} (h : e.Asks s d p u) (core : Nat) :
    e.Asks s d p (u.wake core) := by
  obtain ⟨hmem, hpending, hstrand⟩ := h
  refine ⟨(u.wake_mem core).trans hmem, ?_, StrandIs.wake core (by simp) hstrand⟩
  have hrest := congrArg State.pending (u.wake_rest core)
  exact hrest.trans hpending

/-! ### HALT -/

theorem halt_stops {s : State} {e : Env} (hs : s.env = some e) (hlevel : 1 ≤ e.level) :
    exec .halt s = .next ((e.retire s e.st).modCore e.coreKey fun c => { c with halted := true }).losePin :=
  runLane_ok hs (by simp only [needLevel_ok hlevel, env_s hs, bind, Except.bind]; rfl)

/-! ### UNPARK -/

section
variable {s : State} {x k : Nat} {st : Strand}

theorem State.unpark_nobody (h : (tokenStrands x).find? (s.parkedFor x) = none) : s.unpark x = (2, s) := by
  simp only [State.unpark, h]

/-- The machine with a parked strand Ready again. -/
def State.unparked (s : State) (k : Nat) (st : Strand) (solo : Bool) : State :=
  s.setStrand k { st with life := .ready, wait := 0, solo := solo }

variable (hk : (tokenStrands x).find? (s.parkedFor x) = some k) (hst : s.strands.find k = some st)
include hk hst

theorem State.unpark_retries (hdlv : fld x 21 1 = 0) : s.unpark x = (0, (s.unparked k st true).wake (strandCore k)) := by
  simp only [State.unpark, hk, hst, hdlv, decide_true, if_true]
  rfl

/-- The machine once the trailing lane of a leading one has been handed the fault that is delivered to it (log 27). -/
def State.faultHanded (t : State) (k : Nat) (st : Strand) : State :=
  if (t.waves.find (strandWave k)).any (fun w => w.partner.isSome && !w.trailing) && !t.faultsAlone k st then
    t.modStrand k fun y => y.faultShared (t.core (strandCore k)).issueCount (fld st.faultCode.toNat 0 8)
      (fld st.faultCode.toNat 8 8) st.faultVa
  else t

/-- UNPARK with DLV hands the fault to the strand's handler. -/
theorem State.unpark_delivers {c : Bundle} {cls : Nat} (hdlv : fld x 21 1 ≠ 0)
    (hfetch : (s.unparked k st false).fetch k st = .bundle c cls) :
    let u := (s.unparked k st false).faultHanded k st
    s.unpark x = (0, (u.trap k (u.gridOf k) (fld st.faultCode.toNat 0 8) (fld st.faultCode.toNat 8 8) st.faultVa
      (st.pc + .ofNat 57 (4 * c.length))).wake (strandCore k)) := by
  simp only [State.unparked] at hfetch
  simp only [State.unpark, hk, hst, hdlv, decide_false, Bool.false_eq_true, if_false, hfetch]
  rfl

omit hk hst

theorem State.faultHanded_alone {t : State}
    (h : ∀ w, t.waves.find (strandWave k) = some w → w.partner = none ∨ w.trailing = true) : t.faultHanded k st = t := by
  have hnone : (t.waves.find (strandWave k)).any (fun w => w.partner.isSome && !w.trailing) = false := by
    cases hw : t.waves.find (strandWave k) with
    | none => rfl
    | some w => rcases h w hw with h | h <;> simp [h]
  rw [State.faultHanded, hnone, Bool.false_and, if_neg Bool.false_ne_true]

theorem State.faultHanded_leading {t : State} {w : Wave} (hw : t.waves.find (strandWave k) = some w)
    (hpartner : w.partner ≠ none) (htrail : w.trailing = false) (halone : t.faultsAlone k st = false) :
    t.faultHanded k st = t.modStrand k fun y => y.faultShared (t.core (strandCore k)).issueCount (fld st.faultCode.toNat 0 8)
      (fld st.faultCode.toNat 8 8) st.faultVa := by
  have hleads : (t.waves.find (strandWave k)).any (fun w => w.partner.isSome && !w.trailing) = true := by
    simp [hw, htrail, Option.isSome_iff_ne_none.mpr hpartner]
  rw [State.faultHanded, hleads, halone, Bool.not_false, Bool.and_true, if_pos rfl]

end

section
variable {s : State} {e : Env} {d a b : BitVec 7} (hs : s.env = some e) (ha : Alone e) (hlevel : 1 ≤ e.level)
  (hd : Has e d.toNat)
include hs ha hlevel hd

theorem unpark_answers {x : Word} (hx : Reads e a.toNat x) : exec (.unpark d a) s =
    .next (e.retire (s.unpark x.toNat).2 (e.put e.st d.toNat [(.ofNat 32 (s.unpark x.toNat).1, false)])) := by
  rw [exec_unpark, execUnpark]
  refine runLane_ok hs ?_
  simp only [exist_two hd (has_of_reads hx), needLevel_ok hlevel, use_ok hx, Env.trailing_of_alone ha, Env.room_of_alone ha,
    env_s hs, Env.status_of_alone ha, bind, Except.bind, Bool.false_eq_true, if_false, pure, Except.pure]

theorem unpark_gives {x : Word} (hx : Reads e a.toNat x) {code : Nat} {t : State} (h : s.unpark x.toNat = (code, t)) :
    exec (.unpark d a) s = .next (e.retire t (e.put e.st d.toNat [(.ofNat 32 code, false)])) := by
  rw [unpark_answers hs ha hlevel hd hx, h]

/-! ### SWAPCTX -/

theorem swapctx_answers {x : Word} (hx : Reads e a.toNat x) : exec (.swapctx d a) s = .next
    (if 512 ≤ x.toNat then e.retire s (e.put e.st d.toNat [(3, false)])
      else if ((s.core x.toNat).halted || s.retiredCore x.toNat) = true then e.retire s (e.put e.st d.toNat [(2, false)])
      else (e.statusLater s.fresh.2 d.toNat s.nextId (.swap e.key d.toNat x.toNat)).requestSwap x.toNat (some s.nextId)) := by
  rw [exec_swapctx, execSwapctx]
  refine runLane_ok hs ?_
  simp only [exist_two hd (has_of_reads hx), needLevel_ok hlevel, use_ok hx, Env.trailing_of_alone ha, Env.room_of_alone ha,
    env_s hs, Env.status_of_alone ha, bind, Except.bind, Bool.false_eq_true, if_false, pure, Except.pure]
  split
  · rfl
  · split <;> rfl

theorem swapctx_asks {x : Word} (hx : Reads e a.toNat x) (hcore : x.toNat < 512) (hhalted : (s.core x.toNat).halted = false)
    (hretired : s.retiredCore x.toNat = false) : ∃ u, exec (.swapctx d a) s = .next u ∧
      e.Asks s d.toNat (.swap e.key d.toNat x.toNat) u ∧ (u.core x.toNat).swaps = (s.core x.toNat).swaps ++ [some s.nextId] := by
  refine ⟨_, swapctx_answers hs ha hlevel hd hx, ?_⟩
  rw [if_neg (Nat.not_le.mpr hcore), if_neg (by simp [hhalted, hretired])]
  refine ⟨Env.Asks.wake ?_ _, ?_⟩
  · exact Env.asks_statusLater (s := s) ha d.toNat (.swap e.key d.toNat x.toNat)
  · have hcoreEq := State.wake_besideL1 ((e.statusLater s.fresh.2 d.toNat s.nextId (.swap e.key d.toNat x.toNat)).modCore x.toNat
      fun c => { c with swaps := c.swaps ++ [some s.nextId] }) x.toNat x.toNat
    rw [State.core_modCore_same] at hcoreEq
    exact (congrArg Core.swaps hcoreEq :)

/-! ### CTXSAVE and CTXLOAD -/

omit hs ha hlevel hd in
theorem saveOperands_iff {pa x : Nat} (hx : x < 2 ^ 32) :
    saveOperands pa x = true ↔ x < 2 ^ 10 ∧ pa % 65536 = 0 ∧ pa < 2 ^ 52 := by
  simp only [saveOperands, fld, Bool.and_eq_true, decide_eq_true_eq, and_assoc]
  refine and_congr_left fun _ => ?_
  omega

section
variable {pa : Dword} {x : Word} (hpa : ReadsPair e a.toNat pa) (hx : Reads e b.toNat x)
include hpa hx

theorem ctxsave_answers : exec (.ctxsave d a b) s = .next
    (if saveOperands pa.toNat x.toNat = false then e.retire s (e.put e.st d.toNat [(3, false)])
      else if s.activeBank (bankCore (saveBank x.toNat)) = saveBank x.toNat then e.retire s (e.put e.st d.toNat [(1, false)])
      else if (s.bank (saveBank x.toNat)).asid = none then e.retire s (e.put e.st d.toNat [(2, false)])
      else e.statusLater s.fresh.2 d.toNat s.nextId (.ctxsave e.key d.toNat (saveBank x.toNat) pa.toNat)) := by
  obtain ⟨h1, h2⟩ := has_of_readsPair hpa
  have hexist : e.exist [d.toNat, a.toNat, a.toNat + 1, b.toNat] = .ok () := exist_ok (by simp [hd, h1, h2, has_of_reads hx])
  rw [exec_ctxsave, execCtxsave]
  refine runLane_ok hs ?_
  simp only [hexist, needLevel_ok hlevel, readPair_ok hpa, hx.2, both_ok, Env.trailing_of_alone ha, Env.room_of_alone ha,
    env_s hs, Env.status_of_alone ha, bind, Except.bind, Bool.false_eq_true, if_false, pure, Except.pure, Bool.or_false,
    Bool.not_false, require_true, Bool.not_eq_true', Option.isNone_iff_eq_none]
  split
  · rfl
  · split
    · rfl
    · split <;> rfl

theorem ctxload_answers : exec (.ctxload d a b) s = .next
    (if saveOperands pa.toNat x.toNat = false then e.retire s (e.put e.st d.toNat [(3, false)])
      else if s.activeBank (bankCore (saveBank x.toNat)) = saveBank x.toNat then e.retire s (e.put e.st d.toNat [(1, false)])
      else if (s.bank (saveBank x.toNat)).asid.isSome || s.retiredCore (bankCore (saveBank x.toNat)) ||
          (s.core (bankCore (saveBank x.toNat))).halted then e.retire s (e.put e.st d.toNat [(2, false)])
      else e.statusLater s.fresh.2 d.toNat s.nextId (.ctxload e.key d.toNat (saveBank x.toNat) pa.toNat)) := by
  obtain ⟨h1, h2⟩ := has_of_readsPair hpa
  have hexist : e.exist [d.toNat, a.toNat, a.toNat + 1, b.toNat] = .ok () := exist_ok (by simp [hd, h1, h2, has_of_reads hx])
  rw [exec_ctxload, execCtxload]
  refine runLane_ok hs ?_
  simp only [hexist, needLevel_ok hlevel, readPair_ok hpa, hx.2, both_ok, Env.trailing_of_alone ha, Env.room_of_alone ha,
    env_s hs, Env.status_of_alone ha, bind, Except.bind, Bool.false_eq_true, if_false, pure, Except.pure, Bool.or_false,
    Bool.not_false, require_true, Bool.not_eq_true']
  split
  · rfl
  · split
    · rfl
    · split <;> rfl

end

/-! ### LMAPW -/

omit hs ha hlevel in
theorem lmapw_answers {x y : Word} (hs : s.env = some e) (ha : Alone e) (hlevel : 2 ≤ e.level) (hx : Reads e a.toNat x)
    (hy : Reads e b.toNat y) (hscribe : s.scribeToMove (fld y.toNat 0 9) = false) : exec (.lmapw d a b) s =
    .next (e.retire (s.writeLaneMap x.toNat y.toNat).2
      (e.put e.st d.toNat [(.ofNat 32 (s.writeLaneMap x.toNat y.toNat).1, false)])) := by
  have hexist : e.exist [d.toNat, a.toNat, b.toNat] = .ok () := exist_ok (by simp [hd, has_of_reads hx, has_of_reads hy])
  rw [exec_lmapw, execLmapw]
  refine runLane_ok hs ?_
  simp only [hexist, needLevel_ok hlevel, hx.2, hy.2, both_ok, Env.trailing_of_alone ha, Env.room_of_alone ha, env_s hs, hscribe,
    Env.status_of_alone ha, bind, Except.bind, Bool.false_eq_true, if_false, pure, Except.pure, Bool.or_false, Bool.not_false,
    require_true]

end

/-- The operands with which LMAPW may write a lane map, if its core is idle (R271). -/
def State.laneMapWritable (s : State) (x y : Nat) : Prop :=
  x < 2 ^ 16 ∧ x / 2 ^ 7 % 2 = 0 ∧ y < 2 ^ 9 ∧ x % 2 ^ 7 ≤ 64 ∧ x / 2 ^ 8 % 4 ≠ 2 ∧
    lmapState ((s.core (y % 2 ^ 9)).lmapReg (x % 2 ^ 7)) < 2

/-- The register that LMAPW writes. -/
def laneMapWord (x : Nat) : Word := .ofNat 32 (x / 2 ^ 8 % 4 * 64 + if x / 2 ^ 8 % 4 = 0 then x / 2 ^ 10 % 64 else 0)

theorem State.writeLaneMap_eq (s : State) {x y : Nat} (hx : x < 2 ^ 32) (hy : y < 2 ^ 32) [Decidable (s.laneMapWritable x y)] :
    s.writeLaneMap x y =
      if s.laneMapWritable x y then
        if s.coreResident (y % 2 ^ 9) then (2, s)
        else (0, (s.modCore (y % 2 ^ 9) fun c => { c with lmap := c.lmap.set (x % 2 ^ 7) (laneMapWord x) }).losePin)
      else (3, s) := by
  have hlow (n k : Nat) : fld n 0 k = n % 2 ^ k := by simp [fld]
  have hold (c : Core) (n : Nat) : lmapState (c.lmapReg n) < 4 := Nat.mod_lt _ (by decide)
  simp only [State.writeLaneMap, hlow]
  have hold := hold (s.core (y % 2 ^ 9)) (x % 2 ^ 7)
  have hiff : (fld x 7 1 ≠ 0 ∨ fld x 16 16 ≠ 0 ∨ fld y 9 23 ≠ 0 ∨ 64 < x % 2 ^ 7 ∨ fld x 8 2 = 2 ∨
      lmapState ((s.core (y % 2 ^ 9)).lmapReg (x % 2 ^ 7)) = 2 ∨ lmapState ((s.core (y % 2 ^ 9)).lmapReg (x % 2 ^ 7)) = 3) ↔
      ¬s.laneMapWritable x y := by
    unfold State.laneMapWritable
    simp only [fld]
    omega
  by_cases hw : s.laneMapWritable x y
  · rw [if_neg (fun h => hiff.mp h hw), if_pos hw]
    rfl
  · rw [if_pos (hiff.mpr hw), if_neg hw]

/-! ### TLBINV -/

/-- The machine once a TLBINV has begun: the matching entries are dropped, its team is exposed, and it waits under the next number for
the accesses and the walks under way (R259, R323). -/
def Env.tlbinvBegun (e : Env) (t : State) (kind asid vmid va : Nat) : State :=
  let u := (t.fresh.2.dropEntries kind asid vmid va).exposeOf ({ e with s := t } : Env).exposing
  let p := Pending.tlbinv e.key kind asid vmid va (u.accessIds kind asid vmid va) (u.walks.map (·.id))
  ({ u with pending := u.pending.set t.nextId p } : State).setStrand e.key
    { e.st.tick 1 with life := .waiting (.reply t.nextId) }

section
variable {s : State} {e : Env} {a b : BitVec 7} {st : Strand} (hs : s.env = some e) (ha : Alone e) (hlevel : 1 ≤ e.level)
  (hst : s.strands.find e.key = some st) (hlife : ∀ ids ap, st.life ≠ .waiting (.acks ids ap))
  (hown : s.ownOutstanding e.key = false) (hcompared : e.isContained = true → s.allCompared e.wave.team = true)
include hs ha hlevel hst hlife hown hcompared

theorem tlbinv_begins {va : Dword} {x : Word} (hva : ReadsPair e a.toNat va) (hx : Reads e b.toNat x) (hmap : x.toNat < 2 ^ 23)
    (hkind : tlbinvLevel x.toNat ≤ e.level)
    (hnone : (e.released s).stillOut ((e.released s).releaseIds e.cores e.key 5 e.revision false).1
      ((e.released s).releaseIds e.cores e.key 5 e.revision false).2 = []) :
    exec (.tlbinv a b) s = .next
      (e.tlbinvBegun (e.released s) (fld x.toNat 21 2) (fld x.toNat 0 13) (fld x.toNat 13 8) va.toNat) := by
  obtain ⟨h1, h2⟩ := has_of_readsPair hva
  have hexist : e.exist [a.toNat, a.toNat + 1, b.toNat] = .ok () := exist_ok (by simp [h1, h2, has_of_reads hx])
  have hhigh : fld x.toNat 23 9 = 0 := by simp only [fld]; omega
  rw [exec_tlbinv, execTlbinv]
  refine runLane_ok hs ?_
  simp only [hexist, needLevel_ok hlevel, Env.read_loose hx.2, needLevel_ok hkind, hhigh, decide_true, readPair_ok hva, hx.2,
    both_ok, bind, Except.bind, require_true]
  rw [releaseOnce_acts hs ha hst hlife hown hcompared (by rfl) hnone]
  simp only [Env.offer_of_alone (e := { e with s := e.released s }) ha]
  rfl

end

section
variable (e : Env) (t : State) (kind asid vmid va : Nat)

theorem Env.tlbinvBegun_teams : (e.tlbinvBegun t kind asid vmid va).teams =
    (t.exposeOf ({ e with s := t } : Env).exposing).teams := by
  unfold Env.tlbinvBegun
  cases ({ e with s := t } : Env).exposing <;> rfl

theorem Env.tlbinvBegun_pending : (e.tlbinvBegun t kind asid vmid va).pending = t.pending.set t.nextId
    (.tlbinv e.key kind asid vmid va (t.accessIds kind asid vmid va) (t.walks.map (·.id))) := by
  unfold Env.tlbinvBegun
  cases ({ e with s := t } : Env).exposing <;> rfl

theorem Env.tlbinvBegun_mem : (e.tlbinvBegun t kind asid vmid va).mem = t.mem := by
  unfold Env.tlbinvBegun
  cases ({ e with s := t } : Env).exposing <;> rfl

theorem Env.tlbinvBegun_coreTlb (c : Nat) : ((e.tlbinvBegun t kind asid vmid va).core c).tlb =
    (t.core c).tlb.filter fun y => !y.matches kind asid vmid va := by
  rw [← State.dropEntries_coreTlb t kind asid vmid va c]
  unfold Env.tlbinvBegun
  cases ({ e with s := t } : Env).exposing <;> rfl

theorem Env.tlbinvBegun_clusterTlb (c : Nat) : ((e.tlbinvBegun t kind asid vmid va).cluster c).tlb =
    (t.cluster c).tlb.filter fun y => !y.matches kind asid vmid va := by
  rw [← State.dropEntries_clusterTlb t kind asid vmid va c]
  unfold Env.tlbinvBegun
  cases ({ e with s := t } : Env).exposing <;> rfl

end

/-- An expose leaves its team exposed (R291). -/
theorem State.exposed_expose {s : State} {n : Nat} {x : Team} (h : (s.expose n).teams.find n = some x) : x.exposed = true := by
  replace h : (s.teams.change n fun (x : Team) => { x with exposed := true }).find n = some x := h
  rw [Tbl.find_change_same] at h
  obtain ⟨y, -, rfl⟩ := Option.map_eq_some_iff.mp h
  rfl

theorem fld_bit_eq_zero (x : Word) : fld x.toNat 21 1 = 0 ↔ x.getLsbD 21 = false := by
  rw [BitVec.getLsbD, Nat.testBit_eq_decide_div_mod_eq, decide_eq_false_iff_not]
  simp only [fld]
  omega

/-- Settles O41: each command under the operands that it takes, and the status or the request that it leaves. -/
theorem systemCommands : Obligations.SystemCommands := by
  intro s e d a b hs ha hlevel hd
  refine ⟨halt_stops hs hlevel, fun x hx => ⟨fun hnone => ?_, fun k st hk hst => ⟨fun hdlv => ?_, fun c cls hdlv hfetch => ?_⟩,
    fun h => ?_, fun h hoff => ?_, fun h hhalted hretired => ?_⟩, fun pa x hpa hx => ?_,
    fun va x st hva hx hmap hkind hst hlife hown hcompared => ?_, fun x y hlevel2 hx hy => ?_⟩
  · exact unpark_gives hs ha hlevel hd hx (State.unpark_nobody hnone)
  · rw [hdlv]
    exact unpark_gives hs ha hlevel hd hx (State.unpark_retries hk hst ((fld_bit_eq_zero x).mpr hdlv))
  · have hbit : fld x.toNat 21 1 ≠ 0 := by rw [Ne, fld_bit_eq_zero, hdlv]; exact Bool.noConfusion
    rw [hdlv] at hfetch ⊢
    have hgives := unpark_gives hs ha hlevel hd hx (State.unpark_delivers hk hst hbit hfetch)
    have hcode : fld st.faultCode.toNat 0 8 = st.faultCode.toNat % 256 := by simp [fld]
    refine ⟨fun halone => ?_, fun w hw hpartner htrail hshares => ?_⟩
    · rw [State.faultHanded_alone (t := s.unparked k st false) halone, hcode] at hgives
      exact hgives
    · rw [State.faultHanded_leading (t := s.unparked k st false) hw hpartner htrail hshares, hcode] at hgives
      exact hgives
  · exact (swapctx_answers hs ha hlevel hd hx).trans (congrArg Host.Outcome.next (if_pos h))
  · refine (swapctx_answers hs ha hlevel hd hx).trans (congrArg Host.Outcome.next ((if_neg (Nat.not_le.mpr h)).trans (if_pos ?_)))
    simpa using hoff
  · obtain ⟨u, hu, hasks, hswaps⟩ := swapctx_asks hs ha hlevel hd hx h hhalted hretired
    refine ⟨⟨u, hu, hasks⟩, fun v hv => ?_⟩
    obtain rfl := Host.Outcome.next.inj (hu.symm.trans hv)
    exact hswaps
  · have hsave := ctxsave_answers hs ha hlevel hd hpa hx
    have hload := ctxload_answers hs ha hlevel hd hpa hx
    have hgood := saveOperands_iff (pa := pa.toNat) x.isLt
    refine ⟨fun hbad => ?_, fun hok hactive => ?_, fun hok hactive => ?_⟩
    · have hfalse : saveOperands pa.toNat x.toNat = false := by rw [← Bool.not_eq_true, hgood]; exact hbad
      rw [if_pos hfalse] at hsave hload
      exact ⟨hsave, hload⟩
    · rw [if_neg (by rw [hgood.mpr hok]; exact Bool.noConfusion), if_pos hactive] at hsave hload
      exact ⟨hsave, hload⟩
    · rw [if_neg (by rw [hgood.mpr hok]; exact Bool.noConfusion), if_neg hactive] at hsave hload
      refine ⟨fun hempty => ?_, fun hheld => ⟨?_, ?_⟩, fun hoff => ?_, fun hempty hretired hhalted => ?_⟩
      · rw [if_pos hempty] at hsave
        exact hsave
      · rw [if_neg hheld] at hsave
        exact ⟨_, hsave, Env.asks_statusLater ha ..⟩
      · rw [if_pos (by simp [Option.isSome_iff_ne_none.mpr hheld])] at hload
        exact hload
      · rw [if_pos (by rcases hoff with h | h <;> simp [h])] at hload
        exact hload
      · rw [if_neg (by simp [hempty, hretired, hhalted])] at hload
        exact ⟨_, hload, Env.asks_statusLater ha ..⟩
  · intro c t out kind asid vmid hnone
    have hexec := tlbinv_begins hs ha hlevel hst hlife hown hcompared hva hx hmap hkind hnone
    have hasid : fld x.toNat 0 13 = asid := by simp [fld, asid]
    have hkinds : fld x.toNat 21 2 = kind := by simp only [fld, kind]; omega
    rw [hasid, hkinds] at hexec
    refine ⟨_, hexec, ?_, ?_, fun c => Env.tlbinvBegun_coreTlb .., fun c => Env.tlbinvBegun_clusterTlb .., fun hc y hy => ?_, Tbl.find_set_same ..⟩
    · rw [Env.tlbinvBegun_mem, Env.released_mem]
    · rw [Env.tlbinvBegun_pending, Env.released_pending]
      rfl
    · have hexposing : ({ e with s := e.released s } : Env).exposing = some e.wave.team := by
        have hcont : (e.released s).contained e.wave.team = true := by
          rw [Env.released_contained, ← env_s hs]
          exact hc
        exact if_pos hcont
      rw [Env.tlbinvBegun_teams, hexposing] at hy
      exact State.exposed_expose hy
  · intro lane core old state hscribe good
    classical
    have hlow : fld y.toNat 0 9 = core := by simp [fld, core]
    have hanswer := lmapw_answers (d := d) hd hs ha hlevel2 hx hy (hlow ▸ hscribe)
    rw [State.writeLaneMap_eq s x.isLt y.isLt] at hanswer
    refine ⟨fun hbad => ?_, fun hok hbusy => ?_, fun hok hidle => ?_⟩
    · rw [if_neg (show ¬s.laneMapWritable x.toNat y.toNat from hbad)] at hanswer
      exact hanswer
    · rw [if_pos (show s.laneMapWritable x.toNat y.toNat from hok), if_pos hbusy] at hanswer
      exact hanswer
    · rw [if_pos (show s.laneMapWritable x.toNat y.toNat from hok), if_neg (by rw [hidle]; exact Bool.noConfusion)] at hanswer
      exact hanswer

end Sys2Proof.Machine
end
section
/-!
PROOFS. A LAUNCH whose release commits a store to a watched line (R135, R178, R260, R290): the commit wakes a core whose strand
sleeps.
-/

namespace Sys2Proof.Machine

open Sys2Proof.Safety

/-- A handle of a record that lies wholly out of its extent 0, and clamps: 16-byte elements of global memory, BND set (R118). -/
def clampedRecord : HRec := .ofNat _ (4 * 2 ^ 5 + 2 ^ 17)

/-- The contained team of `launchingWave`, with one byte to store at 8192, whose home is die 1. -/
def bufferingTeam : Team := { Team.fresh 0 0 0 [0] 0 [] [] with contained := true, buffer := [(8192, 1)] }

/-- A wave of two lanes that holds the handle in h0. -/
def launchingWave : Wave := { Wave.fresh 2 2 0 0 0 8 with h := [(0, clampedRecord)] }

/-- A strand that sleeps. -/
def sleepingStrand : Strand := { Strand.fresh 4096 true 0 with life := .blocked .sleep }

/-- A watch of the line of that byte. -/
def watchOf8192 : Watch :=
  { id := 1, strand := 1, isLocal := false, team := 0, line := 32, issue := 0, va := 8192, offset := 0, size := 1, expected := 0,
    d := 0, scope := 0, pol := 0, written := false, next := 0 }

/-- Lane 0 of the team's wave 0 executes; lane 1 sleeps, and the line of the team's buffered store is watched on their core. -/
def launchingState : State :=
  { State.reset with
    strands := [(0, Strand.fresh 4096 true 0), (1, sleepingStrand)], waves := [(0, launchingWave)], teams := [(0, bufferingTeam)]
    watches := [watchOf8192] }

/-- The lane that executes there. -/
def launchingLane : Env :=
  { s := launchingState, key := 0, st := { Strand.fresh 4096 true 0 with pc := 4, life := .ready, handles := none, solo := false, wait := 0 },
    waveKey := 0, wave := launchingWave, bankKey := 0, bank := Bank.reset, here := 0, hints := {}, hs := none }

theorem launchingLane_env : launchingState.env = some launchingLane := rfl

/-- The life of a strand in the state that an outcome gives. -/
def lifeAfter (o : Out) (k : Nat) : Option Life :=
  match o with
  | .next u => (u.strands.find k).map Strand.life
  | _ => none

theorem launch_wakes : lifeAfter (exec (.launch 0 2 0) launchingState) 1 = some .ready := by decide

/-- Refutes O36: the clause of LAUNCH says that no strand but the launching one changes, and leaves out what the commit of its
release does. In `launchingState` the commit of a contained team writes a watched line, which wakes the core of the watch, and the
strand that sleeps there becomes Ready. -/
theorem not_launchResults : ¬ Obligations.LaunchResults := by
  rintro ⟨hlaunch, -⟩
  have hfirst : Has launchingLane 0 := show (0 : Nat) < 8 by decide
  have hwide : Has launchingLane 1 := show (1 : Nat) < 8 by decide
  have htwo : Has launchingLane 2 := show (2 : Nat) < 8 by decide
  obtain ⟨hgoes, -⟩ := hlaunch launchingState launchingLane 0 2 0 clampedRecord 0 (Strand.fresh 4096 true 0)
    (List.replicate 8 none) launchingLane_env rfl hfirst hwide ⟨htwo, rfl⟩ rfl (by decide) (by decide) rfl
  obtain ⟨hacts, -⟩ := (hgoes rfl rfl rfl rfl).1 (fun _ _ => Life.noConfusion) rfl fun _ => rfl
  obtain ⟨u, -, hexec, -, -, -, -, hstrands⟩ := hacts (by decide) rfl
  have hwakes := launch_wakes
  rw [hexec] at hwakes
  have hasleep : lifeAfter (.next u) 1 = some (.blocked .sleep) := by
    show (u.strands.find 1).map Strand.life = _
    rw [hstrands, Tbl.find_set_other _ _ (by decide)]
    rfl
  rw [hasleep] at hwakes
  cases hwakes

end Sys2Proof.Machine
end
section
/-!
PROOFS. Team barriers: arrivals, and the completion of a phase (R240, R277, R281, R311).
-/

namespace Sys2Proof.Machine

open Sys2Proof.Safety

/-! ### Arrivals -/

/-- A barrier once a strand has arrived at it. -/
def Barrier.joined (x : Barrier) (k : Nat) : Barrier := { x with arrived := x.arrived ++ [k] }

theorem State.arriveAt_eq {s : State} {team b k : Nat} {t : Team} (ht : s.teams.find team = some t) :
    s.arriveAt team b k =
      { s with teams := s.teams.set team { t with barriers := t.barriers.set b ((t.barrier b).joined k) } } := by
  simp only [State.arriveAt, State.modTeam, Tbl.change, ht, Barrier.joined]

section
variable {s : State} {e : Env} {n : BitVec 3} {a : BitVec 7} {t : Team} (hs : s.env = some e) (ha : Alone e)
  (ht : e.team = some t)
include hs ht

theorem mayArrive_ok (hown : s.ownOutstanding e.key = false) (hnew : e.key ∉ (t.barrier n.toNat).arrived)
    (hwa : ∀ o ∈ t.waOps, o.strand ≠ e.key) : e.mayArrive n.toNat = .ok (t.barrier n.toNat) := by
  have hmay : (!(t.barrier n.toNat).arrived.contains e.key && !(t.waOps.any (·.strand = e.key))) = true := by
    simpa [hnew] using hwa
  simp only [Env.mayArrive, env_s hs, hown, ht, hmay, require_true, Bool.not_false, bind, Except.bind, pure, Except.pure]

theorem team_find : s.teams.find e.wave.team = some t := by rw [← env_s hs]; exact ht

include ha

omit ht in
theorem tbar_arrives (hmay : e.mayArrive n.toNat = .ok (t.barrier n.toNat)) : exec (.tbar n) s =
    .next ((s.setStrand e.key { e.st.tick 1 with life := .blocked (.barrier n.toNat (t.barrier n.toNat).phase) }).arriveAt
      e.wave.team n.toNat e.key) := by
  rw [exec_tbar, execTbar]
  refine runLane_ok hs ?_
  simp only [hmay, Env.compared_of_alone ha, env_s hs, bind, Except.bind, pure, Except.pure]

omit ht in
theorem tbara_arrives (hmay : e.mayArrive n.toNat = .ok (t.barrier n.toNat)) (hd : Has e a.toNat) : exec (.tbara a n) s =
    .next ((e.retireRegion s (e.put e.st a.toNat [((t.barrier n.toNat).phase, false)])).arriveAt e.wave.team n.toNat
      e.key) := by
  have hregs : ∀ m ∈ [a.toNat], Has e m := by simpa using hd
  rw [exec_tbara, execTbara]
  refine runLane_ok hs ?_
  simp only [exist_ok hregs, hmay, Env.compared_of_alone ha, env_s hs, bind, Except.bind, pure, Except.pure]

theorem tbarw_waits {y : Word} (hy : Reads e a.toNat y) : exec (.tbarw a n) s =
    if (t.barrier n.toNat).phase = y then
      .next (s.setStrand e.key { e.st.tick 1 with life := .blocked (.barrier n.toNat (t.barrier n.toNat).phase) })
    else done e e.st := by
  have hexec : exec (.tbarw a n) s = .next (if (t.barrier n.toNat).phase ≠ y then e.retire s e.st else
      s.setStrand e.key { e.st.tick 1 with life := .blocked (.barrier n.toNat y) }) := by
    rw [exec_tbarw, execTbarw]
    refine runLane_ok hs ?_
    simp only [exist_one hy, use_ok hy, ht, Option.isSome_some, require_true, Option.map_some, Option.getD_some,
      Env.compared_of_alone ha, env_s hs, bind, Except.bind, pure, Except.pure]
  by_cases hphase : (t.barrier n.toNat).phase = y
  · rw [hexec, if_neg (not_not.mpr hphase), if_pos hphase, hphase]
  · rw [hexec, if_pos hphase, if_neg hphase, done, env_s hs]
    rfl

end

/-! ### The completion of a phase -/

/-- Every strand of a list Ready again. -/
def State.readied (s : State) (l : List Nat) : State :=
  l.foldl (fun s k => s.modStrand k fun st => { st with life := .ready, wait := 0 }) s

theorem State.readied_mem (s : State) (l : List Nat) : (s.readied l).mem = s.mem :=
  foldl_keeps State.mem (fun _ _ => State.modStrand_mem ..) l s

theorem State.readied_teams (s : State) (l : List Nat) : (s.readied l).teams = s.teams :=
  foldl_keeps State.teams (fun _ _ => State.modStrand_teams ..) l s

theorem State.find_readied {s : State} {l : List Nat} {k : Nat} {st : Strand} (hk : s.strands.find k = some st) :
    (s.readied l).strands.find k = some (if k ∈ l then { st with life := .ready, wait := 0 } else st) := by
  unfold State.readied
  induction l generalizing s st with
  | nil => exact hk
  | cons j l ih =>
    by_cases hj : k = j
    · subst hj
      have hready : (s.modStrand k fun st => { st with life := .ready, wait := 0 }).strands.find k
          = some { st with life := .ready, wait := 0 } := by rw [State.modStrand_strands, Tbl.find_change_same, hk]; rfl
      rw [List.foldl_cons, ih hready, if_pos List.mem_cons_self]
      split <;> rfl
    · have hother : (s.modStrand j fun st => { st with life := .ready, wait := 0 }).strands.find k = some st := by
        rw [State.modStrand_strands, Tbl.find_change_other _ _ hj, hk]
      rw [List.foldl_cons, ih hother]
      simp only [List.mem_cons, hj, false_or]

theorem State.wakes_mem (s : State) (l : List Nat) : (l.foldl State.wake s).mem = s.mem :=
  foldl_keeps State.mem (fun t c => t.wake_mem c) l s

theorem State.wakes_teams (s : State) (l : List Nat) : (l.foldl State.wake s).teams = s.teams :=
  foldl_keeps State.teams (fun t c => t.wake_teams c) l s

/-- The strands of a team that live (R277). -/
def State.liveStrands (s : State) (t : Team) : List Nat :=
  (s.strandsOf t.waves).filter fun k => match s.strands.find k with | some st => st.life ≠ .exited | none => false

theorem State.mem_liveStrands {s : State} {t : Team} {k : Nat} : k ∈ s.liveStrands t ↔
    ∃ st, t.waves.contains (strandWave k) = true ∧ s.strands.find k = some st ∧ st.life ≠ .exited := by
  unfold State.liveStrands State.strandsOf
  cases hk : s.strands.find k with
  | none => simp [hk]
  | some st =>
    have hlisted : k ∈ s.strands.map (·.1) := List.mem_map.mpr ⟨(k, st), Tbl.mem_of_find hk, rfl⟩
    simp only [List.mem_filter, hlisted, hk, true_and, Option.some.injEq, decide_eq_true_eq]
    exact ⟨fun h => ⟨st, h.1, rfl, h.2⟩, fun ⟨_, hwave, hst, hlife⟩ => ⟨hwave, hst ▸ hlife⟩⟩

/-- Whether a strand holds a phase back: it has not arrived, or stands in its handler (R277, R311). -/
def State.arrivedAt (s : State) (x : Barrier) (k : Nat) : Bool :=
  x.arrived.contains k && !((s.strands.find k).map fun (st : Strand) => st.handler.isSome).getD false

/-- The machine once a phase has completed. -/
def State.phaseCompleted (s : State) (team bar : Nat) (t : Team) : State :=
  (dedup (t.waves.map fun w => bankCore (waveBank w))).foldl State.wake
    ((s.setTeam team { t with barriers := t.barriers.set bar ⟨(t.barrier bar).phase + 1, []⟩ }).readied
      ((s.liveStrands t).filter fun k => match s.strands.find k with
        | some st => st.life = .blocked (.barrier bar (t.barrier bar).phase)
        | none => false))

section
variable {s : State} {team bar : Nat} {t : Team} (ht : s.teams.find team = some t)
include ht

theorem barrierPhaseComplete_eq : exec (.barrierPhaseComplete team bar) s =
    if (t.barrier bar).arrived.isEmpty || !((s.liveStrands t ++ s.awayStrands t).all (s.arrivedAt (t.barrier bar)))
    then .next s else .next (s.phaseCompleted team bar t) := by
  rw [exec_barrierPhaseComplete, execBarrierPhaseComplete]
  split
  · next hc =>
    refine eventStep_none ?_
    simp only [ht, bind, Option.bind]
    exact if_pos hc
  · next hc =>
    refine eventStep_some ?_
    simp only [ht, bind, Option.bind]
    exact if_neg hc

omit ht in
theorem State.phaseCompleted_teams : (s.phaseCompleted team bar t).teams =
    s.teams.set team { t with barriers := t.barriers.set bar ⟨(t.barrier bar).phase + 1, []⟩ } := by
  rw [State.phaseCompleted, State.wakes_teams, State.readied_teams]
  rfl

omit ht in
theorem State.phaseCompleted_mem : (s.phaseCompleted team bar t).mem = s.mem := by
  rw [State.phaseCompleted, State.wakes_mem, State.readied_mem]
  rfl

omit ht in
theorem State.phaseCompleted_strand {k : Nat} {st : Strand} (hwave : t.waves.contains (strandWave k) = true)
    (hk : s.strands.find k = some st) (hlife : st.life ≠ .exited) (hsleep : st.life ≠ .blocked .sleep) :
    (s.phaseCompleted team bar t).strands.find k = some
      (if st.life = .blocked (.barrier bar (t.barrier bar).phase) then { st with life := .ready, wait := 0 } else st) := by
  have hlive : k ∈ s.liveStrands t := State.mem_liveStrands.mpr ⟨st, hwave, hk, hlife⟩
  refine StrandIs.foldl (fun _ core => StrandIs.wake core ?_) ?_ _
  · split
    · simp
    · exact hsleep
  · refine (State.find_readied (s := s.setTeam team _) hk).trans ?_
    simp only [List.mem_filter, hlive, hk, true_and, decide_eq_true_eq]

theorem barrierPhaseComplete_completes (hsome : (t.barrier bar).arrived ≠ [])
    (hlive : ∀ k st, t.waves.contains (strandWave k) = true ∧ s.strands.find k = some st ∧ st.life ≠ .exited →
      k ∈ (t.barrier bar).arrived ∧ st.handler = none)
    (haway : ∀ k ∈ s.awayStrands t, k ∈ (t.barrier bar).arrived ∧ s.strands.find k = none) :
    exec (.barrierPhaseComplete team bar) s = .next (s.phaseCompleted team bar t) := by
  have hall : (s.liveStrands t ++ s.awayStrands t).all (s.arrivedAt (t.barrier bar)) = true := by
    refine List.all_eq_true.mpr fun k hk => ?_
    obtain hk | hk := List.mem_append.mp hk
    · obtain ⟨st, hst⟩ := State.mem_liveStrands.mp hk
      obtain ⟨harrived, hhandler⟩ := hlive k st hst
      simp [State.arrivedAt, harrived, hst.2.1, hhandler]
    · obtain ⟨harrived, hnone⟩ := haway k hk
      simp [State.arrivedAt, harrived, hnone]
  rw [barrierPhaseComplete_eq ht, if_neg (by simp [hall, hsome])]

theorem barrierPhaseComplete_held {k : Nat} (hk : k ∈ s.liveStrands t ∨ k ∈ s.awayStrands t)
    (hheld : s.arrivedAt (t.barrier bar) k = false) : exec (.barrierPhaseComplete team bar) s = .next s := by
  have hall : (s.liveStrands t ++ s.awayStrands t).all (s.arrivedAt (t.barrier bar)) = false :=
    List.all_eq_false.mpr ⟨k, List.mem_append.mpr hk, by simp [hheld]⟩
  rw [barrierPhaseComplete_eq ht, hall, Bool.not_false, Bool.or_true, if_pos rfl]

end

/-- Settles O35: the arrivals, and the completion of a phase by the strands that live. -/
theorem barrierResults : Obligations.BarrierResults := by
  refine ⟨fun s e n a t y hs ha ht => ⟨fun hown hnew hwa => ?_, fun hy => tbarw_waits hs ha ht hy⟩, fun s team bar t ht => ⟨?_, ?_, ?_⟩⟩
  · have hmay := mayArrive_ok hs ht hown hnew hwa
    have hfind := team_find hs ht
    exact ⟨(tbar_arrives hs ha hmay).trans (congrArg _ (State.arriveAt_eq hfind)),
      fun hd => (tbara_arrives hs ha hmay hd).trans (congrArg _ (State.arriveAt_eq hfind))⟩
  · exact fun hsome hlive haway => ⟨_, barrierPhaseComplete_completes ht hsome hlive haway, State.phaseCompleted_teams,
      State.phaseCompleted_mem, fun k st ⟨hwave, hk, hlife⟩ hsleep => State.phaseCompleted_strand hwave hk hlife hsleep⟩
  · intro k st hlive hheld
    refine barrierPhaseComplete_held ht (.inl (State.mem_liveStrands.mpr ⟨st, hlive⟩)) ?_
    obtain h | h := hheld
    · simp [State.arrivedAt, h]
    · simp [State.arrivedAt, hlive.2.1, Option.isSome_iff_ne_none.mpr h]
  · exact fun k hk hheld => barrierPhaseComplete_held ht (.inr hk) (by simp [State.arrivedAt, hheld])

end Sys2Proof.Machine
end
section
/-!
PROOFS. RGROW, RSHRINK, COMMIT, and the events of the register allocator (R175, R176, R289, R290).
-/

namespace Sys2Proof.Machine

open Sys2Proof.Safety

/-! ### The instructions -/

section
variable {s : State} {e : Env} {d n : BitVec 7} (hs : s.env = some e) (ha : Alone e)
include hs ha

section
variable (hd : Has e d.toNat)
include hd

theorem rgrow_fits (hsize : 8 * n.toNat ≤ e.wave.alloc) :
    exec (.rgrow d n) s = .next (e.retire s (e.put e.st d.toNat [(0, false)])) := by
  have hregs : ∀ m ∈ [d.toNat], Has e m := by simpa using hd
  rw [exec_rgrow, execRgrow]
  refine runLane_ok hs ?_
  simp only [exist_ok hregs, Env.once_of_alone ha, hsize, Env.give_of_alone ha, env_s hs, bind, Except.bind, if_true, pure,
    Except.pure]

theorem rgrow_requests (hsize : e.wave.alloc < 8 * n.toNat) : exec (.rgrow d n) s =
    .next (e.requestGrow (8 * n.toNat)
      { lane := e.lane, dst := some d.toNat, link := 0, ret := e.here + 4, target := 0, pc := e.bundle }) := by
  have hregs : ∀ m ∈ [d.toNat], Has e m := by simpa using hd
  rw [exec_rgrow, execRgrow]
  refine runLane_ok hs ?_
  simp only [exist_ok hregs, Env.once_of_alone ha, hsize.not_ge, bind, Except.bind, if_false, pure, Except.pure]

end

theorem rshrink_eq (hgrow : e.wave.grow = none) : exec (.rshrink n) s =
    .next (if e.wave.alloc ≤ 8 * n.toNat then e.retire s e.st
      else (e.retire s e.st).shrinkWave e.waveKey (8 * n.toNat)) := by
  have hp : e.wave.partner = none := ha
  rw [exec_rshrink, execRshrink]
  refine runLane_ok hs ?_
  simp only [Env.once_of_alone ha, hgrow, Option.isSome_none, Bool.false_eq_true, if_false, Env.told_of_alone ha, hp, env_s hs]
  split <;> rfl

theorem commit_loose (hcontained : e.isContained = false) : exec .commit s = done e e.st := by
  rw [exec_commit, execCommit, done, env_s hs]
  refine runLane_ok hs ?_
  simp only [Env.once_of_alone ha, hcontained, Bool.false_eq_true, if_false, Env.told_of_alone ha, env_s hs]
  rfl

theorem commit_commits (hcontained : e.isContained = true) (hstores : s.storesOf e.key = [])
    (hbuffer : ∀ a ∈ s.atomics, a.strand = e.key → a.inBuffer = false) (hcompared : s.allCompared e.wave.team = true) :
    exec .commit s = .next (e.retire (s.commit e.wave.team) e.st) := by
  have hnone : (s.atomics.any fun a => a.strand = e.key && a.inBuffer) = false := by
    rw [List.any_eq_false]
    exact fun a hmem => by simpa using hbuffer a hmem
  rw [exec_commit, execCommit]
  refine runLane_ok hs ?_
  have hpoint : e.commitPoint s = .ok (s.commit e.wave.team) := by
    rw [Env.commitPoint, hnone, hstores, if_neg (by simp), if_pos hcontained, if_pos hcompared]
  simp only [Env.once_of_alone ha, hcontained, if_true, env_s hs, hpoint, Except.map, Env.told_of_alone ha]

end

/-- A commit leaves its team no buffered store. -/
theorem State.commit_buffer {s : State} {t : Nat} {team : Team} (h : (s.commit t).teams.find t = some team) : team.buffer = [] := by
  unfold State.commit at h
  split at h
  · next hnone => rw [hnone] at h; cases h
  · next x hx =>
    split at h
    · next hempty =>
      rw [hx] at h
      cases h
      exact List.isEmpty_iff.mp hempty
    · rw [State.of_beneath (State.sendStore_beneath ..) State.teams fun _ => rfl] at h
      have hset := (Tbl.find_set_same s.teams t { x with buffer := [], exposed := true }).symm.trans h
      cases hset
      rfl

/-! ### The registers that RSHRINK takes -/

theorem Strand.shrink_regs (st : Strand) {n m : Nat} (h : n ≤ m) : (st.shrink n).regs.find m = none :=
  Tbl.find_eq_none fun p hp => by
    have hlow : p.1 < n := by simpa using (List.mem_filter.mp hp).2
    omega

theorem Strand.shrink_window (st : Strand) {n m : Nat} {w : Went} (hw : w ∈ (st.shrink n).window) (hm : w.dst = .v m) : m < n := by
  have hkept := (List.mem_filter.mp hw).2
  rw [hm] at hkept
  exact of_decide_eq_true hkept

theorem State.shrinkWave_strand {s : State} {w n k : Nat} {st : Strand} (hk : strandWave k = w)
    (h : (s.shrinkWave w n).strands.find k = some st) : ∃ x : Strand, st = x.shrink n := by
  have hfind : (s.shrinkWave w n).strands.find k = (s.strands.find k).map fun x =>
      if strandWave k = w then x.shrink n else x :=
    Tbl.find_mapVal s.strands (fun k x => if strandWave k = w then x.shrink n else x) k
  rw [hfind] at h
  obtain ⟨x, -, rfl⟩ := Option.map_eq_some_iff.mp h
  exact ⟨x, if_pos hk⟩

theorem State.shrinkWave_wave {s : State} {w n : Nat} {x : Wave} (h : s.waves.find w = some x) :
    (s.shrinkWave w n).waves.find w = some { x with alloc := n } := by
  have hfind : (s.shrinkWave w n).waves.find w = (s.waves.find w).map fun x => { x with alloc := n } := Tbl.find_change_same ..
  rw [hfind, h]
  rfl

/-! ### The allocator -/

theorem growGrant_grants {s : State} {bank w : Nat} {rest : List Nat} {wave : Wave} {g : Grow}
    (hgrows : (s.bank bank).grows = w :: rest) (hw : s.waves.find w = some wave) (hg : wave.grow = some g)
    (hfree : wave.growBytes g.size ≤ s.poolFree bank) : exec (.growGrant bank) s = .next (s.finishGrow w true) := by
  rw [exec_growGrant, execGrowGrant]
  refine eventStep_some ?_
  simp only [hgrows, List.head?_cons, hw, hg, hfree, if_true, bind, Option.bind]

theorem growFail_fails {s : State} {bank w : Nat} {front : List Nat} (hgrows : (s.bank bank).grows = front ++ [w])
    (hactive : bank < 1024 → s.activeBank (bankCore bank) = bank) (hbusy : s.bankBusy bank = false)
    (hable : ∀ p ∈ s.bankStrands bank, s.able p.1 p.2 = false) : exec (.growFail bank) s = .next (s.finishGrow w false) := by
  have hnone : ((s.bankStrands bank).any fun p => s.able p.1 p.2) = false :=
    List.any_eq_false.mpr fun p hp => by simp [hable p hp]
  have hhere : (decide (bank < 1024) && decide (s.activeBank (bankCore bank) ≠ bank)) = false := by
    by_cases h : bank < 1024
    · simp [hactive h]
    · simp [h]
  rw [exec_growFail, execGrowFail]
  refine eventStep_some ?_
  simp only [hgrows, List.getLast?_concat, hhere, hbusy, hnone, Bool.or_self, Bool.false_eq_true, if_false, bind, Option.bind]

/-! ### What a completed request gives its lane -/

/-- A strand of a wave whose request was granted: the registers that are new hold nothing. -/
def Strand.widened (st : Strand) (old new : Nat) : Strand :=
  { st with
    regs := st.regs.filter fun r => r.1 < old ∨ new ≤ r.1
    window := st.window.filter fun (x : Went) => match x.dst with | .v n => n < old | .p _ => true }

/-- The machine once a request has left its bank, before its lanes are told. -/
def State.growClosed (s : State) (w : Nat) (wave : Wave) (size : Nat) (ok : Bool) : State :=
  let s := if ok then
      { s with strands := s.strands.mapVal fun k st => if strandWave k = w then st.widened wave.alloc size else st }
    else s
  ((s.setWave w { wave with grow := none, alloc := size }).modBank (waveBank w) fun b =>
    { b with grows := b.grows.filter (· ≠ w) }).wake (bankCore (waveBank w))

theorem State.finishGrow_eq {s : State} {w : Nat} {wave : Wave} {g : Grow} (ok : Bool) (hw : s.waves.find w = some wave)
    (hg : wave.grow = some g) (hp : wave.partner = none) : s.finishGrow w ok =
      g.lanes.foldl (fun s l => s.growLane w wave g.issue ok l)
        (s.growClosed w wave (if ok then Nat.max wave.alloc g.size else wave.alloc) ok) := by
  cases wave
  simp only at hg hp
  subst hg hp
  unfold State.finishGrow
  simp only [hw]
  cases ok <;> rfl

section
variable {s : State} {w size : Nat} {wave : Wave} {ok : Bool}

theorem State.wake_waves (t : State) (c : Nat) : (t.wake c).waves = t.waves := by
  have h := congrArg State.waves (t.wake_rest c); exact h

theorem State.growClosed_strand {k : Nat} {st : Strand} (hk : s.strands.find k = some st) (hsleep : st.life ≠ .blocked .sleep) :
    ∃ x : Strand, (s.growClosed w wave size ok).strands.find k = some x ∧ x.fstat = st.fstat := by
  cases ok with
  | false => exact ⟨st, StrandIs.wake _ hsleep hk, rfl⟩
  | true =>
    have hwide (p : Prop) [Decidable p] : (if p then st.widened wave.alloc size else st).fstat = st.fstat ∧
        (if p then st.widened wave.alloc size else st).life = st.life := by split <;> exact ⟨rfl, rfl⟩
    obtain ⟨hfstat, hlife⟩ := hwide (strandWave k = w)
    refine ⟨_, StrandIs.wake _ (hlife ▸ hsleep) ?_, hfstat⟩
    have hfind : (s.strands.mapVal fun k st => if strandWave k = w then st.widened wave.alloc size else st).find k = _ :=
      Tbl.find_mapVal ..
    exact hfind.trans (by rw [hk]; rfl)

theorem State.growClosed_wave : (s.growClosed w wave size ok).waves.find w = some { wave with grow := none, alloc := size } := by
  rw [State.growClosed, State.wake_waves]
  exact Tbl.find_set_same ..

theorem State.growClosed_produced (hw : s.waves.find w = some wave) (k : Nat) (l : List Word) :
    (s.growClosed w wave size ok).produced k l = s.produced k l := by
  have hwaves : (s.growClosed w wave size ok).waves = (s.modWave w fun x => { x with grow := none, alloc := size }).waves := by
    refine (State.wake_waves _ _).trans ?_
    simp only [State.modWave, Tbl.change, hw]
    cases ok <;> rfl
  have hunits : (s.growClosed w wave size ok).units = (s.modWave w fun x => { x with grow := none, alloc := size }).units := by
    refine (State.wake_units _ _).trans ?_
    cases ok <;> rfl
  rw [State.produced_congr hwaves hunits, produced_modWave _ _ _ _ (fun x => { x with grow := none, alloc := size }) fun _ => ⟨rfl, rfl⟩]

end

/-- The newest entry of a register stands in it after a count where its latency is 0. -/
theorem Strand.reg_tick_newest {st : Strand} {e : Went} {w : List Went} {n : Nat} (hwindow : st.window = e :: w)
    (hdst : e.dst = .v n) (htag : e.tag = none) (hlat : e.lat = 0) (hfull : e.transient = false) :
    ((st.tick 1).reg n).val = e.val := by
  have hvisible : (e.aged 1).visible = true := by simp [Went.visible, Went.aged, htag, hlat]
  have hcommitted : committedOf false (st.agedEntries 1 (.v n)) = some (e.aged 1) := by
    have hfull' : (e.aged 1).transient = false := hfull
    rw [Strand.agedEntries, hwindow, entriesOf_cons_of_eq w hdst, List.map_cons, committedOf, hfull', hvisible]
    rfl
  rw [Strand.reg_tick, hcommitted]
  rfl

/-- What RGROW writes (R289). -/
def growStatus (ok : Bool) : Word := if ok then 0 else 1

/-- A lane's strand once its request has completed and its status has joined the window. -/
def Strand.regrown (st : Strand) (ok : Bool) (d : Nat) (x : Word) (ret : VAddr) : Strand :=
  let st := { st with life := .ready, wait := 0 }
  { (if ok then st else st.raiseG).push
      { dst := .v d, val := x, poison := false, lat := 0, age := 0, transient := false, tag := none } with pc := ret }

theorem Strand.regrown_rest (st : Strand) (ok : Bool) (d : Nat) (x : Word) (ret : VAddr) : (st.regrown ok d x ret).rest =
    { st.rest with life := .ready, wait := 0, pc := ret, fstat := if ok then st.fstat else st.fstat ||| 0x40 } := by
  cases ok with
  | true => exact congrArg (fun y : Strand => { y with pc := ret }) (Strand.rest_push ..)
  | false => exact congrArg (fun y : Strand => { y with pc := ret }) (Strand.rest_push ..)

/-- What a lane of a completed request is given. -/
theorem State.growLane_register {u : State} {w issue d : Nat} {wave : Wave} {ok : Bool} {l : GrowLane} {st : Strand}
    (hk : u.strands.find (strandNo w l.lane) = some st) (hd : l.dst = some d) (hp : wave.partner = none) :
    ∃ t, (u.growLane w wave issue ok l).strands.find (strandNo w l.lane) = some t ∧ t.life = .ready ∧ t.pc = l.ret ∧
      (t.reg d).val = (u.produced (strandNo w l.lane) [growStatus ok]).headD (growStatus ok) ∧
      t.fstat = (if ok then st.fstat else st.fstat ||| 0x40) := by
  let x := (u.produced (strandNo w l.lane) [growStatus ok]).headD (growStatus ok)
  have hgives : u.growLane w wave issue ok l = u.setStrand (strandNo w l.lane) ((st.regrown ok d x l.ret).tick 1) := by
    simp only [State.growLane, hk, hd, hp]
    rfl
  have hrest := (Strand.rest_tick _ 1).trans (st.regrown_rest ok d x l.ret)
  refine ⟨_, by rw [hgives]; exact Tbl.find_set_same .., ?_, ?_, ?_, ?_⟩
  · have h := congrArg Strand.life hrest; exact h
  · have h := congrArg Strand.pc hrest; exact h
  · exact Strand.reg_tick_newest
      (e := { dst := .v d, val := x, poison := false, lat := 0, age := 0, transient := false, tag := none })
      (Strand.push_window ..) rfl rfl rfl rfl
  · have h := congrArg Strand.fstat hrest; exact h

theorem State.growLane_waves {u : State} {w issue d : Nat} {wave : Wave} {ok : Bool} {l : GrowLane}
    (hd : l.dst = some d) : (u.growLane w wave issue ok l).waves = u.waves := by
  unfold State.growLane
  simp only [hd]
  split <;> rfl

/-- A grant or a failure of a request of one lane. -/
theorem State.finishGrow_register {s : State} {w d : Nat} {wave : Wave} {g : Grow} {l : GrowLane} {st : Strand} (ok : Bool)
    (hw : s.waves.find w = some wave) (hg : wave.grow = some g) (hlanes : g.lanes = [l]) (hd : l.dst = some d)
    (hp : wave.partner = none) (hst : s.strands.find (strandNo w l.lane) = some st) (hsleep : st.life ≠ .blocked .sleep)
    (hsize : wave.alloc ≤ g.size) :
    ∃ t, (s.finishGrow w ok).strands.find (strandNo w l.lane) = some t ∧ t.life = .ready ∧ t.pc = l.ret ∧
      (s.finishGrow w ok).waves.find w = some { wave with grow := none, alloc := if ok then g.size else wave.alloc } ∧
      s.produced (strandNo w l.lane) [growStatus ok] = [(t.reg d).val] ∧ (ok = false → t.fstat = st.fstat ||| 0x40) := by
  have hmax : (if ok then Nat.max wave.alloc g.size else wave.alloc) = if ok then g.size else wave.alloc := by
    rw [show Nat.max wave.alloc g.size = g.size from Nat.max_eq_right hsize]
  have hlen : (s.produced (strandNo w l.lane) [growStatus ok]).length = 1 := State.produced_length ..
  obtain ⟨x, hx⟩ := List.length_eq_one_iff.mp hlen
  obtain ⟨y, hy, hfstat⟩ := State.growClosed_strand (w := w) (size := if ok then g.size else wave.alloc) (wave := wave) (ok := ok)
    hst hsleep
  obtain ⟨t, ht, hlife, hpc, hval, hraised⟩ := State.growLane_register (issue := g.issue) (ok := ok) hy hd hp
  rw [State.finishGrow_eq ok hw hg hp, hlanes, List.foldl_cons, List.foldl_nil, hmax]
  refine ⟨t, ht, hlife, hpc, ?_, ?_, fun hok => ?_⟩
  · rw [State.growLane_waves hd]
    exact State.growClosed_wave
  · rw [hval, State.growClosed_produced hw, hx]
    rfl
  · rw [hraised, hok, hfstat]
    rfl

/-- Settles O38: each instruction as it acts, and the events of the allocator with what they give. -/
theorem growResults : Obligations.GrowResults := by
  refine ⟨fun s e d n hs ha => ?_, fun s bank w rest wave g => growGrant_grants, fun s bank w front => growFail_fails,
    fun s w wave g l st d ok hw hg hlanes hd hp _ hst hsleep _ hsize =>
      State.finishGrow_register ok hw hg hlanes hd hp hst hsleep hsize⟩
  refine ⟨fun hd => rgrow_fits hs ha hd, fun hd hsize hgrow => ?_, fun hgrow hsize => ?_, fun hgrow hsize => ?_,
    commit_loose hs ha, fun hcontained hstores hbuffer hcompared => ?_⟩
  · rw [rgrow_requests hs ha hd hsize, Env.requestGrow, hgrow, env_s hs]
    rfl
  · rw [rshrink_eq hs ha hgrow, if_pos hsize, done, env_s hs]
    rfl
  · rw [rshrink_eq hs ha hgrow, if_neg hsize.not_ge]
    refine ⟨_, rfl, rfl, State.shrinkWave_wave (s := e.retire s e.st) (env_wave (s := s) hs :), fun k st hk hst => ?_⟩
    obtain ⟨x, rfl⟩ := State.shrinkWave_strand hk hst
    exact ⟨fun m hm => x.shrink_regs hm, fun y hy m hm => x.shrink_window hy hm⟩
  · exact ⟨_, commit_commits hs ha hcontained hstores hbuffer hcompared, s.commit_mem _, fun t ht => State.commit_buffer ht,
      Tbl.find_set_same ..⟩

end Sys2Proof.Machine
end
section
/-!
PROOFS. Updates between dies, the eviction of a replica, and the migration of a line (R315, R353, R354).
-/

namespace Sys2Proof.Machine

open Sys2Proof.Safety

/-! ### What wakes and acquires leave alone -/

section
variable (s : State)

theorem State.wake_updates (core : Nat) : (s.wake core).updates = s.updates := by
  have h := congrArg State.updates (s.wake_rest core); exact h

theorem State.wakeLine_updates (pa : Nat) : (s.wakeLine pa).updates = s.updates :=
  foldl_keeps State.updates (fun t c => t.wake_updates c) _ { s with watches := s.watches.map _ }

theorem State.wakeLine_dies (pa : Nat) : (s.wakeLine pa).dies = s.dies :=
  foldl_keeps State.dies (fun t c => t.wake_dies c) _ { s with watches := s.watches.map _ }

/-- The dies and the updates on their way to them. -/
def State.traffic (s : State) : Tbl Die × List Update := (s.dies, s.updates)

theorem State.dropClean_traffic (cores : List Nat) : (s.dropClean cores).traffic = s.traffic :=
  foldl_keeps State.traffic (fun _ _ => by rfl) cores s

theorem State.settled_traffic : s.settled.traffic = s.traffic :=
  foldl_keeps State.traffic (fun t p => by
    split
    · split
      · rfl
      · exact t.dropClean_traffic _
    · rfl) _ s

theorem State.settled_dies : s.settled.dies = s.dies := congrArg Prod.fst s.settled_traffic

theorem State.settled_updates : s.settled.updates = s.updates := congrArg Prod.snd s.settled_traffic

end

/-! ### Updates -/

/-- The line of an update. -/
def Update.line (u : Update) : Nat := match u.bytes with | (pa, _) :: _ => lineOf pa | [] => 0

/-- The die behind an update: its clock counts the write of another die, and its replica of the line has the bytes. -/
def Die.updated (d : Die) (own : Bool) (u : Update) : Die :=
  { d with
    clock := if own then d.clock else clockSet d.clock u.writer (clockAt u.stamp u.writer)
    replicas := if u.withData then d.replicas.map fun r => if r.line = u.line then r.overlay u.bytes else r else d.replicas }

/-- The machine with an update taken, before the watches of its line see it. -/
def State.updateTaken (s : State) (die : Nat) (u : Update) : State :=
  ({ s with updates := s.updates.erase u } : State).modDie die fun d => d.updated (u.writer = die) u

/-- The same once they have. -/
def State.updateSeen (s : State) (die : Nat) (u : Update) : State :=
  match u.bytes with | (pa, _) :: _ => (s.updateTaken die u).wakeLine pa | [] => s.updateTaken die u

section
variable (s : State) (die : Nat) (u : Update)

theorem State.updateSeen_mem : (s.updateSeen die u).mem = s.mem := by
  unfold State.updateSeen
  split
  · exact State.wakeLine_mem ..
  · rfl

theorem State.updateSeen_updates : (s.updateSeen die u).updates = s.updates.erase u := by
  unfold State.updateSeen
  split
  · exact State.wakeLine_updates ..
  · rfl

theorem State.updateSeen_die : (s.updateSeen die u).die die = (s.die die).updated (u.writer = die) u := by
  have hdies : (s.updateSeen die u).dies = (s.updateTaken die u).dies := by
    unfold State.updateSeen
    split
    · exact State.wakeLine_dies ..
    · rfl
  rw [State.die, hdies]
  exact State.die_modDie_same ..

end

section
variable {s : State} {home die : Nat} {u : Update}
  (hu : s.updates.find? (fun u => u.home = home && u.die = die) = some u)
include hu

theorem crossDieApply_applies (h : u.writer = die ∨ applicable (s.die die).clock u.stamp u.writer = true) :
    exec (.crossDieApply home die) s = .next (s.updateSeen die u).settled := by
  rw [exec_crossDieApply, execCrossDieApply]
  refine eventStep_some ?_
  have happlies : s.applyUpdate home die = some (s.updateSeen die u) := by
    unfold State.applyUpdate
    simp only [hu]
    rw [if_pos h]
    simp only [State.updateSeen, State.updateTaken, Die.updated, Update.line, decide_eq_true_eq] <;> rfl
  rw [happlies]
  rfl

theorem crossDieApply_waits (hother : u.writer ≠ die) (h : applicable (s.die die).clock u.stamp u.writer = false) :
    exec (.crossDieApply home die) s = .next s := by
  rw [exec_crossDieApply, execCrossDieApply]
  refine eventStep_none ?_
  simp only [State.applyUpdate, hu, hother, h, Bool.false_eq_true, or_self, if_false, Option.map_none]

end

/-! ### Replicas -/

theorem replicaEvict_evicts {s : State} {die line : Nat} (h : (s.die die).replica line ≠ none) :
    exec (.replicaEvict die line) s =
      .next (s.modDie die fun d => { d with replicas := d.replicas.filter (·.line ≠ line) }) := by
  obtain ⟨r, hr⟩ := Option.ne_none_iff_exists'.mp h
  rw [exec_replicaEvict, execReplicaEvict]
  refine eventStep_some ?_
  simp only [hr, bind, Option.bind]

theorem Die.replica_evicted (d : Die) (line : Nat) :
    ({ d with replicas := d.replicas.filter (·.line ≠ line) } : Die).replica line = none :=
  List.find?_eq_none.mpr fun r hr => by simpa using (List.mem_filter.mp hr).2

/-! ### A line's slice -/

/-- The forwarding entries of a die without a line's own, and without the oldest of its home slice where the table is full (R315). -/
def Die.forwards (d : Die) (line : Nat) : List Moved :=
  let rest := d.moved.filter (·.line ≠ line)
  let same := rest.filter fun m => homeSlice (m.line * 256) = homeSlice (line * 256)
  if same.length < Config.forwardEntries then rest
  else match same.head? with | some m => rest.filter (·.line ≠ m.line) | none => rest

theorem Die.line_of_mem_forwards {d : Die} {line : Nat} {m : Moved} (h : m ∈ d.forwards line) : m.line ≠ line := by
  have hrest : m ∈ d.moved.filter (·.line ≠ line) := by
    unfold Die.forwards at h
    dsimp only at h
    split at h
    · exact h
    · split at h
      · exact (List.mem_filter.mp h).1
      · exact h
  simpa using (List.mem_filter.mp hrest).2

/-- A die with a line at a slice. -/
def Die.migrated (d : Die) (line slice : Nat) : Die :=
  { d with moved := if slice = homeSlice (line * 256) then d.forwards line else d.forwards line ++ [⟨line, slice⟩] }

theorem Die.currentSlice_migrated (d : Die) (line slice : Nat) : (d.migrated line slice).currentSlice line = slice := by
  have hnone : (d.forwards line).find? (·.line = line) = none :=
    List.find?_eq_none.mpr fun m hm => by simpa using Die.line_of_mem_forwards hm
  unfold Die.currentSlice Die.migrated
  by_cases h : slice = homeSlice (line * 256)
  · simp only [h, if_true, hnone]
  · simp only [h, if_false, List.find?_append, hnone, Option.none_or, List.find?_cons, decide_true]

theorem lineMigrate_moves {s : State} {line cluster h : Nat} (hhome : homeDie (line * 256) = some h)
    (hdie : clusterDie cluster = h) (hslice : (s.die h).currentSlice line / 2 ≠ cluster % 16)
    (hmost : 12 ≤ (((s.die h).requests.get line []).filter (· = cluster)).length) :
    exec (.lineMigrate line cluster) s =
      .next (s.setDie h ((s.die h).migrated line (2 * (cluster % 16) + homeSlice (line * 256) % 2))) := by
  rw [exec_lineMigrate, execLineMigrate]
  refine eventStep_some ?_
  simp only [hhome, hdie, hslice, hmost, guard, bind, Option.bind, ne_eq, not_false_eq_true, decide_true, if_true, pure]
  rfl

/-- Settles O44: each event as a change of its die, and what the change leaves. -/
theorem dieEvents : Obligations.DieEvents := by
  refine ⟨fun s home die u hu => ⟨fun h => ?_, fun hother h => crossDieApply_waits hu hother h⟩, fun s die line h => ?_,
    fun s line cluster h hhome hdie hslice hmost => ?_⟩
  · have hdie : (s.updateSeen die u).settled.die die = (s.die die).updated (u.writer = die) u := by
      rw [State.die, State.settled_dies]
      exact s.updateSeen_die die u
    refine ⟨_, crossDieApply_applies hu h, ?_, ?_, ?_, ?_⟩
    · rw [State.settled_mem, State.updateSeen_mem]
    · rw [State.settled_updates, State.updateSeen_updates]
    · rw [hdie]
      simp only [Die.updated, decide_eq_true_eq]
    · rw [hdie]
      rfl
  · refine ⟨_, replicaEvict_evicts h, rfl, ?_⟩
    rw [State.die_modDie_same]
    exact Die.replica_evicted ..
  · refine ⟨_, lineMigrate_moves hhome hdie hslice hmost, rfl, ?_⟩
    rw [show (s.setDie h _).die h = _ from Tbl.get_set_same ..]
    exact Die.currentSlice_migrated ..

end Sys2Proof.Machine
end
section
/-!
PROOFS. HBM status, power states, idle dies, the thermal stop and the device reset (R364, R367, R368, R369).
-/

namespace Sys2Proof.Machine

open Sys2Proof.Safety

/-! ### HBM status -/

/-- The bits of UE and MSCCE. -/
theorem highWord_getLsbD {j : Nat} (h : j < 64) : (0xFFFFFFFF00000000 : Dword).getLsbD j = decide (32 ≤ j) := by
  have hall : ∀ i : Fin 64, (0xFFFFFFFF00000000 : Dword).getLsbD i.val = decide (32 ≤ i.val) := by decide
  exact hall ⟨j, h⟩

theorem highWord_and (x : Dword) : x &&& (0xFFFFFFFF00000000 : Dword) = (x >>> 32) <<< 32 := by
  refine BitVec.eq_of_getLsbD_eq fun j hj => ?_
  rw [BitVec.getLsbD_and, highWord_getLsbD hj, BitVec.getLsbD_shiftLeft, BitVec.getLsbD_ushiftRight]
  by_cases h : j < 32
  · simp [h, Nat.not_le.mpr h]
  · rw [Nat.not_lt] at h
    simp [hj, h, Nat.not_lt.mpr h, Nat.add_sub_cancel' h]

/-- A doubleword with its low half replaced. -/
theorem toNat_lowWord (x : Dword) {n : Nat} (h : n < 2 ^ 32) :
    ((x &&& (0xFFFFFFFF00000000 : Dword)) ||| .ofNat 64 n).toNat = x.toNat / 2 ^ 32 * 2 ^ 32 + n := by
  have hx : x.toNat / 2 ^ 32 < 2 ^ 32 := by have := x.isLt; omega
  have hlow : n % 2 ^ 64 = n := Nat.mod_eq_of_lt (by omega)
  have hhigh : x.toNat / 2 ^ 32 * 2 ^ 32 % 2 ^ 64 = x.toNat / 2 ^ 32 * 2 ^ 32 := Nat.mod_eq_of_lt (by omega)
  rw [highWord_and, BitVec.toNat_or, BitVec.toNat_shiftLeft, BitVec.toNat_ushiftRight, BitVec.toNat_ofNat, hlow,
    Nat.shiftRight_eq_div_pow, Nat.shiftLeft_eq, hhigh, ← Nat.shiftLeft_eq, Nat.shiftLeft_add_eq_or_of_lt h]

theorem hbmstatClear_clears {s : State} {stack : Nat} {ones : Dword} (h : s.device.hbmClear.find stack = some ones) :
    exec (.hbmstatClear stack) s = .next (s.setDevice { s.device with
      hbmStat := s.device.hbmStat.set stack (s.device.hbmStat.get stack 0 &&& ~~~(ones &&& 0xFFFFFFFF00000000))
      hbmClear := s.device.hbmClear.drop stack }) := by
  rw [exec_hbmstatClear, execHbmstatClear]
  exact eventStep_some (by simp only [h, bind, Option.bind])

theorem scrubPassEnd_counts {s : State} {stack : Nat} (ecs rowmax : Nat) (h : stack < 8) :
    exec (.scrubPassEnd stack ecs rowmax) s = .next (s.setDevice { s.device with
      hbmStat := s.device.hbmStat.set stack
        ((s.device.hbmStat.get stack 0 &&& 0xFFFFFFFF00000000) ||| .ofNat 64 (min ecs 65535 * 65536 + min rowmax 65535)) }) := by
  rw [exec_scrubPassEnd, execScrubPassEnd]
  exact eventStep_some (by simp only [h, guard, bind, Option.bind, decide_true, if_true, pure])

/-! ### Power states and idle dies -/

/-- A guard that holds is passed. -/
theorem guard_bind {α : Type} {c : Prop} [Decidable c] (h : c) (f : Unit → Option α) : (guard c >>= f) = f () := by
  rw [guard, if_pos h]
  rfl

section
variable {s : State} (haccepts : s.device.boot ≠ .recovery)
include haccepts

theorem State.accepts_of : s.accepts = true := by simpa [State.accepts] using haccepts

theorem powerState_sets {p : Nat} (h : p < 8) :
    exec (.powerState p) s = .next { s with device := { s.device with power := p } } := by
  rw [exec_powerState, execPowerState]
  exact eventStep_some (by simp [State.accepts_of haccepts, h, State.setDevice])

theorem dieIdle_idles {die : Nat} (hdie : die < 4) (hteams : ∀ c < 128, s.coreHolds (128 * die + c) = false)
    (hpins : ∀ p ∈ s.grids, p.2.retired = true ∨ ∀ c, p.2.launch.pin = some c → coreDie c ≠ die) :
    exec (.dieIdle die) s = .next (s.modDie die fun d => { d with idle := true }) := by
  have hcores : ((List.range 128).all fun c => !s.coreHolds (128 * die + c)) = true :=
    List.all_eq_true.mpr fun c hc => by simp [hteams c (List.mem_range.mp hc)]
  rw [exec_dieIdle, execDieIdle]
  refine eventStep_some ?_
  rw [guard_bind (by simp [State.accepts_of haccepts, Config.dies, hdie]), guard_bind hcores, guard_bind]
  refine List.all_eq_true.mpr fun p hp => ?_
  obtain h | h := hpins p hp
  · simp [h]
  · cases hpin : p.2.launch.pin with
    | none => simp
    | some c => simp [h c hpin]

theorem dieResume_resumes {die : Nat} (hidle : (s.die die).idle = true) :
    exec (.dieResume die) s = .next (s.modDie die fun d => { d with idle := false }) := by
  rw [exec_dieResume, execDieResume]
  exact eventStep_some (by simp [State.accepts_of haccepts, hidle])

end

theorem State.issues_of_idle {s : State} {core : Nat} (h : (s.die (coreDie core)).idle = true) : s.issues core = false := by
  simp [State.issues, h]

theorem State.issues_of_stopped {s : State} (h : s.device.stopped = true) (core : Nat) : s.issues core = false := by
  simp [State.issues, h]

/-! ### The thermal stop -/

theorem State.ringPut_device {s t : State} {reg : Dword} {record : List Byte} (h : s.ringPut reg record = some t) :
    t.device = s.device := by
  simp only [State.ringPut, Option.ite_none_left_eq_some, Option.ite_none_right_eq_some, Option.some.injEq] at h
  obtain ⟨-, -, rfl⟩ := h
  rw [State.writeEverywhere_device, State.writeEverywhere_device]

section
variable {β : Type} {g : Device → β} (hg : ∀ (d : Device) time errors dropped,
  g { d with time := time, errors := errors, dropped := dropped } = g d)
include hg

/-- What the error records of a device are no part of stays. -/
theorem State.flushErrors_device (s : State) (l : List ErrorRec) : g (s.flushErrors l).device = g s.device := by
  induction l generalizing s with
  | nil => exact hg s.device s.device.time [] s.device.dropped
  | cons r l ih =>
    unfold State.flushErrors
    split
    · next t ht => exact (ih _).trans ((hg t.device t.device.time t.device.errors 0).trans (congrArg g (State.ringPut_device ht)))
    · exact hg s.device s.device.time (r :: l) s.device.dropped

theorem State.errorRecord_device (s : State) (r : ErrorRec) : g (s.errorRecord r).device = g s.device := by
  have hheld (t : State) : g t.flushHeld.device = g t.device := State.flushErrors_device hg t t.device.errors
  have htimed (time : Dword) : g { s.device with time := time } = g s.device :=
    hg s.device time s.device.errors s.device.dropped
  unfold State.errorRecord
  dsimp only
  split
  · exact (State.flushErrors_device hg _ _).trans ((hheld _).trans (htimed _))
  · exact (hg _ _ _ _).trans ((hheld _).trans (htimed _))

end

theorem thermalStop_stops {s : State} (h : s.device.stopped = false) : exec .thermalStop s =
    .next ((s.setDevice { s.device with stopped := true }).errorRecord { ErrorRec.blank with code := THERM, kind := 2 }) := by
  rw [exec_thermalStop, execThermalStop]
  exact eventStep_some (by simp [h])

/-- A core goes on as if it had swapped back in (R369). -/
def State.coreResumed (s : State) (core : Nat) : State :=
  ((s.modBank (s.activeBank core) Bank.endRun).modCore core fun c => { c with latch := none }).rearm (s.activeBank core)

theorem thermalResume_resumes {s : State} {c : Nat} (hstop : s.device.stopped = true) (hcool : c < 95)
    (haccepts : s.device.boot ≠ .recovery) : exec (.thermalResume c) s =
      .next (s.cores.foldl (fun t p => t.coreResumed p.1) (s.setDevice { s.device with stopped := false })) := by
  rw [exec_thermalResume, execThermalResume]
  refine eventStep_some ?_
  simp only [State.accepts_of haccepts, hstop, hcool, decide_true, Bool.and_self, if_true]
  rfl

/-- What a thermal resume says nothing of. -/
theorem State.coresResumed_rest {β : Type} (s : State) (l : Tbl Core) (g : State → β)
    (hg : ∀ (t : State) core, g (t.coreResumed core) = g t) : g (l.foldl (fun t p => t.coreResumed p.1) s) = g s :=
  foldl_keeps g (fun t p => hg t p.1) l s

/-! ### The device reset -/

theorem Core.fuseMap_reset : Core.reset.fuseMap = Core.reset.lmap := by decide

theorem deviceReset_core (s : State) (c : Nat) :
    ((s.cores.mapVal fun _ (c : Core) => { Core.reset with lmap := c.fuseMap }).get c Core.reset).lmap = (s.core c).fuseMap := by
  rw [Tbl.get, Tbl.find_mapVal, State.core, Tbl.get]
  cases s.cores.find c with
  | none => exact Core.fuseMap_reset.symm
  | some x => rfl

/-- Settles O47: each event as the change of the device that it is. -/
theorem powerEvents : Obligations.PowerEvents := by
  refine ⟨fun s stack ones h => ⟨_, hbmstatClear_clears h, rfl, fun j hj => ?_⟩,
    fun s stack ecs rowmax h => ⟨_, scrubPassEnd_counts ecs rowmax h, ?_⟩, fun s p h haccepts => powerState_sets haccepts h,
    fun s die hdie haccepts hteams hpins => ⟨_, dieIdle_idles haccepts hdie hteams hpins, rfl, rfl, fun core hcore => ?_⟩,
    fun s die hidle haccepts => dieResume_resumes haccepts hidle, fun s h => ⟨_, thermalStop_stops h, fun core => ?_⟩,
    fun s c hstop hcool haccepts => ⟨_, thermalResume_resumes hstop hcool haccepts, ?_, ?_, ?_⟩,
    fun s => ⟨_, rfl, rfl, rfl, rfl, rfl, rfl, rfl, rfl, rfl, rfl, rfl, deviceReset_core s⟩⟩
  · have hstat : (s.device.hbmStat.set stack (s.device.hbmStat.get stack 0 &&& ~~~(ones &&& (0xFFFFFFFF00000000 : Dword)))).get
        stack 0 = s.device.hbmStat.get stack 0 &&& ~~~(ones &&& (0xFFFFFFFF00000000 : Dword)) := Tbl.get_set_same ..
    refine (congrArg (BitVec.getLsbD · j) hstat).trans ?_
    rw [BitVec.getLsbD_and, BitVec.getLsbD_not, BitVec.getLsbD_and, highWord_getLsbD hj, Bool.and_comm (ones.getLsbD j)]
    simp [hj]
  · have hstat := Tbl.get_set_same s.device.hbmStat stack ((s.device.hbmStat.get stack 0 &&& (0xFFFFFFFF00000000 : Dword)) |||
      .ofNat 64 (min ecs 65535 * 65536 + min rowmax 65535)) 0
    have hx := toNat_lowWord (s.device.hbmStat.get stack 0) (n := min ecs 65535 * 65536 + min rowmax 65535) (by omega)
    have hmin := Nat.min_le_right ecs 65535
    have hmin' := Nat.min_le_right rowmax 65535
    rw [← hstat] at hx
    refine ⟨?_, ?_, BitVec.eq_of_toNat_eq ?_⟩
    · refine (congrArg (· % 2 ^ 16) hx).trans ?_
      omega
    · refine (congrArg (· / 2 ^ 16 % 2 ^ 16) hx).trans ?_
      omega
    · rw [BitVec.toNat_ushiftRight, BitVec.toNat_ushiftRight, Nat.shiftRight_eq_div_pow, Nat.shiftRight_eq_div_pow]
      refine (congrArg (· / 2 ^ 32) hx).trans ?_
      omega
  · exact State.issues_of_idle (by rw [hcore, State.die_modDie_same])
  · exact State.issues_of_stopped ((State.errorRecord_device (g := Device.stopped) (fun _ _ _ _ => rfl) ..).trans rfl) core
  · exact State.coresResumed_rest _ _ State.mem fun _ _ => rfl
  · exact State.coresResumed_rest _ _ State.strands fun _ _ => rfl
  · exact State.coresResumed_rest _ _ State.device fun _ _ => rfl

end Sys2Proof.Machine
end
section
/-!
PROOFS. Boot, recovery, attestation, test access and the owner key (R359, R378, R379, R380).
-/

namespace Sys2Proof.Machine

open Sys2Proof.Safety

/-! ### What the start of a die's rubric program leaves to the others -/

/-- The wave of a die's rubric program. -/
def rubricWave (die : Nat) : Nat := waveNo (bankNo (rubricCore die) 0) 0

theorem rubricWave_inj {d die : Nat} (h : rubricWave d = rubricWave die) : d = die := by
  simp only [rubricWave, waveNo, bankNo, rubricCore] at h
  omega

theorem State.putWave_strand_other (s : State) {w n : Nat} (l : Launch) (waveId team grid : Nat) (trailing : Bool)
    (partner : Option Nat) (h : List HRec) (regs : Nat → Tbl Reg) (hn : ∀ k < l.width, n ≠ strandNo w k) :
    (s.putWave w l waveId team grid trailing partner h regs).strands.find n = s.strands.find n := by
  have hfold : ∀ (t : State) (ks : List Nat), (∀ k ∈ ks, n ≠ strandNo w k) →
      (ks.foldl (fun (s : State) k => s.setStrand (strandNo w k)
        { Strand.fresh l.entry (decide (k < l.live)) (s.parks.get (strandNo w k) 0) with regs := regs k }) t).strands.find n =
          t.strands.find n := by
    intro t ks hks
    induction ks generalizing t with
    | nil => rfl
    | cons k ks ih =>
      rw [List.foldl_cons, ih _ fun j hj => hks j (List.mem_cons_of_mem _ hj), State.setStrand_strands,
        Tbl.find_set_other _ _ (hks k List.mem_cons_self)]
  exact hfold (s.setWave w _) (List.range l.width) fun k hk => hn k (List.mem_range.mp hk)

section
variable (s : State) (w : Nat) (l : Launch) (waveId team grid : Nat) (trailing : Bool) (partner : Option Nat) (h : List HRec)
  (regs : Nat → Tbl Reg)

theorem State.putWave_device : (s.putWave w l waveId team grid trailing partner h regs).device = s.device := by
  have h' := congrArg State.device (s.putWave_rest w l waveId team grid trailing partner h regs); exact h'

theorem State.putWave_parks : (s.putWave w l waveId team grid trailing partner h regs).parks = s.parks := by
  have h' := congrArg State.parks (s.putWave_rest w l waveId team grid trailing partner h regs); exact h'

theorem State.putWave_dies : (s.putWave w l waveId team grid trailing partner h regs).dies = s.dies := by
  have h' := congrArg State.dies (s.putWave_rest w l waveId team grid trailing partner h regs); exact h'

end

/-- The machine in which a rubric program's wave is placed: its grid and its team are there, and its place is free. -/
def State.rubricBase (s : State) (die : Nat) (entry : VAddr) (args : List Word) : State :=
  let g := (s.ownGrid (rubricLaunch entry args) 1).1
  let (no, t) := (s.ownGrid (rubricLaunch entry args) 1).2.fresh
  let t := ((t.modGrid g fun x => { x with nextTeam := 1 }).purgeWave (rubricWave die)).takeContext (bankNo (rubricCore die) 0) 0
  t.setTeam no (Team.fresh g 0 (bankNo (rubricCore die) 0) [rubricWave die] 0 [] (List.range 64))

section
variable (s : State) (die : Nat) (entry : VAddr) (digest : List Byte) (args : List Word)

theorem State.seatRubric_eq : s.seatRubric die entry digest args =
    ((s.rubricBase die entry args).putWave (rubricWave die) (rubricLaunch entry args) 0 (s.nextId + 1) s.device.nextGrid false none
      [] fun _ => []).modDie die fun d => { d with rubric := some (rubricWave die), rubricDigest := digest } := rfl

theorem State.rubricBase_device : (s.rubricBase die entry args).device = { s.device with nextGrid := s.device.nextGrid + 1 } := rfl
theorem State.rubricBase_parks : (s.rubricBase die entry args).parks = s.parks := rfl
theorem State.rubricBase_dies : (s.rubricBase die entry args).dies = s.dies := rfl

theorem State.rubricBase_strand {k : Nat} (hk : strandWave k ≠ rubricWave die) :
    (s.rubricBase die entry args).strands.find k = s.strands.find k :=
  (Tbl.find_filter_key s.strands (fun n => decide (strandWave n ≠ rubricWave die)) k).trans (if_pos (by simpa using hk))

theorem State.startRubric_device : (s.startRubric die entry digest args).device =
    { s.device with nextGrid := s.device.nextGrid + 1 } := by
  rw [State.startRubric_eq, State.wake_device, State.seatRubric_eq, State.modDie_device, State.putWave_device,
    State.rubricBase_device]

theorem State.startRubric_parks : (s.startRubric die entry digest args).parks = s.parks := by
  rw [State.startRubric_eq, State.wake_parks, State.seatRubric_eq, State.modDie_parks, State.putWave_parks,
    State.rubricBase_parks]

theorem State.startRubric_die_other {d : Nat} (hd : d ≠ die) : (s.startRubric die entry digest args).die d = s.die d := by
  rw [State.startRubric_eq, State.die, State.wake_dies, State.seatRubric_eq]
  refine (State.die_modDie _ die d _).trans ?_
  rw [if_neg hd, State.die, State.putWave_dies, State.rubricBase_dies, State.die]

theorem State.startRubric_strand_other {k : Nat} {st : Strand} (hk : strandWave k ≠ rubricWave die)
    (hlife : st.life ≠ .blocked .sleep) (h : s.strands.find k = some st) :
    (s.startRubric die entry digest args).strands.find k = some st := by
  have hne : ∀ j < (rubricLaunch entry args).width, k ≠ strandNo (rubricWave die) j :=
    fun j hj hkj => hk (by rw [hkj]; exact strandWave_strandNo _ hj)
  rw [State.startRubric_eq]
  refine StrandIs.wake _ hlife ?_
  rw [StrandIs, State.seatRubric_eq, State.modDie_strands, State.putWave_strand_other _ _ _ _ _ _ _ _ _ hne,
    State.rubricBase_strand _ _ _ _ hk, h]

end

/-- The machine with the rubric programs of some dies started. -/
def State.startRubrics (s : State) (dies : List Nat) (entry : VAddr) (digest : List Byte) (args : List Word) : State :=
  dies.foldl (fun s d => s.startRubric d entry digest args) s

/-- A die's rubric program stands at its entry, as it was placed over some park counts. -/
def State.RubricRuns (s : State) (d : Nat) (entry : VAddr) (digest : List Byte) (parks : Tbl (BitVec 10)) : Prop :=
  (s.die d).rubric = some (rubricWave d) ∧ (s.die d).rubricDigest = digest ∧
    ∀ l < 64, s.strands.find (strandNo (rubricWave d) l) = some (Strand.fresh entry true (parks.get (strandNo (rubricWave d) l) 0))

section
variable {s : State} {entry : VAddr} {digest : List Byte} {args : List Word}

theorem State.rubricRuns_startRubric (d : Nat) : (s.startRubric d entry digest args).RubricRuns d entry digest s.parks := by
  obtain ⟨hwave, hdigest⟩ := s.startRubric_die d entry digest args
  exact ⟨hwave, hdigest, fun l hl => s.startRubric_strand d entry digest args hl⟩

theorem State.RubricRuns.startRubric {d die : Nat} {parks : Tbl (BitVec 10)} (h : s.RubricRuns d entry digest parks)
    (hd : d ≠ die) : (s.startRubric die entry digest args).RubricRuns d entry digest parks := by
  obtain ⟨hwave, hdigest, hstrands⟩ := h
  rw [State.RubricRuns, State.startRubric_die_other _ _ _ _ _ hd]
  refine ⟨hwave, hdigest, fun l hl => State.startRubric_strand_other _ _ _ _ _ ?_ (by simp [Strand.fresh]) (hstrands l hl)⟩
  rw [strandWave_strandNo _ hl]
  exact fun hw => hd (rubricWave_inj hw)

/-- Every die of a list runs its program once it has been started on all of them. -/
theorem State.rubricRuns_startRubrics (dies : List Nat) {d : Nat} (h : d ∈ dies) :
    (s.startRubrics dies entry digest args).RubricRuns d entry digest s.parks := by
  have hparks (dies : List Nat) : (s.startRubrics dies entry digest args).parks = s.parks :=
    foldl_keeps State.parks (fun t d => t.startRubric_parks d entry digest args) dies s
  induction dies using List.reverseRecOn with
  | nil => cases h
  | append_singleton dies die ih =>
    rw [State.startRubrics, List.foldl_append, List.foldl_cons, List.foldl_nil]
    by_cases hd : d = die
    · subst hd
      rw [← hparks dies]
      exact State.rubricRuns_startRubric d
    · exact (ih ((List.mem_append.mp h).resolve_right (by simpa using hd))).startRubric hd

end

/-- What the start of rubric programs says nothing of. -/
theorem State.startRubrics_device {β : Type} (s : State) (dies : List Nat) (entry : VAddr) (digest : List Byte)
    (args : List Word) (g : Device → β) (hg : ∀ (d : Device) n, g { d with nextGrid := n } = g d) :
    g (s.startRubrics dies entry digest args).device = g s.device :=
  foldl_keeps (fun t : State => g t.device) (fun t d => by rw [t.startRubric_device d entry digest args, hg]) dies s

/-! ### The firmware runs -/

/-- The device runs a firmware (R378). -/
def State.runsFirmware (s : State) (f : SignedBlob) : State :=
  s.setDevice { s.device with boot := .running, firmwareDigest := Config.sha256 f.bytes }

section
variable {s : State} {f : SignedBlob}

theorem firmwareRuns_bare (h : s.device.rubricImage = none) : s.firmwareRuns f = s.runsFirmware f := by
  have h' : (s.runsFirmware f).device.rubricImage = none := h
  simp only [State.runsFirmware] at h'
  simp only [State.firmwareRuns, h']
  rfl

variable {rubric : Image} {sig : List Byte} {streams : Dword} (hr : s.device.rubricImage = some (rubric, sig, streams))
include hr

theorem firmwareRuns_eq : s.firmwareRuns f =
    match rubric.exports.head? with
    | none => s.runsFirmware f
    | some entry =>
      if rubric.asid = 0 ∧ s.ownerSigned rubric.file sig then
        match (s.runsFirmware f).loadImage rubric with
        | some t => t.startRubrics (List.range 4) (.ofNat 57 entry) (Config.sha256 rubric.file) (rubricArgs streams)
        | none => s.runsFirmware f
      else s.runsFirmware f := by
  have hr' : (s.runsFirmware f).device.rubricImage = some (rubric, sig, streams) := hr
  simp only [State.runsFirmware] at hr'
  simp only [State.firmwareRuns, hr']
  rfl

theorem firmwareRuns_unsigned (h : rubric.exports = [] ∨ rubric.asid ≠ 0 ∨ s.ownerSigned rubric.file sig = false) :
    s.firmwareRuns f = s.runsFirmware f := by
  rw [firmwareRuns_eq hr]
  obtain h | h := h
  · rw [h]
    rfl
  · have hno : ¬(rubric.asid = 0 ∧ s.ownerSigned rubric.file sig = true) := fun ⟨hasid, hsigned⟩ =>
      h.elim (· hasid) fun hsig => by rw [hsig] at hsigned; cases hsigned
    split
    · rfl
    · rw [if_neg hno]

theorem firmwareRuns_rubric {entry : Nat} {rest : List Nat} (hsigned : s.ownerSigned rubric.file sig = true)
    (hexports : rubric.exports = entry :: rest) (hasid : rubric.asid = 0)
    (hversions : ∀ o, s.device.contexts.find 0 = some o → ∀ w ∈ o.versions, w.number < 2 ^ 32 - 1) :
    s.firmwareRuns f = ((s.runsFirmware f).withImage rubric).startRubrics (List.range 4) (.ofNat 57 entry)
      (Config.sha256 rubric.file) (rubricArgs streams) := by
  have hload : (s.runsFirmware f).loadImage rubric = some ((s.runsFirmware f).withImage rubric) := by
    rw [State.loadImage_eq, if_pos]
    refine newestVersion_succ_lt ?_
    rw [hasid]
    exact hversions
  rw [firmwareRuns_eq hr, hexports, hload]
  exact if_pos ⟨hasid, hsigned⟩

end

theorem State.withImage_device (s : State) (img : Image) : (s.withImage img).device.boot = s.device.boot ∧
    (s.withImage img).device.firmwareDigest = s.device.firmwareDigest := by
  have hkeeps := (s.keeps_storeImage img).device
  have hboot := congrArg Device.boot hkeeps
  have hdigest := congrArg Device.firmwareDigest hkeeps
  exact ⟨hboot, hdigest⟩

/-- What an attempt to run a firmware does (R378): from `s`, on a device `given`, leaving `failed` where its checks fail. -/
def State.Starts (s : State) (f : SignedBlob) (given failed : Device) (o : Out) : Prop :=
  let ok := Config.ecdsaVerify s.device.rootKey (Config.sha256 f.bytes) f.signature && decide (s.device.rollback ≤ f.version)
  let runs := Safety.next { s with device := { given with boot := .running, firmwareDigest := Config.sha256 f.bytes } }
  (ok = false → o = .next { s with device := failed }) ∧
  (ok = true → given.rubricImage = none → o = runs) ∧
  (∀ rubric sig streams, ok = true → given.rubricImage = some (rubric, sig, streams) →
    ((rubric.exports = [] ∨ rubric.asid ≠ 0 ∨ ∀ key, s.device.ownerKey = some key →
      Config.ecdsaVerify key (Config.sha256 rubric.file) sig = false) → o = runs) ∧
    (∀ key entry rest, s.device.ownerKey = some key → Config.ecdsaVerify key (Config.sha256 rubric.file) sig = true →
      rubric.exports = entry :: rest → rubric.asid = 0 →
      (∀ o, s.device.contexts.find 0 = some o → ∀ w ∈ o.versions, w.number < 2 ^ 32 - 1) →
      ∃ u, o = .next u ∧ u.device.boot = .running ∧ u.device.firmwareDigest = Config.sha256 f.bytes ∧
        ∀ d < 4, ∃ w, (u.die d).rubric = some w ∧ (u.die d).rubricDigest = Config.sha256 rubric.file ∧
          ∀ l < 64, u.strands.find (strandNo w l) = some (Strand.fresh (.ofNat 57 entry) true (s.parks.get (strandNo w l) 0))))

theorem State.ownerSigned_eq_false {s : State} {file sig : List Byte}
    (h : ∀ key, s.device.ownerKey = some key → Config.ecdsaVerify key (Config.sha256 file) sig = false) :
    s.ownerSigned file sig = false := by
  unfold State.ownerSigned
  split
  · next key hkey => exact h key hkey
  · rfl

theorem State.ownerSigned_of_key {s : State} {file sig key : List Byte} (hkey : s.device.ownerKey = some key) :
    s.ownerSigned file sig = Config.ecdsaVerify key (Config.sha256 file) sig := by
  simp only [State.ownerSigned, hkey]

theorem State.starts_of {s : State} {f : SignedBlob} {given failed : Device} {o : Out} (howner : given.ownerKey = s.device.ownerKey)
    (hcontexts : given.contexts = s.device.contexts)
    (hfails : s.firmwareOk f = false → o = .next { s with device := failed })
    (hruns : s.firmwareOk f = true → o = .next (({ s with device := given } : State).firmwareRuns f)) :
    s.Starts f given failed o := by
  let base : State := { s with device := given }
  refine ⟨hfails, fun hok hnone => ?_, fun rubric sig streams hok hr => ⟨fun h => ?_, ?_⟩⟩
  · rw [hruns hok, firmwareRuns_bare (s := base) hnone]
    rfl
  · have hbad := h.imp_right (Or.imp_right fun h => State.ownerSigned_eq_false (s := base) (file := rubric.file) (sig := sig)
      fun key hkey => h key (howner ▸ hkey))
    rw [hruns hok, firmwareRuns_unsigned (s := base) hr hbad]
    rfl
  · intro key entry rest hkey hverify hexports hasid hversions
    have hsigned : base.ownerSigned rubric.file sig = true := (State.ownerSigned_of_key (howner.trans hkey)).trans hverify
    obtain ⟨hboot, hdigest⟩ := (base.runsFirmware f).withImage_device rubric
    refine ⟨_, (hruns hok).trans (congrArg _ (firmwareRuns_rubric (s := base) hr hsigned hexports hasid ?_)), ?_, ?_, fun d hd => ?_⟩
    · rw [show base.device.contexts = s.device.contexts from hcontexts]
      exact hversions
    · exact (State.startRubrics_device _ _ _ _ _ Device.boot fun _ _ => rfl).trans hboot
    · exact (State.startRubrics_device _ _ _ _ _ Device.firmwareDigest fun _ _ => rfl).trans hdigest
    · have hparks : ((base.runsFirmware f).withImage rubric).parks = s.parks :=
        ((base.runsFirmware f).keeps_storeImage rubric).parks
      obtain ⟨hwave, hrubric, hstrands⟩ := State.rubricRuns_startRubrics (s := (base.runsFirmware f).withImage rubric)
        (entry := .ofNat 57 entry) (digest := Config.sha256 rubric.file) (args := rubricArgs streams) (List.range 4)
        (List.mem_range.mpr hd)
      exact ⟨_, hwave, hrubric, fun l hl => hparks ▸ hstrands l hl⟩

/-! ### The events -/

section
variable {s : State} {f : SignedBlob}

theorem boot_starts (rubric : Image) (sig : List Byte) (streams : Dword) (h : s.device.boot = .off) :
    let given := { s.device with rubricImage := some (rubric, sig, streams) }
    s.Starts f given { given with boot := .recovery } (exec (.boot f rubric sig streams) s) := by
  refine State.starts_of rfl rfl (fun hbad => ?_) fun hok => ?_
  · rw [exec_boot, execBoot]
    refine eventStep_some ((guard_bind h _).trans ?_)
    exact if_neg (fun hok => Bool.false_ne_true (hbad.symm.trans hok))
  · rw [exec_boot, execBoot]
    refine eventStep_some ((guard_bind h _).trans ?_)
    exact if_pos hok

theorem firmwareRecovery_starts (h : s.device.boot = .recovery) :
    s.Starts f s.device s.device (exec (.firmwareRecovery f) s) := by
  refine State.starts_of rfl rfl (fun hbad => ?_) fun hok => ?_
  · rw [exec_firmwareRecovery, execFirmwareRecovery]
    exact eventStep_none (if_neg (by simp [hbad]))
  · rw [exec_firmwareRecovery, execFirmwareRecovery]
    exact eventStep_some (if_pos ⟨h, hok⟩)

end

section
variable {s : State} (haccepts : s.device.boot ≠ .recovery)
include haccepts

theorem ownerKeyEnrol_enrols {key : List Byte} (h : s.device.ownerKey = none) :
    exec (.ownerKeyEnrol key) s = .next { s with device := { s.device with ownerKey := some key } } := by
  rw [exec_ownerKeyEnrol, execOwnerKeyEnrol]
  exact eventStep_some (if_pos (by simp [State.accepts_of haccepts, h]))

omit haccepts in
theorem ownerKeyEnrol_once {key : List Byte} (h : s.device.ownerKey ≠ none) : exec (.ownerKeyEnrol key) s = .next s := by
  rw [exec_ownerKeyEnrol, execOwnerKeyEnrol]
  exact eventStep_none (if_neg (by simp [h]))

theorem testUnlock_unlocks {key sig : List Byte} (h : s.device.ownerKey = some key) : exec (.testUnlock sig) s =
    .next (if Config.ecdsaVerify key (Config.sha256 []) sig then { s with device := { s.device with testAccess := true } }
      else s) := by
  rw [exec_testUnlock, execTestUnlock]
  split
  · next hsig => exact eventStep_some (if_pos (by simp [State.accepts_of haccepts, State.ownerSigned_of_key h, hsig]))
  · next hsig => exact eventStep_none (if_neg (by simp [State.ownerSigned_of_key h, hsig]))

theorem attestationReport_reports {nonce : List Byte} (h : nonce.length = 32) : exec (.attestationReport nonce) s =
    .next { s with device := { s.device with report := s.reportBody nonce ++ Config.identitySign (s.reportBody nonce) } } := by
  rw [exec_attestationReport, execAttestationReport]
  exact eventStep_some (if_pos (by simp [State.accepts_of haccepts, h]))

end

/-! ### Recovery takes nothing else -/

section
variable {s : State} (hrecovery : s.device.boot = .recovery)
include hrecovery

theorem State.refuses : s.accepts = false := by simp [State.accepts, hrecovery]

theorem outsideAccess_refused (agent : Nat) (ordered : Bool) (acc : Access) : s.outsideAccess agent ordered acc = none := by
  cases acc <;> simp [State.outsideAccess, State.outsideMay, State.refuses hrecovery]

theorem recovery_refuses (l : List Byte) (img : Image) (n : Nat) (sig : List Byte) (streams : Dword) (acc : Access) (release : Bool) :
    ∀ i ∈ [Instr.attestationReport l, .ownerKeyEnrol l, .testUnlock l, .imageLoad img, .rubricReplace n img sig streams,
        .hostAccess acc release, .powerState n, .dieIdle n, .dieResume n, .hostResumeCore n, .thermalResume n],
      exec i s = .next s := by
  have hno := State.refuses hrecovery
  intro i hi
  simp only [List.mem_cons, List.not_mem_nil, or_false] at hi
  rcases hi with rfl | rfl | rfl | rfl | rfl | rfl | rfl | rfl | rfl | rfl | rfl
  · rw [exec_attestationReport, execAttestationReport]
    exact eventStep_none (if_neg (by simp [hno]))
  · rw [exec_ownerKeyEnrol, execOwnerKeyEnrol]
    exact eventStep_none (if_neg (by simp [hno]))
  · rw [exec_testUnlock, execTestUnlock]
    exact eventStep_none (if_neg (by simp [hno]))
  · rw [exec_imageLoad, execImageLoad]
    exact eventStep_none (if_neg (by simp [hrecovery]))
  · rw [exec_rubricReplace, execRubricReplace]
    exact eventStep_none (by simp [hrecovery])
  · rw [exec_hostAccess, execHostAccess]
    exact eventStep_none (by simp [outsideAccess_refused hrecovery])
  · rw [exec_powerState, execPowerState]
    exact eventStep_none (if_neg (by simp [hno]))
  · rw [exec_dieIdle, execDieIdle]
    exact eventStep_none (by simp [hno])
  · rw [exec_dieResume, execDieResume]
    exact eventStep_none (if_neg (by simp [hno]))
  · rw [exec_hostResumeCore, execHostResumeCore]
    exact eventStep_none (if_neg (by simp [hno]))
  · rw [exec_thermalResume, execThermalResume]
    exact eventStep_none (if_neg (by simp [hno]))

end

/-- Settles O50: what the checks of a firmware decide, and the other events by whether the device takes them. -/
theorem bootAndIdentity : Obligations.BootAndIdentity :=
  ⟨fun _ _ => ⟨fun rubric sig streams h => boot_starts rubric sig streams h, fun h => firmwareRecovery_starts h⟩,
    fun _ _ hlen haccepts => attestationReport_reports haccepts hlen,
    fun _ _ _ haccepts => ⟨fun h => ownerKeyEnrol_enrols haccepts h, fun h => ownerKeyEnrol_once h,
      fun h => testUnlock_unlocks haccepts h⟩,
    fun _ l img n sig streams acc release h => recovery_refuses h l img n sig streams acc release⟩

end Sys2Proof.Machine
end
section
/-!
PROOFS. Accesses of the host, of peers and through network windows, and the failures of links and windows (R333, R340, R370,
R371, R373, R374, R376, R377).
-/

namespace Sys2Proof.Machine

open Sys2Proof.Safety

/-! ### A write from outside -/

/-- A state that holds bytes at an address and everything else as another one does. -/
def State.Wrote (s : State) (pa : Nat) (bytes : List Byte) (u : State) : Prop :=
  ((span pa bytes.length).map memKey).Nodup ∧ u.peek pa bytes.length = bytes ∧
    ∀ n, n ∉ (span pa bytes.length).map memKey → Memory.read u.mem n = Memory.read s.mem n

/-- The bytes of a run of device memory have places of their own. -/
theorem nodup_memKey_device {pa n : Nat} (h : isDevice (pa + n - 1) = true) : ((span pa n).map memKey).Nodup := by
  have hend : pa + n - 1 < Config.deviceEnd := of_decide_eq_true h
  refine nodup_memKey_span pa ?_
  simp only [Config.deviceEnd] at hend
  omega

theorem isDevice_of_le {a b : Nat} (h : isDevice b = true) (hab : a ≤ b) : isDevice a = true :=
  decide_eq_true (Nat.lt_of_le_of_lt hab (of_decide_eq_true h))

section
variable {s : State} {agent pa : Nat} {bytes : List Byte}

theorem State.cleanCovered_device (s : State) (pa n : Nat) : (s.cleanCovered pa n).device = s.device :=
  foldl_keeps State.device (fun _ _ => by rfl) _ s

theorem State.outsideWrite_mem : (s.outsideWrite agent pa bytes).mem =
    ((s.fresh.2.cleanCovered pa bytes.length).storeBytes s.nextId pa bytes).mem := rfl

/-- A write from outside changes the list of its agent's writes alone in the device. -/
theorem State.outsideWrite_device :
    { (s.outsideWrite agent pa bytes).device with outside := s.device.outside } = s.device := by
  have hdevice : ((s.fresh.2.cleanCovered pa bytes.length).storeBytes s.nextId pa bytes).device = s.device :=
    (State.keeps_storeBytes ..).device.trans (State.cleanCovered_device s.fresh.2 pa bytes.length)
  exact congrArg (fun d : Device => { d with outside := s.device.outside }) hdevice

theorem State.outsideWrite_wrote (hs : MemoryOk s) (hlast : isDevice (pa + bytes.length - 1) = true) :
    s.Wrote pa bytes (s.outsideWrite agent pa bytes) := by
  have hnodup := nodup_memKey_device hlast
  have hclean : (s.fresh.2.cleanCovered pa bytes.length).mem = s.mem := State.cleanCovered_mem ..
  have hok : MemoryOk (s.fresh.2.cleanCovered pa bytes.length) := MemoryOk.same hs hclean
  refine ⟨hnodup, State.peek_storeBytes _ pa bytes hok hnodup, fun n hn => ?_⟩
  rw [State.outsideWrite_mem, State.storeBytes_mem, hclean]
  exact Memory.read_writeAll_other hs _ _ (by rw [keyed_place_fst]; exact hn)

end

/-! ### The accesses -/

section
variable {s : State} {agent pa : Nat} {bytes expected : List Byte} {ordered : Bool}
  (hmay : s.outsideMay agent pa bytes.length ordered = true)
include hmay

theorem outsideAccess_store : s.outsideAccess agent ordered (.store pa bytes) = some (s.outsideWrite agent pa bytes) := by
  simp only [State.outsideAccess, hmay, if_true]

theorem outsideAccess_load : s.outsideAccess agent ordered (.load pa bytes.length) = some s := by
  have haccepts : s.accepts = true := by
    rw [State.outsideMay, Bool.and_eq_true, Bool.and_eq_true] at hmay
    exact hmay.1.1
  simp only [State.outsideAccess, haccepts, if_true]

theorem outsideAccess_cas_equal (hlen : expected.length = bytes.length) (hpoison : s.poisonedAt pa = false)
    (heq : s.peek pa bytes.length = expected) :
    s.outsideAccess agent ordered (.cas pa expected bytes) = some (s.outsideWrite agent pa bytes) := by
  simp only [State.outsideAccess, hmay, hlen, heq, hpoison, and_self, if_true]

theorem outsideAccess_cas_differs (hlen : expected.length = bytes.length) (hne : s.peek pa bytes.length ≠ expected) :
    s.outsideAccess agent ordered (.cas pa expected bytes) = some s := by
  simp only [State.outsideAccess, hmay, hlen, hne, true_and, false_and, if_true, if_false]

theorem outsideAccess_add {value : Nat} (hpoison : s.poisonedAt pa = false)
    (hsum : toBytes bytes.length (s.peekNum pa bytes.length + value) = bytes) :
    s.outsideAccess agent ordered (.add pa bytes.length value) = some (s.outsideWrite agent pa bytes) := by
  simp only [State.outsideAccess, hmay, hpoison, hsum, Bool.false_eq_true, if_true, if_false]

end

theorem hostAccess_device {s t : State} {acc : Access} {pa n : Nat} {release : Bool} (hrange : accessRange acc = (pa, n))
    (hfirst : isDevice pa = true) (hlast : isDevice (pa + n - 1) = true) (h : s.outsideAccess 0 release acc = some t) :
    exec (.hostAccess acc release) s = .next t := by
  rw [exec_hostAccess, execHostAccess]
  refine eventStep_some ?_
  rw [hrange]
  exact (guard_bind (by simp [hfirst, hlast]) _).trans h

section
variable {s : State} {link seq pa : Nat} {bytes : List Byte}

/-- The machine once the next write of a link has been performed. -/
def State.peerWrote (s : State) (link pa : Nat) (bytes : List Byte) : State :=
  let t := s.outsideWrite (1 + link) pa bytes
  t.setLink link { t.device.link link with received := (s.device.link link).received + 1 }

theorem peerAccess_writes (hlink : link < 8) (hup : (s.device.link link).up = true) (hseq : seq = (s.device.link link).received)
    (hfirst : isDevice pa = true) (hlast : isDevice (pa + bytes.length - 1) = true)
    (hmay : s.outsideMay (1 + link) pa bytes.length true = true) :
    exec (.peerAccess link seq (.store pa bytes)) s = .next (s.peerWrote link pa bytes) := by
  rw [exec_peerAccess, execPeerAccess]
  refine eventStep_some ((guard_bind (by simp [hlink, hup, hseq, hfirst, hlast]) _).trans ?_)
  rw [outsideAccess_store hmay, hseq]
  rfl

theorem State.peerWrote_received : ((s.peerWrote link pa bytes).device.link link).received = (s.device.link link).received + 1 :=
  congrArg Link.received (Tbl.get_set_same ..)

/-- A request whose number is not the link's next one is discarded (R374). -/
theorem peerAccess_discards {acc : Access} (hseq : seq ≠ (s.device.link link).received) :
    exec (.peerAccess link seq acc) s = .next s := by
  rw [exec_peerAccess, execPeerAccess]
  exact eventStep_none (by simp [hseq, guard])

end

theorem inboundRdmaWrite_writes {s : State} {window offset rva len base : Nat} {bytes : List Byte}
    (hentry : s.windowEntry window = some (true, rva, len))
    (hbase : base = s.peekNum (fld s.device.nwtBase.toNat 12 40 * 4096 + 64 * window + 32) 8)
    (hfits : offset + bytes.length ≤ s.peekNum (fld s.device.nwtBase.toNat 12 40 * 4096 + 64 * window + 40) 8)
    (hregion : isDevice (base + s.peekNum (fld s.device.nwtBase.toNat 12 40 * 4096 + 64 * window + 40) 8 - 1) = true)
    (hfirst : isDevice (base + offset) = true)
    (hmay : s.outsideMay (16 + s.queuePair window) (base + offset) bytes.length true = true) :
    exec (.inboundRdmaWrite window offset bytes) s = .next (s.outsideWrite (16 + s.queuePair window) (base + offset) bytes) := by
  subst hbase
  rw [exec_inboundRdmaWrite, execInboundRdmaWrite]
  refine eventStep_some ?_
  rw [hentry]
  refine (guard_bind ?_ _).trans ((guard_bind hmay _).trans rfl)
  simp only [hfits, hfirst, hregion, decide_true, Bool.and_self]

/-! ### Links and windows that fail -/

theorem linkdown_fails {s : State} {link : Nat} (hlink : link < 8) (hup : (s.device.link link).up = true) :
    exec (.linkdown link) s = .next ((s.setLink link { s.device.link link with up := false }).errorRecord
      { ErrorRec.blank with code := LINKDOWN, kind := 2 }) := by
  rw [exec_linkdown, execLinkdown]
  exact eventStep_some (guard_bind (by simp [hlink, hup]) _)

theorem luteLinkUp_comes {s : State} {link : Nat} (hlink : link < 8) (hdown : (s.device.link link).up = false)
    (hbusy : s.linkBusy link = false) :
    exec (.luteLinkUp link) s = .next (s.setLink link { s.device.link link with up := true }) := by
  rw [exec_luteLinkUp, execLuteLinkUp]
  exact eventStep_some (guard_bind (by simp [hlink, hdown, hbusy]) _)

section
variable {s : State} (hring : ringBase s.device.errBase = 0)
include hring

theorem State.flushErrors_rest (l : List ErrorRec) : { s.flushErrors l with device := s.device } = s := by
  cases l with
  | nil => rfl
  | cons r l => simp only [State.flushErrors, State.ringPut, hring, if_true]

/-- Without a ring an error record changes the device and the count of free values alone (R366). -/
theorem State.errorRecord_rest (r : ErrorRec) :
    { s.errorRecord r with device := s.device, freeCount := s.freeCount } = s := by
  let timed : State := { s.free.2 with device := { s.device with time := s.device.time + (Config.freeTime s.freeCount).setWidth 64 } }
  have hheld : { timed.flushHeld with device := s.device, freeCount := s.freeCount } = s :=
    congrArg (fun t : State => { t with device := s.device, freeCount := s.freeCount })
      (State.flushErrors_rest (s := timed) hring timed.device.errors)
  have hring' : ringBase timed.flushHeld.device.errBase = 0 :=
    (congrArg ringBase (State.flushErrors_device (g := Device.errBase) (fun _ _ _ _ => rfl) timed timed.device.errors)).trans hring
  have hheld' (l : List ErrorRec) : { timed.flushHeld.flushErrors l with device := s.device, freeCount := s.freeCount } = s :=
    (congrArg (fun t : State => { t with device := s.device, freeCount := s.freeCount })
      (State.flushErrors_rest hring' l)).trans hheld
  unfold State.errorRecord
  dsimp only
  split
  · exact hheld' _
  · exact hheld

end

theorem performNow_banks (s : State) (id : Nat) (cells : List Host.Cell) : (s.performNow id cells).banks = s.banks :=
  PerformKeeps.performNow (P := fun t => t.banks = s.banks)
    ⟨fun t pa h => (State.of_beneath (t.wakeLine_beneath pa) State.banks fun _ => rfl).trans h, fun _ _ _ h => h, fun _ _ _ h => h⟩
    rfl id cells

/-- The place of a window's entry (R376). -/
def State.windowPlace (s : State) (w : Nat) : Nat := s.device.nwtBase.toNat / 2 ^ 12 % 2 ^ 40 * 4096 + 64 * w

/-- The machine with the ERR bit of a window set (R377). -/
def State.windowMarked (s : State) (w : Nat) : State :=
  s.fresh.2.performNow s.nextId (Machine.place (s.windowPlace w) (toBytes 1 (s.peekNum (s.windowPlace w) 1 ||| 2)))

section
variable {s : State} {w : Nat} (hring : ringBase s.device.errBase = 0)

theorem State.windowMarked_device : (s.windowMarked w).device = s.device :=
  (State.keeps_performNow s.fresh.2 s.nextId _).device

include hring

theorem State.windowMarked_record (r : ErrorRec) : ((s.windowMarked w).errorRecord r).mem = (s.windowMarked w).mem ∧
    ((s.windowMarked w).errorRecord r).banks = s.banks := by
  have hrest := State.errorRecord_rest (s := s.windowMarked w) (by rw [State.windowMarked_device, hring]) r
  have hmem := congrArg State.mem hrest
  have hbanks := congrArg State.banks hrest
  exact ⟨hmem, Eq.trans hbanks (performNow_banks ..)⟩

theorem neterr_marks {rva len : Nat} (hentry : s.windowEntry w = some (true, rva, len))
    (hcopies : ∀ p ∈ s.banks, ∀ c ∈ p.2.copies, c.windows.contains w = false)
    (howned : s.ownedByCopy (lineOf (s.windowPlace w)) = false) :
    exec (.neterr w) s = .next ((s.windowMarked w).errorRecord { ErrorRec.blank with code := NETERR, kind := 2 }) := by
  have hnone : ((s.windowMarked w).errorRecord { ErrorRec.blank with code := NETERR, kind := 2 }).banks.flatMap
      (fun p => p.2.copies.filter fun c => c.windows.contains w) = [] := by
    rw [(State.windowMarked_record hring _).2]
    exact List.flatMap_eq_nil_iff.mpr fun p hp => List.filter_eq_nil_iff.mpr fun c hc => by rw [hcopies p hp c hc]; exact Bool.false_ne_true
  rw [exec_neterr, execNeterr]
  refine eventStep_some ?_
  rw [hentry]
  have hfree : (!s.ownedByCopy (lineOf (s.windowPlace w))) = true := by rw [howned]; rfl
  refine (guard_bind hfree _).trans ?_
  exact congrArg (fun l => some ((dedup (l.map Copy.team)).foldl (fun s t => s.killTeam t NETERR ErrorRec.blank)
    ((s.windowMarked w).errorRecord { ErrorRec.blank with code := NETERR, kind := 2 }))) hnone

end

theorem State.peekNum_one (s : State) (pa : Nat) : s.peekNum pa 1 = (Memory.read s.mem (memKey pa)).toNat := rfl

/-- The mark is one byte of memory. -/
theorem State.windowMarked_mem (s : State) (w : Nat) : (s.windowMarked w).mem =
    Memory.writeAll s.mem [(memKey (s.windowPlace w), .ofNat 8 (s.peekNum (s.windowPlace w) 1 ||| 2))] :=
  State.performNow_mem ..

theorem State.windowMarked_byte {s : State} (hs : MemoryOk s) (w : Nat) :
    (s.windowMarked w).peekNum (s.windowPlace w) 1 = s.peekNum (s.windowPlace w) 1 ||| 2 := by
  have hbyte : s.peekNum (s.windowPlace w) 1 < 2 ^ 8 := by rw [State.peekNum_one]; exact BitVec.isLt _
  rw [State.peekNum_one, State.windowMarked_mem, Memory.read_writeAll_same hs _ (by simp) _ List.mem_cons_self]
  exact Nat.mod_eq_of_lt (Nat.or_lt_two_pow hbyte (by decide))

/-- Settles O49: what an outside write puts in memory, by each way in. -/
theorem outsideAccesses : Obligations.OutsideAccesses := by
  refine ⟨fun s pa bytes hs hne hlast => ?_, fun s link seq => rfl, fun s link hlink => ⟨fun hup => ?_, fun hdown hbusy => ?_⟩,
    fun s w rva len hentry hcopies hring hs howned => ?_⟩
  · have hpos : 0 < bytes.length := List.length_pos_iff.mpr hne
    have hfirst : isDevice pa = true := isDevice_of_le hlast (by omega)
    have hwrote (agent : Nat) : s.Wrote pa bytes (s.outsideWrite agent pa bytes) := State.outsideWrite_wrote hs hlast
    refine ⟨fun release hmay => ⟨?_, ?_, fun expected hlen hpoison => ⟨fun heq => ?_, fun hdiff => ?_⟩, fun value hpoison hsum => ?_⟩,
      fun link seq hlink hup hseq hmay => ?_, fun window offset rva len hentry hpa hfits hregion hmay => ?_⟩
    · exact ⟨_, hostAccess_device rfl hfirst hlast (outsideAccess_store hmay), hwrote 0⟩
    · exact hostAccess_device rfl hfirst hlast (outsideAccess_load hmay)
    · exact ⟨_, hostAccess_device rfl hfirst hlast (outsideAccess_cas_equal hmay hlen hpoison heq), hwrote 0⟩
    · exact hostAccess_device rfl hfirst hlast (outsideAccess_cas_differs hmay hlen hdiff)
    · exact ⟨_, hostAccess_device rfl hfirst hlast (outsideAccess_add hmay hpoison hsum), hwrote 0⟩
    · have hreceived : ((s.peerWrote link pa bytes).device.link link).received = seq + 1 := by
        rw [State.peerWrote_received, hseq]
      exact ⟨_, peerAccess_writes hlink hup hseq hfirst hlast hmay, hwrote (1 + link), hreceived,
        peerAccess_discards (by rw [hreceived]; omega)⟩
    · subst hpa
      exact ⟨_, inboundRdmaWrite_writes hentry rfl hfits hregion hfirst hmay, hwrote _⟩
  · have hlink' := State.errorRecord_device (g := fun d : Device => d.link link) (fun _ _ _ _ => rfl)
      (s.setLink link { s.device.link link with up := false }) { ErrorRec.blank with code := LINKDOWN, kind := 2 }
    have hdown : ((s.setLink link { s.device.link link with up := false }).errorRecord
        { ErrorRec.blank with code := LINKDOWN, kind := 2 }).device.link link = { s.device.link link with up := false } :=
      hlink'.trans (Tbl.get_set_same ..)
    refine ⟨_, linkdown_fails hlink hup, congrArg Link.up hdown, fun pa hpeer hpa => ?_⟩
    rw [State.linkLost, hpeer, hpa, hdown]
    rfl
  · exact ⟨_, luteLinkUp_comes hlink hdown hbusy, rfl, congrArg Link.up (Tbl.get_set_same ..)⟩
  · have hmem := (State.windowMarked_record (w := w) hring { ErrorRec.blank with code := NETERR, kind := 2 }).1
    refine ⟨_, neterr_marks hring hentry hcopies howned, ?_, fun n hn => ?_⟩
    · show State.peekNum _ (s.windowPlace w) 1 = s.peekNum (s.windowPlace w) 1 ||| 2
      rw [← State.windowMarked_byte hs, State.peekNum_one, hmem, State.peekNum_one]
    · rw [hmem, State.windowMarked_mem]
      exact Memory.read_writeAll_other hs _ _ fun h => hn (List.mem_singleton.mp h)

end Sys2Proof.Machine
end
section
/-!
PROOFS. Copy commands that enter their engine (R290 to R297, R299, R301, R305).
-/

namespace Sys2Proof.Machine

open Sys2Proof.Safety

/-! ### What a copy's entry does -/

@[simp] theorem State.takeLine_besideCaches (s : State) (cores : List Nat) (line : Nat) :
    (s.takeLine cores line).besideCaches = s.besideCaches := writeBack_each_besideCaches ..

/-- A copy as it is entered, before its number and its lines are known. -/
def Env.copyBlank (e : Env) (t : State) (op : CopyOp) (hs hd : HRec) (tag : Nat) : Copy :=
  { id := 0, op := op, hs := hs, hd := hd, tag := tag, team := e.wave.team, strand := e.key, pol := e.policy hs
    landed := [], blocks := op.blocks hd, owned := [], unplaced := [], writes := [], stopped := none
    retry := false, windows := []
    after := if !decide (hKind hd = kLocal) && e.isContained then t.flightsOf e.cores else [], crc := 0 }

/-- The machine behind the commit point of a copy into global memory (R290). -/
def Env.copyBase (e : Env) (hd : HRec) : State :=
  let t := if hKind hd = kLocal then e.s else if e.isContained then e.s.commit e.wave.team else e.s
  if !decide (hKind hd = kLocal) && e.isContained then t.expose e.wave.team else t

/-- The machine with the copy's lines taken (R305). -/
def Env.copyTaken (e : Env) (op : CopyOp) (hs hd : HRec) (tag : Nat) : State :=
  let t := e.copyBase hd
  (t.copyLines (e.copyBlank t op hs hd tag)).lines.foldl (fun s x => s.takeLine e.cores x.1) t

/-- The copy as it stands in the queue. -/
def Env.copyEntry (e : Env) (op : CopyOp) (hs hd : HRec) (tag : Nat) : Copy :=
  let t := e.copyBase hd
  let blank := e.copyBlank t op hs hd tag
  let l := t.copyLines blank
  { blank with id := (e.copyTaken op hs hd tag).nextId, owned := l.lines, unplaced := l.unplaced, windows := l.windows }

/-- The machine with the copy in its queue. -/
def Env.copyListed (e : Env) (op : CopyOp) (hs hd : HRec) (tag : Nat) : State :=
  (e.copyTaken op hs hd tag).fresh.2.modBank e.engine fun b => { b with copies := b.copies ++ [e.copyEntry op hs hd tag] }

/-- The same with the copy's tag armed. -/
def Env.copyQueued (e : Env) (op : CopyOp) (hs hd : HRec) (tag : Nat) (arm : Bool) : State :=
  let t := e.copyListed op hs hd tag
  if arm then t.setTag e.engine tag (CopyTag.arm (.ofNat 32 (op.bytes hd))) else t

section
variable {s : State} {e : Env} {op : CopyOp} {hs hd : HRec} {tag : Nat} {arm : Bool}

theorem enterCopy_enters (he : s.env = some e) (ha : Alone e) (hstores : s.storesOf e.key = [])
    (hglobal : hKind hd = 1 ∨ (s.readsOutstanding e.key = false ∧
      (e.isContained = true → s.allCompared e.wave.team = true))) :
    e.enterCopy op hs hd tag arm = .ok (e.retireRegion (e.copyQueued op hs hd tag arm) e.st) := by
  have hready : (decide (s.storesOf e.key = []) && (decide (hKind hd = kLocal) || !s.readsOutstanding e.key)) = true := by
    obtain h | ⟨h, -⟩ := hglobal
    · simp [hstores, kLocal, h]
    · simp [hstores, h]
  have hpoint (h : ¬hKind hd = kLocal) : e.commitPoint e.s = .ok (if e.isContained then e.s.commit e.wave.team else e.s) := by
    obtain ⟨hreads, hcompared⟩ := hglobal.resolve_left h
    rw [env_s he]
    exact commitPoint_ok hreads hstores hcompared
  rw [← env_s he] at hready
  simp only [Env.enterCopy, hready, require_true, Env.told_of_alone ha, bind, Except.bind]
  unfold Env.copyQueued Env.copyListed Env.copyEntry Env.copyTaken Env.copyBase
  split
  · rfl
  · next h =>
    rw [hpoint h]
    rfl

/-! ### What it leaves -/

section
variable (hlocal : hKind hd = 1 ∨ e.isContained = false)
include hlocal

/-- A copy that commits nothing finds the machine as it is. -/
theorem Env.copyBase_plain : e.copyBase hd = e.s := by
  unfold Env.copyBase
  obtain h | h := hlocal
  · simp [h, kLocal]
  · simp [h]

end

theorem Env.copyBase_rest : (e.copyBase hd).banks = e.s.banks ∧ (e.copyBase hd).mem = e.s.mem := by
  obtain ⟨l, hl, -⟩ := e.s.commit_beneath_teams e.wave.team
  have hbanks : (e.s.commit e.wave.team).banks = e.s.banks := State.of_beneath hl State.banks fun _ => rfl
  unfold Env.copyBase
  by_cases h : hKind hd = kLocal
  · simp [h]
  · cases e.isContained <;> simp [h, hbanks, State.expose, State.modTeam]

/-- A commit with the exposure that goes with it. -/
theorem State.commit_expose_find {t : Nat} {team : Team} (h : s.teams.find t = some team) :
    ((s.commit t).expose t).teams.find t = some { team with buffer := [], exposed := true } := by
  have hexposed (u : State) : (u.expose t).teams.find t = (u.teams.find t).map fun x => { x with exposed := true } :=
    Tbl.find_change_same ..
  rw [hexposed]
  unfold State.commit
  simp only [h]
  split
  · next hempty =>
    have hbuffer : team.buffer = [] := List.isEmpty_iff.mp hempty
    rw [h, ← hbuffer]
    rfl
  · rw [State.of_beneath (State.sendStore_beneath ..) State.teams fun _ => rfl]
    exact congrArg (Option.map _) (Tbl.find_set_same ..)

theorem Env.copyTaken_besideCaches :
    (e.copyTaken op hs hd tag).besideCaches = (e.copyBase hd).besideCaches :=
  foldl_keeps (f := fun (s : State) (x : Nat × Nat) => s.takeLine e.cores x.1) State.besideCaches
    (fun t x => t.takeLine_besideCaches e.cores x.1) _ _

theorem Env.copyEntry_owned (hlocal : hKind hd = 1) : (e.copyEntry op hs hd tag).owned = [] := by
  simp [Env.copyEntry, Env.copyBlank, State.copyLines, hlocal, kLocal]

theorem Env.copyListed_bank : (e.copyListed op hs hd tag).bank e.engine =
    { e.s.bank e.engine with copies := (e.s.bank e.engine).copies ++ [e.copyEntry op hs hd tag] } := by
  have htaken : (e.copyTaken op hs hd tag).banks = e.s.banks :=
    (State.of_besideCaches Env.copyTaken_besideCaches State.banks fun _ => rfl).trans Env.copyBase_rest.1
  have hbank : (e.copyTaken op hs hd tag).fresh.2.bank e.engine = e.s.bank e.engine := by
    show (e.copyTaken op hs hd tag).banks.get e.engine Bank.reset = _
    rw [htaken]
    rfl
  rw [Env.copyListed, State.bank_modBank_same, hbank]

theorem Env.copyQueued_bank : ((e.copyQueued op hs hd tag arm).bank e.engine).copies =
      (e.s.bank e.engine).copies ++ [e.copyEntry op hs hd tag] ∧
    ((e.copyQueued op hs hd tag arm).bank e.engine).tag tag =
      (if arm then CopyTag.arm (.ofNat 32 (op.bytes hd)) else (e.s.bank e.engine).tag tag) := by
  have hlisted := Env.copyListed_bank (e := e) (op := op) (hs := hs) (hd := hd) (tag := tag)
  cases arm with
  | false => exact ⟨congrArg Bank.copies hlisted, (congrArg (fun b : Bank => b.tag tag) hlisted).trans rfl⟩
  | true =>
    have hset : ((e.copyListed op hs hd tag).setTag e.engine tag (CopyTag.arm (.ofNat 32 (op.bytes hd)))).bank e.engine = _ :=
      State.bank_modBank_same ..
    rw [hlisted] at hset
    exact ⟨congrArg Bank.copies hset, (congrArg (fun b : Bank => b.tag tag) hset).trans (Tbl.get_set_same ..)⟩

/-- What of the machine a copy's entry leaves as its commit point did. -/
theorem Env.copyQueued_rest {β : Type} (g : State → β) (hg : ∀ u : State, g u.besideCaches = g u)
    (hbank : ∀ (u : State) b f, g (u.modBank b f) = g u) : g (e.copyQueued op hs hd tag arm) = g (e.copyBase hd) := by
  have htaken : g (e.copyTaken op hs hd tag) = g (e.copyBase hd) := State.of_besideCaches Env.copyTaken_besideCaches g hg
  have hfresh : g (e.copyTaken op hs hd tag).fresh.2 = g (e.copyTaken op hs hd tag) := 
    State.of_besideCaches (t := (e.copyTaken op hs hd tag).fresh.2) (s := e.copyTaken op hs hd tag) rfl g hg
  have hlisted : g (e.copyListed op hs hd tag) = g (e.copyBase hd) := (hbank _ _ _).trans (hfresh.trans htaken)
  cases arm with
  | false => exact hlisted
  | true => exact (hbank _ e.engine fun x => { x with tags := x.tags.set tag (CopyTag.arm (.ofNat 32 (op.bytes hd))) }).trans hlisted

end

/-- What a copy that enters its engine leaves there, and to its team and its strand (R290, R292, R301, R305). -/
def Env.CopyEntered (e : Env) (s : State) (op : CopyOp) (hs hd : HRec) (tag : Nat) (m : BitVec 1) (o : Out) : Prop :=
  ∃ u c, o = .next u ∧ (u.bank e.engine).copies = (s.bank e.engine).copies ++ [c] ∧ c.op = op ∧ c.hs = hs ∧ c.hd = hd ∧
    c.tag = tag ∧ c.team = e.wave.team ∧ c.strand = e.key ∧ c.pol = e.policy hs ∧ c.landed = [] ∧ c.writes = [] ∧
    c.blocks = op.blocks hd ∧ c.stopped = none ∧ (hKind hd = 1 → c.owned = []) ∧
    (u.bank e.engine).tag tag = (if m = 1 then CopyTag.arm (.ofNat 32 (op.bytes hd)) else (s.bank e.engine).tag tag) ∧
    u.mem = s.mem ∧ u.strands.find e.key = some ((e.st.tick 1).startRegion e.st.pc) ∧
    ((hKind hd = 1 ∨ e.isContained = false) →
      u.teams = s.teams ∧ u.strands = s.strands.set e.key ((e.st.tick 1).startRegion e.st.pc)) ∧
    (hKind hd ≠ 1 → e.isContained = true → ∀ t, s.teams.find e.wave.team = some t →
      u.teams.find e.wave.team = some { t with buffer := [], exposed := true })

theorem Env.copyEntered_of_queued {s : State} {e : Env} {op : CopyOp} {hs hd : HRec} {tag : Nat} {m : BitVec 1} (he : s.env = some e) :
    e.CopyEntered s op hs hd tag m (.next (e.retireRegion (e.copyQueued op hs hd tag (m == 1)) e.st)) := by
  obtain ⟨hcopies, htag⟩ := Env.copyQueued_bank (e := e) (op := op) (hs := hs) (hd := hd) (tag := tag) (arm := m == 1)
  have hmem : (e.copyQueued op hs hd tag (m == 1)).mem = s.mem :=
    (Env.copyQueued_rest State.mem (fun _ => rfl) fun _ _ _ => rfl).trans (Env.copyBase_rest.2.trans (congrArg State.mem (env_s he)))
  have hteams := Env.copyQueued_rest (e := e) (op := op) (hs := hs) (hd := hd) (tag := tag) (arm := m == 1) State.teams
    (fun _ => rfl) fun _ _ _ => rfl
  have hstrands := Env.copyQueued_rest (e := e) (op := op) (hs := hs) (hd := hd) (tag := tag) (arm := m == 1) State.strands
    (fun _ => rfl) fun _ _ _ => rfl
  have hpc : (e.st.tick 1).pc = e.st.pc := Strand.pc_of_rest (Strand.rest_tick ..)
  rw [env_s he] at hcopies htag
  simp only [beq_iff_eq] at htag
  refine ⟨_, e.copyEntry op hs hd tag, rfl, hcopies, rfl, rfl, rfl, rfl, rfl, rfl, rfl, rfl, rfl, rfl, rfl,
    fun h => Env.copyEntry_owned h, htag, hmem, ?_, fun h => ⟨?_, ?_⟩, fun h hcontained t ht => ?_⟩
  · rw [← hpc]
    exact Tbl.find_set_same ..
  · rw [← env_s he, ← Env.copyBase_plain h]
    exact hteams
  · rw [← hpc, ← env_s he, ← Env.copyBase_plain h, ← hstrands]
    rfl
  · refine (congrArg (fun l : Tbl Team => l.find e.wave.team) hteams).trans ?_
    have hbase : e.copyBase hd = (s.commit e.wave.team).expose e.wave.team := by
      simp [Env.copyBase, kLocal, h, hcontained, env_s he]
    rw [hbase]
    exact State.commit_expose_find ht

/-! ### The commands -/

section
variable {s : State} {e : Env} {g : BitVec 6} {d h : BitVec 4} {a : BitVec 7} {m : BitVec 1} {tag : Nat} {hd hs : HRec}
  {x y z : Word}

/-- What the checks of a copy that come before its descriptor ask (R128, R250, R292, R294, R295). -/
structure CopyReady (s : State) (e : Env) (g : BitVec 6) (d h : BitVec 4) (a : BitVec 7) (tag : Nat) (hd hs : HRec) (x y z : Word) :
    Prop where
  env : s.env = some e
  alone : Alone e
  tag : e.tagNo g.toNat = .ok tag
  dest : e.hReg d.toNat = .ok hd
  source : e.hReg h.toNat = .ok hs
  reads : Reads e a.toNat x ∧ Reads e (a.toNat + 1) y ∧ Reads e (a.toNat + 2) z
  handles : copyHandle hd = true ∧ copyHandle hs = true
  may : hPermR hs = true ∧ hPermW hd = true
  room : (s.bank e.engine).copies.length < 64
  stores : s.storesOf e.key = []
  commits : hKind hd = 1 ∨ (s.readsOutstanding e.key = false ∧ (e.isContained = true → s.allCompared e.wave.team = true))

theorem readMany_three {n : Nat} (hr : Reads e n x ∧ Reads e (n + 1) y ∧ Reads e (n + 2) z) :
    e.readMany n 3 = .ok [(x, false), (y, false), (z, false)] := by
  obtain ⟨hx, hy, hz⟩ := hr
  simp only [Env.readMany, hx.2, hy.2, hz.2, bind, Except.bind, pure, Except.pure, both_ok]

section
variable {op : CopyOp} (hr : CopyReady s e g d h a tag hd hs x y z)
include hr

theorem CopyReady.exist : e.exist [a.toNat, a.toNat + 1, a.toNat + 2] = .ok () := by
  obtain ⟨hx, hy, hz⟩ := hr.reads
  exact exist_ok (by simp [has_of_reads hx, has_of_reads hy, has_of_reads hz])

theorem CopyReady.queue : decide ((s.bank e.engine).copies.length < Config.copyQueue) = true := decide_eq_true hr.room

theorem CopyReady.enters : e.enterCopy op hs hd tag (m == 1) = .ok (e.retireRegion (e.copyQueued op hs hd tag (m == 1)) e.st) :=
  enterCopy_enters hr.env hr.alone hr.stores hr.commits

theorem cpy_enters (hop : linearOp hs hd x y z e.scratchGrant = .ok op) :
    exec (.cpy g d h a m) s = .next (e.retireRegion (e.copyQueued op hs hd tag (m == 1)) e.st) := by
  rw [exec_cpy, execCpy, copy]
  refine runLane_ok hr.env ?_
  simp only [env_s hr.env, hr.queue, hr.exist, hr.tag, hr.dest, hr.source, hr.handles, hr.may, readMany_three hr.reads,
    Env.once_of_alone hr.alone, Bool.and_self, require_true, bind, Except.bind, List.getD_cons_zero, List.getD_cons_succ, hop]
  exact hr.enters

theorem tcpy_enters {b : Marked} (hdesc : e.descriptor z.toNat 128 = .ok b) (hclean : b.poisoned = false)
    (hop : tensorOp b.bytes hs hd x y e.scratchGrant = .ok op) :
    exec (.tcpy g d h a m) s = .next (e.retireRegion (e.copyQueued op hs hd tag (m == 1)) e.st) := by
  rw [exec_tcpy, execTcpy, copy]
  refine runLane_ok hr.env ?_
  simp only [env_s hr.env, hr.queue, hr.exist, hr.tag, hr.dest, hr.source, hr.handles, hr.may, readMany_three hr.reads,
    Env.once_of_alone hr.alone, Bool.and_self, require_true, bind, Except.bind, List.getD_cons_zero, List.getD_cons_succ, hdesc,
    hop, hclean]
  exact hr.enters

theorem chain_enters {b : Marked} (hdesc : e.descriptor z.toNat 160 = .ok b) (hclean : b.poisoned = false)
    (hop : chainOp b.bytes hs hd x y e.scratchGrant = .ok op) :
    exec (.chain g d h a m) s = .next (e.retireRegion (e.copyQueued op hs hd tag (m == 1)) e.st) := by
  rw [exec_chain, execChain, copy]
  refine runLane_ok hr.env ?_
  simp only [env_s hr.env, hr.queue, hr.exist, hr.tag, hr.dest, hr.source, hr.handles, hr.may, readMany_three hr.reads,
    Env.once_of_alone hr.alone, Bool.and_self, require_true, bind, Except.bind, List.getD_cons_zero, List.getD_cons_succ, hdesc,
    hop, hclean]
  exact hr.enters

end

theorem linearOp_ok {grant : Nat} (hn : 1 ≤ z.toNat) (hsrc : z.toNat % hEsize hs = 0) (hdst : z.toNat % hEsize hd = 0)
    (hfits : copyFits hs ((x.toNat * hEsize hs : Nat) : Int) (((x.toNat * hEsize hs : Nat) : Int) + z.toNat) grant = true)
    (hfits' : copyFits hd ((y.toNat * hEsize hd : Nat) : Int) (((y.toNat * hEsize hd : Nat) : Int) + z.toNat) grant = true) :
    linearOp hs hd x y z grant = .ok (.linear (x.toNat * hEsize hs) (y.toNat * hEsize hd) z.toNat) := by
  simp only [linearOp, hn, hsrc, hdst, hfits, hfits', and_self, decide_true, Bool.and_self, require_true, bind, Except.bind]
  rfl

end

end Sys2Proof.Machine
end
section
/-!
PROOFS. The tag instructions (R293, R294, R301, R303).
-/

namespace Sys2Proof.Machine

open Sys2Proof.Safety

/-! ### The ready bits of a team -/

/-- The sum of the powers of two at the places of a list that a test picks. -/
def placeBits {α : Type} (p : α → Bool) (l : List α) : Nat := (l.zipIdx.map fun x : α × Nat => if p x.1 then 2 ^ x.2 else 0).sum

theorem placeBits_concat {α : Type} (p : α → Bool) (l : List α) (y : α) :
    placeBits p (l ++ [y]) = placeBits p l + if p y then 2 ^ l.length else 0 := by
  simp [placeBits, List.zipIdx_append]

theorem placeBits_lt {α : Type} (p : α → Bool) (l : List α) : placeBits p l < 2 ^ l.length := by
  induction l using List.reverseRecOn with
  | nil => exact Nat.one_pos
  | append_singleton l y ih =>
    rw [placeBits_concat, List.length_append, List.length_singleton, Nat.pow_succ]
    split <;> omega

/-- Its bits are the answers of the test. -/
theorem testBit_placeBits {α : Type} (p : α → Bool) (l : List α) (k : Nat) :
    (placeBits p l).testBit k = (l[k]?.map p).getD false := by
  induction l using List.reverseRecOn with
  | nil => exact Nat.zero_testBit k
  | append_singleton l y ih =>
    have hlt := placeBits_lt p l
    obtain h | rfl | h := Nat.lt_trichotomy k l.length
    · rw [placeBits_concat, List.getElem?_append_left h, ← ih]
      split
      · rw [Nat.add_comm, Nat.testBit_two_pow_add_gt h]
      · rfl
    · have hnone : (placeBits p l).testBit l.length = false := Nat.testBit_lt_two_pow hlt
      rw [placeBits_concat, List.getElem?_concat_length, Option.map_some, Option.getD_some]
      cases p y with
      | true => rw [if_pos rfl, Nat.add_comm, Nat.testBit_two_pow_add_eq, hnone]; rfl
      | false => exact hnone
    · have hall := placeBits_lt p (l ++ [y])
      rw [List.getElem?_eq_none (by simpa using h), Option.map_none, Option.getD_none]
      refine Nat.testBit_lt_two_pow (hall.trans_le (Nat.pow_le_pow_right (by decide) ?_))
      simpa using h

theorem State.readyBits_testBit (s : State) (t : Team) (k : Nat) : (s.readyBits t).testBit k =
    (t.tags[k]?.map fun n => ((s.bank t.bank).tag n).ready).getD false :=
  testBit_placeBits (fun n => ((s.bank t.bank).tag n).ready) t.tags k

/-! ### A tag and a list of tags -/

theorem State.tag_setTag (s : State) (b n m : Nat) (x : CopyTag) :
    ((s.setTag b n x).bank b).tag m = if m = n then x else (s.bank b).tag m := by
  rw [State.setTag, State.bank_modBank_same]
  by_cases h : m = n
  · subst h
    rw [if_pos rfl]
    exact Tbl.get_set_same ..
  · rw [if_neg h]
    exact Tbl.get_set_other _ _ _ h

/-- The machine with the tags of a mask disarmed. -/
def State.tagsCleared (s : State) (b mask : Nat) (l : List (Nat × Nat)) : State :=
  l.foldl (fun s p => if mask.testBit p.2 then s.setTag b p.1 CopyTag.off else s) s

section
variable {s : State} {b mask : Nat}

theorem State.tagsCleared_strands (l : List (Nat × Nat)) : (s.tagsCleared b mask l).strands = s.strands :=
  foldl_keeps State.strands (fun t p => by split <;> rfl) l s

theorem State.tag_tagsCleared_other {l : List (Nat × Nat)} {n : Nat} (h : ∀ p ∈ l, p.1 = n → mask.testBit p.2 = false) :
    ((s.tagsCleared b mask l).bank b).tag n = (s.bank b).tag n := by
  unfold State.tagsCleared
  induction l generalizing s with
  | nil => rfl
  | cons p l ih =>
    rw [List.foldl_cons, ih fun q hq => h q (List.mem_cons_of_mem _ hq)]
    split
    · next hbit =>
      rw [State.tag_setTag, if_neg fun hn => ?_]
      rw [h p List.mem_cons_self hn.symm] at hbit
      cases hbit
    · rfl

theorem State.tag_tagsCleared {l : List (Nat × Nat)} {n k : Nat} (hn : (n, k) ∈ l) (hbit : mask.testBit k = true) :
    ((s.tagsCleared b mask l).bank b).tag n = CopyTag.off := by
  induction l using List.reverseRecOn with
  | nil => cases hn
  | append_singleton l p ih =>
    rw [State.tagsCleared, List.foldl_append, List.foldl_cons, List.foldl_nil]
    by_cases hp : p = (n, k)
    · subst hp
      rw [if_pos hbit, State.tag_setTag, if_pos rfl]
    · have hrest := ih ((List.mem_append.mp hn).resolve_right fun h => hp (List.mem_singleton.mp h).symm)
      rw [State.tagsCleared] at hrest
      split
      · rw [State.tag_setTag]
        split
        · rfl
        · exact hrest
      · exact hrest

end

/-! ### The instructions -/

/-- A strand whose TAGWAIT has not ended (R303): its result arrives as request `id`. -/
def Env.tagBlocked (e : Env) (id mask : Nat) (all : Bool) (a : Nat) : Strand :=
  let st := (e.st.awaitMany id a 2).tick 1
  { st.startRegion st.pc with life := .blocked (.tags mask all a id) }

theorem Env.tagBlocked_pc (e : Env) (id mask : Nat) (all : Bool) (a : Nat) : (e.tagBlocked id mask all a).pc = e.st.pc := by
  have hawait := Strand.pc_of_rest (Strand.awaitMany_rest e.st id a 2)
  exact (Strand.startRegion_pc _ ((e.st.awaitMany id a 2).tick 1).pc).trans ((Strand.pc_of_rest (Strand.rest_tick ..)).trans hawait)

section
variable {s : State} {e : Env} {g : BitVec 6} {a : BitVec 7} (hs : s.env = some e) (ha : Alone e)
include hs ha

omit hs in
theorem Env.giveRegion_of_alone (t : State) (d : Nat) (l : List Word) :
    e.giveRegion t d l = e.retireRegion t (e.put e.st d (l.map fun w => (w, false))) := by
  rw [Env.giveRegion, Env.offer_of_alone ha]

section
variable {tag : Nat} (htag : e.tagNo g.toNat = .ok tag)
include htag

theorem tagarm_arms {n : Word} (hn : Reads e a.toNat n) : exec (.tagarm g a) s =
    .next (if n = 0 then (e.retireRegion (s.setTag e.engine tag (CopyTag.arm n)) e.st).wakeTags e.wave.team
      else e.retireRegion (s.setTag e.engine tag (CopyTag.arm n)) e.st) := by
  rw [exec_tagarm, execTagarm]
  refine runLane_ok hs ?_
  simp only [exist_one hn, htag, use_ok hn, Env.once_of_alone ha, Env.told_of_alone ha, env_s hs, bind, Except.bind]
  rfl

theorem tagrd_reads (hregs : ∀ m ∈ [a.toNat, a.toNat + 1, a.toNat + 2], Has e m) : exec (.tagrd g a) s =
    .next (e.retireRegion s (e.put e.st a.toNat [(((s.bank e.engine).tag tag).remaining, false),
      (((s.bank e.engine).tag tag).expected, false), (((s.bank e.engine).tag tag).status, false)])) := by
  rw [exec_tagrd, execTagrd]
  refine runLane_ok hs ?_
  simp only [exist_ok hregs, htag, Env.once_of_alone ha, Env.giveRegion_of_alone ha, env_s hs, bind, Except.bind]
  rfl

end

section
variable {x : Dword} {t : Team} (hx : ReadsPair e a.toNat x) (ht : e.team = some t) (hmask : x.toNat < 2 ^ t.tags.length)
include hx ht hmask

omit hs ha in
theorem tagMask_ok : e.tagMask a.toNat = .ok x.toNat := by
  simp only [Env.tagMask, readPair_ok hx, ht, Option.map_some, Option.getD_some, hmask, decide_true, require_true, Bool.not_false,
    bind, Except.bind]
  rfl

theorem tagwait_eq (all : Bool) : tagwait s a all = .next
    (if tagsEnd x.toNat (x.toNat &&& e.readyBits) all then
      e.retireRegion s (e.put e.st a.toNat
        [(.ofNat 32 (x.toNat &&& e.readyBits), false), (.ofNat 32 ((x.toNat &&& e.readyBits) / 2 ^ 32), false)])
    else s.fresh.2.setStrand e.key (e.tagBlocked s.nextId x.toNat all a.toNat)) := by
  rw [tagwait]
  refine runLane_ok hs ?_
  simp only [exist_pair hx, tagMask_ok hx ht hmask, Env.once_of_alone ha, Env.giveRegion_of_alone ha, Env.offer_of_alone ha,
    env_s hs, bind, Except.bind]
  split <;> rfl

theorem tagff_finds : exec (.tagff a) s =
    .next (e.retireRegion s (e.put e.st a.toNat [(.ofNat 32 (lowestBit (x.toNat &&& e.readyBits)), false)])) := by
  rw [exec_tagff, execTagff]
  refine runLane_ok hs ?_
  simp only [exist_pair hx, tagMask_ok hx ht hmask, Env.once_of_alone ha, Env.giveRegion_of_alone ha, env_s hs, bind,
    Except.bind]
  rfl

theorem tagclr_clears : exec (.tagclr a) s =
    .next (e.retireRegion (s.tagsCleared e.engine x.toNat t.tags.zipIdx) e.st) := by
  rw [exec_tagclr, execTagclr]
  refine runLane_ok hs ?_
  simp only [exist_pair hx, tagMask_ok hx ht hmask, Env.once_of_alone ha, Env.told_of_alone ha, env_s hs, ht, bind, Except.bind]
  rfl

end
end

theorem lowestBit_of {x k : Nat} (hk : k < 64) (hbit : x.testBit k = true) (hlow : ∀ j < k, x.testBit j = false) :
    lowestBit x = k := by
  have hfind : (List.range 64).find? (fun k => x.testBit k) = some k :=
    List.find?_range_eq_some.mpr ⟨hbit, List.mem_range.mpr hk, fun j hj => by rw [hlow j hj]; rfl⟩
  rw [lowestBit, hfind]
  rfl

theorem lowestBit_zero : lowestBit 0 = 64 := by decide

theorem CopyTag.arm_of_ne {n : Word} (h : n ≠ 0) : CopyTag.arm n = ⟨n, n, true, false, 0⟩ := by
  rw [CopyTag.arm, decide_eq_true h, decide_eq_false h]

/-- A wait of `mask` that does not end blocks its strand alone. -/
theorem tagwait_blocks {s : State} {e : Env} {a : BitVec 7} {x : Dword} {t : Team} (hs : s.env = some e) (ha : Alone e)
    (hx : ReadsPair e a.toNat x) (ht : e.team = some t) (hmask : x.toNat < 2 ^ t.tags.length) {all : Bool}
    (hend : tagsEnd x.toNat (x.toNat &&& e.readyBits) all = false) :
    ∃ u st, tagwait s a all = .next u ∧ u.mem = s.mem ∧ u.strands = s.strands.set e.key st ∧
      (∃ all id, st.life = .blocked (.tags x.toNat all a.toNat id)) ∧ st.pc = e.st.pc := by
  have hexec := tagwait_eq hs ha hx ht hmask all
  rw [hend, if_neg Bool.false_ne_true] at hexec
  exact ⟨_, e.tagBlocked s.nextId x.toNat all a.toNat, hexec, rfl, rfl, ⟨all, s.nextId, rfl⟩, e.tagBlocked_pc ..⟩

/-- Settles O33: a copy's checks and its entry, and each tag instruction. -/
theorem copyAndTags : Obligations.CopyAndTags := by
  refine ⟨?_, fun s e hs ha => ⟨fun g a tag htag => ⟨fun n hn hr => ?_, fun hr => ?_, fun h0 h1 h2 => ?_⟩,
    fun a x t hx ht hmask => ⟨fun h => ?_, fun h => ?_, fun hne h => ?_, fun h => ?_, fun k hk hbit hlow => ?_, fun h => ?_, ?_⟩,
    fun t ht k => ?_⟩⟩
  · intro s e g d h a m tag hd hs x y z he ha htag hdest hsource hx hy hz hhandle hhandle' hread hwrite hroom hstores hcommits enters
    have hready : CopyReady s e g d h a tag hd hs x y z :=
      ⟨he, ha, htag, hdest, hsource, ⟨hx, hy, hz⟩, ⟨hhandle, hhandle'⟩, ⟨hread, hwrite⟩, hroom, hstores, hcommits⟩
    have hentered (i : Instr) (op : CopyOp)
        (hexec : exec i s = .next (e.retireRegion (e.copyQueued op hs hd tag (m == 1)) e.st)) : enters i op := by
      have h : e.CopyEntered s op hs hd tag m (exec i s) := by
        rw [hexec]
        exact Env.copyEntered_of_queued he
      exact h
    refine ⟨fun hn hsrc hdst hfits hfits' => ?_, fun b op hdesc hclean hop => ?_, fun b op hdesc hclean hop => ?_⟩
    · exact hentered _ _ (cpy_enters hready (linearOp_ok hn hsrc hdst hfits hfits'))
    · exact hentered _ _ (tcpy_enters hready hdesc hclean hop)
    · exact hentered _ _ (chain_enters hready hdesc hclean hop)
  · rw [tagarm_arms hs ha htag hr, if_neg hn, CopyTag.arm_of_ne hn]
  · rw [tagarm_arms hs ha htag hr, if_pos rfl]
    rfl
  · exact tagrd_reads hs ha htag (by simp [h0, h1, h2])
  · rw [exec_tagwaitAny, execTagwaitAny, tagwait_eq hs ha hx ht hmask, if_pos]
    obtain rfl | h := h
    · rfl
    · simp [tagsEnd, h]
  · rw [exec_tagwaitAll, execTagwaitAll, tagwait_eq hs ha hx ht hmask, if_pos]
    obtain rfl | h := h
    · rfl
    · simp [tagsEnd, h]
  · have hmask0 : x.toNat ≠ 0 := fun h0 => hne (BitVec.eq_of_toNat_eq h0)
    exact tagwait_blocks hs ha hx ht hmask (by simp [tagsEnd, hmask0, h])
  · have hmask0 : x.toNat ≠ 0 := fun h0 => h (by rw [h0, Nat.zero_and])
    exact tagwait_blocks hs ha hx ht hmask (by simp [tagsEnd, hmask0, h])
  · rw [tagff_finds hs ha hx ht hmask, lowestBit_of hk hbit hlow]
  · rw [tagff_finds hs ha hx ht hmask, h]
    rfl
  · refine ⟨_, tagclr_clears hs ha hx ht hmask, ?_, fun k n hk hbit => ?_, fun n hn => ?_⟩
    · have hpc : (e.st.tick 1).pc = e.st.pc := Strand.pc_of_rest (Strand.rest_tick ..)
      rw [← hpc, ← State.tagsCleared_strands (s := s) t.tags.zipIdx]
      rfl
    · exact State.tag_tagsCleared (List.mk_mem_zipIdx_iff_getElem?.mpr hk) hbit
    · exact State.tag_tagsCleared_other fun p hp hpn => hn p.2 (hpn ▸ List.mem_zipIdx_iff_getElem?.mp hp)
  · have hbits : e.readyBits = s.readyBits t := by rw [Env.readyBits, ht, env_s hs]
    rw [hbits, State.readyBits_testBit]
    cases t.tags[k]? <;> rfl

end Sys2Proof.Machine
end
section
/-!
PROOFS. A tick of the gatherer over a state whose table of strands names one strand twice (R98, R287).
-/

namespace Sys2Proof.Machine

open Sys2Proof.Safety

/-- A strand that is Blocked in REFILL. -/
def refillStrand : Strand := { Strand.fresh 4096 true 0 with life := .blocked (.refill 0) }

/-- A task of grid 0, whose entry has no budget word in the empty memory. -/
def pooledTask (record : Nat) : Task := { grid := 0, entry := 4096, record := record, born := 0 }

/-- Strand 0 is Blocked in REFILL, and a second entry of its number is Ready; the pool of its cluster holds two tasks of its grid. -/
def gatheringState : State :=
  { State.reset with
    strands := [(0, refillStrand), (0, Strand.fresh 4096 true 0)], waves := [(0, Wave.fresh 1 1 0 0 0 32)]
    teams := [(0, Team.fresh 0 0 0 [0] 0 [] [])], grids := [(0, placedGrid)]
    clusters := [(0, { State.reset.cluster 0 with pool := [pooledTask 0, pooledTask 64] })] }

/-- The state in which the strand looks at its core's item queue, once the first task is there. -/
def itemsState : State :=
  ((gatheringState.modCluster 0 fun c => { c with pool := [pooledTask 64] }).modCore 0 fun c =>
    { c with items := [pooledTask 0] }).wake 0

/-- The lane of the strand there. -/
def refillLane : Env :=
  { s := itemsState, key := 0, st := { refillStrand with pc := 4, life := .ready, handles := none, solo := false, wait := 0 },
    waveKey := 0, wave := Wave.fresh 1 1 0 0 0 32, bankKey := 0, bank := Bank.reset, here := 0, hints := {}, hs := none }

/-- The tasks that the pool of a cluster holds in the state that an outcome gives. -/
def poolAfter (o : Out) (cl : Nat) : Option (List Task) :=
  match o with
  | .next u => some (u.cluster cl).pool
  | _ => none

theorem gatherTick_takes_both : poolAfter (exec (.gatherTick 0) gatheringState) 0 = some [] := by decide

theorem refillLane_env : ({ itemsState with cur := { itemsState.cur with strand := 0 } } : State).env = some refillLane := rfl

theorem refillLane_fitting : refillLane.fitting refillLane.codeWord [pooledTask 0] = .ok none := by decide

/-- Refutes O37: the clause of a core with one strand Blocked in REFILL counts the entries of the table of strands, and does not ask
that their numbers differ. In `gatheringState` the strand's number stands there twice, and the tick moves a task to the item queue
for each: both tasks leave the pool, where the clause keeps the second. -/
theorem not_taskResults : ¬ Obligations.TaskResults := by
  rintro ⟨⟨-, -, -, htick⟩, -⟩
  obtain ⟨-, hstays, -⟩ := htick gatheringState 0 0 refillStrand (pooledTask 0) refillLane 0 (by decide) rfl rfl rfl rfl rfl rfl
    (by decide) refillLane_env
  obtain ⟨u, hexec, -, hpool, -⟩ := hstays refillLane_fitting ⟨pooledTask 64, List.mem_singleton.mpr rfl, rfl⟩
  have hboth : poolAfter (.next u) 0 = some [] := hexec ▸ gatherTick_takes_both
  have hone : poolAfter (.next u) 0 = some [pooledTask 64] := congrArg some hpool
  exact absurd (hboth.symm.trans hone) (by decide)

end Sys2Proof.Machine
end
section
/-!
PROOFS. An ATOM of a redundant pair through a handle of quantized data, which is ILLOP (R129, R266, R268).
-/

namespace Sys2Proof.Machine

open Sys2Proof.Safety

/-- A valid handle of quantized data: one 4-byte element at address 0, which atomics may reach (R118). -/
def quantRecord : HRec := .ofNat _ (2 ^ 32 + 2 ^ 10 + 2 * 2 ^ 5 + 3 * 2 ^ 3)

theorem quantRecord_valid : hValid quantRecord = true := by decide

/-- The leading wave of a redundant pair, whose trailing wave is wave 1; it holds the handle in h0. -/
def leadingWave : Wave := { Wave.fresh 1 1 0 0 0 8 with h := [(0, quantRecord)], partner := some 1 }

/-- Lane 0 of the leading wave executes. -/
def leadingState : State :=
  { State.reset with
    strands := [(0, Strand.fresh 4096 true 0)], waves := [(0, leadingWave)]
    teams := [(0, Team.fresh 0 0 0 [0, 1] 0 [] [])], grids := [(0, placedGrid)] }

/-- The lane that executes there. -/
def leadingLane : Env :=
  { s := leadingState, key := 0, st := { Strand.fresh 4096 true 0 with pc := 4, life := .ready, handles := none, solo := false, wait := 0 },
    waveKey := 0, wave := leadingWave, bankKey := 0, bank := Bank.reset, here := 0, hints := {}, hs := none }

theorem leadingLane_env : leadingState.env = some leadingLane := rfl

theorem leadingLane_element : AtomicElement leadingLane 0 0 2 1 quantRecord 0 [(0, false)] := by
  refine ⟨by decide, rfl, ⟨show (2 : Nat) < 8 by decide, rfl⟩, by decide, by decide, fun k hk => ?_, rfl, rfl, rfl⟩
  have hone : atomicRegs 0 (hEsize quantRecord) = 1 := by decide
  obtain rfl : k = 0 := by omega
  exact show (1 : Nat) < 8 by decide

theorem leadingLane_locate : leadingLane.locate quantRecord 0 2 = .ok (.glob 0) := by decide

theorem quantAtomic_aborts : lifeAfter (exec (.aadd 0 1 0 2 0) leadingState) 0 = none := by decide

/-- Refutes O55: `request` asks of an ATOM that its element is located in global memory, and leaves out that its handle is of kind
global or local. Through a handle of quantized data, which `locate` takes to global memory too, the ATOM is ILLOP: in `leadingState`
it aborts the grid, where the clause has the leading lane wait for the comparison. -/
theorem not_redundantMode : ¬ Obligations.RedundantMode := by
  rintro ⟨-, hperformed, -⟩
  obtain ⟨hwaits, -⟩ := hperformed leadingState leadingLane (.aadd 0 1 0 2 0) _ leadingLane_env
    (.inr ⟨0, 0, 1, 0, 2, 0, quantRecord, 0, [(0, false)], 0, rfl, leadingLane_element, leadingLane_locate, rfl⟩)
  have hexec := hwaits (Strand.fresh 4096 true 0) rfl rfl rfl Life.noConfusion (by decide)
  have haborts := quantAtomic_aborts
  rw [hexec] at haborts
  cases haborts

end Sys2Proof.Machine
end
section
/-!
PROOFS. The pieces of a block of a linear copy and the bytes that they bring (R296, R304, R306).
-/

namespace Sys2Proof.Machine

open Sys2Proof.Safety

/-! ### The pieces of a run -/

/-- The bytes of a piece: their places at the source and at the destination. -/
def Piece.places (p : Piece) : List (Nat × Nat) := (List.range p.dn).map fun j => (p.src + j, p.dst + j)

/-- Bytes of one sector of a handle's data follow one another. -/
theorem copyAddr_add (h : HRec) (off : Nat) {j : Nat} (hj : j < 64 - copyAddr h off % 64) :
    copyAddr h (off + j) = copyAddr h off + j := by
  unfold copyAddr at hj ⊢
  split
  · omega
  · next hglobal =>
    rw [if_neg hglobal] at hj
    omega

theorem List.range_map_append {α : Type} (f : Nat → α) (k n : Nat) :
    (List.range k).map f ++ (List.range n).map (fun i => f (k + i)) = (List.range (k + n)).map f := by
  rw [List.range_add, List.map_append, List.map_map]
  rfl

/-- The pieces of a run hold its bytes, in their order. -/
theorem cutLinear_places (hs hd : HRec) (fuel src dst : Nat) {n : Nat} (hn : n ≤ fuel) :
    (cutLinear hs hd fuel src dst n).flatMap Piece.places =
      (List.range n).map fun i => (copyAddr hs (src + i), copyAddr hd (dst + i)) := by
  induction fuel generalizing src dst n with
  | zero =>
    obtain rfl : n = 0 := by omega
    rfl
  | succ fuel ih =>
    unfold cutLinear
    split
    · next h0 => rw [h0]; rfl
    · next h0 =>
      dsimp only
      generalize hk : min n (min (64 - copyAddr hs src % 64) (64 - copyAddr hd dst % 64)) = k
      have hlt (x : Nat) : x % 64 < 64 := Nat.mod_lt _ (by decide)
      have hs0 := hlt (copyAddr hs src)
      have hd0 := hlt (copyAddr hd dst)
      rw [List.flatMap_cons, ih (src + k) (dst + k) (n := n - k) (by omega)]
      have hfirst : Piece.places ⟨copyAddr hs src, k, copyAddr hd dst, k, 0⟩ =
          (List.range k).map fun i => (copyAddr hs (src + i), copyAddr hd (dst + i)) := by
        refine List.map_congr_left fun j hj => ?_
        have hj : j < k := List.mem_range.mp hj
        rw [copyAddr_add hs src (j := j) (by omega), copyAddr_add hd dst (j := j) (by omega)]
      rw [hfirst]
      have hrest : n = k + (n - k) := by omega
      conv_rhs => rw [hrest, ← List.range_map_append]
      simp only [Nat.add_assoc]

/-- A piece of a run: where it begins in the run, and its bytes follow one another at the destination. -/
theorem mem_cutLinear {hs hd : HRec} {fuel src dst n : Nat} {p : Piece} (hp : p ∈ cutLinear hs hd fuel src dst n) :
    p.sn = p.dn ∧ 0 < p.dn ∧ ∃ off, off + p.dn ≤ n ∧ ∀ j < p.dn, copyAddr hd (dst + off + j) = p.dst + j := by
  induction fuel generalizing src dst n with
  | zero => cases hp
  | succ fuel ih =>
    unfold cutLinear at hp
    split at hp
    · cases hp
    · next h0 =>
      dsimp only at hp
      generalize hk : min n (min (64 - copyAddr hs src % 64) (64 - copyAddr hd dst % 64)) = k at hp
      have hlt (x : Nat) : x % 64 < 64 := Nat.mod_lt _ (by decide)
      have hs0 := hlt (copyAddr hs src)
      have hd0 := hlt (copyAddr hd dst)
      rcases List.mem_cons.mp hp with rfl | hp
      · exact ⟨rfl, by dsimp only; omega, 0, by dsimp only; omega, fun j hj => copyAddr_add hd dst (by dsimp only at hj; omega)⟩
      · obtain ⟨hsn, hdn, off, hoff, hdst⟩ := ih hp
        exact ⟨hsn, hdn, k + off, by omega, fun j hj => by rw [← hdst j hj]; congr 1; omega⟩

end Sys2Proof.Machine
end

section
/-!
PROOFS. A block of a linear copy from scratch: what is read, and what it becomes (R296, R302, R304).
-/

namespace Sys2Proof.Machine

open Sys2Proof.Safety

theorem List.mapM_eq_ok {α β ε : Type} {f : α → Except ε β} {g : α → β} {l : List α} (h : ∀ a ∈ l, f a = .ok (g a)) :
    l.mapM f = .ok (l.map g) := by
  induction l with
  | nil => rfl
  | cons a l ih =>
    rw [List.mapM_cons, h a List.mem_cons_self, ih fun b hb => h b (List.mem_cons_of_mem _ hb)]
    rfl

section
variable {s : State} {c : Copy} {src dst n k : Nat}

/-- The pieces of a linear copy from scratch bring the bytes that stand there. -/
theorem copyRead_scratch (hop : c.op = .linear src dst n) (hlocal : hKind c.hs = kLocal) (w : Piece → Bool) (l : List Piece) :
    s.copyRead c (l.map fun p => (p, w p)) = .ok (l.map fun p => ⟨s.scratchRead c.team p.src p.sn, 0⟩, s) := by
  induction l with
  | nil => rfl
  | cons p l ih =>
    simp only [List.map_cons, State.copyRead, State.copyFrom, hlocal, decide_true, if_true, hop]
    show (s.copyRead c (l.map fun p => (p, w p)) >>= fun x => pure (⟨s.scratchRead c.team p.src p.sn, 0⟩ :: x.1, x.2)) = _
    rw [ih]
    rfl

/-- A byte of scratch that a copy brings, with its places. -/
def scratchByte (t : Team) (x : Nat × Nat) : CopyByte := (x.1, x.2, t.scratch.get x.1 0, false)

theorem scratchByte_piece {t : Team} (hclean : t.poisonWords = []) {p : Piece} (hsn : p.sn = p.dn) :
    ((t.scratchRead p.src p.sn).zipIdx.map fun b => (p.src + b.2, p.dst + b.2, b.1.1, b.1.2)) = p.places.map (scratchByte t) := by
  refine List.ext_getElem (by simp [Team.scratchRead, span, Piece.places, hsn]) fun j _ _ => ?_
  simp [Team.scratchRead, span, Piece.places, scratchByte, hclean]

end

end Sys2Proof.Machine
end

section
/-!
PROOFS. A block of a linear copy from scratch as one equation: what `landBlock` gives for it (R302, R304).
-/

namespace Sys2Proof.Machine

open Sys2Proof.Safety

theorem List.zip_map_self {α β : Type} (f : α → β) (l : List α) : l.zip (l.map f) = l.map fun a => (a, f a) := by
  simpa using List.zip_map' (f := id) (g := f) (l := l)

section
variable {s : State} {c : Copy} {src dst n k : Nat} {t : Team}

/-- The bytes of a block of a linear copy from scratch. -/
def scratchBytes (t : Team) (c : Copy) (k : Nat) : List CopyByte := ((c.pieces k).flatMap Piece.places).map (scratchByte t)

theorem postedBefore_no_windows (h : c.windows = []) : s.postedBefore c = false := by
  simp [State.postedBefore, h]

theorem overwritten_linear (hop : c.op = .linear src dst n) (p : Piece) : c.overwritten k p = false := by
  simp [Copy.overwritten, hop]

/-- The places at which a block's pieces stand. -/
def pieceBytes (f : Piece → Option Nat) (p : Piece) : Option (Nat × Nat) := (f p).map fun pa => (pa, p.dn)

/-- Where a block places a byte of its destination. -/
def blockPlace (f : Piece → Option Nat) (l : List Piece) (v : Nat) : Nat :=
  (l.findSome? fun p => if p.dst ≤ v ∧ v < p.dst + p.dn then (f p).map fun pa => pa + (v - p.dst) else none).getD v

theorem landBlock_scratch (hop : c.op = .linear src dst n) (hlocal : hKind c.hs = kLocal) (ht : s.teams.find c.team = some t)
    (hclean : t.poisonWords = []) (hwindows : c.windows = []) (hafter : s.awaits c.after false = false)
    (hpieces : ∀ p ∈ c.pieces k, p.sn = p.dn) {f : Piece → Option Nat} (hdsts : ∀ p ∈ c.pieces k, s.copyTo c p.dst = .ok (f p))
    (hapart : s.overlapped c (scratchBytes t c k) = (scratchBytes t c k, s)) (hcrc : s.crcFailed c = false) :
    s.landBlock c k =
      if hKind c.hd = kLocal then
        .ok (s.landLocal c.team ((scratchBytes t c k).map fun b => (b.2.1, b.2.2.1, b.2.2.2)), ⟨((c.pieces k).map (·.dn)).sum, 0, []⟩)
      else
        let counts := (c.pieces k).filterMap (pieceBytes f)
        let memory := (counts.filter fun x => !isWindow x.1).foldl (fun l x => own l (lineOf x.1) x.2) []
        let cells : List Host.Cell :=
          ((scratchBytes t c k).map fun b => (blockPlace f (c.pieces k) b.2.1, b.2.2.1)).filter fun x => !isWindow x.1
        let left := memory.foldl (fun (acc : List CopyWrite × State) l =>
          let x := acc.2.leaveFor c k l.1 (cells.filter fun x => lineOf x.1 = l.1) l.2 0 false
          (acc.1 ++ [x.1], x.2)) ([], s)
        .ok (left.2, ⟨((counts.filter fun x => isWindow x.1).map (·.2)).sum, 0, left.1⟩) := by
  have hread : s.scratchRead c.team = t.scratchRead := by funext off n; simp [State.scratchRead, ht]
  unfold State.landBlock
  simp only [postedBefore_no_windows hwindows, hafter, Bool.not_false, Bool.and_self, require, if_true]
  rw [List.mapM_eq_ok hdsts]
  simp only [bind, Except.bind, List.map_map, List.zip_map_self]
  rw [copyRead_scratch hop hlocal]
  simp only [List.zip_map', List.zip_map_self, overwritten_linear hop, Bool.not_false, List.filter_true]
  have hbytes : ((c.pieces k).map fun p => (p, f p, (⟨s.scratchRead c.team p.src p.sn, 0⟩ : Brought))).flatMap (fun x =>
      x.2.2.bytes.zipIdx.map fun b => (x.1.src + b.2, x.1.dst + b.2, b.1.1, b.1.2)) = scratchBytes t c k := by
    rw [hread, scratchBytes, List.flatMap_map, List.map_flatMap, List.flatMap_def, List.flatMap_def]
    exact congrArg List.flatten (List.map_congr_left fun p hp => scratchByte_piece hclean (hpieces p hp))
  have hflags (l : List Piece) : (l.map fun p => (⟨s.scratchRead c.team p.src p.sn, 0⟩ : Brought)).foldl (fun g x => g ||| x.flags) 0
      = 0 := by
    induction l with
    | nil => rfl
    | cons p l ih => simpa using ih
  have hpoison : (scratchBytes t c k).any (fun x => x.2.2.2) = false := by
    simp [scratchBytes, scratchByte]
  simp only [hbytes, hapart, hcrc, hflags, hpoison, Bool.or_false, Bool.not_false, if_true, ite_self, List.findSome?_map, List.filterMap_map]
  rfl
end

end Sys2Proof.Machine
end

section
/-!
PROOFS. Bytes of a copy that land: scratch that is written run by run, and the tag that counts down (R302, R303).
-/

namespace Sys2Proof.Machine

open Sys2Proof.Safety

/-! ### What the wait of a tag leaves as it is -/

/-- The machine without its strands and without what wakes may change. -/
def State.besideStrands (s : State) : State := { s.beneath with strands := [] }

theorem State.of_besideStrands {β : Type} {s t : State} (h : t.besideStrands = s.besideStrands) (g : State → β)
    (hg : ∀ u : State, g u.besideStrands = g u) : g t = g s := by
  rw [← hg t, h, hg]

theorem State.besideStrands_of_beneath {s t : State} (h : t.beneath = s.beneath) : t.besideStrands = s.besideStrands := by
  rw [State.besideStrands, State.besideStrands, h]

theorem State.modStrand_besideStrands (s : State) (k : Nat) (f : Strand → Strand) :
    (s.modStrand k f).besideStrands = s.besideStrands := rfl

@[simp] theorem State.wakeTags_besideStrands (s : State) (team : Nat) : (s.wakeTags team).besideStrands = s.besideStrands := by
  unfold State.wakeTags
  split
  · rfl
  · refine (foldl_keeps State.besideStrands (fun t k => ?_) _ _).trans (State.besideStrands_of_beneath (s.wake_beneath _))
    split
    · split
      · dsimp only
        split
        · exact (State.besideStrands_of_beneath (State.wake_beneath ..)).trans
            ((State.modStrand_besideStrands ..).trans (State.modStrand_besideStrands ..))
        · rfl
      · rfl
    · rfl

/-! ### The tag of a copy -/

/-- A tag that `n` bytes have counted down. -/
def CopyTag.counted (t : CopyTag) (n : Nat) : CopyTag :=
  let left := t.remaining - .ofNat 32 n
  { t with remaining := left, ready := decide (left = 0), armed := decide (left ≠ 0) }

section
variable {s : State} {b n : Nat} {c : Copy}

theorem State.bank_changeCopy_tags (s : State) (b id : Nat) (f : Copy → Copy) :
    ((s.changeCopy b id f).bank b).tags = (s.bank b).tags := by
  rw [State.changeCopy, State.modBank, State.bank_setBank_same]

theorem State.bank_finishCopy_tags (s : State) (b id : Nat) : ((s.finishCopy b id).bank b).tags = (s.bank b).tags := by
  rw [State.finishCopy, State.modBank, State.bank_setBank_same]

theorem tagCount_counts (harmed : ((s.bank b).tag c.tag).armed = true) (hn : n ≤ ((s.bank b).tag c.tag).remaining.toNat) :
    ((s.tagCount b c n 0).bank b).tag c.tag = ((s.bank b).tag c.tag).counted n ∧ (s.tagCount b c n 0).mem = s.mem ∧
      (s.tagCount b c n 0).teams = s.teams := by
  have hflags (f : Flags) : f ||| 0 = f := by simp
  have hgo : ¬(((s.bank b).tag c.tag).armed = false ∨ ((s.bank b).tag c.tag).remaining.toNat < n) := by
    rw [harmed]; simp; omega
  unfold State.tagCount
  rw [if_neg hgo]
  dsimp only
  generalize hu : s.setTag b c.tag _ = u
  have htag : (u.bank b).tag c.tag = ((s.bank b).tag c.tag).counted n := by
    rw [← hu, State.tag_setTag, if_pos rfl, hflags]
    rfl
  have hmem : u.mem = s.mem := by rw [← hu]; rfl
  have hteams : u.teams = s.teams := by rw [← hu]; rfl
  split
  · have hwake := u.wakeTags_besideStrands c.team
    have hbanks : (u.wakeTags c.team).banks = u.banks := State.of_besideStrands hwake State.banks fun _ => rfl
    refine ⟨?_, (State.wakeTags_mem ..).trans hmem, (State.of_besideStrands hwake State.teams fun _ => rfl).trans hteams⟩
    rw [State.bank, hbanks]
    exact htag
  · exact ⟨htag, hmem, hteams⟩

/-- Bytes that land count, and change neither memory nor a team. -/
theorem landBytes_counts (line : Nat) (h0 : n ≠ 0) (harmed : ((s.bank b).tag c.tag).armed = true)
    (hn : n ≤ ((s.bank b).tag c.tag).remaining.toNat) :
    ((s.landBytes b c line n 0).bank b).tag c.tag = ((s.bank b).tag c.tag).counted n ∧
      (s.landBytes b c line n 0).mem = s.mem ∧ (s.landBytes b c line n 0).teams = s.teams := by
  unfold State.landBytes
  rw [if_neg h0]
  have htag : (((s.changeCopy b c.id fun c => { c with owned := disown c.owned line n }).finishCopy b c.id).bank b).tag c.tag =
      (s.bank b).tag c.tag := by
    rw [Bank.tag, State.bank_finishCopy_tags, State.bank_changeCopy_tags]
    rfl
  have hcounts := tagCount_counts (s := (s.changeCopy b c.id fun c => { c with owned := disown c.owned line n }).finishCopy b c.id)
    (c := c) (htag ▸ harmed) (htag ▸ hn)
  rw [htag] at hcounts
  exact hcounts

end

end Sys2Proof.Machine
end

section
/-!
PROOFS. What a copy writes into scratch (R302, R306): its bytes, run by run of one word, each where it belongs.
-/

namespace Sys2Proof.Machine

open Sys2Proof.Safety

/-! ### Runs of one word -/

/-- Bytes at places that follow one another. -/
def Consecutive (l : List (Nat × Byte × Bool)) : Prop := l.IsChain fun x y => x.1 + 1 = y.1

theorem flatten_wordRuns (l : List (Nat × Byte × Bool)) : (wordRuns l).flatten = l := by
  induction l with
  | nil => rfl
  | cons x l ih =>
    simp only [wordRuns]
    split
    · next y r rest h =>
      rw [h] at ih
      split <;> simpa using ih
    · simpa using ih

theorem consecutive_wordRuns (l : List (Nat × Byte × Bool)) : ∀ r ∈ wordRuns l, Consecutive r := by
  induction l with
  | nil => nofun
  | cons x l ih =>
    simp only [wordRuns]
    have hone : Consecutive [x] := List.isChain_singleton x
    split
    · next y r rest h =>
      rw [h] at ih
      obtain ⟨hfirst, hrest⟩ := List.forall_mem_cons.mp ih
      split
      · next hjoin => exact List.forall_mem_cons.mpr ⟨hfirst.cons_cons hjoin.1, hrest⟩
      · exact List.forall_mem_cons.mpr ⟨hone, ih⟩
    · exact List.forall_mem_cons.mpr ⟨hone, ih⟩

/-- A run is the cells of a write at its first place. -/
theorem runCells_of_consecutive {x : Nat × Byte × Bool} {r : List (Nat × Byte × Bool)} (h : Consecutive (x :: r)) :
    runCells x.1 ((x :: r).map (·.2)) = x :: r := by
  induction r generalizing x with
  | nil => simp [runCells, span]
  | cons y r ih =>
    obtain ⟨hxy, hrest⟩ := List.isChain_cons_cons.mp h
    have hspan : span x.1 ((r.map (·.2)).length + 2) = x.1 :: span y.1 ((r.map (·.2)).length + 1) := by
      rw [span, List.range_succ_eq_map, List.map_cons, List.map_map, ← hxy, span]
      simp [Function.comp_def, Nat.add_comm, Nat.add_left_comm]
    have htail := ih hrest
    rw [runCells, List.map_cons, List.map_cons, List.length_cons, List.length_cons, hspan, List.zip_cons_cons]
    rw [runCells, List.map_cons, List.length_cons] at htail
    rw [htail]

/-! ### Scratch through a landing -/

section
variable {s : State} {team : Nat} {t : Team}

theorem scratchWrite_teams (off : Nat) (l : Marked) : (s.scratchWrite team off l).teams = (s.modTeam team fun t => t.scratchWrite off l).teams :=
  State.of_beneath (State.wakeLocal_beneath ..) State.teams fun _ => rfl

theorem scratchWrite_banks (off : Nat) (l : Marked) : (s.scratchWrite team off l).banks = s.banks :=
  State.of_beneath (State.wakeLocal_beneath ..) State.banks fun _ => rfl

/-- Cells that land in a team's scratch stand there. -/
theorem landLocal_scratch (ht : s.teams.find team = some t) (l : List (Nat × Byte × Bool)) :
    ∃ t', (s.landLocal team l).teams.find team = some t' ∧ t'.scratch = l.foldl (fun m c => putByte m c.1 c.2.1) t.scratch := by
  have hruns (rs : List (List (Nat × Byte × Bool))) (h : ∀ r ∈ rs, Consecutive r) {s : State} {t : Team}
      (ht : s.teams.find team = some t) :
      ∃ t', (rs.foldl (fun s r => match r with | [] => s | (a, _) :: _ => s.scratchWrite team a (r.map (·.2))) s).teams.find team = some t' ∧
        t'.scratch = rs.flatten.foldl (fun m c => putByte m c.1 c.2.1) t.scratch := by
    induction rs generalizing s t with
    | nil => exact ⟨t, ht, rfl⟩
    | cons r rs ih =>
      obtain ⟨hr, hrs⟩ := List.forall_mem_cons.mp h
      cases r with
      | nil => exact ih hrs ht
      | cons x r =>
        have hfind : (s.scratchWrite team x.1 ((x :: r).map (·.2))).teams.find team =
            some (t.scratchWrite x.1 ((x :: r).map (·.2))) := by
          rw [scratchWrite_teams]
          exact (Tbl.find_change_same ..).trans (by rw [ht]; rfl)
        obtain ⟨t', ht', hscratch⟩ := ih hrs hfind
        refine ⟨t', ht', hscratch.trans ?_⟩
        rw [scratchWrite_scratch, runCells_of_consecutive hr, List.flatten_cons, List.foldl_append]
  obtain ⟨t', ht', hscratch⟩ := hruns (wordRuns l) (consecutive_wordRuns l) ht
  exact ⟨t', ht', by rw [hscratch, flatten_wordRuns]⟩

theorem landLocal_banks (s : State) (team : Nat) (l : List (Nat × Byte × Bool)) : (s.landLocal team l).banks = s.banks :=
  foldl_keeps State.banks (fun t r => by
    split
    · rfl
    · exact scratchWrite_banks ..) _ _

end

end Sys2Proof.Machine
end

section
/-!
PROOFS. COPY_LAND of a block of a linear copy from scratch, into scratch (R296, R302, R304).
-/

namespace Sys2Proof.Machine

open Sys2Proof.Safety

/-! ### Blocks of a linear copy -/

/-- How far into a linear copy a block begins, and how many bytes it has. -/
def blockFirst (c : Copy) (dst k : Nat) : Nat := 256 * k - copyAddr c.hd dst % 256
def blockLen (c : Copy) (dst n k : Nat) : Nat := min n (256 * (k + 1) - copyAddr c.hd dst % 256) - blockFirst c dst k

section
variable {c : Copy} {src dst n k : Nat}

theorem pieces_linear (hop : c.op = .linear src dst n) :
    c.pieces k = cutLinear c.hs c.hd 257 (src + blockFirst c dst k) (dst + blockFirst c dst k) (blockLen c dst n k) := by
  rw [Copy.pieces, hop]
  rfl

theorem blockLen_le : blockLen c dst n k ≤ 256 := by
  have := Nat.mod_lt (copyAddr c.hd dst) (show 256 > 0 by decide)
  unfold blockLen blockFirst
  omega

theorem blockLen_ne_zero (hop : c.op = .linear src dst n) (h1 : 1 ≤ n) (hblocks : c.blocks = c.op.blocks c.hd) (hk : k < c.blocks) :
    blockLen c dst n k ≠ 0 := by
  have := Nat.mod_lt (copyAddr c.hd dst) (show 256 > 0 by decide)
  rw [hblocks, hop] at hk
  have hk : k < (copyAddr c.hd dst % 256 + n + 256 - 1) / 256 := hk
  unfold blockLen blockFirst
  omega

theorem pieces_sizes (hop : c.op = .linear src dst n) : ∀ p ∈ c.pieces k, p.sn = p.dn := by
  rw [pieces_linear hop]
  exact fun p hp => (mem_cutLinear hp).1

theorem pieces_places (hop : c.op = .linear src dst n) :
    (c.pieces k).flatMap Piece.places = (List.range (blockLen c dst n k)).map fun i =>
      (copyAddr c.hs (src + blockFirst c dst k + i), copyAddr c.hd (dst + blockFirst c dst k + i)) := by
  rw [pieces_linear hop]
  exact cutLinear_places _ _ _ _ _ (Nat.le_succ_of_le blockLen_le)

theorem pieces_sum (hop : c.op = .linear src dst n) : ((c.pieces k).map (·.dn)).sum = blockLen c dst n k := by
  have hlen := congrArg List.length (pieces_places (k := k) hop)
  simpa [List.length_flatMap, Piece.places, Function.comp_def] using hlen

/-- The bytes of a block from scratch. -/
theorem scratchBytes_linear (t : Team) (hop : c.op = .linear src dst n) (hlocal : hKind c.hs = kLocal) :
    scratchBytes t c k = (List.range (blockLen c dst n k)).map fun i =>
      (hBase0 c.hs + (src + blockFirst c dst k) + i, copyAddr c.hd (dst + blockFirst c dst k + i),
        t.scratch.get (hBase0 c.hs + (src + blockFirst c dst k) + i) 0, false) := by
  have haddr (i : Nat) : copyAddr c.hs (src + blockFirst c dst k + i) = hBase0 c.hs + (src + blockFirst c dst k) + i := by
    rw [copyAddr, if_pos hlocal, Nat.add_assoc, Nat.add_assoc, Nat.add_assoc]
  rw [scratchBytes, pieces_places hop, List.map_map]
  simp only [Function.comp_def, scratchByte, haddr]

end

/-! ### The block that an engine takes -/

/-- What lets a block of a linear copy from scratch land: the copy goes on, the engine has room for it, and its team's scratch holds
no poison. -/
structure BlockReady (s : State) (b : Nat) (c : Copy) (t : Team) (src dst n k : Nat) : Prop where
  op : c.op = .linear src dst n
  fromScratch : hKind c.hs = kLocal
  windows : c.windows = []
  goesOn : c.stopped = none
  after : s.awaits c.after false = false
  crc : s.crcFailed c = false
  engine : s.engineStopped (bankCore b) = false
  room : ((s.banks.filter fun p => bankCore p.1 = bankCore b).flatMap fun p => p.2.copies.filter fun d => d.landed ≠ []).length < 16
  block : k < c.blocks
  fresh : k ∉ c.landed
  owned : s.unowned c k = false
  team : s.teams.find c.team = some t
  clean : t.poisonWords = []

section
variable {s : State} {b : Nat} {c : Copy} {t : Team} {src dst n k : Nat}

theorem exec_copyLand_found {u : State} (hfind : s.findCopy c.id = some (b, c)) (h : s.copyLand b c k = some u) :
    exec (.copyLand c.id k) s = .next u := by
  rw [exec_copyLand, execCopyLand]
  refine eventStep_some ?_
  rw [hfind]
  exact h

theorem BlockReady.copyLand (h : BlockReady s b c t src dst n k) {v : State} {l : Landing} (hblock : s.landBlock c k = .ok (v, l)) :
    s.copyLand b c k = some (((v.changeCopy b c.id fun c =>
      { c with landed := k :: c.landed, crc := 0, writes := c.writes ++ l.writes }).landBytes b c 0 l.landed l.flags).landWrites b c.id
        l.writes) := by
  have hlanded : c.landed.contains k = false := by simpa using h.fresh
  have hroom : (c.landed.isEmpty && decide (16 ≤ ((s.banks.filter fun p => bankCore p.1 = bankCore b).flatMap fun p =>
      p.2.copies.filter fun d => d.landed ≠ []).length)) = false := by
    rw [decide_eq_false (Nat.not_le.mpr h.room), Bool.and_false]
  unfold State.copyLand
  simp only [hlanded, h.engine, h.goesOn, Nat.not_le.mpr h.block, hroom, h.owned, hblock, Option.isSome_none, decide_false,
    Bool.or_false, Bool.false_eq_true, if_false]

/-- Bytes that do not overlap are brought as they stand; so are those that leave scratch. -/
theorem overlapped_apart {l : List CopyByte} (hop : c.op = .linear src dst n)
    (h : hKind c.hs = kLocal ∧ hKind c.hd ≠ kLocal ∨ ∀ x ∈ l, ∀ y ∈ l, x.1 ≠ y.2.1) : s.overlapped c l = (l, s) := by
  unfold State.overlapped
  rw [hop]
  dsimp only
  refine if_neg fun hover => ?_
  simp only [Bool.and_eq_true, decide_eq_true_eq, List.any_eq_true] at hover
  obtain ⟨hboth, x, hx, y, hy, hxy⟩ := hover
  rcases h with ⟨hs, hd⟩ | h
  · exact hd (hboth.mp hs)
  · exact h x hx y hy hxy

/-- A block lands in scratch: its bytes stand where they belong, the rest of scratch is as it was, and the tag counts them. -/
theorem BlockReady.lands_local (h : BlockReady s b c t src dst n k) (hd : hKind c.hd = kLocal) (hordered : KeyOrdered t.scratch)
    (h0 : blockLen c dst n k ≠ 0) (harmed : ((s.bank b).tag c.tag).armed = true)
    (hn : blockLen c dst n k ≤ ((s.bank b).tag c.tag).remaining.toNat)
    (hapart : hBase0 c.hs + (src + blockFirst c dst k) + blockLen c dst n k ≤ hBase0 c.hd + (dst + blockFirst c dst k) ∨
      hBase0 c.hd + (dst + blockFirst c dst k) + blockLen c dst n k ≤ hBase0 c.hs + (src + blockFirst c dst k)) :
    ∃ u t', s.copyLand b c k = some u ∧ (u.bank b).tag c.tag = ((s.bank b).tag c.tag).counted (blockLen c dst n k) ∧ u.mem = s.mem ∧
      u.teams.find c.team = some t' ∧
      (∀ j < blockLen c dst n k, t'.scratch.get (hBase0 c.hd + (dst + blockFirst c dst k) + j) 0 =
        t.scratch.get (hBase0 c.hs + (src + blockFirst c dst k) + j) 0) ∧
      ∀ i, i < hBase0 c.hd + (dst + blockFirst c dst k) ∨ hBase0 c.hd + (dst + blockFirst c dst k) + blockLen c dst n k ≤ i →
        t'.scratch.get i 0 = t.scratch.get i 0 := by
  have haddr (i : Nat) : copyAddr c.hd (dst + blockFirst c dst k + i) = hBase0 c.hd + (dst + blockFirst c dst k) + i := by
    rw [copyAddr, if_pos hd, Nat.add_assoc, Nat.add_assoc, Nat.add_assoc]
  have hbytes := scratchBytes_linear (k := k) t h.op h.fromScratch
  simp only [haddr] at hbytes
  generalize hBase0 c.hd + (dst + blockFirst c dst k) = z at *
  generalize hBase0 c.hs + (src + blockFirst c dst k) = a at *
  have hover : s.overlapped c (scratchBytes t c k) = (scratchBytes t c k, s) := by
    refine overlapped_apart h.op (.inr fun x hx y hy => ?_)
    rw [hbytes] at hx hy
    obtain ⟨i, hi, rfl⟩ := List.mem_map.mp hx
    obtain ⟨j, hj, rfl⟩ := List.mem_map.mp hy
    have hi := List.mem_range.mp hi
    have hj := List.mem_range.mp hj
    dsimp only
    omega
  have hblock := landBlock_scratch (k := k) h.op h.fromScratch h.team h.clean h.windows h.after (pieces_sizes h.op) (f := fun _ => none)
    (fun p _ => by rw [State.copyTo, if_pos hd]) hover h.crc
  rw [if_pos hd, pieces_sum h.op] at hblock
  generalize hcells : (scratchBytes t c k).map (fun b => (b.2.1, b.2.2.1, b.2.2.2)) = cells at hblock
  have hcells : cells = (List.range (blockLen c dst n k)).map fun i => (z + i, t.scratch.get (a + i) 0, false) := by
    rw [← hcells, hbytes, List.map_map]
    rfl
  have hplaces : cells.map (·.1) = span z (blockLen c dst n k) := by
    rw [hcells, List.map_map]
    rfl
  obtain ⟨t', ht', hscratch⟩ := landLocal_scratch h.team cells
  have htag (f : Copy → Copy) : (((s.landLocal c.team cells).changeCopy b c.id f).bank b).tag c.tag = (s.bank b).tag c.tag := by
    rw [Bank.tag, State.bank_changeCopy_tags, State.bank, landLocal_banks]
    rfl
  obtain ⟨hcounted, hmem, hteams⟩ := landBytes_counts (b := b) (c := c) 0 h0 (htag _ ▸ harmed) (htag _ ▸ hn)
  obtain ⟨hin, hout⟩ := get_foldl_putByte cells (hplaces ▸ span_nodup _ _) hordered
  refine ⟨_, t', h.copyLand hblock, hcounted.trans (by rw [htag]), hmem.trans (State.landLocal_mem ..), ?_, fun j hj => ?_, fun i hi => ?_⟩
  · exact (congrArg (fun ts : Tbl Team => ts.find c.team) hteams).trans ht'
  · rw [hscratch]
    exact hin (z + j, t.scratch.get (a + j) 0, false) (hcells ▸ List.mem_map.mpr ⟨j, List.mem_range.mpr hj, rfl⟩)
  · rw [hscratch]
    refine hout i fun hmem => ?_
    rw [hplaces, span, List.mem_map] at hmem
    obtain ⟨j, hj, hij⟩ := hmem
    have hj := List.mem_range.mp hj
    omega

end

end Sys2Proof.Machine
end

section
/-!
PROOFS. A block of a linear copy from scratch that leaves for one line of memory (R302, R304, R305).
-/

namespace Sys2Proof.Machine

open Sys2Proof.Safety

/-! ### The owners of lines -/

/-- The numbers of the copies with the lines that they own. -/
def State.owners (s : State) : List (List (Nat × List (Nat × Nat))) := s.banks.map fun p => p.2.copies.map fun d => (d.id, d.owned)

theorem ownedByCopy_of_owners {s u : State} (h : u.owners = s.owners) (line : Nat) : u.ownedByCopy line = s.ownedByCopy line := by
  have hview (s : State) : s.ownedByCopy line = s.owners.any fun l => l.any fun q => q.2.any (·.1 = line) := by
    simp only [State.ownedByCopy, State.owners, List.any_map, Function.comp_def]
    rfl
  rw [hview, hview, h]

theorem ownedBefore_of_owners {s u : State} (h : u.owners = s.owners) (line id : Nat) : u.ownedBefore line id = s.ownedBefore line id := by
  have hview (s : State) : s.ownedBefore line id = s.owners.any fun l => l.any fun q => q.1 < id && q.2.any (·.1 = line) := by
    simp only [State.ownedBefore, State.owners, List.any_map, Function.comp_def]
    rfl
  rw [hview, hview, h]

/-- What stands at a slice does not depend on the banks but for the owners and the revision of their memory model. -/
theorem olderAtSlice_of_owners {s : State} {banks : Tbl Bank} (h : ({ s with banks := banks } : State).owners = s.owners)
    (hrevision : ({ s with banks := banks } : State).revisionOf = s.revisionOf) (pa id : Nat) :
    ({ s with banks := banks } : State).olderAtSlice pa id = s.olderAtSlice pa id := by
  have hstands : ({ s with banks := banks } : State).loadStands = s.loadStands := by
    funext l
    unfold State.loadStands
    simp only [hrevision]
    rfl
  unfold State.olderAtSlice
  simp only [ownedByCopy_of_owners h, hstands]
  rfl

theorem Tbl.map_set_same {α β : Type} (g : Nat × α → β) {t : Tbl α} {k : Nat} {x y : α} (ht : t.Pairwise fun p q => p.1 < q.1)
    (hx : t.find k = some x) (hg : g (k, y) = g (k, x)) : (t.set k y).map g = t.map g := by
  induction t with
  | nil => cases hx
  | cons p t ih =>
    obtain ⟨j, z⟩ := p
    rw [List.pairwise_cons] at ht
    by_cases hj : j = k
    · subst hj
      obtain rfl : z = x := by simpa [Tbl.find] using hx
      simp [Tbl.set, hg]
    · have hfind : Tbl.find t k = some x := by simpa [Tbl.find, hj] using hx
      have hlt : j < k := ht.1 _ (Tbl.mem_of_find hfind)
      simp [Tbl.set, hj, Nat.not_lt.mpr hlt.le, ih ht.2 hfind]

theorem List.find?_filter_of {α : Type} {p q : α → Bool} {l : List α} {a : α} (h : l.find? p = some a) (hq : q a = true) :
    (l.filter q).find? p = some a := by
  rw [List.find?_filter]
  induction l with
  | nil => cases h
  | cons x l ih =>
    rw [List.find?_cons] at h ⊢
    cases hx : p x with
    | true =>
      rw [hx] at h
      obtain rfl : x = a := by simpa using h
      simp [hq]
    | false =>
      rw [hx] at h
      simpa [hx] using ih h

section
variable {s : State} {b id : Nat} {c : Copy}

/-- The bank of a copy lists it as the first of its number. -/
theorem findCopy_bank (hs : s.banks.Pairwise fun p q => p.1 < q.1) (h : s.findCopy id = some (b, c)) :
    ∃ x, s.banks.find b = some x ∧ x.copies.find? (·.id = id) = some c := by
  obtain ⟨p, hp, hfind⟩ := List.exists_of_findSome?_eq_some h
  cases hc : p.2.copies.find? (·.id = id) with
  | none => rw [hc] at hfind; cases hfind
  | some d =>
    rw [hc] at hfind
    cases hfind
    refine ⟨p.2, ?_, hc⟩
    clear h hc
    generalize s.banks = t at hs hp
    induction t with
    | nil => cases hp
    | cons q t ih =>
      rw [List.pairwise_cons] at hs
      rcases List.mem_cons.mp hp with rfl | hrest
      · simp [Tbl.find]
      · obtain ⟨j, y⟩ := q
        have hne : j ≠ p.1 := (hs.1 p hrest).ne
        simpa [Tbl.find, hne] using ih hs.2 hrest

theorem findCopy_id (h : s.findCopy id = some (b, c)) : c.id = id := by
  obtain ⟨p, -, hfind⟩ := List.exists_of_findSome?_eq_some h
  cases hc : p.2.copies.find? (·.id = id) with
  | none => rw [hc] at hfind; cases hfind
  | some d =>
    rw [hc] at hfind
    cases hfind
    simpa using List.find?_some hc

end

end Sys2Proof.Machine
end

section
/-!
PROOFS. COPY_LAND of a block of a linear copy from scratch, into one line of its core's own die (R302, R304, R305), and the write
of a copy that has left (R302, R354).
-/

namespace Sys2Proof.Machine

open Sys2Proof.Safety

/-! ### Where a block stands in memory -/

theorem List.findSome?_eq_of_forall {α β : Type} {g : α → Option β} {l : List α} {y : β} (h : ∀ x ∈ l, g x = none ∨ g x = some y)
    (hx : ∃ x ∈ l, g x = some y) : l.findSome? g = some y := by
  cases hl : l.findSome? g with
  | none =>
    obtain ⟨x, hx, hg⟩ := hx
    rw [List.findSome?_eq_none_iff.mp hl x hx] at hg
    cases hg
  | some z =>
    obtain ⟨x, hx, hg⟩ := List.exists_of_findSome?_eq_some hl
    rcases h x hx with hnone | hsome
    · rw [hnone] at hg; cases hg
    · rw [← hg, hsome]

theorem copyAddr_inj {h : HRec} {off i j : Nat} (hi : i < 2 ^ 57) (hj : j < 2 ^ 57) (heq : copyAddr h (off + i) = copyAddr h (off + j)) :
    i = j := by
  unfold copyAddr at heq
  split at heq <;> omega

/-- Pieces of one line are one run of it. -/
theorem foldl_own_line (line : Nat) {l : List (Nat × Nat)} (h : ∀ x ∈ l, lineOf x.1 = line) (m : Nat) :
    l.foldl (fun l x => own l (lineOf x.1) x.2) [(line, m)] = [(line, m + (l.map (·.2)).sum)] := by
  induction l generalizing m with
  | nil => rfl
  | cons x l ih =>
    obtain ⟨hx, hl⟩ := List.forall_mem_cons.mp h
    rw [List.foldl_cons, hx, own, if_pos rfl, ih hl, List.map_cons, List.sum_cons, Nat.add_assoc]

/-- The physical address of a piece of a block whose bytes stand from `pa` on. -/
def State.destOf (s : State) (c : Copy) (p : Piece) : Option Nat :=
  match s.copyTo c p.dst with
  | .ok x => x
  | .error _ => none

section
variable {s : State} {c : Copy} {t : Team} {src dst n k pa : Nat}

/-- A run of bytes of a line. -/
theorem lineOf_add {len j : Nat} (h : lineOf pa = lineOf (pa + len - 1)) (hj : j < len) : lineOf (pa + j) = lineOf pa := by
  unfold lineOf at *
  omega

/-- Every byte of a block stands where the translation says. -/
structure StandsAt (s : State) (c : Copy) (dst n k pa : Nat) : Prop where
  line : lineOf pa = lineOf (pa + blockLen c dst n k - 1)
  home : homeDie pa = some (coreDie (strandCore c.strand))
  bytes : ∀ j < blockLen c dst n k, s.copyTo c (copyAddr c.hd (dst + blockFirst c dst k + j)) = .ok (some (pa + j))

namespace StandsAt

variable (h : StandsAt s c dst n k pa)
include h

theorem isDevice_pa : pa < Config.deviceEnd := by
  by_contra hpa
  have hhome := h.home
  rw [homeDie, if_neg (by simpa [isDevice] using hpa)] at hhome
  cases hhome

theorem below {j : Nat} (hj : j < blockLen c dst n k) : pa + j < 2 ^ 49 := by
  have hpa : pa < 512000000000 := h.isDevice_pa
  have hline := lineOf_add h.line hj
  unfold lineOf at hline
  omega

theorem not_window {j : Nat} (hj : j < blockLen c dst n k) : isWindow (pa + j) = false := by
  have := h.below hj
  simp [isWindow]
  omega

theorem home_line : homeDie (lineOf pa * 256) = some (coreDie (strandCore c.strand)) := by
  have hhome := h.home
  have hpa := h.isDevice_pa
  have hgranule : lineOf pa * 256 / 4096 = pa / 4096 := by unfold lineOf; omega
  have hdevice : isDevice (lineOf pa * 256) = true := decide_eq_true (by unfold lineOf; omega)
  rw [homeDie, if_pos (show isDevice pa = true from decide_eq_true hpa)] at hhome
  rw [homeDie, if_pos hdevice, hgranule]
  exact hhome

/-- The pieces of the block. -/
theorem piece (hop : c.op = .linear src dst n) {p : Piece} (hp : p ∈ c.pieces k) :
    ∃ off, off + p.dn ≤ blockLen c dst n k ∧ (∀ j < p.dn, copyAddr c.hd (dst + blockFirst c dst k + (off + j)) = p.dst + j) ∧
      s.copyTo c p.dst = .ok (some (pa + off)) := by
  rw [pieces_linear hop] at hp
  obtain ⟨-, hdn, off, hoff, hdst⟩ := mem_cutLinear hp
  have hfirst := hdst 0 hdn
  refine ⟨off, hoff, fun j hj => by rw [← Nat.add_assoc]; exact hdst j hj, ?_⟩
  rw [← h.bytes off (by omega)]
  exact congrArg (s.copyTo c) hfirst.symm

theorem dests (hop : c.op = .linear src dst n) : ∀ p ∈ c.pieces k, s.copyTo c p.dst = .ok (s.destOf c p) := by
  intro p hp
  obtain ⟨off, -, -, hto⟩ := h.piece hop hp
  rw [State.destOf, hto]

theorem blockPlace_byte (hop : c.op = .linear src dst n) {i : Nat} (hi : i < blockLen c dst n k) :
    blockPlace (s.destOf c) (c.pieces k) (copyAddr c.hd (dst + blockFirst c dst k + i)) = pa + i := by
  have hlen : blockLen c dst n k ≤ 256 := blockLen_le
  have hplace : (copyAddr c.hs (src + blockFirst c dst k + i), copyAddr c.hd (dst + blockFirst c dst k + i)) ∈
      (c.pieces k).flatMap Piece.places := by
    rw [pieces_places hop]
    exact List.mem_map.mpr ⟨i, List.mem_range.mpr hi, rfl⟩
  obtain ⟨q, hq, hplace⟩ := List.mem_flatMap.mp hplace
  obtain ⟨m, hm, heq⟩ := List.mem_map.mp hplace
  have hm := List.mem_range.mp hm
  have hq2 : q.dst + m = copyAddr c.hd (dst + blockFirst c dst k + i) := (Prod.mk.inj heq).2
  have hgives (p : Piece) (hp : p ∈ c.pieces k)
      (hin : p.dst ≤ copyAddr c.hd (dst + blockFirst c dst k + i) ∧ copyAddr c.hd (dst + blockFirst c dst k + i) < p.dst + p.dn) :
      ((s.destOf c p).map fun x => x + (copyAddr c.hd (dst + blockFirst c dst k + i) - p.dst)) = some (pa + i) := by
    obtain ⟨off, hoff, hdst, hto⟩ := h.piece hop hp
    have hj := hdst (copyAddr c.hd (dst + blockFirst c dst k + i) - p.dst) (by omega)
    rw [Nat.add_sub_cancel' hin.1] at hj
    have hij := copyAddr_inj (by omega) (by omega) hj
    rw [State.destOf, hto, Option.map_some]
    exact congrArg some (by omega)
  rw [blockPlace, List.findSome?_eq_of_forall (y := pa + i), Option.getD_some]
  · intro p hp
    split
    · next hin => exact .inr (hgives p hp hin)
    · exact .inl rfl
  · exact ⟨q, hq, by rw [if_pos (by omega)]; exact hgives q hq (by omega)⟩

/-- The block's pieces are one run of the line. -/
theorem counts (hop : c.op = .linear src dst n) :
    ((c.pieces k).filterMap (pieceBytes (s.destOf c))).map (·.2) = (c.pieces k).map (·.dn) ∧
      ∀ x ∈ (c.pieces k).filterMap (pieceBytes (s.destOf c)), lineOf x.1 = lineOf pa ∧ isWindow x.1 = false := by
  constructor
  · rw [List.map_filterMap]
    refine (List.filterMap_congr (g := some ∘ Piece.dn) fun p hp => ?_).trans (congrFun List.filterMap_eq_map _)
    obtain ⟨off, -, -, hto⟩ := h.piece hop hp
    rw [pieceBytes, State.destOf, hto]
    rfl
  · intro x hx
    obtain ⟨p, hp, hx⟩ := List.mem_filterMap.mp hx
    obtain ⟨off, hoff, -, hto⟩ := h.piece hop hp
    rw [pieceBytes, State.destOf, hto] at hx
    cases hx
    have hdn : 0 < p.dn := by
      rw [pieces_linear hop] at hp
      exact (mem_cutLinear hp).2.1
    exact ⟨lineOf_add h.line (by omega), h.not_window (by omega)⟩

end StandsAt

/-- The write of a block of scratch to a line. -/
def blockWrite (t : Team) (c : Copy) (src dst n k pa : Nat) : CopyWrite :=
  { block := k, line := lineOf pa
    cells := (List.range (blockLen c dst n k)).map fun i => (pa + i, t.scratch.get (hBase0 c.hs + (src + blockFirst c dst k) + i) 0)
    count := blockLen c dst n k, flags := 0, bad := false, stamp := none }

/-- A block of scratch becomes one write to its line. -/
theorem BlockReady.landBlock_line {b : Nat} (h : BlockReady s b c t src dst n k) (hd : hKind c.hd ≠ kLocal) (hat : StandsAt s c dst n k pa)
    (h0 : blockLen c dst n k ≠ 0) : s.landBlock c k = .ok (s, ⟨0, 0, [blockWrite t c src dst n k pa]⟩) := by
  have hblock := landBlock_scratch (k := k) h.op h.fromScratch h.team h.clean h.windows h.after (pieces_sizes h.op) (hat.dests h.op)
    (overlapped_apart h.op (.inl ⟨h.fromScratch, hd⟩)) h.crc
  rw [if_neg hd] at hblock
  rw [hblock]
  obtain ⟨hsum, hcounts⟩ := hat.counts h.op
  have hcells : ((scratchBytes t c k).map fun b => (blockPlace (s.destOf c) (c.pieces k) b.2.1, b.2.2.1)) =
      (blockWrite t c src dst n k pa).cells := by
    rw [scratchBytes_linear t h.op h.fromScratch, List.map_map]
    exact List.map_congr_left fun i hi => by
      simp only [Function.comp_apply, hat.blockPlace_byte h.op (List.mem_range.mp hi)]
  have hkept (q : Host.Cell → Bool) (hq : ∀ i < blockLen c dst n k, ∀ x, q (pa + i, x) = true) :
      (blockWrite t c src dst n k pa).cells.filter q = (blockWrite t c src dst n k pa).cells := by
    refine List.filter_eq_self.mpr fun x hx => ?_
    obtain ⟨i, hi, rfl⟩ := List.mem_map.mp hx
    exact hq i (List.mem_range.mp hi) _
  have hwindows : ((c.pieces k).filterMap (pieceBytes (s.destOf c))).filter (fun x => isWindow x.1) = [] :=
    List.filter_eq_nil_iff.mpr fun x hx => by simp [(hcounts x hx).2]
  have hmemory : ((c.pieces k).filterMap (pieceBytes (s.destOf c))).filter (fun x => !isWindow x.1) =
      (c.pieces k).filterMap (pieceBytes (s.destOf c)) := List.filter_eq_self.mpr fun x hx => by simp [(hcounts x hx).2]
  have hown : ((c.pieces k).filterMap (pieceBytes (s.destOf c))).foldl (fun l x => own l (lineOf x.1) x.2) [] =
      [(lineOf pa, blockLen c dst n k)] := by
    have hall : (((c.pieces k).filterMap (pieceBytes (s.destOf c))).map (·.2)).sum = blockLen c dst n k := by
      rw [hsum, pieces_sum h.op]
    generalize (c.pieces k).filterMap (pieceBytes (s.destOf c)) = l at hcounts hall
    cases l with
    | nil => exact absurd hall.symm h0
    | cons x l =>
      obtain ⟨⟨hx, -⟩, hl⟩ := List.forall_mem_cons.mp hcounts
      rw [List.foldl_cons, hx, own, foldl_own_line _ fun y hy => (hl y hy).1]
      exact congrArg (fun m => [(lineOf pa, m)]) hall
  have hleave : s.leaveFor c k (lineOf pa) (blockWrite t c src dst n k pa).cells (blockLen c dst n k) 0 false =
      (blockWrite t c src dst n k pa, s) := by
    simp only [State.leaveFor, hat.home_line, true_or, if_true]
    rfl
  dsimp only
  rw [hwindows, hmemory, hown, hcells, hkept _ fun i hi x => by simp [hat.not_window hi]]
  simp only [List.foldl_cons, List.foldl_nil, List.nil_append, List.map_nil, List.sum_nil]
  rw [hkept _ fun i hi x => by simp [lineOf_add hat.line hi], hleave]

end

end Sys2Proof.Machine
end

section
/-!
PROOFS. The write of a copy at its ordering point, and O34 (R302, R305, R307, R354).
-/

namespace Sys2Proof.Machine

open Sys2Proof.Safety

section
variable {s : State} {b : Nat} {c : Copy} {w : CopyWrite}

theorem performAt_banks (s : State) (id home writer : Nat) (stamp : List Nat) (cells : List Host.Cell) :
    (s.performAt id home writer stamp cells).banks = s.banks := by
  unfold State.performAt
  split
  · rfl
  · next pa x l =>
    obtain ⟨m, p, hw⟩ := writeMasked_eq s ((pa, x) :: l)
    exact (State.of_beneath (State.wakeLine_beneath ..) State.banks fun _ => rfl).trans (by rw [hw])

/-- Nothing comes before a write of a copy at its line's ordering point. -/
structure WriteReady (s : State) (c : Copy) (w : CopyWrite) : Prop where
  owners : s.ownedBefore w.line c.id = false
  earlier : ∀ x ∈ c.writes.takeWhile (· ≠ w), x.line ≠ w.line
  slice : s.olderAtSlice (w.line * 256) s.nextId = false
  flights : ∀ f ∈ s.flights, f.line ≠ w.line
  right : w.bad = false

/-- A write that nothing comes before writes its bytes. -/
theorem WriteReady.performs (h : WriteReady s c w) {home : Nat} (hhome : homeDie (w.line * 256) = some home)
    (hstamp : ∀ v, w.stamp = some v → applicable (s.die home).clock v (coreDie (strandCore c.strand)) = true) :
    ∃ u, s.performWrite c w = some u ∧ u.banks = s.banks ∧ u.mem = Memory.writeAll s.mem (keyed w.cells) := by
  have hearlier : ((c.writes.takeWhile (· ≠ w)).any fun x => x.line = w.line) = false := by
    simpa using h.earlier
  have hflights : (s.flights.any fun f => f.line = w.line && f.id < c.id && (s.l1Of c.strand).contains f.core) = false :=
    List.any_eq_false.mpr fun f hf => by simp [h.flights f hf]
  have hbanks := State.of_besideCaches (State.noteRequest_besideCaches s (w.line * 256) (coreCluster (strandCore c.strand)))
    State.banks fun _ => rfl
  have hmem := s.noteRequest_mem (w.line * 256) (coreCluster (strandCore c.strand))
  have hclock : ((s.noteRequest (w.line * 256) (coreCluster (strandCore c.strand))).die home).clock = (s.die home).clock := by
    rw [State.noteRequest, hhome]
    dsimp only
    rw [State.die_modDie, if_pos rfl]
  unfold State.performWrite
  dsimp only
  rw [h.owners, hearlier, h.slice, hflights]
  simp only [Bool.or_false, Bool.false_eq_true, if_false, hhome, h.right]
  cases hw : w.stamp with
  | none => exact ⟨_, rfl, (performNow_banks ..).trans hbanks, (performNow_writes ..).2.trans (by rw [hmem])⟩
  | some v =>
    simp only [hclock, hstamp v hw, if_true]
    exact ⟨_, rfl, (performAt_banks ..).trans hbanks, (performAt_writes ..).2.trans (by rw [hmem])⟩

theorem tagCount_mem {n : Nat} (flags : Flags) (harmed : ((s.bank b).tag c.tag).armed = true)
    (hn : n ≤ ((s.bank b).tag c.tag).remaining.toNat) : (s.tagCount b c n flags).mem = s.mem := by
  have hgo : ¬(((s.bank b).tag c.tag).armed = false ∨ ((s.bank b).tag c.tag).remaining.toNat < n) := by
    rw [harmed]; simp; omega
  unfold State.tagCount
  rw [if_neg hgo]
  dsimp only
  split
  · exact State.wakeTags_mem ..
  · rfl

theorem changedTag (s : State) (b id : Nat) (f g : Copy → Copy) (n : Nat) :
    ((((s.changeCopy b id f).changeCopy b id g).finishCopy b id).bank b).tag n = (s.bank b).tag n := by
  rw [Bank.tag, State.bank_finishCopy_tags, State.bank_changeCopy_tags, State.bank_changeCopy_tags]
  rfl

/-- A write that has left lands its bytes, and nothing else in memory. -/
theorem WriteReady.lands (h : WriteReady s c w) {home : Nat} (hhome : homeDie (w.line * 256) = some home)
    (hstamp : ∀ v, w.stamp = some v → applicable (s.die home).clock v (coreDie (strandCore c.strand)) = true)
    (harmed : ((s.bank b).tag c.tag).armed = true) (hn : w.count ≤ ((s.bank b).tag c.tag).remaining.toNat) :
    ∃ u, s.landWrite b c w = some u ∧ u.mem = Memory.writeAll s.mem (keyed w.cells) := by
  obtain ⟨u, hperforms, hbanks, hmem⟩ := h.performs hhome hstamp
  rw [State.landWrite, hperforms]
  refine ⟨_, rfl, Eq.trans ?_ hmem⟩
  have hbank : u.bank b = s.bank b := by rw [State.bank, hbanks]; rfl
  unfold State.landBytes
  dsimp only
  split
  · rfl
  · exact tagCount_mem _ (by rw [changedTag, hbank]; exact harmed) (by rw [changedTag, hbank]; exact hn)

/-! ### The block and its write -/

/-- A copy with a block of it read, and one more write that has left. -/
def Copy.sending (c : Copy) (k : Nat) (w : CopyWrite) : Copy :=
  { c with landed := k :: c.landed, crc := 0, writes := c.writes ++ [w], owned := disown c.owned 0 0 }

/-- The bank of a copy that sends a write. -/
def Bank.sending (x : Bank) (id k : Nat) (w : CopyWrite) : Bank :=
  { x with copies := x.copies.map fun d => if d.id = id then d.sending k w else d }

theorem State.modBank_modBank (s : State) (b : Nat) (f g : Bank → Bank) : (s.modBank b f).modBank b g = s.modBank b fun x => g (f x) := by
  rw [State.modBank, State.modBank, State.bank_setBank_same, State.modBank, State.setBank, State.setBank, State.setBank, Tbl.set_set]

/-- A copy that sends a write keeps its place in its queue. -/
theorem State.sent_eq (s : State) (b id k : Nat) (w : CopyWrite) :
    ((s.changeCopy b id fun d => { d with landed := k :: d.landed, crc := 0, writes := d.writes ++ [w] }).changeCopy b id fun d =>
      { d with owned := disown d.owned 0 0 }).finishCopy b id = s.modBank b fun x => x.sending id k w := by
  rw [State.finishCopy, State.changeCopy, State.changeCopy, State.modBank_modBank, State.modBank_modBank]
  refine congrArg (s.modBank b) (funext fun x => ?_)
  have hmap : (x.copies.map fun d => if d.id = id then { d with landed := k :: d.landed, crc := 0, writes := d.writes ++ [w] } else d).map
      (fun d => if d.id = id then { d with owned := disown d.owned 0 0 } else d) = (x.sending id k w).copies := by
    rw [List.map_map]
    refine List.map_congr_left fun d _ => ?_
    by_cases hd : d.id = id <;> simp [hd, Copy.sending]
  dsimp only
  rw [hmap, List.filter_eq_self.mpr]
  · rfl
  · intro d hd
    obtain ⟨e, -, rfl⟩ := List.mem_map.mp hd
    by_cases he : e.id = id <;> simp [he, Copy.sending]

section
variable {x : Bank}

theorem disown_nothing {l : List (Nat × Nat)} (h : ∀ p ∈ l, p.2 ≠ 0) : disown l 0 0 = l := by
  have hmap : (l.map fun p => if p.1 = 0 then (p.1, p.2 - 0) else p) = l := by simp
  rw [disown, hmap, List.filter_eq_self]
  exact fun p hp => decide_eq_true (h p hp)

/-- A write that leaves changes no owner. -/
theorem owners_sending (hs : s.banks.Pairwise fun p q => p.1 < q.1) (hx : s.banks.find b = some x)
    (hone : ∀ d ∈ x.copies, d.id = c.id → d = c) (howned : ∀ p ∈ c.owned, p.2 ≠ 0) (k : Nat) (w : CopyWrite) :
    (s.modBank b fun x => x.sending c.id k w).owners = s.owners := by
  have hbank : s.bank b = x := by rw [State.bank, Tbl.get, hx]; rfl
  rw [State.owners, State.modBank_banks, hbank]
  refine Tbl.map_set_same _ hs hx ?_
  rw [Bank.sending, List.map_map]
  refine List.map_congr_left fun d hd => ?_
  by_cases hid : d.id = c.id
  · obtain rfl := hone d hd hid
    simp [Copy.sending, disown_nothing howned]
  · simp [hid]

theorem revisionOf_sending (s : State) (b id k : Nat) (w : CopyWrite) :
    (s.modBank b fun x => x.sending id k w).revisionOf = s.revisionOf := by
  funext n
  rw [State.revisionOf, State.bank_modBank, State.revisionOf]
  split
  · next h => rw [h]; rfl
  · rfl

theorem find_sending (hfind : x.copies.find? (·.id = c.id) = some c) (k : Nat) (w : CopyWrite) :
    (x.sending c.id k w).copies.find? (·.id = c.id) = some (c.sending k w) := by
  have hkeep : ((fun d : Copy => decide (d.id = c.id)) ∘ fun d => if d.id = c.id then d.sending k w else d) = fun d => decide (d.id = c.id) := by
    funext d
    by_cases hd : d.id = c.id <;> simp [hd, Copy.sending]
  rw [Bank.sending, List.find?_map, hkeep, hfind]
  simp

end

section
variable {t : Team} {src dst n k pa : Nat}

/-- What lets a block's write be performed at once: its copy owns the line before every other, and nothing of the line comes before it. -/
structure LineReady (s : State) (b : Nat) (c : Copy) (line : Nat) : Prop where
  ordered : s.banks.Pairwise fun p q => p.1 < q.1
  found : s.findCopy c.id = some (b, c)
  alone : ∀ p ∈ s.banks, ∀ d ∈ p.2.copies, d.id = c.id → (p.1, d) = (b, c)
  owned : ∀ p ∈ c.owned, p.2 ≠ 0
  writes : ∀ w ∈ c.writes, w.line ≠ line
  owners : s.ownedBefore line c.id = false
  slice : s.olderAtSlice (line * 256) s.nextId = false
  flights : ∀ f ∈ s.flights, f.line ≠ line

/-- A block lands in its line: its bytes are in memory, and the tag counts them. -/
theorem BlockReady.lands_line (h : BlockReady s b c t src dst n k) (hd : hKind c.hd ≠ kLocal) (hat : StandsAt s c dst n k pa)
    (hline : LineReady s b c (lineOf pa)) (h0 : blockLen c dst n k ≠ 0) (harmed : ((s.bank b).tag c.tag).armed = true)
    (hn : blockLen c dst n k ≤ ((s.bank b).tag c.tag).remaining.toNat) :
    ∃ u, s.copyLand b c k = some u ∧ (u.bank b).tag c.tag = ((s.bank b).tag c.tag).counted (blockLen c dst n k) ∧
      u.mem = Memory.writeAll s.mem (keyed (blockWrite t c src dst n k pa).cells) := by
  obtain ⟨x, hx, hfind⟩ := findCopy_bank hline.ordered hline.found
  have hbank : s.bank b = x := by rw [State.bank, Tbl.get, hx]; rfl
  have hone : ∀ d ∈ x.copies, d.id = c.id → d = c := fun d hd hid =>
    (Prod.mk.inj (hline.alone (b, x) (Tbl.mem_of_find hx) d hd hid)).2
  generalize hw : blockWrite t c src dst n k pa = w
  have hwline : w.line = lineOf pa := by rw [← hw]; rfl
  have hwcount : w.count = blockLen c dst n k := by rw [← hw]; rfl
  have hwflags : w.flags = 0 := by rw [← hw]; rfl
  have hblock := h.landBlock_line hd hat h0
  rw [hw] at hblock
  have hland := h.copyLand hblock
  rw [State.landBytes, if_pos rfl, State.sent_eq] at hland
  have howners := owners_sending hline.ordered hx hone hline.owned k w
  generalize hv : (s.modBank b fun x => x.sending c.id k w) = v at hland howners
  have hready : WriteReady v (c.sending k w) w := by
    refine ⟨?_, fun y hy => ?_, ?_, ?_, by rw [← hw]; rfl⟩
    · rw [hwline]
      exact (ownedBefore_of_owners howners _ _).trans hline.owners
    · have hy1 := List.mem_takeWhile_imp hy
      have hy2 := List.takeWhile_subset _ hy
      rcases List.mem_append.mp hy2 with hy2 | hy2
      · rw [hwline]; exact hline.writes y hy2
      · simp [List.mem_singleton.mp hy2] at hy1
    · rw [hwline, ← hv]
      rw [← hv] at howners
      exact (olderAtSlice_of_owners howners (revisionOf_sending ..) _ _).trans hline.slice
    · rw [hwline, ← hv]
      exact hline.flights
  have hvbank : v.bank b = x.sending c.id k w := by rw [← hv, State.bank_modBank_same, hbank]
  have htag : (v.bank b).tag c.tag = (s.bank b).tag c.tag := by rw [hvbank, hbank]; rfl
  obtain ⟨u, hperforms, hbanks, hmem⟩ := hready.performs (home := coreDie (strandCore c.strand)) (by rw [hwline]; exact hat.home_line)
    (by rw [← hw]; nofun)
  have hlands : v.landWrite b (c.sending k w) w = some ((u.changeCopy b c.id fun d => { d with writes := d.writes.erase w }).landBytes b
      (c.sending k w) (lineOf pa) (blockLen c dst n k) 0) := by
    rw [State.landWrite, hperforms, ← hwline, ← hwcount, ← hwflags]
    rfl
  have hutag : (((u.changeCopy b c.id fun d => { d with writes := d.writes.erase w }).bank b).tag c.tag) = (s.bank b).tag c.tag := by
    rw [Bank.tag, State.bank_changeCopy_tags, State.bank, hbanks]
    exact htag
  obtain ⟨hcounted, hmem', -⟩ := landBytes_counts (b := b) (c := c.sending k w) (lineOf pa) h0 (hutag ▸ harmed) (hutag ▸ hn)
  rw [State.landWrites, hvbank, find_sending hfind] at hland
  dsimp only at hland
  rw [hlands, Option.getD_some, State.landWrites] at hland
  exact ⟨_, hland, hcounted.trans (by rw [← hutag]; rfl), hmem'.trans (hmem.trans (by rw [← hv]; rfl))⟩

end

end

end Sys2Proof.Machine
end

section
/-!
PROOFS. O34: copies land (R296, R301, R302, R305, R307).
-/

namespace Sys2Proof.Machine

open Sys2Proof.Safety

section
variable {s : State} {b : Nat} {c : Copy} {t : Team} {src dst n k pa : Nat}

/-- The cells of a block's write are in memory once it has been performed, and nothing else has changed. -/
theorem blockWrite_mem (hs : MemoryOk s) {m : List Host.Cell}
    (hm : m = Memory.writeAll s.mem (keyed (blockWrite t c src dst n k pa).cells)) :
    (∀ j < blockLen c dst n k, Memory.read m (memKey (pa + j)) = t.scratch.get (hBase0 c.hs + (src + blockFirst c dst k) + j) 0) ∧
      ∀ i, (∀ j < blockLen c dst n k, i ≠ memKey (pa + j)) → Memory.read m i = Memory.read s.mem i := by
  have hkeys : (keyed (blockWrite t c src dst n k pa).cells).map (·.1) = (span pa (blockLen c dst n k)).map memKey := by
    simp [keyed, blockWrite, span, Function.comp_def]
  have hlen : blockLen c dst n k ≤ 256 := blockLen_le
  subst hm
  refine ⟨fun j hj => ?_, fun i hi => Memory.read_writeAll_other hs _ _ ?_⟩
  · refine Memory.read_writeAll_same hs (keyed (blockWrite t c src dst n k pa).cells) (hkeys ▸ nodup_memKey_span pa (by omega))
      (memKey (pa + j), _) ?_
    exact List.mem_map.mpr ⟨(pa + j, _), List.mem_map.mpr ⟨j, List.mem_range.mpr hj, rfl⟩, rfl⟩
  · rw [hkeys]
    intro hmem
    obtain ⟨a, ha, rfl⟩ := List.mem_map.mp hmem
    obtain ⟨j, hj, rfl⟩ := List.mem_map.mp ha
    exact hi j (List.mem_range.mp hj) rfl

/-- A block that has not landed has bytes of the line where it stands. -/
theorem touches_block (hop : c.op = .linear src dst n) (hat : StandsAt s c dst n k pa) (h0 : blockLen c dst n k ≠ 0)
    (hfresh : k ∉ c.landed) : s.touches c (lineOf pa) k = true := by
  have hsum := pieces_sum (k := k) hop
  have hpiece : ∃ p, p ∈ c.pieces k := by
    refine List.exists_mem_of_ne_nil _ fun hnil => ?_
    rw [hnil] at hsum
    exact h0 hsum.symm
  obtain ⟨p, hp⟩ := hpiece
  obtain ⟨off, hoff, -, hto⟩ := hat.piece hop hp
  have hdn : 0 < p.dn := by
    rw [pieces_linear hop] at hp
    exact (mem_cutLinear hp).2.1
  rw [State.touches, if_neg (by simpa using hfresh), List.any_eq_true]
  exact ⟨p, hp, by rw [hto]; exact decide_eq_true (lineOf_add hat.line (by omega))⟩

/-- A recall lands the first block of the oldest owner that has bytes of the line. -/
theorem exec_directoryRecall_oldest {line : Nat} (hfind : s.findCopy c.id = some (b, c)) (hmem : ∃ p ∈ s.banks, p.1 = b ∧ c ∈ p.2.copies)
    (howns : c.owns line = true) (hk : k < c.blocks) (htouches : s.touches c line k = true)
    (holdest : ∀ p ∈ s.banks, ∀ d ∈ p.2.copies, d.owns line = true → c.id < d.id ∨ (p.1, d) = (b, c))
    (hfirst : ∀ j < k, s.touches c line j = false) : exec (.directoryRecall line) s = exec (.copyLand c.id k) s := by
  have howner : ∀ x : Nat × Copy, x ∈ (s.banks.flatMap fun p => (p.2.copies.filter (·.owns line)).map fun c => (p.1, c)) ↔
      ∃ p ∈ s.banks, ∃ d ∈ p.2.copies, d.owns line = true ∧ x = (p.1, d) := by
    intro x
    simp only [List.mem_flatMap, List.mem_map, List.mem_filter, and_assoc, eq_comm]
  have hblock : (List.range c.blocks).find? (fun k => s.touches c line k) = some k := by
    rw [List.find?_range_eq_some]
    exact ⟨htouches, List.mem_range.mpr hk, fun j hj => by simp [hfirst j hj]⟩
  rw [exec_directoryRecall, execDirectoryRecall, exec_copyLand, execCopyLand]
  unfold eventStep
  dsimp only
  generalize (s.banks.flatMap fun p => (p.2.copies.filter (·.owns line)).map fun c => (p.1, c)) = owners at howner ⊢
  have hme : (b, c) ∈ owners := by
    obtain ⟨p, hp, rfl, hc⟩ := hmem
    exact (howner _).mpr ⟨p, hp, c, hc, howns, rfl⟩
  have hoid : ∀ y ∈ owners, c.id < y.2.id ∨ y = (b, c) := by
    intro y hy
    obtain ⟨p, hp, d, hd, hdo, rfl⟩ := (howner y).mp hy
    exact holdest p hp d hd hdo
  have hown : owners.find? (fun x => owners.all fun y => decide (x.2.id ≤ y.2.id)) = some (b, c) := by
    cases hcase : owners.find? (fun x => owners.all fun y => decide (x.2.id ≤ y.2.id)) with
    | none =>
      refine absurd (List.find?_eq_none.mp hcase (b, c) hme) ?_
      simp only [List.all_eq_true, decide_eq_true_eq, not_not]
      intro y hy
      rcases hoid y hy with h | rfl
      · exact h.le
      · exact le_rfl
    | some x =>
      have hle := List.find?_some hcase
      simp only [List.all_eq_true, decide_eq_true_eq] at hle
      rcases hoid x (List.mem_of_find?_eq_some hcase) with h | rfl
      · exact absurd (hle _ hme) (Nat.not_le.mpr h)
      · rfl
  rw [hown, hfind]
  simp only [Option.bind_eq_bind, Option.bind_some, hblock]

end

/-- Settles O34: a block that lands is read from scratch piece by piece, and its bytes go where its pieces stand: run by run into
scratch, or as one write to their line, which is performed at once where nothing comes before it. -/
theorem copyLanding : Obligations.CopyLanding := by
  refine ⟨?_, ?_, ?_⟩
  · intro s b c t src dst n k hordered halone hfound hop h1 hblocks hwindows hstopped hafter hcrc hengine hroom hk hfresh hunowned hlocal
      ht hclean hscratch lead first len tag harmed hn a counted
    have hready : BlockReady s b c t src dst n k :=
      ⟨hop, hlocal, hwindows, hstopped, hafter, hcrc, hengine, hroom, hk, hfresh, hunowned, ht, hclean⟩
    have h0 : blockLen c dst n k ≠ 0 := blockLen_ne_zero hop h1 hblocks hk
    refine ⟨fun hd _ => ?_, fun hd pa hline hhome hto howns howned hwrites hbefore hslice hflights hs => ?_⟩
    · intro z hapart
      obtain ⟨u, t', hland, hcounted, hmem, ht', hin, hout⟩ :=
        hready.lands_local hd (List.pairwise_map.mpr hscratch) h0 harmed hn hapart
      exact ⟨u, t', exec_copyLand_found hfound hland, hcounted, hmem, ht', hin, hout⟩
    · replace hd : hKind c.hd ≠ kLocal := hd
      have hat : StandsAt s c dst n k pa := ⟨hline, hhome, fun j hj => by
        rw [copyAddr, if_neg hd, ← Nat.add_assoc]
        exact hto j hj⟩
      refine ⟨?_, fun holdest hfirst => ?_⟩
      · have hready' : LineReady s b c (lineOf pa) := ⟨hordered, hfound, halone, howned, hwrites, hbefore, hslice, hflights⟩
        obtain ⟨u, hland, hcounted, hmem⟩ := hready.lands_line hd hat hready' h0 harmed hn
        obtain ⟨hin, hout⟩ := blockWrite_mem hs hmem
        exact ⟨u, exec_copyLand_found hfound hland, hcounted, hin, hout⟩
      · obtain ⟨x, hx, hfind⟩ := findCopy_bank hordered hfound
        exact exec_directoryRecall_oldest hfound ⟨(b, x), Tbl.mem_of_find hx, rfl, List.mem_of_find?_eq_some hfind⟩ howns hk
          (touches_block hop hat h0 hfresh) holdest hfirst
  · intro s b c w k home hfound hk hwrite _ hright hhome hstamp hbefore hearlier hslice hflights hs harmed hn
    have hready : WriteReady s c w := ⟨hbefore, hearlier, hslice, hflights, hright⟩
    obtain ⟨u, hlands, hmem⟩ := hready.lands (b := b) hhome hstamp harmed hn
    have hland : s.copyLand b c k = some u := by
      rw [State.copyLand, if_pos (by simpa using hk), hwrite, List.findSome?_cons, hlands]
    refine ⟨u, exec_copyLand_found hfound hland, fun hnodup x hx => ?_, fun i hi => ?_⟩
    · rw [hmem]
      exact Memory.read_writeAll_same hs (keyed w.cells) (by rwa [keyed, List.map_map]) (memKey x.1, x.2) (List.mem_map.mpr ⟨x, hx, rfl⟩)
    · rw [hmem]
      exact Memory.read_writeAll_other hs _ _ (by rwa [keyed, List.map_map])
  · intro s b c hfound hstopped hretry hengine
    rw [exec_copyRetry, execCopyRetry]
    refine eventStep_some ?_
    rw [hfound]
    simp [hretry, hengine, Option.isSome_iff_ne_none.mpr hstopped]

end Sys2Proof.Machine
end
section
/-!
PROOFS. A team in its place (R275, R278, R282): its grid, its own entry, its waves and their strands.
-/

namespace Sys2Proof.Machine

open Sys2Proof.Safety

/-! ### What the dispatcher's reads leave as it is -/

section
variable {s : State}

theorem fillReplica_besideCaches (s : State) (die pa : Nat) : (s.fillReplica die pa).besideCaches = s.besideCaches := rfl

theorem serveBelow_besideCaches (die : Nat) (cluster : Option Nat) (pa n : Nat) (clock : List Nat) (point : Bool) :
    Opt.Gives (fun x => x.2.2.besideCaches = s.besideCaches) (s.serveBelow die cluster pa n clock point) := by
  have hcount (t : State) : (match cluster with | some c => t.noteRequest pa c | none => t).besideCaches = t.besideCaches := by
    split
    · exact State.noteRequest_besideCaches ..
    · rfl
  simp only [State.serveBelow]
  split
  · exact .ite (.some rfl) .none
  · refine .ite (.some (hcount s)) ?_
    split
    · exact .some rfl
    · exact .ite (.some (hcount _)) .none

theorem dispatchRead_besideCaches (core asid level va n : Nat) :
    Act.Gives (fun x => x.2.besideCaches = s.besideCaches) (s.dispatchRead core asid level va n) := by
  refine Act.Gives.foldlM (P := fun x : Marked × State => x.2.besideCaches = s.besideCaches)
    (fun acc p hacc => .any fun pa => .any fun _ => ?_) _ rfl
  split
  · exact .error
  · next b q t ht => exact .ok ((serveBelow_besideCaches _ _ _ _ _ _ _ ht).trans hacc)

theorem tableRecords_besideCaches {g : Grid} {core : Nat} {h : List HRec} {v : State} (hv : s.tableRecords g core = .ok (h, v)) :
    v.besideCaches = s.besideCaches := by
  refine Act.Gives.foldlM (P := fun x : List HRec × State => x.2.besideCaches = s.besideCaches) (fun acc k hacc => ?_) _ rfl _ hv
  exact .ite (Act.Gives.bind (P := fun x => x.2.besideCaches = acc.2.besideCaches) (dispatchRead_besideCaches _ _ _ _ _)
    fun _ hx => .ok (Eq.trans hx hacc)) (.ok hacc)

end

/-! ### The waves of a team -/

section
variable {s : State} {w waveId team grid : Nat} {l : Launch} {trailing : Bool} {partner : Option Nat} {h : List HRec}
  {regs : Nat → Tbl Reg}

/-- A wave as it is placed. -/
def Launch.wave (l : Launch) (waveId team grid : Nat) (trailing : Bool) (partner : Option Nat) (h : List HRec) : Wave :=
  { Wave.fresh l.width l.live waveId team grid l.budget with
    w := l.args.zipIdx.map fun p => (p.2, p.1), h := h.zipIdx.map fun p => (p.2, p.1), trailing := trailing, partner := partner }

theorem State.putWave_waves :
    (s.putWave w l waveId team grid trailing partner h regs).waves = s.waves.set w (l.wave waveId team grid trailing partner h) :=
  congrArg State.waves ((s.setWave w (l.wave waveId team grid trailing partner h)).foldl_setStrand_rest w (fun s k =>
    { Strand.fresh l.entry (decide (k < l.live)) (s.parks.get (strandNo w k) 0) with regs := regs k }) (List.range l.width))

theorem strandNo_ne {w w' k k' : Nat} (hw : w ≠ w') (hk : k < 64) (hk' : k' < 64) : strandNo w k ≠ strandNo w' k' := fun h =>
  hw (by rw [← strandWave_strandNo w hk, h, strandWave_strandNo w' hk'])

end

/-- What a wave of a team is placed with beside its place: its number, its side of a redundant pair and the partner's place. -/
structure Placing where
  waveId : Nat → Nat
  trailing : Nat → Bool
  partner : Nat → Option Nat

section
variable {l : Launch} {team grid : Nat} {h : List HRec} {regs : Nat → Tbl Reg}

/-- The waves of a team are placed, one after the other. -/
def State.putWaves (s : State) (q : Placing) (l : Launch) (team grid : Nat) (h : List HRec) (regs : Nat → Tbl Reg)
    (ps : List (Nat × Nat)) : State :=
  ps.foldl (fun s p => s.putWave p.1 l (q.waveId p.2) team grid (q.trailing p.2) (q.partner p.2) h regs) s

theorem State.putWaves_grids (s : State) (q : Placing) (ps : List (Nat × Nat)) :
    (s.putWaves q l team grid h regs ps).grids = s.grids :=
  foldl_keeps State.grids (fun t p => by
    have hrest := congrArg State.grids
      (t.putWave_rest p.1 l (q.waveId p.2) team grid (q.trailing p.2) (q.partner p.2) h regs)
    exact hrest) ps s

theorem State.putWaves_teams (s : State) (q : Placing) (ps : List (Nat × Nat)) :
    (s.putWaves q l team grid h regs ps).teams = s.teams :=
  foldl_keeps State.teams (fun t p => by
    have hrest := congrArg State.teams
      (t.putWave_rest p.1 l (q.waveId p.2) team grid (q.trailing p.2) (q.partner p.2) h regs)
    exact hrest) ps s

/-- Every wave of a team has its entry and its lanes. -/
theorem State.putWaves_wave (s : State) (q : Placing) {ps : List (Nat × Nat)} (hps : (ps.map (·.1)).Nodup) (hwidth : l.width ≤ 64)
    {p : Nat × Nat} (hp : p ∈ ps) :
    (s.putWaves q l team grid h regs ps).waves.find p.1 =
        some (l.wave (q.waveId p.2) team grid (q.trailing p.2) (q.partner p.2) h) ∧
      ∀ k < l.width, (s.putWaves q l team grid h regs ps).strands.find (strandNo p.1 k) =
        some { Strand.fresh l.entry (decide (k < l.live)) (s.parks.get (strandNo p.1 k) 0) with regs := regs k } := by
  have hkeep (ps : List (Nat × Nat)) (t : State) {w : Nat} (hw : w ∉ ps.map (·.1)) :
      (t.putWaves q l team grid h regs ps).waves.find w = t.waves.find w ∧
        ∀ k < l.width, (t.putWaves q l team grid h regs ps).strands.find (strandNo w k) = t.strands.find (strandNo w k) := by
    induction ps generalizing t with
    | nil => exact ⟨rfl, fun _ _ => rfl⟩
    | cons p ps ih =>
      rw [List.map_cons, List.mem_cons, not_or] at hw
      obtain ⟨hwp, hw⟩ := hw
      obtain ⟨hwave, hstrand⟩ := ih (t.putWave p.1 l (q.waveId p.2) team grid (q.trailing p.2) (q.partner p.2) h regs) hw
      refine ⟨hwave.trans ?_, fun k hk => (hstrand k hk).trans ?_⟩
      · rw [State.putWave_waves, Tbl.find_set_other _ _ hwp]
      · exact State.putWave_strand_other _ _ _ _ _ _ _ _ _ fun j hj => strandNo_ne hwp (by omega) (by omega)
  induction ps generalizing s with
  | nil => cases hp
  | cons p' ps ih =>
    rw [List.map_cons, List.nodup_cons] at hps
    obtain ⟨hfirst, hps⟩ := hps
    have hparks := s.putWave_parks p'.1 l (q.waveId p'.2) team grid (q.trailing p'.2) (q.partner p'.2) h regs
    rcases List.mem_cons.mp hp with rfl | hp
    · obtain ⟨hwave, hstrand⟩ := hkeep ps (s.putWave p.1 l (q.waveId p.2) team grid (q.trailing p.2) (q.partner p.2) h regs) hfirst
      refine ⟨hwave.trans ?_, fun k hk => (hstrand k hk).trans (State.putWave_strand _ _ _ _ _ _ _ _ _ _ hk)⟩
      rw [State.putWave_waves, Tbl.find_set_same]
    · obtain ⟨hwave, hstrand⟩ := ih (s.putWave p'.1 l (q.waveId p'.2) team grid (q.trailing p'.2) (q.partner p'.2) h regs) hps hp
      exact ⟨hwave, fun k hk => by rw [← hparks]; exact hstrand k hk⟩

end

end Sys2Proof.Machine
end

section
/-!
PROOFS. A team that is put in its place as one step (R275, R278, R282).
-/

namespace Sys2Proof.Machine

open Sys2Proof.Safety

/-- How a team's waves are placed. -/
def Fit.placing (f : Fit) (l : Launch) : Placing where
  waveId := fun k => k % l.waves
  trailing := fun k => decide (l.waves ≤ k)
  partner := fun k =>
    if l.redundant then f.waves[if decide (l.waves ≤ k) then k - l.waves else k + l.waves]? else none

/-- The entry of a team that has been placed. -/
def Fit.team (f : Fit) (g teamId relaunches : Nat) (l : Launch) (tasks : Option Tasks) : Team :=
  { Team.fresh g teamId f.bank f.waves l.scratch f.tiles f.tags with
    accs := (List.range l.was).map fun n => (n, Acc.empty 0x10000002)
    contained := l.contained, redundant := l.redundant, relaunches := relaunches, tasks := tasks }

/-- The place of a team before the team stands there: clean caches, its context, fresh areas, no wave. -/
def State.cleared (s : State) (g : Nat) (grid : Grid) (l : Launch) (f : Fit) : State :=
  f.waves.foldl State.purgeWave (((f.bank :: dedup (f.waves.map waveBank)).foldl (fun s b => s.takeContext b grid.asid)
    ((s.dropClean (l1Cores (bankCore f.bank) l.fused)).modGrid g fun x =>
      { x with places := dedup (x.places ++ l1Cores (bankCore f.bank) l.fused) })).freshAreas f)

/-- The cores of a new team's active banks are woken. -/
def State.wakeBanks (s : State) (banks : List Nat) : State :=
  banks.foldl (fun s b => if s.activeBank (bankCore b) = b then s.wake (bankCore b) else s) s

section
variable (s : State) (g : Nat) (grid : Grid) (l : Launch) (f : Fit) (no teamId relaunches : Nat) (tasks : Option Tasks) (h : List HRec)
  (regs : Nat → Tbl Reg)

theorem State.putTeam_eq : s.putTeam g grid l f no teamId relaunches tasks h regs =
    (((s.cleared g grid l f).setTeam no (f.team g teamId relaunches l tasks)).putWaves (f.placing l) l no g h regs
      f.waves.zipIdx).wakeBanks (dedup (f.waves.map waveBank)) := rfl

theorem State.freshAreas_besideBanks {β : Type} (view : State → β) (hbank : ∀ t b x, view (State.modBank t b x) = view t)
    (hcore : ∀ t c x, view (State.modCore t c x) = view t) : view (s.freshAreas f) = view s :=
  (foldl_keeps view (fun t _ => hcore t _ _) _ _).trans (hbank s _ _)

/-- Clearing a place leaves a view of the machine that banks, cores and the entries of waves do not matter to. -/
theorem State.cleared_view {β : Type} (view : State → β) (hbank : ∀ t b x, view (State.modBank t b x) = view t)
    (hcore : ∀ t c x, view (State.modCore t c x) = view t) (hpurge : ∀ t w, view (State.purgeWave t w) = view t) :
    view (s.cleared g grid l f) = view ((s.dropClean (l1Cores (bankCore f.bank) l.fused)).modGrid g fun x =>
      { x with places := dedup (x.places ++ l1Cores (bankCore f.bank) l.fused) }) :=
  (foldl_keeps view hpurge _ _).trans ((State.freshAreas_besideBanks _ f view hbank hcore).trans
    (foldl_keeps view (f := fun s b => State.takeContext s b grid.asid) (fun t b => by
      unfold State.takeContext
      exact hbank t b _) _ _))

theorem State.wakeBanks_beneath (banks : List Nat) : (s.wakeBanks banks).beneath = s.beneath :=
  foldl_keeps State.beneath (fun t b => by
    split
    · exact t.wake_beneath _
    · rfl) _ _

theorem State.wakeBanks_strandIs {k : Nat} {st : Strand} (hl : st.life ≠ .blocked .sleep) (hs : StrandIs k st s) (banks : List Nat) :
    StrandIs k st (s.wakeBanks banks) := by
  refine StrandIs.foldl (fun t b ht => ?_) hs banks
  split
  · exact ht.wake _ hl
  · exact ht

theorem State.putTeam_grids : (s.putTeam g grid l f no teamId relaunches tasks h regs).grids =
    s.grids.change g fun x => { x with places := dedup (x.places ++ l1Cores (bankCore f.bank) l.fused) } := by
  rw [State.putTeam_eq, State.of_beneath (State.wakeBanks_beneath ..) State.grids fun _ => rfl, State.putWaves_grids]
  refine (State.cleared_view s g grid l f State.grids (fun _ _ _ => rfl) (fun _ _ _ => rfl) fun _ _ => rfl).trans ?_
  exact congrArg (fun t : Tbl Grid => t.change g fun x => { x with places := dedup (x.places ++ l1Cores (bankCore f.bank) l.fused) })
    (State.of_besideCaches (s.dropClean_besideCaches _) State.grids fun _ => rfl)

theorem State.putTeam_team : (s.putTeam g grid l f no teamId relaunches tasks h regs).teams.find no =
    some (f.team g teamId relaunches l tasks) := by
  rw [State.putTeam_eq, State.of_beneath (State.wakeBanks_beneath ..) State.teams fun _ => rfl, State.putWaves_teams]
  exact Tbl.find_set_same ..

/-- The waves of the team have their entries and their lanes. -/
theorem State.putTeam_wave (hnodup : f.waves.Nodup) (hwidth : l.width ≤ 64) {j w : Nat} (hj : f.waves[j]? = some w) :
    (s.putTeam g grid l f no teamId relaunches tasks h regs).waves.find w = some (l.wave ((f.placing l).waveId j) no g
        ((f.placing l).trailing j) ((f.placing l).partner j) h) ∧
      ∀ k < l.width, (s.putTeam g grid l f no teamId relaunches tasks h regs).strands.find (strandNo w k) =
        some { Strand.fresh l.entry (decide (k < l.live)) (s.parks.get (strandNo w k) 0) with regs := regs k } := by
  have hparks : (s.cleared g grid l f).parks = s.parks :=
    (State.cleared_view s g grid l f State.parks (fun _ _ _ => rfl) (fun _ _ _ => rfl) fun _ _ => rfl).trans
      (State.of_besideCaches (s.dropClean_besideCaches _) State.parks fun _ => rfl)
  obtain ⟨hwave, hstrand⟩ := ((s.cleared g grid l f).setTeam no (f.team g teamId relaunches l tasks)).putWaves_wave (l := l) (team := no)
    (grid := g) (h := h) (regs := regs) (f.placing l) (ps := f.waves.zipIdx) (by rwa [List.zipIdx_map_fst]) hwidth
    (List.mk_mem_zipIdx_iff_getElem?.mpr hj)
  rw [State.putTeam_eq]
  refine ⟨?_, fun k hk => ?_⟩
  · rw [State.of_beneath (State.wakeBanks_beneath ..) State.waves fun _ => rfl]
    exact hwave
  · have hk := hstrand k hk
    have hsame : ((s.cleared g grid l f).setTeam no (f.team g teamId relaunches l tasks)).parks = s.parks := hparks
    rw [hsame] at hk
    refine State.wakeBanks_strandIs _ ?_ hk _
    simp only [Strand.fresh]
    split <;> nofun

end

end Sys2Proof.Machine
end

section
/-!
PROOFS. Teams are placed and placed again; a grid whose pinned core is lost aborts (R158, R275, R276, R283, R291).
-/

namespace Sys2Proof.Machine

open Sys2Proof.Safety

section
variable {s v : State} {g : Nat} {x : Grid} {f : Fit} {h : List HRec}

theorem pinLost_of_no_pin (hpin : x.launch.pin = none) : s.pinLost g x = false := by
  simp [State.pinLost, hpin]

/-- The state in which the next team of a grid has been placed. -/
def State.nextPlaced (v : State) (g : Nat) (x : Grid) (f : Fit) (h : List HRec) : State :=
  (({ v with nextId := v.nextId + 1 } : State).putTeam g x x.launch f v.nextId x.nextTeam 0 none h fun _ => []).modGrid g fun x =>
    { x with nextTeam := x.nextTeam + 1 }

theorem placeNext_ok (hrecords : s.tableRecords x (bankCore f.bank) = .ok (h, v)) :
    s.placeNext g x f = .ok (v.nextPlaced g x f h) := by
  rw [State.placeNext, hrecords]
  rfl

theorem placeAll_one (hfind : s.grids.find g = some x) (hspot : s.spot x.asid x.launch none none = some f)
    (hrecords : s.tableRecords x (bankCore f.bank) = .ok (h, v)) : s.placeAll g 1 = .ok (v.nextPlaced g x f h) := by
  rw [State.placeAll, hfind]
  show (needed (s.spot x.asid x.launch none none) >>= fun f => s.placeNext g x f >>= fun s => s.placeAll g 0) = _
  rw [hspot]
  show (s.placeNext g x f >>= fun s => s.placeAll g 0) = _
  rw [placeNext_ok hrecords]
  rfl

/-- A grid's next team is placed. -/
theorem exec_teamPlace_places (hfind : s.grids.find g = some x) (hunplaced : x.unplaced = true) (hpin : x.launch.pin = none)
    (hturn : s.turnOf g x x.nextTeam = true) (hcoop : x.launch.cooperative = false)
    (hspot : s.spot x.asid x.launch none none = some f) (hrecords : s.tableRecords x (bankCore f.bank) = .ok (h, v)) :
    exec (.teamPlace g) s = .next (v.nextPlaced g x f h) := by
  rw [exec_teamPlace, execTeamPlace]
  refine eventStep_some ?_
  rw [hfind]
  show ((guard (x.unplaced = true) : Option Unit) >>= fun _ => _) = _
  rw [guard_bind hunplaced, pinLost_of_no_pin hpin]
  show ((guard (s.turnOf g x x.nextTeam = true) : Option Unit) >>= fun _ => _) = _
  rw [guard_bind hturn, hcoop]
  show s.dispatch _ x.asid (s.placeAll g 1) = _
  rw [placeAll_one hfind hspot hrecords]
  rfl

/-- What the placement of a grid's next team leaves. -/
theorem nextPlaced_gives (hfind : s.grids.find g = some x)
    (hrecords : s.tableRecords x (bankCore f.bank) = .ok (h, v)) (hnodup : f.waves.Nodup) (hwidth : x.launch.width ≤ 64) :
    let u := v.nextPlaced g x f h
    u.mem = s.mem ∧
    u.grids.find g = some { x with nextTeam := x.nextTeam + 1
                                   places := dedup (x.places ++ l1Cores (bankCore f.bank) x.launch.fused) } ∧
    u.teams.find v.nextId = some (f.team g x.nextTeam 0 x.launch none) ∧
    ∀ j w, f.waves[j]? = some w → j < x.launch.waves →
      (∃ z, u.waves.find w = some z ∧ z.waveId = j ∧ z.width = x.launch.width ∧ z.alloc = x.launch.budget ∧
        z.w = x.launch.args.zipIdx.map fun p => (p.2, p.1)) ∧
      ∀ l < x.launch.width, u.strands.find (strandNo w l) =
        some (Strand.fresh x.launch.entry (decide (l < x.launch.live)) (s.parks.get (strandNo w l) 0)) := by
  intro u
  have hbeside := tableRecords_besideCaches hrecords
  have hmem : v.mem = s.mem := State.of_besideCaches hbeside State.mem fun _ => rfl
  have hgrids : v.grids = s.grids := State.of_besideCaches hbeside State.grids fun _ => rfl
  have hparks : v.parks = s.parks := State.of_besideCaches hbeside State.parks fun _ => rfl
  refine ⟨(State.putTeam_mem ..).trans hmem, ?_, State.putTeam_team .., fun j w hj hlt => ?_⟩
  · show (Tbl.change _ g _).find g = _
    rw [Tbl.find_change_same, State.putTeam_grids, Tbl.find_change_same]
    show Option.map _ (Option.map _ (v.grids.find g)) = _
    rw [hgrids, hfind]
    rfl
  · obtain ⟨hwave, hstrand⟩ := ({ v with nextId := v.nextId + 1 } : State).putTeam_wave g x x.launch f v.nextId x.nextTeam 0 none h
      (fun _ => []) hnodup hwidth hj
    refine ⟨⟨_, hwave, Nat.mod_eq_of_lt hlt, rfl, rfl, rfl⟩, fun l hl => (hstrand l hl).trans ?_⟩
    show some { Strand.fresh x.launch.entry (decide (l < x.launch.live)) (v.parks.get (strandNo w l) 0) with regs := [] } = _
    rw [hparks]
    rfl

/-- A team that waits is placed again, in its turn. -/
theorem exec_teamRelaunch_places {team : Nat} {t : Team} (ht : s.teams.find team = some t) (hwaiting : t.waiting = true)
    (hfind : s.grids.find t.grid = some x) (htasks : t.tasks = none) (hturn : s.turnOf t.grid x t.teamId = true)
    (hpin : s.pinLost t.grid x = false) (hspot : s.spot x.asid x.launch (some t) none = some f)
    (hrecords : s.tableRecords x (bankCore f.bank) = .ok (h, v)) :
    exec (.teamRelaunch team) s =
      .next (v.putTeam t.grid x x.launch f team t.teamId t.relaunches t.tasks h (argRegs [])) := by
  have hshape : x.shape (some t) = x.launch := by simp [Grid.shape, htasks]
  rw [exec_teamRelaunch, execTeamRelaunch]
  refine eventStep_some ?_
  rw [ht]
  show ((guard (t.waiting = true) : Option Unit) >>= fun _ => _) = _
  rw [guard_bind hwaiting, hfind]
  show (if s.pinLost t.grid x = true then _ else _) = _
  rw [hpin]
  show ((guard (s.turnOf t.grid x t.teamId = true) : Option Unit) >>= fun _ => _) = _
  rw [guard_bind hturn, hshape, hspot]
  show s.dispatch _ x.asid (s.placeAgain x team t f) = _
  have hplace : s.placeAgain x team t f = .ok (v.putTeam t.grid x x.launch f team t.teamId t.relaunches t.tasks h (argRegs [])) := by
    rw [State.placeAgain, hrecords, hshape, htasks]
    rfl
  rw [hplace]
  rfl

/-- A grid that has lost its pin aborts where a team of it is to be placed. -/
theorem pinLost_of_lost {core : Nat} (hpin : x.launch.pin = some core) (hlost : s.retiredCore core = true ∨ (s.core core).halted = true)
    (hplace : s.toPlace g x ≠ []) : s.pinLost g x = true := by
  simp [State.pinLost, hpin, hlost, hplace]

end

end Sys2Proof.Machine
end

section
/-!
PROOFS. TEAM_RETIRE: the team is gone, with its waves and strands, and its grid counts it (R275, R284, R290).
-/

namespace Sys2Proof.Machine

open Sys2Proof.Safety

/-! ### Teams through a commit -/

section
variable {s : State} {k : Nat} {t : Team}

/-- A commit leaves a team that is listed its waves, and the others as they are. -/
theorem commit_keeps_team (ht : s.teams.find k = some t) (hs : KeyOrdered s.teams) :
    KeyOrdered (s.commit k).teams ∧ ∃ x, (s.commit k).teams.find k = some x ∧ x.waves = t.waves := by
  unfold State.commit
  rw [ht]
  dsimp only
  split
  · exact ⟨hs, t, ht, rfl⟩
  · rw [State.of_beneath (State.sendStore_beneath ..) State.teams fun _ => rfl]
    exact ⟨hs.set _ _, _, Tbl.find_set_same .., rfl⟩

theorem commit_grids : (s.commit k).grids = s.grids := by
  obtain ⟨l, hbeneath, -⟩ := s.commit_beneath_teams k
  exact State.of_beneath hbeneath State.grids fun _ => rfl

end

/-! ### A team that is dropped -/

section
variable {s : State} {k : Nat} {t : Team}

theorem dropTeam_waves (ht : s.teams.find k = some t) : (s.dropTeam k).waves = s.waves.filter fun p => !t.waves.contains p.1 := by
  rw [State.dropTeam, ht]

theorem dropTeam_strands (ht : s.teams.find k = some t) :
    (s.dropTeam k).strands = s.strands.filter fun p => !t.waves.contains (strandWave p.1) := by
  rw [State.dropTeam, ht]

theorem dropTeam_grids : (s.dropTeam k).grids = s.grids := by
  unfold State.dropTeam
  split <;> rfl

end

/-! ### What is released after it -/

/-- The numbers of the strands, the waves, the teams and the grids. -/
def State.places (s : State) : List Nat × Tbl Wave × Tbl Team × Tbl Grid := (s.strands.map (·.1), s.waves, s.teams, s.grids)

theorem State.places_of_beneath {s u : State} (h : u.beneath = s.beneath) : u.places = s.places :=
  State.of_beneath h State.places fun v => by
    simp [State.places, State.beneath, State.besideCaches, Tbl.mapVal, Function.comp_def]

theorem State.releaseBank_places (s : State) (b : Nat) : ((s.releaseMapping b).releaseBank b).places = s.places := by
  have hmapping : (s.releaseMapping b).places = s.places := by
    unfold State.releaseMapping
    split <;> rfl
  refine Eq.trans ?_ hmapping
  unfold State.releaseBank
  split
  · rfl
  · split <;> rfl

theorem State.swapBack_beneath (s : State) (core : Nat) : (s.swapBack core).beneath = s.beneath := by
  unfold State.swapBack State.requestSwap
  split
  · exact State.wake_beneath ..
  · rfl

/-- What a retired team held is released. -/
def State.released (s : State) (g : Nat) (cores banks : List Nat) (f : Core → Core) : State :=
  cores.foldl State.swapBack (banks.foldl (fun s b => (s.releaseMapping b).releaseBank b)
    ((cores.foldl (fun s c => s.modCore c f) s).modGrid g fun g => { g with retiredTeams := g.retiredTeams + 1 }))

theorem State.released_places (s : State) (g : Nat) (cores banks : List Nat) (f : Core → Core) :
    (s.released g cores banks f).places =
      (s.strands.map (·.1), s.waves, s.teams, s.grids.change g fun g => { g with retiredTeams := g.retiredTeams + 1 }) := by
  have hcores := foldl_keeps State.places (f := fun s c => State.modCore s c f) (fun t c => rfl) cores s
  have hgrids : ((cores.foldl (fun s c => s.modCore c f) s).modGrid g fun g => { g with retiredTeams := g.retiredTeams + 1 }).places =
      (s.strands.map (·.1), s.waves, s.teams, s.grids.change g fun g => { g with retiredTeams := g.retiredTeams + 1 }) :=
    congrArg (fun p : List Nat × Tbl Wave × Tbl Team × Tbl Grid =>
      (p.1, p.2.1, p.2.2.1, p.2.2.2.change g fun g => { g with retiredTeams := g.retiredTeams + 1 })) hcores
  exact (foldl_keeps State.places (fun t c => State.places_of_beneath (t.swapBack_beneath c)) _ _).trans
    ((foldl_keeps State.places State.releaseBank_places _ _).trans hgrids)

theorem State.released_mem (s : State) (g : Nat) (cores banks : List Nat) (f : Core → Core) : (s.released g cores banks f).mem = s.mem :=
  (State.mem_foldl _ State.swapBack_mem _).trans ((State.mem_foldl _ (fun t b => by simp) _).trans
    (foldl_keeps State.mem (f := fun s c => State.modCore s c f) (fun _ _ => rfl) cores s))

section
variable {s : State} {team : Nat} {t : Team} {g : Grid}

/-- A team that is done retires. -/
theorem teamRetire_retires (ht : s.teams.find team = some t) (hdone : s.teamDone team t = true) (hg : s.grids.find t.grid = some g)
    (hs : KeyOrdered s.teams) :
    ∃ u, exec (.teamRetire team) s = .next u ∧ u.mem = s.mem ∧ u.teams.find team = none ∧
      u.grids.find t.grid = some { g with retiredTeams := g.retiredTeams + 1 } ∧
      (∀ p ∈ u.waves, t.waves.contains p.1 = false) ∧ ∀ p ∈ u.strands, t.waves.contains (strandWave p.1) = false := by
  generalize hc : (if t.contained then s.commit team else s) = c
  have hcommit : c.mem = s.mem ∧ c.grids = s.grids ∧ KeyOrdered c.teams ∧ ∃ x, c.teams.find team = some x ∧ x.waves = t.waves := by
    rw [← hc]
    split
    · exact ⟨State.commit_mem .., commit_grids, commit_keeps_team ht hs⟩
    · exact ⟨rfl, rfl, hs, t, ht, rfl⟩
  obtain ⟨hmem, hgrids, hordered, x, hx, hwaves⟩ := hcommit
  let d := c.dropTeam team
  let u := ({ d with teams := d.teams.drop team } : State).released t.grid (dedup (t.waves.map fun w => bankCore (waveBank w)))
    (dedup (t.bank :: t.waves.map waveBank)) fun y => if y.held then y else { y with mismatches := y.mismatches.filter (·.team ≠ team) }
  have hplaces : u.places = (d.strands.map (·.1), d.waves, d.teams.drop team, d.grids.change t.grid fun g =>
      { g with retiredTeams := g.retiredTeams + 1 }) := State.released_places ..
  obtain ⟨hstrands, hrest⟩ := Prod.mk.inj hplaces
  obtain ⟨huwaves, hrest⟩ := Prod.mk.inj hrest
  obtain ⟨huteams, hugrids⟩ := Prod.mk.inj hrest
  refine ⟨u, ?_, (State.released_mem ..).trans ((State.dropTeam_mem ..).trans hmem), ?_, ?_, fun p hp => ?_, fun p hp => ?_⟩
  · rw [exec_teamRetire, execTeamRetire]
    refine eventStep_some ?_
    rw [ht]
    show ((guard (s.teamDone team t = true) : Option Unit) >>= fun _ => _) = _
    rw [guard_bind hdone, hc]
    rfl
  · rw [huteams, State.dropTeam_teams]
    exact Tbl.find_drop_same hordered team
  · rw [hugrids, Tbl.find_change_same, dropTeam_grids, hgrids, hg]
    rfl
  · rw [huwaves, dropTeam_waves hx, hwaves] at hp
    simpa using (List.mem_filter.mp hp).2
  · have hkey : p.1 ∈ d.strands.map (·.1) := hstrands ▸ List.mem_map_of_mem hp
    obtain ⟨q, hq, hqp⟩ := List.mem_map.mp hkey
    rw [dropTeam_strands hx, hwaves] at hq
    rw [← hqp]
    simpa using (List.mem_filter.mp hq).2

end

end Sys2Proof.Machine
end

section
/-!
PROOFS. GRID_RETIRE: the dirty bytes first, then the completion word, the retirement and the strands in GWAIT (R284, R285, R366).
-/

namespace Sys2Proof.Machine

open Sys2Proof.Safety

/-! ### What error records leave as it is -/

section
variable {P : State → Prop}

/-- What keeps a property in the delivery of error records: that a record put into a ring keeps it, and that the device and the count
of free values do not matter to it. -/
structure RecordKeeps (P : State → Prop) : Prop where
  put : ∀ t reg record, P t → Opt.Gives P (t.ringPut reg record)
  device : ∀ t d n, P t → P { t with device := d, freeCount := n }

namespace RecordKeeps

variable (h : RecordKeeps P) {s : State} (hs : P s)
include h hs

theorem flushErrors (l : List ErrorRec) : P (s.flushErrors l) := by
  induction l generalizing s with
  | nil => exact h.device s _ s.freeCount hs
  | cons r l ih =>
    unfold State.flushErrors
    split
    · next t ht => exact ih (h.device t _ t.freeCount (h.put s _ _ hs t ht))
    · exact h.device s _ s.freeCount hs

theorem flushHeld : P s.flushHeld := h.flushErrors hs _

theorem errorRecord (r : ErrorRec) : P (s.errorRecord r) := by
  have hheld := h.flushHeld (h.device s { s.device with time := s.device.time + (Config.freeTime s.freeCount).setWidth 64 }
    (s.freeCount + 1) hs)
  unfold State.errorRecord
  dsimp only
  split
  · exact h.flushErrors hheld _
  · exact h.device _ _ _ hheld

end RecordKeeps

end

theorem strandIs_recordKeeps {k : Nat} {st : Strand} (hl : st.life ≠ .blocked .sleep) : RecordKeeps (StrandIs k st) :=
  ⟨fun _ _ _ ht => ht.ringPut _ _ hl, fun _ _ _ ht => ht⟩

/-! ### The strands that wait for a grid -/

/-- A strand that waited for a grid goes on. -/
def State.gwaitEnded (s : State) (status : Nat) (w : Nat × Nat × Nat) : State :=
  (((s.dropClean (s.l1Of w.1)).deliver w.1 w.2.2 w.2.1 [(.ofNat 32 (status % 256), false)]).modStrand w.1 fun st =>
    { st with life := .ready, wait := 0 }).wake (strandCore w.1)

section
variable {s : State}

theorem State.gwaitEnded_besideStrands (s : State) (status : Nat) (w : Nat × Nat × Nat) :
    (s.gwaitEnded status w).besideStrands = s.besideStrands :=
  (State.besideStrands_of_beneath (State.wake_beneath ..)).trans ((State.modStrand_besideStrands ..).trans
    ((State.modStrand_besideStrands ..).trans (State.besideStrands_of_beneath (State.beneath_of_besideCaches
      (State.dropClean_besideCaches ..)))))

/-- Strand `k` stands at a bundle and is not asleep. -/
def StandsAwake (k : Nat) (pc : VAddr) (s : State) : Prop := ∃ st, StrandIs k st s ∧ st.pc = pc ∧ st.life ≠ .blocked .sleep

/-- Strand `k` stands at a bundle and is Ready. -/
def StandsReady (k : Nat) (pc : VAddr) (s : State) : Prop := ∃ st, StrandIs k st s ∧ st.pc = pc ∧ st.life = .ready

theorem StandsReady.awake {k : Nat} {pc : VAddr} (h : StandsReady k pc s) : StandsAwake k pc s := by
  obtain ⟨st, hs, hpc, hl⟩ := h
  exact ⟨st, hs, hpc, by rw [hl]; nofun⟩

variable {pc : VAddr}

/-- The strand that waited is Ready where it stands. -/
theorem State.gwaitEnded_ready {status : Nat} {w : Nat × Nat × Nat} (h : StandsAwake w.1 pc s) : StandsReady w.1 pc (s.gwaitEnded status w) := by
  obtain ⟨st, hs, hpc, -⟩ := h
  have hclean : StrandIs w.1 st (s.dropClean (s.l1Of w.1)) := hs.same (s.dropClean_strands _)
  obtain ⟨v, hv, -, hvpc, -⟩ := State.deliver_arrives w.2.2 w.2.1 [(.ofNat 32 (status % 256), false)] hclean
  refine ⟨{ v with life := .ready, wait := 0 }, StrandIs.wake _ nofun ?_, hvpc.trans hpc, rfl⟩
  rw [StrandIs, State.modStrand_of_find _ hv]
  exact Tbl.find_set_same ..

/-- Another strand is as it was. -/
theorem State.gwaitEnded_other {status : Nat} {w : Nat × Nat × Nat} {k : Nat} {st : Strand} (hk : k ≠ w.1) (hl : st.life ≠ .blocked .sleep)
    (h : StrandIs k st s) : StrandIs k st (s.gwaitEnded status w) := by
  refine StrandIs.wake _ hl ?_
  rw [StrandIs]
  refine (Tbl.find_change_other _ _ hk).trans ((Tbl.find_change_other _ _ hk).trans ?_)
  rw [State.dropClean_strands]
  exact h

/-- Every strand that waits is Ready afterwards. -/
theorem State.gwaitsEnded_ready (status : Nat) {ws : List (Nat × Nat × Nat)} {w : Nat × Nat × Nat} (hw : w ∈ ws)
    (h : StandsAwake w.1 pc s) : StandsReady w.1 pc (ws.foldl (fun s w => s.gwaitEnded status w) s) := by
  have hkeep (ws : List (Nat × Nat × Nat)) {k : Nat} {t : State} (h : StandsReady k pc t) :
      StandsReady k pc (ws.foldl (fun s w => s.gwaitEnded status w) t) := by
    induction ws generalizing t with
    | nil => exact h
    | cons x ws ih =>
      refine ih ?_
      by_cases hx : k = x.1
      · subst hx
        exact State.gwaitEnded_ready h.awake
      · obtain ⟨st, hs, hpc, hl⟩ := h
        exact ⟨st, State.gwaitEnded_other hx (by rw [hl]; nofun) hs, hpc, hl⟩
  induction ws generalizing s with
  | nil => cases hw
  | cons x ws ih =>
    by_cases hx : w.1 = x.1
    · refine hkeep ws ?_
      rw [hx] at h ⊢
      exact State.gwaitEnded_ready h
    · refine ih ((List.mem_cons.mp hw).resolve_left fun hwx => hx (congrArg Prod.fst hwx)) ?_
      obtain ⟨st, hs, hpc, hl⟩ := h
      exact ⟨st, State.gwaitEnded_other hx hl hs, hpc, hl⟩

end

/-! ### The retirement of a grid -/

/-- A grid retires: it is marked, the strands that wait for it go on, and cores of priority 3 are given back. -/
def State.endGrid (s : State) (grid : Nat) (g : Grid) : State :=
  g.places.foldl State.swapBack ((s.setGrid grid { g with retired := true, stores := [] }).endGwaits grid g.status)

section
variable {s : State} {grid : Nat} {g : Grid}

theorem State.endGwaits_besideStrands (s : State) (grid status : Nat) : (s.endGwaits grid status).besideStrands = s.besideStrands :=
  foldl_keeps State.besideStrands (fun t w => t.gwaitEnded_besideStrands status w) _ _

theorem State.endGrid_besideStrands (s : State) (grid : Nat) (g : Grid) : (s.endGrid grid g).besideStrands =
    (s.setGrid grid { g with retired := true, stores := [] }).besideStrands :=
  (foldl_keeps State.besideStrands (fun t c => State.besideStrands_of_beneath (t.swapBack_beneath c)) _ _).trans
    (State.endGwaits_besideStrands ..)

theorem State.endGrid_find (s : State) (grid : Nat) (g : Grid) :
    (s.endGrid grid g).grids.find grid = some { g with retired := true, stores := [] } := by
  rw [State.of_besideStrands (s.endGrid_besideStrands grid g) State.grids fun _ => rfl]
  exact Tbl.find_set_same ..

theorem State.endGrid_mem (s : State) (grid : Nat) (g : Grid) : (s.endGrid grid g).mem = s.mem :=
  (State.of_besideStrands (s.endGrid_besideStrands grid g) State.mem fun _ => rfl).trans rfl

theorem State.endGrid_device (s : State) (grid : Nat) (g : Grid) : (s.endGrid grid g).device = s.device :=
  (State.of_besideStrands (s.endGrid_besideStrands grid g) State.device fun _ => rfl).trans rfl

/-- A strand in GWAIT for the grid goes on where it stands. -/
theorem State.endGrid_waiter {k d id : Nat} {st : Strand} (hs : StrandIs k st s) (hl : st.life = .blocked (.grid grid d id)) :
    StandsReady k st.pc (s.endGrid grid g) := by
  have hwaits : (k, d, id) ∈ ((s.setGrid grid { g with retired := true, stores := [] }).strands.filterMap fun p => match p.2.life with
      | .blocked (.grid x d id) => if x = grid then some (p.1, d, id) else none
      | _ => none) := by
    refine List.mem_filterMap.mpr ⟨(k, st), Tbl.mem_of_find hs, ?_⟩
    simp [hl]
  have hready : StandsReady k st.pc ((s.setGrid grid { g with retired := true, stores := [] }).endGwaits grid g.status) :=
    State.gwaitsEnded_ready g.status hwaits ⟨st, hs.same rfl, rfl, by rw [hl]; nofun⟩
  obtain ⟨st', hs', hpc, hl'⟩ := hready
  refine ⟨st', StrandIs.foldl (fun t c ht => ?_) hs' _, hpc, hl'⟩
  unfold State.swapBack State.requestSwap
  split
  · exact StrandIs.wake _ (by rw [hl']; nofun) (ht.same rfl)
  · exact ht

end

end Sys2Proof.Machine
end

section
/-!
PROOFS. O45: teams are placed, placed again and retired; grids retire (R275, R276, R283 to R285, R291, R366).
-/

namespace Sys2Proof.Machine

open Sys2Proof.Safety

section
variable {s : State} {grid : Nat} {g : Grid}

theorem ringPut_grids (s : State) (reg : Dword) (record : List Byte) : Opt.Gives (fun t => t.grids = s.grids) (s.ringPut reg record) := by
  have hwrite (s : State) (pa : Nat) (bytes : List Byte) : (s.writeEverywhere pa bytes).grids = s.grids := by
    refine (foldl_keeps State.grids (fun t l => State.of_beneath (t.wakeLine_beneath (l * 256)) State.grids fun _ => rfl) _ _).trans ?_
    exact foldl_keeps State.grids (f := fun t k => t.cleanSector (k * 64)) (fun t k => rfl) _ (s.poke pa bytes)
  unfold State.ringPut
  refine .ite .none (.ite (.some ?_) .none)
  rw [hwrite, hwrite]

theorem flushHeld_grids (s : State) : s.flushHeld.grids = s.grids :=
  RecordKeeps.flushHeld (P := fun t => t.grids = s.grids)
    ⟨fun t reg record ht u hu => (ringPut_grids t reg record u hu).trans ht, fun _ _ _ ht => ht⟩ rfl

/-- A strand through the writes of a completion word. -/
theorem strandIs_performed {k : Nat} {st : Strand} (hl : st.life ≠ .blocked .sleep) (hs : StrandIs k st s) (id : Nat)
    (ls : List (List Host.Cell)) : StrandIs k st (ls.foldl (fun s l => s.performNow id l) s) :=
  StrandIs.foldl (fun _ l ht => performNow_strandIs hl ht id l) hs ls

/-! ### When a grid retires -/

/-- A grid is done: its teams have retired, and nothing of it or of a grid below it is left (R284). -/
structure GridOver (s : State) (grid : Nat) (g : Grid) : Prop where
  found : s.grids.find grid = some g
  going : g.retired = false
  placed : g.unplaced = false
  counted : g.teamCount ≤ g.retiredTeams
  teams : ∀ p ∈ s.teams, p.2.grid ≠ grid
  pools : ∀ p ∈ s.clusters, (∀ t ∈ p.2.pool, t.grid ≠ grid) ∧ ∀ q ∈ p.2.pushing, q.2.grid ≠ grid
  items : ∀ p ∈ s.cores, ∀ t ∈ p.2.items, t.grid ≠ grid
  below : ∀ p ∈ s.grids, p.2.parentGrid = some grid → p.2.retired = true
  sent : s.awaits g.stores g.flushed = false

/-- What GRID_RETIRE does for a grid that is done. -/
def State.gridStep (s : State) (grid : Nat) (g : Grid) : Option State :=
  if !g.flushed then
    some ((s.writeBackAll g.places).setGrid grid
      { g with stores := (s.writeBackAll g.places).flightsOf g.places ++ (s.writeBackAll g.places).updates.map (·.id), flushed := true })
  else do
    guard (!s.flushHeld.recordsHeld grid)
    s.flushHeld.dispatch (g.places.headD 0) g.asid
      ((s.flushHeld.writeDone (g.places.headD 0) grid g).map fun t => t.endGrid grid g)

theorem eventStep_getD (s : State) (f : State → Option State) : eventStep s f = .next ((f s).getD s) := by
  unfold eventStep
  cases f s <;> rfl

namespace GridOver

variable (h : GridOver s grid g)
include h

theorem done : s.gridDone grid g = true := by
  have hteams : (s.teams.any fun p => p.2.grid = grid) = false := List.any_eq_false.mpr fun p hp => by simpa using h.teams p hp
  have hpools : (s.clusters.any fun p => p.2.pool.any (·.grid = grid) || p.2.pushing.any (·.2.grid = grid)) = false :=
    List.any_eq_false.mpr fun p hp => by
      obtain ⟨hpool, hpushing⟩ := h.pools p hp
      simpa using ⟨hpool, fun k t ht => hpushing (k, t) ht⟩
  have hitems : (s.cores.any fun p => p.2.items.any (·.grid = grid)) = false := List.any_eq_false.mpr fun p hp => by simpa using h.items p hp
  have hbelow : (s.grids.all fun p => p.2.parentGrid ≠ some grid || p.2.retired) = true := List.all_eq_true.mpr fun p hp => by
    by_cases hparent : p.2.parentGrid = some grid
    · simp [h.below p hp hparent]
    · simp [hparent]
  rw [State.gridDone, hteams, hpools, hitems, hbelow, h.going, h.placed]
  simpa using h.counted

/-- The answer of GRID_RETIRE for a grid that is done. -/
theorem exec_eq : exec (.gridRetire grid) s = .next ((s.gridStep grid g).getD s) := by
  have hgo : (s.gridDone grid g && !s.awaits g.stores g.flushed) = true := by rw [h.done, h.sent]; rfl
  rw [exec_gridRetire, execGridRetire, eventStep_getD, h.found]
  show Host.Outcome.next (Option.getD ((guard ((s.gridDone grid g && !s.awaits g.stores g.flushed) = true) : Option Unit) >>= fun _ => _) s) = _
  rw [guard_bind hgo]
  rfl

/-- The dirty bytes go first. -/
theorem exec_flushes (hflushed : g.flushed = false) : exec (.gridRetire grid) s = .next ((s.writeBackAll g.places).setGrid grid
    { g with stores := (s.writeBackAll g.places).flightsOf g.places ++ (s.writeBackAll g.places).updates.map (·.id), flushed := true }) := by
  rw [h.exec_eq, State.gridStep, hflushed]
  rfl

/-- The completion word waits for the error records that are held for the grid. -/
theorem exec_held (hflushed : g.flushed = true) (hheld : s.flushHeld.recordsHeld grid = true) : exec (.gridRetire grid) s = .next s := by
  rw [h.exec_eq, State.gridStep, hflushed, hheld]
  rfl

theorem exec_writes (hflushed : g.flushed = true) (hheld : s.flushHeld.recordsHeld grid = false) {x : Act State}
    (hx : s.flushHeld.writeDone (g.places.headD 0) grid g = x) : exec (.gridRetire grid) s =
      .next ((s.flushHeld.dispatch (g.places.headD 0) g.asid (x.map fun t => t.endGrid grid g)).getD s) := by
  rw [h.exec_eq, State.gridStep, hflushed, hheld, hx]
  rfl

end GridOver

/-! ### The completion word -/

theorem writeDone_without (hdone : g.launch.done = 0) (core : Nat) : s.writeDone core grid g = .ok s := by
  rw [State.writeDone, if_pos hdone]
  rfl

/-- The completion word by what its place is found to be. -/
theorem writeDone_found {core : Nat} (hdone : g.launch.done ≠ 0) {x : Act (Option (List Host.Cell))}
    (hx : ({ s with nextId := s.nextId + 1 } : State).doneCells core g (toBytes 4 g.status ++ toBytes 4 grid) = x) :
    s.writeDone core grid g = x.map fun found => match found with
      | some cells => (splitLines cells).foldl (fun t l => t.performNow s.nextId l) ({ s with nextId := s.nextId + 1 } : State)
      | none => ({ s with nextId := s.nextId + 1 } : State).errorRecord
          { ErrorRec.blank with code := XLATE, grid := grid, kind := 3, va := g.launch.done.toNat, asid := g.asid } := by
  rw [State.writeDone, if_neg hdone]
  show (({ s with nextId := s.nextId + 1 } : State).doneCells core g (toBytes 4 g.status ++ toBytes 4 grid) >>= fun found => _) = _
  rw [hx]
  cases x with
  | error e => rfl
  | ok found => cases found <;> rfl

/-- A completion word that can be written: its bytes, line by line. -/
theorem writeDone_cells {core : Nat} (hdone : g.launch.done ≠ 0) {cells : List Host.Cell}
    (hcells : ({ s with nextId := s.nextId + 1 } : State).doneCells core g (toBytes 4 g.status ++ toBytes 4 grid) = .ok (some cells)) :
    s.writeDone core grid g =
      .ok ((splitLines cells).foldl (fun t l => t.performNow s.nextId l) ({ s with nextId := s.nextId + 1 } : State)) :=
  writeDone_found hdone hcells

/-- A completion word whose address cannot be written: an error record in its stead. -/
theorem writeDone_unwritable {core : Nat} (hdone : g.launch.done ≠ 0)
    (hnone : ({ s with nextId := s.nextId + 1 } : State).doneCells core g (toBytes 4 g.status ++ toBytes 4 grid) = .ok none) :
    s.writeDone core grid g = .ok (({ s with nextId := s.nextId + 1 } : State).errorRecord
      { ErrorRec.blank with code := XLATE, grid := grid, kind := 3, va := g.launch.done.toNat, asid := g.asid }) :=
  writeDone_found hdone hnone

/-- The answer of GRID_RETIRE that has retired a grid (R284, R285). -/
def GridRetires (s : State) (grid : Nat) (g : Grid) (u : State) : Prop :=
  exec (.gridRetire grid) s = .next u ∧ u.grids.find grid = some { g with retired := true, stores := [] } ∧
    ∀ k st d id, s.strands.find k = some st → st.life = .blocked (.grid grid d id) →
      ∃ t, u.strands.find k = some t ∧ t.life = .ready ∧ t.pc = st.pc

/-- Once its completion word is settled, the grid retires and its waiters go on. -/
theorem GridOver.retires (h : GridOver s grid g) (hflushed : g.flushed = true) (hheld : s.flushHeld.recordsHeld grid = false) {t : State}
    (hword : s.flushHeld.writeDone (g.places.headD 0) grid g = .ok t)
    (hstrands : ∀ k st, st.life ≠ .blocked .sleep → StrandIs k st s.flushHeld → StrandIs k st t) :
    GridRetires s grid g (t.endGrid grid g) := by
  refine ⟨(h.exec_writes hflushed hheld hword).trans rfl, State.endGrid_find .., fun k st d id hfind hl => ?_⟩
  have hawake : st.life ≠ .blocked .sleep := by rw [hl]; nofun
  obtain ⟨x, hx, hpc, hready⟩ := State.endGrid_waiter (g := g)
    (hstrands k st hawake ((strandIs_recordKeeps hawake).flushHeld hfind)) hl
  exact ⟨x, hx, hready, hpc⟩

end

/-- Settles O45: a placed team stands in a cleared place, wave by wave and lane by lane; a team that is done is dropped with its waves;
a grid that is done settles its completion word by what is found at its address, and then retires. -/
theorem teamLife : Obligations.TeamLife := by
  refine ⟨⟨?_, ?_, ?_⟩, fun s team t g ht hdone hg hs => teamRetire_retires ht hdone hg hs, ?_⟩
  · intro s v g x f h hfind hunplaced hpin hturn hcoop _ hspot hrecords hnodup hwidth
    obtain ⟨hmem, hgrid, hteam, hwaves⟩ := nextPlaced_gives hfind hrecords hnodup hwidth
    exact ⟨_, _, exec_teamPlace_places hfind hunplaced hpin hturn hcoop hspot hrecords, hmem, hgrid, hteam, rfl, rfl, rfl, rfl, rfl, rfl,
      rfl, rfl, rfl, rfl, hwaves⟩
  · intro s v team t x f h ht hwaiting hfind htasks hturn hpins hspot hrecords
    have hpin : s.pinLost t.grid x = false := by
      cases hp : x.launch.pin with
      | none => exact pinLost_of_no_pin hp
      | some p =>
        obtain ⟨hretired, hhalted⟩ := hpins p hp
        simp [State.pinLost, hp, hretired, hhalted]
    exact ⟨_, _, exec_teamRelaunch_places ht hwaiting hfind htasks hturn hpin hspot hrecords,
      (State.putTeam_mem ..).trans (State.of_besideCaches (tableRecords_besideCaches hrecords) State.mem fun _ => rfl),
      State.putTeam_team .., rfl, rfl, rfl, rfl, rfl⟩
  · intro s g core x hfind hpin hlost
    refine ⟨fun hunplaced => ?_, fun team t ht hgrid hwaiting => ?_⟩
    · have hlost := pinLost_of_lost (g := g) hpin hlost (by simp [State.toPlace, hunplaced])
      rw [exec_teamPlace, execTeamPlace]
      refine eventStep_some ?_
      rw [hfind]
      show ((guard (x.unplaced = true) : Option Unit) >>= fun _ => _) = _
      rw [guard_bind hunplaced, hlost]
      rfl
    · have hplace : s.toPlace g x ≠ [] := by
        refine List.ne_nil_of_mem (a := (t.teamId, some t)) (List.mem_append_left _ (List.mem_map.mpr ⟨(team, t), ?_, rfl⟩))
        exact List.mem_filter.mpr ⟨Tbl.mem_of_find ht, by simp [hgrid, hwaiting]⟩
      have hlost := pinLost_of_lost hpin hlost hplace
      rw [exec_teamRelaunch, execTeamRelaunch]
      refine eventStep_some ?_
      rw [ht]
      show ((guard (t.waiting = true) : Option Unit) >>= fun _ => _) = _
      rw [guard_bind hwaiting, hgrid, hfind]
      show (if s.pinLost g x = true then _ else _) = _
      rw [if_pos hlost]
      rfl
  · intro s grid g hs hfind hgoing hplaced hcounted hteams hpools hitems hbelow hsent word
    have hover : GridOver s grid g := ⟨hfind, hgoing, hplaced, hcounted, hteams, hpools, hitems, hbelow, hsent⟩
    refine ⟨fun hflushed => hover.exec_flushes hflushed, ?_⟩
    intro v core w found retires
    refine ⟨fun hflushed hheld => hover.exec_held hflushed hheld, fun hflushed hheld => ⟨fun hdone => ?_, ?_, ?_, ?_, ?_⟩⟩
    · exact ⟨_, hover.retires hflushed hheld (writeDone_without hdone core) fun _ _ _ h => h, State.endGrid_mem ..⟩
    · intro cells hdone hfound hnodup
      have hword := writeDone_cells (s := v) (grid := grid) hdone hfound
      refine ⟨_, hover.retires hflushed hheld hword fun k st hl h => strandIs_performed hl (h.same rfl : StrandIs k st w) _ _, fun c hc => ?_⟩
      have hv : MemoryOk w := (MemoryOk.flushHeld hs).same rfl
      rw [State.endGrid_mem, State.mem_foldl_performNow, splitLines, flatten_splitBy]
      exact Memory.read_writeAll_same hv (keyed cells) (by rwa [keyed, List.map_map]) (memKey c.1, c.2) (List.mem_map.mpr ⟨c, hc, rfl⟩)
    · intro hdone hfound
      have hword := writeDone_unwritable (s := v) (grid := grid) hdone hfound
      exact ⟨_, hover.retires hflushed hheld hword fun k st hl h => (strandIs_recordKeeps hl).errorRecord (h.same rfl : StrandIs k st w) _,
        State.endGrid_mem .., State.endGrid_device ..⟩
    · intro va hdone hfound
      exact hover.exec_writes hflushed hheld (writeDone_found (s := v) (grid := grid) (core := core) hdone hfound)
    · intro hdone hfound
      exact hover.exec_writes hflushed hheld (writeDone_found (s := v) (grid := grid) (core := core) hdone hfound)

end Sys2Proof.Machine
end
